-- ==== Sys2Proof/Word.lean ====
section
/-! DEFINITION. The word types of the S48 and the status codes of R12. -/
namespace Sys2Proof

/-- One byte of pool memory, scratch or a buffer. -/
abbrev Byte := BitVec 8
/-- A Blurik word: 64 bits (R6, R62). -/
abbrev U64 := BitVec 64
/-- A 32-bit quantity: an FP32 encoding, an INT32 value, an immediate. -/
abbrev U32 := BitVec 32
/-- A vector register: 512 bits (R250). -/
abbrev V512 := BitVec 512

/-- The status codes of R12 that generation 1 returns. -/
inductive Status where
  | ok | range | perm | xlateFault | poison | overrun | notReady | revoked | conflict | timeout
  | flagTimeout | mbxFull | mbxLen | format | busyRetry | capLimited | deadAgent | fenced
  | integrity | unsupported | rsvdNonzero | version
  deriving DecidableEq, Repr

/-- The 8-bit code of a status (R12). -/
def Status.code : Status → Nat
  | .ok => 0x00 | .range => 0x01 | .perm => 0x02 | .xlateFault => 0x03 | .poison => 0x04
  | .overrun => 0x05 | .notReady => 0x06 | .revoked => 0x07 | .conflict => 0x08
  | .timeout => 0x09 | .flagTimeout => 0x0A | .mbxFull => 0x0B | .mbxLen => 0x0C
  | .format => 0x0D | .busyRetry => 0x0E | .capLimited => 0x0F | .deadAgent => 0x10
  | .fenced => 0x11 | .integrity => 0x12 | .unsupported => 0x13 | .rsvdNonzero => 0x14
  | .version => 0x15

end Sys2Proof
end

