-- ==== Sys2Proof/Syntax.lean ====
section
/-! DEFINITION. The commands of the block: one constructor for each row of the operation table, with the operands
that reach the S48 from outside (a packet, a register access, a measurement, a fault report) or that name the unit an
internal step concerns. -/
namespace Sys2Proof

/-- Unit numbers of R16 and R100. -/
abbrev WeaverId := Fin 768
abbrev PartId := Fin 64
abbrev LinkId := Fin 48
abbrev StackId := Fin 20
abbrev DieId := Fin 4
abbrev HalfId := Fin 2

/-- The operand fields of a Blurik instruction word below its opcode byte (R249). -/
structure Fields where
  fmt : BitVec 4 := 0
  dst : BitVec 5 := 0
  src1 : BitVec 5 := 0
  src2 : BitVec 5 := 0
  isel : Bool := false
  guard : BitVec 4 := 0
  imm : U32 := 0
  deriving DecidableEq, Repr

/-- The issuers of control requests (R302). -/
inductive Issuer where
  | stake
  | operator
  | owner (p : PartId)
  deriving DecidableEq, Repr

/-- A control request: 32 words (R296). -/
structure CtrlReq where
  words : List U64 := []
  deriving DecidableEq, Repr

/-- A Porward packet header with its payload bytes (R384, R385, R386). `auth` says whether the AES-256-GCM tag
verifies, `rsvd` whether a reserved header bit is nonzero, `lenOk` whether the length is 48 + 64 × UNITS. -/
structure Packet where
  cls : Nat := 0
  esc : Bool := false
  flag : Bool := false
  mcast : Bool := false
  poison : Bool := false
  hint : Bool := false
  escDown : Bool := false
  opcode : Nat := 0
  status : Nat := 0
  load : Nat := 0
  epoch : Bool := false
  units : Nat := 0
  opflags : Nat := 0
  keyId : Nat := 0
  part : Nat := 0
  tag : Nat := 0
  srcEp : Nat := 0
  dstEp : Nat := 0
  srcRank : Nat := 0
  pktCtr : Nat := 0
  seq : Nat := 0
  aux : Nat := 0
  word2 : Nat := 0
  payload : List Byte := []
  auth : Bool := true
  rsvd : Bool := false
  lenOk : Bool := true
  deriving DecidableEq, Repr

/-- Who asks a line's home (R218, R220): an agent of a partition by its rank, or the atomic buffer of a weave die. -/
inductive Requester where
  | agent (p : PartId) (rank : Nat)
  | buffer (d : DieId)
  deriving DecidableEq, Repr

/-- A fabric request past the entry checks of R390, as the home or the window check sees it. For an atomic buffer the
window is not used and `offset` is the pool address. -/
structure FabReq where
  who : Requester := .agent 0 0
  ld : HalfId := 0
  ep : Nat := 0
  tag : Nat := 0
  window : Nat := 0
  offset : Nat := 0
  units : Nat := 0
  rdUnits : Nat := 0
  seq : Nat := 0
  token : Option Nat := none
  hint : Bool := false
  link : LinkId := 0
  deriving DecidableEq, Repr

/-- The pool atomics of R228 and R284. -/
inductive AtomOp where
  | add | cas | max | swap
  deriving DecidableEq, Repr

/-- A flow: source endpoint, destination endpoint, partition and class (R407). -/
structure FlowId where
  src : Nat := 0
  dst : Nat := 0
  part : Nat := 0
  cls : Nat := 0
  deriving DecidableEq, Repr

/-- What the devices around the round boundary measured in the round that ends: the mean input power and the weaver
power in W (R524), the bus voltage in units of 0.1 V (R514), sensor readings (R530), failed self-test slices (R489),
stacks whose primary or secondary port missed its health exchange (R158), a hoop lease exchange (R507), pre-FEC bit
error ratios in units of 10⁻⁵ and what each link's counters of codewords and corrected symbols counted, by link and number (R383), and the
power outside the weavers in W (R529). -/
structure BoundaryIn where
  power : Nat := 0
  weaverPower : Nat := 0
  busV10 : Nat := 500
  temps : List (Nat × Nat) := []
  sliceFail : List HalfId := []
  missedPrimary : List StackId := []
  missedSecondary : List StackId := []
  ber : List (LinkId × Nat) := []
  codewords : List (LinkId × Nat × Nat) := []
  nonWeaver : Nat := 0
  deriving DecidableEq, Repr

/-- Why a page walk runs (R115). -/
inductive WalkSrc where
  | stroke (home : HalfId) (range : Fin 8)
  | fabric (ld : HalfId)
  | host (half : HalfId)
  deriving DecidableEq, Repr

/-- Rights asked of a page (R110). -/
structure Rights where
  r : Bool := false
  w : Bool := false
  a : Bool := false
  deriving DecidableEq, Repr

/-- The symbols in which a line that a stack returned differs from the 72 it stored, with the difference (R179, R181). -/
abbrev SymErrs := List (Fin 72 × Byte)

/-- SOURCE of an error-log record (R199). -/
abbrev LogSource := Fin 10

/-- A stack bank: stack, pseudo-channel, stack rank and bank (R153). -/
structure BankId where
  stack : StackId := 0
  pc : Fin 32 := 0
  rank : Fin 6 := 0
  bank : Fin 16 := 0
  deriving DecidableEq, Repr

/-- A protected path of R194; a UCIe link says whether its spare lanes repair it once it has failed (R197). -/
inductive PathKind where
  | mesh (d : DieId) | weaverPort (w : WeaverId) | weaveLink (h : HalfId) (repaired : Bool)
  | spine (bridge : HalfId) (repaired : Bool) | dieLink (d : DieId) (repaired : Bool) | rimEnd (h : HalfId)
  deriving DecidableEq, Repr

/-- What a transfer carries (R196). -/
inductive TransferKind where
  | readResponse | write | command
  deriving DecidableEq, Repr

/-- The request that a transfer belongs to: a stroke's pool request by the model's number, a host request by its TAG, or
another. -/
inductive Carrier where
  | stroke (id : Nat) | host (tag : Nat) | other
  deriving DecidableEq, Repr

/-- The transfer that a parity failure hits (R196): what it carries, the pool address, source and partition of its request
(R199), and the request. -/
structure Transfer where
  kind : TransferKind := .command
  pa : Nat := 0
  src : LogSource := 0
  part : PartId := 0
  who : Carrier := .other
  deriving DecidableEq, Repr

/-- Causes of a stack failure (R206). -/
inductive StackCause where
  | fatal | missedExchanges | ueLines
  deriving DecidableEq, Repr

/-- The ways of a training block (R371). -/
structure TrainBlock where
  confirm : Bool := false
  majorMax : Nat := 1
  majorMin : Nat := 1
  minor : Nat := 0
  deviceClass : Nat := 0
  laneMask : BitVec 8 := 0xFF
  endpoint : Nat := 0
  link : Nat := 0
  vcUnits : Nat := 64
  rsvd : Bool := false
  crcOk : Bool := true
  deriving DecidableEq, Repr

/-- The state a LINK_STATE packet names (R399): an S48, its UP neighbours and the agents on its agent links. -/
structure LinkStateMsg where
  origin : Nat := 0
  neighbours : List (Nat × Nat) := []
  agents : List (Nat × Nat) := []
  deriving DecidableEq, Repr

/-- The three deliveries of a ROUND_CTRL packet (R310, R529). -/
inductive RoundCtrl where
  | report (ep limit demand : Nat)
  | allotment (watts : Nat)
  | lengthChange (code : Fin 4)
  deriving DecidableEq, Repr

/-- A rim message header with its payload words (R443, R445). `rsvd` says whether a reserved header bit is nonzero. -/
structure RimMsg where
  type : Nat := 0
  dir : Bool := false
  status : Nat := 0
  channel : Nat := 0
  tag : Nat := 0
  len : Nat := 0
  addr : Nat := 0
  payload : List U64 := []
  rsvd : Bool := false
  group : HalfId := 0
  deriving DecidableEq, Repr

/-- What the header of a request from the host side carries beside its TYPE and ADDR: its TAG, and whether a bit that the TYPE
reserves is nonzero (R445, R447). -/
structure RimHead where
  tag : Nat := 0
  rsvd : Bool := false
  deriving DecidableEq, Repr

/-- A received control block: its 16 bytes, and the link it came on (R365). -/
structure CtrlBlock where
  link : LinkId
  bytes : List Byte
  deriving DecidableEq, Repr

/-- On whose behalf a line is read: the partition, and whether a write asked for it (R199). -/
structure LineUser where
  part : PartId := 0
  write : Bool := false
  deriving DecidableEq, Repr

/-- A line that read as UE: the error pattern it came with, and the units of its rand that read as UE at its offset (R185,
R187). -/
structure LineFault where
  err : SymErrs := []
  badUnits : List (Fin 9) := []
  deriving DecidableEq, Repr

/-- The stage times of a tagged instruction (R548). -/
structure SampleTimes where
  fetch : Nat := 0
  decode : Nat := 0
  issue : Nat := 0
  wb : Nat := 0
  req : Nat := 0
  done : Nat := 0
  stall : Nat := 0
  cause : Nat := 0
  load : Nat := 0
  deriving DecidableEq, Repr

/-- What a stake's slath finds in the image it reads (R467): MAGIC and reserved bits, the key slot and its digest, the
signature, the body digest, the SVN and fw_digest. -/
structure ImageFacts where
  magicOk : Bool := true
  keySlot : Fin 2 := 0
  keyHashOk : Bool := true
  sigOk : Bool := true
  bodyOk : Bool := true
  svn : Nat := 0
  digest : List U64 := []
  deriving DecidableEq, Repr


/-- What the phases of a start find (R555 to R559, R561): per stake its self-test and its image, the persistent area
and configuration record, the spine bridges and weave dies that train, failed weavers and stacks, links with light and
failed engines, and whether journal replay passes. -/
structure StartFacts where
  stakeSelfTest : List Bool := [true, true]
  images : List ImageFacts := [{}, {}]
  persistentOk : Bool := true
  bridgesOk : List Bool := [true, true]
  diesOk : List Bool := [true, true, true, true]
  badWeavers : List WeaverId := []
  badStacks : List StackId := []
  badLinks : List LinkId := []
  litLinks : List LinkId := []
  goodLinks : List LinkId := []
  replayOk : Bool := true
  domainRound : Option Nat := none
  deriving DecidableEq, Repr

/-- The commands: one constructor for each row of spec/opcode_table.json. -/
inductive Instr where
  /-- ROUND_BOUNDARY (R55): The local round timer reaches a boundary and every unit carries out the ordered boundary duties of steps 0 to 10. -/
  | roundBoundary (m : BoundaryIn)
  /-- LENGTH_CHANGE_EFFECT (R41): At the announced boundary every S48 of the domain switches round length and rescales per-round rates. -/
  | lengthChangeEffect
  /-- MARKER (R47): A received round marker steers the local timer by at most 16 ns and carries master, hop count and pending length change. -/
  | marker (l : LinkId) (boundary masterEp masterPrio hops : Nat) (pend : Option (Fin 4 × Nat)) (early : Bool) (offNs : Nat)
  /-- ROUND_CLAIM (R44): A received round claim is compared by the election keys and the best claim is forwarded. -/
  | roundClaim (l : LinkId) (counter prio ep : Nat)
  /-- MASTER_RECOGNISED (R44): A claim that has stood unchallenged for 8 rounds is recognised as round master. -/
  | masterRecognised
  /-- ROUND_HOLDOVER (R49): After 16 rounds with no marker on any link the S48 sets ROUND_HOLDOVER and sends an EVENT. -/
  | roundHoldover
  /-- ELECTION_START (R49): After 64 rounds with no marker the S48 starts an election among the devices it can reach. -/
  | electionStart
  /-- ROUND_RESYNC (R50): On meeting a domain with a higher counter the S48 adopts its counter and phase at one lengthened resynchronisation boundary. -/
  | roundResync (counter : Nat)
  /-- SQ_TAIL_DOORBELL (R70): An SQ tail doorbell updates the tail, or is ignored with a RANGE queue event when too many descriptors would be pending. -/
  | sqTailDoorbell (p : PartId) (q : Fin 64) (v : U64)
  /-- CQ_HEAD_DOORBELL (R70): A CQ head doorbell frees consumed records, or is ignored with a RANGE queue event in the CQ. -/
  | cqHeadDoorbell (p : PartId) (q : Fin 64) (v : U64)
  /-- SQ_RESET_DOORBELL (R71): An SQ reset doorbell abandons unadmitted descriptors, zeroes head and tail, clears the halt and re-reads the descriptor. -/
  | sqResetDoorbell (p : PartId) (q : Fin 64) (v : U64)
  /-- CQ_RESET_DOORBELL (R71): A CQ reset doorbell makes the device hold every record for the CQ until the next boundary. -/
  | cqResetDoorbell (p : PartId) (q : Fin 64) (v : U64)
  /-- CQ_RESET_APPLY (R71): At the boundary after a CQ reset doorbell the descriptor is re-read and the reset is performed or refused, and held records are written. -/
  | cqResetApply (p : PartId) (q : Fin 64)
  /-- DESCRIPTOR_FETCH (R76): Up to 64 descriptors per SQ per round are fetched in ring order and checked, completing, waiting or going on to translation. -/
  | descriptorFetch (p : PartId) (q : Fin 64)
  /-- TRANSLATION_PIN_COMPLETE (R77): The last range of a stroke is translated and pinned and its program made resident, so the stroke becomes placeable. -/
  | translationPinComplete (p : PartId) (q : Fin 64)
  /-- ADMISSION_POINT (R80): At each of the 16 admission points of a round, placeable strokes are offered in deterministic order to weavers that can fit them. -/
  | admissionPoint (k : Fin 16)
  /-- DEQUE_POP (R351): A weaver with no running stroke pops the front of its deque and starts it the next cycle. -/
  | dequePop (w : WeaverId)
  /-- STEAL (R88): An idle weaver tries to steal from the back of another deque through the three scopes. -/
  | steal (w : WeaverId)
  /-- BUDGET_STOP (R86): A stroke whose budget is spent is stopped at the next instruction boundary and completes with OVERRUN. -/
  | budgetStop (w : WeaverId)
  /-- CQ_HELD_RECORD_RETRY (R98): At step 8 of each boundary the device retries writing held completion records. -/
  | cqHeldRecordRetry (p : PartId) (q : Fin 64)
  /-- STREAM_LINE_LAND (R262): A pool line of a STREAM or GATHER lands in scratch, clearing its pending bit and setting poison if marked. -/
  | streamLineLand (id cycle : Nat)
  /-- POOL_RESPONSE (R260): A weaver's pool read, write acknowledgement or atomic answer arrives, landing the value or ending the stroke on an error status. -/
  | poolResponse (id : Nat) (st : Status) (cycle : Nat)
  /-- POOL_WRITE_REFUSAL (R261): A stroke's write or atomic is refused at the home and the stroke ends with that status or its record carries it. -/
  | poolWriteRefusal (id : Nat) (st : Status)
  /-- WATCH_EVALUATION (R288): The home evaluates a watch on a write or at the step 8 read and offers the suspended stroke again when the test holds or an error occurs. -/
  | watchEvaluation (sid : Nat) (st : Status)
  /-- WATCH_TIMEOUT (R288): A watch timer fires at S+T and the stroke is offered again with g4 TIMEOUT. -/
  | watchTimeout (sid : Nat)
  /-- ADD (R264): Add gS1 and source 2 modulo 2^64 into gD. -/
  | add (w : WeaverId) (f : Fields)
  /-- SUB (R264): Subtract source 2 from gS1 into gD. -/
  | sub (w : WeaverId) (f : Fields)
  /-- MUL (R264): Write the low 64 bits of the product into gD. -/
  | mul (w : WeaverId) (f : Fields)
  /-- DIVU (R264): Write the unsigned quotient, or all ones for a zero divisor. -/
  | divu (w : WeaverId) (f : Fields)
  /-- REMU (R264): Write the unsigned remainder, or gS1 for a zero divisor. -/
  | remu (w : WeaverId) (f : Fields)
  /-- AND (R264): Bitwise AND into gD. -/
  | andOp (w : WeaverId) (f : Fields)
  /-- OR (R264): Bitwise OR into gD. -/
  | orOp (w : WeaverId) (f : Fields)
  /-- XOR (R264): Bitwise XOR into gD. -/
  | xorOp (w : WeaverId) (f : Fields)
  /-- SHL (R264): Shift left by S2 [5:0]. -/
  | shl (w : WeaverId) (f : Fields)
  /-- SHR (R264): Logical shift right by S2 [5:0]. -/
  | shr (w : WeaverId) (f : Fields)
  /-- SRA (R264): Arithmetic shift right by S2 [5:0]. -/
  | sra (w : WeaverId) (f : Fields)
  /-- MIN (R264): Signed minimum into gD. -/
  | minOp (w : WeaverId) (f : Fields)
  /-- MAX (R264): Signed maximum into gD. -/
  | maxOp (w : WeaverId) (f : Fields)
  /-- LI (R264): Load the sign-extended immediate into gD. -/
  | li (w : WeaverId) (f : Fields)
  /-- LIX (R264): Load the following extension word into gD. -/
  | lix (w : WeaverId) (f : Fields)
  /-- LDC (R264): Load a constant word into gD, or end with RANGE past the constants. -/
  | ldc (w : WeaverId) (f : Fields)
  /-- CMPEQ (R264): Set pD if gS1 equals source 2. -/
  | cmpeq (w : WeaverId) (f : Fields)
  /-- CMPNE (R264): Set pD if gS1 differs from source 2. -/
  | cmpne (w : WeaverId) (f : Fields)
  /-- CMPLT (R264): Set pD if gS1 is signed-less than source 2. -/
  | cmplt (w : WeaverId) (f : Fields)
  /-- CMPLTU (R264): Set pD if gS1 is unsigned-less than source 2. -/
  | cmpltu (w : WeaverId) (f : Fields)
  /-- PLOG (R264): Combine two predicates with the logic operation in IMM. -/
  | plog (w : WeaverId) (f : Fields)
  /-- SEL (R264): Select gS1 or gS2 by a predicate into gD. -/
  | sel (w : WeaverId) (f : Fields)
  /-- BR (R266): Jump forward IMM words, leaving any enclosing loops passed. -/
  | br (w : WeaverId) (f : Fields)
  /-- LOOP (R265): Run the following body gS1 times, or end with RANGE for a count above 16,777,215. -/
  | loop (w : WeaverId) (f : Fields)
  /-- LD8U (R267): Load a zero-extended byte from scratch. -/
  | ld8u (w : WeaverId) (f : Fields)
  /-- LD16U (R267): Load a zero-extended halfword from scratch. -/
  | ld16u (w : WeaverId) (f : Fields)
  /-- LD32U (R267): Load a zero-extended word from scratch. -/
  | ld32u (w : WeaverId) (f : Fields)
  /-- LD32S (R267): Load a sign-extended word from scratch. -/
  | ld32s (w : WeaverId) (f : Fields)
  /-- LD64 (R267): Load a 64-bit word from scratch. -/
  | ld64 (w : WeaverId) (f : Fields)
  /-- ST8 (R267): Store the low byte of gS2 to scratch. -/
  | st8 (w : WeaverId) (f : Fields)
  /-- ST16 (R267): Store the low 16 bits of gS2 to scratch. -/
  | st16 (w : WeaverId) (f : Fields)
  /-- ST32 (R267): Store the low 32 bits of gS2 to scratch. -/
  | st32 (w : WeaverId) (f : Fields)
  /-- ST64 (R267): Store gS2 to scratch. -/
  | st64 (w : WeaverId) (f : Fields)
  /-- VLD (R267): Load a vector from scratch, unpacking FP6. -/
  | vld (w : WeaverId) (f : Fields)
  /-- VST (R267): Store a vector to scratch, packing FP6 and updating the poison bit. -/
  | vst (w : WeaverId) (f : Fields)
  /-- VLDB (R267): Load one element and broadcast it to every lane. -/
  | vldb (w : WeaverId) (f : Fields)
  /-- SCLR (R267): Zero a scratch range and clear its poison bits. -/
  | sclr (w : WeaverId) (f : Fields)
  /-- SPTEST (R268): Set pD to the scratch poison bit of a line. -/
  | sptest (w : WeaverId) (f : Fields)
  /-- STREAM (R269): Start a pool-to-scratch stream on a tag. -/
  | stream (w : WeaverId) (f : Fields)
  /-- STREAMW (R269): Start a scratch-to-pool stream on a tag. -/
  | streamw (w : WeaverId) (f : Fields)
  /-- GATHER (R269): Gather indexed pool elements into scratch. -/
  | gather (w : WeaverId) (f : Fields)
  /-- SCATTER (R269): Scatter scratch elements to indexed pool offsets. -/
  | scatter (w : WeaverId) (f : Fields)
  /-- PLD (R269): Load an aligned 8 B pool word into gD, waiting for the data. -/
  | pld (w : WeaverId) (f : Fields)
  /-- PST (R269): Store an aligned 8 B word to pool. -/
  | pst (w : WeaverId) (f : Fields)
  /-- SWAIT (R269): Wait until every masked stream tag is idle. -/
  | swait (w : WeaverId) (f : Fields)
  /-- VADD (R273): Lane-wise add. -/
  | vadd (w : WeaverId) (f : Fields)
  /-- VSUB (R273): Lane-wise subtract. -/
  | vsub (w : WeaverId) (f : Fields)
  /-- VMUL (R273): Lane-wise multiply. -/
  | vmul (w : WeaverId) (f : Fields)
  /-- VFMA (R273): Lane-wise fused multiply-add into vD. -/
  | vfma (w : WeaverId) (f : Fields)
  /-- VMIN (R273): Lane-wise minimum. -/
  | vmin (w : WeaverId) (f : Fields)
  /-- VMAX (R273): Lane-wise maximum. -/
  | vmax (w : WeaverId) (f : Fields)
  /-- VABS (R273): Lane-wise absolute value. -/
  | vabs (w : WeaverId) (f : Fields)
  /-- VEXP2 (R322): Lane-wise 2^x. -/
  | vexp2 (w : WeaverId) (f : Fields)
  /-- VRCP (R322): Lane-wise reciprocal. -/
  | vrcp (w : WeaverId) (f : Fields)
  /-- VRSQ (R322): Lane-wise reciprocal square root. -/
  | vrsq (w : WeaverId) (f : Fields)
  /-- VAND (R273): Bitwise AND over 512 bits. -/
  | vand (w : WeaverId) (f : Fields)
  /-- VOR (R273): Bitwise OR over 512 bits. -/
  | vor (w : WeaverId) (f : Fields)
  /-- VXOR (R273): Bitwise XOR over 512 bits. -/
  | vxor (w : WeaverId) (f : Fields)
  /-- VSHR (R273): Logical right shift of each integer lane. -/
  | vshr (w : WeaverId) (f : Fields)
  /-- VCMPLT (R273): Set each lane to all ones where vS1 is less than vS2. -/
  | vcmplt (w : WeaverId) (f : Fields)
  /-- VSEL (R273): Bitwise select between vS1 and vS2 by vD. -/
  | vsel (w : WeaverId) (f : Fields)
  /-- VSUM (R273): Sum the lanes in fixed order into gD. -/
  | vsum (w : WeaverId) (f : Fields)
  /-- VMAXR (R273): Write the largest lane into gD. -/
  | vmaxr (w : WeaverId) (f : Fields)
  /-- VBC (R273): Broadcast the low bits of gS1 into every lane. -/
  | vbc (w : WeaverId) (f : Fields)
  /-- VEXT (R273): Extract one lane into gD. -/
  | vext (w : WeaverId) (f : Fields)
  /-- VINS (R273): Insert gS1 into one lane of vD. -/
  | vins (w : WeaverId) (f : Fields)
  /-- VCVT (R274): Convert a vector between formats with the selected rounding and part index. -/
  | vcvt (w : WeaverId) (f : Fields)
  /-- VQUANT (R275): Quantise scratch elements into block-scaled form with E8M0 scales. -/
  | vquant (w : WeaverId) (f : Fields)
  /-- VDQ (R275): Dequantise block-scaled scratch elements into FP32 or BF16. -/
  | vdq (w : WeaverId) (f : Fields)
  /-- DOT (R276): Accumulate the lane-wise dot product of two vectors into gD. -/
  | dot (w : WeaverId) (f : Fields)
  /-- DOTR (R276): Compute N dot products of A with rows of B into scratch C. -/
  | dotr (w : WeaverId) (f : Fields)
  /-- AXPYR (R276): Accumulate a weighted sum of N rows of B into scratch C. -/
  | axpyr (w : WeaverId) (f : Fields)
  /-- MMA (R276): Accumulate an M by N tile product into scratch C. -/
  | mma (w : WeaverId) (f : Fields)
  /-- SMX (R279): Perform one base-2 online softmax step on N scores. -/
  | smx (w : WeaverId) (f : Fields)
  /-- OSCALE (R280): Scale K FP32 scratch values in place by f or 1/f. -/
  | oscale (w : WeaverId) (f : Fields)
  /-- FILL (R282): Launch a bulk FILL of a destination range. -/
  | fill (w : WeaverId) (f : Fields)
  /-- COPY (R282): Launch a bulk COPY from source to destination. -/
  | copy (w : WeaverId) (f : Fields)
  /-- COMPARE (R282): Launch a bulk COMPARE of two ranges. -/
  | compare (w : WeaverId) (f : Fields)
  /-- REDUCE (R282): Launch a bulk element-wise REDUCE into the destination. -/
  | reduce (w : WeaverId) (f : Fields)
  /-- CHECKSUM (R282): Launch a bulk CRC-32C or SHA3-256 checksum. -/
  | checksum (w : WeaverId) (f : Fields)
  /-- AADD (R284): Atomic add on a pool word through the die's atomic buffer. -/
  | aadd (w : WeaverId) (f : Fields)
  /-- ACAS (R284): Atomic compare-and-swap on a pool word. -/
  | acas (w : WeaverId) (f : Fields)
  /-- AMAX (R284): Atomic signed maximum on a pool word. -/
  | amax (w : WeaverId) (f : Fields)
  /-- ASWAP (R284): Atomic swap on a pool word. -/
  | aswap (w : WeaverId) (f : Fields)
  /-- FENCE (R285): Stall until every earlier pool write, atomic, FLAG and SEND of the stroke is acknowledged. -/
  | fence (w : WeaverId) (f : Fields)
  /-- FLAG (R286): Fence, then post an 8 B flag write to pool. -/
  | flag (w : WeaverId) (f : Fields)
  /-- WAIT (R287): Test a pool word and continue, or suspend the stroke on a watch. -/
  | wait (w : WeaverId) (f : Fields)
  /-- YIELD (R290): End the run and suspend the stroke until admission point 0 of the next boundary. -/
  | yield (w : WeaverId) (f : Fields)
  /-- PHASE (R291): Set the partition's current phase at the next boundary. -/
  | phase (w : WeaverId) (f : Fields)
  /-- SEND_MAILBOX (R292): Put a message of gS2 words on a mailbox channel. -/
  | sendMailbox (w : WeaverId) (f : Fields)
  /-- SEND_DOORBELL (R292): Ring a doorbell in the partition's doorbell block. -/
  | sendDoorbell (w : WeaverId) (f : Fields)
  /-- CNTRD (R293): Read a partition counter into gD when USER reading is allowed. -/
  | cntrd (w : WeaverId) (f : Fields)
  /-- TIME_BUDGET (R294): Write the budget cycles left in the run into gD. -/
  | timeBudget (w : WeaverId) (f : Fields)
  /-- TIME_ROUND (R294): Write the current round number into gD. -/
  | timeRound (w : WeaverId) (f : Fields)
  /-- END (R295): Complete the stroke OK with g1 as RESULT. -/
  | endStroke (w : WeaverId) (f : Fields)
  /-- SAMPLE_RECORD_WRITE (R548): The sample record of a tagged instruction is written to its ring once its last stage time is known. -/
  | sampleRecordWrite (w : WeaverId) (t : SampleTimes)
  /-- BULK_SLICE_END (R94): A bulk slice ends and the operation completes when it was the last slice, or stops on poison. -/
  | bulkSliceEnd (d : DieId) (ch : Fin 8)
  /-- PART_CREATE (R304): Create a partition with its windows, groups, queue table, owner key, mask and share. -/
  | partCreate (i : Issuer) (r : CtrlReq)
  /-- PART_DESTROY (R305): Destroy a partition, revoking every extent with FORCE and clearing its state at D. -/
  | partDestroy (i : Issuer) (r : CtrlReq)
  /-- PART_SET_AFFINITY (R306): Replace a partition's affinity mask and SHARE. -/
  | partSetAffinity (i : Issuer) (r : CtrlReq)
  /-- PART_SET_CONSENT (R306): Change the consent flags and open a new attestation epoch. -/
  | partSetConsent (i : Issuer) (r : CtrlReq)
  /-- EXT_GRANT (R137): Grant an extent of blocks from a named half to a partition. -/
  | extGrant (i : Issuer) (r : CtrlReq)
  /-- EXT_REVOKE (R138): Revoke an extent, starting its DRAINING timeline at D. -/
  | extRevoke (i : Issuer) (r : CtrlReq)
  /-- EXT_RETIRE (R152): Retire a free block or mark a held block to retire. -/
  | extRetire (i : Issuer) (r : CtrlReq)
  /-- EXT_QUERY_ENTRY (R133): Return an extent table entry in the issuer's view. -/
  | extQueryEntry (i : Issuer) (r : CtrlReq)
  /-- EXT_QUERY_NEXT (R299): Return the lowest extent at or above a number that the issuer holds or that is not FREE. -/
  | extQueryNext (i : Issuer) (r : CtrlReq)
  /-- WIN_MAP (R121): Map a window entry of the partition. -/
  | winMap (i : Issuer) (r : CtrlReq)
  /-- WIN_UNMAP (R121): Unmap a window of the partition. -/
  | winUnmap (i : Issuer) (r : CtrlReq)
  /-- RANK_SET (R402): Write a rank table entry, including FAR_ATOMIC and DEAD. -/
  | rankSet (i : Issuer) (r : CtrlReq)
  /-- MCAST_SET (R404): Write a multicast group entry and build its tree. -/
  | mcastSet (i : Issuer) (r : CtrlReq)
  /-- KEY_LOAD (R478): Load a wrapped peer traffic secret into a key slot. -/
  | keyLoad (i : Issuer) (r : CtrlReq)
  /-- SHAPE_SET (R307): Set a partition's egress shaper parameters. -/
  | shapeSet (i : Issuer) (r : CtrlReq)
  /-- POLICE_SET (R307): Set a partition's ingress policer parameters. -/
  | policeSet (i : Issuer) (r : CtrlReq)
  /-- RANK_BUDGET (R307): Set the per-round budget of a range of ranks. -/
  | rankBudget (i : Issuer) (r : CtrlReq)
  /-- PWR_CAP (R308): Set the operator power cap, clamping below 320 W with CAP_INFEASIBLE. -/
  | pwrCap (i : Issuer) (r : CtrlReq)
  /-- PWR_CAP_SAG_CAP (R308): Set the cap applied during a supply sag. -/
  | pwrCapSagCap (i : Issuer) (r : CtrlReq)
  /-- PWR_CAP_SAG_WARN (R308): Set the sag-warning bus threshold. -/
  | pwrCapSagWarn (i : Issuer) (r : CtrlReq)
  /-- PWR_MODE (R522): Set LEARNED, FIXED_FREQ and BOOST_EN. -/
  | pwrMode (i : Issuer) (r : CtrlReq)
  /-- OP_PREF (R523): Set a partition's preferred operating point for a phase. -/
  | opPref (i : Issuer) (r : CtrlReq)
  /-- CNT_SELECT_EVENT (R538): Select an event and filters for a counter, or set a snapshot ring or sampler. -/
  | cntSelectEvent (i : Issuer) (r : CtrlReq)
  /-- CNT_SELECT_USER_READ (R299): Allow or forbid USER strokes to read partition counters. -/
  | cntSelectUserRead (i : Issuer) (r : CtrlReq)
  /-- CNT_SNAP (R309): Name a boundary at which counters are snapshotted. -/
  | cntSnap (i : Issuer) (r : CtrlReq)
  /-- REGION_CREATE (R240): Create a region from the home partition's extents with an offer mask. -/
  | regionCreate (i : Issuer) (r : CtrlReq)
  /-- REGION_ACCEPT (R240): Accept an offered region, setting the issuer's READER_MASK bit. -/
  | regionAccept (i : Issuer) (r : CtrlReq)
  /-- REGION_DESTROY (R247): Start the destruction timeline of a region. -/
  | regionDestroy (i : Issuer) (r : CtrlReq)
  /-- REGION_PIN (R241): Pin PIN_VERSION of a region and write a pin record. -/
  | regionPin (i : Issuer) (r : CtrlReq)
  /-- REGION_UNPIN (R241): Release a region pin by handle. -/
  | regionUnpin (i : Issuer) (r : CtrlReq)
  /-- REGION_PUBLISH (R242): Check and claim the next region version from an update list. -/
  | regionPublish (i : Issuer) (r : CtrlReq)
  /-- MBX_BIND (R456): Bind a mailbox channel's sender and receiver during start-up. -/
  | mbxBind (i : Issuer) (r : CtrlReq)
  /-- MBX_LOCK (R456): Lock the mailbox binding table until device reset. -/
  | mbxLock (i : Issuer) (r : CtrlReq)
  /-- ROUND_SET (R310): Set MASTER_PRIORITY and request a domain round-length change. -/
  | roundSet (i : Issuer) (r : CtrlReq)
  /-- PROG_LOAD (R311): Read, check, hash and store a program image into a slot in the background. -/
  | progLoad (i : Issuer) (r : CtrlReq)
  /-- PROG_UNLOAD (R311): Free a program slot. -/
  | progUnload (i : Issuer) (r : CtrlReq)
  /-- ATTEST (R314): Write a signed device or partition attestation report to the output PVA. -/
  | attest (i : Issuer) (r : CtrlReq)
  /-- ROLE_SWAP (R506): Start a planned handover of the lease to the standby stake. -/
  | roleSwap (i : Issuer) (r : CtrlReq)
  /-- FW_STAGE (R511): Accept FW_CHUNKs of an image, check it and program the standby keep store. -/
  | fwStage (i : Issuer) (r : CtrlReq)
  /-- XLATE_SYNC (R118): Drop cached translations of a PVA range at the next boundary. -/
  | xlateSync (i : Issuer) (r : CtrlReq)
  /-- MEM_TARGET (R312): Set the latency target of a memory port. -/
  | memTarget (i : Issuer) (r : CtrlReq)
  /-- MEM_TARGET_REBUILD_SHARE (R312): Set the REBUILD_SHARE of a half. -/
  | memTargetRebuildShare (i : Issuer) (r : CtrlReq)
  /-- MEM_RETIRE (R202): Retire a page, bank or stack for the life of the device. -/
  | memRetire (i : Issuer) (r : CtrlReq)
  /-- ERR_READ (R314): Write readable error-log records in the operator view to an output PVA. -/
  | errRead (i : Issuer) (r : CtrlReq)
  /-- DEV_QUERY (R313): Return versions, integrity states, stake and lease data, and free blocks or holdings. -/
  | devQuery (i : Issuer) (r : CtrlReq)
  /-- CTRL_FENCE (R299): Return once every earlier instruction of the issuer has returned. -/
  | ctrlFence (i : Issuer) (r : CtrlReq)
  /-- BACKGROUND_INSTRUCTION_DONE (R303): A background control instruction finishes its work and stages its change or returns its result. -/
  | backgroundInstructionDone (i : Issuer)
  /-- CONTROL_RESULT_RETURN (R57): After the effect boundary and its journal record, the control result is returned to the issuer. -/
  | controlResultReturn (i : Issuer)
  /-- PAGE_WALK (R111): A walker finishes a page-table walk and resolves a PA or an outcome status. -/
  | pageWalk (walker : Fin 48) (p : PartId) (pva : Nat) (need : Rights) (src : WalkSrc)
  /-- DATA_NC (R127): Data for a migration engine's read of a peer window arrives and is written to the destination frames. -/
  | dataNc (p : PartId) (pva offset : Nat) (data : List Byte) (load : Nat)
  /-- MIGRATION_READ_FAIL (R129): A peer read fails and is retried, or after the fourth failure the migration is abandoned. -/
  | migrationReadFail (p : PartId) (pva : Nat) (st : Option Status)
  /-- MIGRATION_COMPLETE (R130): After the last byte lands the leaf is rewritten by compare-and-swap and waiters are walked again. -/
  | migrationComplete (p : PartId) (pva : Nat)
  /-- EXTENT_DRAIN_LIMIT (R138): At D+8 unfinished work on the extent is cancelled with REVOKED, pins are released and the sweep begins. -/
  | extentDrainLimit (e : Nat)
  /-- EXTENT_SCRUBBING_ENTRY (R135): At D+10 the extent becomes SCRUBBING and its blocks become DIRTY in the scrub queue. -/
  | extentScrubbingEntry (e : Nat)
  /-- SCRUB_BLOCK_READBACK (R146): The read-back of a scrubbed block certifies it, or fails and re-scrubs or retires and substitutes it. -/
  | scrubBlockReadback (h : HalfId) (pass : Bool)
  /-- EXTENT_FREE (R135): When every released block is certified or retired the extent becomes FREE. -/
  | extentFree (e : Nat)
  /-- MEM_READ_DECODE (R182): A stack read returns and the line code decides clean, corrected, poisoned or uncorrectable. -/
  | memReadDecode (pa : Nat) (err : SymErrs) (came : Option Nat) (src : LogSource) (who : LineUser)
  /-- VERIFY_READ (R184): The line is re-read after a write-back and marked HARD on a further error. -/
  | verifyRead (pa : Nat) (err : SymErrs)
  /-- RECONSTRUCTION (R185): The parity engine finishes reading the other units and reconstructs the line, or fails and poisons. -/
  | reconstruction (pa : Nat) (x : LineFault) (src : LogSource) (who : LineUser)
  /-- COALESCE_RELEASE (R169): A rand is released from the coalescing buffer and its data and parity are written. -/
  | coalesceRelease (h : HalfId) (rand : Nat)
  /-- PARITY_DELTA_UPDATE (R169): The parity stack's controller reads, XORs in a delta and writes the parity unit. -/
  | parityDeltaUpdate (h : HalfId) (rand : Nat)
  /-- REFRESH_DUE (R172): A bank's refresh due time passes and its postponed count rises. -/
  | refreshDue (b : BankId)
  /-- BANK_REFRESH (R172): A bank with postponed refreshes is refreshed when free, or forced at 8. -/
  | bankRefresh (b : BankId)
  /-- ROW_CLOSE_TIMEOUT (R168): An open row closes after 100 ns with no hitting request. -/
  | rowCloseTimeout (b : BankId)
  /-- REFRESH_RATE_SWITCH (R173): A stack sensor crosses 85 or 83 C and the refresh interval switches. -/
  | refreshRateSwitch (st : StackId) (temp : Nat)
  /-- WEAVE_DIE_FAILED (R159): A weave die reports a fatal error or misses two health exchanges and is declared failed. -/
  | weaveDieFailed (d : DieId)
  /-- FAILOVER_TAKEOVER (R161): At F+1 standby controllers take the failed die's stacks, and its strokes, walks and bulk work move to the partner. -/
  | failoverTakeover (d : DieId)
  /-- FAILOVER_RESYNC_DONE (R161): The parity resync of open intents ends and held requests are resent and released. -/
  | failoverResyncDone (d : DieId)
  /-- SELF_REFRESH_ENTRY (R175): A half idle for 1,000 rounds with no dirty block, rebuild or outstanding request enters self-refresh. -/
  | selfRefreshEntry (h : HalfId)
  /-- SELF_REFRESH_EXIT (R177): 50 us after a touch the half's stacks accept commands and held requests proceed. -/
  | selfRefreshExit (h : HalfId)
  /-- METADATA_FLUSH (R176): A half in self-refresh flushes buffered metadata writes when the buffer is three-quarters full or at a checkpoint. -/
  | metadataFlush (h : HalfId)
  /-- PARITY_MISMATCH (R195): A receiver finds a datapath parity mismatch and requests a replay. -/
  | parityMismatch (path : Nat) (kind : PathKind) (x : Transfer) (tries : List (List (U32 × Bool)))
  /-- STACK_FAILED (R206): A stack is declared failed and its half moves to the next integrity state. -/
  | stackFailed (st : StackId) (cause : StackCause)
  /-- REBUILD_RAND (R211): The rebuild engine reconstructs one rand onto its spare slot and verifies it. -/
  | rebuildRand (h : HalfId) (badLines : List (Fin 4 × Fin 9))
  /-- PAGE_RETIRE_COPY (R203): A retired page's copy to its replacement ends and held requests are released there. -/
  | pageRetireCopy (h : HalfId)
  /-- BANK_UNIT_MOVE (R204): The rebuild engine moves a unit of a retired bank to its rand's spare slot. -/
  | bankUnitMove (h : HalfId)
  /-- SCRATCH_ERROR (R348): A scratch word ECC error is corrected, or sets the line's poison bit. -/
  | scratchError (w : WeaverId) (addr : Nat) (uncorrectable : Bool)
  /-- REGISTER_PARITY_ERROR (R345): A register read parity mismatch ends the stroke with POISON. -/
  | registerParityError (w : WeaverId)
  /-- WEAVER_FENCE (R356): A fence cause arises and the weaver stops, its stroke completes DEAD_AGENT and its deque is offered again. -/
  | weaverFence (w : WeaverId) (cause : Nat)
  /-- RD_S (R223): The home serves a shared read of a line by its directory state. -/
  | rdS (r : FabReq)
  /-- RD_X (R223): The home grants ownership with data, invalidating or forwarding as needed. -/
  | rdX (r : FabReq)
  /-- UPG (R223): The home upgrades a shared copy to ownership. -/
  | upg (r : FabReq)
  /-- RD_NC (R223): The home serves a non-caching read of 0 to 16 lines. -/
  | rdNc (r : FabReq)
  /-- WR_NC (R223): The home applies a non-caching write after invalidating or recalling holders. -/
  | wrNc (r : FabReq) (data : List Byte) (masks : Option (List U64))
  /-- ATOM (R230): The home updates the predictor and executes a far atomic or grants ownership. -/
  | atom (r : FabReq) (op : AtomOp) (width8 : Bool) (operand compare : U64)
  /-- ACK_INV (R223): A sharer's invalidation acknowledgement is counted toward the pending transaction. -/
  | ackInv (p : PartId) (rank line : Nat)
  /-- FWD_DONE (R223): An owner's forward completes the transaction and the line is held for the oldest token. -/
  | fwdDone (p : PartId) (rank line : Nat) (data : Option (List Byte)) (poison : Bool)
  /-- FWD_MISS (R223): An agent reports the line not held, and the home serves from memory or waits for the WB. -/
  | fwdMiss (p : PartId) (rank line : Nat) (wbPending : Bool)
  /-- RECALL_DATA (R223): An owner returns the line on a recall or clean snoop. -/
  | recallData (p : PartId) (rank line : Nat) (data : Option (List Byte)) (poison : Bool)
  /-- WB (R223): A writeback is written if dirty and answered with CMP. -/
  | wb (who : Requester) (line : Nat) (dirty keep : Bool) (data : List Byte) (poison : Bool)
  /-- EVICT (R223): A sharer drops its copy and its pointer is removed. -/
  | evict (p : PartId) (rank line : Nat)
  /-- PROBE_ACK (R234): An agent answers a liveness probe without ending the probing. -/
  | probeAck (p : PartId) (rank : Nat)
  /-- MC_ACK (R406): A combined multicast acknowledgement reaches the home, which proceeds and probes missing members. -/
  | mcAck (p : PartId) (group line : Nat) (mask : BitVec 256)
  /-- MC_ACK_TIMEOUT (R406): A router sends its combined MC_ACK 4 rounds after forwarding the snoop if branches have not answered. -/
  | mcAckTimeout (origin group line : Nat)
  /-- SNOOP_PROBE (R234): At S+4, S+9 and S+14 the home sends SNP_PROBE and resends the unanswered snoop. -/
  | snoopProbe (line : Nat)
  /-- AGENT_DEAD_DECLARE (R234): An agent is declared dead at S+20 or on a dead-agent notice. -/
  | agentDeadDeclare (p : PartId) (rank : Nat)
  /-- TOKEN_LAPSE (R226): A retry token not presented within 4 rounds of its line being held lapses and its credit is released. -/
  | tokenLapse (line : Nat)
  /-- REGION_PUBLISH_COMPLETE (R243): After the last recall response PIN_VERSION, INDEX and PUBLISH_ROUND take the new version. -/
  | regionPublishComplete (r : Fin 1024)
  /-- VERSION_RETIRE (R245): A version below PIN_VERSION with no pins is retired and its frames freed. -/
  | versionRetire (r : Fin 1024) (v : Nat)
  /-- REGION_DRAIN_LIMIT (R247): At D+8 borrowed requests still unfinished complete REVOKED and the region sweep begins. -/
  | regionDrainLimit (r : Fin 1024)
  /-- REGION_INVALIDATE (R247): At D+10 the region record becomes not VALID and lent blocks become DIRTY. -/
  | regionInvalidate (r : Fin 1024)
  /-- LINK_PACKET_RX (R373): A link accepts an in-sequence packet with good CRC, or discards and NAKs. -/
  | linkPacketRx (l : LinkId) (seq : Nat) (ack : Option Nat) (crcOk codewordOk : Bool) (pkt : Packet)
  /-- PACKET_FORWARD (R396): A router sends a packet on a minimal link with credits or moves it to the escape channel. -/
  | packetForward (l : LinkId) (vc : Fin 8)
  /-- HOP_AGE_DROP (R394): A packet waiting 8 rounds at one router input is discarded. -/
  | hopAgeDrop (l : LinkId) (vc : Fin 8)
  /-- IDLE (R365): An IDLE control block is received. -/
  | idle (x : CtrlBlock)
  /-- ACK (R374): An acknowledgement frees replay-buffer packets up to its SEQ. -/
  | ack (l : LinkId) (seq : Nat)
  /-- NAK (R374): A NAK makes the sender resend every packet from the expected SEQ. -/
  | nak (l : LinkId) (seq : Nat)
  /-- CREDIT (R392): Returned credits for a virtual channel are added to the sender's count. -/
  | credit (l : LinkId) (vc : Fin 8) (units : Nat)
  /-- DELAY_REQ (R370): A delay request is answered with the echoed timestamp and turnaround. -/
  | delayReq (l : LinkId) (stamp : U64)
  /-- DELAY_RSP (R370): A delay response contributes a round-trip sample to the one-way delay. -/
  | delayRsp (l : LinkId) (roundTripPs turnaroundPs : Nat)
  /-- RETRAIN_REQ (R379): A retrain request pauses the link for a fast retrain to the new lane mask. -/
  | retrainReq (l : LinkId) (mask : BitVec 8)
  /-- LINK_DOWN (R376): A LINK_DOWN block from the peer declares the link DOWN with cause PEER_DOWN. -/
  | linkDown (l : LinkId) (cause : Nat)
  /-- TRAINING_BLOCK (R371): A training offer or confirm is received and the protocol version and lanes are negotiated. -/
  | trainingBlock (l : LinkId) (b : TrainBlock)
  /-- LIGHT_DETECT (R370): Light on 4 or more lanes starts link training. -/
  | lightDetect (l : LinkId) (lanes : BitVec 8)
  /-- TRAINING_STAGE_TIMEOUT (R370): A training stage exceeds its limit and training restarts after 1 ms. -/
  | trainingStageTimeout (l : LinkId)
  /-- TRAINING_COMPLETE (R370): Training stage 5 ends with the delay measured. -/
  | trainingComplete (l : LinkId)
  /-- TRAINING_RETRY (R370): After 8 failed trainings the link tries again only at each 65,536-round expiry. -/
  | trainingRetry (l : LinkId)
  /-- LINK_UP (R372): After four consecutive clean rounds a PROBATION link becomes UP. -/
  | linkUp (l : LinkId)
  /-- REPLAY_TIMEOUT (R374): No acknowledgement progress for 4 us makes the sender resend, or declare REPLAY_EXHAUSTED at the eighth send. -/
  | replayTimeout (l : LinkId)
  /-- NAK_RESEND (R373): Every 2 us the receiver resends its NAK until the expected SEQ arrives. -/
  | nakResend (l : LinkId)
  /-- LOSS_OF_LIGHT (R376): Fewer than 4 lanes with light for 100 ns declares the link DOWN. -/
  | lossOfLight (l : LinkId) (lanes : BitVec 8)
  /-- HEARTBEAT_TIMEOUT (R376): No valid control block or codeword for 500 ns declares the link DOWN. -/
  | heartbeatTimeout (l : LinkId)
  /-- LANE_FAULT (R378): A lane fault starts a narrowing retrain, or declares DOWN below 4 lanes. -/
  | laneFault (l : LinkId) (lane : Fin 8)
  /-- FAST_RETRAIN_DONE (R379): A fast retrain completes, the link is UP at the new width and lost packets are replayed. -/
  | fastRetrainDone (l : LinkId) (delayNs : Nat)
  /-- RETRAIN_TIMEOUT (R376): A fast retrain not complete within 20 us declares the link DOWN. -/
  | retrainTimeout (l : LinkId)
  /-- LANE_RESTORE (R380): A removed lane clean for 4,096 rounds is restored by a fast retrain. -/
  | laneRestore (l : LinkId) (lane : Fin 8)
  /-- HOLD_EXPIRY (R377): A link's 65,536-round HOLD ends and it may train again. -/
  | holdExpiry (l : LinkId)
  /-- ENGINE_FAILED (R381): An optical engine fatal fault takes its four links to FAILED. -/
  | engineFailed (oe : Fin 12)
  /-- SESSION_HELLO (R470): A HELLO starts a session, answered by a signed OFFER within 16 rounds or refused. -/
  | sessionHello (p : PartId) (ep rank sid frag frags : Nat) (nonce : List U64)
  /-- SESSION_CONFIRM (R470): A CONFIRM whose mac matches completes the session, else DONE with INTEGRITY. -/
  | sessionConfirm (p : PartId) (sid : Nat) (macOk : Bool) (ss : List U64)
  /-- SESSION_CONFIRM_LAPSE (R470): A session attempt lapses 256 rounds after its OFFER without CONFIRM. -/
  | sessionConfirmLapse (p : PartId)
  /-- MBX_PUT (R457): An agent's mailbox put packet is placed in its channel or refused. -/
  | mbxPut (p : PartId) (rank tag channel len : Nat) (words : List U64)
  /-- FLOW_RESET (R412): The flow home records the reset threshold, clears the flow and answers CMP. -/
  | flowReset (f : FlowId) (pktCtr tag : Nat)
  /-- LINK_STATE (R399): A flooded LINK_STATE updates the stake's view of the fabric for route recomputation. -/
  | linkState (l : LinkId) (m : LinkStateMsg)
  /-- LINK_STATE_FLOOD (R399): An S48 floods LINK_STATE on a change of its links or agents, or every 4,096 rounds. -/
  | linkStateFlood
  /-- MC_INSTALL (R405): A router installs a multicast tree entry for an origin and group. -/
  | mcInstall (origin group : Nat) (outs : List LinkId) (localDelivery : Bool)
  /-- ROUND_CTRL (R529): A device-to-device ROUND_CTRL delivers a power report to the leader, an allotment to a member, or a length change to the master. -/
  | roundCtrl (m : RoundCtrl)
  /-- FLOW_COUNT_NOTICE (R409): A count notice from the other link die updates the flow home's epoch counters. -/
  | flowCountNotice (f : FlowId) (epoch : Bool) (n : Nat)
  /-- FLAGGED_REQUEST_DELIVER (R410): A parked flagged request is delivered once its flow's count is reached. -/
  | flaggedRequestDeliver (f : FlowId)
  /-- FLAG_WAIT_EXPIRY (R411): The flag wait expires and the request is answered FLAG_TIMEOUT with the flow in RESET_WAIT. -/
  | flagWaitExpiry (f : FlowId)
  /-- FLOW_FORGET (R413): A flow home forgets a flow with no packet for 1,024 rounds. -/
  | flowForget (f : FlowId)
  /-- LINK_DIE_FAILED (R414): A link die fails and the other link die becomes flow home and applies whole traffic parameters. -/
  | linkDieFailed (d : HalfId)
  /-- ROUTE_TABLE_INSTALL (R399): The recomputed route table is installed at step 4 of a boundary. -/
  | routeTableInstall
  /-- ORIENTATION_BOUNDARY (R400): At the announced orientation boundary tables change and escape-channel packets are flushed. -/
  | orientationBoundary
  /-- ENDPOINT_UNREACHABLE (R401): No path to an agent endpoint for 16 rounds declares its ranks unreachable. -/
  | endpointUnreachable (ep : Nat)
  /-- RANK_MISS_FILL (R403): A rank-table cache miss is served from metadata and the waiting packet proceeds. -/
  | rankMissFill (d : HalfId) (p : PartId) (rank : Nat)
  /-- TRANSPORT_TIMEOUT (R417): An S48 requester's transport timeout expires and it resends. -/
  | transportTimeout (tag : Nat)
  /-- RIM_MEM_RD (R441): A host line read on the rim is translated and served, refused, poisoned or held. -/
  | rimMemRd (tag dpa : Nat) (rsvd : Bool)
  /-- RIM_MEM_WR (R441): A host line write on the rim is applied, refused or discarded. -/
  | rimMemWr (tag dpa : Nat) (data : List Byte) (mask : Option U64) (rsvd : Bool)
  /-- HOST_RELEASE_TIMER (R487): A host read or write answer is released no earlier than HOST_RELEASE after the request. -/
  | hostReleaseTimer (tag : Nat)
  /-- HOST_REQUEST_HOLD_TIMEOUT (R441): A host request held for 256 rounds resolves with poison or discard. -/
  | hostRequestHoldTimeout (tag : Nat)
  /-- RIM_MBX_PUT (R457): A mailbox message crosses the rim and is placed in its channel or refused. -/
  | rimMbxPut (m : RimMsg)
  /-- RIM_MBX_ACK (R458): A put result or consumption acknowledgement crosses the rim. -/
  | rimMbxAck (toHost : Bool) (channel tag : Nat) (consumed : Bool) (st : Status)
  /-- RIM_DOORBELL (R446): A HOST-partition doorbell write reaches the fabric, or an MSI-X vector reaches the host. -/
  | rimDoorbell (toHost : Bool) (head : RimHead) (addr : Nat) (v : U64)
  /-- CTRL_RESULT (R454): A control result reaches the host result queue and sets CTRL_RES. -/
  | ctrlResult
  /-- ATTEST_REQ (R446): A host attestation request produces a device report. -/
  | attestReq (head : RimHead) (nonce : List U64)
  /-- ATTEST_RESP (R452): The report and IDE key material land at the host and ATTEST_DONE sets. -/
  | attestResp (st : Status)
  /-- FW_CHUNK (R511): A firmware chunk is stored in staging, or refused with RIM_NAK. -/
  | fwChunk (head : RimHead) (index : Nat) (words : List U64) (facts : ImageFacts)
  /-- TELEMETRY (R451): A telemetry request for a selector is answered with coarsened data. -/
  | telemetry (head : RimHead) (selector : Nat)
  /-- TELEMETRY_DATA (R453): Telemetry data lands in TELEM_BUF and TELEM_DONE sets. -/
  | telemetryData
  /-- EVENT (R450): An event record reaches the host event queue and CXL logs and sets EVENT. -/
  | event
  /-- TIME_SYNC (R446): A time-sync request is answered with the round number and rim timestamp. -/
  | timeSync (head : RimHead)
  /-- TIME_SYNC_PERIODIC (R446): Every 1,024 rounds the fabric side sends TIME_SYNC unasked. -/
  | timeSyncPeriodic
  /-- RIM_HEALTH (R443): A RIM_HEALTH message carries lane states and counts toward making a group usable. -/
  | rimHealth (g : HalfId) (toHost : Bool) (lanes : BitVec 10)
  /-- RIM_NAK (R447): A refusal of a rim message with its status and TAG arrives. -/
  | rimNak (toHost : Bool) (tag type : Nat) (st : Status)
  /-- RIM_MESSAGE_DROP (R447): A rim message of unknown type, wrong direction or bad length is dropped and counted. -/
  | rimMessageDrop (atHost : Bool) (m : RimMsg)
  /-- RIM_MESSAGE_CRC_FAIL (R443): A rim message fails its CRC and is replayed from the buffer. -/
  | rimMessageCrcFail (g : HalfId) (atHost : Bool)
  /-- RIM_GROUP_DOWN (R443): A lane group with no valid RIM_HEALTH for 8 us or an eighth send goes down and traffic moves. -/
  | rimGroupDown (g : HalfId)
  /-- RIM_LANE_FAULT (R444): A faulty rim lane makes both ends narrow the group. -/
  | rimLaneFault (g : HalfId) (lane : Fin 10)
  /-- RIM_LANE_RESTORE (R444): A rim lane fault-free for 4,096 rounds is restored. -/
  | rimLaneRestore (g : HalfId) (lane : Fin 10)
  /-- MBX_ACK_TIMEOUT (R457): No MBX_ACK within 20 us completes a host put with Completer Abort and TIMEOUT. -/
  | mbxAckTimeout (k : Fin 16)
  /-- MAILBOX_DELIVERY (R459): A message is delivered into a partition's mailbox area when room exists, then RX_PROD is written. -/
  | mailboxDelivery (p : PartId)
  /-- CTRL_GO (R454): A write submits CTRL_REQ over the rim, or queues a BUSY_RETRY result beyond 64 outstanding. -/
  | ctrlGo
  /-- CTRL_RES_POP (R452): A write discards the oldest control result. -/
  | ctrlResPop
  /-- EVENT_POP (R452): A write discards the oldest event. -/
  | eventPop
  /-- MBX_PUT_READ (R457): A read of MBX_PUT(k) puts the host message and returns its status. -/
  | mbxPutRead (k : Fin 16)
  /-- MBX_POP (R458): A write consumes the head message of a receive channel and sends MBX_ACK. -/
  | mbxPop (j : Fin 32)
  /-- INT_STATUS_WRITE (R9): A write of 1 clears interrupt status flags, with a simultaneous set winning. -/
  | intStatusWrite (v : U64) (setSameCycle : U64)
  /-- TELEM_REQ (R451): A write sends a TELEMETRY request for the selector. -/
  | telemReq (v : U64)
  /-- ATTEST_GO (R452): A write sends ATTEST_REQ with the nonce. -/
  | attestGo
  /-- FW_GO (R511): A write sends FW_CHUNK from FW_BUF. -/
  | fwGo (v : U64)
  /-- HOST_DB (R452): A write sends a DOORBELL to the HOST partition's doorbell block. -/
  | hostDb (v : U64)
  /-- HOST_REGISTER_WRITE (R452): A write to a BAR0 register with no behaviour of its own, or an invalid access answered with Completer Abort. -/
  | hostRegisterWrite (offset size : Nat) (v : U64)
  /-- IDENTIFY_MEMORY_DEVICE (R436): The host-side die answers Identify Memory Device. -/
  | identifyMemoryDevice
  /-- GET_SUPPORTED_LOGS (R436): The host-side die answers Get Supported Logs. -/
  | getSupportedLogs
  /-- GET_LOG (R436): The host-side die returns the Command Effects Log. -/
  | getLog
  /-- GET_EVENT_RECORDS (R436): The host-side die returns event records. -/
  | getEventRecords (log : Nat)
  /-- CLEAR_EVENT_RECORDS (R436): The host-side die clears event records. -/
  | clearEventRecords (log : Nat) (n : Nat)
  /-- GET_EVENT_INTERRUPT_POLICY (R436): The host-side die returns the event interrupt policy. -/
  | getEventInterruptPolicy
  /-- SET_EVENT_INTERRUPT_POLICY (R436): The host-side die sets the event interrupt policy. -/
  | setEventInterruptPolicy (policy : U64)
  /-- GET_HEALTH_INFO (R436): The host-side die returns health information. -/
  | getHealthInfo
  /-- GET_DYNAMIC_CAPACITY_CONFIGURATION (R436): The command is relayed to the stake on channel 64 and answered on channel 80. -/
  | getDynamicCapacityConfiguration (reqId : Nat)
  /-- GET_DYNAMIC_CAPACITY_EXTENT_LIST (R436): The host extent list is relayed from the stake. -/
  | getDynamicCapacityExtentList (reqId : Nat)
  /-- ADD_DYNAMIC_CAPACITY_RESPONSE (R440): The host accepts an offered extent, which becomes ACCEPTED at the next boundary. -/
  | addDynamicCapacityResponse (reqId : Nat) (entry : Fin 64)
  /-- RELEASE_DYNAMIC_CAPACITY (R440): The host releases a host extent, which becomes RELEASING. -/
  | releaseDynamicCapacity (reqId : Nat) (entry : Fin 64)
  /-- DC_OFFER (R439): The operator offers a HOST-partition extent to the host as Dynamic Capacity. -/
  | dcOffer (reqId extent pvaBase : Nat)
  /-- DC_WITHDRAW (R440): The operator withdraws a host extent, forcibly or by asking the host to release it. -/
  | dcWithdraw (reqId extent : Nat) (force : Bool)
  /-- CFG_STAGE (R553): The operator stages a new stake configuration record for the next start. -/
  | cfgStage (reqId : Nat) (w0 w1 : U64) (key : List U64)
  /-- HOST_EXTENT_FREE (R440): At D+8 a RELEASING host extent becomes FREE and HOSTED clears. -/
  | hostExtentFree (entry : Fin 64)
  /-- KEY_GENERATION_ADVANCE (R475): The partition's key generation advances when a packet counter reaches 2^31 or an epoch opens. -/
  | keyGenerationAdvance (p : PartId)
  /-- KEY_GENERATION_DROP (R475): 4,096 rounds after an epoch opens the previous epoch's last generation is dropped. -/
  | keyGenerationDrop (p : PartId)
  /-- DEBUG_UNLOCK (R484): A signed challenge response unlocks the debug access path. -/
  | debugUnlock (sigOk : Bool) (reach : List PartId)
  /-- DEBUG_HALT (R484): A debug halt aimed at a weaver of a non-consenting partition takes effect after its stroke ends. -/
  | debugHalt (w : WeaverId)
  /-- STAKE_HEALTH_FAIL (R490): An active stake misses two watchdog writes or reports an SRAM or secure-element fault and reads FAILED. -/
  | stakeHealthFail (k : HalfId) (missedWrites : Nat) (sramError secureFault : Bool)
  /-- LEASE_END (R500): The lease lapses or the holder reads FAILED, and the hoop starts an unplanned takeover. -/
  | leaseEnd
  /-- TAKEOVER_COMPLETE (R501): The new holder finishes boot, replay and record completion and sends its first renewal. -/
  | takeoverComplete (facts : ImageFacts) (replayOk : Bool)
  /-- TAKEOVER_FAILED (R503): The new holder fails a phase or exceeds 20 ms and the lease moves again. -/
  | takeoverFailed
  /-- HANDOVER_READY (R504): The incoming stake reports READY and the hoop stages the handover boundary. -/
  | handoverReady
  /-- HANDOVER_BOUNDARY (R504): At the handover boundary the epoch moves to the incoming stake and the outgoing enters reset. -/
  | handoverBoundary
  /-- HOME_STAKE_RETURN (R505): The active stake starts a handover back to the home stake once its conditions hold. -/
  | homeStakeReturn
  /-- SPINE_LOSS (R508): Both spine bridges are down and the other half becomes an isolated subordinate. -/
  | spineLoss
  /-- SPINE_RETURN (R509): The spine returns and the holder copies journal records and checkpoints to the subordinate half. -/
  | spineReturn
  /-- SPINE_REJOIN (R509): At the boundary after the copy completes the subordinate half rejoins. -/
  | spineRejoin
  /-- KEEP_STORE_WRITE_DONE (R510): A keep store image is read back and matched and set VALID. -/
  | keepStoreWriteDone (k : HalfId) (readBackOk : Bool)
  /-- FW_STAGE_TIMEOUT (R511): FW.STAGE completes with TIMEOUT when chunks are incomplete after 65,536 rounds. -/
  | fwStageTimeout
  /-- CHECKPOINT (R498): At N mod 4,096 = 0 the active stake writes a checkpoint of the journalled control state. -/
  | checkpoint (margins : List (WeaverId × Nat))
  /-- PERSISTENT_AREA_WRITE (R552): The active stake writes a change to the persistent area of both keep stores. -/
  | persistentAreaWrite
  /-- FEED_LOST (R514): A feed below 38 V for 10 us sets SINGLE_FEED and the feed cap. -/
  | feedLost (b : Bool)
  /-- FEED_RESTORED (R513): A feed at 40 V or more for 64 rounds clears SINGLE_FEED. -/
  | feedRestored (b : Bool)
  /-- SAG_WARN (R515): The bus below SAG_WARN for 10 us applies the sag cap, flushes metadata and pauses keep-store programming. -/
  | sagWarn (busV10 : Nat)
  /-- SAG_CLEAR (R513): The bus at SAG_WARN + 1 V for 64 rounds clears the sag. -/
  | sagClear (busV10 : Nat)
  /-- UNDERVOLT_RESET (R516): The bus below 38 V for 1 us resets the fabric side without retention. -/
  | undervoltReset (busV10 : Nat)
  /-- OVERVOLT (R513): The bus above 61 V for 10 us sets OVERVOLT and raises a SUPPLY EVENT. -/
  | overvolt (busV10 : Nat)
  /-- CAP_HELD_OVER (R525): Power above the cap for 64 rounds with every actuator at its limit sets CAP_HELD_OVER. -/
  | capHeldOver
  /-- GROUP_FALLBACK (R529): A power-group member without an allotment for 16 rounds falls back to its own cap. -/
  | groupFallback
  /-- OPERATING_POINT_CHANGE (R521): At each 64-round interval the ceiling moves at most one step and weaver clocks are set. -/
  | operatingPointChange
  /-- THROTTLE (R530): A sensor reaches its throttle threshold and the thermal cap applies. -/
  | throttle (sensor temp : Nat)
  /-- THROTTLE_CLEAR (R530): Every sensor 3 C below its threshold lets the thermal cap rise until removed. -/
  | throttleClear (sensor temp : Nat)
  /-- TRIP (R531): A sensor at its trip for 1 us turns off the fabric-side power stage. -/
  | trip (sensor temp : Nat)
  /-- SNAPSHOT_RECORD_WRITE (R544): At B+2 the reader sums the halves and writes partition and operator snapshot records. -/
  | snapshotRecordWrite (b : Nat)
  /-- POWER_ON (R551): The bus at 40 V for 100 ms releases reset and starts a cold start. -/
  | powerOn
  /-- DEV_RESET_N (R577): DEV_RESET_N low for 10 us causes DEVICE_COLD and holds the fabric side in reset. -/
  | devResetN (low : Bool)
  /-- HOST_ISLAND_RESET (R551): HOST_PERST_N or island supply loss resets the host-side die only. -/
  | hostIslandReset
  /-- RIM_RETRAIN (R563): A RESET_REQ of kind 1 retrains both rim lane groups. -/
  | rimRetrain (tag : Nat)
  /-- DEVICE_WARM (R560): A RESET_REQ of kind 2 is accepted and a warm reset begins at the next boundary. -/
  | deviceWarm (tag confirm : Nat)
  /-- DEVICE_COLD (R563): A RESET_REQ of kind 3 resets the fabric side at the next boundary for a cold start. -/
  | deviceCold (tag confirm : Nat)
  /-- COLD_START (R555): From reset release the fabric side runs the start phases, including the full memory test when due. -/
  | coldStart (f : StartFacts)
  /-- SPINE_TRAINING_RETRY (R559): With no spine bridge trained, start phase 4 is retried every 10 s. -/
  | spineTrainingRetry (bridgesOk : List Bool)
  /-- ENTER_SERVICE (R555): At the boundary after phase 9 the fabric side enters SERVICE. -/
  | enterService
  /-- WARM_QUIESCE_START (R560): At W admission stops and new fabric requests answer NOT_READY. -/
  | warmQuiesceStart
  /-- WARM_QUIESCE_LIMIT (R560): At W+8 unfinished bulk work and parked flags complete and volatile state is written to metadata. -/
  | warmQuiesceLimit
  /-- WARM_RESET_ENTRY (R560): At W+10 stacks enter self-refresh, links go down and the fabric side resets. -/
  | warmResetEntry
  /-- WARM_START (R561): The fabric side restarts from retained memory, replaying checkpoint and journal. -/
  | warmStart (f : StartFacts)
  /-- TRIP_COOLDOWN_END (R531): After a thermal trip, once the power stage has been off for 60 s and every sensor reads below 60 C, the power stage turns on again, THERMTRIP_N is released and a cold start begins. -/
  | tripCooldownEnd
  /-- OVERVOLT_CLEAR (R517): The bus returns to 61 V or below and the OVERVOLT condition clears. -/
  | overvoltClear (busV10 : Nat)
  /-- HANDOVER_FAILED (R506): An incoming stake of a handover or home-stake return fails the slath checks or does not report READY within 20 ms of release, ROLE.SWAP completes with INTEGRITY or TIMEOUT, and the stake returns to reset. -/
  | handoverFailed (facts : ImageFacts) (timedOut : Bool)
  /-- VERIFICATION_BOOT_END (R512): A stake on a verification boot (VERIFYING) finishes the slath checks of the new image and returns to reset, completing the live update when the checks passed. -/
  | verificationBootEnd (k : HalfId) (facts : ImageFacts)
  /-- SESSION_OFFER (R470): The active stake finishes the ML-KEM encapsulation and signature of a session start and sends the OFFER fragments, within 16 rounds of the last HELLO fragment. -/
  | sessionOffer (p : PartId)
  /-- RESET_CMD (R563): A host write to RESET_CMD sends a RESET_REQ, which the fabric side accepts by kind or answers with RIM_NAK PERM for a wrong CONFIRM or UNSUPPORTED for an undefined KIND. -/
  | resetCmd (v : U64)
  /-- HOST_ISLAND_RESET_RELEASE (R449): HOST_PERST_N is deasserted or the island supply returns, the host-side die restarts and trains its CXL link, and the fabric side sends each channel's head message again once the rim returns. -/
  | hostIslandResetRelease
  /-- UNSUPPORTED_MAILBOX_COMMAND (R436): A primary mailbox command outside the answered set, including every poison-list, sanitize and secure-erase command, returns the CXL return code Unsupported. -/
  | unsupportedMailboxCommand (opcode : Nat)
  deriving DecidableEq, Repr

end Sys2Proof
end

