-- ==== Sys2Proof/Decode.lean ====
section
/-! DEFINITION. The commands that a word spells. No row of the operation table gives bits, so no word spells one. -/
namespace Sys2Proof

/-- The command a word spells by the bits of the operation table: none, since no row of the table gives any. -/
def decodeTableWord (_nbits _w : Nat) : Option Instr := none

end Sys2Proof
end

