-- ==== Sys2Proof/Machine/State.lean ====
section
/-! DEFINITION. The state of the S48 as plain data, and its value right after reset. Each field's comment names its
width and the rule of spec/ that gives it; its default is its value at reset. -/
namespace Sys2Proof.Machine

/-- A sparse table: pairs of a key and a value, keys rising, no entry equal to the table's default. -/
abbrev SMap (α : Type) := List (Nat × α)

/-! ### The round (chapter 02) -/

/-- A round claim's key (R43). -/
structure Claim where
  /-- R43: 64 bits. -/
  counter : Nat := 0
  /-- R43: 8 bits. -/
  prio : Nat := 0
  /-- R43: 20 bits. -/
  ep : Nat := 0
  deriving DecidableEq, Repr

/-- Round counter, length, master election and marker following. -/
structure RoundSt where
  /-- R39, R50, R555: 64 bits; the round counter. -/
  counter : Nat := 0
  /-- R40, R310: 2 bits; 0 to 3 for 1, 2, 4 and 8 µs. -/
  length : Nat := 1
  /-- R41, R46: length code and effect boundary of the announced length change. -/
  pendLength : Option (Nat × Nat) := none
  /-- R310: 1 bit; a length change is pending in the domain. -/
  lengthBusy : Bool := false
  /-- R43, R553: 8 bits; MASTER_PRIORITY. -/
  prio : Nat := 128
  /-- R43: 20 bits; this device's fabric endpoint identifier. -/
  endpoint : Nat := 0
  /-- R43: 20 bits; endpoint of the recognised round master. -/
  master : Option Nat := none
  /-- R44: the best claim heard or made. -/
  best : Option Claim := none
  /-- R44: rounds for which the best claim has stood unchallenged. -/
  bestAge : Nat := 0
  /-- R43: rounds since a claim of nonzero priority was heard; at most 64. -/
  nonzeroAge : Nat := 0
  /-- R46: 8 bits; the priority of the recognised round master. -/
  masterPrio : Nat := 128
  /-- R44, R49: 1 bit; an election runs. -/
  electing : Bool := false
  /-- R45, R49: rounds without a marker on any link. -/
  markerAge : Nat := 0
  /-- R46: 6 bits; the parent link. -/
  parent : Option Nat := none
  /-- R46: hop count heard in the last marker of each link, plus 1. -/
  hops : SMap Nat := []
  /-- R47: signed, −16 to 16 ns; the steer of the next boundary. -/
  steer : Int := 0
  /-- R49: 1 bit; the present gap in the markers has set ROUND_HOLDOVER. -/
  held : Bool := false
  /-- R49: 1 bit; flag ROUND_HOLDOVER. -/
  holdover : Bool := false
  /-- R9: 8 bits; event count of ROUND_HOLDOVER. -/
  holdoverCount : Nat := 0
  /-- R50: 1 bit; flag ROUND_RESYNC. -/
  resync : Bool := false
  /-- R9: 8 bits; event count of ROUND_RESYNC. -/
  resyncCount : Nat := 0
  /-- R50: 64 bits; the number that the next boundary adopts from a prevailing domain. -/
  join : Option Nat := none
  /-- R50: 1 bit; the running round is a lengthened resynchronisation round. -/
  lengthened : Bool := false
  /-- R40, R41: 2 bits; length of the running round, which a length change at its end leaves as it was. -/
  running : Nat := 1
  /-- R80: 5 bits; the round's next admission point. -/
  point : Nat := 0
  deriving DecidableEq, Repr

/-! ### Extents, blocks and windows (chapters 04 and 05) -/

/-- STATE of an extent (R132). -/
inductive ExtState where
  | free | active | draining | scrubbing
  deriving DecidableEq, Repr

/-- One block-list entry (R107); `lost` under R147. -/
structure BlockEnt where
  /-- R107: 20 bits; BLOCK. -/
  block : Nat := 0
  /-- R107: 1 bit; CERTIFIED. -/
  cert : Bool := false
  /-- R147: 1 bit; the entry is marked lost. -/
  lost : Bool := false
  deriving DecidableEq, Repr

/-- One extent table entry (R132) with its block list and the figures of its scrub record (R150). -/
structure Extent where
  /-- R132: 2 bits; STATE. -/
  st : ExtState := .free
  /-- R132: 1 bit; HALF. -/
  half : Nat := 0
  /-- R132: 1 bit; HOSTED. -/
  hosted : Bool := false
  /-- R132: 1 bit; ROOT. -/
  root : Bool := false
  /-- R132: 1 bit; FORCED. -/
  forced : Bool := false
  /-- R132: 8 bits; HOLDER. -/
  holder : Nat := 0
  /-- R132: 8 bits; LAST_HOLDER. -/
  lastHolder : Nat := 0
  /-- R132: 1 bit; LH_VALID. -/
  lhValid : Bool := false
  /-- R132: 32 bits; PIN_COUNT. -/
  pins : Nat := 0
  /-- R132: 32 bits; GRANT_SEQ. -/
  grantSeq : Nat := 0
  /-- R132: 64 bits; STATE_ROUND. -/
  stateRound : Nat := 0
  /-- R50, R138: the boundary from which the drain timer counts. -/
  since : Nat := 0
  /-- R132: 19 bits; CERTIFIED. -/
  certified : Nat := 0
  /-- R107, R132: the block list; its length is BLOCKS. -/
  blocks : List BlockEnt := []
  /-- R135, R152: released blocks not yet certified or retired. -/
  undone : List Nat := []
  /-- R138: 1 bit; the drain limit has fired and the sweep runs. -/
  swept : Bool := false
  /-- R147, R150: 19 bits; SUBSTITUTED. -/
  substituted : Nat := 0
  /-- R150: 64 bits; GRANT_ROUND. -/
  grantRound : Nat := 0
  /-- R150: 64 bits; FIRST_CERT_ROUND. -/
  firstCert : Option Nat := none
  /-- R150: 64 bits; LAST_CERT_ROUND. -/
  lastCert : Nat := 0
  /-- R150: 19 bits; INITIAL_BLOCKS. -/
  initialBlocks : Nat := 0
  /-- R237: 10 bits; the region the extent belongs to. -/
  region : Option Nat := none
  deriving DecidableEq, Repr

/-- State of an allocatable block (R134). `auto` is the state every block of the half has until it is named: CLEAN
below the sweep cursor of R557 and DIRTY from it on. -/
inductive BlockState where
  | auto | clean | dirty | held | retired
  deriving DecidableEq, Repr

/-- The block whose scrub is in progress (R145). -/
structure ScrubCur where
  /-- R145: 20 bits. -/
  block : Nat := 0
  /-- R144, R146: eighths of the block already written; when all are, its read-back is due. -/
  done : Nat := 0
  /-- R147: 1 bit; the block has failed one read-back. -/
  failed : Bool := false
  /-- R145: 1 bit; the block is granted to an extent. -/
  granted : Bool := false
  /-- R145: 1 bit; a rotating rewrite of a CLEAN block. -/
  rewrite : Bool := false
  deriving DecidableEq, Repr

/-- Block states and scrub queue of a half (R134, R144, R145). -/
structure BlockPool where
  /-- R557: local index from which an unnamed block is DIRTY in the start-up sweep. -/
  sweep : Nat := 0
  /-- R134: block states that differ from `auto`, by global block number. -/
  st : SMap BlockState := []
  /-- R145: DIRTY blocks granted to an extent, in grant order. -/
  granted : List Nat := []
  /-- R145: DIRTY blocks not granted and released after start, in queue order. -/
  released : List Nat := []
  /-- R145: the block in progress. -/
  cur : Option ScrubCur := none
  /-- R145: cursor of the rotating rewrite. -/
  rewriteAt : Nat := 0
  /-- R152: HELD or granted DIRTY blocks marked to retire. -/
  marked : List Nat := []
  /-- R145: round in which scrub last certified a block; a block not listed was last tested at the start. -/
  certAt : SMap Nat := []
  /-- R147: blocks certified in this round, and whether each is granted. -/
  certNow : List (Nat × Bool) := []
  /-- R557: FULL_TEST certified the block before its first grant. -/
  testedFirst : Bool := false
  deriving DecidableEq, Repr

/-- One window entry (R120). -/
structure Window where
  /-- R120: 1 bit; VALID. -/
  valid : Bool := false
  /-- R120: 1 bit; RD. -/
  rd : Bool := false
  /-- R120: 1 bit; WR. -/
  wr : Bool := false
  /-- R120: 1 bit; AT. -/
  at_ : Bool := false
  /-- R120: 1 bit; DB. -/
  db : Bool := false
  /-- R120: 8 bits; PARTITION. -/
  part : Nat := 0
  /-- R120: 16 bits; RANK_LO. -/
  rankLo : Nat := 0
  /-- R120: 16 bits; RANK_HI. -/
  rankHi : Nat := 0
  /-- R120: 48 bits; PVA_BASE. -/
  pvaBase : Nat := 0
  /-- R120: 48 bits; LENGTH. -/
  len : Nat := 0
  deriving DecidableEq, Repr

/-- One multicast group entry (R404). -/
structure Group where
  /-- R404: 1 bit; VALID. -/
  valid : Bool := false
  /-- R404: 1 bit; ALL_RANKS. -/
  allRanks : Bool := false
  /-- R404: 14 bits; BASE_RANK. -/
  base : Nat := 0
  /-- R404: 256 bits; the mask. -/
  mask : BitVec 256 := 0
  /-- R405: 1 bit; the group is unicast-only until its tree is installed. -/
  unicastOnly : Bool := false
  deriving DecidableEq, Repr

/-- One rank table entry (R402). -/
structure Rank where
  /-- R402: 24 bits; ENDPOINT. -/
  ep : Nat := 0
  /-- R402: 1 bit; VALID. -/
  valid : Bool := false
  /-- R402: 1 bit; FAR_ATOMIC. -/
  farAtomic : Bool := false
  /-- R402: 1 bit; DEAD. -/
  dead : Bool := false
  deriving DecidableEq, Repr

/-- A cached translation (R116): an upper-level table entry, a leaf translation of a fabric request, or a block-list
entry. -/
structure Cached where
  /-- R116: 6 bits. -/
  part : Nat := 0
  /-- R108: 3 bits; the level of the table entry; 0 for a block-list entry. -/
  level : Nat := 0
  /-- R116: 48 bits; first byte that the entry covers; of a block-list entry its index. -/
  pva : Nat := 0
  /-- R108: bytes that the entry covers; 0 for a block-list entry, which no PVA range overlaps. -/
  size : Nat := 0
  /-- R109: 14 bits. -/
  ext : Nat := 0
  /-- R111: 46 bits; pool address of the page, of the table frame or of the block that the entry names. -/
  pa : Nat := 0
  /-- R110: the rights down to the entry. -/
  rights : Rights := {}
  deriving DecidableEq, Repr

/-- What a walk resolves to (R111). -/
inductive WalkOut where
  | pa (a ext size : Nat)
  | fault (cause level : Nat)
  | revoked
  | perm
  | notReady (ext idx : Nat)
  | migrate (entryPa entry ext : Nat) (page : Nat)
  | poison
  | dead
  | blocked (pa : Nat)
  deriving DecidableEq, Repr

/-- A walker (R114) with the last walk it finished. -/
structure Walker where
  /-- R114: 6 bits. -/
  part : Nat := 0
  /-- R108: 48 bits. -/
  pva : Nat := 0
  /-- R111: the outcome. -/
  out : Option WalkOut := none
  deriving DecidableEq, Repr

/-- A migration that runs or waits (R127). -/
structure Migration where
  /-- R126: 6 bits. -/
  part : Nat := 0
  /-- R126: 48 bits; page address. -/
  pva : Nat := 0
  /-- R127: page bytes, 4 KiB or 2 MiB. -/
  size : Nat := 4096
  /-- R127: 1 bit; link die whose engine runs it. -/
  ld : Nat := 0
  /-- R127: 1 bit; running, not queued. -/
  running : Bool := false
  /-- R130: pool address of the leaf entry. -/
  entryPa : Nat := 0
  /-- R130: 64 bits; the entry as the walk read it. -/
  entry : Nat := 0
  /-- R109: 14 bits; destination extent. -/
  ext : Nat := 0
  /-- R125: 24 bits; ENDPOINT of the peer. -/
  peerEp : Nat := 0
  /-- R125: 12 bits; WINDOW at the peer. -/
  peerWin : Nat := 0
  /-- R125: 16 bits; SRC_RANK. -/
  peerRank : Nat := 0
  /-- R125: 48 bits; offset of the page in the peer's window. -/
  peerOff : Nat := 0
  /-- R78, R129: strokes deferred on the migration, by the model's number, with the range whose page they wait for. -/
  joined : List (Nat × Nat) := []
  /-- R128: bytes not yet copied. -/
  left : Nat := 0
  /-- R127: bytes of the page that the engine has asked for. -/
  asked : Nat := 0
  /-- R127: page offsets of the pieces that have landed. -/
  landed : List Nat := []
  /-- R433: bytes; the engine's window towards the peer. -/
  window : Nat := 4096
  /-- R433: 4 bits; highest LOAD received in this round. -/
  maxLoad : Nat := 0
  deriving DecidableEq, Repr

/-! ### Strokes and queues (chapter 03) -/

/-- One range entry of a stroke descriptor (R74). -/
structure Range where
  /-- R74: 48 bits; PVA. -/
  pva : Nat := 0
  /-- R74: bit 0 of RIGHTS. -/
  r : Bool := false
  /-- R74: bit 1 of RIGHTS. -/
  w : Bool := false
  /-- R74: bit 2 of RIGHTS. -/
  a : Bool := false
  /-- R74: 32 bits; LENGTH. -/
  len : Nat := 0
  deriving DecidableEq, Repr

/-- A program image as loaded (R62, R63). -/
structure Image where
  /-- R62: 6 bits; partition tag (R338). -/
  part : Nat := 0
  /-- R66: 16 bits; handle. -/
  handle : Nat := 0
  /-- R63: 2 bits; PRIV. -/
  priv : Nat := 3
  /-- R62: the code words. -/
  code : List U64 := []
  /-- R62: the constant words. -/
  consts : List U64 := []
  /-- R63: 16 bits; ENTRY. -/
  entry : Nat := 0
  /-- R63: 9 bits; SCRATCH_KIB. -/
  scratchKib : Nat := 0
  deriving DecidableEq, Repr

/-- A pinned page translation (R117): range index, page offset in the range, pool address, bytes, extent. -/
structure PinPage where
  /-- R77: range index. -/
  range : Nat := 0
  /-- R77: first byte offset of the piece within the range. -/
  off : Nat := 0
  /-- R77: bytes of the piece. -/
  len : Nat := 0
  /-- R77: pool address of its first byte. -/
  pa : Nat := 0
  /-- R77: the extent pinned. -/
  ext : Nat := 0
  /-- R115, R117: 2 bits; the weave die that walked it. -/
  die : Nat := 0
  /-- R117: 1 bit; its entry is in that die's pin store, not spilled into metadata. -/
  stored : Bool := true
  /-- R77: 1 bit; the piece is the first of its page, so that the page's pin is counted with it. -/
  pin : Bool := true
  /-- R239: the region version a reader's translation pin counts on; 0 for none. -/
  ver : Nat := 0
  deriving DecidableEq, Repr

/-- A stroke: its descriptor (R73), program image and translated form. -/
structure Stroke where
  /-- The model's own number of the stroke. -/
  sid : Nat := 0
  /-- R82: 6 bits; partition. -/
  part : Nat := 0
  /-- R96: 6 bits; SQ. -/
  sq : Nat := 0
  /-- R73: 16 bits; PROG_HANDLE. -/
  handle : Nat := 0
  /-- R73: 16 bits; BUDGET. -/
  budget : Nat := 0
  /-- R73: 1 bit; FLAG. -/
  flag : Bool := false
  /-- R73: 1 bit; STEAL_FAR. -/
  stealFar : Bool := false
  /-- R73: 1 bit; PHASE. -/
  phase : Bool := false
  /-- R73: 1 bit; TRAP_OVF. -/
  trapOvf : Bool := false
  /-- R73: 4 bits; PHASE_NUM. -/
  phaseNum : Nat := 0
  /-- R73: 2 bits; ROUND_MODE. -/
  roundMode : Nat := 0
  /-- R73: 6 bits; CQ. -/
  cq : Nat := 0
  /-- R73: 64 bits; USER_TAG. -/
  userTag : U64 := 0
  /-- R73: 32 bits; SEED. -/
  seed : U32 := 0
  /-- R73: 64 bits; ARG. -/
  arg : U64 := 0
  /-- R74: the NRANGES ranges. -/
  ranges : List Range := []
  /-- R66: the image the stroke runs. -/
  img : Image := {}
  /-- R77, R117: the pinned translated form. -/
  pages : List PinPage := []
  /-- R289: run number; 0 for the first run. -/
  run : Nat := 0
  /-- R289: word at which the next run starts. -/
  start : Nat := 0
  /-- R288: g3 of the next run. -/
  g3 : U64 := 0
  /-- R288: g4 of the next run. -/
  g4 : U64 := 0
  /-- R81: 1 bit; home half. -/
  home : Nat := 0
  /-- R526: 1 bit; the stroke waited through an idle round. -/
  idled : Bool := false
  /-- R289: CYCLES_USED of the last run. -/
  used : Nat := 0
  deriving DecidableEq, Repr

/-- What a stroke taken from its ring waits for before placement (R76 to R78). -/
inductive Stage where
  | translating | placeable
  deriving DecidableEq, Repr

/-- A submission queue (R68). -/
structure Sq where
  /-- R67: 1 bit; the descriptor has been read since PART.CREATE. -/
  read : Bool := false
  /-- R68: 48 bits; BASE. -/
  base : Nat := 0
  /-- R68: 4 bits; LOG2_ENTRIES. -/
  log2 : Nat := 0
  /-- R68: 1 bit; ENABLE. -/
  enable : Bool := false
  /-- R68: 6 bits; DEFAULT_CQ. -/
  defaultCq : Nat := 0
  /-- R68: 16 bits; HEAD. -/
  head : Nat := 0
  /-- R70: 16 bits; tail. -/
  tail : Nat := 0
  /-- R68: 1 bit; HALTED. -/
  halted : Bool := false
  /-- R68: 8 bits; HALT_STATUS. -/
  haltStatus : Nat := 0
  /-- R68: 1 bit; HEAD changed and is to be written at the next boundary. -/
  headDirty : Bool := false
  /-- R76: descriptors fetched in this round. -/
  fetched : Nat := 0
  /-- R76, R77: fetched strokes in ring order, not yet placed. -/
  waiting : List (Stroke × Stage) := []
  /-- R72: strokes admitted and not complete. -/
  live : List Nat := []
  /-- R67, R71: 1 bit; a read of the descriptor is due and waits for a line that an agent owns. -/
  reread : Bool := false
  /-- R70: a tail doorbell that waits for that read. -/
  tailWait : Option Nat := none
  deriving DecidableEq, Repr

/-- A completion record that is due (R96), with `ready` false while writes of its stroke are still in flight (R87). -/
structure DueRec where
  /-- The model's own stroke number; 0 for a bulk operation or queue event. -/
  sid : Nat := 0
  /-- R87: 1 bit. -/
  ready : Bool := true
  /-- R96: 8 bits; STATUS. -/
  status : Nat := 0
  /-- R96: 2 bits; KIND. -/
  kind : Nat := 0
  /-- R96: 6 bits; SQ. -/
  sq : Nat := 0
  /-- R96: 16 bits; CYCLES_USED. -/
  cycles : Nat := 0
  /-- R96: 16 bits; DETAIL. -/
  detail : Nat := 0
  /-- R96: 64 bits; USER_TAG. -/
  userTag : U64 := 0
  /-- R96: 64 bits; ROUND. -/
  round : Nat := 0
  /-- R96: 64 bits; RESULT. -/
  result : U64 := 0
  deriving DecidableEq, Repr

/-- A completion queue (R68, R83). -/
structure Cq where
  /-- R67: 1 bit; the descriptor has been read since PART.CREATE. -/
  read : Bool := false
  /-- R67: 1 bit; usable. -/
  usable : Bool := false
  /-- R68: 48 bits; BASE. -/
  base : Nat := 0
  /-- R68: 4 bits; LOG2_ENTRIES. -/
  log2 : Nat := 0
  /-- R70: free-running count of records written. -/
  wpos : Nat := 0
  /-- R70: free-running count of records consumed. -/
  head : Nat := 0
  /-- R83: slots reserved by work admitted and not yet recorded. -/
  resv : Nat := 0
  /-- R72, R98: due records in the order the work ended. -/
  due : List DueRec := []
  /-- R71: 1 bit; a reset doorbell waits for the boundary. -/
  resetting : Bool := false
  /-- R71: round in which the reset doorbell arrived. -/
  resetRound : Nat := 0
  /-- R70: a head doorbell that waits for the first read of the descriptor. -/
  headWait : Option Nat := none
  /-- R83: position and merged count of the unread queue event. -/
  event : Option (Nat × Nat) := none
  deriving DecidableEq, Repr

/-- A suspended stroke (R287, R289, R290): on a watch, or offered again. -/
structure Suspended where
  /-- R289: the stroke. -/
  s : Stroke := {}
  /-- R287: pool address, width flag, condition and compare value of the watch; none after YIELD or once it ended. -/
  watch : Option (Nat × Bool × Nat × U64) := none
  /-- R288: boundary at which the timer fires. -/
  fires : Nat := 0
  /-- R288, R290: earliest round and admission point at which the stroke is offered; none while it waits. -/
  offer : Option (Nat × Nat) := none
  deriving DecidableEq, Repr

/-! ### Weavers (chapters 09 and 12) -/

/-- One level of the loop stack (R265). -/
structure Loop where
  /-- R265: first word of the body. -/
  first : Nat := 0
  /-- R265: word after the body. -/
  last : Nat := 0
  /-- R265: 24 bits; iterations left. -/
  left : Nat := 0
  deriving DecidableEq, Repr

/-- The run of a stroke on a weaver. -/
structure Run where
  /-- R351: the stroke. -/
  s : Stroke := {}
  /-- R257: word offset of the next instruction. -/
  pc : Nat := 0
  /-- R85: cycles counted in the budget. -/
  cyc : Nat := 0
  /-- R250: 64 bits each; g1 to g31. -/
  g : SMap U64 := []
  /-- R250: 512 bits each; v0 to v31. -/
  v : SMap V512 := []
  /-- R250: 1 bit each; p0 to p7. -/
  p : SMap Bool := []
  /-- R257: cycle at which a register's result is readable; keys 0 to 31 general, 32 to 63 vector, 64 to 71 predicate. -/
  rdy : SMap Nat := []
  /-- R257: registers that wait for a pool result. -/
  wait : List Nat := []
  /-- R265: the loop stack. -/
  loops : List Loop := []
  /-- R259: scratch bytes. -/
  scratch : SMap Byte := []
  /-- R191, R348: scratch poison bits, by line. -/
  poison : List Nat := []
  /-- R262: pending bits, by line, with the request that set them. -/
  landing : List (Nat × Nat) := []
  /-- R262: landed bytes (request, address, count) that an earlier-issued transfer still pending on the line must not
  overwrite. -/
  landedBy : List (Nat × Nat × Nat) := []
  /-- R262: cycle of the run at which a scratch line last landed or was sent. -/
  lineAt : SMap Nat := []
  /-- R270: stream tags: outstanding lines. -/
  tags : SMap Nat := []
  /-- R270: cycle of the run at which a tag last became idle. -/
  tagAt : SMap Nat := []
  /-- R285: cycle of the run at which a write was last acknowledged. -/
  ackAt : Nat := 0
  /-- R324: 64 bits; the stochastic generator. -/
  rng : U64 := 0
  /-- R263: 1 bit; a DOT, DOTR, AXPYR or MMA issued at a duty below 16/16. -/
  slowed : Bool := false
  /-- R117: pages in the weaver's translation cache. -/
  xlate : List Nat := []
  /-- R287: 1 bit; WAIT has its word read outstanding. -/
  waiting : Bool := false
  /-- R344: word of the last issued instruction. -/
  lastIssued : Nat := 0
  deriving DecidableEq, Repr

/-- A weaver's tagged instruction in flight (R547, R548). -/
structure Tagged where
  /-- R548: 16 bits; WORD. -/
  word : Nat := 0
  /-- R548: 8 bits; OPCODE. -/
  opcode : Nat := 0
  /-- R548: 1 bit; GUARD_FALSE. -/
  guardFalse : Bool := false
  /-- R548: 1 bit; ENDED. -/
  ended : Bool := false
  /-- R547: 1 bit; tagged for the sampler of the stroke's partition. -/
  owner : Bool := false
  /-- R547: 1 bit; tagged for the operator's sampler. -/
  oper : Bool := false
  /-- R548: 6 bits; PARTITION. -/
  part : Nat := 0
  /-- R548: 16 bits; PROG_HANDLE. -/
  handle : Nat := 0
  /-- R548: 64 bits; ROUND. -/
  round : Nat := 0
  deriving DecidableEq, Repr

/-- STATE of a weaver record (R342). -/
inductive WState where
  | active | fenced | retired
  deriving DecidableEq, Repr

/-- A weaver (R337) with its record (R342). -/
structure Weaver where
  /-- R342: 4 bits; FMAX_CODE. -/
  fmax : Nat := 0
  /-- R342: 4 bits; AGE_STEPS. -/
  age : Nat := 0
  /-- R342: 2 bits; STATE. -/
  st : WState := .active
  /-- R342: 4 bits; CAUSE. -/
  cause : Nat := 0
  /-- R342: 8 bits; MARGIN. -/
  margin : Nat := 0
  /-- R341: 1 bit; the last measurement was low. -/
  low : Bool := false
  /-- R341: 1 bit; the weaver is to be retired with cause AGEING. -/
  ageOut : Bool := false
  /-- R342: 1 bit; BOOSTED. -/
  boosted : Bool := false
  /-- R342: 31 bits; BOOST_INTERVALS. -/
  boostIntervals : Nat := 0
  /-- R342: 64 bits; STATE_ROUND. -/
  stateRound : Nat := 0
  /-- R339: the weaver's clock in MHz. -/
  mhz : Nat := 1700
  /-- R341: fused maximum in force. -/
  fused : Nat := 1700
  /-- R356: 1 bit; the retirement fuse is blown. -/
  fuse : Bool := false
  /-- R351: the deque, front first. -/
  deque : List Stroke := []
  /-- R351: the running stroke. -/
  run : Option Run := none
  /-- R88: cycles of the round after which the weaver may try again to steal. -/
  retryAt : Nat := 0
  /-- R80, R91: cycles of the round that have elapsed on this weaver. -/
  elapsed : Nat := 0
  /-- R357: scratch lines with an uncorrectable error and their rounds. -/
  ueLines : List (Nat × Nat) := []
  /-- R357: rounds of register parity errors. -/
  regErrs : List Nat := []
  /-- R348: 48 bits; SCRATCH_CE. -/
  scratchCe : Nat := 0
  /-- R354: signed; clock cycles of the weaver beyond those of a clock of 1.70 GHz; its front-starved cycles are its
  clock cycles less the other three classes. -/
  clockExtra : Int := 0
  /-- R354: 48 bits; wasted cycles. -/
  slotWasted : Nat := 0
  /-- R354: 48 bits; retired cycles. -/
  slotRetired : Nat := 0
  /-- R354: 48 bits; back-starved cycles. -/
  slotBack : Nat := 0
  /-- R547: the weaver's tagged instruction in flight. -/
  tagged : Option Tagged := none
  deriving DecidableEq, Repr

/-- What a pool request of a stroke does when it is answered. -/
inductive PoolKind where
  | line (scratch tag : Nat)
  | lineOut (bytes : List Byte) (mask : List Bool) (poisoned : Bool) (tag : Nat)
  | load (reg : Nat)
  | store (bytes : List Byte)
  | atom (reg : Nat) (op : AtomOp) (width8 : Bool) (operand compare : U64)
  | waitRead (reg : Nat) (width8 : Bool) (cond : Nat) (cmp : U64) (resume timeout : Nat)
  deriving DecidableEq, Repr

/-- Where a pool request of a stroke stands: in its weaver's stream engine, which has no entry for it; at its port, waiting
for a credit; in a queue of its pseudo-channel; issued by the scheduler (R163, R166, R349). -/
inductive ReqStage where
  | engine | port | queued | issued
  deriving DecidableEq, Repr

/-- An outstanding pool request of a stroke (R258, R270). -/
structure PoolReq where
  /-- The model's own request number. -/
  id : Nat := 0
  /-- The stroke that issued it. -/
  sid : Nat := 0
  /-- R261: 10 bits; the weaver. -/
  weaver : Nat := 0
  /-- R100: 6 bits; partition. -/
  part : Nat := 0
  /-- R258: pool address. -/
  pa : Nat := 0
  /-- R258: bytes. -/
  len : Nat := 0
  /-- R97: word offset of the instruction. -/
  word : Nat := 0
  /-- The transfer. -/
  kind : PoolKind := .load 0
  /-- R168: 1 bit; the page hint. -/
  hint : Bool := false
  /-- R164: time at which the request entered its controller, in units of 10 ns. -/
  enter : Nat := 0
  /-- R160, R163: 2 bits. -/
  stage : ReqStage := .port
  /-- R260: the home's answer once it has served the request: status, bytes read and poison. -/
  got : Option (Status × List Byte × Bool) := none
  deriving DecidableEq, Repr

/-- The kinds of bulk operation (R282). -/
inductive BulkKind where
  | fill | copy | compare | reduce | checksum
  deriving DecidableEq, Repr

/-- A bulk operation (R92 to R95). -/
structure BulkOp where
  /-- R282: kind. -/
  kind : BulkKind := .fill
  /-- R100: 6 bits; partition. -/
  part : Nat := 0
  /-- R96: 6 bits; SQ of the launching stroke. -/
  sq : Nat := 0
  /-- R96: 6 bits; CQ of the launching stroke. -/
  cq : Nat := 0
  /-- R92: the launching stroke. -/
  sid : Nat := 0
  /-- R92: 64 bits; USER_TAG. -/
  userTag : U64 := 0
  /-- R281: 32 bits; LENGTH. -/
  len : Nat := 0
  /-- R95: bytes processed. -/
  done : Nat := 0
  /-- R92: destination pieces, inherited from the stroke's pins. -/
  dst : List PinPage := []
  /-- R92: source pieces. -/
  src : List PinPage := []
  /-- R281: 64 bits; PATTERN. -/
  pattern : U64 := 0
  /-- R281: 4 bits; ELEM_FMT. -/
  fmt : Nat := 0
  /-- R281: 2 bits; OP. -/
  op : Nat := 0
  /-- R94: round of launch. -/
  launched : Nat := 0
  /-- R96: slice rounds. -/
  slices : Nat := 0
  /-- R94: bytes of the slice in progress. -/
  slice : Nat := 0
  /-- R94: 1 bit; a slice was shortened by the issue duty. -/
  capped : Bool := false
  /-- R95: offset of the first refused partial write. -/
  refused : Option Nat := none
  /-- R282: 32 bits; the running CRC-32C. -/
  crc : U32 := 0xFFFFFFFF
  /-- R282: bytes hashed so far for SHA3-256. -/
  hashed : List Byte := []
  deriving DecidableEq, Repr

/-! ### Partitions (chapters 04, 10, 15, 17, 20) -/

/-- A program slot (R66). -/
structure ProgSlot where
  /-- R66: 8 bits; generation. -/
  gen : Nat := 0
  /-- R62: the loaded image. -/
  img : Option Image := none
  /-- R62: 256 bits; SHA3-256 digest. -/
  digest : List U64 := []
  deriving DecidableEq, Repr

/-- An egress shaper on a link die (R424, R425). -/
structure Shaper where
  /-- R420: this link die's share of RATE; none is unlimited (R421). -/
  rate : Option Nat := none
  /-- R420: this link die's share of BURST. -/
  burst : Nat := 0
  /-- R307: 8 bits; OVERHEAD. -/
  overhead : Nat := 0
  /-- R425: signed 40 bits; T. -/
  t : Int := 0
  /-- R426: the egress queue of 256 packets, and behind it, in order, those that their sources still hold. -/
  queue : List Packet := []
  deriving DecidableEq, Repr

/-- An ingress policer on a link die (R427, R428). -/
structure Policer where
  /-- R420: share of CIR; none is unlimited. -/
  cir : Option Nat := none
  /-- R420: share of PIR; none is unlimited. -/
  pir : Option Nat := none
  /-- R420: share of CBS. -/
  cbs : Nat := 0
  /-- R420: share of PBS. -/
  pbs : Nat := 0
  /-- R307: 1 bit; COLOR_AWARE. -/
  aware : Bool := false
  /-- R428: Tc. -/
  tc : Nat := 0
  /-- R428: Tp. -/
  tp : Nat := 0
  deriving DecidableEq, Repr

/-- A rank budget on a link die (R431). -/
structure Budget where
  /-- R420: this link die's share of the budget. -/
  bytes : Nat := 0
  /-- R431: the remainder. -/
  rem : Int := 0
  deriving DecidableEq, Repr

/-- A partition's pin of a region version (R241). -/
structure RegionPin where
  /-- R241: 10 bits; generation of the pin slot. -/
  gen : Nat := 0
  /-- R241: 10 bits; region. -/
  region : Nat := 0
  /-- R241: 32 bits; version. -/
  version : Nat := 0
  /-- R241: 1 bit; held. -/
  held : Bool := false
  deriving DecidableEq, Repr

/-- A scrub record (R150). -/
structure ScrubRec where
  /-- R150: 14 bits; EXTENT. -/
  ext : Nat := 0
  /-- R150: 1 bit; HALF. -/
  half : Nat := 0
  /-- R150: 19 bits; BLOCKS. -/
  blocks : Nat := 0
  /-- R150: 19 bits; SUBSTITUTED. -/
  substituted : Nat := 0
  /-- R150: 32 bits; GRANT_SEQ. -/
  grantSeq : Nat := 0
  /-- R150: 32 bits; RECORD_SEQ. -/
  seq : Nat := 0
  /-- R150: 64 bits; GRANT_ROUND. -/
  grantRound : Nat := 0
  /-- R150: 64 bits; FIRST_CERT_ROUND. -/
  first : Nat := 0
  /-- R150: 64 bits; LAST_CERT_ROUND. -/
  last : Nat := 0
  /-- R150: 19 bits; INITIAL_BLOCKS. -/
  initial : Nat := 0
  /-- R151: 1 bit; a report of the partition has contained the record. -/
  reported : Bool := false
  deriving DecidableEq, Repr

/-- A session attempt (R469 to R471). -/
structure Session where
  /-- R469: 32 bits; SID. -/
  sid : Nat := 0
  /-- R469: endpoint of the agent. -/
  ep : Nat := 0
  /-- R469: rank of the agent. -/
  rank : Nat := 0
  /-- R469: HELLO fragments received. -/
  frags : Nat := 0
  /-- R469: FRAGS of the HELLO. -/
  total : Nat := 1
  /-- R470: round of the last HELLO fragment. -/
  helloRound : Nat := 0
  /-- R470: round of the OFFER, once sent. -/
  offer : Option Nat := none
  /-- R469: the owner nonce. -/
  nonce : List U64 := []
  /-- R470: 256 bits; th. -/
  th : List U64 := []
  /-- R472: the shared secret, once CONFIRM has matched. -/
  ss : Option (List U64) := none
  deriving DecidableEq, Repr

/-- A traffic-key slot loaded by KEY.LOAD (R478). -/
structure PeerKey where
  /-- R478: 24 bits; PEER_ENDPOINT. -/
  ep : Nat := 0
  /-- R478: 8 bits; PEER_PARTITION. -/
  part : Nat := 0
  /-- R478: 32 bits; LOAD_SEQ. -/
  seq : Nat := 0
  /-- R478: 32 bits; PEER_GEN. -/
  gen : Nat := 0
  /-- R478: 1 bit; the slot holds a key. -/
  loaded : Bool := false
  /-- R478: 256 bits; the peer's traffic secret. -/
  ts : List Byte := []
  /-- R474: 32 bits; the device's next packet counter under the peer's key. -/
  ctr : Nat := 0
  deriving DecidableEq, Repr

/-- A partition (R100, R304). -/
structure Partition where
  /-- R304: 1 bit; the partition exists. -/
  live : Bool := false
  /-- R305: boundary D of PART.DESTROY, kept until D + 10. -/
  destroyed : Option Nat := none
  /-- R101: 1 bit; HOST. -/
  host : Bool := false
  /-- R304: 1 bit; DBG_CONSENT. -/
  dbg : Bool := false
  /-- R304: 1 bit; PROF_CONSENT. -/
  prof : Bool := false
  /-- R304: 12 bits; WIN_FIRST. -/
  winFirst : Nat := 0
  /-- R304: 13 bits; WIN_COUNT. -/
  winCount : Nat := 0
  /-- R304: 12 bits; GRP_FIRST. -/
  grpFirst : Nat := 0
  /-- R304: 13 bits; GRP_COUNT. -/
  grpCount : Nat := 0
  /-- R304: 48 bits; QTABLE_BASE. -/
  qtable : Nat := 0
  /-- R304: 48 bits; REMOTE_BASE. -/
  remoteBase : Nat := 0
  /-- R304, R481: the owner's encapsulation key. -/
  ownerKey : List Byte := []
  /-- R304: 768 bits; AFFINITY. -/
  affinity : BitVec 768 := 0
  /-- R304: 16 bits; SHARE. -/
  share : Nat := 0
  /-- R481: 64 bits; CREATE_ROUND. -/
  created : Nat := 0
  /-- R100: 14 bits; root extent. -/
  root : Option Nat := none
  /-- R84: 4 bits; current phase. -/
  phase : Nat := 0
  /-- R84: phase set by a placed stroke, for the next boundary. -/
  phaseMark : Option Nat := none
  /-- R291: phase set by a PHASE instruction, for the next boundary: phase and weaver. -/
  phaseInstr : Option (Nat × Nat) := none
  /-- R523: 4 bits each; OP.PREF by phase plus 1, so that 0 stands for none. -/
  pref : SMap Nat := []
  /-- R528: W by phase, in µW. -/
  est : SMap Nat := []
  /-- R528: energy of the partition's retired and back-starved weaver cycles of this round, in pJ × 1,700². -/
  energy : Nat := 0
  /-- R523: boundaries since a stroke of the partition was placed. -/
  placedAge : Nat := 65
  /-- R62: 256 program slots. -/
  progs : SMap ProgSlot := []
  /-- R67: 64 submission queues. -/
  sqs : SMap Sq := []
  /-- R67: 64 completion queues. -/
  cqs : SMap Cq := []
  /-- R289: suspended strokes and strokes offered again, in order. -/
  suspended : List Suspended := []
  /-- R356, R359: strokes that left a fenced weaver's deque, offered again before new descriptors. -/
  moved : List Suspended := []
  /-- R402: the rank table. -/
  ranks : SMap Rank := []
  /-- R535: 48 bits each; partition counters 0 to 63. -/
  counters : SMap Nat := []
  /-- R536: components latched at the last boundary. -/
  latched : SMap Nat := []
  /-- R536: the round copy that CNTRD reads. -/
  roundCopy : SMap Nat := []
  /-- R543: shadow banks 0 and 1. -/
  shadow0 : SMap Nat := []
  /-- R543: shadow bank 1. -/
  shadow1 : SMap Nat := []
  /-- R538: selections of counters 48 to 63: event, LEVEL, CHAIN as event + 2^11 LEVEL + 2^12 CHAIN, plus 1. -/
  sel : SMap Nat := []
  /-- R299: 1 bit; USER_READ. -/
  userRead : Bool := false
  /-- R544: snapshot ring: PVA and LOG2. -/
  snapRing : Option (Nat × Nat) := none
  /-- R544: 32 bits; SEQ of the next snapshot record. -/
  snapSeq : Nat := 0
  /-- R543: named snapshot boundaries. -/
  snaps : List Nat := []
  /-- R547: sampler: K, ring PVA and LOG2. -/
  sampler : Option (Nat × Nat × Nat) := none
  /-- R549: 32 bits; SEQ of the next sample record. -/
  sampleSeq : Nat := 0
  /-- R424: shapers of LD0 and LD1. -/
  shapers : SMap Shaper := []
  /-- R427: policers of LD0 and LD1. -/
  policers : SMap Policer := []
  /-- R430: budgets, keyed by rank × 2 + link die. -/
  budgets : SMap Budget := []
  /-- R241: 64 pin slots. -/
  pins : SMap RegionPin := []
  /-- R150: 32 bits; next RECORD_SEQ. -/
  recordSeq : Nat := 0
  /-- R150: the record list. -/
  records : List ScrubRec := []
  /-- R472: 32 bits; attestation epoch. -/
  epoch : Nat := 0
  /-- R473: boundary at which the epoch opened, so that one opens at a boundary. -/
  epochRound : Option Nat := none
  /-- R475: 32 bits; current generation G; none before the first epoch. -/
  gen : Option Nat := none
  /-- R475: 1 bit; G − 1 is accepted. -/
  prevGen : Bool := false
  /-- R475: boundary at which the previous epoch's last generation is dropped. -/
  dropAt : Option Nat := none
  /-- R475: 1 bit; a packet counter under G has reached 2³¹. -/
  ctrHigh : Bool := false
  /-- R475: newest generation used by each endpoint, plus 1. -/
  genUsed : SMap Nat := []
  /-- R472: the session's shared secret. -/
  ss : Option (List U64) := none
  /-- R481: SESSION_DIGEST. -/
  sessionDigest : List U64 := []
  /-- R471: the outstanding session start. -/
  session : Option Session := none
  /-- R471: rounds of recent session starts. -/
  starts : List Nat := []
  /-- R478: 16 peer-key slots. -/
  peerKeys : SMap PeerKey := []
  /-- R481: 32 bits; DEBUG_SESSIONS. -/
  debugSessions : Nat := 0
  /-- R385, R474: 32 bits each; the device's next packet counter, by generation × 2^24 + destination endpoint. -/
  pktCtr : SMap Nat := []
  /-- R416: 16 bits each; next snoop SEQ by destination endpoint. -/
  snoopSeq : SMap Nat := []
  /-- R386: the secret of the line handle. -/
  handleSecret : Nat := 0
  /-- R459: mailbox deliveries: RX_PROD. -/
  rxProd : Nat := 0
  /-- R459: TX_DONE. -/
  txDone : Nat := 0
  deriving DecidableEq, Repr

/-- What leaves the device: a packet with its link and link sequence number, a link control block, a rim interrupt
vector, an answer to the host; and what the requester of a stack read receives from the stack's controller: data with its
poison, or none for a bus error (R182, R193). -/
inductive Out where
  | packet (l seq : Nat) (p : Packet)
  | marker (l boundary masterEp masterPrio hops : Nat) (pend : Option (Nat × Nat))
  | claim (l : Nat) (c : Claim)
  | control (l : Nat) (type arg : Nat)
  | training (l : Nat) (b : TrainBlock)
  | vector (n : Nat)
  | hostData (tag : Nat) (status : Nat) (data : List Byte) (poison : Bool)
  | abort (offset : Nat)
  | readData (offset : Nat) (v : U64)
  | time (round : Nat) (stamp : U64)
  | debug (words : List U64)
  | lineRead (pa source : Nat) (got : Option (List Byte × Bool))
  deriving DecidableEq, Repr

/-- What waits for a write to reach the array (R160): a reply packet of a partition through a link die, whose LOAD is that
of the line's stack as it leaves (R174); the answer to a host request; or the acknowledgement of a stroke's pool
request. -/
inductive Ack where
  | reply (ld part pa : Nat) (p : Packet)
  | host (tag : Nat)
  | stroke (id : Nat) (old : List Byte)
  deriving DecidableEq, Repr

/-! ### Pool memory and its protection (chapters 06 and 07) -/

/-- A rand held in a coalescing buffer (R169): the bytes written, by pool address. -/
structure Coal where
  /-- R155: 1 bit; half. -/
  half : Nat := 0
  /-- R155: 29 bits; rand index. -/
  rand : Nat := 0
  /-- R169: the bytes written, keyed by pool address; `some` so that a zero byte counts. -/
  bytes : SMap (Option Byte) := []
  /-- R160: answers that leave once the rand is written to the array. -/
  acks : List Ack := []
  /-- R164, R169: time at which the oldest write entered, in units of 10 ns. -/
  enter : Nat := 0
  /-- R164: 6 bits; port of the oldest write. -/
  port : Nat := 0
  deriving DecidableEq, Repr

/-- A parity delta on its way to the parity stack's controller (R169). -/
structure Delta where
  /-- R155: 1 bit; half. -/
  half : Nat := 0
  /-- R155: 29 bits; rand index. -/
  rand : Nat := 0
  /-- R169: the XOR to apply, by offset in the parity unit. -/
  bytes : SMap Byte := []
  /-- R164: time at which the write that made it entered, in units of 10 ns. -/
  enter : Nat := 0
  /-- R164: 6 bits; port of that write. -/
  port : Nat := 0
  deriving DecidableEq, Repr

/-- A far atomic that the write-intent log records as applied (R160, R231): who asked, the number of its request, the
rand, and the old value. -/
structure AtomLog where
  /-- R160: the requester. -/
  who : Requester := .agent 0 0
  /-- R160: the request tag: the SEQ of an agent's request, the model's number of a stroke's. -/
  tag : Nat := 0
  /-- R153: 5 bits; the stack whose log holds it. -/
  stack : Nat := 0
  /-- R169: 29 bits; rand index. -/
  rand : Nat := 0
  /-- R228: the old value's bytes. -/
  old : List Byte := []
  deriving DecidableEq, Repr

/-- Pool memory. -/
structure PoolMem where
  /-- R29, R155: data bytes as stored, by pool address. -/
  array : SMap Byte := []
  /-- R156: parity bytes, keyed by half × 2^40 + rand × 256 + offset. -/
  parity : SMap Byte := []
  /-- R179, R188: the data lines, by pool address / 64, whose check symbols in the check area are those of the line code
  XORed with the poison pattern; the check symbols of every other line are those that the line code gives for its data
  and stack address, so that the check area is told from the data and these marks (`PoolMem.checkArea`). -/
  poison : List Nat := []
  /-- R187, R188: the same for the parity lines, keyed by half × 2^34 + rand × 4 + line. -/
  parityPoison : List Nat := []
  /-- R169: the coalescing buffers, oldest first. -/
  coal : List Coal := []
  /-- R169: deltas not yet applied. -/
  deltas : List Delta := []
  /-- R153, R169: the open entries of the write-intent logs, oldest first: stack and rand, which is of pseudo-channel
  rand mod 32; at most 64 for each pseudo-channel of each stack. -/
  intents : List (Nat × Nat) := []
  /-- R160, R231: far atomics the write-intent logs record as applied. -/
  atoms : List AtomLog := []
  deriving DecidableEq, Repr

/-- An error-log record (R199). -/
structure LogRec where
  /-- R199: 8 bits; TYPE. -/
  type : Nat := 0
  /-- R199: 2 bits; MODE. -/
  mode : Nat := 0
  /-- R199: 1 bit; HARD. -/
  hard : Bool := false
  /-- R199: 1 bit; WRITE. -/
  write : Bool := false
  /-- R199: 4 bits; SOURCE. -/
  source : Nat := 0
  /-- R199: 4 bits; SYMBOLS. -/
  symbols : Nat := 0
  /-- R199: 8 bits; REPEAT. -/
  repeats : Nat := 0
  /-- R199: 32 bits; SEQ. -/
  seq : Nat := 0
  /-- R199: 64 bits; ROUND. -/
  round : Nat := 0
  /-- R199: word 2; stack, pseudo-channel, rank, bank, row, column group and line. -/
  loc : U64 := 0
  /-- R199: 52 bits; PA. -/
  pa : Nat := 0
  /-- R199: 64 bits; SYNDROME. -/
  syndrome : U64 := 0
  /-- R199: 16 bits; PATH. -/
  path : Nat := 0
  /-- R199: 8 bits; STATUS. -/
  status : Nat := 0
  /-- R199: 8 bits; PARTITION. -/
  part : Nat := 0
  deriving DecidableEq, Repr

/-- Integrity state of a half (R207). -/
inductive Integrity where
  | intact | exposed | rebuilt | degraded | loss
  deriving DecidableEq, Repr

/-- Self-refresh of a half (R175, R177). -/
inductive Refresh where
  | active | asleep | waking | flushing
  deriving DecidableEq, Repr

/-- A page copy under way (R203). -/
structure PageCopy where
  /-- R203: pool address of the retired page. -/
  page : Nat := 0
  /-- R203: 14 bits; replacement page. -/
  repl : Nat := 0
  deriving DecidableEq, Repr

/-- A half (R16): its integrity, retirement, rebuild, self-refresh and error log. -/
structure HalfSt where
  /-- R207: 3 bits. -/
  integrity : Integrity := .intact
  /-- R206: failed local stacks in the order of their failure. -/
  failed : List Nat := []
  /-- R206: stacks declared failed in this round. -/
  failing : List Nat := []
  /-- R209: 1 bit; a rebuild is pending or running. -/
  rebuilding : Bool := false
  /-- R209: REBUILD_CURSOR: rands passed, counted through pass 1 and pass 2. -/
  cursor : Nat := 0
  /-- R210: hundredths of a rand held. -/
  credit : Nat := 0
  /-- R210: 7 bits; REBUILD_SHARE. -/
  share : Nat := 5
  /-- R94: 1 bit; the rebuild holds channel 6. -/
  holdsCh6 : Bool := false
  /-- R203: retired pages with their replacement. -/
  pages : List (Nat × Nat) := []
  /-- R203: pages retired at the last boundary, to be copied. -/
  copies : List PageCopy := []
  /-- R204: retired banks. -/
  banks : List BankId := []
  /-- R204: bank whose units are being moved, and units moved. -/
  moving : Option (BankId × Nat) := none
  /-- R175: rounds since the last touch. -/
  idle : Nat := 0
  /-- R175: 1 bit; a touch in this round. -/
  touched : Bool := false
  /-- R175: 1 bit, coded by name. -/
  refresh : Refresh := .active
  /-- R176: bytes held in the 4 MiB metadata buffer. -/
  metaBuf : Nat := 0
  /-- R198: the error log, oldest first. -/
  log : List LogRec := []
  /-- R199: 32 bits; next SEQ. -/
  logSeq : Nat := 0
  /-- R198: LOG_DROPPED. -/
  logDropped : Nat := 0
  /-- R206: UE lines: stack, line and round. -/
  ues : List (Nat × Nat × Nat) := []
  /-- R184: lines written back that await their verify read. -/
  verify : List Nat := []
  /-- R197: path exhaustions: path and round. -/
  exhausted : List (Nat × Nat) := []
  /-- R177: round in which the exit began. -/
  wakeFrom : Nat := 0
  /-- R209: REBUILD_CURSOR when a second stack failed before the rebuild was complete. -/
  lossAt : Option Nat := none
  deriving DecidableEq, Repr

/-- A program image in a die's program cache (R338). -/
structure CacheImg where
  /-- R338: partition tag. -/
  part : Nat := 0
  /-- R338: handle. -/
  handle : Nat := 0
  /-- R338: bytes. -/
  bytes : Nat := 0
  /-- R338: pins. -/
  pins : Nat := 0
  deriving DecidableEq, Repr

/-- A weave die (R15). -/
structure DieSt where
  /-- R159: 1 bit; in service. -/
  ok : Bool := true
  /-- R159: round F of a declared failure. -/
  failed : Option Nat := none
  /-- R161: 1 bit; the parity resync runs. -/
  resync : Bool := false
  /-- R338: the program cache, least recently used first. -/
  cache : List CacheImg := []
  /-- R116: the walk cache. -/
  walkCache : List Cached := []
  /-- R116: up to 2,048 block-list entries of the walk cache, the most recent first. -/
  blockCache : List Cached := []
  /-- R117: entries of the die's pin store in use. -/
  pinned : Nat := 0
  /-- R233: lines in the atomic buffer, least recently used first. -/
  atomBuf : List Nat := []
  /-- R93: the eight channels. -/
  channels : SMap (Option BulkOp) := []
  /-- R93: the operation queue, oldest first. -/
  queue : List BulkOp := []
  /-- R225: credit indices in use, with their generation. -/
  tokens : List Nat := []
  /-- R225: 4 bits; generation of the next token. -/
  tokenGen : Nat := 0
  deriving DecidableEq, Repr

/-- A stack (R153). -/
structure StackSt where
  /-- R206: 1 bit; failed. -/
  failed : Bool := false
  /-- R159: 1 bit; served through its secondary port. -/
  secondary : Bool := false
  /-- R159: consecutive health exchanges the primary port missed. -/
  missP : Nat := 0
  /-- R206: consecutive health exchanges the secondary port missed. -/
  missS : Nat := 0
  /-- R173: 1 bit; refreshes at the doubled rate. -/
  hot : Bool := false
  /-- R159, R161: 1 bit; failed over alone, its parity resync runs. -/
  resync : Bool := false
  /-- R166: 32 bits; pseudo-channels in write drain mode. -/
  drain : BitVec 32 := 0
  deriving DecidableEq, Repr

/-- A bank (R153): refresh and row state. -/
structure Bank where
  /-- R172: 4 bits; postponed count. -/
  postponed : Nat := 0
  /-- R172: due time, in units of 10 ns. -/
  due : Nat := 0
  /-- R168: open row. -/
  row : Option Nat := none
  /-- R173: 1 bit; interval in force is the doubled rate. -/
  fast : Bool := false
  deriving DecidableEq, Repr

/-! ### Coherence and regions (chapter 08) -/

/-- STATE of a directory entry (R218). -/
inductive DirState where
  | u | s | x | busy
  deriving DecidableEq, Repr

/-- What a BUSY line does once its answers are in (R223). For a request of several lines, `rest` names the lines after
this one, with the bytes read so far or still to be written, and `st` is the status of the first that was refused.
`trim` takes a region's line from the agents of every partition but its home (R245, R247). -/
inductive PendKind where
  | rdS | rdX | upg
  | rdNc (rest : List Nat) (data : List Byte) (poison : Bool)
  | wrNc (rest : List Nat) (data : List Byte) (masks : Option (List U64)) (st : Status)
  | atomFar (op : AtomOp) (width8 : Bool) (operand compare : U64)
  | stroke (id : Nat)
  | host (tag : Nat)
  | evict
  | publish (region : Nat)
  | clean
  | device (pa : Nat) (data : List Byte)
  | trim (home : Nat)
  deriving DecidableEq, Repr

/-- A pending transaction of a line (R218). -/
structure Pend where
  /-- R223: what completes it. -/
  kind : PendKind := .rdS
  /-- R218: PEND_REQ. -/
  req : FabReq := {}
  /-- R223: holders whose answer is awaited, with the SEQ of their snoop (R218 PEND_SEQ, 16 bits). -/
  await : List (Requester × Nat) := []
  /-- R387: opcode of the snoop sent. -/
  op : Nat := 0x80
  /-- R220: 1 bit; SNP_INV carries REVOKED. -/
  revoked : Bool := false
  /-- R234: round S in which the snoop was sent. -/
  round : Nat := 0
  /-- R223: the owner whose line was snooped in X. -/
  owner : Option Requester := none
  /-- R223: 1 bit; a FWD_MISS with WB_PENDING waits for its WB. -/
  wbWait : Bool := false
  /-- R223: 1 bit; the owner forwarded the line to the requester. -/
  forwarded : Bool := false
  /-- R235: 1 bit; data for the requester is poisoned by a dead agent. -/
  dead : Bool := false
  deriving DecidableEq, Repr

/-- A retry token of a line (R225, R226), and the weaver atomic that waits with it at an atomic buffer. -/
structure Token where
  /-- R225: 16 bits. -/
  token : Nat := 0
  /-- R226: who holds it. -/
  who : Requester := .agent 0 0
  /-- R233: the stroke's pool request that an atomic buffer retries. -/
  id : Nat := 0
  deriving DecidableEq, Repr

/-- A directory entry (R218). -/
structure DirEnt where
  /-- R218: 2 bits; STATE. -/
  st : DirState := .u
  /-- R218: 1 bit; OVF. -/
  ovf : Bool := false
  /-- R218, R230: 2 bits; PRED. -/
  pred : Nat := 2
  /-- R218: up to 4 pointers; in X the owner is the first. -/
  ptrs : List Requester := []
  /-- R226: retry tokens outstanding, oldest first. -/
  tokens : List Token := []
  /-- R219, R223: first round in which the device's own reads no longer take what SNP_CLEAN brought from the owner. -/
  fresh : Nat := 0
  /-- R226: round from which the line is held for its oldest token. -/
  heldFrom : Option Nat := none
  /-- R218: the pending transaction of a BUSY line. -/
  pend : Option Pend := none
  /-- R219: non-caching accesses that wait while the line is BUSY. -/
  waiting : List (FabReq × PendKind) := []
  /-- R216: 1 bit; the entry is in the backing, not in the SRAM. -/
  backed : Bool := false
  /-- R216: the model's own stamp of the entry's last use, for the least recently used choice. -/
  used : Nat := 0
  deriving DecidableEq, Repr

/-- A live version of a region (R238). -/
structure Version where
  /-- R238: 32 bits. -/
  num : Nat := 0
  /-- R238: pin count. -/
  pins : Nat := 0
  /-- R238: translation-pin count. -/
  tpins : Nat := 0
  /-- R238: 25 bits; index frame. -/
  index : Nat := 0x1FFFFFF
  deriving DecidableEq, Repr

/-- BORN and DIED of a frame (R238); none stands for 0xFFFF_FFFF. -/
structure Frame where
  /-- R238: 32 bits; BORN. -/
  born : Option Nat := none
  /-- R238: 32 bits; DIED. -/
  died : Option Nat := none
  deriving DecidableEq, Repr

/-- A region record with its version and frame tables (R238). -/
structure Region where
  /-- R238: 1 bit; VALID. -/
  valid : Bool := false
  /-- R238: 1 bit; HALF. -/
  half : Nat := 0
  /-- R238: 1 bit; LENT. -/
  lent : Bool := false
  /-- R247: boundary D of a destruction; set while DESTROYING. -/
  destroying : Option Nat := none
  /-- R238: 8 bits; HOME. -/
  home : Nat := 0
  /-- R238: 64 bits; OFFER_MASK. -/
  offer : U64 := 0
  /-- R238: 64 bits; READER_MASK. -/
  readers : U64 := 0
  /-- R238: 32 bits; VERSION. -/
  version : Nat := 0
  /-- R238: 32 bits; PIN_VERSION. -/
  pinVersion : Nat := 0
  /-- R238: 25 bits; FRAMES. -/
  frames : Nat := 0
  /-- R238: 25 bits; INDEX. -/
  index : Nat := 0x1FFFFFF
  /-- R238: 64 bits; PUBLISH_ROUND. -/
  publishRound : Nat := 0
  /-- R238: EXT0 to EXT7. -/
  exts : List Nat := []
  /-- R238: the version table. -/
  versions : List Version := []
  /-- R238: the frame table. -/
  table : SMap Frame := []
  /-- R243: publishes claimed and not complete: version, index, round of the frame change, issuer tag. -/
  publishing : List (Nat × Nat × Nat × Nat) := []
  deriving DecidableEq, Repr

/-! ### Links and the fabric (chapters 13 and 14) -/

/-- State of a link (R369). -/
inductive LState where
  | dark | training | probation | up | paused | hold | versionMismatch | failed
  deriving DecidableEq, Repr

/-- A packet in a link's input (R391, R394). -/
structure Input where
  /-- R391: 3 bits; virtual channel. -/
  vc : Nat := 0
  /-- R394: 64 bits; round of arrival. -/
  round : Nat := 0
  /-- R384: the packet. -/
  pkt : Packet := {}
  /-- R406: outputs that must still take a multicast packet. -/
  outs : List Nat := []
  deriving DecidableEq, Repr

/-- A router's combining of the answers to a multicast invalidation that it forwarded (R406). -/
structure McWait where
  /-- R405: 24 bits; origin endpoint. -/
  origin : Nat := 0
  /-- R405: 12 bits; group. -/
  group : Nat := 0
  /-- R386: 40 bits; HANDLE of the line. -/
  line : Nat := 0
  /-- R406: 6 bits; partition of the packet. -/
  part : Nat := 0
  /-- R406: branches that have not answered. -/
  left : List Nat := []
  /-- R406: 256 bits; members that have answered. -/
  mask : BitVec 256 := 0
  /-- R406: 64 bits; round in which the snoop was forwarded. -/
  round : Nat := 0
  deriving DecidableEq, Repr

/-- An anti-replay window (R390): one for each sender and key. -/
structure ReplayWin where
  /-- R390: 6 bits; partition. -/
  part : Nat := 0
  /-- R390: 24 bits; SRC_EP. -/
  ep : Nat := 0
  /-- R390: 16 bits; SRC_RANK. -/
  rank : Nat := 0
  /-- R475: 32 bits; key generation. -/
  gen : Nat := 0
  /-- R390: 32 bits; highest PKT_CTR seen. -/
  high : Nat := 0
  /-- R390: PKT_CTR values seen among the last 64. -/
  seen : List Nat := []
  deriving DecidableEq, Repr

/-- A link (R360) with its record (R382). -/
structure Link where
  /-- R382: 4 bits; STATE. -/
  st : LState := .dark
  /-- R382: 8 bits; LANE_MASK. -/
  lanes : BitVec 8 := 0
  /-- R382: 8 bits; PROTO_MAJOR. -/
  major : Nat := 0
  /-- R382: 8 bits; PROTO_MINOR. -/
  minor : Nat := 0
  /-- R382: 4 bits; DOWN_CAUSE. -/
  downCause : Nat := 0
  /-- R382: 9 bits; DELAY_NS. -/
  delay : Nat := 0
  /-- R382: 24 bits; PEER_ENDPOINT. -/
  peerEp : Nat := 0
  /-- R382: 4 bits; PEER_CLASS. -/
  peerClass : Nat := 0
  /-- R382: 64 bits; STATE_ROUND. -/
  stateRound : Nat := 0
  /-- R371: 6 bits; the peer's link number. -/
  peerLink : Nat := 0
  /-- R370: stage of training, 1 to 5; 0 outside. -/
  stage : Nat := 0
  /-- R371: 1 bit; an offer has been received. -/
  offered : Bool := false
  /-- R371: 1 bit; a confirm has been received. -/
  confirmed : Bool := false
  /-- R371: the peer's last offer. -/
  peerOffer : Option TrainBlock := none
  /-- R370: consecutive failed trainings. -/
  fails : Nat := 0
  /-- R370: 1 bit; the link tries only each 65,536 rounds. -/
  slow : Bool := false
  /-- R370: 1 bit; training completed and PROBATION comes at the boundary. -/
  trained : Bool := false
  /-- R370: round-trip samples of stage 5, in ps. -/
  samples : List Nat := []
  /-- R372: consecutive clean rounds. -/
  clean : Nat := 0
  /-- R372: 1 bit; the round is not clean. -/
  dirty : Bool := false
  /-- R373: 16 bits; expected SEQ. -/
  expect : Nat := 0
  /-- R373: 1 bit; a NAK is outstanding. -/
  naking : Bool := false
  /-- R374: 16 bits; SEQ of the next packet sent. -/
  nextSeq : Nat := 0
  /-- R374: the replay buffer: SEQ, packet, times sent. -/
  replay : List (Nat × Packet × Nat) := []
  /-- R371, R392: VC_UNITS of the peer. -/
  vcUnits : Nat := 0
  /-- R392: credits by virtual channel. -/
  credits : SMap Nat := []
  /-- R391: packets received and waiting in this link's input, oldest first. -/
  inputs : List Input := []
  /-- R377: rounds of recent DOWN declarations. -/
  downs : List Nat := []
  /-- R377: round from which HOLD runs. -/
  holdFrom : Nat := 0
  /-- R380: lanes removed, with rounds clean. -/
  removed : BitVec 8 := 0
  /-- R380: consecutive clean rounds by lane. -/
  laneClean : SMap Nat := []
  /-- R380: round of the last widening, plus 1. -/
  widened : Nat := 0
  /-- R379: mask of the fast retrain under way. -/
  newMask : BitVec 8 := 0
  /-- R379: 1 bit; the fast retrain interrupted PROBATION. -/
  prob : Bool := false
  /-- R370: 8 bits; lanes with light. -/
  lit : BitVec 8 := 0
  /-- R383: the 35 counters of the link and STRANGER_SPOOF (R389), by number. -/
  counters : SMap Nat := []
  deriving DecidableEq, Repr

/-- A route table entry (R395). -/
structure Route where
  /-- R395: 48 bits; MIN_MASK. -/
  min : BitVec 48 := 0
  /-- R395: ESC_U with ESC_U_VALID. -/
  escU : Option Nat := none
  /-- R395: ESC_D with ESC_D_VALID. -/
  escD : Option Nat := none
  /-- R395: 1 bit; LOCAL. -/
  isLocal : Bool := false
  deriving DecidableEq, Repr

/-- A flow at its flow home (R407 to R413). -/
structure Flow where
  /-- R407: the flow. -/
  id : FlowId := {}
  /-- R409: 1 bit; expected epoch. -/
  epoch : Bool := false
  /-- R409: performed requests of the expected epoch. -/
  cur : Nat := 0
  /-- R409: performed requests of the other epoch. -/
  other : Nat := 0
  /-- R410: the parked flagged request and the round of its first arrival. -/
  park : Option (Packet × Nat) := none
  /-- R410: round of first arrival while it waits unparked. -/
  waitFrom : Option Nat := none
  /-- R411: 1 bit; RESET_WAIT. -/
  resetWait : Bool := false
  /-- R412: the reset threshold, 32 bits, plus 1 once there is one. -/
  threshold : Nat := 0
  /-- R416: the reply cache: SEQ and reply status, newest first. -/
  cache : List (Nat × Packet) := []
  /-- R416: highest SEQ executed, plus 1. -/
  highSeq : Nat := 0
  /-- R416: SEQs still executing. -/
  executing : List Nat := []
  /-- R413: round of the last packet. -/
  last : Nat := 0
  deriving DecidableEq, Repr

/-- An outstanding read of the migration engine (R129, R415, R417). -/
structure OutReq where
  /-- R415: 16 bits; TAG. -/
  tag : Nat := 0
  /-- R127: 6 bits; partition of the migration. -/
  part : Nat := 0
  /-- R127: 48 bits; page of the migration. -/
  pva : Nat := 0
  /-- R127: offset of the piece in the page. -/
  off : Nat := 0
  /-- R127: 1 bit; link die that sent it. -/
  ld : Nat := 0
  /-- The packet, resent unchanged but for PKT_CTR. -/
  pkt : Packet := {}
  /-- R415: round of the last sending. -/
  sent : Nat := 0
  /-- R129: resends. -/
  resends : Nat := 0
  /-- R129: status of the last answer of the peer that failed the read. -/
  why : Option Status := none
  /-- R129: 1 bit; the read has failed and is sent again after the transport timeout. -/
  failed : Bool := false
  deriving DecidableEq, Repr

/-- A request of an agent at its home (R220, R388). -/
inductive AgentOp where
  | rdS | rdX | upg | rdNc
  | wrNc (data : List Byte) (masks : Option (List U64))
  | atom (op : AtomOp) (width8 : Bool) (operand compare : U64)
  deriving DecidableEq, Repr

/-- A request of an agent that has passed its window check and waits: for its walk, or translated (R119, R121). -/
structure Parked where
  /-- R388: the request. -/
  req : FabReq := {}
  /-- R388: what it asks for. -/
  op : AgentOp := .rdS
  /-- R122: 48 bits; the PVA it names. -/
  pva : Nat := 0
  /-- R119: the lines it reaches, once translated. -/
  lines : Option (List Nat) := none
  /-- R225: 1 bit; it waits for a credit of its slice. -/
  credit : Bool := false
  deriving DecidableEq, Repr

/-- The fabric side of both link dies (chapter 14). -/
structure NetSt where
  /-- R395: the route table. -/
  routes : SMap Route := []
  /-- R399: the flooded state, by origin endpoint. -/
  db : SMap LinkStateMsg := []
  /-- R399: 1 bit; the flooded state changed since the table was computed. -/
  stale : Bool := false
  /-- R399: round of the last change of the flooded state. -/
  staleFrom : Nat := 0
  /-- R399: round of this device's last LINK_STATE. -/
  flooded : Nat := 0
  /-- R396: packets of the device's own that wait for a link, with the outputs that must still take a multicast packet. -/
  egress : List (Packet × List Nat) := []
  /-- R397: 48 bits; links that are down from this S48 under the orientation in force. -/
  down : BitVec 48 := 0
  /-- R397: endpoint of the root. -/
  root : Nat := 0
  /-- R400: announced root and orientation boundary. -/
  orient : Option (Nat × Nat) := none
  /-- R401: rounds without a path, by endpoint. -/
  noPath : SMap Nat := []
  /-- R403: rank caches of LD0 and LD1: link die, partition and rank. -/
  rankCache : List (Nat × Nat × Nat) := []
  /-- R403: miss queues: link die, partition, rank and packet. -/
  missQ : List (Nat × Nat × Nat × Packet) := []
  /-- R405: MC_INSTALL entries: origin, group, outputs, local delivery. -/
  mc : List (Nat × Nat × List LinkId × Bool) := []
  /-- R406: combining of acknowledgements. -/
  mcWait : List McWait := []
  /-- R407: the flows. -/
  flows : List Flow := []
  /-- R409: count notices on their way to the flow home: flow, EPOCH and requests performed. -/
  notices : List (FlowId × Bool × Nat) := []
  /-- R390: the anti-replay windows. -/
  windows : List ReplayWin := []
  /-- R474: 32 bits each; the device's next packet counter under KEY_ID 0xF, by destination endpoint. -/
  fabCtr : SMap Nat := []
  /-- R410: flows with a flagged request that waits unparked, at LD0 and LD1, by first arrival: link die and flow. -/
  waitFlows : List (Nat × FlowId) := []
  /-- R415: requests of this device that await a response. -/
  out : List OutReq := []
  /-- R415: next TAG. -/
  nextTag : Nat := 0
  /-- R391: request packets accepted at the network interface and not yet executed. -/
  ni : List Packet := []
  /-- R114, R160, R203, R225: requests of agents that wait at the link dies, in order of arrival. -/
  parked : List Parked := []
  /-- R142: owners from which the sweep has taken a line, whose later data is discarded. -/
  lateData : List (Requester × Nat) := []
  /-- R239, R246: the region version on which a fabric request's translation pin counts: request, region and version. -/
  verPins : List (FabReq × Nat × Nat) := []
  /-- R116: fabric translation caches of LD0 and LD1. -/
  fabCache0 : List Cached := []
  /-- R116: fabric translation cache of LD1. -/
  fabCache1 : List Cached := []
  /-- R533: link-die counters by name number: 0 MALFORMED, 1 STRANGER_KEY, 2 STRANGER_AUTH, 3 REPLAY_DROP,
  4 STRANGER_RANK, 5 HOP_AGE_DROP, 6 NO_ROUTE, 7 ESC_FLUSH, 8 LATE_RSP, 9 SEQ_STALE, 10 STALE_CONTROL,
  11 HOST_LATE. -/
  counters : SMap Nat := []
  /-- R22: 1 bit; LD0 works. -/
  ld0 : Bool := true
  /-- R22: 1 bit; LD1 works. -/
  ld1 : Bool := true
  /-- R22, R414: link dies failed in this round. -/
  ldFailing : List Nat := []
  deriving DecidableEq, Repr

/-! ### Control plane (chapters 10 and 18) -/

/-- A staged control change (R36, R303). -/
inductive Change where
  | partCreate (p : Nat) (x : Partition)
  | partDestroy (p : Nat)
  | affinity (p : Nat) (mask : BitVec 768) (share : Nat)
  | consent (p : Nat) (dbg prof : Bool)
  | extGrant (e half blocks p : Nat)
  | extRevoke (e : Nat) (force : Bool)
  | extRetire (b : Nat)
  | winSet (w : Nat) (x : Window)
  | rankSet (p rank : Nat) (x : Rank)
  | groupSet (g : Nat) (x : Group)
  | keyLoad (p slot : Nat) (x : PeerKey)
  | shape (p : Nat) (rate burst overhead : Nat)
  | police (p : Nat) (cir pir cbs pbs : Nat) (aware : Bool)
  | budget (p lo hi bytes : Nat)
  | cap (watts : Nat) (asked : Nat)
  | sagCap (watts : Nat)
  | sagWarn (half : Nat)
  | mode (learned fixed boost : Bool)
  | pref (p phase op : Nat)
  | select (p : Option Nat) (n event : Nat) (level chain : Bool) (f3 f4 f5 : Nat)
  | ring (p : Option Nat) (n pva log2 k : Nat)
  | userRead (p : Nat) (allow : Bool)
  | snap (p : Option Nat) (b : Nat)
  | regionCreate (r : Nat) (x : Region)
  | regionAccept (r p : Nat)
  | regionDestroy (r : Nat)
  | regionPin (r p slot : Nat) (pva : Nat)
  | regionUnpin (p slot : Nat)
  | regionPublish (r v index : Nat) (list : List (Nat × Bool))
  | bind (ch : Nat) (tx rx : Nat)
  | lock
  | priority (v : Nat)
  | progLoad (p slot : Nat) (x : ProgSlot)
  | progUnload (p slot : Nat)
  | sync (p pva len : Nat)
  | target (port units : Nat)
  | rebuildShare (h share : Nat)
  | retirePage (pa : Nat)
  | retireBank (b : BankId)
  | retireStack (st : Nat)
  | epochOpen (p : Nat)
  | hostExtent (i : Nat) (st : Nat)
  | hostOffer (i e dpa pva blocks : Nat)
  | notice (ch : Nat) (words : List U64)
  deriving DecidableEq, Repr

/-- A control result (R297) and when it may leave (R57). -/
structure Result where
  /-- R302: the issuer. -/
  issuer : Issuer := .operator
  /-- R297: 8 bits; STATUS. -/
  status : Nat := 0
  /-- R297: 8 bits; OPCODE. -/
  opcode : Nat := 0
  /-- R297: 4 bits; SUB. -/
  sub : Nat := 0
  /-- R297: 32 bits; REQ_TAG. -/
  tag : Nat := 0
  /-- R297: 64 bits; EFFECT_ROUND. -/
  effect : Nat := 0
  /-- R297: RESULT0 to RESULT5. -/
  results : List Nat := []
  /-- R57: 1 bit; it may leave. -/
  ready : Bool := true
  /-- R309, R544: boundary before which it may not leave. -/
  notBefore : Nat := 0
  deriving DecidableEq, Repr

/-- A background control instruction (R303). -/
structure Background where
  /-- R302: the issuer. -/
  issuer : Issuer := .operator
  /-- R296: the request. -/
  req : CtrlReq := {}
  /-- R299: 8 bits; opcode. -/
  op : Nat := 0
  /-- R303: round in which it began. -/
  started : Nat := 0
  /-- R303: 1 bit; the work has ended and the result waits. -/
  done : Bool := false
  deriving DecidableEq, Repr

/-- A delta entry of a journal record (R496). -/
structure JournalEntry where
  /-- R496: 8 bits; KIND. -/
  kind : Nat := 0
  /-- R496: 8 bits; OPCODE. -/
  op : Nat := 0
  /-- R496: 24 bits; INDEX. -/
  index : Nat := 0
  /-- R496: the body, BODY_WORDS words. -/
  body : List U64 := []
  deriving DecidableEq, Repr

/-- A journal record (R495, R496); DELTAS and BYTES are those of its entries. -/
structure Journal where
  /-- R495: 64 bits; ROUND. -/
  round : Nat := 0
  /-- R495: 32 bits; EPOCH. -/
  epoch : Nat := 0
  /-- R495: 1 bit; COMPLETED. -/
  completed : Bool := false
  /-- R495: 1 bit; CHECKPOINT. -/
  checkpoint : Bool := false
  /-- R496: the delta entries. -/
  entries : List JournalEntry := []
  /-- R495: 256 bits; PREV_DIGEST. -/
  prev : List U64 := []
  /-- R495: 256 bits; DIGEST. -/
  digest : List U64 := []
  deriving DecidableEq, Repr

/-- A checkpoint (R498); BYTES is the length of its body. -/
structure Checkpoint where
  /-- R498: 64 bits; ROUND. -/
  round : Nat := 0
  /-- R498: 32 bits; EPOCH. -/
  epoch : Nat := 0
  /-- R498: the body. -/
  body : List U64 := []
  /-- R498: 256 bits; the digest of the body. -/
  digest : List U64 := []
  deriving DecidableEq, Repr

/-- The journal ring and the two checkpoint slots in a half's metadata (R30, R494, R498). -/
structure JournalCopy where
  /-- R494: the records of the ring's slots, newest first. -/
  ring : List Journal := []
  /-- R498: checkpoint slot 0. -/
  slot0 : Option Checkpoint := none
  /-- R498: checkpoint slot 1. -/
  slot1 : Option Checkpoint := none
  deriving DecidableEq, Repr

/-- The active stake's control queues, staged changes and journal. -/
structure CtlSt where
  /-- R302: the stake firmware queue, 64 requests. -/
  stakeQ : List CtrlReq := []
  /-- R302: the operator queue, 64 requests. -/
  operQ : List CtrlReq := []
  /-- R302: the owner queues, 16 requests each, by partition. -/
  ownerQ : SMap (List CtrlReq) := []
  /-- R303: instructions executed in this round. -/
  executed : Nat := 0
  /-- R303: background instructions. -/
  background : List Background := []
  /-- R303: changes staged in this round, in execution order. -/
  staged : List Change := []
  /-- R496: entries of the staged changes; the objects' new content is filled in as the record is written. -/
  deltas : List JournalEntry := []
  /-- R57: results that wait, in order. -/
  results : List Result := []
  /-- R496: results sent since the last journal record, whose SENT entries are not yet written. -/
  sent : List Result := []
  /-- R303: the key of the queue served last in the passes of this round: 0 STAKE, 1 OPERATOR, 2 on for the owners in the
  round's order; 65 at the start of a pass. -/
  turn : Nat := 65
  /-- R30: the journal and checkpoints in the metadata of half 0. -/
  copy0 : JournalCopy := {}
  /-- R30: the journal and checkpoints in the metadata of half 1. -/
  copy1 : JournalCopy := {}
  /-- R497: the applied list: the last boundary whose step 4 was applied. -/
  applied : Nat := 0
  /-- R497: the applied list: the entries of the changes applied there. -/
  appliedEntries : List JournalEntry := []
  /-- R456: 1 bit; the mailbox bindings are locked. -/
  locked : Bool := false
  deriving DecidableEq, Repr

/-- STATE of a stake's health word (R488). -/
inductive StakeState where
  | standby | booting | shadow | active | verifying | failed
  deriving DecidableEq, Repr

/-- STATE of a keep store (R510). -/
inductive KeepState where
  | empty | writing | valid
  deriving DecidableEq, Repr

/-- A stake with its health word, keep store and fuses. -/
structure Stake where
  /-- R488: 3 bits; STATE. -/
  st : StakeState := .standby
  /-- R488: 1 bit; PASS_DONE. -/
  passDone : Bool := false
  /-- R488: 1 bit; RETEST. -/
  retest : Bool := false
  /-- R488: 10 bits; SLICE. -/
  slice : Nat := 0
  /-- R489: slices passed since the cores entered reset. -/
  passed : Nat := 0
  /-- R510: 2 bits; STATE of the keep store. -/
  keep : KeepState := .valid
  /-- R510: 32 bits; IMAGE_BYTES of the keep store. -/
  keepBytes : Nat := 0
  /-- R510: fw_digest of the image in the keep store. -/
  keepDigest : List U64 := []
  /-- R466: 7 bits; SVN of the image in the keep store. -/
  keepSvn : Nat := 0
  /-- R466: fw_digest of the image the stake runs or last booted. -/
  runDigest : List U64 := []
  /-- R466: 7 bits; SVN of that image. -/
  runSvn : Nat := 0
  /-- R463: F, the number of ROLLBACK fuses blown. -/
  rollback : Nat := 0
  /-- R463: 2 bits; FW_KEY_REVOKED. -/
  revoked : BitVec 2 := 0
  /-- R463: 2 bits; LIFECYCLE. -/
  lifecycle : Nat := 1
  /-- R463: 1,024 bits; ID_SEED, FW_KEY_HASH0, FW_KEY_HASH1 and DEBUG_KEY_HASH. -/
  fuseWords : List U64 := List.replicate 16 0
  /-- R500: round of release from reset. -/
  releasedAt : Nat := 0
  deriving DecidableEq, Repr

/-- LEASE_STATE (R491). -/
inductive LeaseState where
  | none | valid | pending | handover
  deriving DecidableEq, Repr

/-- The lease record of a hoop half (R491). -/
structure Lease where
  /-- R491: 32 bits; EPOCH. -/
  epoch : Nat := 0
  /-- R491: 1 bit; HOLDER. -/
  holder : Nat := 0
  /-- R491: 2 bits; LEASE_STATE. -/
  st : LeaseState := .none
  /-- R491: 1 bit; SPINE_LOST. -/
  spineLost : Bool := false
  /-- R491: 1 bit; FENCED. -/
  fenced : Bool := false
  /-- R491: 64 bits; EXPIRY. -/
  expiry : Nat := 0
  /-- R491: 64 bits; HANDOVER_ROUND. -/
  handover : Nat := 0
  deriving DecidableEq, Repr

/-- The stakes, the hoop and live update (chapter 18). -/
structure AuthSt where
  /-- R488: stake 0. -/
  stake0 : Stake := {}
  /-- R488: stake 1. -/
  stake1 : Stake := {}
  /-- R491: hoop half 0. -/
  lease0 : Lease := {}
  /-- R491: hoop half 1. -/
  lease1 : Lease := {}
  /-- R492: epoch of the renewal sent in this round. -/
  renewal : Option Nat := none
  /-- R493: STALE_CONTROL. -/
  staleControl : Nat := 0
  /-- R20: 1 bit; bridge WD0 to WD2 works. -/
  bridge0 : Bool := true
  /-- R20: 1 bit; bridge WD1 to WD3 works. -/
  bridge1 : Bool := true
  /-- R197: halves whose weave-to-weave link is lost. -/
  weaveLost : List Nat := []
  /-- R197: failed mesh links, by path, that are routed around. -/
  meshLost : List Nat := []
  /-- R509: 1 bit; the copy to the subordinate half is complete. -/
  copied : Bool := false
  /-- R504: the handover in progress: incoming stake and, for ROLE.SWAP, the waiting request tag. -/
  handover : Option (Nat × Option Nat) := none
  /-- R511: FW.STAGE: length, chunk count, chunks received. -/
  staging : Option (Nat × Nat × SMap (List U64)) := none
  /-- R511: what the staged image holds. -/
  stagedImage : Option ImageFacts := none
  /-- R510: 1 bit each; a keep store being programmed: stake, digest, SVN, and whether it serves FW.STAGE. -/
  writing : Option (Nat × List U64 × Nat × Bool) := none
  /-- R512: 1 bit; a live update has completed and ROLLBACK has not risen. -/
  updateDone : Bool := false
  /-- R512: 1 bit; a handover has changed the running image and the live update is not complete. -/
  updating : Bool := false
  /-- R515: 1 bit; keep-store programming pauses. -/
  keepPaused : Bool := false
  /-- R484: 1 bit; the debug access path is unlocked. -/
  unlocked : Bool := false
  /-- R484: partitions the unlocked path reached. -/
  debugReach : List Nat := []
  /-- R484: halted weavers. -/
  halted : List Nat := []
  /-- R484: halts that wait for a stroke to end. -/
  haltWait : List Nat := []
  deriving DecidableEq, Repr

/-! ### Host side and rim (chapter 16) -/

/-- A host extent table entry (R438); STATE is 0 FREE, 1 OFFERED, 2 ACCEPTED, 3 RELEASING. -/
structure HostExt where
  /-- R438: 2 bits; STATE. -/
  st : Nat := 0
  /-- R438: DPA_BASE. -/
  dpa : Nat := 0
  /-- R438: 14 bits; EXTENT. -/
  ext : Nat := 0
  /-- R438: BLOCKS. -/
  blocks : Nat := 0
  /-- R438: 48 bits; PVA_BASE. -/
  pva : Nat := 0
  /-- R440: boundary D of RELEASING. -/
  since : Nat := 0
  deriving DecidableEq, Repr

/-- A message in a mailbox channel (R457). -/
structure MbxMsg where
  /-- R457: 6 bits; sending partition. -/
  part : Nat := 0
  /-- R457: LEN. -/
  len : Nat := 0
  /-- R457: the words. -/
  words : List U64 := []
  deriving DecidableEq, Repr

/-- A lane group of the rim (R442 to R444). -/
structure RimGroup where
  /-- R443: 1 bit; usable. -/
  up : Bool := false
  /-- R444: 10 bits; active lanes. -/
  lanes : BitVec 10 := 0x3FF
  /-- R443: consecutive RIM_HEALTH exchanges. -/
  health : Nat := 0
  /-- R448, R563: 1 bit; the group retrains. -/
  training : Bool := false
  /-- R443: 16 bits; rim sequence number of the next message sent. -/
  seq : Nat := 0
  /-- R443: times the oldest unacknowledged message has been sent. -/
  sends : Nat := 0
  /-- R443: replays after a CRC failure. -/
  replays : Nat := 0
  /-- R444: round of the last widening, plus 1. -/
  widened : Nat := 0
  deriving DecidableEq, Repr

/-- A host memory request that waits on the fabric side (R441, R487). -/
structure HostReq where
  /-- R445: 16 bits; TAG. -/
  tag : Nat := 0
  /-- R438: DPA. -/
  dpa : Nat := 0
  /-- R441: 1 bit; a write. -/
  write : Bool := false
  /-- R446: the data of a write. -/
  data : List Byte := []
  /-- R446: the byte mask of a write. -/
  mask : Option U64 := none
  /-- R441: round in which it reached the fabric side. -/
  since : Nat := 0
  /-- R441: the answer once it resolves: status, data and poison. -/
  answer : Option (Nat × List Byte × Bool) := none
  deriving DecidableEq, Repr

/-- An EVENT record (R450). -/
structure EventRec where
  /-- R450: 16 bits; CODE. -/
  code : Nat := 0
  /-- R450: 64 bits; the round. -/
  round : Nat := 0
  /-- R450: 64 bits; DETAIL0. -/
  d0 : Nat := 0
  /-- R450: 64 bits; DETAIL1. -/
  d1 : Nat := 0
  deriving DecidableEq, Repr

/-- The host-side die and the rim. -/
structure HostSt where
  /-- R551: 1 bit; the island runs. -/
  up : Bool := true
  /-- R452: 64 bits; INT_STATUS. -/
  intStatus : U64 := 0
  /-- R452: 64 bits; INT_ENABLE. -/
  intEnable : U64 := 0
  /-- R452, R9: 8 bits each; INT_COUNT0 and INT_COUNT1 by flag. -/
  intCount : SMap Nat := []
  /-- R452: 64 bits each; CTRL_REQ by word. -/
  ctrlReq : SMap U64 := []
  /-- R454: 7 bits; requests outstanding. -/
  outstanding : Nat := 0
  /-- R454: the result queue, oldest first, 128 results of 8 words. -/
  results : List (List U64) := []
  /-- R452: the event queue, oldest first, 256 events. -/
  events : List EventRec := []
  /-- R452: 8 bits; events dropped while full. -/
  eventsDropped : Nat := 0
  /-- R452: 512 B each; MBX_TX buffers, keyed by k × 64 + word. -/
  mbxTx : SMap U64 := []
  /-- R452: 8 bits each; MBX_TXLEN. -/
  mbxTxLen : SMap Nat := []
  /-- R452: 8 bits each; status of the last put. -/
  mbxTxStatus : SMap Nat := []
  /-- R457: 1 bit each; a put awaits its MBX_ACK. -/
  mbxWait : SMap Bool := []
  /-- R452: 16 bits; TELEM_REQ selector outstanding. -/
  telemBusy : Bool := false
  /-- R452: 512 words; TELEM_BUF. -/
  telemBuf : List U64 := []
  /-- R452: 64 bits; ROUND_SYNC. -/
  roundSync : Nat := 0
  /-- R452: 32 B; ATTEST_NONCE by word. -/
  nonce : SMap U64 := []
  /-- R452: 1 bit; ATTEST_STATE busy. -/
  attestBusy : Bool := false
  /-- R452: 8 bits; ATTEST_STATE status. -/
  attestStatus : Nat := 0
  /-- R452: 2,048 words; ATTEST_BUF. -/
  attestBuf : List U64 := []
  /-- R452: 1 KiB; FW_BUF by word. -/
  fwBuf : SMap U64 := []
  /-- R438: the host extent table. -/
  exts : SMap HostExt := []
  /-- R441: host memory requests that wait. -/
  reqs : List HostReq := []
  /-- R450: the CXL event logs: vendor records. -/
  cxlLog : List EventRec := []
  /-- R439, R450: the Dynamic Capacity event log. -/
  dcLog : List EventRec := []
  /-- R436: the event interrupt policy. -/
  policy : U64 := 0
  /-- R442: lane group 0. -/
  group0 : RimGroup := {}
  /-- R442: lane group 1. -/
  group1 : RimGroup := {}
  /-- R441, R447, R533: 0 HOST_RD_REFUSED, 1 HOST_WR_REFUSED, 2 HOST_RD_ERR, 3 HOST_WR_ERR, 4 RIM_DROP_TYPE,
  5 RIM_DROP_DIR, 6 RIM_DROP_LEN at the host side; 12, 13, 14 the same drops at the fabric side. -/
  counters : SMap Nat := []
  /-- R455: bindings by channel: sender × 256 + receiver, plus 1. -/
  bindings : SMap Nat := []
  /-- R457: the channels. -/
  channels : SMap (List MbxMsg) := []
  /-- R446: messages on their way to the fabric side, oldest first. -/
  toFabric : List RimMsg := []
  /-- R446: messages on their way to the host side, oldest first. -/
  toHost : List RimMsg := []
  /-- R576: 96 B; the SUMMARY of the I3C block. -/
  summary : List U64 := []
  /-- R577: 1 bit; HOST_WAKE_N is asserted. -/
  wake : Bool := false
  /-- R436: 16 bits; CXL return code and payload of the last primary mailbox command. -/
  cxlReturn : Nat := 0
  /-- R436: payload of the last primary mailbox answer. -/
  cxlPayload : List U64 := []
  /-- R553: the staged stake configuration record: words 0 and 1 and the fabric key. -/
  cfgStaged : Option (U64 × U64 × List U64) := none
  deriving DecidableEq, Repr

/-! ### Power, counters, reset (chapters 19, 20, 21) -/

/-- The power controller, supply and thermal state. -/
structure PowerSt where
  /-- R517: 11 bits; CAP. -/
  cap : Nat := 1600
  /-- R517: 11 bits; EFF_CAP. -/
  eff : Nat := 1600
  /-- R517: 5 bits; DUTY. -/
  duty : Nat := 16
  /-- R517: 3 bits; CEILING_OP. -/
  ceiling : Nat := 7
  /-- R517: 4 bits; BOOST. -/
  boost : Nat := 0
  /-- R517: 4 bits; IDLE_L. -/
  idle : Nat := 0
  /-- R517: 5 bits; MEM_M. -/
  memM : Nat := 16
  /-- R527: 5 bits; the memory scale that the rank budgets of this round use. -/
  budgetM : Nat := 16
  /-- R517: 1 bit; LEARNED. -/
  learned : Bool := false
  /-- R517, R522: 1 bit; FIXED_FREQ. -/
  fixed : Bool := false
  /-- R517, R522: 1 bit; BOOST_EN. -/
  boostEn : Bool := true
  /-- R2: 1 bit; the device is of the Deterministic grade, order code D. -/
  gradeD : Bool := false
  /-- R517: 1 bit; FEED_A. -/
  feedA : Bool := true
  /-- R517: 1 bit; FEED_B. -/
  feedB : Bool := true
  /-- R517: 1 bit each; the eight conditions of word 1, by bit. -/
  cond : BitVec 8 := 0
  /-- R517: 8 bits each; COUNTS by condition. -/
  counts : SMap Nat := []
  /-- R513: SAG_WARN threshold in units of 0.5 V. -/
  sagWarn : Nat := 88
  /-- R515: W; SAG_CAP. -/
  sagCap : Nat := 600
  /-- R530: W; the thermal cap. -/
  thermalCap : Option Nat := none
  /-- R529: W; the allotment and rounds since it arrived. -/
  allot : Option Nat := none
  /-- R529: rounds since the last allotment. -/
  allotAge : Nat := 0
  /-- R529: an allotment that arrived in this round. -/
  allotNew : Option Nat := none
  /-- R529, R553: 16 bits; POWER_GROUP. -/
  group : Nat := 0
  /-- R529: latest report of each member: endpoint, limit, demand. -/
  reports : List (Nat × Nat × Nat) := []
  /-- R521: sum of the duties over the current 64 rounds. -/
  dutySum : Nat := 0
  /-- R521: rounds counted in the current 64. -/
  dutyRounds : Nat := 0
  /-- R521: 1 bit; every round so far ran at duty 16/16 with idle level 0. -/
  allFull : Bool := true
  /-- R521: highest round power of the current 64. -/
  peak : Nat := 0
  /-- R486: sum of the round powers of the current 64. -/
  powerSum : Nat := 0
  /-- R486: highest temperature of the current 64 rounds. -/
  hottest : Nat := 0
  /-- R525: consecutive rounds above the cap with every actuator at its limit. -/
  overRounds : Nat := 0
  /-- R513: bus voltage in units of 0.1 V. -/
  bus : Nat := 500
  /-- R530: sensor readings in °C, by sensor name of R532. -/
  sensors : SMap Nat := []
  /-- R486: power and temperature shown at the last 64-round boundary. -/
  shown : Nat × Nat := (0, 0)
  /-- R517: the power record shown at the last 64-round boundary: words 0 to 2. -/
  record : List U64 := []
  /-- R54, R522: 1 bit; PWR.MODE has taken effect at this boundary. -/
  modeChanged : Bool := false
  deriving DecidableEq, Repr

/-- Operator counters, snapshots and samples (chapter 20). -/
structure CntSt where
  /-- R533: 48 bits each; programmable operator counters 0 to 127. -/
  prog : SMap Nat := []
  /-- R538: selections by counter: event, CHAIN and the filter words 3 to 5, plus 1 in the event. -/
  sel : SMap (Nat × Bool × Nat × Nat × Nat) := []
  /-- R543: shadow bank 0 of the operator counters. -/
  shadow0 : SMap Nat := []
  /-- R543: shadow bank 1 of the operator counters. -/
  shadow1 : SMap Nat := []
  /-- R309: named operator snapshot boundaries. -/
  snaps : List Nat := []
  /-- R545: the operator snapshots kept, newest first: ROUND, SEQ, PARTIAL, values. -/
  ring : List (Nat × Nat × Bool × SMap Nat) := []
  /-- R545: SEQ of the next operator snapshot. -/
  seq : Nat := 0
  /-- R547: K of the operator's sampler. -/
  sampler : Option Nat := none
  /-- R549: the operator sample ring, newest first. -/
  samples : List (List U64) := []
  /-- R549: SEQ of the next operator sample. -/
  sampleSeq : Nat := 0
  /-- R195, R533: REPLAY counters by path. -/
  replay : SMap Nat := []
  /-- R195: the replay buffers of the paths' sources: the last 64 transfers that the model has seen on each, oldest first. -/
  sent : SMap (List Transfer) := []
  /-- R354: cycles of a clock of 1.70 GHz in the rounds since reset, from which each weaver's clock cycles are told. -/
  clock : Nat := 0
  deriving DecidableEq, Repr

/-- Mode of the fabric side (R554) and what precedes it. -/
inductive Mode where
  | off | reset | start | test | service | recovery
  deriving DecidableEq, Repr

/-- Reset and start-up. -/
structure ResetSt where
  /-- R554: the mode. -/
  mode : Mode := .start
  /-- R555: last start phase that completed. -/
  phase : Nat := 0
  /-- R552: 1 bit; FULL_TEST_DONE. -/
  fullTest : Bool := false
  /-- R563: a reset due at a boundary: kind and boundary. -/
  due : Option (Nat × Nat) := none
  /-- R560: boundary W of a running warm reset. -/
  warm : Option Nat := none
  /-- R560: 1 bit; the limit of W + 8 has been applied. -/
  limited : Bool := false
  /-- R551: 1 bit; pool memory was retained. -/
  retained : Bool := false
  /-- R577: 1 bit; FAB_PWRGD. -/
  pwrgd : Bool := false
  /-- R577: 1 bit; THERMTRIP_N is driven low. -/
  thermtrip : Bool := false
  /-- R531: 1 bit; the power stage is off after a trip. -/
  stageOff : Bool := false
  /-- R578: 1 bit; DEV_RESET_N is held low. -/
  held : Bool := false
  /-- R516, R531: the first EVENT after start. -/
  firstEvent : Option EventRec := none
  /-- R559: 1 bit; START is held for a spine bridge. -/
  noSpine : Bool := false
  /-- R553: HOME_HALF. -/
  homeHalf : Nat := 0
  /-- R553: FLAG_WAIT. -/
  flagWait : Nat := 8
  /-- R553: TRANSPORT_TIMEOUT. -/
  timeout : Nat := 16
  /-- R553: words 0 and 1 of the configuration record in force. -/
  cfg : U64 × U64 := (0x0040440247464353, 0)
  /-- R477, R553: 256 bits; the fabric key. -/
  fabricKey : List U64 := []
  /-- R552: 1 bit; the persistent area lacks a change. -/
  persistDue : Bool := false
  /-- R552: round from which the area lacks a change. -/
  persistFrom : Nat := 0
  deriving DecidableEq, Repr

/-- The whole machine. -/
structure State where
  /-- The commands that wait, first in, first out. -/
  pending : List Instr := []
  /-- R39 to R58: the round. -/
  rnd : RoundSt := {}
  /-- R100: 64 partitions. -/
  parts : SMap Partition := []
  /-- R120: 4,096 windows. -/
  windows : SMap Window := []
  /-- R404: 4,096 multicast groups. -/
  groups : SMap Group := []
  /-- R132: 16,384 extents. -/
  extents : SMap Extent := []
  /-- R134: block pool of half 0. -/
  pool0 : BlockPool := {}
  /-- R134: block pool of half 1. -/
  pool1 : BlockPool := {}
  /-- R153 to R171: pool memory. -/
  mem : PoolMem := {}
  /-- R16: half 0. -/
  half0 : HalfSt := {}
  /-- R16: half 1. -/
  half1 : HalfSt := {}
  /-- R15: four weave dies. -/
  dies : SMap DieSt := []
  /-- R15: twenty stacks. -/
  stackTab : SMap StackSt := []
  /-- R153: banks, by bank number. -/
  banks : SMap Bank := []
  /-- R164, R312: latency target of each of the 55 ports, in units of 10 ns, plus 1 where it was set. -/
  targets : SMap Nat := []
  /-- R218: the directory, by line. -/
  dir : SMap DirEnt := []
  /-- R237: 1,024 regions. -/
  regions : SMap Region := []
  /-- R337: 768 weavers. -/
  weavers : SMap Weaver := []
  /-- R114: 48 walkers. -/
  walkers : SMap Walker := []
  /-- R127: migrations. -/
  migrations : List Migration := []
  /-- Outstanding pool requests of strokes. -/
  poolReqs : List PoolReq := []
  /-- The model's own counter of strokes and pool requests. -/
  nextId : Nat := 1
  /-- R302 to R303, R494: the control plane. -/
  ctl : CtlSt := {}
  /-- R488 to R512: stakes and authority. -/
  auth : AuthSt := {}
  /-- R360: 48 links. -/
  links : SMap Link := []
  /-- R384 to R419: the fabric. -/
  net : NetSt := {}
  /-- R435 to R460: host side, rim and mailboxes. -/
  host : HostSt := {}
  /-- R513 to R531: power. -/
  power : PowerSt := {}
  /-- R533 to R549: operator counters. -/
  cnt : CntSt := {}
  /-- R551 to R563: reset. -/
  rst : ResetSt := {}
  /-- What has left the device, newest first: the model's own trace of its outputs. -/
  out : List Out := []
  /-- The model's own counter of free values. -/
  free : Nat := 0
  /-- R216: the model's own counter of directory uses. -/
  dirUse : Nat := 0
  deriving DecidableEq, Repr

/-- Why the machine stops. Each is raised by the meanings of the controller-level commands named, and is safe: the
spec says no such pool address is backed. -/
inductive Fault where
  /-- R24: a controller-level command (MEM_READ_DECODE, VERIFY_READ, RECONSTRUCTION) names a pool address above
  0x017F_FFFF_FFFF, which is not backed. Safe: the machine stops. -/
  | unbackedAddress (pa : Nat)
  deriving DecidableEq, Repr

/-- Why a command has no meaning. -/
inductive Refusal where
  /-- Raised by the arm of a command that has no meaning yet. Safe: the machine stops. -/
  | notModelled (mnemonic : String)
  deriving DecidableEq, Repr

/-- The machine right after the first power-on reset is released (R551, R555): START mode, nothing placed. -/
def State.reset : State := {}

end Sys2Proof.Machine
end

