-- ==== Sys2Proof/Machine/Table.lean ====
section
/-! DEFINITION. Sparse tables and sorted sets in one canonical form, byte and bit-field helpers, and the lookup and
update of each table of the state. -/
namespace Sys2Proof.Machine

/-! ### Sparse tables -/

/-- The value of a key; a key that is not listed has the table's default. -/
def SMap.look {α : Type} (d : α) : SMap α → Nat → α
  | [], _ => d
  | (k', v) :: m, k => if k' = k then v else SMap.look d m k

/-- Adds a key before the first key above it. -/
def SMap.place {α : Type} : SMap α → Nat → α → SMap α
  | [], k, v => [(k, v)]
  | (k', v') :: m, k, v => if k < k' then (k, v) :: (k', v') :: m else (k', v') :: SMap.place m k v

/-- Sets a key, keeping keys rising and listing no default. -/
def SMap.put {α : Type} [DecidableEq α] (d : α) (m : SMap α) (k : Nat) (v : α) : SMap α :=
  let m := m.filter (fun e => decide (e.1 ≠ k))
  if v = d then m else SMap.place m k v

/-- Changes the value of a key. -/
def SMap.mod {α : Type} [DecidableEq α] (d : α) (m : SMap α) (k : Nat) (f : α → α) : SMap α :=
  SMap.put d m k (f (SMap.look d m k))

/-- Removes the keys that a test picks. -/
def SMap.dropIf {α : Type} (t : Nat → Bool) (m : SMap α) : SMap α := m.filter (fun e => !t e.1)

/-- Changes every listed value; a value that becomes the default is no longer listed. -/
def SMap.mapAll {α : Type} [DecidableEq α] (d : α) (f : Nat → α → α) (m : SMap α) : SMap α :=
  (m.map (fun e => (e.1, f e.1 e.2))).filter (fun e => decide (e.2 ≠ d))

/-- Adds to a counter of a table of counters that wraps at 48 bits (R533). -/
def SMap.bump (m : SMap Nat) (k : Nat) (n : Nat := 1) : SMap Nat := SMap.put 0 m k ((SMap.look 0 m k + n) % 2 ^ 48)

/-- Every key of a list lies above a bound and the keys rise. -/
def keysRise {α : Type} : List (Nat × α) → Bool
  | [] => true
  | [_] => true
  | a :: b :: m => decide (a.1 < b.1) && keysRise (b :: m)

/-- The canonical form: keys rise and no value is the default. -/
def SMap.wf {α : Type} [DecidableEq α] (d : α) (m : SMap α) : Bool := keysRise m && m.all (fun e => decide (e.2 ≠ d))

/-! ### Sorted sets of numbers -/

/-- Adds a number to a sorted set. -/
def setAdd : List Nat → Nat → List Nat
  | [], k => [k]
  | a :: l, k => if k < a then k :: a :: l else if k = a then a :: l else a :: setAdd l k

/-- Removes a number from a set. -/
def setDel (l : List Nat) (k : Nat) : List Nat := l.filter (fun a => decide (a ≠ k))

/-- Adds or removes a number. -/
def setTo (l : List Nat) (k : Nat) (b : Bool) : List Nat := if b then setAdd l k else setDel l k

/-- Adds an element at the end of a list that must not hold it twice. -/
def addOnce {α : Type} [DecidableEq α] (l : List α) (a : α) : List α := if a ∈ l then l else l ++ [a]

/-! ### Bits and bytes -/

/-- Bits [hi:lo] of a word, as a number. -/
def bits (v : U64) (hi lo : Nat) : Nat := (v.toNat / 2 ^ lo) % 2 ^ (hi + 1 - lo)

/-- One bit of a word. -/
def bit (v : U64) (i : Nat) : Bool := v.getLsbD i

/-- A Bool as a number. -/
def b2n (b : Bool) : Nat := if b then 1 else 0

/-- Little-endian bytes of a number (R5). -/
def toBytes : Nat → Nat → List Byte
  | 0, _ => []
  | n + 1, v => BitVec.ofNat 8 v :: toBytes n (v / 256)

/-- The number of little-endian bytes (R5). -/
def ofBytes : List Byte → Nat
  | [] => 0
  | b :: l => b.toNat + 256 * ofBytes l

/-- Little-endian bytes of 64-bit words. -/
def wordBytes (ws : List U64) : List Byte := ws.flatMap (fun w => toBytes 8 w.toNat)

/-- The 64-bit words of bytes. -/
def bytesWords : Nat → List Byte → List U64
  | 0, _ => []
  | n + 1, l => BitVec.ofNat 64 (ofBytes (l.take 8)) :: bytesWords n (l.drop 8)

/-- A / B rounded up; 0 for B = 0. -/
def ceilDiv (a b : Nat) : Nat := if b = 0 then 0 else (a + b - 1) / b

/-- A count of 8 bits that saturates (R9). -/
def sat8 (n : Nat) : Nat := if n < 255 then n + 1 else 255

/-- Bytewise XOR. -/
def xorBytes (a b : List Byte) : List Byte := List.zipWith (· ^^^ ·) a b

/-- The numbers from lo to lo + n − 1. -/
def nums (lo n : Nat) : List Nat := (List.range n).map (lo + ·)

/-! ### The tables of the state -/

/-- Partition p. -/
def State.part (s : State) (p : Nat) : Partition := s.parts.look {} p
/-- Changes partition p. -/
def State.onPart (s : State) (p : Nat) (f : Partition → Partition) : State :=
  { s with parts := s.parts.mod {} p f }
/-- Window w (R120). -/
def State.window (s : State) (w : Nat) : Window := s.windows.look {} w
/-- Multicast group g (R404). -/
def State.group (s : State) (g : Nat) : Group := s.groups.look {} g
/-- Extent e (R132). -/
def State.extent (s : State) (e : Nat) : Extent := s.extents.look {} e
/-- Changes extent e. -/
def State.onExtent (s : State) (e : Nat) (f : Extent → Extent) : State :=
  { s with extents := s.extents.mod {} e f }
/-- Block pool of a half (R134). -/
def State.pool (s : State) (h : Nat) : BlockPool := if h = 0 then s.pool0 else s.pool1
/-- Changes the block pool of a half. -/
def State.onPool (s : State) (h : Nat) (f : BlockPool → BlockPool) : State :=
  if h = 0 then { s with pool0 := f s.pool0 } else { s with pool1 := f s.pool1 }
/-- A half (R16). -/
def State.half (s : State) (h : Nat) : HalfSt := if h = 0 then s.half0 else s.half1
/-- Changes a half. -/
def State.onHalf (s : State) (h : Nat) (f : HalfSt → HalfSt) : State :=
  if h = 0 then { s with half0 := f s.half0 } else { s with half1 := f s.half1 }
/-- Weave die d (R15). -/
def State.die (s : State) (d : Nat) : DieSt := s.dies.look {} d
/-- Changes weave die d. -/
def State.onDie (s : State) (d : Nat) (f : DieSt → DieSt) : State := { s with dies := s.dies.mod {} d f }
/-- Stack n (R153). -/
def State.stack (s : State) (n : Nat) : StackSt := s.stackTab.look {} n
/-- Changes stack n. -/
def State.onStack (s : State) (n : Nat) (f : StackSt → StackSt) : State :=
  { s with stackTab := s.stackTab.mod {} n f }
/-- The number of a bank: stack, pseudo-channel, rank and bank in turn. -/
def bankNo (b : BankId) : Nat := ((b.stack.val * 32 + b.pc.val) * 6 + b.rank.val) * 16 + b.bank.val
/-- A bank (R153). -/
def State.bankSt (s : State) (b : BankId) : Bank := s.banks.look {} (bankNo b)
/-- Changes a bank. -/
def State.onBank (s : State) (b : BankId) (f : Bank → Bank) : State :=
  { s with banks := s.banks.mod {} (bankNo b) f }
/-- Directory entry of a line (R218). -/
def State.dirEnt (s : State) (line : Nat) : DirEnt := s.dir.look {} line
/-- Changes a directory entry. -/
def State.onDir (s : State) (line : Nat) (f : DirEnt → DirEnt) : State := { s with dir := s.dir.mod {} line f }
/-- Region r (R237). -/
def State.region (s : State) (r : Nat) : Region := s.regions.look {} r
/-- Changes region r. -/
def State.onRegion (s : State) (r : Nat) (f : Region → Region) : State :=
  { s with regions := s.regions.mod {} r f }
/-- Weaver w (R337). -/
def State.weaver (s : State) (w : Nat) : Weaver := s.weavers.look {} w
/-- Changes weaver w. -/
def State.onWeaver (s : State) (w : Nat) (f : Weaver → Weaver) : State :=
  { s with weavers := s.weavers.mod {} w f }
/-- Walker k (R114). -/
def State.walker (s : State) (k : Nat) : Walker := s.walkers.look {} k
/-- Changes walker k. -/
def State.onWalker (s : State) (k : Nat) (f : Walker → Walker) : State :=
  { s with walkers := s.walkers.mod {} k f }
/-- Link l (R360). -/
def State.link (s : State) (l : Nat) : Link := s.links.look {} l
/-- Changes link l. -/
def State.onLink (s : State) (l : Nat) (f : Link → Link) : State := { s with links := s.links.mod {} l f }
/-- A stake (R488). -/
def State.stake (s : State) (k : Nat) : Stake := if k = 0 then s.auth.stake0 else s.auth.stake1
/-- Changes a stake. -/
def State.onStake (s : State) (k : Nat) (f : Stake → Stake) : State :=
  if k = 0 then { s with auth := { s.auth with stake0 := f s.auth.stake0 } }
  else { s with auth := { s.auth with stake1 := f s.auth.stake1 } }
/-- The lease record of a hoop half (R491). -/
def State.lease (s : State) (k : Nat) : Lease := if k = 0 then s.auth.lease0 else s.auth.lease1
/-- Changes the lease record of a hoop half. -/
def State.onLease (s : State) (k : Nat) (f : Lease → Lease) : State :=
  if k = 0 then { s with auth := { s.auth with lease0 := f s.auth.lease0 } }
  else { s with auth := { s.auth with lease1 := f s.auth.lease1 } }
/-- Changes both lease records. -/
def State.onLeases (s : State) (f : Lease → Lease) : State := (s.onLease 0 f).onLease 1 f
/-- Changes the round's registers. -/
def State.onRnd (s : State) (f : RoundSt → RoundSt) : State := { s with rnd := f s.rnd }
/-- Changes pool memory. -/
def State.onMem (s : State) (f : PoolMem → PoolMem) : State := { s with mem := f s.mem }
/-- Changes the control plane. -/
def State.onCtl (s : State) (f : CtlSt → CtlSt) : State := { s with ctl := f s.ctl }
/-- Changes the stakes and the hoop. -/
def State.onAuth (s : State) (f : AuthSt → AuthSt) : State := { s with auth := f s.auth }
/-- Changes the fabric. -/
def State.onNet (s : State) (f : NetSt → NetSt) : State := { s with net := f s.net }
/-- Changes the host side. -/
def State.onHost (s : State) (f : HostSt → HostSt) : State := { s with host := f s.host }
/-- Changes the power controller. -/
def State.onPower (s : State) (f : PowerSt → PowerSt) : State := { s with power := f s.power }
/-- Changes the operator counters. -/
def State.onCnt (s : State) (f : CntSt → CntSt) : State := { s with cnt := f s.cnt }
/-- Changes the reset state. -/
def State.onRst (s : State) (f : ResetSt → ResetSt) : State := { s with rst := f s.rst }
/-- Appends to the trace of what has left the device. -/
def State.emit (s : State) (o : Out) : State := { s with out := o :: s.out }
/-- The next free value's number, and the state with the counter advanced. -/
def State.takeFree (s : State) : Nat × State := (s.free, { s with free := s.free + 1 })
/-- The model's next own number, and the state with the counter advanced. -/
def State.takeId (s : State) : Nat × State := (s.nextId, { s with nextId := s.nextId + 1 })

/-- Adds n to a counter of partition p (R535). -/
def State.countPart (s : State) (p k : Nat) (n : Nat := 1) : State :=
  s.onPart p (fun x => { x with counters := x.counters.bump k n })
/-- Adds n to a counter of link l (R383). -/
def State.countLink (s : State) (l k : Nat) (n : Nat := 1) : State :=
  s.onLink l (fun x => { x with counters := x.counters.bump k n })
/-- Adds 1 to a link-die counter (R533). -/
def State.countNet (s : State) (k : Nat) : State := s.onNet (fun x => { x with counters := x.counters.bump k })
/-- Adds 1 to a rim or host counter (R447, R441). -/
def State.countHost (s : State) (k : Nat) : State := s.onHost (fun x => { x with counters := x.counters.bump k })

/-- What the persistent area carries has changed (R552). -/
def State.persistChange (s : State) : State :=
  s.onRst (fun r => if r.persistDue then r else { r with persistDue := true, persistFrom := s.rnd.counter })

/-- Folds a change of the state over a list. -/
def State.each {α : Type} (s : State) (l : List α) (f : State → α → State) : State := l.foldl f s

/-- The round now running (R39). -/
def State.now (s : State) : Nat := s.rnd.counter

end Sys2Proof.Machine
end

