-- ==== Sys2Proof/Machine/Digest.lean ====
section
/-! DEFINITION. The public functions CRC-32C and SHA3-256 that the spec names (R62, R282, R465). -/
namespace Sys2Proof.Machine

/-- One byte into a running CRC-32C: reflected polynomial 0x82F63B78 (R282). -/
def crcByte (c : U32) (b : Byte) : U32 :=
  let step := fun (x : U32) (_ : Nat) => if x.getLsbD 0 then (x >>> 1) ^^^ 0x82F63B78#32 else x >>> 1
  (List.range 8).foldl step (c ^^^ b.setWidth 32)

/-- Bytes into a running CRC-32C. -/
def crcBytes (c : U32) (bs : List Byte) : U32 := bs.foldl crcByte c

/-- The 64-bit state words of Keccak, word x + 5 y. -/
abbrev Keccak := List U64

/-- A state word. -/
def kw (a : Keccak) (x y : Nat) : U64 := a.getD (x % 5 + 5 * (y % 5)) 0

/-- One step of the register x⁸ + x⁶ + x⁵ + x⁴ + 1 that draws the round constants. -/
def drawStep (r : Byte) : Byte := (r <<< 1) ^^^ (if r.msb then 0x71 else 0)

/-- The register after n steps. -/
def drawAt : Nat → Byte
  | 0 => 1
  | n + 1 => drawStep (drawAt n)

/-- The constant of a round: bit 2ʲ − 1 is the j-th of the seven draws of the round. -/
def roundWord (i : Nat) : U64 :=
  (List.range 7).foldl (fun w j => if (drawAt (7 * i + j)).getLsbD 0 then w ||| (1 <<< (2 ^ j - 1)) else w) 0

/-- The words in the order in which a round turns them, with the turn of each: the t-th by (t + 1)(t + 2) / 2. Word 0 is
not turned. -/
def turns : Nat → Nat → Nat → Nat → List (Nat × Nat)
  | 0, _, _, _ => []
  | n + 1, t, x, y => (x + 5 * y, (t + 1) * (t + 2) / 2 % 64) :: turns n (t + 1) y ((2 * x + 3 * y) % 5)

/-- The turn of a word. -/
def turnOf (i : Nat) : Nat := ((turns 24 0 1 0).lookup i).getD 0

/-- The parity of a column. -/
def column (a : Keccak) (x : Nat) : U64 := kw a x 0 ^^^ kw a x 1 ^^^ kw a x 2 ^^^ kw a x 3 ^^^ kw a x 4

/-- Each word takes in the columns beside its own. -/
def mixColumns (a : Keccak) : Keccak :=
  a.zipIdx.map (fun e => e.1 ^^^ column a (e.2 + 4) ^^^ (column a (e.2 + 1)).rotateLeft 1)

/-- Each word moves to its place in the transposed square, turned. -/
def scatterWords (a : Keccak) : Keccak :=
  (List.range 25).map (fun i => (kw a (i + 3 * (i / 5)) i).rotateLeft (turnOf ((i + 3 * (i / 5)) % 5 + 5 * (i % 5))))

/-- Each word takes in the two after it in its row. -/
def bendRows (a : Keccak) : Keccak :=
  a.zipIdx.map (fun e => e.1 ^^^ (~~~(kw a (e.2 + 1) (e.2 / 5)) &&& kw a (e.2 + 2) (e.2 / 5)))

/-- One round of Keccak-f[1600]. -/
def keccakRound (a : Keccak) (i : Nat) : Keccak :=
  (bendRows (scatterWords (mixColumns a))).modifyHead (· ^^^ roundWord i)

/-- Keccak-f[1600]. -/
def keccakF (a : Keccak) : Keccak := (List.range 24).foldl keccakRound a

/-- Absorbs blocks of 136 bytes. -/
def keccakAbsorb : Nat → Keccak → List Byte → Keccak
  | 0, a, _ => a
  | n + 1, a, bs =>
    let ws := bytesWords 17 (bs.take 136)
    let x := (List.range 25).map (fun i => a.getD i 0 ^^^ ws.getD i 0)
    keccakAbsorb n (keccakF x) (bs.drop 136)

/-- The SHA3-256 digest of bytes: 32 bytes. -/
def sha3 (bs : List Byte) : List Byte :=
  let n := bs.length / 136 + 1
  let pad := n * 136 - bs.length
  let tail : List Byte := if pad = 1 then [0x86] else 0x06 :: (List.replicate (pad - 2) 0 ++ [0x80])
  (wordBytes (keccakAbsorb n (List.replicate 25 0) (bs ++ tail))).take 32

/-- The digest as four words. -/
def sha3Words (bs : List Byte) : List U64 := bytesWords 4 (sha3 bs)

end Sys2Proof.Machine
end

