-- ==== Sys2Proof/Config.lean ====
section
/-! DEFINITION. What the spec leaves to the part or does not state: constants without a body, so that no proof can see
their value. -/
namespace Sys2Proof.Config

/-- R188: the eight symbols of the poison mark, which no error of 3 or fewer symbols can produce; the spec fixes them and
does not give them. -/
opaque poisonPattern : List (BitVec 8)

/-- R117: translations that the SRAM of a weave die's pin store holds; the spec gives no size. -/
opaque pinStore : Nat

/-- R101: the bytes of the operator's ML-KEM-768 encapsulation key, the owner key of the HOST partition; the spec does not say
where the device takes it from. -/
opaque operatorKeyByte : Nat → BitVec 8

/-- R386: the keyed permutation that makes a line handle of a line's number, under a partition's secret. -/
opaque lineHandle : Nat → Nat → BitVec 40

/-- R322: which of the FP32 values within 1 unit in the last place VEXP2 (0), VRCP (1) or VRSQ (2) returns for an
encoding. -/
opaque ulpPick : Nat → U32 → Fin 3

/-- R273, R278: the fixed order of a sum, which the spec does not state: the pair of terms added at a step, by the
key of the operation and its dimensions. -/
opaque sumPick : Nat → Nat → Nat × Nat

/-- R216: the SRAM set of a slice in which a line's directory entry lies; the spec gives the ways and no index. -/
opaque sramSet : Nat → Fin 131072

/-- R216: the backing set of a half in which a line's directory entry lies. -/
opaque backSet : Nat → Fin 1048576

/-- R547: a draw of a weaver's own sampling generator, which is never readable; applied to the machine's counter of free
values. -/
opaque sampleDraw : Nat → BitVec 20

/-- R470: byte i of the ML-KEM-768 ciphertext of an encapsulation, whose coins come from the secure element; applied to
the machine's counter of free values. -/
opaque encapsByte : Nat → Nat → BitVec 8

/-- R470: byte i of the device's nonce Nd; applied to the machine's counter of free values. -/
opaque nonceByte : Nat → Nat → BitVec 8

/-- R465, R470, R482: byte i of the ML-DSA-44 signature under att_sk of a message. -/
opaque sigByte : List (BitVec 8) → Nat → BitVec 8

/-- R406: the bit of a combined acknowledgement that a router sets for a member, by group and rank: the router's entry
does not hold the group's BASE_RANK. -/
opaque mcBit : Nat → Nat → Fin 256

/-- R465, R479: bytes of the certificate chain that a stake holds for the image of a digest, before padding. -/
opaque certBytes : List (BitVec 64) → List (BitVec 8)

/-- R464, R553: words 2 to 7 of the configuration record: the fabric key and its tag under the sealing key of a fuse
bank. -/
opaque sealKey : List (BitVec 64) → List (BitVec 64) → List (BitVec 64)

/-- R546: a half's share of a counter, which a snapshot formed from one half only holds; the model keeps the sums of the
dies. Applied to the machine's counter of free values. -/
opaque halfCount : Nat → BitVec 48

/-- R50, R354: cycles of a 1.70 GHz clock by which a resynchronisation lengthens its round, of which the spec says only that
they are at most one round's. Applied to the machine's counter of free values. -/
opaque resyncCycles : Nat → BitVec 16

/-- R437: the IDE key material of an attestation response, whose form the spec does not state. -/
opaque ideKey : Nat → List (BitVec 64)

/-- R446: the rim timestamp of TIME_SYNC. -/
opaque rimTime : Nat → BitVec 64

/-- R436: the payload of the answer of a primary mailbox command that the host-side die makes itself, by command opcode and the
last TELEMETRY summary: Identify Memory Device, Get Supported Logs, Get Log and Get Health Info. -/
opaque cxlAnswer : Nat → List (BitVec 64) → List (BitVec 64)

/-- R450: which of the four CXL event logs other than the Dynamic Capacity log takes an EVENT code. -/
opaque cxlSeverity : Nat → Fin 4

end Sys2Proof.Config
end

