-- ==== Sys2Proof/Machine/Formats.lean ====
section
/-! DEFINITION. The number formats of chapter 11: what each encoding means (R316 to R319), exact values, rounding
(R323), conversion (R327, R328), the arithmetic of R320 to R322 and the sums of R278 and R333. -/
namespace Sys2Proof.Machine

/-! ### Formats -/

/-- Layout of a floating-point format: total bits, mantissa bits, bias, largest finite encoding, whether it has
infinities, and its canonical NaN (R316, R317). -/
structure FloatFmt where
  bits : Nat
  mant : Nat
  bias : Nat
  maxFin : Nat
  inf : Bool
  nan : Option Nat
  deriving DecidableEq, Repr

/-- FP32. -/
def fp32 : FloatFmt := { bits := 32, mant := 23, bias := 127, maxFin := 0x7F7FFFFF, inf := true, nan := some 0x7FC00000 }
/-- BF16. -/
def bf16 : FloatFmt := { bits := 16, mant := 7, bias := 127, maxFin := 0x7F7F, inf := true, nan := some 0x7FC0 }
/-- FP16. -/
def fp16 : FloatFmt := { bits := 16, mant := 10, bias := 15, maxFin := 0x7BFF, inf := true, nan := some 0x7E00 }
/-- FP8 E4M3. -/
def e4m3 : FloatFmt := { bits := 8, mant := 3, bias := 7, maxFin := 0x7E, inf := false, nan := some 0x7F }
/-- FP8 E5M2. -/
def e5m2 : FloatFmt := { bits := 8, mant := 2, bias := 15, maxFin := 0x7B, inf := true, nan := some 0x7E }
/-- FP6 E3M2. -/
def e3m2 : FloatFmt := { bits := 6, mant := 2, bias := 3, maxFin := 0x1F, inf := false, nan := none }
/-- FP6 E2M3. -/
def e2m3 : FloatFmt := { bits := 6, mant := 3, bias := 1, maxFin := 0x1F, inf := false, nan := none }
/-- FP4 E2M1. -/
def e2m1 : FloatFmt := { bits := 4, mant := 1, bias := 1, maxFin := 0x7, inf := false, nan := none }

/-- What a format code stands for (R272). -/
inductive Fmt where
  | float (f : FloatFmt)
  | int (bits : Nat)
  | e8m0
  | none
  deriving DecidableEq, Repr

/-- The format of a code (R272). -/
def fmtOf (c : Nat) : Fmt :=
  match c with
  | 0 => .float fp32 | 1 => .float bf16 | 2 => .float fp16 | 3 => .float e4m3 | 4 => .float e5m2 | 5 => .float e3m2
  | 6 => .float e2m3 | 7 => .float e2m1 | 8 => .int 32 | 9 => .int 16 | 10 => .int 8 | 11 => .int 4 | 12 => .e8m0
  | _ => .none

/-- Lane bits of a format code (R272); FP6 takes a byte lane. -/
def laneBits (c : Nat) : Nat :=
  match c with
  | 0 => 32 | 1 => 16 | 2 => 16 | 3 => 8 | 4 => 8 | 5 => 8 | 6 => 8 | 7 => 4 | 8 => 32 | 9 => 16 | 10 => 8 | 11 => 4
  | 12 => 8 | _ => 32
/-- Element bits of a format code: 6 for FP6. -/
def elemBits (c : Nat) : Nat := if c = 5 ∨ c = 6 then 6 else laneBits c
/-- Lanes of a vector register (R272). -/
def laneCount (c : Nat) : Nat := 512 / laneBits c
/-- G of a format code: 16-element groups per cycle of the dot-product array (R272); 0 for a format without one. -/
def groupG (c : Nat) : Nat :=
  match c with
  | 0 => 1 | 1 => 2 | 2 => 2 | 3 => 4 | 4 => 4 | 5 => 4 | 6 => 4 | 7 => 8 | 9 => 2 | 10 => 4 | 11 => 8 | _ => 0
/-- The float formats of vector arithmetic, "F" of R273. -/
def isF (c : Nat) : Bool := decide (c ≤ 2)
/-- The integer formats of vector arithmetic, "I" of R273. -/
def isI (c : Nat) : Bool := decide (8 ≤ c) && decide (c ≤ 10)

/-! ### Values -/

/-- An exact value: NaN, an infinity, or ± m × 2^e, where a zero keeps its sign. -/
inductive Val where
  | nan
  | inf (neg : Bool)
  | fin (neg : Bool) (m : Nat) (e : Int)
  deriving DecidableEq, Repr

/-- Exponent of a format's smallest subnormal. -/
def FloatFmt.umin (f : FloatFmt) : Int := 1 - (f.bias : Int) - (f.mant : Int)

/-- The value of a float encoding (R316, R317). -/
def FloatFmt.value (f : FloatFmt) (x : Nat) : Val :=
  let neg := x / 2 ^ (f.bits - 1) % 2 == 1
  let mag := x % 2 ^ (f.bits - 1)
  let e := mag / 2 ^ f.mant
  let m := mag % 2 ^ f.mant
  if f.maxFin < mag then
    if f.inf && m = 0 then .inf neg else .nan
  else if e = 0 then .fin neg m f.umin
  else .fin neg (m + 2 ^ f.mant) (f.umin + ((e - 1 : Nat) : Int))

/-- The value of a two's-complement integer of n bits (R318). -/
def intValue (n x : Nat) : Int := if x % 2 ^ n < 2 ^ (n - 1) then ((x % 2 ^ n : Nat) : Int) else ((x % 2 ^ n : Nat) : Int) - 2 ^ n

/-- An integer as an exact value. -/
def valOfInt (i : Int) : Val := .fin (decide (i < 0)) i.natAbs 0

/-- The value of an E8M0 byte (R319). -/
def e8m0Value (x : Nat) : Val := if x % 256 = 255 then .nan else .fin false 1 (((x % 256 : Nat) : Int) - 127)

/-- The value of an encoding under a format code. -/
def valueOf (c x : Nat) : Val :=
  match fmtOf c with
  | .float f => f.value x
  | .int n => valOfInt (intValue n x)
  | .e8m0 => e8m0Value x
  | .none => .nan

/-- 2 to an integer power, times a natural, as numerator and denominator exponents: m × 2^e with e made nonnegative by
a common shift. -/
def shl (m : Nat) (e : Int) : Nat := m * 2 ^ e.toNat

/-- Signed mantissa. -/
def signed (neg : Bool) (m : Nat) : Int := if neg then -(m : Int) else (m : Int)

/-- Exact sum of two finite values (R320): an exact zero sum of operands with opposite signs is +0. -/
def addFin (n1 : Bool) (m1 : Nat) (e1 : Int) (n2 : Bool) (m2 : Nat) (e2 : Int) : Val :=
  let e := min e1 e2
  let t := signed n1 (shl m1 (e1 - e)) + signed n2 (shl m2 (e2 - e))
  if t = 0 then .fin (n1 && n2) 0 e else .fin (decide (t < 0)) t.natAbs e

/-- Exact sum (R320). -/
def Val.add : Val → Val → Val
  | .nan, _ => .nan
  | _, .nan => .nan
  | .inf a, .inf b => if a = b then .inf a else .nan
  | .inf a, .fin _ _ _ => .inf a
  | .fin _ _ _, .inf b => .inf b
  | .fin n1 m1 e1, .fin n2 m2 e2 => addFin n1 m1 e1 n2 m2 e2

/-- Negation. -/
def Val.neg : Val → Val
  | .nan => .nan
  | .inf a => .inf (!a)
  | .fin n m e => .fin (!n) m e

/-- Exact product (R320): infinity times zero is NaN. -/
def Val.mul : Val → Val → Val
  | .nan, _ => .nan
  | _, .nan => .nan
  | .inf a, .inf b => .inf (a != b)
  | .inf a, .fin b m _ => if m = 0 then .nan else .inf (a != b)
  | .fin a m _, .inf b => if m = 0 then .nan else .inf (a != b)
  | .fin a m1 e1, .fin b m2 e2 => .fin (a != b) (m1 * m2) (e1 + e2)

/-- An exact value times a power of two. -/
def Val.scale : Val → Int → Val
  | .fin n m e, k => .fin n m (e + k)
  | v, _ => v

/-- Magnitude. -/
def Val.abs : Val → Val
  | .nan => .nan
  | .inf _ => .inf false
  | .fin _ m e => .fin false m e

/-- Strictly less; false when either is NaN, and −0 is not below +0 (R321). -/
def Val.lt : Val → Val → Bool
  | .nan, _ => false
  | _, .nan => false
  | .inf a, .inf b => a && !b
  | .inf a, .fin _ _ _ => a
  | .fin _ _ _, .inf b => !b
  | .fin n1 m1 e1, .fin n2 m2 e2 =>
    let e := min e1 e2
    decide (signed n1 (shl m1 (e1 - e)) < signed n2 (shl m2 (e2 - e)))

/-- A value is a zero. -/
def Val.isZero : Val → Bool
  | .fin _ 0 _ => true
  | _ => false
/-- A value is negative, −0 included. -/
def Val.isNeg : Val → Bool
  | .fin n _ _ => n
  | .inf n => n
  | .nan => false
/-- A value is NaN. -/
def Val.isNan : Val → Bool
  | .nan => true
  | _ => false
/-- A value is an infinity. -/
def Val.isInf : Val → Bool
  | .inf _ => true
  | _ => false

/-- At or below in the order of VMIN and VMAX, in which −0 is below +0 (R321). -/
def Val.before (a b : Val) : Bool := a.lt b || (a.isZero && b.isZero && a.isNeg && !b.isNeg)

/-- Exponent of the leading bit of m × 2^e for m ≠ 0: floor(log2) of the value. -/
def floorLog2 (m : Nat) (e : Int) : Int := (m.log2 : Int) + e

/-! ### Rounding (R323) -/

/-- Rounding modes of R323; stochastic carries its 16-bit draw. -/
inductive Rounding where
  | nearest
  | zero
  | stochastic (draw : Nat)
  deriving DecidableEq, Repr

/-- Rounds m × 2^e to a multiple of 2^u, giving the multiple (R323). -/
def roundAt (r : Rounding) (m : Nat) (e u : Int) : Nat :=
  if u ≤ e then m * 2 ^ (e - u).toNat
  else
    let d := 2 ^ (u - e).toNat
    let q := m / d
    let rem := m % d
    match r with
    | .zero => q
    | .nearest => if d < 2 * rem || (2 * rem == d && q % 2 == 1) then q + 1 else q
    | .stochastic x => if 65536 ≤ rem * 65536 / d + x then q + 1 else q

/-- The magnitude's encoding, as though the exponent range were unbounded above (R323). -/
def FloatFmt.roundMag (f : FloatFmt) (r : Rounding) (m : Nat) (e : Int) : Nat :=
  if m = 0 then 0 else
  let u := max (floorLog2 m e - (f.mant : Int)) f.umin
  (u - f.umin).toNat * 2 ^ f.mant + roundAt r m e u

/-- Puts a sign on a magnitude. -/
def FloatFmt.withSign (f : FloatFmt) (neg : Bool) (mag : Nat) : Nat := if neg then mag + 2 ^ (f.bits - 1) else mag

/-- The encoding of an infinity of a format that has them. -/
def FloatFmt.infMag (f : FloatFmt) : Nat := f.maxFin + 1

/-- An arithmetic result (R320): a NaN is canonical, and overflow gives infinity, or the largest finite under round
toward zero. -/
def FloatFmt.arith (f : FloatFmt) (r : Rounding) : Val → Nat
  | .nan => f.nan.getD 0
  | .inf n => f.withSign n f.infMag
  | .fin n m e =>
    let mag := f.roundMag r m e
    if mag ≤ f.maxFin then f.withSign n mag
    else if r = .zero then f.withSign n f.maxFin else f.withSign n f.infMag

/-- A conversion to a float format with whether it overflows (R327). -/
def FloatFmt.convert (f : FloatFmt) (r : Rounding) : Val → Nat × Bool
  | .nan => match f.nan with
    | some x => (x, false)
    | none => (0, true)
  | .inf n => if f.inf then (f.withSign n f.infMag, false) else (f.withSign n f.maxFin, true)
  | .fin n m e =>
    let mag := f.roundMag r m e
    if mag ≤ f.maxFin then (f.withSign n mag, false) else (f.withSign n f.maxFin, true)

/-- Lowest value of an integer of n bits. -/
def intMin (n : Nat) : Int := -(2 ^ (n - 1) : Int)
/-- Highest value of an integer of n bits. -/
def intMax (n : Nat) : Int := (2 ^ (n - 1) : Int) - 1
/-- The encoding of an integer, wrapping. -/
def intEnc (n : Nat) (i : Int) : Nat := (i % (2 ^ n : Int)).toNat

/-- A conversion to an integer with whether it overflows (R327, R328). -/
def convertInt (n : Nat) (r : Rounding) : Val → Nat × Bool
  | .nan => (0, true)
  | .inf neg => (intEnc n (if neg then intMin n else intMax n), true)
  | .fin neg m e =>
    let i := signed neg (roundAt r m e 0)
    if i < intMin n then (intEnc n (intMin n), true)
    else if intMax n < i then (intEnc n (intMax n), true)
    else (intEnc n i, false)

/-- A conversion to E8M0 with whether it overflows (R328). -/
def convertE8m0 : Val → Nat × Bool
  | .nan => (0xFF, false)
  | .inf _ => (0xFE, true)
  | .fin _ m e =>
    if m = 0 then (0, false)
    else
      let x := floorLog2 m e + 127
      if x < 0 then (0, false) else (min x.toNat 0xFE, false)

/-- A conversion to a format code with whether it overflows (R327, R328). -/
def convertTo (c : Nat) (r : Rounding) (v : Val) : Nat × Bool :=
  match fmtOf c with
  | .float f => f.convert r v
  | .int n => convertInt n r v
  | .e8m0 => convertE8m0 v
  | .none => (0, false)

/-! ### The generator of R324 -/

/-- State of the generator at a run's first instruction (R324). -/
def rngSeed (seed : U32) (run : Nat) : U64 :=
  let s : U64 := ((seed.setWidth 64 <<< 32) ||| BitVec.ofNat 64 (run % 2 ^ 32)) ^^^ 0x9e3779b97f4a7c15
  if s = 0 then 0x9e3779b97f4a7c15 else s

/-- One draw: the 16-bit value and the generator's next state (R324). -/
def rngDraw (s : U64) : Nat × U64 :=
  let s := s ^^^ (s <<< 13)
  let s := s ^^^ (s >>> 7)
  let s := s ^^^ (s <<< 17)
  ((s >>> 48).toNat, s)

/-- The rounding of one result element under a mode code of R73 or R274, and the generator after it: the stochastic
mode takes one draw for every element (R325). -/
def takeRound (mode : Nat) (g : U64) : Rounding × U64 :=
  if mode = 0 then (.nearest, g)
  else if mode = 1 then (.zero, g)
  else let d := rngDraw g; (.stochastic d.1, d.2)

/-- The mode code that an IMM field of R274 selects: 0 takes the stroke's, 1 nearest-even, 2 toward zero, 3
stochastic. -/
def immMode (field stroke : Nat) : Nat := if field = 0 then stroke else field - 1

/-- Maps a rounded operation over elements in ascending order, with its draws (R325). -/
def mapRound {α β : Type} (mode : Nat) (f : Rounding → α → β) : List α → U64 → List β × U64
  | [], g => ([], g)
  | a :: l, g =>
    let r := takeRound mode g
    let rest := mapRound mode f l r.2
    (f r.1 a :: rest.1, rest.2)

/-! ### exp2, reciprocal, reciprocal square root (R322) -/

/-- Newton's steps toward the integer square root from above. -/
def isqrtFrom : Nat → Nat → Nat → Nat
  | 0, _, x => x
  | k + 1, n, x =>
    let y := (x + n / x) / 2
    if y < x then isqrtFrom k n y else x

/-- Integer square root. -/
def isqrt (n : Nat) : Nat := if n = 0 then 0 else isqrtFrom 600 n (2 ^ (n.log2 / 2 + 1))

/-- Fraction bits of the working precision. -/
def wp : Nat := 192

/-- 2^(F / 2^wp) × 2^wp, rounded down, by the bits of F from the highest: `root` is 2^(1 / 2^i) × 2^wp. -/
def exp2Frac : Nat → Nat → Nat → Nat → Nat
  | 0, _, _, acc => acc
  | k + 1, frac, root, acc =>
    let root := isqrt (root * 2 ^ wp)
    let acc := if frac / 2 ^ k % 2 = 1 then acc * root / 2 ^ wp else acc
    exp2Frac k frac root acc

/-- A positive value with a sticky bit below it: m × 2^e, and whether it is exact. -/
structure Approx where
  m : Nat
  e : Int
  exact : Bool

/-- 2 to a finite value, rounded down with a sticky bit. The value lies below 2^10 in magnitude. -/
def exp2Approx (n : Bool) (m : Nat) (e : Int) : Approx :=
  let t : Int := signed n (if 0 ≤ e + wp then m * 2 ^ (e + wp).toNat else m / 2 ^ (-(e + wp)).toNat)
  let low : Bool := e + (wp : Int) < 0 && m % 2 ^ (-(e + wp)).toNat != 0
  let q := t / (2 ^ wp : Int)
  let f := (t % (2 ^ wp : Int)).toNat
  let r := exp2Frac wp f (2 ^ (wp + 1)) (2 ^ wp)
  { m := 2 * r + (if f = 0 && !low then 0 else 1), e := q - wp - 1, exact := f = 0 && !low }

/-- The reciprocal of m × 2^e, rounded down with a sticky bit. -/
def rcpApprox (m : Nat) (e : Int) : Approx :=
  let k := m.log2 + 64
  let q := 2 ^ k / m
  let ex := q * m == 2 ^ k
  { m := 2 * q + (if ex then 0 else 1), e := -e - k - 1, exact := ex }

/-- The reciprocal square root of m × 2^e, rounded down with a sticky bit. -/
def rsqApprox (m : Nat) (e : Int) : Approx :=
  let odd : Bool := e % 2 != 0
  let m := if odd then 2 * m else m
  let e := if odd then e - 1 else e
  let k := m.log2 + 64
  let q := isqrt (2 ^ (2 * k) / m)
  let ex := q * q * m == 2 ^ (2 * k)
  { m := 2 * q + (if ex then 0 else 1), e := -(e / 2) - k - 1, exact := ex }

/-- A result of R322: correctly rounded to nearest-even in BF16 and FP16; in FP32 a value within 1 unit in the last
place, chosen by the free value `Config.ulpPick`. -/
def FloatFmt.special (f : FloatFmt) (op x : Nat) (neg : Bool) (a : Approx) : Nat :=
  let near := f.roundMag .nearest a.m a.e
  if f ≠ fp32 then f.withSign neg (if near ≤ f.maxFin then near else f.infMag)
  else if f.maxFin < near then f.withSign neg f.infMag
  else
    let down := f.roundMag .zero a.m a.e
    let u := max (floorLog2 a.m a.e - (f.mant : Int)) f.umin
    let inexact := !a.exact || (decide (a.e < u) && a.m % 2 ^ (u - a.e).toNat != 0)
    let k := (Config.ulpPick op (BitVec.ofNat 32 x)).val
    let mag := if inexact then (if k = 0 then down else down + 1)
      else if k = 0 then down else if k = 1 then down + 1 else down - 1
    f.withSign neg (min mag f.maxFin)

/-- VEXP2 on one lane (R322). -/
def FloatFmt.exp2 (f : FloatFmt) (x : Nat) : Nat :=
  match f.value x with
  | .nan => f.nan.getD 0
  | .inf true => 0
  | .inf false => f.infMag
  | .fin n m e =>
    if m = 0 then f.bias * 2 ^ f.mant
    else if !Val.lt (.fin n m e) (.fin false 128 0) then f.infMag
    else if Val.lt (.fin n m e) (.fin true 150 0) then 0
    else f.special 0 x false (exp2Approx n m e)

/-- VRCP on one lane (R322). -/
def FloatFmt.rcp (f : FloatFmt) (x : Nat) : Nat :=
  match f.value x with
  | .nan => f.nan.getD 0
  | .inf n => f.withSign n 0
  | .fin n m e => if m = 0 then f.withSign n f.infMag else f.special 1 x n (rcpApprox m e)

/-- VRSQ on one lane (R322). -/
def FloatFmt.rsq (f : FloatFmt) (x : Nat) : Nat :=
  match f.value x with
  | .nan => f.nan.getD 0
  | .inf true => f.nan.getD 0
  | .inf false => 0
  | .fin n m e =>
    if m = 0 then f.withSign n f.infMag
    else if n then f.nan.getD 0
    else f.special 2 x false (rsqApprox m e)

/-! ### FP32 arithmetic with nearest-even rounding, and sums (R278, R321, R333, R334) -/

/-- FP32 sum, nearest-even. -/
def f32add (a b : Nat) : Nat := fp32.arith .nearest ((fp32.value a).add (fp32.value b))
/-- FP32 product, nearest-even. -/
def f32mul (a b : Nat) : Nat := fp32.arith .nearest ((fp32.value a).mul (fp32.value b))
/-- A product of two exact values, rounded once to FP32 (R334). -/
def f32prod (a b : Val) : Nat := fp32.arith .nearest (a.mul b)

/-- Removes the element at an index. -/
def takeAt {α : Type} : List α → Nat → Option (α × List α)
  | [], _ => none
  | a :: l, 0 => some (a, l)
  | a :: l, i + 1 => (takeAt l i).map (fun x => (x.1, a :: x.2))

/-- Adds FP32 terms in the fixed order of a key, which the spec does not state: each step adds the pair that the free
value `Config.sumPick` names (R273, R278). -/
def f32sumFrom (key : Nat) : Nat → Nat → List Nat → Nat
  | 0, _, l => l.headD 0
  | k + 1, step, l =>
    match l with
    | [] => 0
    | [a] => a
    | _ =>
      let p := Config.sumPick key step
      match takeAt l (p.1 % l.length) with
      | none => l.headD 0
      | some (a, rest) => match takeAt rest (p.2 % rest.length) with
        | none => l.headD 0
        | some (b, rest) => f32sumFrom key k (step + 1) (f32add a b :: rest)

/-- The sum of FP32 terms; +0 of none. -/
def f32sum (key : Nat) (l : List Nat) : Nat := f32sumFrom key l.length 0 l

/-- VMIN on exact values with their encodings (R321): the lower, the other where one is NaN. -/
def pickMin (nan : Nat) (a b : Nat × Val) : Nat :=
  match a.2.isNan, b.2.isNan with
  | true, true => nan
  | true, false => b.1
  | false, true => a.1
  | false, false => if b.2.before a.2 then b.1 else a.1

/-- VMAX on exact values with their encodings (R321). -/
def pickMax (nan : Nat) (a b : Nat × Val) : Nat :=
  match a.2.isNan, b.2.isNan with
  | true, true => nan
  | true, false => b.1
  | false, true => a.1
  | false, false => if a.2.before b.2 then b.1 else a.1

/-! ### Lanes and packed storage (R272) -/

/-- The lanes of a vector register, lane 0 first. -/
def lanes (c : Nat) (v : V512) : List Nat :=
  (List.range (laneCount c)).map (fun i => (v.toNat / 2 ^ (laneBits c * i)) % 2 ^ laneBits c)

/-- The elements of a vector register: the bits of each lane that its format uses. -/
def elems (c : Nat) (v : V512) : List Nat := (lanes c v).map (· % 2 ^ elemBits c)

/-- Packs numbers of b bits, the first lowest. -/
def packBits (b : Nat) : List Nat → Nat
  | [] => 0
  | x :: l => x % 2 ^ b + 2 ^ b * packBits b l

/-- A vector register of lanes. -/
def ofLanes (c : Nat) (l : List Nat) : V512 := BitVec.ofNat 512 (packBits (laneBits c) l)

/-- n elements of b bits from a number. -/
def unpackBits (b : Nat) : Nat → Nat → List Nat
  | 0, _ => []
  | n + 1, x => x % 2 ^ b :: unpackBits b n (x / 2 ^ b)

end Sys2Proof.Machine
end

