-- ==== Sys2Proof/Machine/Flags.lean ====
section
/-! DEFINITION. Status flags with their event counts (R9), counters that wrap and chain (R533, R537), and the events
that programmable counters select (R539 to R542). -/
namespace Sys2Proof.Machine

/-! ### Flags -/

/-- Sets a host interrupt flag and counts the setting; the flag's vector leaves when it is enabled (R9, R453). -/
def State.setInt (s : State) (i : Nat) : State :=
  if !s.host.up then s else
  let s := s.onHost (fun h => { h with
    intStatus := h.intStatus ||| (1 <<< i)
    intCount := h.intCount.mod 0 i sat8 })
  if s.host.intEnable.getLsbD i then s.emit (.vector i) else s

/-- Interrupt flag numbers (R453). -/
def flagCtrlRes : Nat := 0
/-- EVENT (R453). -/
def flagEvent : Nat := 1
/-- MBX_RX (R453). -/
def flagMbxRx : Nat := 2
/-- MBX_EMPTY (R453). -/
def flagMbxEmpty : Nat := 3
/-- TELEM_DONE (R453). -/
def flagTelemDone : Nat := 4
/-- ATTEST_DONE (R453). -/
def flagAttestDone : Nat := 5
/-- FW_NAK (R453). -/
def flagFwNak : Nat := 6
/-- RIM_DOWN (R453). -/
def flagRimDown : Nat := 7
/-- RIM_UP (R453). -/
def flagRimUp : Nat := 8
/-- RIM_DROP (R453). -/
def flagRimDrop : Nat := 9
/-- HOST_ACCESS_REFUSED (R453). -/
def flagRefused : Nat := 10
/-- RIM_WIDTH (R453). -/
def flagRimWidth : Nat := 11

/-- Clears the flags whose bits are written 1; a flag set in the same cycle stays 1 and counts its setting (R9). -/
def clearFlags (old written set : U64) : U64 := (old &&& ~~~written) ||| set

/-- Sets a condition of the power record and counts the setting (R9, R517). -/
def PowerSt.setCond (x : PowerSt) (i : Nat) : PowerSt :=
  { x with cond := x.cond ||| (1 <<< i), counts := x.counts.mod 0 i sat8 }

/-- Clears a condition of the power record (R517). -/
def PowerSt.clearCond (x : PowerSt) (i : Nat) : PowerSt := { x with cond := x.cond &&& ~~~((1 : BitVec 8) <<< i) }

/-! ### Counters -/

/-- Adds n to counter k of a table in which counter k of a chained pair carries into k + 1 (R533, R537). -/
def bumpChain (chained : Nat → Bool) (m : SMap Nat) (k n : Nat) : SMap Nat :=
  let v := m.look 0 k + n
  let m := m.put 0 k (v % 2 ^ 48)
  if chained k && decide (2 ^ 48 ≤ v) then m.bump (k + 1) (v / 2 ^ 48) else m

/-- Low counters of the chains of a partition: 28, 30, 32, and those its CHAIN bits name (R537). -/
def Partition.chained (x : Partition) (k : Nat) : Bool :=
  k == 28 || k == 30 || k == 32 || (decide (48 ≤ k) && (x.sel.look 0 k - 1) / 4096 % 2 == 1 && x.sel.look 0 k != 0)

/-- Adds n to partition counter k (R535). -/
def State.countOf (s : State) (p k n : Nat) : State :=
  s.onPart p (fun x => { x with counters := bumpChain x.chained x.counters k n })

/-- An event of R539: every counter of the partition that selects its code, as an edge or a level count, adds n. -/
def State.ownerEvent (s : State) (p code : Nat) (level : Bool) (n : Nat) : State :=
  if n = 0 then s else
  s.onPart p (fun x => { x with counters := x.sel.foldl (fun m e =>
    let c := e.2 - 1
    if c % 2048 = code && (c / 2048 % 2 == 1) == level then bumpChain x.chained m e.1 n else m) x.counters })

/-- What an operator event carries for the filters of R540. -/
structure OpEvt where
  priv : Option Nat := none
  source : Option Nat := none
  cls : Option Nat := none
  pa : Option Nat := none
  part : Option Nat := none

/-- Whether an event passes a selection's filters (R540), and R542 lets it count: a partition filter or an address
range that does not cover a half's allocatable range counts only partitions with PROF_CONSENT. -/
def State.opPasses (s : State) (w3 w4 w5 : Nat) (e : OpEvt) : Bool :=
  let privMask := w3 % 16
  let srcMask := w3 / 16 % 1024
  let clsMask := w3 / 2 ^ 14 % 16
  let part := w3 / 2 ^ 18 % 64
  let partEn := w3 / 2 ^ 24 % 2 == 1
  let addrEn := w3 / 2 ^ 25 % 2 == 1
  let inMask := fun (m : Nat) (x : Option Nat) => m == 0 || x.all (fun k => (m / 2 ^ k) % 2 == 1)
  let whole := (w4 == 0 && decide (0x00B7FFFFFFFF ≤ w5)) ||
    (decide (w4 ≤ 0x00C000000000) && decide (0x0177FFFFFFFF ≤ w5))
  let consent := e.part.any (fun p => (s.part p).prof)
  inMask privMask e.priv && inMask srcMask e.source && inMask clsMask e.cls &&
  (!partEn || (e.part == some part && consent)) &&
  (!addrEn || (e.pa.any (fun a => decide (w4 ≤ a) && decide (a ≤ w5)) && (whole || consent)))

/-- An event of R541: every programmable operator counter that selects its code and whose filters it passes adds n. -/
def State.opEvent (s : State) (code : Nat) (e : OpEvt) (n : Nat := 1) : State :=
  if n = 0 then s else
  let chained := fun k => (s.cnt.sel.look (0, false, 0, 0, 0) k).2.1
  let hit := fun (x : Nat × Nat × Bool × Nat × Nat × Nat) =>
    x.2.1 == code + 1 && s.opPasses x.2.2.2.1 x.2.2.2.2.1 x.2.2.2.2.2 e
  let prog := s.cnt.sel.foldl (fun m x => if hit x then bumpChain chained m x.1 n else m) s.cnt.prog
  s.onCnt (fun c => { c with prog := prog })

/-- Lines read at the homes for a partition (R535, R541). -/
def State.countRead (s : State) (p pa lines source priv : Nat) : State :=
  (s.countOf p 30 (64 * lines)).opEvent 0x100 { priv := some priv, source := some source, pa := some pa, part := some p }
    lines

/-- Lines written at the homes for a partition (R535, R541). -/
def State.countWrite (s : State) (p pa lines source priv : Nat) : State :=
  (s.countOf p 32 (64 * lines)).opEvent 0x101 { priv := some priv, source := some source, pa := some pa, part := some p }
    lines

end Sys2Proof.Machine
end

