-- ==== Sys2Proof/Machine/LineCode.lean ====
section
/-! DEFINITION. The line code of R179 to R181: 64 data symbols, the stack address of the line, and 8 check symbols of a
Reed-Solomon code over GF(2⁸); and the poison mark in the check symbols (R188). -/
namespace Sys2Proof.Machine

/-! ### The field (R179) -/

/-- α times an element: the polynomial is x⁸ + x⁴ + x³ + x² + 1. -/
def alphaTimes (a : Byte) : Byte := (a <<< 1) ^^^ (if a.msb then 0x1D else 0)

/-- The product of two elements. -/
def gfMul (a b : Byte) : Byte :=
  (List.range 8).foldr (fun i acc => alphaTimes acc ^^^ (if b.getLsbD i then a else 0)) 0

/-- αⁿ. -/
def alpha (n : Nat) : Byte := (List.range (n % 255)).foldl (fun a _ => alphaTimes a) 1

/-- The inverse of an element: its power of 254. -/
def gfInv (a : Byte) : Byte :=
  let b := (List.range 7).foldl (fun acc _ => gfMul (gfMul acc acc) a) 1
  gfMul b b

/-- The value of a polynomial, highest coefficient first. -/
def polyAt (cs : List Byte) (x : Byte) : Byte := cs.foldl (fun acc c => gfMul acc x ^^^ c) 0

/-! ### Symbols of a line (R179, R180) -/

/-- The data symbols of a line: symbol i is what data pin i carries over the 8 beats of 8 bytes. DESIGN CHOICE: pin i of a
beat carries bit i mod 8 of the beat's byte i / 8. -/
def lineSymbols (bs : List Byte) : List Byte :=
  (List.range 64).map (fun i => (List.range 8).foldl (fun (w : Byte) b =>
    if (bs.getD (8 * b + i / 8) 0).getLsbD (i % 8) then w ||| (1 <<< b) else w) 0)

/-- The bytes of a line from its data symbols. -/
def symbolBytes (ss : List Byte) : List Byte :=
  (List.range 64).map (fun k => (List.range 8).foldl (fun (w : Byte) j =>
    if (ss.getD (8 * (k % 8) + j) 0).getLsbD (k / 8) then w ||| (1 <<< j) else w) 0)

/-- The symbols of a line's stack address, which take part in the code and are not stored: slot number and line index. -/
def addressSymbols (slot line : Nat) : List Byte := (toBytes 4 (slot * 4 + line % 4)).reverse

/-- Coefficients of the generator below its highest, roots α⁰ to α⁷, highest first. -/
def generator : List Byte :=
  ((List.range 8).foldl (fun (g : List Byte) i =>
    List.zipWith (· ^^^ ·) (g ++ [0]) (0 :: g.map (gfMul (alpha i)))) [1]).tail

/-- The check symbols over some symbols: the remainder of the division by the generator. -/
def checkOf (ss : List Byte) : List Byte :=
  ss.foldl (fun (r : List Byte) s =>
    let f := s ^^^ r.headD 0
    List.zipWith (· ^^^ ·) (r.tail ++ [0]) (generator.map (gfMul f))) (List.replicate 8 0)

/-- The check symbols of a line at its stack address (R179, R180). -/
def lineCheck (slot line : Nat) (bs : List Byte) : List Byte := checkOf (addressSymbols slot line ++ lineSymbols bs)

/-- The eight syndrome symbols of 72 symbols that a read of an address returned. -/
def syndromes (slot line : Nat) (ss : List Byte) : List Byte :=
  (List.range 8).map (fun k => polyAt (addressSymbols slot line ++ ss) (alpha k))

/-! ### Decoding (R181) -/

/-- The work of the search for the shortest error locator: the locator and the one before it, lowest coefficient first,
the errors it names, the shift since the last change, and the last discrepancy. -/
structure Locate where
  /-- The locator. -/
  c : List Byte := [1]
  /-- The locator before its last change of length. -/
  b : List Byte := [1]
  /-- Errors that the locator names. -/
  len : Nat := 0
  /-- Steps since that change. -/
  gap : Nat := 1
  /-- The discrepancy at that change. -/
  last : Byte := 1
  deriving DecidableEq, Repr

/-- The sum of two polynomials, lowest coefficient first. -/
def polyAdd (a b : List Byte) : List Byte :=
  (List.range (max a.length b.length)).map (fun i => a.getD i 0 ^^^ b.getD i 0)

/-- One syndrome more is taken into the locator. -/
def Locate.take (x : Locate) (syn : List Byte) (n : Nat) : Locate :=
  let d := (List.range (x.len + 1)).foldl (fun t i => t ^^^ gfMul (x.c.getD i 0) (syn.getD (n - i) 0)) 0
  if d = 0 then { x with gap := x.gap + 1 } else
  let c := polyAdd x.c (List.replicate x.gap 0 ++ x.b.map (gfMul (gfMul d (gfInv x.last))))
  if 2 * x.len ≤ n then { c := c, b := x.c, len := n + 1 - x.len, gap := 1, last := d }
  else { x with c := c, gap := x.gap + 1 }

/-- The error of each symbol of a codeword of n symbols that the syndromes name, by power of x; none when they name more
than `most` symbols, or none that are in the codeword. -/
def findErrors (most n : Nat) (syn : List Byte) : Option (List (Nat × Byte)) :=
  let x := (List.range 8).foldl (fun (x : Locate) i => x.take syn i) {}
  let at_ := fun (p : Nat) => polyAt x.c.reverse (alpha (255 - p % 255))
  let ps := (List.range n).filter (fun p => at_ p == 0)
  if most < x.len || ps.length ≠ x.len then none else
  let omega := (List.range 8).map (fun k =>
    (List.range (k + 1)).foldl (fun t i => t ^^^ gfMul (x.c.getD i 0) (syn.getD (k - i) 0)) 0)
  let slope := (List.range x.c.length).map (fun i => if i % 2 = 0 then x.c.getD (i + 1) 0 else 0)
  some (ps.map (fun p =>
    let y := alpha (255 - p % 255)
    (p, gfMul (alpha p) (gfMul (polyAt omega.reverse y) (gfInv (polyAt slope.reverse y))))))

/-- The symbols with the errors of at most `most` symbols taken out; none when there are more, or when one would lie in
the address (R180, R181). -/
def correct (most slot line : Nat) (ss : List Byte) : Option (Nat × List Byte) :=
  match findErrors most 72 (syndromes slot line ss) with
  | none => none
  | some es =>
    let out := ss.zipIdx.map (fun s => s.1 ^^^ ((es.lookup (71 - s.2)).getD 0))
    if (syndromes slot line out).all (· == 0) then some (es.length, out) else none

/-! ### The poison mark (R188) -/

/-- The symbols of a line of zeros at slot 0 and line 0, which are all 0, with a pattern in the check symbols. -/
def zeroLineWith (p : List Byte) : List Byte := List.replicate 64 0 ++ p

/-- What R188 and R181 ask of the pattern: eight symbols, at least five symbols in error from every line, so that no error of
3 or fewer symbols makes a line a mark or a mark with one further symbol in error a correctable line; and a line that comes
from an address one bit away is not taken for a mark. -/
def markOk (p : List Byte) : Bool :=
  decide (p.length = 8) && (correct 4 0 0 (zeroLineWith p)).isNone &&
  (List.range 8).all (fun k =>
    (correct 1 0 0 (zeroLineWith (xorBytes (lineCheck (2 ^ k / 4) (2 ^ k) (List.replicate 64 0)) p))).isNone)

/-- The pattern of the poison mark: the fixed one, which the spec does not give, as far as it meets R188. -/
def poisonMark : List Byte := if markOk Config.poisonPattern then Config.poisonPattern else toBytes 8 0x0807060504030201

/-- The 72 symbols of a line as the stack stores them, the check symbols poison-marked or not (R179, R188). -/
def storedSymbols (slot line : Nat) (bs : List Byte) (marked : Bool) : List Byte :=
  let c := lineCheck slot line bs
  lineSymbols bs ++ (if marked then xorBytes c poisonMark else c)

/-! ### The decoder (R181, R188) -/

/-- What the decoder finds in a line (R181, R188). -/
inductive LineOut where
  /-- No symbol in error. -/
  | clean
  /-- Symbols corrected. -/
  | ce (symbols : Nat)
  /-- A poison mark. -/
  | mark
  /-- Uncorrectable. -/
  | ue
  deriving DecidableEq, Repr

/-- The decoder: the outcome and the data it delivers, for 72 symbols returned to a read of a stack address. It corrects up
to 3 symbols; the poison mark is recognised with one further symbol in error (R181, R188). -/
def decodeLine (slot line : Nat) (ss : List Byte) : LineOut × List Byte :=
  match correct 3 slot line ss with
  | some (0, out) => (.clean, symbolBytes out)
  | some (n, out) => (.ce n, symbolBytes out)
  | none =>
    match correct 1 slot line (ss.take 64 ++ xorBytes (ss.drop 64) poisonMark) with
    | some (_, out) => (.mark, symbolBytes out)
    | none => (.ue, List.replicate 64 0)

/-- Symbols with an error pattern put in. -/
def disturb (ss : List Byte) (err : List (Fin 72 × Byte)) : List Byte :=
  ss.zipIdx.map (fun s => err.foldl (fun v e => if e.1.val = s.2 then v ^^^ e.2 else v) s.1)

end Sys2Proof.Machine
end

