-- ==== Sys2Proof/Machine/Send.lean ====
section
/-! DEFINITION. How packets leave the device: the choice of a link (R395, R396), the link's replay buffer and credits
(R374, R392), the egress shaper (R424 to R426), and replies with the flow's counts and reply cache (R407 to R409,
R416). -/
namespace Sys2Proof.Machine

/-- The link carries data: UP or PAUSED (R369). -/
def Link.carries (x : Link) : Bool := x.st == .up || x.st == .paused

/-- The link has finished training and is not down (R44, R369). -/
def Link.trainedUp (x : Link) : Bool := x.st == .up || x.st == .paused || x.st == .probation

/-- Credits on a virtual channel of a link (R392). -/
def Link.credit (x : Link) (vc : Nat) : Nat := x.credits.look 0 vc

/-- A route table entry (R395). -/
def State.routeOf (s : State) (ep : Nat) : Route := s.net.routes.look {} (ep % 2 ^ 20)

/-- A link is down from this S48: a link to an agent, or one the orientation names (R397). -/
def State.isDown (s : State) (l : Nat) : Bool := (s.link l).peerClass == 1 || s.net.down.getLsbD l

/-- Bytes that a replay buffer holds (R367, R374). -/
def Link.replayBytes (x : Link) : Nat := x.replay.foldl (fun n e => n + 64 * (e.2.1.units + 1)) 0

/-- A link can take a packet of some units on a virtual channel: it is UP, has the credits, and its replay buffer has
room (R374, R392). -/
def Link.takes (x : Link) (vc units : Nat) : Bool :=
  x.st == .up && decide (units ≤ x.credit vc) && decide (x.replay.length < 4096) &&
    decide (x.replayBytes + 64 * units ≤ 262144)

/-- The link and channel that a packet takes (R396), with the packet's ESC and ESC_DOWN as it leaves; none while no link
qualifies. -/
def State.chooseLink (s : State) (p : Packet) : Option (Nat × Packet) :=
  let r := s.routeOf p.dstEp
  let units := p.units + 1
  let fits := fun (l vc : Nat) => (s.link l).takes vc units
  let ls := (List.range 48).filter (fun l => r.min.getLsbD l && fits l (2 * p.cls))
  let best := ls.foldl (fun (b : Option Nat) l => match b with
    | none => some l
    | some k => if (s.link k).credit (2 * p.cls) < (s.link l).credit (2 * p.cls) then some l else b) none
  match (if p.esc then none else best) with
  | some l => some (l, p)
  | none =>
    match (if p.escDown then r.escD else r.escU) with
    | some l => if fits l (2 * p.cls + 1) then some (l, { p with esc := true, escDown := p.escDown || s.isDown l })
      else none
    | none => none

/-- The packet has nowhere to go (R395). -/
def State.noRoute (s : State) (p : Packet) : Bool :=
  let r := s.routeOf p.dstEp
  !r.isLocal && r.min = 0 && r.escU.isNone && r.escD.isNone

/-- Sends a packet on a link: it takes credits and the next SEQ, and stays in the replay buffer (R373, R374, R392). -/
def State.linkSend (s : State) (l : Nat) (p : Packet) : State :=
  let x := s.link l
  let vc := 2 * p.cls + b2n p.esc
  let s := s.onLink l (fun x => { x with
    credits := x.credits.put 0 vc (x.credit vc - (p.units + 1))
    nextSeq := (x.nextSeq + 1) % 65536
    replay := x.replay ++ [(x.nextSeq, p, 1)] })
  let s := s.opEvent 0x109 { cls := some p.cls, part := some p.part }
  s.emit (.packet l x.nextSeq p)

/-- The output links of a multicast packet at this router: those of its tree entry (R405, R406). -/
def State.mcOuts (s : State) (p : Packet) : List Nat :=
  match s.net.mc.find? (fun e => e.1 = p.srcEp && e.2.1 = p.word2 % 4096) with
  | some e => e.2.2.1.map (·.val)
  | none => []

/-- Copies a multicast packet, on escape channels, to each output that has credits; answers the outputs that must still
take it (R406). -/
def State.mcSend (s : State) (p : Packet) (outs : List Nat) : List Nat × State :=
  outs.foldl (fun r l =>
    if (r.2.link l).takes (2 * p.cls + 1) (p.units + 1) then
      (r.1, r.2.linkSend l { p with esc := true, escDown := p.escDown || r.2.isDown l })
    else (r.1 ++ [l], r.2)) ([], s)

/-- Sends a packet of the device's own, or holds it until a link qualifies; one with no route is discarded (R395,
R406). -/
def State.launch (s : State) (p : Packet) : State :=
  if p.mcast then
    let outs := s.mcOuts p
    if outs.isEmpty then s.countNet 6 else
    let r := s.mcSend p outs
    if r.1.isEmpty then r.2 else r.2.onNet (fun n => { n with egress := n.egress ++ [(p, r.1)] })
  else if s.noRoute p then s.countNet 6 else
  match s.chooseLink p with
  | some (l, p) => s.linkSend l p
  | none => s.onNet (fun n => { n with egress := n.egress ++ [(p, [])] })

/-- Tries again to send the device's own packets that wait for a link. -/
def State.retryEgress (s : State) : State :=
  let ps := s.net.egress
  (s.onNet (fun n => { n with egress := [] })).each ps (fun s x =>
    if !x.2.isEmpty then
      let r := s.mcSend x.1 x.2
      if r.1.isEmpty then r.2 else r.2.onNet (fun n => { n with egress := n.egress ++ [(x.1, r.1)] })
    else s.launch x.1)

/-- Sends a packet under KEY_ID 0xF with the next packet counter towards its destination (R469, R474, R477). -/
def State.launchFab (s : State) (p : Packet) : State :=
  let c := s.net.fabCtr.look 0 p.dstEp
  (s.onNet (fun n => { n with fabCtr := n.fabCtr.put 0 p.dstEp ((c + 1) % 2 ^ 32) })).launch
    { p with keyId := 15, srcEp := s.rnd.endpoint, pktCtr := c }

/-! ### The shaper -/

/-- Shaper of a partition on a link die. -/
def State.shaper (s : State) (p ld : Nat) : Shaper := (s.part p).shapers.look {} ld
/-- Changes a shaper. -/
def State.onShaper (s : State) (p ld : Nat) (f : Shaper → Shaper) : State :=
  s.onPart p (fun x => { x with shapers := x.shapers.mod {} ld f })

/-- Shaped length of a packet (R424). -/
def Shaper.len (x : Shaper) (p : Packet) : Nat := 48 + 64 * p.units + x.overhead

/-- The generation under which the device sends to an endpoint: the newest that the endpoint has used, while that is
accepted (R475). -/
def Partition.sendGen (x : Partition) (ep : Nat) : Nat :=
  let g := x.gen.getD 0
  match x.genUsed.look 0 ep with
  | 0 => g
  | n + 1 => if x.prevGen && n + 1 = g then n else g

/-- Stamps a packet with a key generation of the partition and the next packet counter under that key towards the
destination (R385, R474, R475). -/
def State.stamp (s : State) (p : Nat) (pkt : Packet) : Packet × State :=
  let x := s.part p
  let g := x.sendGen pkt.dstEp
  let k := g * 2 ^ 24 + pkt.dstEp
  let c := x.pktCtr.look 0 k
  ({ pkt with pktCtr := c, keyId := g % 15 },
   s.onPart p (fun x => { x with
     pktCtr := x.pktCtr.put 0 k ((c + 1) % 2 ^ 32)
     ctrHigh := x.ctrHigh || (g == x.gen.getD 0 && decide (2 ^ 31 ≤ c + 1)) }))

/-- Stamps a request of the migration engine under the lowest peer-key slot of its destination (R474, R478). -/
def State.stampPeer (s : State) (p : Nat) (pkt : Packet) : Packet × State :=
  match (s.part p).peerKeys.find? (fun k => k.2.loaded && k.2.ep = pkt.dstEp) with
  | none => (pkt, s)
  | some (i, k) =>
    ({ pkt with part := k.part, keyId := k.gen % 15, pktCtr := k.ctr },
     s.onPart p (fun x => { x with peerKeys := x.peerKeys.mod {} i (fun y => { y with ctr := (y.ctr + 1) % 2 ^ 32 }) }))

/-- Sends the packets at the head of a shaper's queue that have tokens (R425, R426). -/
def State.drainShaper (s : State) (p ld : Nat) : Nat → State
  | 0 => s
  | n + 1 =>
    let x := s.shaper p ld
    match x.queue with
    | [] => s
    | k :: rest =>
      if x.rate.isSome && decide (x.t < (x.len k : Int)) then s else
      let s := s.onShaper p ld (fun x => { x with queue := rest, t := x.t - (x.len k : Int) })
      let s := (s.countOf p 28 (x.len k)).launch k
      s.drainShaper p ld n

/-- A packet the device originates under a partition's key, or for the migration engine under a peer's, on a link die,
through the partition's shaper; a partition that does not exist has no key and sends nothing (R424 to R426, R476). -/
def State.originate (s : State) (p ld : Nat) (pkt : Packet) (peer : Bool := false) : State :=
  if !(s.part p).live then s else
  let r := if peer then s.stampPeer p pkt else s.stamp p pkt
  let pkt := r.1
  let s := r.2
  let x := s.shaper p ld
  let len : Int := (x.len pkt : Int)
  if pkt.cls = 2 || pkt.cls = 3 then
    let s := if x.rate.isSome then s.onShaper p ld (fun x => { x with t := max (-(x.burst : Int)) (x.t - len) }) else s
    (s.countOf p 28 (x.len pkt)).launch pkt
  else if x.queue.isEmpty && (x.rate.isNone || decide (len ≤ x.t)) then
    let s := if x.rate.isSome then s.onShaper p ld (fun x => { x with t := x.t - len }) else s
    (s.countOf p 28 (x.len pkt)).launch pkt
  else
    (s.countOf p 20 1).onShaper p ld (fun x => { x with queue := x.queue ++ [pkt] })

/-! ### Flows and replies -/

/-- The flow of a packet (R407). -/
def flowOf (p : Packet) : FlowId := { src := p.srcEp, dst := p.dstEp, part := p.part, cls := p.cls }

/-- The flow's state at its flow home. -/
def State.flow (s : State) (f : FlowId) : Flow := (s.net.flows.find? (fun x => x.id = f)).getD { id := f }

/-- Changes a flow, adding it when it is new. -/
def State.onFlow (s : State) (f : FlowId) (g : Flow → Flow) : State :=
  let flows :=
    if s.net.flows.any (fun x => x.id = f) then s.net.flows.map (fun x => if x.id = f then g x else x)
    else s.net.flows ++ [g { id := f }]
  s.onNet (fun n => { n with flows := flows })

/-- Opcodes with a transport sequence number (R387). -/
def seqOpcode (op : Nat) : Bool :=
  op == 0x06 || op == 0x08 || (decide (0x80 ≤ op) && decide (op ≤ 0x85)) || op == 0xC0 || op == 0xC2 || op == 0xC3

/-- Keeps the reply to a sequenced request, the last 64 of the flow (R416). -/
def Flow.remember (x : Flow) (seq : Nat) (reply : Packet) : Flow :=
  { x with
    cache := ((seq, reply) :: x.cache).take 64
    executing := x.executing.filter (· ≠ seq)
    highSeq := if x.highSeq = 0 || decide ((seq + 65536 - (x.highSeq - 1)) % 65536 < 32768) then seq + 1 else x.highSeq }

/-- A request of a flow is performed: it counts in its epoch (R407, R409). -/
def Flow.perform (x : Flow) (epoch : Bool) : Flow :=
  if epoch = x.epoch then { x with cur := x.cur + 1 } else { x with other := x.other + 1 }

/-- A link die works (R22). -/
def State.ldWorks (s : State) (d : Nat) : Bool := (if d = 0 then s.net.ld0 else s.net.ld1) && !decide (d ∈ s.net.ldFailing)

/-- Flow home of a flow: LD(SRC_EP [0] XOR PARTITION [0]), or the other link die once that one has failed (R409, R414). -/
def State.flowHome (s : State) (src part : Nat) : Nat :=
  if !s.net.ld0 then 1 else if !s.net.ld1 then 0 else (src + part) % 2

/-- A request received on a link die is performed: it counts at the flow home at once, or by a notice from the other die
(R407, R409). -/
def State.performed (s : State) (ld : Nat) (q : Packet) : State :=
  if s.flowHome q.srcEp q.part = ld then s.onFlow (flowOf q) (fun x => x.perform q.epoch)
  else s.onNet (fun n => { n with notices := n.notices ++ [(flowOf q, q.epoch, 1)] })

/-- The request at the network interface that a reply of a link die answers: it leaves the interface, counts as performed
and keeps its reply (R407, R409, R416). -/
def State.answered (s : State) (ld : Nat) (reply : Packet) : State :=
  match s.net.ni.find? (fun q => q.srcEp = reply.dstEp && q.tag = reply.tag && q.part = reply.part) with
  | none => s
  | some q =>
    let s := s.onNet (fun n => { n with ni := n.ni.erase q })
    let s := if seqOpcode q.opcode then s.onFlow (flowOf q) (fun x => x.remember q.seq reply) else s
    if q.cls = 0 && !q.flag then s.performed ld q else s

/-- Opcodes of responses and snoops (R387). -/
def opDataNc : Nat := 0x40
/-- DATA_S. -/
def opDataS : Nat := 0x41
/-- DATA_X. -/
def opDataX : Nat := 0x42
/-- GNT_X. -/
def opGntX : Nat := 0x43
/-- CMP. -/
def opCmp : Nat := 0x4A
/-- ATOM_RSP. -/
def opAtomRsp : Nat := 0x4B
/-- NACK. -/
def opNack : Nat := 0x4C
/-- ERR. -/
def opErr : Nat := 0x4E
/-- SNP_INV. -/
def opSnpInv : Nat := 0x80
/-- SNP_FWD_S. -/
def opSnpFwdS : Nat := 0x81
/-- SNP_FWD_X. -/
def opSnpFwdX : Nat := 0x82
/-- SNP_RECALL. -/
def opSnpRecall : Nat := 0x83
/-- SNP_CLEAN. -/
def opSnpClean : Nat := 0x84
/-- SNP_PROBE. -/
def opSnpProbe : Nat := 0x85

/-- Sends a reply to a fabric requester and closes its request (R407, R416, R424). -/
def State.sendReply (s : State) (p ld : Nat) (reply : Packet) : State := (s.answered ld reply).originate p ld reply

/-- Line handle of a line for a partition (R386). -/
def State.handle (s : State) (p line : Nat) : Nat := (Config.lineHandle (s.part p).handleSecret line).toNat

/-- Rank table entry (R402). -/
def State.rank (s : State) (p r : Nat) : Rank := (s.part p).ranks.look {} r

/-- A reply to a fabric request: opcode, status, LOAD, word 2, AUX and data (R385, R386). -/
def mkReply (s : State) (p : Nat) (q : FabReq) (op status load word2 aux : Nat) (data : List Byte) (poison : Bool) :
    Packet :=
  { cls := 1, opcode := op, status := status, load := load, part := p, tag := q.tag, srcEp := s.rnd.endpoint,
    dstEp := q.ep, units := data.length / 64, word2 := word2, aux := aux, payload := data, poison := poison }

/-- Next SEQ of a snoop toward an endpoint (R416). -/
def State.takeSnoopSeq (s : State) (p ep : Nat) : Nat × State :=
  let n := (s.part p).snoopSeq.look 0 ep
  (n, s.onPart p (fun x => { x with snoopSeq := x.snoopSeq.put 0 ep ((n + 1) % 65536) }))

end Sys2Proof.Machine
end

