-- ==== Sys2Proof/Machine/Memory.lean ====
section
/-! DEFINITION. Pool memory: where a byte lies (R155 to R157), what a read of a line returns, and how a write goes
through the coalescing buffer to the array and its parity (R169, R170, R190, R211). -/
namespace Sys2Proof.Machine

/-! ### Geometry -/

/-- First pool address of half 1 (R24). -/
def halfBase : Nat := 0x00C000000000
/-- First pool address that is not backed (R24). -/
def paEnd : Nat := 0x018000000000
/-- Offset within a half at which its metadata begins (R103). -/
def metaOff : Nat := 0x00B800000000
/-- The half whose range holds a pool address (R24). -/
def homeHalf (pa : Nat) : Nat := if pa < halfBase then 0 else 1
/-- The offset within the half. -/
def halfOff (pa : Nat) : Nat := if pa < halfBase then pa else pa - halfBase
/-- Rand index of a pool address (R155). -/
def randOf (pa : Nat) : Nat := halfOff pa / 2048
/-- Data unit of a pool address (R155). -/
def unitOf (pa : Nat) : Nat := halfOff pa / 256 % 8
/-- Pool address of the first byte of a rand. -/
def randPa (h r : Nat) : Nat := h * halfBase + r * 2048
/-- Whether a pool address is metadata (R103). -/
def isMeta (pa : Nat) : Bool := decide (metaOff ≤ halfOff pa)
/-- Pool address of a block (R105). -/
def blockPa (b : Nat) : Nat := (b / 376832) * halfBase + (b % 376832) * 0x200000
/-- Half of a block (R105). -/
def blockHalf (b : Nat) : Nat := b / 376832
/-- Block that holds an allocatable pool address (R105). -/
def paBlock (pa : Nat) : Nat := homeHalf pa * 376832 + halfOff pa / 0x200000

/-- Local stack at position j of a rand (R155). -/
def posStack (r j : Nat) : Nat := (r % 10 + 1 + j) % 10
/-- Position of a rand's parity unit (R155). -/
def parityPos (r : Nat) : Nat := r / 10 % 9
/-- Local stack of unit u of a rand: u = 8 is the parity unit (R155). -/
def unitStack (r u : Nat) : Nat :=
  if u < 8 then posStack r ((parityPos r + 1 + u) % 9) else posStack r (parityPos r)

/-- The bank and the slot index within it, in order of row and column, at which slot n of a stack lies (R157). -/
def slotBank (stack n : Nat) : BankId × Nat :=
  let q := n / 32
  let row := q / 384
  ({ stack := Fin.ofNat 20 stack, pc := Fin.ofNat 32 n, rank := Fin.ofNat 6 (q / 64),
     bank := Fin.ofNat 16 (Nat.xor (q / 4) row) }, row * 4 + q % 4)

/-- Primary weave die of a stack (R16). -/
def primaryDie (st : Nat) : Nat := 2 * (st / 10) + st % 10 / 5
/-- Partner of a weave die (R16). -/
def partner (d : Nat) : Nat := if d % 2 = 0 then d + 1 else d - 1
/-- Weave die of a weaver (R16). -/
def weaverDie (w : Nat) : Nat := w / 192
/-- Half of a weaver (R16). -/
def weaverHalf (w : Nat) : Nat := w / 384

/-- The die that serves a stack: its primary, or the secondary after failover (R17, R159). -/
def State.servingDie (s : State) (st : Nat) : Nat :=
  if (s.stack st).secondary || !(s.die (primaryDie st)).ok then partner (primaryDie st) else primaryDie st

/-- The parity home of a rand (R169). -/
def State.parityHome (s : State) (h r : Nat) : Nat := s.servingDie (10 * h + unitStack r 8)

/-- Both weave dies of a half have failed (R19). -/
def State.halfDead (s : State) (h : Nat) : Bool := !(s.die (2 * h)).ok && !(s.die (2 * h + 1)).ok

/-- The spine is lost (R508). -/
def State.spineGone (s : State) : Bool := s.auth.lease0.spineLost || s.auth.lease1.spineLost

/-- A data request from one half would have to cross a lost spine (R508). -/
def State.cutOff (s : State) (h pa : Nat) : Bool := s.spineGone && decide (homeHalf pa ≠ h)

/-- A retired page maps to its replacement before R155 (R203). -/
def State.mapPa (s : State) (pa : Nat) : Nat :=
  let h := homeHalf pa
  match (s.half h).pages.find? (fun e => e.1 = pa / 4096 * 4096) with
  | some e => h * halfBase + metaOff + e.2 * 4096 + pa % 4096
  | none => pa

/-! ### Lost and moved units -/

/-- Order in which the rebuild passes rand r (R209). -/
def rebuildIndex (r : Nat) : Nat := if 385875968 ≤ r then r - 385875968 else 16777216 + r

/-- The rand that the rebuild passes at a place of its order (R209). -/
def rebuildRandAt (i : Nat) : Nat := if i < 16777216 then 385875968 + i else i - 16777216

/-- A retired bank's unit of the rand has moved to the rand's spare slot (R204). -/
def State.bankMoved (s : State) (h r st : Nat) : Bool :=
  let b := slotBank (10 * h + st) r
  match (s.half h).moving with
  | some (x, n) => if x = b.1 then decide (b.2 < n) else decide (b.1 ∈ (s.half h).banks)
  | none => decide (b.1 ∈ (s.half h).banks)

/-- The rand's spare slot holds a unit moved by a bank retirement (R214). -/
def State.spareTaken (s : State) (h r : Nat) : Bool := (List.range 9).any (fun u => s.bankMoved h r (unitStack r u))

/-- The rebuild has placed rand r's lost unit in its spare slot (R208, R209, R214). -/
def State.rebuilt (s : State) (h r : Nat) : Bool :=
  decide (rebuildIndex r < (s.half h).cursor) && !s.spareTaken h r &&
  (match (s.half h).lossAt, (s.half h).failed with
    | some c, _ :: k :: _ => decide (rebuildIndex r < c) || !(List.range 9).any (fun u => unitStack r u == k)
    | _, _ => true)

/-- The local stack that holds unit u of a rand now (R204, R208). -/
def State.unitAt (s : State) (h r u : Nat) : Nat :=
  let st := unitStack r u
  if s.bankMoved h r st then r % 10
  else if (s.half h).failed.head? = some st && s.rebuilt h r then r % 10
  else st

/-- The units of a rand that failed stacks have taken (R186, R208). -/
def State.lostUnits (s : State) (h r : Nat) : List Nat :=
  (List.range 9).filter (fun u => decide (s.unitAt h r u ∈ (s.half h).failed))

/-! ### Bytes as stored -/

/-- The numbers of the lines that hold n bytes from an address on. -/
def linesOf (a n : Nat) : List Nat := if n = 0 then [] else nums (a / 64) ((a + n - 1) / 64 + 1 - a / 64)

/-- Key of a parity byte. -/
def parityKey (h r off : Nat) : Nat := h * 2 ^ 40 + r * 256 + off
/-- Key of a parity line. -/
def parityLine (h r l : Nat) : Nat := h * 2 ^ 34 + r * 4 + l

/-- n bytes of the array from an address on. -/
def PoolMem.stored (m : PoolMem) (pa n : Nat) : List Byte := (nums pa n).map (m.array.look 0)

/-- A parity line with every delta on its way applied (R170). -/
def PoolMem.parityBytes (m : PoolMem) (h r l : Nat) : List Byte :=
  (nums (l * 64) 64).map (fun o =>
    m.deltas.foldl (fun b d => if d.half = h && d.rand = r then b ^^^ d.bytes.look 0 o else b)
      (m.parity.look 0 (parityKey h r o)))

/-- The array's line of unit u of a rand. -/
def PoolMem.unitLine (m : PoolMem) (h r u l : Nat) : List Byte := m.stored (randPa h r + u * 256 + l * 64) 64

/-- XOR of the lines of the other units of a rand (R185). -/
def PoolMem.reconstruct (m : PoolMem) (h r u l : Nat) : List Byte :=
  ((List.range 8).filter (· ≠ u)).foldl (fun a v => xorBytes a (m.unitLine h r v l))
    (if u = 8 then List.replicate 64 0 else m.parityBytes h r l)

/-- A line as the array and its parity give it, and whether it is poison (R182, R186, R188, R189); in TEST a lost line is
not reconstructed (R192). -/
def State.arrayLine (s : State) (pa : Nat) : List Byte × Bool :=
  let a := s.mapPa (pa / 64 * 64)
  let h := homeHalf a
  let r := randOf a
  let u := unitOf a
  let l := a / 64 % 4
  let lost := s.lostUnits h r
  if u ∈ lost then
    if lost = [u] && !decide (parityLine h r l ∈ s.mem.parityPoison) && s.rst.mode != .test then
      (s.mem.reconstruct h r u l, false)
    else (List.replicate 64 0, true)
  else (s.mem.stored a 64, decide (a / 64 ∈ s.mem.poison))

/-- The buffered bytes of a rand (R169). -/
def PoolMem.buffered (m : PoolMem) (h r : Nat) : SMap (Option Byte) :=
  match m.coal.find? (fun c => c.half = h && c.rand = r) with
  | some c => c.bytes
  | none => []

/-- The newest bytes of a line: those in the buffer over those of the array, and whether the line is poison. -/
def State.newLine (s : State) (pa : Nat) : List Byte × Bool :=
  let a := s.mapPa (pa / 64 * 64)
  let old := s.arrayLine pa
  let buf := s.mem.buffered (homeHalf a) (randOf a)
  let got := (nums a 64).map (fun k => buf.look none k)
  (List.zipWith (fun (o : Byte) (n : Option Byte) => n.getD o) old.1 got, old.2 && !got.all Option.isSome)

/-- The newest value of n bytes at an address, and whether one of their lines is poison. -/
def State.readPool (s : State) (pa n : Nat) : List Byte × Bool :=
  let lines := (linesOf pa n).map (fun l => s.newLine (l * 64))
  ((lines.flatMap (·.1)).drop (pa % 64) |>.take n, lines.any (·.2))

/-- The newest aligned 64-bit word at an address, and poison. -/
def State.readWord (s : State) (pa : Nat) : U64 × Bool :=
  let r := s.readPool pa 8
  (BitVec.ofNat 64 (ofBytes r.1), r.2)

/-! ### Marks -/

/-- Marks a data line and the parity line at its offset (R187). -/
def PoolMem.mark (m : PoolMem) (pa : Nat) : PoolMem :=
  { m with
    poison := setAdd m.poison (pa / 64)
    parityPoison := setAdd m.parityPoison (parityLine (homeHalf pa) (randOf pa) (pa / 64 % 4)) }

/-- Clears a data line's mark, and its parity line's when no other data line at the offset is marked (R190). -/
def PoolMem.unmark (m : PoolMem) (pa : Nat) : PoolMem :=
  if pa / 64 ∈ m.poison then
    let h := homeHalf pa
    let r := randOf pa
    let l := pa / 64 % 4
    let poison := setDel m.poison (pa / 64)
    let others := (List.range 8).any (fun u => decide ((randPa h r + u * 256 + l * 64) / 64 ∈ poison))
    { m with
      poison := poison
      parityPoison := if others then m.parityPoison else setDel m.parityPoison (parityLine h r l) }
  else m

/-- The check symbols of a data line in the check area of its row (R179, R180, R188). -/
def PoolMem.checkArea (m : PoolMem) (pa : Nat) : List Byte :=
  (storedSymbols (randOf pa) (pa / 64 % 4) (m.stored (pa / 64 * 64) 64) (decide (pa / 64 ∈ m.poison))).drop 64

/-- A read that finds poison outside SERVICE ends as a bus error: a response without data whose status is POISON (R192,
R193). -/
def State.busError (s : State) (poison : Bool) : Bool := poison && s.rst.mode != .service

/-! ### Ports, queues and urgency (R163 to R165, R174) -/

/-- Round length in µs (R40). -/
def RoundSt.micros (r : RoundSt) : Nat := 2 ^ r.length

/-- The time in units of 10 ns, as far as the rounds since reset and the round's admission points tell it. -/
def State.clock (s : State) : Nat := s.cnt.clock / 17 + s.rnd.point * s.rnd.micros * 25 / 4

/-- Engine port of a weave die (R312). -/
def enginePort (d : Nat) : Nat := 48 + d
/-- The host port (R312). -/
def hostPort : Nat := 54

/-- Latency target of a port, in units of 10 ns: the one set, or the default (R164). -/
def State.target (s : State) (port : Nat) : Nat :=
  match s.targets.look 0 port with
  | n + 1 => n
  | 0 => if port < 48 then 100 else if port < 52 then 40 else if port < 54 then 60 else 200

/-- Urgency of a request that entered at a time through a port (R165). -/
def State.urgency (s : State) (enter port : Nat) : Nat :=
  let gone := (s.clock - enter) * 100
  let t := s.target port
  if 100 * t ≤ gone then 3 else if 90 * t ≤ gone then 2 else if 75 * t ≤ gone then 1 else 0

/-- The stack and pseudo-channel that hold a line (R155, R157, R203, R208). -/
def State.slotOf (s : State) (pa : Nat) : Nat × Nat :=
  let a := s.mapPa pa
  (10 * homeHalf a + s.unitAt (homeHalf a) (randOf a) (unitOf a), randOf a % 32)

/-- The bank of a line, and the slot in it. -/
def State.bankOf (s : State) (pa : Nat) : BankId × Nat := slotBank (s.slotOf pa).1 (randOf (s.mapPa pa))

/-- The read queue of a pseudo-channel: stroke requests in the order in which they were issued (R163). -/
def State.readQueue (s : State) (x : Nat × Nat) : List PoolReq :=
  s.poolReqs.filter (fun q => q.stage == .queued && s.slotOf q.pa == x)

/-- The stack and pseudo-channel of a parity delta. -/
def State.deltaSlot (s : State) (d : Delta) : Nat × Nat := (10 * d.half + s.unitAt d.half d.rand 8, d.rand % 32)

/-- The write queue of a pseudo-channel: parity deltas on their way to the parity unit; the data units of a released rand
are written as it is released (R163, R169). -/
def State.writeQueue (s : State) (x : Nat × Nat) : List Delta := s.mem.deltas.filter (fun d => s.deltaSlot d == x)

/-- Entries occupied in all queues of a stack's controller (R174). -/
def State.occupied (s : State) (st : Nat) : Nat :=
  (s.poolReqs.filter (fun q => q.stage == .queued && (s.slotOf q.pa).1 == st)).length +
    (s.mem.deltas.filter (fun d => (s.deltaSlot d).1 == st)).length

/-- LOAD of a response that a stack served: the stack of the line's unit, be it lost (R174). -/
def State.loadOf (s : State) (pa : Nat) : Nat :=
  let a := s.mapPa pa
  let u := unitOf a
  let lost := decide (u ∈ s.lostUnits (homeHalf a) (randOf a))
  min 15 (16 * s.occupied (if lost then 10 * homeHalf a + unitStack (randOf a) u else (s.slotOf pa).1) / 2560)

/-- A port finds room in the read queue: 4 of the 48 entries are kept for urgency 3 (R163). -/
def State.hasRoom (s : State) (q : PoolReq) : Bool :=
  let n := (s.readQueue (s.slotOf q.pa)).length
  decide (n < 44) || (decide (n < 48) && s.urgency q.enter (enginePort (weaverDie q.weaver)) == 3)

/-- Ports hold their requests for a line: its page is being copied to a replacement (R203); or its stack is a failed die's
from the declaration until its standby controllers have ended their resync; or its rand is being resynchronised (R160,
R161). -/
def State.portHeld (s : State) (pa : Nat) : Bool :=
  let h := homeHalf pa
  let a := s.mapPa pa
  let down := fun (d : Nat) => (s.die d).resync || ((s.die d).failed.isSome && (s.die d).ok)
  (s.half h).copies.any (fun c => c.page = pa / 4096 * 4096) || down (primaryDie (s.slotOf pa).1) ||
    (s.stack (s.slotOf pa).1).resync ||
    (List.range 10).any (fun k => ((s.die (primaryDie (10 * h + k))).resync || (s.stack (10 * h + k)).resync) &&
      decide ((10 * h + k, randOf a) ∈ s.mem.intents))

/-- Requests at a port take the credits that are free, in order (R163). -/
def State.giveCredits (s : State) : State :=
  s.each (s.poolReqs.filter (fun q => q.stage == .port)) (fun s q =>
    if s.portHeld q.pa || !s.hasRoom q then s
    else { s with poolReqs := s.poolReqs.map (fun x => if x.id = q.id then { x with stage := .queued } else x) })

/-! ### Writing -/

/-- Writes bytes to the array. -/
def PoolMem.store (m : PoolMem) (pa : Nat) (bs : List Byte) : PoolMem :=
  { m with array := (bs.zip (nums pa bs.length)).foldl (fun a x => a.put 0 x.2 x.1) m.array }

/-- Writes a parity line. -/
def PoolMem.storeParity (m : PoolMem) (h r l : Nat) (bs : List Byte) : PoolMem :=
  { m with parity := (bs.zip (nums (parityKey h r (l * 64)) bs.length)).foldl (fun a x => a.put 0 x.2 x.1) m.parity }

/-- Applies the deltas on their way to a rand's parity unit, and closes its write intents (R169). -/
def PoolMem.applyDeltas (m : PoolMem) (h r : Nat) : PoolMem :=
  let m' := if m.deltas.any (fun d => d.half = h && d.rand = r) then
      (List.range 4).foldl (fun x l => x.storeParity h r l (m.parityBytes h r l)) m else m
  { m' with
    deltas := m.deltas.filter (fun d => !(d.half = h && d.rand = r))
    intents := m.intents.filter (fun x => !(x.1 / 10 = h && x.2 = r))
    atoms := m.atoms.filter (fun x => !(x.stack / 10 = h && x.rand = r)) }

/-- Opens a write intent of a rand in the log of a stack. A log of 64 entries for the rand's pseudo-channel first takes
the parity update of its oldest (R153, R169). -/
def PoolMem.openIntent (m : PoolMem) (st r : Nat) : PoolMem :=
  if (st, r) ∈ m.intents then m else
  let log := m.intents.filter (fun x => x.1 = st && x.2 % 32 = r % 32)
  let m := match log with
    | x :: _ => if 64 ≤ log.length then m.applyDeltas (st / 10) x.2 else m
    | [] => m
  { m with intents := m.intents ++ [(st, r)] }

/-- Sends a delta for a rand's parity unit (R169). -/
def PoolMem.addDelta (m : PoolMem) (h r enter port : Nat) (xs : List (Nat × Byte)) : PoolMem :=
  if xs.isEmpty then m else
  { m with deltas := m.deltas ++
      [{ half := h, rand := r, bytes := xs.foldl (fun t x => t.mod 0 x.1 (· ^^^ x.2)) [], enter := enter, port := port }] }

/-- The extent, ACTIVE or DRAINING, whose block list holds the block of a pool address, with the block's index. -/
def State.extentAt (s : State) (pa : Nat) : Option (Nat × Nat) :=
  let b := paBlock pa
  s.extents.findSome? (fun x => if x.2.st = .active || x.2.st = .draining then
      (x.2.blocks.findIdx? (fun y => y.block = b && !y.lost)).map (fun k => (x.1, k)) else none)

/-- Writes the buffered bytes of a rand to the array and updates its parity: a whole rand directly, otherwise by
deltas; the unit of a failed stack takes part through the parity only, and a lost parity unit is not updated
(R169, R190, R211). -/
def State.writeRand (s : State) (h r enter port : Nat) (buf : SMap (Option Byte)) : State :=
  let lost := s.lostUnits h r
  let base := randPa h r
  let news := (nums base 2048).map (fun k => (k, buf.look none k))
  let written := (List.range 8).filter (fun u => !decide (u ∈ lost) &&
    (nums (base + u * 256) 256).any (fun k => (buf.look none k).isSome))
  let full := news.all (fun x => x.2.isSome)
  let old := fun k => ((s.arrayLine k).1[k % 64]?).getD 0
  let kept := news.filterMap (fun x => match x.2 with
    | some b => if unitOf x.1 ∈ lost then none else some (x.1, b)
    | none => none)
  let array := kept.foldl (fun a x => a.put 0 x.1 x.2) s.mem.array
  if full then
    let par := fun o => (List.range 8).foldl (fun b u => b ^^^ ((buf.look none (base + u * 256 + o)).getD 0)) (0 : Byte)
    let m := { s.mem with
      array := array
      deltas := s.mem.deltas.filter (fun d => !(d.half = h && d.rand = r))
      intents := s.mem.intents.filter (fun x => !(x.1 / 10 = h && x.2 = r))
      atoms := s.mem.atoms.filter (fun x => !(x.stack / 10 = h && x.rand = r))
      poison := s.mem.poison.filter (fun k => !(base / 64 ≤ k && k < base / 64 + 32))
      parityPoison := s.mem.parityPoison.filter (fun k => !(parityLine h r 0 ≤ k && k < parityLine h r 4)) }
    { s with mem := if 8 ∈ lost then m else
        (List.range 4).foldl (fun m l => m.storeParity h r l ((nums (l * 64) 64).map par)) m }
  else
    let xs := news.filterMap (fun x => x.2.map (fun b => (x.1 % 256, b ^^^ old x.1)))
    let m := if 8 ∈ lost then s.mem else
      (written.map (fun u => 10 * h + s.unitAt h r u) ++ [10 * h + s.unitAt h r 8]).foldl
        (fun (m : PoolMem) st => m.openIntent st r) s.mem
    let m := { m with array := array }
    let lines := (nums (base / 64) 32).filter (fun k => (nums (k * 64) 64).all (fun a => (buf.look none a).isSome))
    let m := lines.foldl (fun m k => m.unmark (k * 64)) m
    { s with mem := if 8 ∈ lost then m else m.addDelta h r enter port xs }

/-- Records the home's answer to a stroke's pool request, if it has none; the request leaves its queue (R160, R260). -/
def State.gotReq (s : State) (id : Nat) (st : Status) (data : List Byte) (poison : Bool) : State :=
  { s with poolReqs := s.poolReqs.map (fun q =>
      if q.id = id && q.got.isNone then { q with got := some (st, data, poison), stage := .issued } else q) }

/-- Answers a host request that waited for its write (R441). -/
def State.ackHost (s : State) (tag : Nat) : State :=
  s.onHost (fun h => { h with reqs := h.reqs.map (fun q =>
    if q.tag = tag && q.answer.isNone then { q with answer := some (0, [], false) } else q) })

/-- Gives an answer that waited for a write to reach the array (R160). -/
def State.ack (s : State) : Ack → State
  | .reply ld p pa pkt => s.sendReply p ld { pkt with load := s.loadOf pa }
  | .host tag => s.ackHost tag
  | .stroke id old => s.gotReq id .ok old false

/-- Releases a rand from the coalescing buffer and sends the answers that waited for it (R160, R169). -/
def State.releaseRand (s : State) (h r : Nat) : State :=
  match s.mem.coal.find? (fun c => c.half = h && c.rand = r) with
  | none => s
  | some c =>
    let s := { s with mem := { s.mem with coal := s.mem.coal.filter (fun x => !(x.half = h && x.rand = r)) } }
    let part := (s.extentAt (randPa h r)).map (fun x => (s.extent x.1).holder)
    let full := (nums (randPa h r) 2048).all (fun k => (c.bytes.look none k).isSome)
    let s := if full then s else s.opEvent 0x106 { pa := some (randPa h r), part := part }
    let s := s.writeRand h r c.enter c.port c.bytes
    s.each c.acks State.ack

/-- Releases every rand of the buffers (R169, step 0 of the boundary). -/
def State.releaseAll (s : State) : State := s.each s.mem.coal (fun s c => s.releaseRand c.half c.rand)

/-- Releases the rands whose oldest write has reached urgency 2 (R169). -/
def State.releaseUrgent (s : State) : State :=
  s.each (s.mem.coal.filter (fun c => decide (2 ≤ s.urgency c.enter c.port))) (fun s c => s.releaseRand c.half c.rand)

/-- A read of a line releases the rand whose buffered write matches it (R169, R170). -/
def State.drainLine (s : State) (pa : Nat) : State :=
  let a := s.mapPa (pa / 64 * 64)
  let buf := s.mem.buffered (homeHalf a) (randOf a)
  if (nums a 64).any (fun k => (buf.look none k).isSome) then s.releaseRand (homeHalf a) (randOf a) else s

/-- Releases every rand whose buffered writes match a read of n bytes. -/
def State.drain (s : State) (pa n : Nat) : State :=
  s.each (linesOf pa n) (fun s l => s.drainLine (l * 64))

/-- A request touches a half; a half in self-refresh starts its exit (R175, R177). -/
def State.touch (s : State) (pa : Nat) : State :=
  s.onHalf (homeHalf pa) (fun x =>
    if x.refresh = .asleep then { x with touched := true, refresh := .waking, wakeFrom := s.rnd.counter }
    else { x with touched := true })

/-- Metadata that a half in self-refresh cannot take waits in its link die's buffer (R176). -/
def State.metaWrite (s : State) (h n : Nat) : State :=
  s.onHalf h (fun x => if x.refresh = .asleep then { x with metaBuf := min 4194304 (x.metaBuf + n) } else x)

/-- The half is in self-refresh or on its way out of it, so that a request there must wait or is turned away (R177). -/
def State.asleepHalf (s : State) (h : Nat) : Bool := (s.half h).refresh == .asleep || (s.half h).refresh == .waking

/-- A refresh of a bank, which closes its row (R168, R172); one that 8 postponed refreshes force counts (R541). -/
def State.refreshBank (s : State) (b : BankId) : State :=
  let s := if 8 ≤ (s.bankSt b).postponed then s.opEvent 0x104 {} else s
  s.onBank b (fun x => { x with postponed := x.postponed - 1, row := none })

/-- An access to a bank: one with 8 postponed refreshes is refreshed first (R166, R173); one to the open row counts
(R541); the access leaves its row open, with the page hint, or closes it (R168). -/
def State.useSlot (s : State) (b : BankId × Nat) (pa src : Nat) (hint : Bool) : State :=
  let s := if 8 ≤ (s.bankSt b.1).postponed then s.refreshBank b.1 else s
  let s := if (s.bankSt b.1).row = some (b.2 / 4) then s.opEvent 0x102 { source := some src, pa := some pa } else s
  s.onBank b.1 (fun x => { x with row := if hint then some (b.2 / 4) else none })

/-- An access to the bank of a line. -/
def State.useRow (s : State) (pa src : Nat) (hint : Bool) : State := s.useSlot (s.bankOf pa) pa src hint

/-- The device's own read of the lines of n bytes, which closes its rows: buffered writes that match are drained first,
and with `touches` it is a touch of the half (R168, R170, R175). -/
def State.ownRead (s : State) (pa n src : Nat) (touches : Bool) : State :=
  s.each (linesOf pa n) (fun s l =>
    let s := if touches then s.touch (l * 64) else s
    (s.drainLine (l * 64)).useRow (l * 64) src false)

/-- Whether a write of some bytes of a line is refused because the line is poison and is not written whole (R190). -/
def State.writeRefused (s : State) (pa : Nat) (mask : List Bool) : Bool :=
  (s.newLine pa).2 && !(decide (pa % 64 = 0) && mask.length == 64 && mask.all id)

/-- Puts bytes of one line into the coalescing buffer, with what waits for them to reach the array; a buffer of 384
rands releases its oldest (R169, R170). The caller has checked `writeRefused`. -/
def State.writeLine (s : State) (pa : Nat) (bs : List Byte) (mask : List Bool) (acks : List Ack) (port : Nat := 48) :
    State :=
  let a := s.mapPa pa
  let h := homeHalf a
  let r := randOf a
  let put := fun (t : SMap (Option Byte)) => ((bs.zip mask).zip (nums a bs.length)).foldl
    (fun t x => if x.1.2 then t.put none x.2 (some x.1.1) else t) t
  let coal := match s.mem.coal.find? (fun c => c.half = h && c.rand = r) with
    | some _ => s.mem.coal.map (fun c => if c.half = h && c.rand = r then
        { c with bytes := put c.bytes, acks := c.acks ++ acks } else c)
    | none => s.mem.coal ++ [{ half := h, rand := r, bytes := put [], acks := acks, enter := s.clock, port := port }]
  let s := { s with mem := { s.mem with coal := coal } }
  let mine : List Coal := coal.filter (fun c => decide (s.parityHome c.half c.rand = s.parityHome h r))
  if 384 ≤ mine.length then
    match mine with
    | c :: _ => s.releaseRand c.half c.rand
    | [] => s
  else s

/-- Writes bytes to consecutive lines, none of which is refused; the answers wait for the last line. -/
def State.writePool (s : State) (pa : Nat) (bs : List Byte) : State :=
  let n := bs.length
  let lines := linesOf pa n
  s.each lines (fun s l =>
    let lo := max pa (l * 64)
    let hi := min (pa + n) (l * 64 + 64)
    s.writeLine lo ((bs.drop (lo - pa)).take (hi - lo)) (List.replicate (hi - lo) true) [])

/-- Writes one line with the poison mark: its bytes, its parity and both marks (R187, R191). -/
def State.writePoisoned (s : State) (pa : Nat) (bs : List Byte) : State :=
  let a := s.mapPa (pa / 64 * 64)
  let s := s.writeLine (pa / 64 * 64) bs (List.replicate bs.length true) []
  let s := s.releaseRand (homeHalf a) (randOf a)
  { s with mem := s.mem.mark a }

/-- Writes a range of whole rands as zeros with correct parity and no mark (R144, R190). -/
def State.zeroRands (s : State) (h lo hi : Nat) : State :=
  let inR := fun r => decide (lo ≤ r) && decide (r < hi)
  let m := s.mem
  { s with mem := { m with
      array := m.array.dropIf (fun k => decide (randPa h lo ≤ k) && decide (k < randPa h hi))
      parity := m.parity.dropIf (fun k => decide (parityKey h lo 0 ≤ k) && decide (k < parityKey h hi 0))
      poison := m.poison.filter (fun k => !(decide (randPa h lo / 64 ≤ k) && decide (k < randPa h hi / 64)))
      parityPoison := m.parityPoison.filter
        (fun k => !(decide (parityLine h lo 0 ≤ k) && decide (k < parityLine h hi 0)))
      coal := m.coal.filter (fun c => !(c.half = h && inR c.rand))
      deltas := m.deltas.filter (fun d => !(d.half = h && inR d.rand))
      intents := m.intents.filter (fun x => !(x.1 / 10 = h && inR x.2))
      atoms := m.atoms.filter (fun x => !(x.stack / 10 = h && inR x.rand)) } }

/-- Recomputes the parity unit of a rand from its data units (R161, R187). -/
def State.rewriteParity (s : State) (h r : Nat) : State :=
  if 8 ∈ s.lostUnits h r then s else
  let m := s.mem
  let m := { m with
    deltas := m.deltas.filter (fun d => !(d.half = h && d.rand = r))
    intents := m.intents.filter (fun x => !(x.1 / 10 = h && x.2 = r)) }
  { s with mem := (List.range 4).foldl (fun x l => x.storeParity h r l (m.reconstruct h r 8 l)) m }

/-- Canonical form of pool memory: its tables keep keys rising and list no default. -/
def PoolMem.wf (m : PoolMem) : Bool :=
  m.array.wf 0 && m.parity.wf 0 && m.coal.all (fun c => c.bytes.wf none) && m.deltas.all (fun d => d.bytes.wf 0)

end Sys2Proof.Machine
end

