-- ==== Sys2Proof/Machine/Home.lean ====
section
/-! DEFINITION. The home of a line: its directory entry, the snoops it sends, and how it serves each request (R215 to
R236, R239). -/
namespace Sys2Proof.Machine

/-! ### Regions and extents at the home -/

/-- Frame number within a region of frame f of its extent e (R237). -/
def State.regionFrame (s : State) (r e f : Nat) : Nat :=
  (((s.region r).exts.takeWhile (· ≠ e)).map (fun x => (s.extent x).blocks.length * 512)).foldl (· + ·) 0 + f

/-- The home refuses a write or atomic to a published frame of a region extent, or by any partition but its home
(R239). -/
def State.frameRefuses (s : State) (p pa : Nat) : Bool :=
  match s.extentAt pa with
  | none => false
  | some (e, k) => match (s.extent e).region with
    | none => false
    | some r => (s.region r).valid && ((s.region r).home != p ||
        ((s.region r).table.look {} (s.regionFrame r e (k * 512 + pa % 0x200000 / 4096))).born.isSome)

/-- The home refuses a write of the device's own or of a host for the partition that holds the line's extent (R239). -/
def State.holderRefuses (s : State) (pa : Nat) : Bool :=
  match s.extentAt pa with
  | none => false
  | some (e, _) => s.frameRefuses (s.extent e).holder pa

/-- Partitions whose agents can hold a line: the holder of its extent and the readers of its region (R224). -/
def State.holdersOf (s : State) (pa : Nat) : List Nat :=
  match s.extentAt pa with
  | none => []
  | some (e, _) =>
    let x := s.extent e
    let readers := match x.region with
      | some r => (List.range 64).filter (fun p => (s.region r).readers.getLsbD p)
      | none => []
    x.holder :: readers.filter (· ≠ x.holder)

/-- The agents that an invalidation of an entry with OVF reaches: every VALID rank of each such partition (R224, R404). -/
def State.membersOf (s : State) (pa : Nat) : List Requester :=
  (s.holdersOf pa).flatMap (fun p => (s.part p).ranks.filterMap (fun x =>
    if x.2.valid && !x.2.dead then some (.agent (Fin.ofNat 64 p) x.1) else none))

/-- The groups that together are a partition's all-ranks group and whose trees are installed (R224, R404, R405). -/
def State.allRanks (s : State) (p : Nat) : List (Nat × Group) :=
  let x := s.part p
  s.groups.filter (fun g => decide (x.grpFirst ≤ g.1) && decide (g.1 < x.grpFirst + x.grpCount) && g.2.valid &&
    g.2.allRanks && !g.2.unicastOnly)

/-- A group selects a rank (R404). -/
def Group.has (g : Group) (rank : Nat) : Bool := decide (g.base ≤ rank) && g.mask.getLsbD (rank - g.base)

/-! ### Replies and snoops -/

/-- Sends a reply to an agent; one that the stack of a line served carries that stack's LOAD (R174). An atomic buffer
needs none. -/
def State.answer (s : State) (r : FabReq) (op : Nat) (st : Status) (word2 : Nat) (data : List Byte)
    (poison : Bool) (served : Option Nat) : State :=
  match r.who with
  | .buffer _ => s
  | .agent p _ =>
    let load := match served with | some pa => s.loadOf pa | none => 0
    let s := if 12 ≤ load then s.ownerEvent p.val 0x00C false 1 else s
    let s := if st = .notReady then s.ownerEvent p.val 0x00B false 1 else s
    s.sendReply p.val r.ld.val (mkReply s p.val r op st.code load word2 0 data poison)

/-- A reply with an error status (R220). -/
def State.refuse (s : State) (r : FabReq) (st : Status) (retry : Nat := 0) : State :=
  s.answer r opErr st (if st = .notReady then retry else 0) [] false none

/-- Word 2 of a message that names a line by its handle (R386). -/
def State.handleWord (s : State) (p line : Nat) : Nat := s.handle p line * 4096

/-- The payload unit of a forward: the requester's endpoint, rank and TAG (R387). -/
def fwdUnit (r : FabReq) : List Byte :=
  toBytes 8 r.ep ++ toBytes 8 (match r.who with | .agent _ k => k | .buffer d => d.val) ++ toBytes 8 r.tag ++
    List.replicate 40 0

/-- Sends a snoop to an agent (R220). -/
def State.snoop (s : State) (line : Nat) (q : Pend) (p rank seq : Nat) : State :=
  let fwd : Bool := q.op == opSnpFwdS || q.op == opSnpFwdX
  s.originate p (homeHalf (line * 64))
    { cls := 2, opcode := q.op, status := if q.revoked then Status.revoked.code else 0, part := p,
      srcEp := s.rnd.endpoint, dstEp := (s.rank p rank).ep, seq := seq, word2 := s.handleWord p line,
      units := b2n fwd, payload := if fwd then fwdUnit q.req else [] }

/-- Sends an invalidation by multicast to a group (R224, R406). -/
def State.snoopGroup (s : State) (line : Nat) (q : Pend) (p g seq : Nat) : State :=
  s.originate p (homeHalf (line * 64))
    { cls := 2, opcode := q.op, status := if q.revoked then Status.revoked.code else 0, part := p, mcast := true,
      esc := true, srcEp := s.rnd.endpoint, seq := seq, word2 := s.handleWord p line + g }

/-- The atomic buffer of a die answers a snoop as a clean owner: it keeps the line only for SNP_CLEAN (R233). -/
def State.bufferSnoop (s : State) (d line op : Nat) : State :=
  if op = opSnpClean then s else s.onDie d (fun x => { x with atomBuf := x.atomBuf.filter (· ≠ line) })

/-- Makes a line BUSY with a pending transaction and sends its snoops: an atomic buffer answers at once; an entry with
OVF is invalidated by multicast where a group covers the member, whose number each member then answers (R223, R224,
R234). -/
def State.beginBusy (s : State) (line : Nat) (q : Pend) (targets : List Requester) (ovf : Bool) : State :=
  let q := { q with round := s.now, await := [] }
  let s := s.onDir line (fun e => { e with st := .busy, pend := some q, heldFrom := none })
  let parts := if ovf then (s.holdersOf (line * 64)).filter (fun p => match q.kind with | .trim h => p != h | _ => true) else []
  let await := fun (s : State) (w : Requester) (seq : Nat) =>
    s.onDir line (fun e => { e with pend := e.pend.map (fun x => { x with await := x.await ++ [(w, seq)] }) })
  let s := s.each parts (fun s p => s.each (s.allRanks p) (fun s g =>
    let n := s.takeSnoopSeq p (2 ^ 24 + g.1)
    let s := n.2.snoopGroup line q p g.1 n.1
    s.each targets (fun s w => match w with
      | .buffer _ => s
      | .agent x k =>
        if x.val = p && g.2.has k && !(s.dirEnt line).pend.any (fun y => y.await.any (fun a => a.1 = w)) then await s w n.1
        else s)))
  s.each targets (fun s w => match w with
    | .buffer d => s.bufferSnoop d.val line q.op
    | .agent p k =>
      if ovf && (s.allRanks p.val).any (fun g => g.2.has k) then s else
      let n := s.takeSnoopSeq p.val (s.rank p.val k).ep
      (await n.2 w n.1).snoop line q p.val k n.1)

/-! ### What a request does at its line -/

/-- A pool request of a stroke by the model's number. -/
def State.poolReq (s : State) (id : Nat) : Option PoolReq := s.poolReqs.find? (fun q => q.id = id)

/-- A request kind that writes. -/
def PoolKind.writes : PoolKind → Bool
  | .line _ _ => false
  | .lineOut _ _ _ _ => true
  | .load _ => false
  | .store _ => true
  | .atom _ _ _ _ _ => true
  | .waitRead _ _ _ _ _ _ => false

/-- Whether a pending kind writes the line, so that every holder must give it up first (R223). -/
def State.kindWrites (s : State) : PendKind → Bool
  | .wrNc _ _ _ _ => true
  | .atomFar _ _ _ _ => true
  | .stroke id => (s.poolReq id).any (fun q => q.kind.writes)
  | .host tag => (s.host.reqs.find? (fun q => q.tag = tag)).any (·.write)
  | .evict => true
  | .publish _ => true
  | .device _ _ => true
  | _ => false

/-- The snoop that a request needs at a stable line: its opcode, the holders, the owner and whether it is an OVF
invalidation; none where it is served at once (R223). -/
def State.conflict (s : State) (line : Nat) (r : FabReq) (k : PendKind) : Option (Nat × List Requester × Option Requester × Bool) :=
  let e := s.dirEnt line
  let owns : Bool := match k with | .rdX => true | .upg => true | _ => false
  match e.st with
  | .u => none
  | .busy => none
  | .s =>
    if owns then
      if e.ovf then some (opSnpInv, s.membersOf (line * 64), none, true)
      else
        let others := e.ptrs.filter (· ≠ r.who)
        if others.isEmpty then none else some (opSnpInv, others, none, false)
    else if s.kindWrites k then
      if e.ovf then some (opSnpInv, s.membersOf (line * 64), none, true) else some (opSnpInv, e.ptrs, none, false)
    else none
  | .x =>
    match e.ptrs.head? with
    | none => none
    | some o =>
      let byBuffer : Bool := match r.who with | .buffer _ => true | _ => false
      match k with
      | .rdS => if o = r.who then none else some (opSnpFwdS, [o], some o, false)
      | .rdX => if o = r.who then none else some (if byBuffer then opSnpRecall else opSnpFwdX, [o], some o, false)
      | .upg => if o = r.who then none else some (if byBuffer then opSnpRecall else opSnpFwdX, [o], some o, false)
      | _ => if s.kindWrites k then some (opSnpRecall, [o], some o, false) else some (opSnpClean, [o], some o, false)

/-- Sets a line's state and holders; OVF and the pending transaction are cleared (R223). -/
def State.setLine (s : State) (line : Nat) (st : DirState) (ptrs : List Requester) : State :=
  s.onDir line (fun e => { e with st := st, ptrs := ptrs, ovf := false, pend := none })

/-- Adds a sharer: a fifth sets OVF and leaves the pointers (R223). -/
def DirEnt.addSharer (e : DirEnt) (w : Requester) : DirEnt :=
  if w ∈ e.ptrs then { e with st := .s }
  else if 4 ≤ e.ptrs.length then { e with st := .s, ovf := true }
  else { e with st := .s, ptrs := e.ptrs ++ [w] }

/-- A line as memory holds it: buffered writes that match are released first (R169, R170). -/
def State.fetchLine (s : State) (pa : Nat) : (List Byte × Bool) × State :=
  let s := s.drainLine pa
  (s.newLine pa, s)

/-- The new value of a word under an atomic (R228, R231, R284). -/
def atomNew (op : AtomOp) (w8 : Bool) (old operand compare : Nat) : Nat :=
  let n := if w8 then 64 else 32
  let a := old % 2 ^ n
  let b := operand % 2 ^ n
  match op with
  | .add => (a + b) % 2 ^ n
  | .cas => if a = compare % 2 ^ n then b else a
  | .max => if (BitVec.ofNat n a).slt (BitVec.ofNat n b) then b else a
  | .swap => b

/-- Bytes of an atomic's operand. -/
def atomWidth (w8 : Bool) : Nat := if w8 then 8 else 4

/-- Executes an atomic of a requester at a pool address: its status, the old value's bytes, and the state with the write
made and an answer that waits for it. One that the write-intent log records as applied gets its logged result and is not
applied again (R160, R190, R228, R231, R239). -/
def State.doAtom (s : State) (p pa : Nat) (who : Requester) (tag port : Nat) (op : AtomOp) (w8 : Bool)
    (operand compare : U64) (mk : List Byte → List Ack) : Status × List Byte × State :=
  if s.frameRefuses p pa then (.perm, [], s) else
  let r := randOf (s.mapPa pa)
  match s.mem.atoms.find? (fun x => x.who = who && x.tag = tag && x.stack = (s.slotOf pa).1 && x.rand = r) with
  | some x => (.ok, x.old, s.each (mk x.old) State.ack)
  | none =>
    let f := s.fetchLine pa
    if f.1.2 then (.poison, [], f.2) else
    let n := atomWidth w8
    let old := (f.1.1.drop (pa % 64)).take n
    let new := atomNew op w8 (ofBytes old) operand.toNat compare.toNat
    let s := f.2.onMem (fun m => { m with atoms :=
      { who := who, tag := tag, stack := (f.2.slotOf pa).1, rand := r, old := old } :: m.atoms })
    (.ok, old, s.writeLine pa (toBytes n new) (List.replicate n true) (mk old) port)

/-- A weaver's atomic on a line that its die's atomic buffer holds: it executes there and is written through (R233). -/
def State.localAtom (s : State) (d : Nat) (q : PoolReq) : State :=
  match q.kind with
  | .atom _ op w8 operand compare =>
    let line := q.pa / 64
    let s := s.onDie d (fun x => { x with atomBuf := x.atomBuf.filter (· ≠ line) ++ [line] })
    let r := s.doAtom q.part q.pa (.buffer (Fin.ofNat 4 d)) q.id (enginePort d) op w8 operand compare (fun _ => [])
    r.2.2.gotReq q.id r.1 r.2.1 false
  | _ => s

/-- Serves a stroke's pool request at its line: a read of poison outside SERVICE is a bus error (R190 to R193, R219,
R239). DESIGN CHOICE: a store of part of a line from a poisoned scratch line to a line that is marked already is taken as
R191 has it, so that the line keeps its mark and the store does not fault; R190 read alone would refuse it. -/
def State.serveStroke (s : State) (q : PoolReq) : State :=
  match q.kind with
  | .lineOut bs mask poisoned _ =>
    if s.frameRefuses q.part q.pa then s.gotReq q.id .perm [] false
    else if poisoned then
      let f := s.fetchLine q.pa
      let o := q.pa % 64
      let line := f.1.1.take o ++ bs ++ f.1.1.drop (o + bs.length)
      (f.2.writePoisoned q.pa line).gotReq q.id .ok [] false
    else if s.writeRefused q.pa mask then s.gotReq q.id .poison [] false
    else s.writeLine q.pa bs mask [.stroke q.id []] (enginePort (weaverDie q.weaver))
  | .store bs =>
    let mask := List.replicate bs.length true
    if s.frameRefuses q.part q.pa then s.gotReq q.id .perm [] false
    else if s.writeRefused q.pa mask then s.gotReq q.id .poison [] false
    else s.writeLine q.pa bs mask [.stroke q.id []] (enginePort (weaverDie q.weaver))
  | .atom _ op w8 operand compare =>
    let d := weaverDie q.weaver
    let r := s.doAtom q.part q.pa (.buffer (Fin.ofNat 4 d)) q.id (enginePort d) op w8 operand compare
      (fun old => [.stroke q.id old])
    if r.1 = .ok then r.2.2 else r.2.2.gotReq q.id r.1 [] false
  | _ =>
    let f := s.fetchLine q.pa
    if s.busError f.1.2 then f.2.gotReq q.id .poison [] false
    else f.2.gotReq q.id .ok ((f.1.1.drop (q.pa % 64)).take q.len) f.1.2

/-- Serves a host request at its line (R191, R193, R239, R441): a write with data of 64 bytes and an optional byte mask; a bus
error gives a read zeros with the poison indication. -/
def State.serveHost (s : State) (tag pa : Nat) : State :=
  match s.host.reqs.find? (fun q => q.tag = tag) with
  | none => s
  | some q =>
    let set := fun (s : State) (a : Nat × List Byte × Bool) => s.onHost (fun h =>
      { h with reqs := h.reqs.map (fun x => if x.tag = tag && x.answer.isNone then { x with answer := some a } else x) })
    if q.write then
      let mask := match q.mask with
        | none => List.replicate 64 true
        | some m => (List.range 64).map (fun i => m.getLsbD i)
      if s.holderRefuses pa then set s (Status.perm.code, [], false)
      else if s.writeRefused pa mask then set s (Status.poison.code, [], false)
      else s.writeLine pa q.data mask [.host tag] hostPort
    else
      let f := s.fetchLine pa
      set f.2 (0, if s.busError f.1.2 then List.replicate 64 0 else f.1.1, f.1.2)

/-- The partition whose agent asks. -/
def askPart (r : FabReq) : Nat := match r.who with | .agent p _ => p.val | .buffer _ => 0

/-- The line's state once a request that caches nothing is done: an owner that still holds it keeps it in X, and a line in X
or BUSY goes to U (R223). -/
def State.afterNc (s : State) (line : Nat) (st : DirState) (keep : Option Requester) : State :=
  match keep with
  | some o => s.setLine line .x [o]
  | none => if st = .busy || st = .x then s.setLine line .u [] else s

/-- The same after a request that writes, which takes a line in S from its sharers (R223). -/
def State.afterWrite (s : State) (line : Nat) (keep : Option Requester) : State :=
  let st := (s.dirEnt line).st
  if st = .s then s.setLine line .u [] else s.afterNc line st keep

/-- RD_S at its line; a bus error refuses it (R193, R223). -/
def State.applyRdS (s : State) (line : Nat) (r : FabReq) (fwd : Bool) (keep : Option Requester) : State :=
  if fwd then s.setLine line .s (keep.toList ++ [r.who])
  else
    let f := s.fetchLine (line * 64)
    if s.busError f.1.2 then (f.2.afterNc line (s.dirEnt line).st keep).refuse r .poison else
    let s := if (s.dirEnt line).st == .s then f.2.onDir line (fun e => e.addSharer r.who)
      else f.2.setLine line .s (keep.toList ++ [r.who])
    let s := s.countRead (askPart r) (line * 64) 1 0 3
    s.answer r opDataS .ok (s.handleWord (askPart r) line) f.1.1 f.1.2 (some (line * 64))

/-- The least recently used line of a full atomic buffer leaves it, and with it the directory (R233). -/
def State.bufferSpill (s : State) (d : DieId) : State :=
  match (s.die d.val).atomBuf with
  | v :: rest =>
    if rest.length < 255 then s
    else
      let s := s.onDie d.val (fun x => { x with atomBuf := rest })
      if (s.dirEnt v).st = .x && (s.dirEnt v).ptrs = [.buffer d] then s.setLine v .u [] else s
  | [] => s

/-- RD_X at its line: an agent gets the line, unless it is a bus error, and an atomic buffer holds it and does its atomic
(R193, R223, R233). -/
def State.applyRdX (s : State) (line : Nat) (r : FabReq) (fwd : Bool) : State :=
  if fwd then s.setLine line .x [r.who]
  else
    let f := s.fetchLine (line * 64)
    match r.who with
    | .agent p _ =>
      if s.busError f.1.2 then (f.2.setLine line .u []).refuse r .poison else
      let s := (f.2.setLine line .x [r.who]).countRead p.val (line * 64) 1 0 3
      s.answer r opDataX .ok (s.handleWord p.val line) f.1.1 f.1.2 (some (line * 64))
    | .buffer d =>
      let s := (f.2.setLine line .x [r.who]).bufferSpill d
      match s.poolReq r.tag with
      | some q => s.localAtom d.val q
      | none => s.onDie d.val (fun x => { x with atomBuf := x.atomBuf ++ [line] })

/-- UPG at its line (R223). -/
def State.applyUpg (s : State) (line : Nat) (r : FabReq) : State :=
  let s := s.setLine line .x [r.who]
  s.answer r opGntX .ok (s.handleWord (askPart r) line) [] false none

/-- One line of an RD_NC; the last one answers, and a bus error of a line answers for all (R193, R223). -/
def State.applyRdNc (s : State) (line : Nat) (r : FabReq) (rest : List Nat) (data : List Byte) (poison : Bool)
    (keep : Option Requester) : State × Option (Nat × PendKind) :=
  let f := s.fetchLine (line * 64)
  let s := (f.2.afterNc line (s.dirEnt line).st keep).countRead (askPart r) (line * 64) 1 0 3
  if s.busError f.1.2 then (s.refuse r .poison, none) else
  match rest with
  | l :: rest => (s, some (l, .rdNc rest (data ++ f.1.1) (poison || f.1.2)))
  | [] => (s.answer r opDataNc .ok 0 (data ++ f.1.1) (poison || f.1.2) (some (line * 64)), none)

/-- The bytes of a line that a WR_NC writes, by its byte masks (R388). -/
def ncMask : Option (List U64) → List Bool
  | none => List.replicate 64 true
  | some ms => (List.range 64).map (fun i => (ms.headD 0).getLsbD i)

/-- One line of a WR_NC: PERM at a published frame, POISON at a partial write of a poisoned line; a rand that the write has
left is released early, and the last line's answer waits for the array (R160, R191, R223, R245). -/
def State.applyWrNc (s : State) (line : Nat) (r : FabReq) (rest : List Nat) (data : List Byte)
    (masks : Option (List U64)) (st : Status) (keep : Option Requester) : State × Option (Nat × PendKind) :=
  let pa := line * 64
  let mask := ncMask masks
  let some_ := mask.any id
  let bad : Status := if s.frameRefuses (askPart r) pa then .perm
    else if some_ && s.writeRefused pa mask then .poison else .ok
  let st := if st = .ok then bad else st
  let s := s.afterWrite line keep
  let reply := mkReply s (askPart r) r opCmp st.code 0 0 0 [] false
  let writes := bad = .ok && some_
  match rest with
  | l :: rest =>
    let s := if writes then
        let s := (s.writeLine pa (data.take 64) mask [] r.link.val).countWrite (askPart r) pa 1 0 3
        let a := s.mapPa pa
        let b := s.mapPa (l * 64)
        if randOf a = randOf b && homeHalf a = homeHalf b then s else s.releaseRand (homeHalf a) (randOf a)
      else s
    (s, some (l, .wrNc rest (data.drop 64) (masks.map List.tail) st))
  | [] =>
    if writes then
      ((s.writeLine pa (data.take 64) mask [.reply r.ld.val (askPart r) pa reply] r.link.val).countWrite (askPart r) pa 1 0 3,
        none)
    else (s.sendReply (askPart r) r.ld.val reply, none)

/-- A far atomic at its line (R228, R231). -/
def State.applyAtom (s : State) (line : Nat) (r : FabReq) (op : AtomOp) (w8 : Bool) (operand compare : U64)
    (keep : Option Requester) : State :=
  let s := s.afterWrite line keep
  match r.who with
  | .agent p _ =>
    let pa := line * 64 + r.offset % 64
    let x := s.doAtom p.val pa r.who r.seq r.link.val op w8 operand compare (fun old =>
      [.reply r.ld.val p.val pa (mkReply s p.val r opAtomRsp 0 0 0 0 (old ++ List.replicate (64 - old.length) 0) false)])
    let s := x.2.2
    if x.1 = .ok then (s.countRead p.val pa 1 0 3).countWrite p.val pa 1 0 3
    else s.sendReply p.val r.ld.val (mkReply s p.val r opAtomRsp x.1.code 0 0 0 [] false)
  | .buffer _ => match s.poolReq r.tag with
    | some q => s.serveStroke q
    | none => s

/-- A stroke's request, once no agent stands against it (R219). -/
def State.applyStroke (s : State) (line : Nat) (k : PendKind) (id : Nat) (keep : Option Requester) : State :=
  let s := if s.kindWrites k then s.afterWrite line keep else s.afterNc line (s.dirEnt line).st keep
  match s.poolReq id with
  | some q => s.serveStroke q
  | none => s

/-- A host request, once no agent stands against it (R219, R441). -/
def State.applyHost (s : State) (line : Nat) (k : PendKind) (tag : Nat) (keep : Option Requester) : State :=
  (if s.kindWrites k then s.afterWrite line keep else s.afterNc line (s.dirEnt line).st keep).serveHost tag (line * 64)

/-- A region's line is taken from the agents of every partition but its home (R245, R247). -/
def State.applyTrim (s : State) (line home : Nat) : State :=
  let e := s.dirEnt line
  let mine := e.ptrs.filter (fun w => match w with | .agent p _ => p.val == home | .buffer _ => true)
  s.onDir line (fun e => { e with st := if mine.isEmpty && !e.ovf then .u else .s, ptrs := mine, pend := none })

/-- A write of the device's own, once no agent stands against it (R219, R239). -/
def State.applyDevice (s : State) (line a : Nat) (bs : List Byte) (keep : Option Requester) : State :=
  let s := s.afterWrite line keep
  let mask := List.replicate bs.length true
  if s.holderRefuses a || s.writeRefused a mask then s else (s.writeLine a bs mask []).drainLine a

/-- Completes a request at a line that no other holder stands against. `fwd`: the owner forwarded the line to the
requester; `keep`: an owner that still holds it. Answers the next line of a request of several lines (R223). -/
def State.applyReq (s : State) (line : Nat) (r : FabReq) (k : PendKind) (fwd : Bool) (keep : Option Requester) :
    State × Option (Nat × PendKind) :=
  match k with
  | .rdS => (s.applyRdS line r fwd keep, none)
  | .rdX => (s.applyRdX line r fwd, none)
  | .upg => (s.applyUpg line r, none)
  | .rdNc rest data poison => s.applyRdNc line r rest data poison keep
  | .wrNc rest data masks st => s.applyWrNc line r rest data masks st keep
  | .atomFar op w8 operand compare => (s.applyAtom line r op w8 operand compare keep, none)
  | .stroke id => (s.applyStroke line k id keep, none)
  | .host tag => (s.applyHost line k tag keep, none)
  | .evict =>
    (s.onDir line (fun e =>
      { e with st := .u, ptrs := [], ovf := false, pend := none, pred := 2, used := 0, backed := false }), none)
  | .publish _ => (s.setLine line .u [], none)
  | .clean =>
    let s := s.afterNc line (s.dirEnt line).st keep
    (if keep.isSome then s.onDir line (fun e => { e with fresh := s.now + 2 }) else s, none)
  | .trim home => (s.applyTrim line home, none)
  | .device a bs => (s.applyDevice line a bs keep, none)

/-- Completes the pending transaction of a BUSY line whose answers are all in (R223). -/
def State.finish (s : State) (line : Nat) : State × Option (Nat × FabReq × PendKind) :=
  match (s.dirEnt line).pend with
  | none => (s, none)
  | some q =>
    let keep := if q.op = opSnpFwdS || q.op = opSnpClean then q.owner else none
    let x := s.applyReq line q.req q.kind q.forwarded keep
    (x.1, x.2.map (fun y => (y.1, q.req, y.2)))

/-- An UPG that does not come from a pointer of a line in S without OVF is served as an RD_X (R223). -/
def State.upgOr (s : State) (line : Nat) (r : FabReq) (k : PendKind) : PendKind :=
  match k with
  | .upg => if (s.dirEnt line).st = .s && r.who ∈ (s.dirEnt line).ptrs && !(s.dirEnt line).ovf then .upg else .rdX
  | k => k

/-- Serves a request line by line: at a BUSY line it waits; where holders stand against it the line becomes BUSY and
their snoops leave; otherwise it is done at once (R219, R223). -/
def State.drive : Nat → State → Nat → FabReq → PendKind → State
  | 0, s, _, _, _ => s
  | n + 1, s, line, r, k =>
    if (s.dirEnt line).st = .busy then s.onDir line (fun e => { e with waiting := e.waiting ++ [(r, k)] })
    else
      let k := s.upgOr line r k
      match s.conflict line r k with
      | none => match s.applyReq line r k false none with
        | (s, none) => s
        | (s, some (l, k)) => s.drive n l r k
      | some (op, targets, owner, ovf) =>
        let s := s.beginBusy line { kind := k, req := r, op := op, owner := owner } targets ovf
        if (s.dirEnt line).pend.all (fun q => q.await.isEmpty) then
          match s.finish line with
          | (s, none) => s
          | (s, some (l, r, k)) => s.drive n l r k
        else s

/-- Lines that one request can name (R388), and one more. -/
def driveFuel : Nat := 20

/-- Serves a request from its line on. -/
def State.run (s : State) (line : Nat) (r : FabReq) (k : PendKind) : State := s.drive driveFuel line r k

/-! ### Tokens (R225, R226) -/

/-- Home slice of a line (R215). -/
def State.sliceOf (_s : State) (line : Nat) : Nat :=
  primaryDie (10 * homeHalf (line * 64) + unitStack (randOf (line * 64)) (unitOf (line * 64)))

/-- Takes a free credit of a slice: its token (R225). -/
def State.takeCredit (s : State) (slice : Nat) : Option (Nat × State) :=
  match (List.range 4096).find? (fun i => !decide (i ∈ (s.die slice).tokens)) with
  | none => none
  | some i => some (i + (s.die slice).tokenGen * 4096,
      s.onDie slice (fun d => { d with tokens := setAdd d.tokens i, tokenGen := (d.tokenGen + 1) % 16 }))

/-- Removes a token from its line and releases its credit (R226). -/
def State.dropToken (s : State) (line : Nat) (t : Token) : State :=
  let s := s.onDir line (fun e => { e with tokens := e.tokens.erase t, heldFrom := none })
  if t.token < 65536 then s.onDie (s.sliceOf line) (fun d => { d with tokens := setDel d.tokens (t.token % 4096) }) else s

/-- Answers a request with NACK and a token: the one it holds, or a new one. With no free credit an agent's request
waits in the fabric, unanswered, and an atomic buffer's waits at the line without one (R225, R226). -/
def State.nack (s : State) (line : Nat) (r : FabReq) : State :=
  let slice := s.sliceOf line
  let held := (s.dirEnt line).tokens.find? (fun t => t.who = r.who && r.token = some t.token)
  let send := fun (s : State) (t : Nat) => match r.who with
    | .buffer _ => s
    | .agent p _ =>
      let s := (s.ownerEvent p.val 0x00A false 1).opEvent 0x108 { pa := some (line * 64), part := some p.val }
      s.sendReply p.val r.ld.val (mkReply s p.val r opNack Status.busyRetry.code 0 1 t [] false)
  match held with
  | some t => send s t.token
  | none =>
    match s.takeCredit slice with
    | some (t, s) =>
      let s := s.onDir line (fun e => { e with tokens := e.tokens ++ [{ token := t, who := r.who, id := r.tag }] })
      send s t
    | none => match r.who with
      | .buffer _ => s.onDir line (fun e =>
          { e with tokens := e.tokens ++ [{ token := 65536, who := r.who, id := r.tag }] })
      | .agent _ _ => s

/-- The line is held for a token that is not the request's, or is BUSY, so that the request is answered with NACK
(R225, R226). -/
def DirEnt.mustNack (e : DirEnt) (r : FabReq) : Bool :=
  e.st == .busy || (match e.tokens with
    | [] => false
    | t :: _ => !(t.who == r.who && r.token == some t.token))

/-- The request presents the line's oldest token, which it gives up (R226). -/
def State.useToken (s : State) (line : Nat) (r : FabReq) : State :=
  match (s.dirEnt line).tokens with
  | [] => s
  | t :: _ => if t.who = r.who && r.token = some t.token then s.dropToken line t else s

/-- An ATOM at a stable line: the predictor moves first, then the home executes it or grants ownership (R230). -/
def State.atomServe (s : State) (line : Nat) (r : FabReq) (op : AtomOp) (w8 : Bool) (operand compare : U64) : State :=
  let e := s.dirEnt line
  let contended : Bool := (e.st == .s && (e.ovf || e.ptrs.any (· ≠ r.who))) || (e.st == .x && e.ptrs.head? ≠ some r.who) ||
    !e.tokens.isEmpty
  let pred := if contended then min 3 (e.pred + 1) else e.pred - 1
  let s := s.onDir line (fun e => { e with pred := pred })
  if 2 ≤ pred then s.run line r (.atomFar op w8 operand compare) else s.run line r .rdX

/-- A weaver's atomic that its buffer's line cannot serve, as the ATOM of its die's buffer (R233). -/
def State.atomRetry (s : State) (line : Nat) (id : Nat) (d : DieId) : State :=
  match s.poolReq id with
  | none => s
  | some q => match q.kind with
    | .atom _ op w8 operand compare =>
      s.atomServe line { who := .buffer d, tag := id, offset := q.pa } op w8 operand compare
    | _ => s

/-- Serves what waits at a line that has left BUSY: the non-caching accesses in order, then the oldest token, for which
the line is held (R219, R226). -/
def State.settle : Nat → State → Nat → State
  | 0, s, _ => s
  | n + 1, s, line =>
    let e := s.dirEnt line
    if e.st = .busy then s else
    match e.waiting with
    | (r, k) :: rest => ((s.onDir line (fun e => { e with waiting := rest })).run line r k).settle n line
    | [] => match e.tokens with
      | [] => if e.heldFrom.isSome then s.onDir line (fun e => { e with heldFrom := none }) else s
      | t :: _ => match t.who with
        | .buffer d => ((s.dropToken line t).atomRetry line t.id d).settle n line
        | .agent _ _ => if e.heldFrom.isNone then s.onDir line (fun e => { e with heldFrom := some s.now }) else s

/-- Settles a line completely. -/
def State.settleLine (s : State) (line : Nat) : State :=
  s.settle ((s.dirEnt line).waiting.length + (s.dirEnt line).tokens.length + 1) line

/-- Serves a request of a device's own or of a stroke at a line, and what then waits there. -/
def State.access (s : State) (line : Nat) (r : FabReq) (k : PendKind) : State := (s.run line r k).settleLine line

/-- The answers of a pending transaction are all in: it completes, goes on with its next line, and what waits is served
(R223, R226). -/
def State.resume (s : State) (line : Nat) : State :=
  if (s.dirEnt line).pend.any (fun q => q.await.isEmpty && !q.wbWait) then
    match s.finish line with
    | (s, none) => s.settleLine line
    | (s, some (l, r, k)) => (s.run l r k).settleLine line
  else s

/-- A holder's answer is in (R223). -/
def State.answered1 (s : State) (line : Nat) (who : Requester) : State :=
  (s.onDir line (fun e => { e with pend := e.pend.map (fun q => { q with await := q.await.filter (fun x => x.1 ≠ who) }) })).resume
    line

/-- The home awaits an answer of this holder at this line. -/
def State.awaits (s : State) (line : Nat) (who : Requester) : Bool :=
  (s.dirEnt line).st == .busy && (s.dirEnt line).pend.any (fun q => q.await.any (fun x => x.1 = who))

/-- A line that an owner returned is written to memory, with its mark (R191, R223). -/
def State.putLine (s : State) (line : Nat) (data : List Byte) (poison : Bool) : State :=
  if poison then s.writePoisoned (line * 64) data
  else s.writeLine (line * 64) data (List.replicate data.length true) []

/-! ### Directory capacity (R216) -/

/-- The least recently used of some entries; one in U that holds only a predictor value before any other (R216). -/
def victim (l : List (Nat × DirEnt)) : Option (Nat × DirEnt) :=
  let u := l.filter (fun x => x.2.st == .u && x.2.tokens.isEmpty)
  (if u.isEmpty then l else u).foldl (fun b x => match b with
    | none => some x
    | some y => if x.2.used < y.2.used then some x else some y) none

/-- A request uses a line's entry: a new or backed entry comes into the SRAM, whose least recently used entry goes to
the backing, whose least recently used entry is evicted with its snoops (R216). DESIGN CHOICE: an entry of the backing that is
BUSY already is passed by, and one that keeps retry tokens is evicted as its STATE says. -/
def State.useLine (s : State) (part line : Nat) : State :=
  let e := s.dirEnt line
  let s := { s with dirUse := s.dirUse + 1 }
  let s := if e.used ≠ 0 && e.backed then s.opEvent 0x107 { pa := some (line * 64), part := some part } else s
  let stamp := s.dirUse
  let s := s.onDir line (fun e => { e with used := stamp, backed := false })
  if e.used ≠ 0 && !e.backed then s else
  let h := homeHalf (line * 64)
  let mates := List.filter (fun (x : Nat × DirEnt) => decide (x.1 ≠ line) && x.2.used != 0 && !x.2.backed &&
    decide (s.sliceOf x.1 = s.sliceOf line) && decide (Config.sramSet x.1 = Config.sramSet line)) s.dir
  if mates.length < 16 then s else
  match victim mates with
  | none => s
  | some (k, v) =>
    if v.st = .u && v.tokens.isEmpty then s.onDir k (fun e => { e with used := 0, backed := false, pred := 2 }) else
    let s := (s.onDir k (fun e => { e with backed := true })).metaWrite h 32
    let back := List.filter (fun (x : Nat × DirEnt) => decide (x.1 ≠ k) && x.2.used != 0 && x.2.backed &&
      decide (homeHalf (x.1 * 64) = h) && decide (Config.backSet x.1 = Config.backSet k)) s.dir
    if back.length < 16 then s else
    match victim (back.filter (fun x => x.2.st != .busy)) with
    | none => s
    | some (k, _) => s.access k {} .evict

/-- A non-caching access uses its line's entry where there is one (R216, R219). -/
def State.hitLine (s : State) (part line : Nat) : State :=
  if (s.dirEnt line).used = 0 then s else s.useLine part line

/-- A non-caching access of a partition's request at its line (R216, R219). -/
def State.ncAccess (s : State) (part line : Nat) (r : FabReq) (k : PendKind) : State := (s.hitLine part line).access line r k

/-! ### Requests -/

/-- A request of an agent that asks for a copy: NACKed at a BUSY or held line, otherwise served (R223, R225, R226). -/
def State.cohRequest (s : State) (line : Nat) (r : FabReq) (k : PendKind) : State :=
  if (s.dirEnt line).mustNack r then s.nack line r
  else
    let part := match r.who with | .agent p _ => p.val | .buffer _ => 0
    (((s.useToken line r).useLine part line).run line r k).settleLine line

/-- An ATOM of an agent or atomic buffer (R225, R230). -/
def State.atomRequest (s : State) (line : Nat) (r : FabReq) (op : AtomOp) (w8 : Bool) (operand compare : U64) : State :=
  if (s.dirEnt line).mustNack r then s.nack line r
  else
    let part := match r.who with | .agent p _ => p.val | .buffer _ => 0
    (((s.useToken line r).useLine part line).atomServe line r op w8 operand compare).settleLine line

/-- A weaver's atomic: in its die's buffer where that owns the line, otherwise as an ATOM to the home (R233). -/
def State.weaverAtom (s : State) (q : PoolReq) : State :=
  let d : DieId := Fin.ofNat 4 (weaverDie q.weaver)
  let line := q.pa / 64
  let e := s.dirEnt line
  if decide (line ∈ (s.die d.val).atomBuf) && e.st == .x && e.ptrs == [.buffer d] then s.localAtom d.val q
  else match q.kind with
    | .atom _ op w8 operand compare => s.atomRequest line { who := .buffer d, tag := q.id, offset := q.pa } op w8 operand compare
    | _ => s

/-- Serves a pool request of a stroke at its home (R19, R219, R233). -/
def State.serveHome (s : State) (q : PoolReq) : State :=
  if s.halfDead (homeHalf q.pa) then s.gotReq q.id .deadAgent [] false
  else if s.cutOff (weaverHalf q.weaver) q.pa then s.gotReq q.id .fenced [] false else
  match q.kind with
  | .atom _ _ _ _ _ => s.weaverAtom q
  | k =>
    let s := if k.writes then s.countWrite q.part q.pa 1 1 3 else s.countRead q.part q.pa 1 1 3
    s.ncAccess q.part (q.pa / 64) {} (.stroke q.id)

/-! ### The pseudo-channel scheduler (R163, R166) -/

/-- What the scheduler of a pseudo-channel compares of a candidate (R166). -/
structure Cand where
  /-- R165: urgency. -/
  urgency : Nat := 0
  /-- R166: a write. -/
  write : Bool := false
  /-- R166: its row is open. -/
  hit : Bool := false
  /-- R164: deadline, in units of 10 ns. -/
  deadline : Nat := 0
  /-- R166, R312: 6 bits; port, which also is the order of ties. -/
  port : Nat := 0
  deriving DecidableEq, Repr

/-- One candidate goes before another: the higher urgency; in write drain mode the write; the row hit; the older deadline;
the lower port (R166). -/
def Cand.before (drain : Bool) (a b : Cand) : Bool :=
  if a.urgency ≠ b.urgency then decide (b.urgency < a.urgency)
  else if drain && a.write != b.write then a.write
  else if a.hit != b.hit then a.hit
  else if a.deadline ≠ b.deadline then decide (a.deadline < b.deadline)
  else decide (a.port < b.port)

/-- A candidate that entered at a time through a port, for a line whose bank's row may be open. -/
def State.candOf (s : State) (enter port : Nat) (write : Bool) (b : BankId × Nat) : Cand :=
  { urgency := s.urgency enter port, write := write, hit := (s.bankSt b.1).row == some (b.2 / 4)
    deadline := enter + s.target port, port := port }

/-- A queued stroke request as a candidate. -/
def State.reqCand (s : State) (q : PoolReq) : Cand :=
  s.candOf q.enter (enginePort (weaverDie q.weaver)) false (s.bankOf q.pa)

/-- A queued parity write as a candidate. -/
def State.deltaCand (s : State) (d : Delta) : Cand :=
  s.candOf d.enter d.port true (slotBank (s.deltaSlot d).1 d.rand)

/-- What the scheduler can issue: a stroke's request, or the parity update of a rand. -/
inductive Slot where
  | req (q : PoolReq)
  | parity (h r : Nat)
  deriving DecidableEq, Repr

/-- The pseudo-channel is in write drain mode (R166). -/
def State.drains (s : State) (x : Nat × Nat) : Bool := (s.stack x.1).drain.getLsbD x.2

/-- What a pseudo-channel issues next, with its candidate (R166). -/
def State.pick (s : State) (x : Nat × Nat) : Option (Cand × Slot) :=
  let all := (s.writeQueue x).map (fun d => (s.deltaCand d, Slot.parity d.half d.rand)) ++
    (s.readQueue x).map (fun q => (s.reqCand q, Slot.req q))
  all.foldl (fun b c => match b with
    | none => some c
    | some y => if c.1.before (s.drains x) y.1 then some c else b) none

/-- Write drain mode begins at 28 queued writes and ends at 16 (R166). -/
def State.noteDrain (s : State) (x : Nat × Nat) : State :=
  let n := (s.writeQueue x).length
  let on := if 28 ≤ n then true else if n ≤ 16 then false else s.drains x
  if on = s.drains x then s
  else s.onStack x.1 (fun k => { k with drain := if on then k.drain ||| (1 <<< x.2) else k.drain &&& ~~~((1 : BitVec 32) <<< x.2) })

/-- A request that reaches its deadline unserved counts as it is issued (R165, R541). -/
def State.countUrgent (s : State) (urgency pa src part : Nat) : State :=
  if urgency = 3 then s.opEvent 0x103 { source := some src, pa := some pa, part := some part } else s

/-- Issues a stroke's request: its credit returns and its home serves it (R163, R166, R168). -/
def State.issueReq (s : State) (q : PoolReq) : State :=
  let s := s.countUrgent (s.reqCand q).urgency q.pa 1 q.part
  let s : State := { s with poolReqs := s.poolReqs.map (fun x => if x.id = q.id then { x with stage := .issued } else x) }
  ((s.useRow q.pa 1 q.hint).serveHome { q with stage := .issued }).giveCredits

/-- Issues what the scheduler picked. -/
def State.issue (s : State) (x : Nat × Nat) : Slot → State
  | .req q => s.issueReq q
  | .parity h r =>
    let st := 10 * h + s.unitAt h r 8
    ((s.onMem (fun m => m.applyDeltas h r)).useSlot (slotBank st r) (randPa h r) 7 false).noteDrain x

/-- Everything that goes before a request which comes now is issued first (R166). -/
def State.turn : Nat → State → Nat × Nat → Cand → State
  | 0, s, _, _ => s
  | n + 1, s, x, me => match s.pick x with
    | some (c, y) => if c.before (s.drains x) me then (s.issue x y).turn n x me else s
    | none => s

/-- What a pseudo-channel holds at most, for the steps of the scheduler. -/
def State.queued (s : State) : Nat := s.poolReqs.length + s.mem.deltas.length

/-- A request that comes now through a port for a line takes its turn and its row (R166, R168). -/
def State.takeTurn (s : State) (pa src port : Nat) (write hint : Bool) : State :=
  let x := s.slotOf pa
  ((s.noteDrain x).turn s.queued x (s.candOf s.clock port write (s.bankOf pa))).useRow pa src hint

/-- The scheduler runs until a stroke's request has been issued; one that its port holds, or whose half is in self-refresh,
waits (R160, R163, R166, R177). -/
def State.serveTo : Nat → State → Nat → State
  | 0, s, _ => s
  | n + 1, s, id => match s.poolReq id with
    | none => s
    | some q =>
      if q.stage = .issued || q.stage = .engine || s.portHeld q.pa || s.asleepHalf (homeHalf q.pa) then s else
      let x := s.slotOf q.pa
      match s.pick x with
      | none => s.giveCredits.serveTo n id
      | some (_, y) => (s.issue x y).serveTo n id

/-- The scheduler runs until a stroke's request has been issued. -/
def State.serveReq (s : State) (id : Nat) : State := s.serveTo (2 * s.queued + 2) id

/-- Earlier requests of a stroke that read a line are issued before a write of the stroke to it. -/
def State.readsFirst (s : State) (sid pa : Nat) : State :=
  s.each (s.poolReqs.filter (fun q => q.sid = sid && q.stage != .issued && !q.kind.writes && q.pa / 64 = pa / 64))
    (fun s q => s.serveReq q.id)

/-- A pool request of a stroke enters its controller: a read or atomic joins its queue, or waits at its port for a credit; a
write passes on to its rand's parity engine at once, unless its port holds it (R160, R163, R169, R175, R177). -/
def State.strokeRequest (s : State) (q : PoolReq) : State :=
  let s := s.touch q.pa
  let plain : Bool := match q.kind with | .atom _ _ _ _ _ => false | k => k.writes
  if s.portHeld q.pa || s.asleepHalf (homeHalf q.pa) then s
  else if plain then (s.readsFirst q.sid q.pa).issueReq q
  else s.giveCredits

/-- A kind of request holds one of the stream engine's read entries, not a write entry (R349). -/
def PoolKind.takesRead : PoolKind → Bool
  | .lineOut _ _ _ _ => false
  | .store _ => false
  | _ => true

/-- The stream engine of a weaver has an entry for a request: 2,048 for reads and 512 for writes (R349). -/
def State.engineRoom (s : State) (w : Nat) (k : PoolKind) : Bool :=
  let used := s.poolReqs.filter (fun q => q.weaver = w && q.stage != .engine && q.kind.takesRead == k.takesRead)
  decide (used.length < if k.takesRead then 2048 else 512)

/-- Requests that wait in a weaver's stream engine pass to the port in order, while there are entries (R270, R349). -/
def State.engineGo (s : State) (w : Nat) : Nat → State
  | 0 => s
  | n + 1 => match s.poolReqs.find? (fun q => q.weaver = w && q.stage == .engine) with
    | none => s
    | some q =>
      if !s.engineRoom w q.kind then s else
      let s : State := { s with poolReqs := s.poolReqs.map (fun x => if x.id = q.id then { x with stage := .port } else x) }
      (s.strokeRequest { q with stage := .port }).engineGo w n

/-- The stream engine that a request waits in goes on, before its answer (R349). -/
def State.advance (s : State) (id : Nat) : State := match s.poolReq id with
  | some q => if q.stage = .engine then s.engineGo q.weaver s.poolReqs.length else s
  | none => s

/-- Ports send what they held, in order: writes pass on, and reads and atomics take credits (R160, R161, R177, R203). -/
def State.resendHeld (s : State) : State :=
  s.each (s.poolReqs.filter (fun q => q.stage == .port)) (fun s q => s.strokeRequest q)

/-- Every queued request of a half that has reached urgency 1 is issued ahead of bulk work (R164, R166, R212). -/
def State.serveUrgent (s : State) (h : Nat) : State :=
  s.each (s.poolReqs.filter (fun q => q.stage == .queued && homeHalf q.pa == h &&
    decide (0 < (s.reqCand q).urgency))) (fun s q => s.serveReq q.id)

/-- Writes bytes of the device's own (completion records, queue words, reports) at their lines' homes. -/
def State.deviceWrite (s : State) (pa : Nat) (bs : List Byte) : State :=
  let n := bs.length
  let ls := linesOf pa n
  s.each ls (fun s l =>
    let lo := max pa (l * 64)
    let hi := min (pa + n) (l * 64 + 64)
    s.ncAccess (((s.extentAt lo).map (fun x => (s.extent x.1).holder)).getD 0) l {} (.device lo ((bs.drop (lo - pa)).take (hi - lo))))

/-- Asks the owner of a line to return it and keep it, where one stands (R114, R219, R223). DESIGN CHOICE: what it returned
is what the device's own reads of the line take in that round and the next, since such a read is tried again as a whole
after the answer and does not stand in the slice's queue itself. -/
def State.cleanLine (s : State) (pa : Nat) : State :=
  match (s.dirEnt (pa / 64)).st with
  | .x => if s.now < (s.dirEnt (pa / 64)).fresh then s else s.access (pa / 64) {} .clean
  | _ => s

/-- An agent or a transaction holds some line of n bytes, so that a read of them must wait. -/
def State.heldAway (s : State) (pa n : Nat) : Bool :=
  (linesOf pa n).any (fun l =>
    ((s.dirEnt l).st == .x && decide ((s.dirEnt l).fresh ≤ s.now)) || (s.dirEnt l).st == .busy)

/-- Asks back every owned line of n bytes. -/
def State.cleanLines (s : State) (pa n : Nat) : State :=
  s.each (linesOf pa n) (fun s l => s.cleanLine (l * 64))

end Sys2Proof.Machine
end

