-- ==== Sys2Proof/Machine/Translate.lean ====
section
/-! DEFINITION. Translation: extents held, the page walk of R111 with its outcomes, retry-after counts, and the pieces
of a range (R76, R77, R108 to R113, R126 to R128, R148, R239). -/
namespace Sys2Proof.Machine

/-! ### Rounds -/

/-- Rounds that scrub needs for a block at the length in force (R144). -/
def RoundSt.blockSlices (r : RoundSt) : Nat := 8 / r.micros

/-! ### Regions seen by a translation -/

/-- A frame is live in a version (R238). -/
def Frame.live (x : Frame) (v : Nat) : Bool :=
  match x.born with
  | none => false
  | some b => decide (b ≤ v) && (match x.died with | none => true | some d => decide (v < d))

/-- The versions of a region that a partition has pinned (R241). -/
def State.pinnedVersions (s : State) (p r : Nat) : List Nat :=
  ((s.part p).pins.filter (fun e => e.2.held && e.2.region == r)).map (fun e => e.2.version)

/-- How a partition stands to an extent (R111, R239). -/
inductive Holding where
  | held | reader (region : Nat) | last | no | destroying
  deriving DecidableEq, Repr

/-- How partition p stands to extent e: held; held with the read right through a pin on its region, which a revocation of
the extent or a destruction of the region ends; last holder; or neither (R111, R136, R143, R239, R247). -/
def State.holding (s : State) (e p : Nat) : Holding :=
  let x := s.extent e
  if x.st = .active && x.holder = p then .held
  else
    let viaRegion : Option Nat := match x.region with
      | some r => if (s.region r).valid && (s.region r).readers.getLsbD p && !(s.pinnedVersions p r).isEmpty then some r
          else none
      | none => none
    match viaRegion with
    | some r => if x.st ≠ .active || (s.region r).destroying.isSome then .destroying else .reader r
    | none => if x.lhValid && x.lastHolder = p then .last else .no

/-- A reader's frame: live in one of its pinned versions (R239). -/
def State.readerMay (s : State) (p r e f : Nat) : Bool :=
  let fr := (s.region r).table.look {} (s.regionFrame r e f)
  (s.pinnedVersions p r).any fr.live

/-! ### The walk -/

/-- Fields of a page-table entry (R109). -/
structure Pte where
  v : Bool
  rd : Bool
  wr : Bool
  at_ : Bool
  leaf : Bool
  rb : Bool
  rsvd : Bool
  ext : Nat
  frame : Nat
  remote : Nat
  deriving DecidableEq, Repr

/-- Reads an entry's fields (R109). -/
def pteOf (w : U64) : Pte :=
  { v := bit w 0, rd := bit w 1, wr := bit w 2, at_ := bit w 3, leaf := bit w 4, rb := bit w 5,
    rsvd := bits w 11 6 != 0 || bit w 54, ext := bits w 25 12, frame := bits w 53 26, remote := bits w 63 55 }

/-- The block-list entry and the byte offset in its block of a frame of an extent (R106, R107). -/
def State.frameBlock (s : State) (e f : Nat) : Option BlockEnt := (s.extent e).blocks[f / 512]?

/-- Pool address of a frame of an extent; the caller has tested the size. -/
def State.framePa (s : State) (e f : Nat) : Nat :=
  match s.frameBlock e f with
  | some b => blockPa b.block + f % 512 * 4096
  | none => 0

/-- The holding and size tests of R111 on the frames an entry names; none when they pass. -/
def State.extTests (s : State) (p e f n level : Nat) : Option WalkOut :=
  let size := if (s.extent e).blocks.length * 512 < f + n then some (WalkOut.fault 4 level) else none
  match s.holding e p with
  | .no => some (.fault 5 level)
  | .last => some .revoked
  | .destroying => some .revoked
  | .reader _ => size
  | .held => size

/-- A partition reads a frame as a reader of its region, that is live in none of its pinned versions (R239). -/
def State.frameHidden (s : State) (p e f : Nat) : Bool :=
  match s.holding e p with
  | .reader r => !s.readerMay p r e f
  | _ => false

/-- The certification test of R111 on a frame: uncertified, lost (R147) or passed. -/
def State.certTest (s : State) (e f : Nat) : Option WalkOut :=
  match s.frameBlock e f with
  | none => some (.fault 4 0)
  | some b => if b.lost then some .poison else if b.cert then none else some (.notReady e (f / 512))

/-- Whether a coherent read of a line must wait: its half's dies have failed, the half is in self-refresh, ports hold
their requests for it, or an agent owns the line or a transaction is pending on it (R19, R114, R160, R177, R203, R219). -/
def State.fetchBlocked (s : State) (pa : Nat) : Option WalkOut :=
  if s.halfDead (homeHalf pa) then some .dead
  else if s.asleepHalf (homeHalf pa) || s.portHeld pa then some (.blocked pa)
  else match (s.dirEnt (pa / 64)).st with
    | .x => if s.now < (s.dirEnt (pa / 64)).fresh then none else some (.blocked pa)
    | .busy => some (.blocked pa)
    | _ => none

/-- Frames of a page at a level (R108). -/
def levelFrames (level : Nat) : Nat := 512 ^ (level - 1)

/-- What the look-up of a REMOTE entry finds: it is valid, it is not, or it ends as a walk does. -/
inductive RemoteOut where
  | valid | invalid | other (o : WalkOut)
  deriving DecidableEq, Repr

/-- The walk of R111 from a table frame on: `e` and `f` name the table frame of this level, whose own tests are made
first; `named` is the level of the entry that named it (R112); `rv` looks up a remote-source entry. -/
def State.walkFrom (s : State) (p pva : Nat) (need : Rights) (rv : Nat → RemoteOut) :
    Nat → Nat → Nat → Nat → Rights → WalkOut
  | 0, _, _, _, _ => .fault 2 0
  | level + 1, e, f, named, have_ =>
    match s.extTests p e f 1 named with
    | some o => o
    | none =>
      if !have_.r || s.frameHidden p e f then .perm else
      match s.certTest e f with
      | some o => o
      | none =>
        let epa := s.framePa e f + (pva / (4096 * 512 ^ level) % 512) * 8
        match s.fetchBlocked epa with
        | some o => o
        | none =>
          let r := s.readWord epa
          if r.2 then .poison else
          let t := pteOf r.1
          let l := level + 1
          let n := levelFrames l
          if !t.v then .fault 0 l
          else if t.rsvd || (t.remote ≠ 0 && !t.rb) then .fault 1 l
          else if (l = 4 && t.leaf) || (l = 1 && !t.leaf) then .fault 2 l
          else if t.leaf && t.frame % n ≠ 0 then .fault 3 l
          else
            let rights : Rights := { r := have_.r && t.rd, w := have_.w && t.wr, a := have_.a && t.at_ }
            if t.leaf then
              match s.extTests p t.ext t.frame n l with
              | some o => o
              | none =>
                if t.rb && l = 3 then .fault 6 l else
                match if t.rb then rv t.remote else .valid with
                | .invalid => .fault 6 l
                | .other o => o
                | .valid =>
                  let asReader : Bool := match s.holding t.ext p with | .reader _ => true | _ => false
                  if (need.r && !rights.r) || (need.w && (!rights.w || asReader)) || (need.a && (!rights.a || asReader))
                  then .perm
                  else
                    let fr := t.frame + pva / 4096 % n
                    if s.frameHidden p t.ext fr then .perm else
                    match s.certTest t.ext fr with
                    | some (.fault _ _) => .fault 4 l
                    | some o => o
                    | none =>
                      if t.rb then .migrate epa r.1.toNat t.ext (n * 4096)
                      else .pa (s.framePa t.ext fr + pva % 4096) t.ext (if asReader then 4096 else n * 4096)
            else if t.rb then
              match s.extTests p t.ext t.frame 1 l with
              | some o => o
              | none => .fault 6 l
            else s.walkFrom p pva need rv level t.ext t.frame l rights

/-- The table walk from the root extent's frame 0 (R100, R108, R113). DESIGN CHOICE: an address of 2^48 or more, for which
the spec gives no cause, is one that no entry maps, with cause 0 at level 4. -/
def State.tableWalk (s : State) (p pva : Nat) (need : Rights) (rv : Nat → RemoteOut) : WalkOut :=
  match (s.part p).root with
  | none => .fault 5 4
  | some e => if 2 ^ 48 ≤ pva then .fault 0 4 else s.walkFrom p pva need rv 4 e 0 4 { r := true, w := true, a := true }

/-- An entry of the remote-source table (R125). -/
structure Remote where
  valid : Bool
  ep : Nat
  window : Nat
  rank : Nat
  pvaBase : Nat
  offset : Nat
  deriving DecidableEq, Repr

/-- PVA of entry i of a partition's remote-source table (R100). -/
def State.remotePva (s : State) (p i : Nat) : Nat := (s.part p).remoteBase + 32 * i

/-- The walk of entry i of a partition's remote-source table, through the partition's own tables, and the read of its
line (R100, R114). -/
def State.remoteWalk (s : State) (p i : Nat) : WalkOut :=
  match s.tableWalk p (s.remotePva p i) { r := true } (fun _ => .invalid) with
  | .pa a e n => match s.fetchBlocked a with
    | some o => o
    | none => if (s.readPool a 32).2 then .poison else .pa a e n
  | o => o

/-- A remote-source table entry at a pool address (R125); none where a reserved bit of it is set, the unused high bits of
SRC_RANK among them (R11). An entry whose peer no key slot names counts as not valid (R478). -/
def State.remoteAt (s : State) (p a : Nat) : Option Remote :=
  let w0 := (s.readWord a).1
  let w1 := (s.readWord (a + 8)).1
  let w2 := (s.readWord (a + 16)).1
  let w3 := (s.readWord (a + 24)).1
  if bits w0 7 1 ≠ 0 || bits w0 63 58 ≠ 0 || bits w0 31 28 ≠ 0 || bits w1 63 48 ≠ 0 || bits w2 63 48 ≠ 0 || w3 ≠ 0
  then none
  else some { valid := bit w0 0 && (s.part p).peerKeys.any (fun k => k.2.loaded && k.2.ep = bits w0 31 8), ep := bits w0 31 8, window := bits w0 43 32, rank := bits w0 57 44,
              pvaBase := bits w1 47 0, offset := bits w2 47 0 }

/-- Entry i of a partition's remote-source table (R100, R125); none where it does not translate. -/
def State.remoteEntry (s : State) (p i : Nat) : Option Remote :=
  match s.remoteWalk p i with
  | .pa a _ _ => s.remoteAt p a
  | _ => none

/-- The look-up of a REMOTE entry in a walk (R111). An entry that does not translate is not valid; one whose own walk or
read waits, or meets poison or a dead half, ends the walk so. -/
def State.remoteOut (s : State) (p i : Nat) : RemoteOut :=
  match s.remoteWalk p i with
  | .pa a _ _ => if (s.remoteAt p a).any (·.valid) then .valid else .invalid
  | .blocked a => .other (.blocked a)
  | .notReady e k => .other (.notReady e k)
  | .poison => .other .poison
  | .dead => .other .dead
  | _ => .invalid

/-- A walk (R111); a remote-backed leaf's REMOTE entry is looked up in the partition's remote-source table. -/
def State.walk (s : State) (p pva : Nat) (need : Rights) : WalkOut := s.tableWalk p pva need (s.remoteOut p)

/-! ### What a walk fetches (R114 to R116) -/

/-- A table entry that a walk fetches: its level and pool address, the extent and frame it names, and the rights down to
it. -/
structure Fetch where
  level : Nat := 0
  pa : Nat := 0
  ext : Nat := 0
  frame : Nat := 0
  leaf : Bool := false
  rights : Rights := {}
  deriving DecidableEq, Repr

/-- The entries that the walk of an address fetches from a table frame on (R111, R114). -/
def State.fetchesFrom (s : State) (p pva : Nat) : Nat → Nat → Nat → Rights → List Fetch
  | 0, _, _, _ => []
  | level + 1, e, f, have_ =>
    let epa := s.framePa e f + (pva / (4096 * 512 ^ level) % 512) * 8
    if (s.extTests p e f 1 level).isSome || !have_.r || s.frameHidden p e f || (s.certTest e f).isSome ||
        (s.fetchBlocked epa).isSome then [] else
    let r := s.readWord epa
    let t := pteOf r.1
    let rights : Rights := { r := have_.r && t.rd, w := have_.w && t.wr, a := have_.a && t.at_ }
    { level := level + 1, pa := epa, ext := t.ext, frame := t.frame, leaf := t.leaf, rights := rights } ::
      (if r.2 || !t.v || t.rsvd || t.leaf || t.rb || t.remote ≠ 0 then [] else s.fetchesFrom p pva level t.ext t.frame rights)

/-- The entries that the walk of an address fetches. -/
def State.fetches (s : State) (p pva : Nat) : List Fetch :=
  match (s.part p).root with
  | none => []
  | some e => if 2 ^ 48 ≤ pva then [] else s.fetchesFrom p pva 4 e 0 { r := true, w := true, a := true }

/-- Puts an entry in front of a cache of n entries (R116). -/
def cacheIn (n : Nat) (c : Cached) (l : List Cached) : List Cached := (c :: l.filter (· ≠ c)).take n

/-- The die whose walkers take a walk: the one named, or its partner when that has failed (R114, R115, R159). -/
def State.walkDie (s : State) (d : Nat) : Nat := if (s.die d).ok then d else partner d

/-- The lines of a walk are read through the engine port of the die that walks, or of the device itself; buffered writes
that match are drained, rows are used and halves touched (R114, R168, R170, R175). -/
def State.readFetches (s : State) (p pva : Nat) : State :=
  s.each (s.fetches p pva) (fun s x => s.ownRead x.pa 8 4 true)

/-- A walk that resolved fills its die's walk cache: the upper-level entries, and the block-list entry of the page
(R116). -/
def State.fillWalk (s : State) (d p pva : Nat) (o : WalkOut) : State :=
  match o with
  | .pa pa e _ =>
    let up := (s.fetches p pva).filter (fun x => decide (2 ≤ x.level) && !x.leaf)
    let s := s.each up (fun s x =>
      let size := 4096 * levelFrames x.level
      let c : Cached := { part := p, level := x.level, pva := pva / size * size, size := size, ext := x.ext,
                          pa := s.framePa x.ext x.frame, rights := x.rights }
      s.onDie d (fun y => { y with walkCache := cacheIn 1024 c y.walkCache }))
    let k := ((s.extent e).blocks.findIdx? (fun b => b.block = paBlock pa)).getD 0
    let c : Cached := { part := p, pva := k, ext := e, pa := blockPa (paBlock pa) }
    s.onDie d (fun y => { y with blockCache := cacheIn 2048 c y.blockCache })
  | _ => s

/-- A walk on a die: its reads, and what it leaves in the walk cache. -/
def State.noteWalk (s : State) (d p pva : Nat) (o : WalkOut) : State := (s.readFetches p pva).fillWalk d p pva o

/-- A fabric walk that resolved fills the link die's translation cache (R116). -/
def State.fillFab (s : State) (ld p pva : Nat) (o : WalkOut) : State :=
  match o with
  | .pa pa e n =>
    let rights := (((s.fetches p pva).getLast?).map (·.rights)).getD {}
    let c : Cached := { part := p, level := 1, pva := pva / n * n, size := n, ext := e, pa := pa - pva % n, rights := rights }
    s.onNet (fun x => if ld = 0 then { x with fabCache0 := cacheIn 4096 c x.fabCache0 }
      else { x with fabCache1 := cacheIn 4096 c x.fabCache1 })
  | _ => s

/-! ### Retry-after counts -/

/-- Rounds from now to the boundary at which a granted block's certification is scheduled to take effect (R148). -/
def State.certWait (s : State) (b : Nat) : Nat :=
  let q := s.pool (blockHalf b)
  let slices := s.rnd.blockSlices
  let curLeft := match q.cur with
    | some c => ceilDiv (8 - c.done) s.rnd.micros
    | none => 0
  let n :=
    if q.certNow.any (·.1 = b) then 1
    else if q.cur.any (fun c => c.block = b) then curLeft + 1
    else curLeft + slices * ((q.granted.takeWhile (· ≠ b)).length + 1) + 1
  max 1 (min 2047 n)

/-- Retry-after for a block of an extent that is not certified (R148). -/
def State.extWait (s : State) (e k : Nat) : Nat :=
  match (s.extent e).blocks[k]? with
  | some b => s.certWait b.block
  | none => 1

/-- The migration of a page that runs or waits (R126). -/
def State.migrationOf (s : State) (p pva : Nat) : Option Migration :=
  s.migrations.find? (fun m => m.part = p && decide (m.pva ≤ pva) && decide (pva < m.pva + m.size))

/-- Retry-after for a page whose migration has `left` bytes to copy (R128). -/
def State.migrationWait (s : State) (left : Nat) : Nat := min 2047 (2 + ceilDiv left (200000 * s.rnd.micros))

/-- Changes the migration of a page. -/
def State.onMigration (s : State) (p pva : Nat) (f : Migration → Migration) : State :=
  { s with migrations := s.migrations.map (fun m => if m.part = p && m.pva = pva then f m else m) }

/-- The engine's read of a piece of a remote-backed page, as a fabric read of 1,024 B (R125, R127, R388). -/
def State.readPeer (s : State) (m : Migration) (off : Nat) : State :=
  let tag := s.net.nextTag
  let pkt : Packet := { cls := 0, opcode := 0x04, part := m.part, tag := tag, srcEp := s.rnd.endpoint, dstEp := m.peerEp,
                        srcRank := m.peerRank, seq := 16, word2 := m.peerWin + (m.peerOff + off) % 2 ^ 48 * 4096 }
  let s := s.onNet (fun n => { n with
    nextTag := (tag + 1) % 65536
    out := n.out ++ [{ tag := tag, part := m.part, pva := m.pva, off := off, ld := m.ld, pkt := pkt, sent := s.now }] })
  s.originate m.part m.ld pkt true

/-- The engine asks for the next pieces of a page, as far as its window allows (R127, R433). -/
def State.askPeer (s : State) (p pva : Nat) : Nat → State
  | 0 => s
  | n + 1 =>
    match s.migrations.find? (fun m => m.part = p && m.pva = pva) with
    | none => s
    | some m =>
      if m.running && decide (m.asked < m.size) && decide (m.asked + 1024 ≤ m.window + 1024 * m.landed.length) then
        ((s.onMigration p pva (fun m => { m with asked := m.asked + 1024 })).readPeer m m.asked).askPeer p pva n
      else s

/-- Starts the migration of a page or joins it; none when the engine's queue is full (R126, R127). The source of its bytes
is the remote-source entry as the walk read it (R125). -/
def State.startMigration (s : State) (p pva epa entry ext page : Nat) : Option State :=
  match s.migrationOf p pva with
  | some _ => some s
  | none =>
    let half := (s.extent ext).half
    let ld := if half = 0 then (if s.net.ld0 then 0 else 1) else (if s.net.ld1 then 1 else 0)
    let mine := s.migrations.filter (fun m => m.ld = ld)
    let running := (mine.filter (·.running)).length
    if 320 ≤ mine.length then none
    else
      let r := (s.remoteEntry p (entry / 2 ^ 55 % 512)).getD
        { valid := false, ep := 0, window := 0, rank := 0, pvaBase := 0, offset := 0 }
      let base := pva / page * page
      let s : State := { s with migrations := s.migrations ++
        [{ part := p, pva := base, size := page, ld := ld, running := decide (running < 64),
           entryPa := epa, entry := entry, ext := ext, left := page, peerEp := r.ep, peerWin := r.window, peerRank := r.rank,
           peerOff := (r.offset + base + (2 ^ 48 - r.pvaBase)) % 2 ^ 48 }] }
      some (s.askPeer p (pva / page * page) 64)

/-! ### Pieces of a range -/

/-- A piece of a range: its byte offset and length in the range and the outcome of its walk. -/
structure Piece where
  off : Nat
  len : Nat
  out : WalkOut
  deriving DecidableEq, Repr

/-- Bytes from an address to the end of the mapping unit that holds it: the page, or the 2 MiB block of a larger page;
4 KiB where the walk failed. -/
def WalkOut.span (o : WalkOut) (pva : Nat) : Nat :=
  let u := match o with
    | .pa _ _ n => min n 0x200000
    | .migrate _ _ _ n => n
    | _ => 4096
  u - pva % u

/-- The pieces of n bytes from an address on, in ascending order, at most `fuel` of them (R76, R77). -/
def State.pieces (s : State) (p : Nat) (need : Rights) : Nat → Nat → Nat → Nat → List Piece
  | 0, _, _, _ => []
  | fuel + 1, pva, off, n =>
    if n = 0 then [] else
    let o := s.walk p pva need
    let k := min n (o.span pva)
    { off := off, len := k, out := o } :: s.pieces p need fuel (pva + k) (off + k) (n - k)

/-- The pieces of a range (R76). -/
def State.rangePieces (s : State) (p pva len : Nat) (need : Rights) : List Piece :=
  s.pieces p need (len / 4096 + 2) pva 0 len

/-- The piece-wise pool addresses of bytes that translate wholly; none where a piece does not. -/
def okPieces (ps : List Piece) : Option (List (Nat × Nat)) :=
  ps.mapM (fun x => match x.out with
    | .pa a _ _ => some (a, x.len)
    | _ => none)

/-- Why the first failing piece of a write or read fails, as a status (R111). -/
def WalkOut.status : WalkOut → Status
  | .pa _ _ _ => .ok
  | .fault _ _ => .xlateFault
  | .revoked => .revoked
  | .perm => .perm
  | .notReady _ _ => .notReady
  | .migrate _ _ _ _ => .notReady
  | .poison => .poison
  | .dead => .deadAgent
  | .blocked _ => .notReady

/-- The result of the device's own read of a partition's memory: the bytes, a wait for lines that agents own, or the
status of the first piece that fails. -/
inductive ReadOut where
  | ok (bs : List Byte)
  | wait
  | bad (st : Status)
  deriving DecidableEq, Repr

/-- The device's own read of bytes of a partition's memory, with the read right (R76, R111, R191, R219). -/
def State.readPva (s : State) (p pva n : Nat) : ReadOut :=
  let ps := s.rangePieces p pva n { r := true }
  match ps.find? (fun x => x.out.status ≠ .ok) with
  | some x => match x.out with
    | .blocked _ => .wait
    | o => .bad o.status
  | none => match okPieces ps with
    | none => .bad .xlateFault
    | some l =>
      if l.any (fun x => s.heldAway x.1 x.2 || (nums (x.1 / 64) (x.2 / 64 + 2)).any (fun k => s.portHeld (k * 64) &&
          decide (k * 64 < x.1 + x.2))) then .wait else
      let r := l.map (fun x => s.readPool x.1 x.2)
      if r.any (·.2) then .bad .poison else .ok (r.flatMap (·.1))

/-- What the device's own read of bytes of a partition's memory does besides: the reads of its walks and of its lines, and
the return of the lines that it waits for, be they owned or in a half in self-refresh (R114, R168, R170, R175, R177,
R223). -/
def State.cleanPva (s : State) (p pva n : Nat) : State :=
  s.each (s.rangePieces p pva n { r := true }) (fun s x =>
    let s := s.readFetches p (pva + x.off)
    match x.out with
    | .blocked pa => (s.touch pa).cleanLine pa
    | .pa a _ _ => (s.cleanLines a x.len).ownRead a x.len 1 true
    | _ => s)

/-- Writes bytes of the device's own to a partition's memory; none where they do not translate with the write right,
where a frame of a region refuses the write, or where a partly written line is poison (R98, R190, R239). -/
def State.writePva (s : State) (p pva : Nat) (bs : List Byte) : Option State :=
  match okPieces (s.rangePieces p pva bs.length { w := true }) with
  | none => none
  | some l =>
    let step := fun (acc : Option (State × List Byte)) (x : Nat × Nat) => acc.bind (fun a =>
      let s := a.1
      let part := a.2.take x.2
      let bad := (nums (x.1 / 64) (x.2 / 64 + 2)).any (fun k =>
        let lo := max x.1 (k * 64)
        let hi := min (x.1 + x.2) (k * 64 + 64)
        decide (lo < hi) && (s.writeRefused lo (List.replicate (hi - lo) true) || s.frameRefuses p lo))
      if bad then none else some (s.deviceWrite x.1 part, a.2.drop x.2))
    (l.foldl step (some (s, bs))).map (·.1)

/-- The status of bytes of a partition's memory under a right: OK, or that of the first failing piece. -/
def State.pvaStatus (s : State) (p pva n : Nat) (need : Rights) : Status :=
  match (s.rangePieces p pva n need).find? (fun x => x.out.status ≠ .ok) with
  | some x => x.out.status
  | none => .ok

end Sys2Proof.Machine
end

