-- ==== Sys2Proof/Machine/Ops.lean ====
section
/-! DEFINITION. Operations that many commands share: rim messages and EVENTs, mailbox channels, extent pins, completion
queues and records, queue events. -/
namespace Sys2Proof.Machine

/-! ### Rim messages and EVENTs (R446, R448, R450) -/

/-- Rim message types (R446). -/
def rtMemRd : Nat := 0x01
/-- MEM_WR (R446). -/
def rtMemWr : Nat := 0x02
/-- MBX_PUT (R446). -/
def rtMbxPut : Nat := 0x03
/-- MBX_ACK (R446). -/
def rtMbxAck : Nat := 0x04
/-- DOORBELL (R446). -/
def rtDoorbell : Nat := 0x05
/-- CTRL_SUBMIT (R446). -/
def rtCtrlSubmit : Nat := 0x06
/-- CTRL_RESULT (R446). -/
def rtCtrlResult : Nat := 0x07
/-- ATTEST_REQ (R446). -/
def rtAttestReq : Nat := 0x08
/-- ATTEST_RESP (R446). -/
def rtAttestResp : Nat := 0x09
/-- FW_CHUNK (R446). -/
def rtFwChunk : Nat := 0x0A
/-- TELEMETRY (R446). -/
def rtTelemetry : Nat := 0x0B
/-- EVENT (R446). -/
def rtEvent : Nat := 0x0C
/-- RESET_REQ (R446). -/
def rtResetReq : Nat := 0x0D
/-- TIME_SYNC (R446). -/
def rtTimeSync : Nat := 0x0E
/-- RIM_HEALTH (R446). -/
def rtRimHealth : Nat := 0x0F
/-- RIM_NAK (R446). -/
def rtRimNak : Nat := 0x10

/-- The half of the active stake (R313, R491). -/
def State.activeHalf (s : State) : Nat := if s.auth.lease0.fenced then s.auth.lease1.holder else s.auth.lease0.holder

/-- The lane group that carries a message type: of the link die that carries the active stake, or of half 0; the other group
where that one is down (R28, R449). The lines that MEM_RD and MEM_WR name are served apart from these messages. -/
def State.laneGroup (s : State) (type : Nat) : HalfId :=
  let byStake : Bool := type == rtCtrlSubmit || type == rtAttestReq || type == rtFwChunk || type == rtResetReq
  let g := if byStake then (s.lease s.activeHalf).holder else 0
  let up := if g = 0 then s.host.group0.up else s.host.group1.up
  Fin.ofNat 2 (if up then g else 1 - g)

/-- Puts a message on its way to the host side, on its lane group (R28). -/
def State.toHost (s : State) (m : RimMsg) : State :=
  s.onHost (fun h => { h with toHost := h.toHost ++ [{ m with group := s.laneGroup m.type }] })
/-- Puts a message on its way to the fabric side, on its lane group (R28). -/
def State.toFabric (s : State) (m : RimMsg) : State :=
  s.onHost (fun h => { h with toFabric := h.toFabric ++ [{ m with group := s.laneGroup m.type }] })

/-- The oldest message that a test picks, and the list without it. -/
def takeMsg (t : RimMsg → Bool) : List RimMsg → Option (RimMsg × List RimMsg)
  | [] => none
  | m :: l => if t m then some (m, l) else (takeMsg t l).map (fun x => (x.1, m :: x.2))

/-- Takes the oldest message of a type off its way to the host side. -/
def State.takeToHost (s : State) (t : RimMsg → Bool) : Option (RimMsg × State) :=
  (takeMsg t s.host.toHost).map (fun x => (x.1, s.onHost (fun h => { h with toHost := x.2 })))
/-- Takes the oldest message of a type off its way to the fabric side. -/
def State.takeToFabric (s : State) (t : RimMsg → Bool) : Option (RimMsg × State) :=
  (takeMsg t s.host.toFabric).map (fun x => (x.1, s.onHost (fun h => { h with toFabric := x.2 })))

/-- A refusal of a message of a type from the host (R447). The message carries no type: the model keeps the refused one's
in ADDR, and what the host side remembers of the request in the payload. -/
def State.nak (s : State) (type tag : Nat) (st : Status) (kept : List U64 := []) : State :=
  s.toHost { type := rtRimNak, dir := true, tag := tag, status := st.code, addr := type, payload := kept }

/-- A round as an EVENT shows it, rounded down to a multiple of 64 (R450). -/
def coarseRound (n : Nat) : Nat := n / 64 * 64

/-- Sends an EVENT to the host (R450). -/
def State.event (s : State) (code d0 d1 : Nat) : State :=
  s.toHost { type := rtEvent, dir := true, len := 4,
             payload := [BitVec.ofNat 64 code, BitVec.ofNat 64 (coarseRound s.now), BitVec.ofNat 64 d0,
                         BitVec.ofNat 64 d1] }

/-- EVENT codes (R450). -/
def evErrorLog : Nat := 0x0001
/-- HALF_STATE (R450). -/
def evHalfState : Nat := 0x0002
/-- WEAVER_RETIRED (R450). -/
def evWeaverRetired : Nat := 0x0003
/-- LINK (R450). -/
def evLink : Nat := 0x0004
/-- ROUND_HOLDOVER (R450). -/
def evHoldover : Nat := 0x0005
/-- CAP_INFEASIBLE (R450). -/
def evCapInfeasible : Nat := 0x0006
/-- SUPPLY (R450). -/
def evSupply : Nat := 0x0007
/-- THERMAL (R450). -/
def evThermal : Nat := 0x0008
/-- BLOCK_LOST (R450). -/
def evBlockLost : Nat := 0x0009
/-- AUTHORITY (R450). -/
def evAuthority : Nat := 0x000A
/-- DC (R450). -/
def evDc : Nat := 0x000B
/-- RESET_ACCEPTED (R450). -/
def evResetAccepted : Nat := 0x000C

/-- A half's integrity state in the order of R207. -/
def Integrity.code : Integrity → Nat
  | .intact => 0 | .exposed => 1 | .rebuilt => 2 | .degraded => 3 | .loss => 4

/-- A valid lease exists (R491). -/
def State.leaseHeld (s : State) : Bool :=
  let l := s.lease s.activeHalf
  l.st == .valid || l.st == .handover

/-- The lease epoch (R313). -/
def State.leaseEpoch (s : State) : Nat := (s.lease s.activeHalf).epoch

/-- The rim phase (R448): 0 DOWN, 1 TRAINING, 2 START, 3 RECOVERY, 4 SERVICE, 5 TAKEOVER. -/
def State.rimPhase (s : State) : Nat :=
  if !s.host.group0.up && !s.host.group1.up then
    (if s.host.group0.health = 0 && s.host.group1.health = 0 && !s.host.group0.training && !s.host.group1.training then 0
     else 1)
  else match s.rst.mode with
    | .service => if s.leaseHeld then 4 else 5
    | .recovery => 3
    | _ => 2

/-! ### Mailbox channels (R455 to R458) -/

/-- Identities of a mailbox binding (R455): the model's own numbers. -/
def idStake : Nat := 0
/-- STAKE0. -/
def idStake0 : Nat := 1
/-- STAKE1. -/
def idStake1 : Nat := 2
/-- HOST. -/
def idHost : Nat := 3
/-- ANY_PART. -/
def idAnyPart : Nat := 4
/-- PART(p). -/
def idPart (p : Nat) : Nat := 64 + p

/-- The bindings of R455. -/
def defaultBinding (ch : Nat) : Nat × Nat :=
  if ch < 64 then (idStake, idPart ch)
  else if ch < 80 then (idHost, idStake)
  else if ch < 96 then (idStake, idHost)
  else if ch < 104 then (idStake0, idStake1)
  else if ch < 112 then (idStake1, idStake0)
  else (idAnyPart, idHost)

/-- The binding of a channel, if it has one (R455, R456). -/
def State.binding (s : State) (ch : Nat) : Option (Nat × Nat) :=
  match s.host.bindings.look 0 ch with
  | 0 => none
  | n + 1 => some (n / 256, n % 256)

/-- The messages of a channel (R457). -/
def State.channel (s : State) (ch : Nat) : List MbxMsg := s.host.channels.look [] ch

/-- Whether a put from an identity passes R456 and R457: PERM, MBX_FULL, MBX_LEN or OK. -/
def State.putStatus (s : State) (sender ch part len : Nat) : Status :=
  match s.binding ch with
  | none => .perm
  | some b =>
    if !(b.1 == sender || (b.1 == idAnyPart && decide (64 ≤ sender))) then .perm
    else if 4 ≤ (s.channel ch).length || (b.1 == idAnyPart && (s.channel ch).any (fun m => m.part = part)) then .mbxFull
    else if 64 < len then .mbxLen
    else .ok

/-- Puts a message on a channel (R456, R457). A message for the host starts over the rim (R449). -/
def State.mbxPut (s : State) (sender ch part len : Nat) (words : List U64) : Status × State :=
  match s.putStatus sender ch part len with
  | .ok =>
    let s := s.onHost (fun h => { h with
      channels := h.channels.put [] ch (s.channel ch ++ [{ part := part, len := len, words := words.take len }]) })
    let s := if (s.binding ch).any (fun b => b.2 == idHost) then
        s.toHost { type := rtMbxPut, dir := true, channel := ch, len := len, tag := part, payload := words.take len }
      else s
    (.ok, s)
  | st => (st, s)

/-- Takes the head message off a channel (R458). -/
def State.mbxTake (s : State) (ch : Nat) : Option (MbxMsg × State) :=
  match s.channel ch with
  | [] => none
  | m :: rest => some (m, s.onHost (fun h => { h with channels := h.channels.put [] ch rest }))

/-! ### Pins (R77, R117, R239) -/

/-- Adds n to the pin count of an extent, to the translation-pin count of a region version, and to the entries of a pin
store. -/
def State.pinBy (s : State) (x : PinPage) (n : Int) : State :=
  if !x.pin then s else
  let add := fun (k : Nat) => ((k : Int) + n).toNat
  let s := if x.stored then s.onDie x.die (fun d => { d with pinned := add d.pinned }) else s
  let s := s.onExtent x.ext (fun e => { e with pins := add e.pins })
  if x.ver = 0 then s else
  match (s.extent x.ext).region with
  | none => s
  | some r =>
    let f := fun (v : Version) => if v.num = x.ver then { v with tpins := add v.tpins } else v
    s.onRegion r (fun g => { g with versions := g.versions.map f })

/-- Takes a stroke's or an operation's pins. -/
def State.pinAll (s : State) (xs : List PinPage) : State := s.each xs (fun s x => s.pinBy x 1)
/-- Releases pins; a pin that the drain limit has already released is not released twice (R138). -/
def State.unpinAll (s : State) (xs : List PinPage) : State := s.each xs (fun s x => s.pinBy x (-1))

/-- Takes a stroke's pins, whose translations go to the pin stores of the dies that walked its ranges, and into the half's
metadata where a store is full (R115, R117). -/
def State.storePins (s : State) (home : Nat) : List PinPage → Bool → List PinPage × State
  | [], _ => ([], s)
  | x :: xs, last =>
    let d := s.walkDie (2 * home + x.range % 2)
    let x := { x with die := d, stored := if x.pin then decide ((s.die d).pinned < Config.pinStore) else last }
    let r := (s.pinBy x 1).storePins home xs x.stored
    (x :: r.1, r.2)

/-- The version a reader's translation pin counts on: the newest it has pinned in which the frame is live (R239). -/
def State.pinVersionOf (s : State) (p ext frame : Nat) : Nat :=
  match s.holding ext p with
  | .reader r =>
    let fr := (s.region r).table.look {} (s.regionFrame r ext frame)
    ((s.pinnedVersions p r).filter fr.live).foldl max 0
  | _ => 0

/-- The pinned form of the pieces of range i (R77). -/
def State.pinsOf (s : State) (p i pva : Nat) (ps : List Piece) : List PinPage :=
  ps.filterMap (fun x => match x.out with
    | .pa a e n =>
      let blocks := (s.extent e).blocks
      let k := (blocks.findIdx? (fun b => b.block = paBlock a)).getD 0
      some { range := i, off := x.off, len := x.len, pa := a, ext := e,
             pin := x.off = 0 || (pva + x.off) % n = 0,
             ver := s.pinVersionOf p e (k * 512 + a % 0x200000 / 4096) }
    | _ => none)

/-! ### Completion queues and records (R68 to R71, R83, R96 to R98) -/

/-- Submission queue q of partition p. -/
def State.sq (s : State) (p q : Nat) : Sq := (s.part p).sqs.look {} q
/-- Changes a submission queue. -/
def State.onSq (s : State) (p q : Nat) (f : Sq → Sq) : State := s.onPart p (fun x => { x with sqs := x.sqs.mod {} q f })
/-- Completion queue q of partition p. -/
def State.cq (s : State) (p q : Nat) : Cq := (s.part p).cqs.look {} q
/-- Changes a completion queue. -/
def State.onCq (s : State) (p q : Nat) (f : Cq → Cq) : State := s.onPart p (fun x => { x with cqs := x.cqs.mod {} q f })

/-- Entries of the ring (R68). -/
def Cq.entries (c : Cq) : Nat := 2 ^ c.log2
/-- Records written and not yet freed by a head doorbell, the unread queue event aside (R83). -/
def Cq.unread (c : Cq) : Nat :=
  (c.wpos - c.head) - (match c.event with | some e => if c.head ≤ e.1 then 1 else 0 | none => 0)
/-- A slot can be reserved (R83). -/
def Cq.hasSlot (c : Cq) : Bool := c.usable && decide (c.resv + c.unread < c.entries - 1)

/-- Word 0 of a completion record (R96). -/
def DueRec.word0 (r : DueRec) (tag : Bool) : Nat :=
  r.status % 256 + r.kind % 4 * 2 ^ 8 + b2n tag * 2 ^ 10 + r.sq % 64 * 2 ^ 16 + r.cycles % 65536 * 2 ^ 32 +
    r.detail % 65536 * 2 ^ 48

/-- The 32 bytes of a completion record (R96). -/
def DueRec.bytes (r : DueRec) (tag : Bool) : List Byte :=
  toBytes 8 (r.word0 tag) ++ toBytes 8 r.userTag.toNat ++ toBytes 8 r.round ++ toBytes 8 r.result.toNat

/-- PVA of the slot at a write position (R68, R70). -/
def Cq.slot (c : Cq) (pos : Nat) : Nat := c.base + 32 * (pos % c.entries)
/-- PHASE_TAG of a write position: 1 on the first pass and inverted on each wrap (R96). -/
def Cq.phaseTag (c : Cq) (pos : Nat) : Bool := pos / c.entries % 2 == 0

/-- Writes one record at the write position; none while the ring does not translate with the write right (R98). -/
def State.writeRec (s : State) (p q : Nat) (r : DueRec) : Option State :=
  let c := s.cq p q
  (s.writePva p (c.slot c.wpos) (r.bytes (c.phaseTag c.wpos))).map (fun s =>
    s.onCq p q (fun c => { c with wpos := c.wpos + 1 }))

/-- Counts a completion record that has been written (R535). -/
def State.countRec (s : State) (p : Nat) (r : DueRec) : State :=
  let s := if r.kind = 0 then s.countOf p 0 1 else if r.kind = 1 then s.countOf p 3 1 else s
  let s := if r.kind = 0 && r.status = Status.overrun.code then s.countOf p 1 1 else s
  if r.kind = 0 && r.status = Status.capLimited.code then s.countOf p 2 1 else s

/-- Writes due records in the order in which their work ended, stopping at one that is not ready or cannot be written
(R72, R87, R98). -/
def State.flushCq (s : State) (p q : Nat) : Nat → State
  | 0 => s
  | n + 1 =>
    let c := s.cq p q
    if c.resetting then s else
    match c.due with
    | [] => s
    | r :: rest =>
      if !r.ready then s else
      match s.writeRec p q r with
      | none => s
      | some s =>
        let s := if r.kind = 2 then s.onCq p q (fun x => { x with due := rest, event := some (c.wpos, r.detail % 0x8000) })
          else (s.onCq p q (fun x => { x with due := rest, resv := x.resv - 1 })).countRec p r
        s.flushCq p q n

/-- Flushes every record that may be written. -/
def State.flush (s : State) (p q : Nat) : State := s.flushCq p q (s.cq p q).due.length

/-- Adds a record to those due and writes what may be written (R98). The reservation is the caller's.
A partition that no longer exists has no queues (R305). -/
def State.postRec (s : State) (p q : Nat) (r : DueRec) : State :=
  if !(s.part p).live then s else
  let s := s.onCq p q (fun c => { c with due := c.due ++ [r] })
  s.flush p q

/-- Marks the due record of a stroke ready and writes what may be written (R86, R87). -/
def State.recReady (s : State) (p q sid : Nat) : State :=
  let s := s.onCq p q (fun c => { c with due := c.due.map (fun r => if r.sid = sid then { r with ready := true } else r) })
  s.flush p q

/-- Posts a queue event: into the slot kept for it, or into the count of the unread one; in a CQ under reset, or behind
records that are held, it waits its turn (R71, R83, R97, R98). DESIGN CHOICE: the first event carries the count 1, and the
count stays at 0x7FFF once it is there; R83 and R97 state neither (log 160). -/
def State.queueEvent (s : State) (p q sq : Nat) (st : Status) (value : U64) : State :=
  let c := s.cq p q
  if !c.usable then s
  else if c.due.any (fun r => r.kind = 2) then
    let more := fun (r : DueRec) => if r.kind = 2 then { r with detail := 0x8000 + min (r.detail % 0x8000 + 1) 0x7FFF } else r
    s.onCq p q (fun c => { c with due := c.due.map more })
  else match (if c.resetting then none else c.event.filter (fun e => c.head ≤ e.1)) with
    | some (pos, n) =>
      let n := min (n + 1) 0x7FFF
      let s := s.onCq p q (fun c => { c with event := some (pos, n) })
      (s.writePva p (c.slot pos + 6) (toBytes 2 (0x8000 + n))).getD s
    | none =>
      s.postRec p q { status := st.code, kind := 2, sq := sq, detail := 0x8001, round := s.now, result := value }

end Sys2Proof.Machine
end

