-- ==== Sys2Proof/Machine/Stroke.lean ====
section
/-! DEFINITION. The life of a stroke on a weaver: its start, the cycles it is charged, its end with the completion
record, and its suspension (R75, R85 to R87, R260, R261, R287 to R290, R351, R354, R547). -/
namespace Sys2Proof.Machine

/-- Changes the run of a weaver. -/
def State.onRun (s : State) (w : Nat) (f : Run → Run) : State :=
  s.onWeaver w (fun x => { x with run := x.run.map f })

/-- Number of a vector register in the scoreboard (R257). -/
def vreg (i : Nat) : Nat := 32 + i % 32
/-- Number of a predicate in the scoreboard (R257). -/
def preg (i : Nat) : Nat := 64 + i % 8

/-- Reads a general register; g0 reads as zero (R250). -/
def Run.gr (x : Run) (i : Nat) : U64 := if i = 0 then 0 else x.g.look 0 i
/-- Writes a general register; a write to g0 is discarded (R250). -/
def Run.setGr (x : Run) (i : Nat) (v : U64) : Run := if i = 0 then x else { x with g := x.g.put 0 i v }
/-- Reads a vector register. -/
def Run.vr (x : Run) (i : Nat) : V512 := x.v.look 0 i
/-- Writes a vector register. -/
def Run.setVr (x : Run) (i : Nat) (v : V512) : Run := { x with v := x.v.put 0 i v }
/-- Reads a predicate by bits [2:0] of its field (R250). -/
def Run.pr (x : Run) (i : Nat) : Bool := x.p.look false (i % 8)
/-- Writes a predicate. -/
def Run.setPr (x : Run) (i : Nat) (b : Bool) : Run := { x with p := x.p.put false (i % 8) b }

/-! ### Starting a run -/

/-- The run that starts: registers from ARG and NRANGES, a cleared scratch whose one cycle counts in the budget, and
for a later run g3 and g4 of R289 (R75). -/
def Stroke.begin (k : Stroke) : Run :=
  let x : Run := { s := k, pc := k.start, cyc := 1, rng := rngSeed k.seed k.run }
  let x := (x.setGr 1 k.arg).setGr 2 (BitVec.ofNat 64 k.ranges.length)
  if k.run = 0 then x else (x.setGr 3 k.g3).setGr 4 k.g4

/-- Energy of a weaver cycle at a clock, in pJ × 1,700² (R520). -/
def energyOf (mhz : Nat) : Nat :=
  let pj := if 1700 < mhz then 0 else if mhz = 1700 then 300 else if 1500 ≤ mhz then 273 else if 1300 ≤ mhz then 246
    else if 1100 ≤ mhz then 227 else if 950 ≤ mhz then 211 else if 800 ≤ mhz then 200 else if 700 ≤ mhz then 186 else 183
  if 1700 < mhz then 300 * mhz * mhz else pj * 1700 * 1700

/-- Charges issue-slot cycles to a weaver and to the stroke's partition: n retired, wasted, front-starved and
back-starved cycles (R354, R355). -/
def State.slots (s : State) (w p : Nat) (retired wasted front back : Nat) : State :=
  let energy := (retired + back) * energyOf (s.weaver w).mhz
  let s := s.onPart p (fun x => { x with energy := x.energy + energy })
  let s := s.onWeaver w (fun x => { x with slotRetired := x.slotRetired + retired, slotWasted := x.slotWasted + wasted, slotBack := x.slotBack + back })
  (((s.countOf p 16 retired).countOf p 17 wasted).countOf p 18 front).countOf p 19 back

/-- Starts a stroke on a weaver after `transfer` cycles (R75, R88, R352). -/
def State.startRun (s : State) (w : Nat) (k : Stroke) (transfer : Nat) : State :=
  let s := s.onWeaver w (fun x => { x with run := some k.begin, elapsed := x.elapsed + transfer })
  let s := s.slots w k.part 0 1 transfer 0
  let s := (s.ownerEvent k.part 0x001 false 1).ownerEvent k.part 0x001 true 1
  s.opEvent 0x10B { priv := some k.img.priv, part := some k.part }

/-! ### Cycles -/

/-- The stroke of a run has a line read outstanding. -/
def State.hasRead (s : State) (sid : Nat) : Bool :=
  s.poolReqs.any (fun q => q.sid = sid && (match q.kind with | .line _ _ => true | _ => false))
/-- The stroke of a run has a line write outstanding. -/
def State.hasWrite (s : State) (sid : Nat) : Bool :=
  s.poolReqs.any (fun q => q.sid = sid && (match q.kind with | .lineOut _ _ _ _ => true | _ => false))
/-- The stroke of a run has an atomic outstanding. -/
def State.hasAtom (s : State) (sid : Nat) : Bool :=
  s.poolReqs.any (fun q => q.sid = sid && (match q.kind with | .atom _ _ _ _ _ => true | _ => false))
/-- Pool writes and atomics of a stroke that the home has not acknowledged (R285). -/
def State.unacked (s : State) (sid : Nat) : Bool :=
  s.poolReqs.any (fun q => q.sid = sid && q.kind.writes)

/-- The level counts of n cycles of a running stroke (R539). -/
def State.levels (s : State) (p sid n : Nat) : State :=
  let s := s.ownerEvent p 0x001 true n
  let s := if s.hasRead sid then s.ownerEvent p 0x003 true n else s
  let s := if s.hasWrite sid then s.ownerEvent p 0x004 true n else s
  if s.hasAtom sid then s.ownerEvent p 0x007 true n else s

/-- A run spends cycles: retired, wasted, front-starved (the bubble of a taken BR) and back-starved (R85, R354). -/
def State.spend (s : State) (w : Nat) (retired wasted front back : Nat) : State :=
  match (s.weaver w).run with
  | none => s
  | some x =>
    let n := retired + wasted + front + back
    let s := s.onRun w (fun x => { x with cyc := x.cyc + n })
    (s.slots w x.s.part retired wasted front back).levels x.s.part x.s.sid n

/-! ### Ending a run -/

/-- Adds to the pins of a stroke's program image in the program caches of its home half, and of the other half with
STEAL_FAR (R338). -/
def State.cachePin (s : State) (k : Stroke) (n : Int) : State :=
  let dies := (List.range 4).filter (fun d => k.stealFar || d / 2 = k.home)
  let f := fun (c : CacheImg) =>
    if c.part = k.part && c.handle = k.handle then { c with pins := ((c.pins : Int) + n).toNat } else c
  s.each dies (fun s d => s.onDie d (fun x => { x with cache := x.cache.map f }))

/-- The status a completion record shows when a write is refused after the stroke ended (R261). -/
def lateStatus (old new : Nat) : Nat :=
  if old = Status.ok.code || old = Status.capLimited.code || old = Status.overrun.code then new else old

/-- Drops a stroke's outstanding reads and its acknowledged writes; writes in flight stay (R86). -/
def State.dropReads (s : State) (sid : Nat) : State :=
  let done := fun (q : PoolReq) => !q.kind.writes || (match q.got with | some (.ok, _, _) => true | _ => false)
  { s with poolReqs := s.poolReqs.filter (fun q => !(q.sid = sid && done q)) }

/-- The stroke is complete: its pins, image and queue place are released and its record is due; the record waits while
writes of the stroke are in flight (R77, R86, R87, R97, R338). -/
def State.complete (s : State) (k : Stroke) (st : Status) (cycles detail : Nat) (result : U64) : State :=
  let s := s.dropReads k.sid
  let s := (s.unpinAll k.pages).cachePin k (-1)
  let s := s.onSq k.part k.sq (fun q => { q with live := q.live.filter (· ≠ k.sid) })
  let r : DueRec := { sid := k.sid, ready := !s.unacked k.sid, status := st.code, sq := k.sq, cycles := cycles, detail := detail, userTag := k.userTag, round := s.now, result := result }
  s.postRec k.part k.cq r

/-- The weaver has no running stroke any more; a debug halt that waited for the stroke takes effect (R85, R484). -/
def State.leaveRun (s : State) (w cycles : Nat) : State :=
  let s := s.onWeaver w (fun x => { x with run := none, elapsed := x.elapsed + cycles })
  if w ∈ s.auth.haltWait then
    s.onAuth (fun a => { a with haltWait := a.haltWait.filter (· ≠ w), halted := setAdd a.halted w })
  else s

/-- Ends the running stroke of a weaver with a status, its word offset and its RESULT; OK becomes CAP_LIMITED after a
slowed array instruction or a wait through idle rounds (R86, R260, R263, R526). -/
def State.endRun (s : State) (w : Nat) (st : Status) (detail : Nat) (result : U64) : State :=
  match (s.weaver w).run with
  | none => s
  | some x =>
    let st := if st = .ok && (x.slowed || x.s.idled) then .capLimited else st
    (s.leaveRun w x.cyc).complete x.s st (min x.cyc x.s.budget) detail result

/-- A fault ends the stroke at its present instruction (R260, R344). -/
def State.faultRun (s : State) (w : Nat) (st : Status) : State :=
  match (s.weaver w).run with
  | none => s
  | some x =>
    let s := s.onWeaver w (fun y => { y with tagged := y.tagged.map (fun t => { t with ended := true }) })
    s.endRun w st x.pc 0

/-- Suspends the running stroke: the run ends, what it would read is dropped, and the stroke keeps its pins and its CQ
reservation (R287, R289, R290). -/
def State.suspend (s : State) (w : Nat) (resume : Nat) (watch : Option (Nat × Bool × Nat × U64)) (fires : Nat)
    (offer : Option (Nat × Nat)) : State :=
  match (s.weaver w).run with
  | none => s
  | some x =>
    let k := { x.s with run := x.s.run + 1, start := resume, g3 := 0, g4 := 0, used := x.cyc }
    let s := s.dropReads k.sid
    let s := (s.leaveRun w x.cyc).ownerEvent k.part 0x008 false 1
    s.onPart k.part (fun p => { p with suspended := p.suspended ++ [{ s := k, watch := watch, fires := fires, offer := offer }] })

/-! ### Going on -/

/-- Where a run goes on at a word: the end of a loop body returns to its first word while iterations are left (R265). -/
def loopStep : List Loop → Nat → List Loop × Nat
  | [], pc => ([], pc)
  | l :: rest, pc =>
    if pc = l.last then
      if 1 < l.left then ({ l with left := l.left - 1 } :: rest, l.first) else loopStep rest pc
    else (l :: rest, pc)

/-- Loops that a branch to a word leaves: those whose body ends before it (R266). -/
def loopLeave (ls : List Loop) (pc : Nat) : List Loop := ls.dropWhile (fun l => decide (l.last ≤ pc))

/-- A run that stands past its last code word ends with RANGE, unless its budget is spent (R86, R257). -/
def State.pastEnd (s : State) (w : Nat) : State :=
  match (s.weaver w).run with
  | none => s
  | some x =>
    if x.s.img.code.length ≤ x.pc && x.cyc < x.s.budget then s.faultRun w .range else s

/-- Goes on at a word reached in order (R257, R265). -/
def State.goTo (s : State) (w pc : Nat) : State :=
  let s := s.onRun w (fun x => { x with lastIssued := x.pc, loops := (loopStep x.loops pc).1, pc := (loopStep x.loops pc).2 })
  s.pastEnd w

/-- Goes on at the target of a branch (R266). -/
def State.jumpTo (s : State) (w pc : Nat) : State :=
  let s := s.onRun w (fun x => { x with lastIssued := x.pc, loops := loopLeave x.loops pc, pc := pc })
  s.pastEnd w

/-! ### Sampling (R547) -/

/-- The samplers that may tag an instruction of a partition: K of the partition's own and of the operator's. -/
def State.samplerKs (s : State) (p : Nat) : Option Nat × Option Nat :=
  ((s.part p).sampler.map (·.1), if (s.part p).prof then s.cnt.sampler else none)

/-- A draw tags the instruction that issues for the samplers whose rate it meets; with another in flight the tag is
skipped and counted (R547). -/
def State.sampleTag (s : State) (w p opcode word handle : Nat) (guardFalse : Bool) : State :=
  let ks := s.samplerKs p
  if ks.1.isNone && ks.2.isNone then s else
  let r := (Config.sampleDraw s.free).toNat
  let s := { s with free := s.free + 1 }
  let hit := fun (k : Option Nat) => k.any (fun k => r % 2 ^ k == 0)
  if !hit ks.1 && !hit ks.2 then s
  else if (s.weaver w).tagged.isSome then s.countOf p 26 1
  else
    let t : Tagged := { word := word, opcode := opcode, guardFalse := guardFalse, owner := hit ks.1, oper := hit ks.2, part := p, handle := handle, round := s.now }
    s.onWeaver w (fun x => { x with tagged := some t })

end Sys2Proof.Machine
end

