-- ==== Sys2Proof/Machine/Operands.lean ====
section
/-! DEFINITION. The operand forms of Blurik: the instruction word and its guard, the scoreboard and issue, scratch
addresses, pool operands and pool requests (R249 to R262, R269, R270). -/
namespace Sys2Proof.Machine

/-! ### Words, guards, fields -/

/-- The word of an instruction: opcode byte, FMT, DST, SRC1, SRC2, ISEL, GUARD, IMM (R249). -/
def encWord (op : Nat) (f : Fields) : U64 :=
  (BitVec.ofNat 8 op ++ f.fmt ++ f.dst ++ f.src1 ++ f.src2 ++ BitVec.ofBool f.isel ++ f.guard ++ f.imm).setWidth 64


/-- IMM, sign-extended to 64 bits (R249). -/
def simm (f : Fields) : U64 := f.imm.signExtend 64
/-- Bits [hi:lo] of IMM. -/
def immBits (f : Fields) (hi lo : Nat) : Nat := f.imm.toNat / 2 ^ lo % 2 ^ (hi + 1 - lo)
/-- The guard's predicate (R251). -/
def guardPred (f : Fields) : Nat := f.guard.toNat % 8

/-- The instruction takes effect (R251). -/
def guardTrue (f : Fields) (x : Run) : Bool :=
  if f.guard = 0 then true else if 8 ≤ f.guard.toNat then x.pr (guardPred f) else !x.pr (guardPred f)

/-- gS1. -/
def Run.s1 (x : Run) (f : Fields) : U64 := x.gr f.src1.toNat
/-- Source 2: gS2, or IMM when ISEL is 1 (R249). -/
def Run.s2 (x : Run) (f : Fields) : U64 := if f.isel then simm f else x.gr f.src2.toNat
/-- gD. -/
def Run.gd (x : Run) (f : Fields) : U64 := x.gr f.dst.toNat
/-- Registers that source 2 reads. -/
def use2 (f : Fields) : List Nat := if f.isel then [] else [f.src2.toNat]

/-! ### Issue (R251, R257, R344) -/

/-- Cycle at which the registers an instruction names are ready; none while one waits for a pool result (R257). -/
def Run.ready (x : Run) (uses : List Nat) : Option Nat :=
  let us := uses.filter (· ≠ 0)
  if us.any (fun u => decide (u ∈ x.wait)) then none else some (us.foldl (fun t u => max t (x.rdy.look 0 u)) x.cyc)

/-- The weaver's run stands at this instruction and may issue it (R85, R257, R356, R484). -/
def State.canIssue (s : State) (w op : Nat) (f : Fields) (x : Run) : Bool :=
  (s.weaver w).st == .active && !decide (w ∈ s.auth.halted) && !x.waiting &&
  x.s.img.code[x.pc]? == some (encWord op f) && decide (x.cyc < x.s.budget)

/-- Tries to issue an instruction. Its guard false, it costs 1 cycle and goes on after `skip` words. With
a register or `ready` not yet there it stalls; the stall is charged once it ends, and at the budget the run stands to be
stopped. Otherwise it issues and has its effect (R86, R251, R257, R262). -/
def State.tryIssue (s : State) (w op : Nat) (f : Fields) (skip : Nat) (uses : List Nat)
    (ready : State → Run → Option Nat) (body : State → Run → State) : State :=
  match (s.weaver w).run with
  | none => s
  | some x =>
    if !s.canIssue w op f x then s else
    let go := fun (t : Nat) (gf : Bool) (k : State → State) =>
      if x.s.budget ≤ t then s.spend w 0 0 0 (x.s.budget - x.cyc)
      else k ((s.spend w 0 0 0 (t - x.cyc)).sampleTag w x.s.part op x.pc x.s.handle gf)
    match x.ready (if f.guard = 0 then [] else [preg (guardPred f)]) with
    | none => s
    | some t0 =>
      if !guardTrue f x then go t0 true (fun s => (s.spend w 0 1 0 0).goTo w (x.pc + skip))
      else match x.ready uses, ready s x with
        | some t1, some t2 =>
          let t := max t0 (max t1 t2)
          go t false (fun s => body s { x with cyc := t })
        | _, _ => s

/-- The instruction retires after its issue cycles and the run goes on (R257). -/
def State.retire (s : State) (w cost len : Nat) : State :=
  match (s.weaver w).run with
  | none => s
  | some x => (s.spend w cost 0 0 0).goTo w (x.pc + len)

/-- Nothing further to wait for. -/
def noWait (_s : State) (_x : Run) : Option Nat := some 0

/-- A next state. -/
def ok (s : State) : Host.Outcome State Fault Refusal := .next s

/-- Writes a general register with its result latency from the cycle of issue (R257). -/
def Run.putG (x : Run) (i : Nat) (v : U64) (lat : Nat) : Run :=
  if i = 0 then x else { x.setGr i v with rdy := x.rdy.put 0 i (x.cyc + lat) }
/-- Writes a vector register with its result latency. -/
def Run.putV (x : Run) (i : Nat) (v : V512) (lat : Nat) : Run :=
  { x.setVr i v with rdy := x.rdy.put 0 (vreg i) (x.cyc + lat) }
/-- Writes a predicate with its result latency. -/
def Run.putP (x : Run) (i : Nat) (v : Bool) (lat : Nat) : Run :=
  { x.setPr i v with rdy := x.rdy.put 0 (preg i) (x.cyc + lat) }

/-! ### Scratch (R259, R262, R268) -/

/-- Declared scratch bytes (R63, R259). -/
def Run.size (x : Run) : Nat := x.s.img.scratchKib * 1024
/-- n bytes at an address lie in the declared scratch, the address aligned (R259). -/
def Run.inScratch (x : Run) (a n align : Nat) : Bool := a % align == 0 && decide (a + n ≤ x.size) && decide (a < x.size)
/-- n scratch bytes. -/
def Run.sbytes (x : Run) (a n : Nat) : List Byte := (nums a n).map (x.scratch.look 0)
/-- Some line of n bytes carries the scratch poison bit. -/
def Run.poisoned (x : Run) (a n : Nat) : Bool := (linesOf a n).any (fun l => decide (l ∈ x.poison))
/-- Cycle at which every line of n bytes has landed; none while one is pending (R262). -/
def Run.landed (x : Run) (a n : Nat) : Option Nat :=
  let ls := linesOf a n
  if ls.any (fun l => x.landing.any (fun e => e.1 = l)) then none
  else some (ls.foldl (fun t l => max t (x.lineAt.look 0 l)) 0)
/-- Stores bytes to scratch. -/
def Run.sput (x : Run) (a : Nat) (bs : List Byte) : Run :=
  { x with scratch := (bs.zip (nums a bs.length)).foldl (fun m e => m.put 0 e.2 e.1) x.scratch }
/-- Clears the poison bits of whole lines. -/
def Run.unpoison (x : Run) (a n : Nat) : Run := { x with poison := x.poison.filter (fun l => !decide (l ∈ linesOf a n)) }

/-- Waits for every region of scratch named. -/
def landedAll (x : Run) : List (Nat × Nat) → Option Nat
  | [] => some 0
  | r :: rs => match x.landed r.1 r.2, landedAll x rs with
    | some a, some b => some (max a b)
    | _, _ => none

/-! ### Pool operands (R258) -/

/-- A range index and byte offset are within rights and length (R258). -/
def Stroke.poolOk (k : Stroke) (i off n : Nat) (need : Range → Bool) : Bool :=
  match k.ranges[i]? with
  | none => false
  | some r => need r && decide (off + n ≤ r.len)

/-- The piece of a stroke's pinned form that holds an offset of a range (R77). -/
def Stroke.pieceAt (k : Stroke) (i off : Nat) : Option PinPage :=
  k.pages.find? (fun x => x.range = i && decide (x.off ≤ off) && decide (off < x.off + x.len))

/-- Pool address of an offset of a range. -/
def Stroke.poolPa (k : Stroke) (i off : Nat) : Nat :=
  match k.pieceAt i off with
  | some x => x.pa + (off - x.off)
  | none => 0

/-- The status that ends a stroke on a pool word: RANGE when misaligned, PERM when the operand fails its check; none
when it passes (R258). -/
def Stroke.wordFault (k : Stroke) (i off n : Nat) (need : Range → Bool) : Option Status :=
  if off % n ≠ 0 then some .range else if k.poolOk i off n need then none else some .perm

/-- The stroke's earlier atomic that the home has not answered; later requests follow it (R270). -/
def State.atomOpen (s : State) (sid : Nat) : Bool :=
  s.poolReqs.any (fun q => q.sid = sid && q.got.isNone && (match q.kind with | .atom _ _ _ _ _ => true | _ => false))

/-- Cycles of a translation-cache miss at an offset of range i: by the die whose pin store holds the translation, and more for
one that was spilled (R115, R117). -/
def Stroke.missCost (k : Stroke) (w i off : Nat) : Nat :=
  match k.pieceAt i off with
  | none => 6
  | some x => if !x.stored then 120 else if weaverDie w = x.die then 6 else if weaverHalf w = x.die / 2 then 20 else 80

/-- The translation of an offset of range i comes into the weaver's cache of 64; a miss is counted and its cycles are
back-starved (R117, R337, R354, R539). -/
def State.weaverXlate (s : State) (w i off : Nat) : State :=
  match (s.weaver w).run with
  | none => s
  | some x =>
    let key := match x.s.pieceAt i off with | some y => y.pa | none => 0
    let s :=
      if key ∈ x.xlate then s
      else
        let n := x.s.missCost w i off
        ((s.ownerEvent x.s.part 0x005 false 1).ownerEvent x.s.part 0x005 true n).spend w 0 0 0 n
    s.onRun w (fun x => { x with xlate := (key :: x.xlate.filter (· ≠ key)).take 64 })

/-- Issues a pool request of the running stroke into its controller, or leaves it in the stream engine behind others or
without an entry (R163, R258, R270, R349). -/
def State.request (s : State) (w : Nat) (x : Run) (pa len : Nat) (kind : PoolKind) (hint : Bool := false) : Nat × State :=
  let n := s.takeId
  let q : PoolReq := { id := n.1, sid := x.s.sid, weaver := w, part := x.s.part, pa := pa, len := len, word := x.pc, kind := kind, hint := hint, enter := s.clock }
  let s := s.engineGo w s.poolReqs.length
  let waits : Bool := s.poolReqs.any (fun y => y.weaver = w && y.stage == .engine) || !s.engineRoom w kind
  let q := if waits then { q with stage := .engine } else q
  let s := { s with nextId := n.2.nextId, poolReqs := s.poolReqs ++ [q] }
  (n.1, if waits then s else s.strokeRequest q)

/-- The register awaits a pool result (R257). -/
def Run.awaitG (x : Run) (i : Nat) : Run := if i = 0 then x else { x with wait := setAdd x.wait i }

/-- Issues the line requests of a transfer of n bytes between scratch and a range, each within one line of both, in
ascending order (R262, R269, R270, R271). -/
def State.transfer (s : State) (w : Nat) (read hint : Bool) (i tag : Nat) : Nat → Nat → Nat → Nat → State
  | 0, _, _, _ => s
  | fuel + 1, sa, off, n =>
    if n = 0 then s else
    match (s.weaver w).run with
    | none => s
    | some x =>
      let pc := x.s.pieceAt i off
      let pa := x.s.poolPa i off
      let left := match pc with | some y => y.off + y.len - off | none => n
      let k := max 1 (min (min n left) (min (64 - sa % 64) (64 - pa % 64)))
      let s := s.weaverXlate w i off
      let s := s.onRun w (fun x => { x with tags := x.tags.put 0 tag (x.tags.look 0 tag + 1) })
      let s := if read then
          let s := s.ownerEvent x.s.part 0x003 false 1
          let s := s.onRun w (fun x => { x with landing := x.landing ++ [(sa / 64, s.nextId)] })
          (s.request w x pa k (.line sa tag) hint).2
        else
          let s := s.ownerEvent x.s.part 0x004 false 1
          (s.request w x pa k (.lineOut (x.sbytes sa k) (List.replicate k true) (x.poisoned sa k) tag) hint).2
      s.transfer w read hint i tag fuel (sa + k) (off + k) (n - k)

/-- Requests that a transfer of n bytes can need: two for each line, and its ends. -/
def transferFuel (n : Nat) : Nat := 2 * (n / 64 + 2)

/-- A tag is idle: the cycle since when, or none while lines are outstanding (R270). -/
def Run.tagIdle (x : Run) (tag : Nat) : Option Nat := if x.tags.look 0 tag = 0 then some (x.tagAt.look 0 tag) else none

/-- Every pool write, atomic, FLAG and SEND of the stroke is acknowledged (R285). -/
def fenced (s : State) (x : Run) : Option Nat := if s.unacked x.s.sid then none else some x.ackAt

/-- The larger of two waits. -/
def both (a b : Option Nat) : Option Nat :=
  match a, b with
  | some x, some y => some (max x y)
  | _, _ => none

/-- A pool instruction waits for the stroke's open atomic (R270). -/
def poolWait (s : State) (x : Run) : Option Nat := if s.atomOpen x.s.sid then none else some 0

end Sys2Proof.Machine
end

