-- ==== Sys2Proof/Machine/Transfers.lean ====
section
/-! DEFINITION. The pool transfer instructions and atomics of a stroke, and the answers they get (R260 to R262, R269 to
R271, R284 to R286). -/
namespace Sys2Proof.Machine

/-! ### Streams (R269, R270) -/

/-- Range index of a transfer: IMM [2:0]. -/
def immRange (f : Fields) : Nat := immBits f 2 0
/-- Tag of a transfer: IMM [6:3]. -/
def immTag (f : Fields) : Nat := immBits f 6 3
/-- R of a range. -/
def needR (r : Range) : Bool := r.r
/-- W of a range. -/
def needW (r : Range) : Bool := r.w
/-- A of a range. -/
def needA (r : Range) : Bool := r.a

/-- Why a STREAM or STREAMW of nonzero length ends its stroke, if it does (R258, R269). -/
def streamFault (x : Run) (f : Fields) (need : Range → Bool) : Option Status :=
  let sa := (x.gd f).toNat
  let off := (x.s1 f).toNat
  let n := (x.gr f.src2.toNat).toNat
  if n = 0 then none
  else if sa % 64 ≠ off % 64 || decide (0xFFFFFFFF < n) || decide (x.size < sa + n) then some .range
  else if decide (0xFFFFFFFF < off) || !x.s.poolOk (immRange f) off n need then some .perm
  else none

/-- A stream between scratch gD and pool offset gS1 of gS2 bytes on a tag (R269, R270). -/
def State.streamOp (s : State) (w op : Nat) (f : Fields) (read : Bool) : State :=
  let need := if read then needR else needW
  s.tryIssue w op f 1 [f.dst.toNat, f.src1.toNat, f.src2.toNat]
    (fun s x => match streamFault x f need with
      | some _ => some 0
      | none =>
        let src := if read then some 0 else x.landed (x.gd f).toNat (x.gr f.src2.toNat).toNat
        both (both (x.tagIdle (immTag f)) src) (poolWait s x))
    (fun s x => match streamFault x f need with
      | some st => s.faultRun w st
      | none =>
        let n := (x.gr f.src2.toNat).toNat
        (s.transfer w read (immBits f 7 7 == 1) (immRange f) (immTag f) (transferFuel n) (x.gd f).toNat (x.s1 f).toNat n).retire w 2 1)

/-- STREAM: pool to scratch, with the R right (R269). -/
def execStream (w : WeaverId) (f : Fields) (s : State) : Host.Outcome State Fault Refusal :=
  ok (s.streamOp w.val 0x2E f true)

/-- STREAMW: scratch to pool, with the W right (R269). -/
def execStreamw (w : WeaverId) (f : Fields) (s : State) : Host.Outcome State Fault Refusal :=
  ok (s.streamOp w.val 0x2F f false)

/-- Element bytes of a GATHER or SCATTER: 64 B shifted left by IMM [10:8] (R269). -/
def elemSize (f : Fields) : Nat := 64 * 2 ^ immBits f 10 8

/-- Why a GATHER or SCATTER ends its stroke before it issues, if it does (R259, R269). DESIGN CHOICE: a count of 0 issues nothing
and keeps no check of the scratch address or the list, as a STREAM of length 0 keeps none (R14; log 164). -/
def gatherFault (x : Run) (f : Fields) : Option Status :=
  let n := (x.gr f.src2.toNat).toNat
  let sa := (x.gd f).toNat
  let li := (x.s1 f).toNat
  if immBits f 10 8 = 7 || decide (16777215 < n) then some .range
  else if n = 0 then none
  else if sa % 64 ≠ 0 || li % 4 ≠ 0 || decide (x.size < sa + n * elemSize f) || decide (x.size < li + 4 * n)
  then some .range else none

/-- The elements of a GATHER or SCATTER in order; the first that fails R258 ends the stroke with PERM after those before
it (R269). -/
def State.elements (s : State) (w : Nat) (f : Fields) (read : Bool) (x : Run) : Nat → Nat → State
  | 0, _ => s.retire w 2 1
  | n + 1, i =>
    let e := elemSize f
    let off := ofBytes (x.sbytes ((x.s1 f).toNat + 4 * i) 4) * e
    if decide (0xFFFFFFFF < off) || !x.s.poolOk (immRange f) off e (if read then needR else needW) then s.faultRun w .perm
    else
      (s.transfer w read (immBits f 7 7 == 1) (immRange f) (immTag f) (transferFuel e) ((x.gd f).toNat + i * e) off e).elements w f read x n (i + 1)

/-- A gather or scatter of gS2 elements (R269). -/
def State.gatherOp (s : State) (w op : Nat) (f : Fields) (read : Bool) : State :=
  s.tryIssue w op f 1 [f.dst.toNat, f.src1.toNat, f.src2.toNat]
    (fun s x => match gatherFault x f with
      | some _ => some 0
      | none =>
        let n := (x.gr f.src2.toNat).toNat
        let src := if read then some 0 else x.landed (x.gd f).toNat (n * elemSize f)
        both (both (both (x.tagIdle (immTag f)) (x.landed (x.s1 f).toNat (4 * n))) src) (poolWait s x))
    (fun s x => match gatherFault x f with
      | some st => s.faultRun w st
      | none =>
        let n := (x.gr f.src2.toNat).toNat
        if x.poisoned (x.s1 f).toNat (4 * n) then s.faultRun w .poison else s.elements w f read x n 0)

/-- GATHER: indexed pool elements to scratch (R269). -/
def execGather (w : WeaverId) (f : Fields) (s : State) : Host.Outcome State Fault Refusal :=
  ok (s.gatherOp w.val 0x30 f true)

/-- SCATTER: scratch elements to indexed pool offsets (R269). -/
def execScatter (w : WeaverId) (f : Fields) (s : State) : Host.Outcome State Fault Refusal :=
  ok (s.gatherOp w.val 0x31 f false)

/-! ### Pool words (R258, R269, R284 to R286) -/

/-- A pool word named by gS1 and IMM [2:0]: a fault, or its address handed on (R258). -/
def State.poolWord (s : State) (w : Nat) (f : Fields) (x : Run) (n : Nat) (need : Range → Bool) (k : State → Nat → State) :
    State :=
  let off := (x.s1 f).toNat
  match x.s.wordFault (immRange f) off n need with
  | some st => s.faultRun w st
  | none =>
    let pa := x.s.poolPa (immRange f) off
    k (s.weaverXlate w (immRange f) off) pa

/-- PLD: an aligned 8 B pool word into gD, which waits for the data (R269). -/
def execPld (w : WeaverId) (f : Fields) (s : State) : Host.Outcome State Fault Refusal :=
  ok (s.tryIssue w.val 0x32 f 1 [f.dst.toNat, f.src1.toNat] poolWait (fun s x =>
    s.poolWord w.val f x 8 needR (fun s pa =>
      ((s.onRun w.val (fun y => y.awaitG f.dst.toNat)).request w.val x pa 8 (.load f.dst.toNat)).2.retire w.val 1 1)))

/-- PST: an aligned 8 B store of gS2 (R269). -/
def execPst (w : WeaverId) (f : Fields) (s : State) : Host.Outcome State Fault Refusal :=
  ok (s.tryIssue w.val 0x33 f 1 [f.src1.toNat, f.src2.toNat] poolWait (fun s x =>
    s.poolWord w.val f x 8 needW (fun s pa =>
      (s.request w.val x pa 8 (.store (toBytes 8 (x.gr f.src2.toNat).toNat))).2.retire w.val 1 1)))

/-- SWAIT: waits until every tag of IMM [15:0] is idle (R269). -/
def execSwait (w : WeaverId) (f : Fields) (s : State) : Host.Outcome State Fault Refusal :=
  let tags := (List.range 16).filter (fun t => f.imm.getLsbD t)
  ok (s.tryIssue w.val 0x34 f 1 [] (fun _ x => tags.foldl (fun t g => both t (x.tagIdle g)) (some 0))
    (fun s _ => s.retire w.val 1 1))

/-- An atomic on a pool word: IMM [3] is the width; gD receives the old value when the answer arrives (R284). -/
def State.atomicOp (s : State) (w op : Nat) (f : Fields) (a : AtomOp) : State :=
  let w8 := immBits f 3 3 == 1
  s.tryIssue w op f 1 [f.dst.toNat, f.src1.toNat, f.src2.toNat] poolWait (fun s x =>
    s.poolWord w f x (atomWidth w8) needA (fun s pa =>
      let s := s.ownerEvent x.s.part 0x007 false 1
      let s := s.onRun w (fun y => y.awaitG f.dst.toNat)
      (s.request w x pa (atomWidth w8) (.atom f.dst.toNat a w8 (x.gr f.src2.toNat) (x.gd f))).2.retire w 1 1))

/-- AADD: atomic add (R284). -/
def execAadd (w : WeaverId) (f : Fields) (s : State) : Host.Outcome State Fault Refusal :=
  ok (s.atomicOp w.val 0xA0 f .add)

/-- ACAS: atomic compare and swap; gD holds the compare value on issue (R284). -/
def execAcas (w : WeaverId) (f : Fields) (s : State) : Host.Outcome State Fault Refusal :=
  ok (s.atomicOp w.val 0xA1 f .cas)

/-- AMAX: atomic signed maximum (R284). -/
def execAmax (w : WeaverId) (f : Fields) (s : State) : Host.Outcome State Fault Refusal :=
  ok (s.atomicOp w.val 0xA2 f .max)

/-- ASWAP: atomic swap (R284). -/
def execAswap (w : WeaverId) (f : Fields) (s : State) : Host.Outcome State Fault Refusal :=
  ok (s.atomicOp w.val 0xA3 f .swap)

/-- FENCE: stalls until every earlier write of the stroke is acknowledged (R285). -/
def execFence (w : WeaverId) (f : Fields) (s : State) : Host.Outcome State Fault Refusal :=
  ok (s.tryIssue w.val 0xA4 f 1 [] fenced (fun s _ => s.retire w.val 1 1))

/-- FLAG: after the wait of a FENCE, an 8 B write of gS2 (R286). -/
def execFlag (w : WeaverId) (f : Fields) (s : State) : Host.Outcome State Fault Refusal :=
  ok (s.tryIssue w.val 0xA5 f 1 [f.src1.toNat, f.src2.toNat]
    (fun s x => if (x.s.wordFault (immRange f) (x.s1 f).toNat 8 needW).isSome then some 0 else fenced s x)
    (fun s x => s.poolWord w.val f x 8 needW (fun s pa =>
      (s.request w.val x pa 8 (.store (toBytes 8 (x.gr f.src2.toNat).toNat))).2.retire w.val 1 1)))

/-! ### Answers -/

/-- The run that a pool request belongs to, if its stroke still runs on its weaver. -/
def State.runOf (s : State) (q : PoolReq) : Option Run :=
  match (s.weaver q.weaver).run with
  | some x => if x.s.sid = q.sid then some x else none
  | none => none

/-- Removes a pool request. -/
def State.dropReq (s : State) (id : Nat) : State := { s with poolReqs := s.poolReqs.filter (fun q => q.id ≠ id) }

/-- A tag loses an outstanding line; idle, it is so from this cycle on (R270). -/
def Run.tagDown (x : Run) (tag cycle : Nat) : Run :=
  let n := x.tags.look 0 tag - 1
  { x with tags := x.tags.put 0 tag n, tagAt := if n = 0 then x.tagAt.put 0 tag cycle else x.tagAt }

/-- The running stroke ends at this instruction boundary, in a cycle up to which it has stalled, with a status that names
an earlier instruction (R260, R261). -/
def State.failRun (s : State) (w : Nat) (st : Status) (word cycle : Nat) : State :=
  match (s.weaver w).run with
  | none => s
  | some x => (s.spend w 0 0 0 (min cycle x.s.budget - x.cyc)).endRun w st word 0

/-- A suspended stroke whose write is refused completes with that status (R261). -/
def State.failSuspended (s : State) (q : PoolReq) (st : Status) : State :=
  match (s.part q.part).suspended.find? (fun k => k.s.sid = q.sid) with
  | none => s
  | some k =>
    let s := s.onPart q.part (fun p => { p with suspended := p.suspended.filter (fun k => k.s.sid ≠ q.sid) })
    s.complete k.s st 0 q.word 0

/-- The record of an ended stroke may leave once nothing of the stroke is in flight (R87). -/
def State.recordMayGo (s : State) (p sid : Nat) : State :=
  if s.unacked sid then s
  else (nums 0 64).foldl (fun s c => if (s.cq p c).due.any (fun r => r.sid = sid) then s.recReady p c sid else s) s

/-- A refused write or atomic ends the stroke, or changes the record of an ended one in place of OK, CAP_LIMITED or
OVERRUN; the record may leave once nothing of the stroke is in flight (R261). -/
def State.refuseReq (s : State) (q : PoolReq) (st : Status) (cycle : Nat) : State :=
  let s := s.dropReq q.id
  match s.runOf q with
  | some _ => s.failRun q.weaver st q.word cycle
  | none =>
    if (s.part q.part).suspended.any (fun k => k.s.sid = q.sid) then s.failSuspended q st else
    let f := fun (r : DueRec) => if r.sid = q.sid && !r.ready then { r with status := lateStatus r.status st.code } else r
    let s := s.onPart q.part (fun p => { p with cqs := p.cqs.mapAll {} (fun _ c => { c with due := c.due.map f }) })
    s.recordMayGo q.part q.sid

/-- An acknowledged write leaves; an ended stroke's record may leave with its last write (R87). -/
def State.ackedReq (s : State) (q : PoolReq) (cycle : Nat) : State :=
  let s := s.dropReq q.id
  let tag : Option Nat := match q.kind with | .lineOut _ _ _ t => some t | _ => none
  match s.runOf q with
  | some _ => s.onRun q.weaver (fun x =>
      let x := { x with ackAt := max x.ackAt cycle }
      match tag with | some t => x.tagDown t cycle | none => x)
  | none =>
    s.recordMayGo q.part q.sid

/-- Bytes land at a scratch address: those of a later-issued transfer that landed before remain (R262, R271). -/
def Run.landBytes (x : Run) (id sa tag cycle : Nat) (bs : List Byte) (poison : Bool) : Run :=
  let line := sa / 64
  let kept := fun (a : Nat) => x.landedBy.any (fun e => decide (id < e.1) && decide (e.2.1 ≤ a) && decide (a < e.2.1 + e.2.2))
  let new := (bs.zip (nums sa bs.length)).filter (fun e => !kept e.2)
  let landing := x.landing.filter (fun e => e.2 ≠ id)
  let open_ := landing.any (fun e => e.1 = line)
  let landedBy := if open_ then (id, sa, bs.length) :: x.landedBy else x.landedBy.filter (fun e => e.2.1 / 64 ≠ line)
  let set := if poison then (if new.isEmpty then x.poison else setAdd x.poison line)
    else if new.length = 64 then setDel x.poison line else x.poison
  let x := { x with landing := landing, landedBy := landedBy, poison := set, lineAt := x.lineAt.put 0 line cycle }
  let x := { x with scratch := new.foldl (fun (m : SMap Byte) (e : Byte × Nat) => m.put 0 e.2 e.1) x.scratch }
  x.tagDown tag cycle

/-- A pool line lands in scratch: its bytes, its poison, its pending bit and its tag (R262, R271). -/
def State.land (s : State) (q : PoolReq) (sa tag cycle : Nat) (bs : List Byte) (poison : Bool) : State :=
  let s := s.dropReq q.id
  match s.runOf q with
  | none => s
  | some _ => s.onRun q.weaver (fun x => x.landBytes q.id sa tag cycle bs poison)

/-- STREAM_LINE_LAND: the scheduler has issued a line request, and the bytes that its home gave land in scratch at a cycle
of the run (R166, R262, R271). -/
def execStreamLineLand (id cycle : Nat) (s : State) : Host.Outcome State Fault Refusal :=
  let s := (s.advance id).serveReq id
  match s.poolReq id with
  | none => .next s
  | some q => match q.kind, q.got with
    | .line sa tag, some (.ok, bs, poison) => .next (s.land q sa tag cycle bs poison)
    | .line _ _, some (st, _, _) =>
      match s.runOf q with
      | some _ => .next ((s.dropReq id).failRun q.weaver st q.word cycle)
      | none => .next (s.dropReq id)
    | _, _ => .next s

/-- The status an answer carries: an error of the path to the home, or the home's own (R260). -/
def answerStatus (st got : Status) : Status := if st = .ok then got else st

/-- The condition of a WAIT (R287). -/
def waitCond (c : Nat) (a b : Nat) : Bool :=
  match c with
  | 0 => a == b
  | 1 => a != b
  | 2 => decide (b ≤ a)
  | _ => decide (a < b)

/-- Watches of a partition in a half; each half holds 64 (R287). -/
def State.watches (s : State) (p h : Nat) : Nat :=
  ((s.part p).suspended.filter (fun k => k.watch.any (fun x => homeHalf x.1 = h))).length

/-- What WAIT does with the word it read: the table of R287. -/
def State.waitResult (s : State) (q : PoolReq) (reg : Nat) (w8 : Bool) (cond : Nat) (cmp : U64) (resume timeout cycle : Nat)
    (bs : List Byte) : State :=
  let w := q.weaver
  match (s.weaver w).run with
  | none => s
  | some x =>
    let stall := if cycle ≤ x.cyc then 0 else min cycle x.s.budget - x.cyc
    let s := (s.onRun w (fun y => { y with waiting := false })).spend w 0 0 0 stall
    if x.s.budget ≤ x.cyc + stall then s else
    let n := if w8 then 64 else 32
    let v := ofBytes bs
    let done := fun (st : Status) => (s.onRun w (fun y => y.putG reg (BitVec.ofNat 64 st.code) 1)).retire w 1 1
    if waitCond cond v (cmp.toNat % 2 ^ n) then done .ok
    else if timeout = 0 then done .timeout
    else if 64 ≤ s.watches x.s.part (homeHalf q.pa) then done .busyRetry
    else (s.spend w 1 0 0 0).suspend w resume (some (q.pa, w8, cond, cmp)) (s.now + timeout) none

/-- POOL_RESPONSE: the scheduler has issued the request (R166); a read's data, a write's acknowledgement or an atomic's old value arrives at a cycle of the run, or an
error status ends the stroke (R260, R284, R287). -/
def execPoolResponse (id : Nat) (st : Status) (cycle : Nat) (s : State) : Host.Outcome State Fault Refusal :=
  let s := (s.advance id).serveReq id
  match s.poolReq id with
  | none => .next s
  | some q =>
    match q.got, st with
    | none, .ok => .next s
    | _, _ =>
      let got := q.got.getD (.ok, [], false)
      let st := answerStatus st got.1
      match q.kind with
      | .line sa tag =>
        if st = .ok then .next (s.land q sa tag cycle got.2.1 got.2.2)
        else match s.runOf q with
          | some _ => .next ((s.dropReq id).failRun q.weaver st q.word cycle)
          | none => .next (s.dropReq id)
      | .load reg =>
        match s.runOf q with
        | none => .next (s.dropReq id)
        | some _ =>
          if st ≠ .ok then .next ((s.dropReq id).failRun q.weaver st q.word cycle)
          else if got.2.2 then .next ((s.dropReq id).failRun q.weaver .poison q.word cycle)
          else .next ((s.dropReq id).onRun q.weaver (fun x =>
            { x.setGr reg (BitVec.ofNat 64 (ofBytes got.2.1)) with wait := setDel x.wait reg, rdy := x.rdy.put 0 reg cycle }))
      | .waitRead reg w8 cond cmp resume timeout =>
        match s.runOf q with
        | none => .next (s.dropReq id)
        | some _ =>
          if st ≠ .ok then .next ((s.dropReq id).failRun q.weaver st q.word cycle)
          else if got.2.2 then .next ((s.dropReq id).failRun q.weaver .poison q.word cycle)
          else .next ((s.dropReq id).waitResult q reg w8 cond cmp resume timeout cycle got.2.1)
      | .atom reg _ _ _ _ =>
        if st ≠ .ok then .next (s.refuseReq q st cycle)
        else
          let s := s.ackedReq q cycle
          match s.runOf q with
          | none => .next s
          | some _ => .next (s.onRun q.weaver (fun x => if reg = 0 then x else
              { x.setGr reg (BitVec.ofNat 64 (ofBytes got.2.1)) with wait := setDel x.wait reg, rdy := x.rdy.put 0 reg cycle }))
      | _ => if st ≠ .ok then .next (s.refuseReq q st cycle) else .next (s.ackedReq q cycle)

/-- POOL_WRITE_REFUSAL: the refusal of a write or atomic by its home reaches the stroke (R190, R239, R261). -/
def execPoolWriteRefusal (id : Nat) (st : Status) (s : State) : Host.Outcome State Fault Refusal :=
  let s := (s.advance id).serveReq id
  match s.poolReq id with
  | none => .next s
  | some q => match q.got with
    | some (g, _, _) => if q.kind.writes && g = st && st ≠ .ok then .next (s.refuseReq q st 0) else .next s
    | none => .next s

end Sys2Proof.Machine
end

