-- ==== Sys2Proof/Machine/Bulk.lean ====
section
/-! DEFINITION. The bulk operations: their launch from a stroke, their channels, and the slices in which they run (R92 to
R95, R281 to R283). -/
namespace Sys2Proof.Machine

/-! ### Launch -/

/-- A bulk block (R281). -/
structure BulkBlock where
  dstOff : Nat
  srcOff : Nat
  len : Nat
  dstRange : Nat
  srcRange : Nat
  fmt : Nat
  op : Nat
  rsvd : Bool
  pattern : U64
  deriving DecidableEq, Repr

/-- Reads the fields of a bulk block (R281). -/
def bulkBlock (bs : List Byte) : BulkBlock :=
  let w := fun (i : Nat) => (BitVec.ofNat 64 (ofBytes ((bs.drop (8 * i)).take 8)) : U64)
  { dstOff := bits (w 0) 31 0, srcOff := bits (w 0) 63 32, len := bits (w 1) 31 0, dstRange := bits (w 1) 34 32,
    srcRange := bits (w 1) 38 36, fmt := bits (w 1) 43 40, op := bits (w 1) 45 44,
    rsvd := bit (w 1) 35 || bit (w 1) 39 || bits (w 1) 63 46 != 0 || w 3 != 0, pattern := w 2 }

/-- The kind writes its destination range (R282). -/
def BulkKind.writes : BulkKind → Nat → Bool
  | .fill, _ => true
  | .copy, _ => true
  | .compare, _ => false
  | .reduce, _ => true
  | .checksum, op => op == 1

/-- The kind reads its source range (R282). -/
def BulkKind.readsSrc : BulkKind → Bool
  | .fill => false
  | _ => true

/-- The kind reads its destination range (R282). -/
def BulkKind.readsDst : BulkKind → Bool
  | .compare => true
  | .reduce => true
  | _ => false

/-- Bytes that the kind names in its destination range (R282). -/
def BulkBlock.dstLen (b : BulkBlock) (k : BulkKind) : Nat :=
  if k = .checksum then (if b.op = 1 then 32 else 0) else b.len

/-- A field that the kind does not use is nonzero (R281, R283). -/
def BulkBlock.unused (b : BulkBlock) (k : BulkKind) : Bool :=
  let noSrc : Bool := b.srcOff != 0 || b.srcRange != 0
  let noDst : Bool := b.dstOff != 0 || b.dstRange != 0
  match k with
  | .fill => noSrc || b.fmt != 0 || b.op != 0
  | .copy => b.fmt != 0 || b.op != 0 || b.pattern != 0
  | .compare => b.fmt != 0 || b.op != 0 || b.pattern != 0
  | .reduce => b.pattern != 0
  | .checksum => b.fmt != 0 || b.pattern != 0 || (b.op == 0 && noDst)

/-- A range index is below NRANGES and its range has the rights, and every named byte lies in it (R283 check 4). -/
def Stroke.bulkOk (k : Stroke) (i off n : Nat) (need : Range → Bool) : Bool :=
  match k.ranges[i]? with
  | none => false
  | some r => need r && (n == 0 || decide (off + n ≤ r.len))

/-- The pieces of a stroke's pinned form that bytes of a range lie in, counted from the first of them (R92). -/
def Stroke.slicePages (k : Stroke) (i off n : Nat) : List PinPage :=
  let ps := k.pages.filter (fun x => x.range = i && decide (x.off < off + n) && decide (off < x.off + x.len))
  ps.map (fun x =>
    let lo := max x.off off
    { x with off := lo - off, pa := x.pa + (lo - x.off), len := min (x.off + x.len) (off + n) - lo,
             pin := x.pin || decide (x.off ≤ off) })

/-- Two lists of pieces share a pool byte. -/
def overlaps (a b : List PinPage) : Bool :=
  a.any (fun x => b.any (fun y => decide (x.pa < y.pa + y.len) && decide (y.pa < x.pa + x.len)))

/-- The cluster of a half that does its rebuild and bank moves: that of the lower-numbered working die (R94, R210). -/
def State.rebuildDie (s : State) (h : Nat) : Nat := if (s.die (2 * h)).ok then 2 * h else 2 * h + 1

/-- Units of a half are moved to spare slots: a rebuild, or a bank's retirement, is pending or running (R94, R204, R210). -/
def HalfSt.moves (x : HalfSt) : Bool := x.rebuilding || x.moving.isSome

/-- Channels of a cluster that take launched operations: 0 to 5, and 6 unless a rebuild of its half is pending or running
on the cluster (R93, R94). -/
def State.bulkChannels (s : State) (d : Nat) : List Nat :=
  if (s.half (d / 2)).moves && s.rebuildDie (d / 2) == d then List.range 6 else List.range 7

/-- A free channel of a cluster. -/
def State.freeChannel (s : State) (d : Nat) : Option Nat :=
  (s.bulkChannels d).find? (fun c => ((s.die d).channels.look none c).isNone)

/-- The channel that a launch takes at once: none while operations launched earlier wait in the queue (R93). -/
def State.launchChannel (s : State) (d : Nat) : Option Nat := if (s.die d).queue.isEmpty then s.freeChannel d else none

/-- Checks 1 to 5 of R283. DESIGN CHOICE: an operation that reaches beyond its range has PERM, as R92 and check 4 of R283 say,
and not the RANGE that R99 gives a bulk operation which reaches beyond what is mapped or allotted (log 163). -/
def bulkChecks (k : Stroke) (kind : BulkKind) (b : BulkBlock) : Status :=
  let e := elemBits b.fmt / 8
  let src := k.slicePages b.srcRange b.srcOff b.len
  let dst := k.slicePages b.dstRange b.dstOff (b.dstLen kind)
  if b.rsvd || b.unused kind then .rsvdNonzero
  else if (kind == .reduce && b.op == 3) || (kind == .checksum && decide (2 ≤ b.op)) then .range
  else if kind == .reduce && !(decide (b.fmt ≤ 2) || (decide (8 ≤ b.fmt) && decide (b.fmt ≤ 10))) then .format
  else if kind.readsSrc && !k.bulkOk b.srcRange b.srcOff b.len needR then .perm
  else if (kind.readsDst || kind.writes b.op) && !k.bulkOk b.dstRange b.dstOff (if b.len = 0 then 0 else b.dstLen kind)
    (fun r => (!kind.readsDst || r.r) && (!kind.writes b.op || r.w)) then .perm
  else if kind == .reduce && (b.len % e != 0 || b.srcOff % e != 0 || b.dstOff % e != 0) then .range
  else if kind == .copy && overlaps src dst then .range
  else .ok

/-- Launches an operation: BUSY_RETRY with the queue full or no CQ slot; otherwise it takes a channel or a place in the
queue, with its pins and its reservation (R83, R92, R93). -/
def State.bulkLaunch (s : State) (w : Nat) (k : Stroke) (kind : BulkKind) (b : BulkBlock) (tag : U64) : Status × State :=
  match bulkChecks k kind b with
  | .ok =>
    if b.len = 0 then (.ok, s) else
    let d := weaverDie w
    if decide (64 ≤ (s.die d).queue.length) || !(s.cq k.part k.cq).hasSlot then (.busyRetry, s)
    else
      let src := if kind.readsSrc then k.slicePages b.srcRange b.srcOff b.len else []
      let dst := if kind.readsDst || kind.writes b.op then k.slicePages b.dstRange b.dstOff (b.dstLen kind) else []
      let o : BulkOp := { kind := kind, part := k.part, sq := k.sq, cq := k.cq, sid := k.sid, userTag := tag, len := b.len, dst := dst, src := src, pattern := b.pattern, fmt := b.fmt, op := b.op, launched := s.now }
      let s := (s.pinAll src).pinAll dst
      let s := s.onCq k.part k.cq (fun c => { c with resv := c.resv + 1 })
      match s.launchChannel d with
      | some c => (.ok, s.onDie d (fun x => { x with channels := x.channels.put none c (some o) }))
      | none => (.ok, s.onDie d (fun x => { x with queue := x.queue ++ [o] }))
  | st => (st, s)

/-- The five launches: the block at scratch gS1, USER_TAG in gS2, the status in gD (R281, R283). -/
def State.bulkInstr (s : State) (w op : Nat) (f : Fields) (kind : BulkKind) : State :=
  s.tryIssue w op f 1 [f.dst.toNat, f.src1.toNat, f.src2.toNat]
    (fun _ x => if x.inScratch (x.s1 f).toNat 32 32 then x.landed (x.s1 f).toNat 32 else some 0)
    (fun s x =>
      let a := (x.s1 f).toNat
      if !x.inScratch a 32 32 then s.faultRun w .range
      else if x.poisoned a 32 then s.faultRun w .poison
      else
        let r := s.bulkLaunch w x.s kind (bulkBlock (x.sbytes a 32)) (x.gr f.src2.toNat)
        (r.2.onRun w (fun y => y.putG f.dst.toNat (BitVec.ofNat 64 r.1.code) 6)).retire w 4 1)

/-- FILL (R281, R282). -/
def execFill (w : WeaverId) (f : Fields) (s : State) : Host.Outcome State Fault Refusal :=
  ok (s.bulkInstr w.val 0x80 f .fill)
/-- COPY (R281, R282). -/
def execCopy (w : WeaverId) (f : Fields) (s : State) : Host.Outcome State Fault Refusal :=
  ok (s.bulkInstr w.val 0x81 f .copy)
/-- COMPARE (R281, R282). -/
def execCompare (w : WeaverId) (f : Fields) (s : State) : Host.Outcome State Fault Refusal :=
  ok (s.bulkInstr w.val 0x82 f .compare)
/-- REDUCE (R281, R282). -/
def execReduce (w : WeaverId) (f : Fields) (s : State) : Host.Outcome State Fault Refusal :=
  ok (s.bulkInstr w.val 0x83 f .reduce)
/-- CHECKSUM (R281, R282). -/
def execChecksum (w : WeaverId) (f : Fields) (s : State) : Host.Outcome State Fault Refusal :=
  ok (s.bulkInstr w.val 0x84 f .checksum)

/-! ### Slices -/

/-- Bytes of a full slice at the round length in force (R94). -/
def RoundSt.sliceBytes (r : RoundSt) : Nat := 131072 * r.micros

/-- An operation begins its next slice at step 8: shortened by the issue duty (R94). -/
def BulkOp.startSlice (o : BulkOp) (now full duty : Nat) : BulkOp :=
  if o.slice ≠ 0 || now ≤ o.launched then o else
  let cut := full * duty / 16
  let n := min (o.len - o.done) cut
  { o with slice := n, slices := o.slices + 1, capped := o.capped || decide (cut < min (o.len - o.done) full) }

/-- Step 8: every operation on a channel begins its next slice (R94). -/
def State.startSlices (s : State) : State :=
  let go := fun (_ : Nat) (c : Option BulkOp) => c.map (fun o => o.startSlice s.now s.rnd.sliceBytes s.power.duty)
  { s with dies := s.dies.mapAll {} (fun _ d => { d with channels := d.channels.mapAll none go }) }

/-- Queued operations take free channels in launch order, oldest first (R93, R94). -/
def State.fillChannels (s : State) (d : Nat) : Nat → State
  | 0 => s
  | n + 1 =>
    match (s.die d).queue, s.freeChannel d with
    | o :: rest, some c =>
      (s.onDie d (fun x => { x with queue := rest, channels := x.channels.put none c (some o) })).fillChannels d n
    | _, _ => s

/-- An operation is complete: its pins and channel are released and its record is due (R92, R94 to R97). -/
def State.bulkDone (s : State) (d ch : Nat) (o : BulkOp) (st : Status) (result : U64) : State :=
  let st := if st = .ok && o.capped then .capLimited else st
  let s := (s.unpinAll o.src).unpinAll o.dst
  let s := s.onDie d (fun x => { x with channels := x.channels.put none ch none })
  let s := s.postRec o.part o.cq { kind := 1, status := st.code, sq := o.sq, cycles := min o.slices 65535, detail := 0x7FFF, userTag := o.userTag, round := s.now, result := result }
  s.fillChannels d 8

/-- Pool address of a byte of an operation's source or destination. -/
def pageAt (ps : List PinPage) (off : Nat) : Nat :=
  match ps.find? (fun x => decide (x.off ≤ off) && decide (off < x.off + x.len)) with
  | some x => x.pa + (off - x.off)
  | none => 0

/-- Bytes off to off + n − 1 of pieces, cut at the ends of 64-byte lines: offset, pool address, count. -/
def lineCuts (ps : List PinPage) : Nat → Nat → Nat → List (Nat × Nat × Nat)
  | 0, _, _ => []
  | fuel + 1, off, n =>
    if n = 0 then [] else
    let pa := pageAt ps off
    let left := match ps.find? (fun x => decide (x.off ≤ off) && decide (off < x.off + x.len)) with
      | some x => x.off + x.len - off
      | none => n
    let k := max 1 (min (min n left) (64 - pa % 64))
    (off, pa, k) :: lineCuts ps fuel (off + k) (n - k)

/-- Reads the cut lines in order up to the first that is poison: the bytes, and the offset of the poison (R95, R191). -/
def State.readCuts (s : State) : List (Nat × Nat × Nat) → List Byte × Option Nat
  | [] => ([], none)
  | (off, pa, n) :: rest =>
    let r := s.readPool pa n
    if r.2 then ([], some off)
    else
      let t := s.readCuts rest
      (r.1 ++ t.1, t.2)

/-- Writes the cut lines; a partly written line that is poison is left and its first offset kept; a published frame
refuses its write (R95, R190, R239). -/
def State.writeCuts (s : State) (p : Nat) : List (Nat × Nat × Nat) → List Byte → State × Option Nat × Bool
  | [], _ => (s, none, false)
  | (off, pa, n) :: rest, bs =>
    let part := bs.take n
    if part.isEmpty then (s, none, false) else
    if s.frameRefuses p pa then (s, none, true) else
    let bad := s.writeRefused pa (List.replicate part.length true)
    let s := if bad then s
      else (s.writeLine pa part (List.replicate part.length true) []).countWrite p pa 1 1 3
    let t := s.writeCuts p rest (bs.drop n)
    (t.1, if bad then some off else t.2.1, t.2.2)

/-- One element of REDUCE: nearest-even for floats, wrapping for integers (R282, R321). -/
def reduceElem (c op a b : Nat) : Nat :=
  match fmtOf c with
  | .float ff =>
    let nan := ff.nan.getD 0
    (match op with
    | 0 => ff.arith .nearest ((ff.value a).add (ff.value b))
    | 1 => pickMax nan (a, ff.value a) (b, ff.value b)
    | _ => pickMin nan (a, ff.value a) (b, ff.value b))
  | .int n =>
    let x := intValue n a
    let y := intValue n b
    intEnc n (match op with | 0 => x + y | 1 => max x y | _ => min x y)
  | _ => a

/-- REDUCE over bytes, by whole elements. -/
def reduceBytes (c op : Nat) : Nat → List Byte → List Byte → List Byte
  | 0, _, _ => []
  | n + 1, d, s =>
    let e := elemBits c / 8
    if d.length < e || s.length < e then [] else
    toBytes e (reduceElem c op (ofBytes (d.take e)) (ofBytes (s.take e))) ++ reduceBytes c op n (d.drop e) (s.drop e)

/-- The first offset at which two byte lists differ. -/
def firstDiff : List Byte → List Byte → Nat → Option Nat
  | a :: l, b :: m, i => if a = b then firstDiff l m (i + 1) else some i
  | _, _, _ => none

/-- The smaller of two optional offsets. -/
def minOpt (a b : Option Nat) : Option Nat :=
  match a, b with
  | some x, some y => some (min x y)
  | some x, none => some x
  | none, y => y

/-- The lines that stand in the way of a slice: owned lines it reads, and lines with any holder that it writes (R219,
R223). -/
def State.sliceBlocks (s : State) (reads writes : List (Nat × Nat × Nat)) : List (Nat × Bool) :=
  let busy := fun (l : Nat) => (s.dirEnt l).st == .x || (s.dirEnt l).st == .busy
  (reads.filter (fun c => busy (c.2.1 / 64))).map (fun c => (c.2.1 / 64, false)) ++
  (writes.filter (fun c => (s.dirEnt (c.2.1 / 64)).st != .u)).map (fun c => (c.2.1 / 64, true))

/-- The operation ends with POISON at a byte, or at its first refused partial write (R95). -/
def State.bulkPoison (s : State) (d ch : Nat) (o : BulkOp) (k : Nat) : State :=
  s.bulkDone d ch o .poison (BitVec.ofNat 64 ((minOpt o.refused (some k)).getD 0))

/-- After a slice: POISON at `stop`; the operation's end with `result` after its last slice; or its next slice (R94, R95). -/
def State.bulkOn (s : State) (d ch : Nat) (o : BulkOp) (stop : Option Nat) (result : U64) : State :=
  match stop with
  | some k => s.bulkPoison d ch o k
  | none =>
    if o.len ≤ o.done + o.slice then
      match o.refused with
      | some k => s.bulkPoison d ch o k
      | none => s.bulkDone d ch o .ok result
    else
      let o := { o with done := o.done + o.slice, slice := 0 }
      s.onDie d (fun x => { x with channels := x.channels.put none ch (some o) })

/-- A slice writes its bytes to the destination; PERM at a published frame ends the operation (R95, R245). -/
def State.bulkWrite (s : State) (d ch : Nat) (o : BulkOp) (stop : Option Nat) (dst : List (Nat × Nat × Nat))
    (bs : List Byte) : State :=
  let r := s.writeCuts o.part dst bs
  let o := { o with refused := minOpt o.refused r.2.1 }
  if r.2.2 then r.1.bulkDone d ch o .perm 0 else r.1.bulkOn d ch o stop 0

/-- A slice of CHECKSUM: the CRC-32C so far, or with SHA3-256 the bytes so far and after the last slice the digest in the
destination (R282). DESIGN CHOICE: a digest whose line refuses the write, being poison, ends the operation with POISON and
RESULT equal to its LENGTH; R95 names only FILL, COPY and REDUCE (log 162). -/
def State.bulkSum (s : State) (d ch : Nat) (o : BulkOp) (stop : Option Nat) (bs : List Byte) : State :=
  if o.op = 0 then
    let c := crcBytes o.crc bs
    s.bulkOn d ch { o with crc := c } stop ((c ^^^ 0xFFFFFFFF#32).setWidth 64)
  else
    let o := { o with hashed := o.hashed ++ bs }
    if stop.isNone && decide (o.len ≤ o.done + o.slice) then
      let r := s.writeCuts o.part (lineCuts o.dst 4 0 32) (sha3 o.hashed)
      if r.2.2 then r.1.bulkDone d ch o .perm 0
      else r.1.bulkOn d ch { o with refused := r.2.1.map (fun _ => o.len), hashed := [] } stop 0
    else s.bulkOn d ch o stop 0

/-- The slice's bytes are processed: reads up to a poisoned line, then the kind's effect and its writes (R95, R282). -/
def State.runSlice (s : State) (d ch : Nat) (o : BulkOp) (src dst : List (Nat × Nat × Nat)) : State :=
  let a := if o.kind.readsSrc then s.readCuts src else ([], none)
  let b := if o.kind.readsDst then s.readCuts dst else ([], none)
  let stop := minOpt a.2 b.2
  let n := match stop with | some k => k - o.done | none => o.slice
  let s := if o.kind.readsSrc then s.countRead o.part (pageAt o.src o.done) src.length 1 3 else s
  let s := if o.kind.readsDst then s.countRead o.part (pageAt o.dst o.done) dst.length 1 3 else s
  let s := s.opEvent 0x10D { part := some o.part }
  match o.kind with
  | .fill => s.bulkWrite d ch o stop dst ((nums o.done n).map (fun j => BitVec.ofNat 8 (o.pattern.toNat / 256 ^ (j % 8))))
  | .copy => s.bulkWrite d ch o stop dst (a.1.take n)
  | .reduce => s.bulkWrite d ch o stop dst (reduceBytes o.fmt o.op n (b.1.take n) (a.1.take n))
  | .compare =>
    (match firstDiff (b.1.take n) (a.1.take n) o.done with
    | some k => s.bulkDone d ch o .ok (BitVec.ofNat 64 k)
    | none => s.bulkOn d ch o stop 0xFFFFFFFFFFFFFFFF)
  | .checksum => s.bulkSum d ch o stop (a.1.take n)

/-- The reads of a slice wait for buffered writes that match, and close their rows (R168, R170). -/
def State.sliceReads (s : State) (reads : List (Nat × Nat × Nat)) : State :=
  s.each reads (fun s c => s.ownRead c.2.1 c.2.2 3 false)

/-- BULK_SLICE_END (R94): the slice in progress on a channel ends, unless a half it uses is in self-refresh or an agent
still holds one of its lines, which are then asked back. -/
def execBulkSliceEnd (d : DieId) (ch : Fin 8) (s : State) : Host.Outcome State Fault Refusal :=
  match (s.die d.val).channels.look none ch.val with
  | none => .next s
  | some o =>
    if o.slice = 0 || (s.die d.val).failed.isSome then .next s else
    let fuel := 2 * (o.slice / 64 + 2) + o.src.length + o.dst.length
    let src := if o.kind.readsSrc then lineCuts o.src fuel o.done o.slice else []
    let dst := if o.kind = .checksum then (if o.op = 1 && o.len ≤ o.done + o.slice then lineCuts o.dst 4 0 32 else [])
      else lineCuts o.dst fuel o.done o.slice
    let pas := (src ++ dst).map (·.2.1)
    let s := s.each pas State.touch
    if pas.any (fun a => s.halfDead (homeHalf a)) then .next (s.bulkDone d.val ch.val o .deadAgent 0)
    else if pas.any (s.cutOff (d.val / 2)) then .next (s.bulkDone d.val ch.val o .fenced 0)
    else if pas.any (fun a => s.asleepHalf (homeHalf a)) then .next s
    else
      let reads := src ++ (if o.kind.readsDst then dst else [])
      let writes := if o.kind.writes o.op then dst else []
      let blocks := s.sliceBlocks reads writes
      if blocks.isEmpty then .next ((s.sliceReads reads).runSlice d.val ch.val o src dst)
      else .next (s.each blocks (fun s l => if l.2 then
          (if (s.dirEnt l.1).st == .busy then s else s.access l.1 {} .evict)
        else s.cleanLine (l.1 * 64)))

end Sys2Proof.Machine
end

