-- ==== Sys2Proof/Machine/Integrity.lean ====
section
/-! DEFINITION. Stack controllers and stored-data integrity: line decode, reconstruction and poison, the error log,
coalescing and parity, refresh, self-refresh, datapath parity, failure of weavers, dies and stacks, failover,
retirement and rebuild (R158 to R214, R345, R348, R356 to R359). -/
namespace Sys2Proof.Machine

/-! ### The error log (R198 to R201) -/

/-- MODE of a log record (R199). -/
def Mode.code : Mode → Nat
  | .service => 0 | .test => 2 | .recovery => 3 | _ => 1

/-- Word 2 of a log record for a bank: stack, pseudo-channel, rank and bank (R199). -/
def bankWord (b : BankId) : Nat :=
  b.stack.val + b.pc.val * 2 ^ 5 + b.rank.val * 2 ^ 10 + b.bank.val * 2 ^ 13

/-- Word 2 of a log record for a line (R199). -/
def State.lineWord (s : State) (pa : Nat) : U64 :=
  let a := s.mapPa pa
  let st := 10 * homeHalf a + s.unitAt (homeHalf a) (randOf a) (unitOf a)
  let b := slotBank st (randOf a)
  BitVec.ofNat 64 (bankWord b.1 + b.2 / 4 * 2 ^ 17 + b.2 % 4 * 2 ^ 32 + a / 64 % 4 * 2 ^ 34)

/-- The full ring makes room: the oldest CE record goes, or else the oldest record (R198). -/
def dropOldest (l : List LogRec) : List LogRec :=
  match l.findIdx? (fun r => r.type = 0x01) with
  | some i => l.eraseIdx i
  | none => l.tail

/-- The record is about one line: CE, UE_RECONSTRUCTED, UE_POISONED, UE_BUS_ERROR, HARD_LINE or REBUILD_LINE_POISONED
(R200). -/
def LogRec.ofLine (r : LogRec) : Bool :=
  r.type == 0x01 || r.type == 0x02 || r.type == 0x03 || r.type == 0x04 || r.type == 0x07 || r.type == 0x0A

/-- Writes an error-log record: a CE merges with a record of its line from the last 64 rounds, and is dropped when the
ring is full; every other type raises an EVENT (R184, R198, R201). -/
def State.logErr (s : State) (h : Nat) (r : LogRec) : State :=
  let x := s.half h
  let ce : Bool := r.type == 0x01
  let same := fun (y : LogRec) => y.ofLine && y.pa == r.pa && y.loc == r.loc && decide (s.now < y.round + 64)
  match (if ce then x.log.reverse.find? same else none) with
  | some y => s.onHalf h (fun x => { x with log := x.log.map (fun z =>
      if z.seq = y.seq then { z with repeats := min 255 (z.repeats + 1) } else z) })
  | none =>
    if ce && decide (65536 ≤ x.log.length) then s.onHalf h (fun x => { x with logDropped := x.logDropped + 1 }) else
    let again := x.log.any (fun y => y.type == 0x01 && y.pa == r.pa && decide (s.now < y.round + 4096))
    let r := { r with seq := x.logSeq, round := s.now, mode := s.rst.mode.code, hard := r.hard || (ce && again) }
    let s := s.onHalf h (fun x => { x with
      log := (if 65536 ≤ x.log.length then dropOldest x.log else x.log) ++ [r]
      logSeq := (x.logSeq + 1) % 2 ^ 32 })
    let s := s.metaWrite h 64
    if ce then s else s.event evErrorLog r.seq (r.type + h * 256)

/-- A record about one line (R199). -/
def State.lineRec (s : State) (type pa : Nat) (src : LogSource) (part symbols status : Nat) (syndrome : U64)
    (write : Bool) : LogRec :=
  { type := type, source := src.val, symbols := symbols, loc := s.lineWord pa, pa := pa / 64 * 64, syndrome := syndrome,
    status := status, part := part, write := write }

/-- The line counts among those of its stack that logged UE (R206). -/
def State.countUe (s : State) (pa : Nat) : State :=
  let a := s.mapPa pa
  let st := 10 * homeHalf a + s.unitAt (homeHalf a) (randOf a) (unitOf a)
  s.onHalf (homeHalf a) (fun x => { x with
    ues := (x.ues.filter (fun u => u.2.1 ≠ a / 64 && decide (s.now < u.2.2 + 4096))) ++ [(st, a / 64, s.now)] })

/-! ### Reading a line (R181 to R193) -/

/-- The mode serves reads (R192, R554). -/
def Mode.runs : Mode → Bool
  | .off => false | .reset => false | _ => true

/-- The line's unit lies on a failed stack, so that its read is reconstructed without a record (R186). -/
def State.unitLost (s : State) (pa : Nat) : Bool :=
  let a := s.mapPa pa
  decide (unitOf a ∈ s.lostUnits (homeHalf a) (randOf a))

/-- A line that was corrected or reconstructed is written back with fresh check symbols, and its verify read is due,
unless a newer write to the line is on its way (R183, R184). -/
def State.writeBack (s : State) (pa : Nat) (bs : List Byte) : State :=
  let a := s.mapPa (pa / 64 * 64)
  let buf := s.mem.buffered (homeHalf a) (randOf a)
  if (nums a 64).any (fun k => (buf.look none k).isSome) then s
  else (s.onMem (fun m => m.store a bs)).onHalf (homeHalf a) (fun x => { x with verify := setAdd x.verify (a / 64) })

/-- The 72 symbols that a stack returns for a line: as the line at an address is stored, with an error pattern (R179,
R181). -/
def State.returned (s : State) (pa : Nat) (err : SymErrs) : List Byte :=
  let a := s.mapPa (pa / 64 * 64)
  disturb (storedSymbols (randOf a) (a / 64 % 4) (s.mem.stored a 64) (decide (a / 64 ∈ s.mem.poison))) err

/-- The outcome and data of the decoder for symbols returned to a read of a line (R180, R181). -/
def State.decoded (s : State) (pa : Nat) (ss : List Byte) : LineOut × List Byte :=
  let a := s.mapPa (pa / 64 * 64)
  decodeLine (randOf a) (a / 64 % 4) ss

/-- The SYNDROME of a record (R199): the eight syndrome symbols. -/
def State.syndromeOf (s : State) (pa : Nat) (ss : List Byte) : U64 :=
  let a := s.mapPa (pa / 64 * 64)
  BitVec.ofNat 64 (ofBytes (syndromes (randOf a) (a / 64 % 4) ss))

/-- Port through which a request of a source enters (R199, R312); the device's own come through the engine port of the
line's die. -/
def State.sourcePort (s : State) (pa : Nat) (src : LogSource) : Nat :=
  if src = 0 then 0 else if src = 2 then 52 + homeHalf pa else if src = 3 then hostPort
  else enginePort (primaryDie (s.slotOf pa).1)

/-- A bus error: the requester receives a response without data, and the record is left for the stake firmware (R192,
R193). -/
def State.busErr (s : State) (pa : Nat) (src : LogSource) (part : PartId) (syndrome : U64) (write : Bool) : State :=
  (s.logErr (homeHalf pa) (s.lineRec 0x04 pa src part.val 0 Status.poison.code syndrome write)).emit (.lineRead pa src.val none)

/-- MEM_READ_DECODE (R166, R179 to R183, R188, R192, R193): a read of a line, which has taken its turn at its
pseudo-channel, returns from the address `came`, by default the one asked for, with an error pattern, and the line code
decides. An error that escapes detection is delivered as the decoder has it. An uncorrectable line goes on to
RECONSTRUCTION, but in TEST. -/
def execMemReadDecode (pa : Nat) (err : SymErrs) (came : Option Nat) (src : LogSource) (who : LineUser)
    (s : State) : Host.Outcome State Fault Refusal :=
  if paEnd ≤ pa then .fault (.unbackedAddress pa) else
  let h := homeHalf pa
  if !s.rst.mode.runs || s.halfDead h || s.unitLost pa then .next s else
  let s := (s.drainLine pa).takeTurn pa src.val (s.sourcePort pa src) who.write false
  let ss := s.returned (came.getD pa) err
  let syn := s.syndromeOf pa ss
  let d := s.decoded pa ss
  match d.1 with
  | .clean => .next (s.emit (.lineRead pa src.val (some (d.2, false))))
  | .ce n =>
    .next (((s.logErr h (s.lineRec 0x01 pa src who.part.val n 0 syn who.write)).writeBack pa d.2).emit
      (.lineRead pa src.val (some (d.2, false))))
  | .mark =>
    if s.rst.mode = .service then .next (s.emit (.lineRead pa src.val (some (d.2, true))))
    else .next (s.busErr pa src who.part syn who.write)
  | .ue => if s.rst.mode = .test then .next ((s.countUe pa).busErr pa src who.part syn who.write) else .next s

/-- VERIFY_READ (R184): the read after a write-back. An error marks the record of the line that was written back HARD, with a
HARD_LINE record the first time. -/
def execVerifyRead (pa : Nat) (err : SymErrs) (s : State) : Host.Outcome State Fault Refusal :=
  if paEnd ≤ pa then .fault (.unbackedAddress pa) else
  let a := s.mapPa (pa / 64 * 64)
  let h := homeHalf a
  if !decide (a / 64 ∈ (s.half h).verify) then .next s else
  let s := s.onHalf h (fun x => { x with verify := setDel x.verify (a / 64) })
  let ss := s.returned pa err
  if (s.decoded pa ss).1 = .clean then .next s else
  match (s.half h).log.reverse.find? (fun r => r.pa = pa / 64 * 64 && (r.type == 0x01 || r.type == 0x02)) with
  | none => .next s
  | some y =>
    let known := (s.half h).log.any (fun r => r.pa = pa / 64 * 64 && r.type == 0x07)
    let s := s.onHalf h (fun x => { x with log := x.log.map (fun z => if z.seq = y.seq then { z with hard := true } else z) })
    .next (if known then s
      else s.logErr h { s.lineRec 0x07 pa 8 0 0 0 (s.syndromeOf pa ss) false with hard := true })

/-- Marks a rand at an offset after a failed reconstruction: each line that read as UE becomes zeros with the mark, and
the parity line becomes the XOR of the lines as stored, with the mark (R187). -/
def State.poisonLines (s : State) (h r l : Nat) (bad : List Nat) : State :=
  let lost := s.lostUnits h r
  let m := bad.foldl (fun (m : PoolMem) u =>
    if u < 8 && !decide (u ∈ lost) then
      let pa := randPa h r + u * 256 + l * 64
      { m.store pa (List.replicate 64 0) with poison := setAdd m.poison (pa / 64) }
    else m) s.mem
  let m := if 8 ∈ lost then m else
    let clear : PoolMem := { m with deltas := m.deltas.map (fun (d : Delta) => if d.half = h && d.rand = r then
      { d with bytes := d.bytes.dropIf (fun o => decide (o / 64 = l)) } else d) }
    clear.storeParity h r l (m.reconstruct h r 8 l)
  { s with mem := { m with parityPoison := setAdd m.parityPoison (parityLine h r l) } }

/-- Whether the line at offset l of unit u can be reconstructed, with the units that read as UE (R185, R186, R189). -/
def State.canReconstruct (s : State) (h r u l : Nat) (bad : List Nat) : Bool :=
  bad.all (· = u) && (s.lostUnits h r).all (· = u) && !decide (parityLine h r l ∈ s.mem.parityPoison)

/-- RECONSTRUCTION (R170, R185 to R189, R192): every write held for the rand has drained, the other units of the rand are
in, and the line, which read as UE with the error pattern given, is restored, written back and delivered, or poisoned. A
line that carries a mark is never reconstructed (R188). A line of a unit on a failed stack leaves no record when it is
restored (R186). -/
def execReconstruction (pa : Nat) (x : LineFault) (src : LogSource) (who : LineUser)
    (s : State) : Host.Outcome State Fault Refusal :=
  if paEnd ≤ pa then .fault (.unbackedAddress pa) else
  let a := s.mapPa (pa / 64 * 64)
  let h := homeHalf a
  let r := randOf a
  let u := unitOf a
  let l := a / 64 % 4
  if !s.rst.mode.runs || s.rst.mode = .test || s.halfDead h || decide (a / 64 ∈ s.mem.poison) then .next s else
  let s := (s.releaseRand h r).onMem (fun m => m.applyDeltas h r)
  let lost := decide (u ∈ s.lostUnits h r)
  let bad := x.badUnits.map (·.val)
  let syn := if lost then 0 else s.syndromeOf pa (s.returned pa x.err)
  let s := if lost then s else s.countUe pa
  if s.canReconstruct h r u l bad then
    let s := (s.ownerEvent who.part.val 0x00D false 1).opEvent 0x105
      { source := some src.val, pa := some pa, part := some who.part.val }
    let bs := s.mem.reconstruct h r u l
    let s := if lost then s
      else (s.logErr h (s.lineRec 0x02 pa src who.part.val 0 0 syn who.write)).writeBack pa bs
    .next (s.emit (.lineRead pa src.val (some (bs, false))))
  else if s.rst.mode = .service then
    let s := s.poisonLines h r l (u :: bad)
    .next ((s.logErr h (s.lineRec 0x03 pa src who.part.val 0 Status.poison.code syn who.write)).emit
      (.lineRead pa src.val (some (List.replicate 64 0, true))))
  else .next (s.busErr pa src who.part syn who.write)

/-- COALESCE_RELEASE (R169): a rand leaves the coalescing buffer, as its oldest write reaches urgency 2. -/
def execCoalesceRelease (h : HalfId) (rand : Nat) (s : State) : Host.Outcome State Fault Refusal :=
  .next (s.releaseRand h.val rand)

/-- PARITY_DELTA_UPDATE (R169): the parity unit takes the deltas sent to it and the write intent closes. -/
def execParityDeltaUpdate (h : HalfId) (rand : Nat) (s : State) : Host.Outcome State Fault Refusal :=
  .next { s with mem := s.mem.applyDeltas h.val rand }

/-! ### Rows, refresh and self-refresh (R154, R168, R172 to R178) -/

/-- The half of a bank. -/
def bankHalf (b : BankId) : Nat := b.stack.val / 10

/-- REFRESH_DUE (R172, R173): once the bank's due time has passed, by the end of the running round at the latest, its
postponed count rises, the interval in force becomes that of the stack, and the due time advances by it. -/
def execRefreshDue (b : BankId) (s : State) : Host.Outcome State Fault Refusal :=
  if (s.half (bankHalf b)).refresh = .asleep || s.cnt.clock / 17 + 100 * s.rnd.micros < (s.bankSt b).due then .next s else
  let hot := (s.stack b.stack.val).hot
  .next (s.onBank b (fun x => { x with
    postponed := min 8 (x.postponed + 1), fast := hot, due := x.due + (if hot then 195 else 390) }))

/-- A request for a bank is queued (R172). -/
def State.bankQueued (s : State) (b : BankId) : Bool :=
  s.poolReqs.any (fun q => q.stage == .queued && (s.bankOf q.pa).1 == b) ||
    s.mem.deltas.any (fun d => (slotBank (s.deltaSlot d).1 d.rand).1 == b)

/-- BANK_REFRESH (R166, R168, R172, R173): a bank with postponed refreshes, no queued request and no open row, or with 8
of them, is refreshed; its row closes. -/
def execBankRefresh (b : BankId) (s : State) : Host.Outcome State Fault Refusal :=
  let x := s.bankSt b
  if x.postponed = 0 || ((x.row.isSome || s.bankQueued b) && x.postponed < 8) then .next s
  else .next (s.refreshBank b)

/-- ROW_CLOSE_TIMEOUT (R168). -/
def execRowCloseTimeout (b : BankId) (s : State) : Host.Outcome State Fault Refusal :=
  .next (s.onBank b (fun x => { x with row := none }))

/-- REFRESH_RATE_SWITCH (R173): above 85 °C the doubled rate, at 83 °C and below the single rate. -/
def execRefreshRateSwitch (st : StackId) (temp : Nat) (s : State) : Host.Outcome State Fault Refusal :=
  .next (s.onStack st.val (fun x => { x with hot := if 85 < temp then true else if temp ≤ 83 then false else x.hot }))

/-- Blocks of the half that no other state names and that the start-up sweep has not reached are DIRTY (R145, R557). -/
def BlockPool.autoDirty (q : BlockPool) : Nat :=
  (376832 - q.sweep) - (q.st.filter (fun e => decide (q.sweep ≤ e.1 % 376832))).length

/-- Some block of the half is DIRTY (R134, R145). -/
def BlockPool.anyDirty (q : BlockPool) : Bool :=
  !q.granted.isEmpty || !q.released.isEmpty || q.cur.any (fun c => !c.rewrite) || !q.certNow.isEmpty || decide (0 < q.autoDirty)

/-- METADATA_FLUSH (R176): at three quarters of the buffer, and at a checkpoint boundary. -/
def execMetadataFlush (h : HalfId) (s : State) : Host.Outcome State Fault Refusal :=
  let x := s.half h.val
  if x.refresh = .asleep && (decide (3145728 ≤ x.metaBuf) || s.now % 4096 = 0) then
    .next (s.onHalf h.val (fun x => { x with refresh := .flushing, metaBuf := 0 }))
  else .next s

/-! ### Weavers (R341, R345, R348, R356 to R358) -/

/-- The strokes of a weaver's deque are offered again at the next admission point (R356). -/
def State.moveDeque (s : State) (w : Nat) : State :=
  let ks := (s.weaver w).deque
  let s := s.onWeaver w (fun x => { x with deque := [] })
  let at_ := if s.rnd.point < 16 then (s.now, s.rnd.point) else (s.now + 1, 0)
  s.each ks (fun s k => s.onPart k.part (fun p => { p with moved := p.moved ++ [{ s := k, offer := some at_ }] }))

/-- The requests still inside the stream engine of a weaver are discarded (R356). -/
def State.dropEngine (s : State) (w : Nat) : State :=
  let gone := s.poolReqs.filter (fun q => q.weaver = w && q.stage == .engine)
  let s : State := { s with poolReqs := s.poolReqs.filter (fun q => !(q.weaver = w && q.stage == .engine)) }
  s.each gone (fun s q => if (s.runOf q).isSome then s else s.recordMayGo q.part q.sid)

/-- Fences a weaver with a cause: its stroke completes with DEAD_AGENT and its deque is offered again (R356). -/
def State.fenceWeaver (s : State) (w cause : Nat) : State :=
  if (s.weaver w).st != .active then s else
  let s := (s.onWeaver w (fun x => { x with st := .fenced, cause := cause, stateRound := s.now })).dropEngine w
  let s := match (s.weaver w).run with
    | none => s
    | some x => s.endRun w .deadAgent x.lastIssued 0
  s.moveDeque w

/-- A fenced weaver becomes RETIRED: it leaves every affinity mask and a RETIRED EVENT goes to the host; its fuse is
blown, unless its die failed (R356, R359). -/
def State.retireWeaver (s : State) (w : Nat) : State :=
  let cause := (s.weaver w).cause
  let s := s.onWeaver w (fun x => { x with st := .retired, stateRound := s.now, fuse := x.fuse || cause != 7 })
  let s := { s with parts := s.parts.mapAll {} (fun _ p => { p with affinity := p.affinity &&& ~~~((1 : BitVec 768) <<< w) }) }
  s.persistChange.event evWeaverRetired w cause

/-- WEAVER_FENCE (R356). -/
def execWeaverFence (w : WeaverId) (cause : Nat) (s : State) : Host.Outcome State Fault Refusal :=
  .next (s.fenceWeaver w.val cause)

/-- SCRATCH_ERROR (R348, R357): a corrected error is counted; an uncorrectable one poisons its line, and the fourth
distinct line within 4,096 rounds fences the weaver. -/
def execScratchError (w : WeaverId) (addr : Nat) (uncorrectable : Bool) (s : State) : Host.Outcome State Fault Refusal :=
  if !uncorrectable then .next (s.onWeaver w.val (fun x => { x with scratchCe := (x.scratchCe + 1) % 2 ^ 48 })) else
  let line := addr / 64
  let s := s.onWeaver w.val (fun x => { x with
    run := x.run.map (fun y => { y with poison := setAdd y.poison line })
    ueLines := (x.ueLines.filter (fun u => u.1 ≠ line && decide (s.now < u.2 + 4096))) ++ [(line, s.now)] })
  .next (if 4 ≤ (s.weaver w.val).ueLines.length then s.fenceWeaver w.val 3 else s)

/-- REGISTER_PARITY_ERROR (R345, R357): the reading instruction ends its stroke with POISON; the fourth error within
4,096 rounds fences the weaver. -/
def execRegisterParityError (w : WeaverId) (s : State) : Host.Outcome State Fault Refusal :=
  if (s.weaver w.val).st != .active || (s.weaver w.val).run.isNone then .next s else
  let s := s.faultRun w.val .poison
  let s := s.onWeaver w.val (fun x => { x with
    regErrs := (x.regErrs.filter (fun r => decide (s.now < r + 4096))) ++ [s.now] })
  .next (if 4 ≤ (s.weaver w.val).regErrs.length then s.fenceWeaver w.val 4 else s)

/-! ### Weave dies and failover (R158 to R161, R217, R359) -/

/-- Weavers of a die (R16). -/
def dieWeavers (d : Nat) : List Nat := nums (192 * d) 192
/-- Stacks whose primary port is on a die (R16). -/
def dieStacks (d : Nat) : List Nat := nums (10 * (d / 2) + 5 * (d % 2)) 5

/-- The die's spine bridge is gone (R21). -/
def State.dropBridge (s : State) (b : Nat) : State :=
  s.onAuth (fun a => if b = 0 then { a with bridge0 := false } else { a with bridge1 := false })

/-- A weave die is declared failed: its weavers stop at once (R159, R359). -/
def State.declareDie (s : State) (d : Nat) : State :=
  if !(s.die d).ok || (s.die d).failed.isSome then s else
  let s := s.persistChange.onDie d (fun x => { x with failed := some s.now })
  let s := s.each (dieWeavers d) (fun s w => s.onWeaver w (fun x =>
    if x.st = .active then { x with st := .fenced, cause := 7, stateRound := s.now } else x))
  s.dropBridge (d % 2)

/-- WEAVE_DIE_FAILED (R159). -/
def execWeaveDieFailed (d : DieId) (s : State) : Host.Outcome State Fault Refusal := .next (s.declareDie d.val)

/-- An operation that can go nowhere completes with DEAD_AGENT (R359). -/
def State.bulkLost (s : State) (o : BulkOp) : State :=
  let s := (s.unpinAll o.src).unpinAll o.dst
  s.postRec o.part o.cq { kind := 1, status := Status.deadAgent.code, sq := o.sq, cycles := min o.slices 65535, detail := 0x7FFF, userTag := o.userTag, round := s.now }

/-- The strokes of a failed die: those that ran complete with DEAD_AGENT, those that waited are offered again, and its
weavers are retired (R359). -/
def State.dieStrokes (s : State) (d : Nat) : State :=
  s.each (dieWeavers d) (fun s w =>
    let x := s.weaver w
    if x.st = .retired then s else
    let s := s.dropEngine w
    let s := match x.run with
      | none => s
      | some r => (s.leaveRun w r.cyc).complete r.s .deadAgent r.s.budget 0x7FFF 0
    (s.moveDeque w).retireWeaver w)

/-- The bulk operations of a failed die go on at its partner from their first slice not completed, or complete with
DEAD_AGENT (R359). -/
def State.dieBulk (s : State) (d : Nat) : State :=
  let running := (s.die d).channels.filterMap (fun c => c.2)
  let ops := (running ++ (s.die d).queue).map (fun o => { o with slice := 0 })
  let s := s.onDie d (fun x => { x with channels := [], queue := [] })
  if (s.die (partner d)).ok then
    (s.onDie (partner d) (fun x => { x with queue := x.queue ++ ops })).fillChannels (partner d) 8
  else s.each ops State.bulkLost

/-- The failed die's atomic buffer is gone: its pointers and its retry tokens go with it (R217, R233). -/
def State.dieBuffer (s : State) (d : Nat) : State :=
  let me : Requester := .buffer (Fin.ofNat 4 d)
  let s := { s with dir := s.dir.mapAll {} (fun _ (e : DirEnt) =>
    if e.st == DirState.x && e.ptrs == [me] then { e with st := .u, ptrs := [] }
    else { e with ptrs := e.ptrs.filter (· ≠ me) }) }
  let held := List.flatMap (fun (e : Nat × DirEnt) => (e.2.tokens.filter (fun t => t.who = me)).map (fun t => (e.1, t))) s.dir
  let s := s.each held (fun s (x : Nat × Token) => (s.dropToken x.1 x.2).settleLine x.1)
  s.onDie d (fun x => { x with atomBuf := [], cache := [], walkCache := [] })

/-- The partner sends the pending snoops of the failed die's slice again with their sequence numbers (R217). -/
def State.resnoop (s : State) (d : Nat) : State :=
  let mine := List.filter (fun (e : Nat × DirEnt) => e.2.st == .busy && decide (s.sliceOf e.1 = d)) s.dir
  s.each mine (fun s e => match e.2.pend with
    | none => s
    | some q => s.each q.await (fun s a => match a.1 with
      | .agent p k => s.snoop e.1 q p.val k a.2
      | .buffer _ => s))

/-- The requests held at the controllers of some stacks are at their ports again, to be sent in their order (R160). -/
def State.backToPorts (s : State) (sts : List Nat) : State :=
  { s with poolReqs := s.poolReqs.map (fun q =>
      if q.stage = .queued && decide ((s.slotOf q.pa).1 ∈ sts) then { q with stage := .port } else q) }

/-- FAILOVER_TAKEOVER (R159, R161, R217, R359): after the boundary that follows the declaration, the partner takes the
failed die's stacks, directory slice, strokes and bulk work. -/
def execFailoverTakeover (d : DieId) (s : State) : Host.Outcome State Fault Refusal :=
  let x := s.die d.val
  if !x.ok || !x.failed.any (fun f => decide (f < s.now)) then .next s else
  let other := (s.die (partner d.val)).ok
  let s := s.onDie d.val (fun x => { x with ok := false, resync := other })
  let s := s.each (dieStacks d.val) (fun s n => s.onStack n (fun y => { y with secondary := true }))
  let s := (s.dieStrokes d.val).dieBulk d.val
  let s := s.onHalf (d.val / 2) (fun y => { y with holdsCh6 := false })
  let s := s.backToPorts (dieStacks d.val)
  .next ((s.dieBuffer d.val).resnoop d.val)

/-- The standby controllers of a die's stacks, or of those that failed over alone, rewrite the parity of every rand with an
open intent in their logs (R159, R161). -/
def State.resyncStacks (s : State) (d : Nat) : State :=
  let mine := if (s.die d).resync then dieStacks d else (dieStacks d).filter (fun n => (s.stack n).resync)
  let s := s.each (s.mem.intents.filter (fun x => decide (x.1 ∈ mine))) (fun s x => s.rewriteParity (x.1 / 10) x.2)
  (s.each mine (fun s n => s.onStack n (fun y => { y with resync := false }))).onDie d (fun x => { x with resync := false })

/-! ### Datapath parity (R194 to R197) -/

/-- Half in whose log the events of a path are recorded (R198). DESIGN CHOICE: half 0 for a path of the spine, which joins
the halves: R198 names no half for it. -/
def pathHalf : PathKind → Nat
  | .mesh d => d.val / 2
  | .weaverPort w => weaverHalf w.val
  | .weaveLink h _ => h.val
  | .spine _ _ => 0
  | .dieLink d _ => d.val / 2
  | .rimEnd h => h.val

/-- A word with its even-parity bit: the bit makes the number of ones even (R194). -/
def wordOk (x : U32 × Bool) : Bool :=
  !((List.range 32).foldl (fun b i => b != x.1.getLsbD i) x.2)

/-- The parity bit that a sender puts on a word (R194). -/
def parityBit (w : U32) : Bool := (List.range 32).foldl (fun b i => b != w.getLsbD i) false

/-- Tries of a transfer whose words did not all pass before one passed, of the four there are (R195, R196). -/
def failedTries (tries : List (List (U32 × Bool))) : Nat := ((tries.take 4).takeWhile (fun t => !t.all wordOk)).length

/-- A path declared failed: a weaver's port fences the weaver; the mesh is routed around; a die-to-die link that its spare
lanes do not repair is the loss of its bridge, of its half's weave-to-weave link or of its die (R21, R159, R197, R357). -/
def State.pathFailed (s : State) (path : Nat) : PathKind → State
  | .weaverPort w => s.fenceWeaver w.val 5
  | .mesh _ => s.onAuth (fun a => { a with meshLost := setAdd a.meshLost path })
  | .weaveLink h repaired => if repaired then s else s.onAuth (fun a => { a with weaveLost := setAdd a.weaveLost h.val })
  | .spine b repaired => if repaired then s else s.dropBridge b.val
  | .dieLink d repaired => if repaired then s else s.declareDie d.val
  | .rimEnd _ => s

/-- What the request of an exhausted transfer receives: a read's data with poison, or as a bus error; for a write or a
command POISON and no data (R192, R196). -/
def State.carrierFails (s : State) (x : Transfer) : State :=
  let read : Bool := x.kind == .readResponse && s.rst.mode == .service
  let bs := (s.readPool (x.pa / 64 * 64) 64).1
  match x.who with
  | .stroke id => match s.poolReq id with
    | none => s
    | some q => if read then s.gotReq id .ok ((bs.drop (q.pa % 64)).take q.len) true else s.gotReq id .poison [] false
  | .host tag => s.onHost (fun h => { h with reqs := h.reqs.map (fun q =>
      if q.tag = tag && q.answer.isNone then
        { q with answer := some (Status.poison.code, if read then bs else List.replicate 64 0, true) } else q) })
  | .other => s.emit (.lineRead x.pa x.src.val (if read then some (bs, true) else none))

/-- A transfer whose fourth parity check failed (R192, R196, R197). -/
def State.exhaust (s : State) (path : Nat) (kind : PathKind) (x : Transfer) : State :=
  let h := pathHalf kind
  let line : Bool := x.kind != .command && decide (x.pa < paEnd)
  let s := s.logErr h { type := 0x05, write := x.kind == .write, source := x.src.val, part := x.part.val
                        pa := if line then x.pa / 64 * 64 else 0, loc := if line then s.lineWord x.pa else 0
                        path := path % 65536, status := Status.poison.code }
  let s := if x.kind == .write && s.rst.mode == Mode.service && line then
      let a := s.mapPa (x.pa / 64 * 64)
      (s.releaseRand (homeHalf a) (randOf a)).onMem (fun m => { m with poison := setAdd m.poison (a / 64) })
    else s
  let s := s.carrierFails x
  let s := s.onHalf h (fun y => { y with
    exhausted := (y.exhausted.filter (fun (e : Nat × Nat) => decide (s.now < e.2 + 4096))) ++ [(path, s.now)] })
  if ((s.half h).exhausted.filter (fun e => e.1 = path)).length < 16 then s else
  let s := s.onHalf h (fun y => { y with exhausted := y.exhausted.filter (fun e => e.1 ≠ path) })
  (s.logErr h { type := 0x06, path := path % 65536 }).pathFailed path kind

/-- A source keeps its last 64 transfers (R195). -/
def State.keepTransfer (s : State) (path : Nat) (x : Transfer) : State :=
  s.onCnt (fun c => { c with sent := c.sent.mod [] path (fun l => (l ++ [x]).drop ((l.length + 1) - 64)) })

/-- PARITY_MISMATCH (R194 to R197): the receiver checks the words of a transfer and of its replays. One to three failures
that end in a good replay count in the path's REPLAY counter; a fourth exhausts the transfer. -/
def execParityMismatch (path : Nat) (kind : PathKind) (x : Transfer) (tries : List (List (U32 × Bool))) (s : State) :
    Host.Outcome State Fault Refusal :=
  let s := s.keepTransfer path x
  let n := failedTries tries
  if n = 0 then .next s
  else if n < 4 then .next (s.onCnt (fun c => { c with replay := c.replay.bump path }))
  else .next (s.exhaust path kind x)

/-! ### Stack failure, rebuild and retirement (R202 to R214) -/

/-- A stack's failure takes effect: it is logged and its half moves to its next integrity state (R206, R207, R209). -/
def State.stackDown (s : State) (st : Nat) : State :=
  if (s.stack st).failed then s else
  let h := st / 10
  let s := s.persistChange.onStack st (fun x => { x with failed := true })
  let x := s.half h
  let next : Integrity := match x.integrity with
    | .intact => .exposed
    | .rebuilt => .degraded
    | _ => .loss
  let s := s.onHalf h (fun x => { x with
    failed := x.failed ++ [st % 10]
    integrity := next
    rebuilding := x.rebuilding || x.integrity == .intact
    cursor := if x.integrity = .intact then 0 else x.cursor
    lossAt := if x.integrity = .exposed then some x.cursor else x.lossAt })
  let s := s.logErr h { type := 0x09, loc := BitVec.ofNat 64 st }
  s.event evHalfState (h + next.code * 2) 0

/-- STACK_FAILED (R206): the declaration, which the next boundary puts into effect. -/
def execStackFailed (st : StackId) (cause : StackCause) (s : State) : Host.Outcome State Fault Refusal :=
  let h := st.val / 10
  let x := s.stack st.val
  let due : Bool := match cause with
    | .fatal => true
    | .missedExchanges => decide (2 ≤ x.missP) && decide (2 ≤ x.missS)
    | .ueLines => decide (1024 ≤ ((s.half h).ues.filter (fun u => u.1 = st.val && decide (s.now < u.2.2 + 4096))).length)
  if x.failed || !due then .next s
  else .next (s.onHalf h (fun y => { y with failing := setAdd y.failing st.val }))

/-- Rands of a half (R29, R155). -/
def randCount : Nat := 402653184

/-- The unit of a rand that the rebuild is to restore: the one on the first failed stack, if it is the only unit lost and
the spare slot holds no moved unit (R208, R209, R214). In LOSS the rands that lost a unit to the first stack only are those
whose spare slot lies on the second: they are rebuilt as before (R209), and their unit, lost again with the spare slot,
stays reconstructed (R208). -/
def State.toRebuild (s : State) (h r : Nat) : Option Nat :=
  match (s.half h).failed with
  | [] => none
  | k :: others =>
    if r % 10 = k || s.spareTaken h r then none
    else match (List.range 9).filter (fun u => decide (unitStack r u ∈ k :: others)) with
      | [u] => some u
      | _ => none

/-- Passes the rands that the rebuild skips. -/
def State.skipRands (s : State) (h : Nat) : Nat → Nat → Nat
  | 0, c => c
  | n + 1, c =>
    if randCount ≤ c || (s.toRebuild h (rebuildRandAt c)).isSome then c else s.skipRands h n (c + 1)

/-- Word 2 of a log record for line l of a rand's spare slot (R199, R208). -/
def spareWord (h r l : Nat) : U64 :=
  let b := slotBank (10 * h + r % 10) r
  BitVec.ofNat 64 (bankWord b.1 + b.2 / 4 * 2 ^ 17 + b.2 % 4 * 2 ^ 32 + l * 2 ^ 34)

/-- Restores line l of unit u of a rand onto its spare slot. One that cannot be reconstructed, because other units of the
rand read as UE there or the parity line is marked, is written with the poison mark and logged, and the offset is marked as
after any failed reconstruction (R187, R189, R211, R213). -/
def State.rebuildLine (s : State) (h r u : Nat) (bad : List Nat) (l : Nat) : State :=
  let pa := randPa h r + u * 256 + l * 64
  if bad.isEmpty && !decide (parityLine h r l ∈ s.mem.parityPoison) then
    if u < 8 then s.onMem (fun m => m.store pa (m.reconstruct h r u l))
    else s.onMem (fun m => m.storeParity h r l (m.reconstruct h r 8 l))
  else
    let m := (u :: bad).foldl (fun (m : PoolMem) v =>
      if v < 8 then
        let a := randPa h r + v * 256 + l * 64
        { m.store a (List.replicate 64 0) with poison := setAdd m.poison (a / 64) }
      else m) s.mem
    let m := m.storeParity h r l (m.reconstruct h r 8 l)
    (s.onMem (fun _ => { m with parityPoison := setAdd m.parityPoison (parityLine h r l) })).logErr h
      { type := 0x0A, source := 6, write := true, loc := spareWord h r l, pa := if u < 8 then pa else 0 }

/-- REBUILD_RAND (R166, R209 to R214): with 100 hundredths of credit and its channel, the rebuild engine restores the rand at
the cursor, after the requests of higher urgency, and advances past it; `bad` names the lines of surviving units that read as
UE, by offset. -/
def execRebuildRand (h : HalfId) (badLines : List (Fin 4 × Fin 9)) (s : State) : Host.Outcome State Fault Refusal :=
  let x := s.half h.val
  if !x.rebuilding || x.credit < 100 || !x.holdsCh6 || x.moving.isSome || randCount ≤ x.cursor then .next s else
  let c := s.skipRands h.val 64 x.cursor
  let r := rebuildRandAt c
  match (if c < randCount then s.toRebuild h.val r else none) with
  | none => .next (s.onHalf h.val (fun y => { y with cursor := c }))
  | some u =>
    let s := ((s.serveUrgent h.val).releaseRand h.val r).onMem (fun m => m.applyDeltas h.val r)
    let s := s.each (List.range 9) (fun s v =>
      s.useSlot (slotBank (10 * h.val + s.unitAt h.val r v) r) (randPa h.val r) 6 false)
    let s := s.each (List.range 4) (fun s l =>
      s.rebuildLine h.val r u ((badLines.filter (fun b => b.1.val = l)).map (·.2.val)) l)
    .next (s.onHalf h.val (fun y => { y with cursor := c + 1, credit := y.credit - 100 }))

/-- The rand whose unit a bank's slot n holds, in order of row and column group (R157). -/
def bankRand (b : BankId) (n : Nat) : Nat :=
  let row := n / 4
  let q := row * 384 + b.rank.val * 64 + (Nat.xor b.bank.val (row % 16)) * 4 + n % 4
  q * 32 + b.pc.val

/-- Passes the slots of a bank that hold no unit. -/
def skipSlots (b : BankId) : Nat → Nat → Nat
  | 0, n => n
  | k + 1, n => if n < 131072 && bankRand b n % 10 = b.stack.val % 10 then skipSlots b k (n + 1) else n

/-- BANK_UNIT_MOVE (R204): with 100 hundredths of credit the next unit of the retiring bank moves to its rand's spare
slot; with the last, the bank is retired. -/
def execBankUnitMove (h : HalfId) (s : State) : Host.Outcome State Fault Refusal :=
  let x := s.half h.val
  match x.moving with
  | none => .next s
  | some (b, n) =>
    let n := skipSlots b 16 n
    if 131072 ≤ n then .next (s.onHalf h.val (fun y => { y with moving := none, banks := y.banks ++ [b] }))
    else if x.credit < 100 || !x.holdsCh6 then .next s
    else
      let s := s.onHalf h.val (fun y => { y with credit := y.credit - 100 })
      .next (s.onHalf h.val (fun y =>
        if 131072 ≤ n + 1 then { y with moving := none, banks := y.banks ++ [b] } else { y with moving := some (b, n + 1) }))

end Sys2Proof.Machine
end

