-- ==== Sys2Proof/Machine/Queues.lean ====
section
/-! DEFINITION. Submission and completion queues, the fetch and check of descriptors, translation and pinning, placement
at the admission points, pops and steals (R52 to R54, R67 to R91, R338, R351 to R353, R526). -/
namespace Sys2Proof.Machine

/-! ### Queue descriptors (R67, R68, R71) -/

/-- A queue descriptor as read (R68). -/
structure QDesc where
  base : Nat
  log2 : Nat
  enable : Bool
  defaultCq : Nat
  rsvd : Bool
  deriving DecidableEq, Repr

/-- The fields of an SQ descriptor, or of a CQ descriptor, which has no DEFAULT_CQ, HEAD, HALTED and HALT_STATUS (R68). -/
def qdescOf (sq : Bool) (bs : List Byte) : QDesc :=
  let w0 : U64 := BitVec.ofNat 64 (ofBytes (bs.take 8))
  let w1 : U64 := BitVec.ofNat 64 (ofBytes (bs.drop 8))
  { base := bits w0 47 0, log2 := bits w0 51 48, enable := bit w0 52, defaultCq := bits w0 59 54,
    rsvd := bit w0 53 || bits w0 63 60 != 0 || (if sq then bits w1 23 17 != 0 || bits w1 63 32 != 0
      else bits w0 59 54 != 0 || w1 != 0) }

/-- PVA of a queue's descriptor in the queue table (R67). -/
def State.qdescPva (s : State) (p q : Nat) (sq : Bool) : Nat := (s.part p).qtable + (if sq then 0 else 1024) + 16 * q

/-- An address translates, now or after a wait, whatever the rights (R71, R98). -/
def WalkOut.mapped : WalkOut → Bool
  | .pa _ _ _ => true
  | .perm => true
  | .notReady _ _ => true
  | .migrate _ _ _ _ => true
  | .blocked _ => true
  | _ => false

/-- Why an enabled descriptor fails its checks, if it does: RANGE, XLATE_FAULT or RSVD_NONZERO (R71). -/
def State.descFault (s : State) (p : Nat) (d : QDesc) (sq : Bool) : Option Status :=
  if !d.enable then none
  else if d.log2 < 4 || d.base % (max 4096 (2 ^ d.log2 * (if sq then 128 else 32))) ≠ 0 then some .range
  else if !(s.walk p d.base {}).mapped then some .xlateFault
  else if d.rsvd then some .rsvdNonzero
  else none

/-- Takes a CQ's descriptor into use: it is usable when it is enabled and passes its checks (R67). -/
def State.setCqDesc (s : State) (p q : Nat) (d : QDesc) : State :=
  let good := d.enable && (s.descFault p d false).isNone
  s.onCq p q (fun c => { c with read := true, usable := good, base := d.base, log2 := d.log2 })

/-! ### CQ head doorbell (R70) -/

/-- A CQ head doorbell whose descriptor has been read: it frees records, is ignored and counted on a CQ that is not
usable, or is answered by a queue event when it would free records not yet written (R69, R70). -/
def State.cqHead (s : State) (p q v : Nat) : State :=
  let c := s.cq p q
  if !c.usable then s.countOf p 4 1
  else
    let n := (v + 65536 - c.head % 65536) % 65536
    if c.wpos - c.head < n then s.queueEvent p q 0 .range (BitVec.ofNat 64 v)
    else s.onCq p q (fun c => { c with head := c.head + n })

/-- A CQ's first use after PART.CREATE reads its descriptor; the answer is false while the read waits (R67). -/
def State.useCq (s : State) (p q : Nat) : Bool × State :=
  if (s.cq p q).read then (true, s) else
  let o := s.readPva p (s.qdescPva p q false) 16
  let s := s.cleanPva p (s.qdescPva p q false) 16
  match o with
  | .wait => (false, s)
  | .bad _ => (true, s.onCq p q (fun c => { c with read := true, usable := false, headWait := none }))
  | .ok bs =>
    let late := (s.cq p q).headWait
    let s := (s.setCqDesc p q (qdescOf false bs)).onCq p q (fun c => { c with headWait := none })
    (true, match late with
      | some v => s.cqHead p q v
      | none => s)

/-- A CQ head doorbell. -/
def State.cqHeadDoorbell (s : State) (p q v : Nat) : State :=
  let r := s.useCq p q
  if r.1 then r.2.cqHead p q v else r.2.onCq p q (fun c => { c with headWait := some v })

/-! ### SQ doorbells (R70, R71) -/

/-- An SQ becomes HALTED with its status, which the device writes to the descriptor, and DEFAULT_CQ gets a queue event
when it is usable (R68, R71, R76). -/
def State.haltSq (s : State) (p q : Nat) (st : Status) : State :=
  let s := s.onSq p q (fun x => { x with halted := true, haltStatus := st.code })
  let s := (s.writePva p (s.qdescPva p q true + 10) (toBytes 2 (1 + 256 * st.code))).getD s
  s.queueEvent p (s.sq p q).defaultCq q st 0

/-- An SQ tail doorbell whose descriptor has been read (R69 to R71). -/
def State.sqTail (s : State) (p q v : Nat) : State :=
  let x := s.sq p q
  if x.halted then s
  else if !x.enable then s.countOf p 4 1
  else if 2 ^ x.log2 < (v + 65536 - x.head % 65536) % 65536 then s.queueEvent p x.defaultCq q .range (BitVec.ofNat 64 v)
  else s.onSq p q (fun x => { x with tail := v })

/-- Reads an SQ's descriptor: DEFAULT_CQ is used, a failing descriptor halts the SQ, and a doorbell that waited for the
read has its effect (R67, R71). -/
def State.loadSq (s : State) (p q : Nat) : State :=
  let o := s.readPva p (s.qdescPva p q true) 16
  let s := s.cleanPva p (s.qdescPva p q true) 16
  match o with
  | .wait => s.onSq p q (fun x => { x with reread := true })
  | .bad st => (s.onSq p q (fun x => { x with read := true, enable := false, reread := false, tailWait := none })).haltSq p q st
  | .ok bs =>
    let d := qdescOf true bs
    let late := (s.sq p q).tailWait
    let s := s.onSq p q (fun x => { x with
      read := true, base := d.base, log2 := d.log2, enable := d.enable, defaultCq := d.defaultCq, reread := false, tailWait := none })
    let s := (s.useCq p d.defaultCq).2
    let s := match s.descFault p d true with
      | some st => s.haltSq p q st
      | none => s
    match late with
    | some v => s.sqTail p q v
    | none => s

/-- An SQ tail doorbell; the first after PART.CREATE reads the descriptor (R67, R70). -/
def State.sqTailDoorbell (s : State) (p q v : Nat) : State :=
  if (s.sq p q).read then s.sqTail p q v
  else (s.onSq p q (fun x => { x with tailWait := some v })).loadSq p q

/-- An SQ reset doorbell abandons what is not admitted, zeroes HEAD and tail, clears the halt and reads the descriptor
again (R71). -/
def State.sqReset (s : State) (p q : Nat) : State :=
  let s := s.each (s.sq p q).waiting (fun s k => (s.unpinAll k.1.pages).cachePin k.1 (if k.2 = .placeable then -1 else 0))
  let s := s.onSq p q (fun x => { x with
    waiting := [], head := 0, tail := 0, halted := false, haltStatus := 0, headDirty := true, read := false, tailWait := none })
  let s := (s.writePva p (s.qdescPva p q true + 10) [0, 0]).getD s
  s.loadSq p q

/-- A CQ reset doorbell holds the CQ's records until the next boundary (R71); as a CQ's first use it reads the descriptor
(R67). -/
def State.cqReset (s : State) (p q : Nat) : State :=
  (s.useCq p q).2.onCq p q (fun c => { c with resetting := true, resetRound := s.now, headWait := none })

/-- Why a CQ reset is not performed, if it is not (R71). -/
def State.cqResetFault (s : State) (p q : Nat) (d : QDesc) : Option Status :=
  let resv := (s.cq p q).resv
  match s.descFault p d false with
  | some st => some st
  | none => if d.enable && decide (2 ^ d.log2 < resv + 1) then some .range
    else if !d.enable && decide (0 < resv) then some .range else none

/-- The boundary performs or refuses a CQ reset and writes the held records (R71). -/
def State.cqResetApply (s : State) (p q : Nat) : State :=
  let o := s.readPva p (s.qdescPva p q false) 16
  let s := s.cleanPva p (s.qdescPva p q false) 16
  let refuse := fun (st : Status) =>
    let s := s.onCq p q (fun c => { c with resetting := false })
    (s.flush p q).queueEvent p q 0 st 0
  match o with
  | .wait => s
  | .bad st => refuse st
  | .ok bs =>
    let d := qdescOf false bs
    match s.cqResetFault p q d with
    | some st => refuse st
    | none =>
      let s := s.onCq p q (fun c => { c with resetting := false, wpos := 0, head := 0, event := none })
      (s.setCqDesc p q d).flush p q

/-- A write of 8 bytes to a partition's doorbell block: its status and effect; the value of a reset doorbell is ignored
(R69). -/
def State.doorbell (s : State) (p off : Nat) (v : U64) : Status × State :=
  let q := off % 0x200 / 8
  let n := v.toNat
  if off % 8 ≠ 0 || 0x800 ≤ off then (.perm, s)
  else if 65536 ≤ n then (.rsvdNonzero, s)
  else if off < 0x200 then (.ok, s.sqTailDoorbell p q n)
  else if off < 0x400 then (.ok, s.cqHeadDoorbell p q n)
  else if off < 0x600 then (.ok, s.sqReset p q)
  else (.ok, s.cqReset p q)

/-- SQ_TAIL_DOORBELL (R70). -/
def execSqTailDoorbell (p : PartId) (q : Fin 64) (v : U64) (s : State) : Host.Outcome State Fault Refusal :=
  if (s.part p.val).live then .next (s.doorbell p.val (8 * q.val) v).2 else .next s

/-- CQ_HEAD_DOORBELL (R70). -/
def execCqHeadDoorbell (p : PartId) (q : Fin 64) (v : U64) (s : State) : Host.Outcome State Fault Refusal :=
  if (s.part p.val).live then .next (s.doorbell p.val (0x200 + 8 * q.val) v).2 else .next s

/-- SQ_RESET_DOORBELL (R71). -/
def execSqResetDoorbell (p : PartId) (q : Fin 64) (v : U64) (s : State) : Host.Outcome State Fault Refusal :=
  if (s.part p.val).live then .next (s.doorbell p.val (0x400 + 8 * q.val) v).2 else .next s

/-- CQ_RESET_DOORBELL (R71). -/
def execCqResetDoorbell (p : PartId) (q : Fin 64) (v : U64) (s : State) : Host.Outcome State Fault Refusal :=
  if (s.part p.val).live then .next (s.doorbell p.val (0x600 + 8 * q.val) v).2 else .next s

/-- CQ_RESET_APPLY (R71): at the boundary after the doorbell. -/
def execCqResetApply (p : PartId) (q : Fin 64) (s : State) : Host.Outcome State Fault Refusal :=
  let c := s.cq p.val q.val
  if c.resetting && decide (c.resetRound < s.now) then .next (s.cqResetApply p.val q.val) else .next s

/-- CQ_HELD_RECORD_RETRY (R98): writes held records in order as far as the ring allows. -/
def execCqHeldRecordRetry (p : PartId) (q : Fin 64) (s : State) : Host.Outcome State Fault Refusal :=
  let s := if (s.cq p.val q.val).headWait.isSome then (s.useCq p.val q.val).2 else s
  .next (s.flush p.val q.val)

/-! ### Limits (R52, R54, R526) -/

/-- A weaver's admission limit in the round (R52). -/
def State.limitOf (s : State) (w : Nat) : Nat := (s.weaver w).mhz * s.rnd.micros - 64

/-- Weavers of a partition's mask that lie in a half and are active (R81, R353). -/
def State.candidates (s : State) (p h : Nat) : List Nat :=
  let m := (s.part p).affinity
  (nums (384 * h) 384).filter (fun w => m.getLsbD w && (s.weaver w).st == .active)

/-- The largest limit that a weaver of the mask can reach at the round length and power mode in force; none for a mask
with no weaver left (R54). -/
def State.reachLimit (s : State) (p : Nat) : Option Nat :=
  let ws := s.candidates p 0 ++ s.candidates p 1
  let top := fun (w : Nat) => if s.power.boostEn && !s.power.fixed then max 1700 (s.weaver w).fused else 1700
  match ws with
  | [] => none
  | _ => some ((ws.foldl (fun m w => max m (top w)) 0) * s.rnd.micros - 64)

/-- A budget that no weaver of the mask can ever fit under the mode in force (R54). -/
def State.overLimit (s : State) (p b : Nat) : Bool := (s.reachLimit p).any (fun l => decide (l < b))

/-- Partitions that exist. -/
def State.liveParts (s : State) : List Nat := (s.parts.filter (fun x => x.2.live)).map (·.1)

/-- A partition's weight s_p: its share in FIXED mode; W of its current phase, at least 1 W, in LEARNED mode (R526, R528). -/
def State.weight (s : State) (p : Nat) : Nat :=
  let x := s.part p
  if s.power.learned then max 1000000 (x.est.look 0 x.phase) else max 1 x.share

/-- The idle count i_p at the idle level in force (R526). -/
def State.idleCount (s : State) (p : Nat) : Nat :=
  let ps := s.liveParts
  if s.power.idle = 0 || ps.isEmpty then 0
  else min 15 (ceilDiv (s.power.idle * (ps.map s.weight).foldl (· + ·) 0) (ps.length * s.weight p))

/-- Round n is an idle round of partition p (R526). -/
def State.idleRound (s : State) (p n : Nat) : Bool := decide ((n + 5 * p) % 16 < s.idleCount p)

/-! ### Records decided at admission (R76, R97) -/

/-- Reads the descriptor of the CQ that a stroke descriptor names, unless the descriptor's CQ field is bad (R67, R71). -/
def State.nameCq (s : State) (p q : Nat) (cqBad : Bool) : Bool × State := if cqBad then (true, s) else s.useCq p q

/-- The CQ of a record for a descriptor that cannot be admitted: the one it names, or the default one (R71, R72). -/
def State.failCq (s : State) (p q cq : Nat) (cqBad : Bool) : Nat :=
  if !cqBad && (s.cq p cq).usable then cq else (s.sq p q).defaultCq

/-- A record that a check decides: posted to the named CQ, or to DEFAULT_CQ when the named one is not usable; none while
the descriptor waits. With neither usable the SQ is halted and the answer is false (R76). -/
def State.admitRec (s : State) (p q : Nat) (k : Stroke) (cqBad : Bool) (st : Status) (detail : Nat) :
    Option (Bool × State) :=
  let u := s.nameCq p k.cq cqBad
  if !u.1 then none else
  let s := u.2
  let c := s.failCq p q k.cq cqBad
  let u := s.useCq p c
  if !u.1 then none else
  let s := u.2
  if !(s.cq p c).usable then some (false, s.haltSq p q st)
  else if !(s.cq p c).hasSlot then none
  else
    let s := s.onCq p c (fun c => { c with resv := c.resv + 1 })
    let s := s.postRec p c { sid := 0, status := st.code, sq := q, detail := detail, userTag := k.userTag, round := s.now }
    some (true, s.onSq p q (fun x => { x with head := x.head + 1, headDirty := true }))

/-- DETAIL of an outcome decided at admission: failing range, or 0xF (R97). -/
def admitDetail (range : Option Nat) (rest : Nat) : Nat := 0x8000 + rest * 16 + range.getD 0xF

/-! ### Fetch and checks 1 to 7 (R73, R74, R76) -/

/-- Bytes lo to lo + n − 1 of a descriptor as a number. -/
def dfield (bs : List Byte) (lo n : Nat) : Nat := ofBytes ((bs.drop lo).take n)

/-- Range entry i of a descriptor (R74). -/
def rangeOf (bs : List Byte) (i : Nat) : Range :=
  let r := dfield bs (32 + 12 * i + 6) 2
  { pva := dfield bs (32 + 12 * i) 6, r := r % 2 == 1, w := r / 2 % 2 == 1, a := r / 4 % 2 == 1,
    len := dfield bs (32 + 12 * i + 8) 4 }

/-- A reserved bit of a descriptor is set: in the control word, SEED, RIGHTS, or an unused range entry (R73, R74, R76). -/
def descReserved (bs : List Byte) : Bool :=
  let c : U64 := BitVec.ofNat 64 (dfield bs 0 8)
  let n := bits c 43 40
  bits c 47 46 != 0 || bits c 63 54 != 0 || dfield bs 20 4 != 0 ||
  (List.range 8).any (fun i => if i < n then decide (8 ≤ dfield bs (32 + 12 * i + 6) 2)
    else dfield bs (32 + 12 * i) 12 != 0)

/-- The stroke of a descriptor (R73, R81). -/
def strokeOf (p q : Nat) (bs : List Byte) : Stroke :=
  let c : U64 := BitVec.ofNat 64 (dfield bs 0 8)
  let rs := (List.range (min 8 (bits c 43 40))).map (rangeOf bs)
  { part := p, sq := q, handle := bits c 15 0, budget := bits c 31 16, flag := bit c 32, stealFar := bit c 33,
    phase := bit c 34, trapOvf := bit c 35, phaseNum := bits c 39 36, roundMode := bits c 45 44, cq := bits c 53 48,
    userTag := BitVec.ofNat 64 (dfield bs 8 8), seed := BitVec.ofNat 32 (dfield bs 16 4),
    arg := BitVec.ofNat 64 (dfield bs 24 8), ranges := rs }

/-- The image that a handle names now (R66). -/
def State.imageOf (s : State) (p handle : Nat) : Option Image :=
  let x := (s.part p).progs.look {} (handle % 256)
  if x.gen = handle / 256 then x.img else none

/-- Checks 1 to 7 of R76 on a fetched descriptor: the status that decides it, or none when it goes on to translation. A
stroke may run only a USER program (R60, R61). -/
def State.firstChecks (s : State) (p : Nat) (bs : List Byte) (k : Stroke) : Option Status :=
  if descReserved bs then some .rsvdNonzero
  else if !(s.cq p k.cq).usable then some .range
  else if 8 < bits (BitVec.ofNat 64 (dfield bs 0 8)) 43 40 then some .range
  else if k.roundMode = 3 then some .unsupported
  else if (s.imageOf p k.handle).isNone then some .range
  else if (s.imageOf p k.handle).any (fun x => x.priv ≠ 3) then some .perm
  else if k.budget = 0 then some .ok
  else if s.overLimit p k.budget then some .range
  else none

/-- Fetches descriptors of an SQ in ring order, at most 64 a round, until one waits (R76). Tail less head is the number
pending, those already fetched among them (R70). -/
def State.fetch (s : State) (p q : Nat) : Nat → State
  | 0 => s
  | n + 1 =>
    let x := s.sq p q
    let pos := x.head + x.waiting.length
    if x.halted || !x.enable || 64 ≤ x.fetched || (x.tail + 65536 - x.head % 65536) % 65536 ≤ x.waiting.length then s else
    let pva := x.base + 128 * (pos % 2 ^ x.log2)
    let o := s.readPva p pva 128
    let s := s.cleanPva p pva 128
    match o with
    | .wait => s
    | .bad .notReady => s
    | .bad st => s.haltSq p q st
    | .ok bs =>
      let k := strokeOf p q bs
      let cqBad := bits (BitVec.ofNat 64 (dfield bs 0 8)) 55 54 != 0
      let u := s.nameCq p k.cq cqBad
      if !u.1 then u.2 else
      let s := u.2
      match s.firstChecks p bs k with
      | some st =>
        (match s.admitRec p q k cqBad st (admitDetail none 0) with
        | none => s
        | some (_, s) => (s.onSq p q (fun x => { x with fetched := x.fetched + 1 })).fetch p q n)
      | none =>
        let id := s.takeId
        let img := (s.imageOf p k.handle).getD {}
        let k := { k with sid := id.1, img := img, start := img.entry }
        let s := id.2.onSq p q (fun x => { x with waiting := x.waiting ++ [(k, .translating)], fetched := x.fetched + 1 })
        s.fetch p q n

/-- DESCRIPTOR_FETCH (R76). -/
def execDescriptorFetch (p : PartId) (q : Fin 64) (s : State) : Host.Outcome State Fault Refusal :=
  let s := if (s.sq p.val q.val).reread then s.loadSq p.val q.val else s
  if (s.part p.val).live && (s.sq p.val q.val).read then .next (s.fetch p.val q.val 64) else .next s

/-! ### Translation and pinning (R76 to R78, R112, R338) -/

/-- What checks 8 to 13 make of a range. -/
inductive RangeOut where
  | pass
  | fail (st : Status) (rest : Nat)
  | defer
  | wait
  deriving DecidableEq, Repr

/-- DETAIL bits [10:4] of an XLATE_FAULT: level and cause (R112). -/
def xlateDetail (cause level : Nat) : Nat := level + 8 * cause

/-- The lowest-numbered of checks 8 to 13 that a piece of a range fails, over the range's pieces (R76, R111, R112): a
missing mapping or a run past an extent's size beyond the first byte gives RANGE. -/
def State.rangeChecks (s : State) (ps : List Piece) : RangeOut :=
  let faults := ps.filterMap (fun x => match x.out with
    | .fault c l => if x.off ≠ 0 && (c == 4 || c == 0) then none else some (c, l)
    | _ => none)
  let past := ps.any (fun x => match x.out with
    | .fault c _ => x.off != 0 && (c == 4 || c == 0)
    | _ => false)
  let ready := ps.filterMap (fun x => match x.out with | .notReady e k => some (s.extWait e k) | _ => none)
  let has := fun (o : WalkOut → Bool) => ps.any (fun x => o x.out)
  match faults with
  | (c, l) :: _ => .fail .xlateFault (xlateDetail c l)
  | [] =>
    if past then .fail .range 0
    else if has (· == .revoked) then .fail .revoked 0
    else if has (· == .perm) then .fail .perm 0
    else if has (· == .poison) then .fail .poison 0
    else if has (· == .dead) then .fail .deadAgent 0
    else if has (fun o => match o with | .blocked _ => true | _ => false) then .wait
    else if !ready.isEmpty then .fail .notReady (ready.foldl max 0)
    else if has (fun o => match o with | .migrate _ _ _ _ => true | _ => false) then .defer
    else .pass

/-- A stroke is deferred on the migration of a page, for its range i (R78, R126). -/
def State.joinMigration (s : State) (p pva sid i : Nat) : State := match s.migrationOf p pva with
  | none => s
  | some m => s.onMigration p m.pva (fun x => { x with joined := addOnce x.joined (sid, i) })

/-- The remote-backed pages of a range start or join their migrations; false when a queue is full (R126, R127). -/
def State.migratePieces (s : State) (p sid i pva : Nat) (ps : List Piece) : Bool × State :=
  ps.foldl (fun (a : Bool × State) x => match x.out with
    | .migrate epa e ext page =>
      match a.2.startMigration p (pva + x.off) epa e ext page with
      | some s => (a.1, s.joinMigration p (pva + x.off) sid i)
      | none => (false, a.2)
    | _ => a) (true, s)

/-- Asks back the lines, and starts the self-refresh exits, that a range's walks wait for (R114, R177). -/
def State.unblock (s : State) (ps : List Piece) : State :=
  s.each ps (fun s x => match x.out with
    | .blocked pa => (s.touch pa).cleanLine pa
    | _ => s)

/-- The walks of a range's pieces on a die, each a touch of the half that it resolves to (R114 to R116, R175). -/
def State.walkPieces (s : State) (d p pva : Nat) (ps : List Piece) : State :=
  s.each ps (fun s x =>
    let s := s.noteWalk d p (pva + x.off) x.out
    match x.out with
    | .pa pa _ _ => s.touch pa
    | _ => s)

/-- The ranges of a descriptor in ascending index, with the pins of the pages resolved so far (R76 to R78, R115). -/
def State.rangesOut (s : State) (p sid : Nat) : List (Nat × Range) → List PinPage → RangeOut × Option Nat × List PinPage × State
  | [], pins => (.pass, none, pins, s)
  | (i, r) :: rest, pins =>
    if r.len = 0 then s.rangesOut p sid rest pins else
    let ps := s.rangePieces p r.pva r.len { r := r.r, w := r.w, a := r.a }
    let pins := pins ++ s.pinsOf p i r.pva ps
    let d := s.walkDie (2 * (match pins with | x :: _ => homeHalf x.pa | [] => 0) + i % 2)
    let s := s.walkPieces d p r.pva ps
    match s.rangeChecks ps with
    | .pass => s.rangesOut p sid rest pins
    | .fail st d => (.fail st d, some i, pins, s)
    | .wait => (.wait, some i, pins, s.unblock ps)
    | .defer =>
      let m := s.migratePieces p sid i r.pva ps
      if m.1 then (.defer, some i, pins, m.2) else (.fail .notReady 8, some i, pins, m.2)

/-- Bytes of an image (R62). -/
def Image.bytes (x : Image) : Nat := 64 + 8 * (x.code.length + x.consts.length)

/-- Makes an image resident and pinned in a die's program cache of 16 MiB, evicting the least recently used images
without a pin; none when pinned images leave no room (R338). -/
def DieSt.resident (d : DieSt) (k : Stroke) : Option DieSt :=
  match d.cache.find? (fun c => c.part = k.part && c.handle = k.handle) with
  | some c => some { d with
      cache := d.cache.filter (fun x => !(x.part = k.part && x.handle = k.handle)) ++ [{ c with pins := c.pins + 1 }] }
  | none =>
    let used := fun (l : List CacheImg) => (l.map (·.bytes)).foldl (· + ·) 0
    let room := fun (l : List CacheImg) => decide (used l + k.img.bytes ≤ 0x1000000)
    let drop := fun (l : List CacheImg) (c : CacheImg) =>
      if room l || c.pins ≠ 0 then l else l.filter (fun x => !(x.part = c.part && x.handle = c.handle))
    let l := d.cache.foldl drop d.cache
    if room l then some { d with cache := l ++ [{ part := k.part, handle := k.handle, bytes := k.img.bytes, pins := 1 }] }
    else none

/-- Makes a stroke's image resident in the dies of its home half, and of the other half with STEAL_FAR (R338). -/
def State.residentAll (s : State) (k : Stroke) : Option State :=
  ((List.range 4).filter (fun d => (k.stealFar || decide (d / 2 = k.home)) && (s.die d).ok)).foldl
    (fun (a : Option State) d => a.bind (fun s => ((s.die d).resident k).map (fun x => s.onDie d (fun _ => x)))) (some s)

/-- Home half of a stroke: that of the first byte of its first range of nonzero LENGTH (R81). -/
def Stroke.homeOf (k : Stroke) (pins : List PinPage) : Nat :=
  match k.ranges.findIdx? (fun r => decide (r.len ≠ 0)) with
  | none => 0
  | some i => match pins.find? (fun x => x.range = i && x.off = 0) with
    | some x => homeHalf x.pa
    | none => 0

/-- Changes a waiting stroke of an SQ. -/
def State.onWaiting (s : State) (p q sid : Nat) (f : Stroke × Stage → Stroke × Stage) : State :=
  s.onSq p q (fun x => { x with waiting := x.waiting.map (fun k => if k.1.sid = sid then f k else k) })

/-- Takes a waiting stroke out of its SQ. -/
def State.dropWaiting (s : State) (p q sid : Nat) : State :=
  s.onSq p q (fun x => { x with waiting := x.waiting.filter (fun k => k.1.sid ≠ sid) })

/-- A waiting stroke leaves with a record; one whose SQ is halted for it goes back to the ring with all behind it; with
no slot it waits (R76, R77). -/
def State.failWaiting (s : State) (p q : Nat) (k : Stroke) (resident : Bool) (st : Status) (detail : Nat) : State :=
  match s.admitRec p q k false st detail with
  | none => s
  | some (true, s) => ((s.unpinAll k.pages).cachePin k (if resident then -1 else 0)).dropWaiting p q k.sid
  | some (false, s) =>
    let ws := (s.sq p q).waiting
    let back := ws.dropWhile (fun x => x.1.sid ≠ k.sid)
    let s := s.each back (fun s x => (s.unpinAll x.1.pages).cachePin x.1 (if x.2 = .placeable then -1 else 0))
    s.onSq p q (fun x => { x with waiting := ws.takeWhile (fun x => x.1.sid ≠ k.sid) })

/-- Tries the translation of one waiting stroke (R76 to R78, R338). -/
def State.translate (s : State) (p q : Nat) (k : Stroke) : State :=
  let s := s.unpinAll k.pages
  let k := { k with pages := [] }
  let s := s.onWaiting p q k.sid (fun x => (k, x.2))
  let r := s.rangesOut p k.sid ((List.range k.ranges.length).zip k.ranges) []
  let s := r.2.2.2
  let pins := r.2.2.1
  match r.1 with
  | .wait => s
  | .fail st rest => s.failWaiting p q k false st (admitDetail r.2.1 rest)
  | .defer =>
    let x := s.storePins (k.homeOf pins) pins true
    x.2.onWaiting p q k.sid (fun y => ({ k with pages := x.1 }, y.2))
  | .pass =>
    let x := s.storePins (k.homeOf pins) pins true
    let k := { k with pages := x.1, home := k.homeOf pins }
    let s := x.2
    match s.residentAll k with
    | some s => s.onWaiting p q k.sid (fun _ => (k, .placeable))
    | none => s.onWaiting p q k.sid (fun x => (k, x.2))

/-- The strokes of an SQ in translation, in ring order, each tried once (R77). DESIGN CHOICE: once a fetch fault has halted the
SQ, descriptors fetched before it that are in translation stop there until the reset abandons them, and those that are
translated and pinned are still placed; R71 does not say what becomes of them (log 161). -/
def State.translateSq (s : State) (p q : Nat) : State :=
  let ks := (s.sq p q).waiting.filter (fun k => k.2 == .translating)
  s.each ks (fun s k => if (s.sq p q).halted then s else s.translate p q k.1)

/-- TRANSLATION_PIN_COMPLETE (R77). -/
def execTranslationPinComplete (p : PartId) (q : Fin 64) (s : State) : Host.Outcome State Fault Refusal :=
  .next (s.translateSq p.val q.val)

/-! ### Placement (R53, R79 to R84, R289, R356) -/

/-- Budget that a weaver has committed: what is unspent of its running stroke and what waits in its deque (R81). -/
def State.committed (s : State) (w : Nat) : Nat :=
  let x := s.weaver w
  (match x.run with | some r => r.s.budget - r.cyc | none => 0) + (x.deque.map (·.budget)).foldl (· + ·) 0

/-- Sixteenths of a cycle that have elapsed in the round on a weaver at an admission point (R80, R91). -/
def State.elapsedAt (s : State) (w pt : Nat) : Nat :=
  let x := s.weaver w
  max (x.mhz * s.rnd.micros * pt) (16 * (x.elapsed + (match x.run with | some r => r.cyc | none => 0)))

/-- Weaver w accepts a stroke of budget b at an admission point (R80). -/
def State.accepts (s : State) (w pt b : Nat) : Bool :=
  decide ((s.weaver w).deque.length < 32) &&
  decide (s.elapsedAt w pt + 16 * (s.committed w + b) ≤ 16 * s.limitOf w)

/-- The least of a list by a number, the first on ties. -/
def leastBy {α : Type} (f : α → Nat) : List α → Option α
  | [] => none
  | a :: l => match leastBy f l with
    | none => some a
    | some b => if f b < f a then some b else some a

/-- The weaver that R81 chooses in a half: the least committed die, then the least committed weaver of it. -/
def State.chooseIn (s : State) (p h pt b : Nat) : Option Nat :=
  let ws := s.candidates p h
  let able := ws.filter (fun w => s.accepts w pt b)
  let total := fun (d : Nat) => ((ws.filter (fun w => weaverDie w = d)).map s.committed).foldl (· + ·) 0
  let dies := [2 * h, 2 * h + 1].filter (fun d => able.any (fun w => weaverDie w = d))
  (leastBy total dies).bind (fun d => leastBy s.committed (able.filter (fun w => weaverDie w = d)))

/-- The weaver that takes a stroke, in its home half or with STEAL_FAR, over the spine, in the other (R20, R81). -/
def State.chooseWeaver (s : State) (k : Stroke) (pt : Nat) : Option Nat :=
  match s.chooseIn k.part k.home pt k.budget with
  | some w => some w
  | none => if k.stealFar && !s.spineGone then s.chooseIn k.part (1 - k.home) pt k.budget else none

/-- Places a stroke at the back of a weaver's deque; a PHASE mark is kept for the next boundary (R84, R351). -/
def State.place (s : State) (w : Nat) (k : Stroke) : State :=
  let s := s.onWeaver w (fun x => { x with deque := x.deque ++ [k] })
  let mark := fun (x : Partition) => if k.phase then some k.phaseNum else x.phaseMark
  s.onPart k.part (fun x => { x with placedAge := 0, phaseMark := mark x })

/-- A stroke keeps a pinned page: its own while the extent is held; a borrowed one until the drain limit of its region's
destruction, whatever pins on the region it has given up since (R139, R246, R247). -/
def State.keepsPage (s : State) (p : Nat) (x : PinPage) : Bool :=
  if x.ver = 0 then s.holding x.ext p == .held else
  (s.extent x.ext).st == .active && (match (s.extent x.ext).region with
    | none => false
    | some r => (s.region r).valid && !(s.region r).destroying.any (fun d => decide (d + 8 ≤ s.now)))

/-- The first range of a stroke with a page that it may not keep (R79, R139, R247). -/
def State.lostRange (s : State) (k : Stroke) : Option Nat :=
  (k.pages.find? (fun x => !s.keepsPage k.part x)).map (·.range)

/-- Some half that holds a range of the stroke is in self-refresh (R288). -/
def State.asleep (s : State) (k : Stroke) : Bool :=
  k.pages.any (fun x => s.asleepHalf (homeHalf x.pa))

/-- Touches every half that holds a range of the stroke, which starts its exit from self-refresh (R177, R288). -/
def State.wakeFor (s : State) (k : Stroke) : State := s.each k.pages (fun s x => s.touch x.pa)

/-- Bulk operations launched from an SQ that are not complete (R72). -/
def State.bulkOf (s : State) (p q : Nat) : Bool :=
  s.dies.any (fun d => d.2.queue.any (fun b => b.part = p && b.sq = q) ||
    d.2.channels.any (fun c => c.2.any (fun b => b.part = p && b.sq = q)))

/-- Earlier work of an SQ is not complete: a stroke that runs or waits, one whose record waits for its writes to be
acknowledged, or a bulk operation (R72, R87). -/
def State.unfinished (s : State) (p q : Nat) : Bool :=
  !(s.sq p q).live.isEmpty || s.bulkOf p q ||
    (s.part p).cqs.any (fun c => c.2.due.any (fun r => !r.ready && r.kind == 0 && r.sq == q))

/-- Places the placeable strokes of an SQ in ring order until one waits (R72, R76, R79, R83). -/
def State.placeSq (s : State) (p q pt : Nat) : Nat → State
  | 0 => s
  | n + 1 =>
    match (s.sq p q).waiting with
    | (k, .placeable) :: rest =>
      (match s.lostRange k with
      | some i =>
        let t := s.failWaiting p q k true .revoked (admitDetail (some i) 0)
        if (t.sq p q).waiting.length = rest.length then t.placeSq p q pt n else t
      | none =>
        if k.flag && s.unfinished p q then s
        else if !(s.cq p k.cq).hasSlot then s
        else match s.chooseWeaver k pt with
          | none => s
          | some w =>
            let s := s.place w k
            let s := s.onCq p k.cq (fun c => { c with resv := c.resv + 1 })
            let s := s.onSq p q (fun x => { x with
              waiting := rest, live := x.live ++ [k.sid], head := x.head + 1, headDirty := true })
            s.placeSq p q pt n)
    | _ => s

/-- An offer is due at admission point pt of the running round. -/
def State.offered (s : State) (x : Suspended) (pt : Nat) : Bool :=
  x.offer.any (fun o => decide (o.1 < s.now) || (o.1 == s.now && decide (o.2 ≤ pt)))

/-- Offers the strokes that left a fenced weaver's deque; one that is not placed waits for the next boundary (R356). -/
def State.placeMoved (s : State) (p pt : Nat) : State :=
  let all := (s.part p).moved
  let s := s.onPart p (fun x => { x with moved := [] })
  s.each all (fun s x =>
    let keep := fun (s : State) (o : Option (Nat × Nat)) => s.onPart p (fun y => { y with moved := y.moved ++ [{ x with offer := o }] })
    if !s.offered x pt then keep s x.offer
    else match s.chooseWeaver x.s pt with
      | some w => s.place w x.s
      | none => keep s (some (s.now + 1, 0)))

/-- Offers the suspended strokes in the order of suspension (R288, R289). -/
def State.placeSuspended (s : State) (p pt : Nat) : State :=
  let all := (s.part p).suspended
  let s := s.onPart p (fun x => { x with suspended := [] })
  s.each all (fun s x =>
    let keep := fun (s : State) => s.onPart p (fun y => { y with suspended := y.suspended ++ [x] })
    if !s.offered x pt then keep s
    else if s.asleep x.s then keep (s.wakeFor x.s)
    else match s.chooseWeaver x.s pt with
      | some w => s.place w x.s
      | none => keep s)

/-- The strokes of a partition that wait and could be placed wait through an idle round (R526). -/
def State.markIdle (s : State) (p pt : Nat) : State :=
  let due := fun (x : Suspended) => if s.offered x pt then { x with s := { x.s with idled := true } } else x
  let mark := fun (k : Stroke × Stage) => if k.2 == .placeable then ({ k.1 with idled := true }, k.2) else k
  s.onPart p (fun x => { x with
    moved := x.moved.map due
    suspended := x.suspended.map due
    sqs := x.sqs.map (fun e => (e.1, { e.2 with waiting := e.2.waiting.map mark })) })

/-- Ascending numbers of a table's keys, from one on and wrapping (R82). -/
def fromOn (first : Nat) (ks : List Nat) : List Nat := ks.filter (first ≤ ·) ++ ks.filter (· < first)

/-- Everything a partition offers at an admission point, in order (R82, R289, R356). -/
def State.placePart (s : State) (p pt : Nat) : State :=
  if s.idleRound p s.now then s.markIdle p pt else
  let s := (s.placeMoved p pt).placeSuspended p pt
  let qs := fromOn (s.now % 64) ((s.part p).sqs.map (·.1))
  s.each qs (fun s q => s.placeSq p q pt ((s.sq p q).waiting.length))

/-- A stroke that waits at the boundary and has lost an extent completes with REVOKED: suspended, moved or in its SQ
(R79, R139, R289). -/
def State.revokeWaiting (s : State) (p : Nat) : State :=
  let lost := fun (s : State) (x : Suspended) => (s.lostRange x.s).isSome
  let gone := ((s.part p).suspended ++ (s.part p).moved).filter (lost s)
  let s := s.onPart p (fun x => { x with suspended := x.suspended.filter (fun y => !lost s y), moved := x.moved.filter (fun y => !lost s y) })
  let s := s.each gone (fun s x => s.complete x.s .revoked x.s.used (admitDetail (s.lostRange x.s) 0) 0)
  s.each ((s.part p).sqs.map (·.1)) (fun s q => s.each (s.sq p q).waiting (fun s k => match s.lostRange k.1 with
    | some i => s.failWaiting p q k.1 (k.2 == .placeable) .revoked (admitDetail (some i) 0)
    | none => s))

/-- Strokes are placed: the device is in SERVICE and no warm reset quiesces (R554, R560). -/
def State.admits (s : State) : Bool := s.rst.mode == .service && s.rst.warm.isNone

/-- An admission point: partitions in ascending order from N mod 64 on (R80, R82); point 0 first completes what has lost
its extent (R79). -/
def State.admitAll (s : State) (pt : Nat) : State :=
  let ps := fromOn (s.now % 64) s.liveParts
  let s := if pt = 0 then s.each ps State.revokeWaiting else s
  let s := if s.admits then s.each ps (fun s p => s.placePart p pt) else s
  s.onRnd (fun r => { r with point := pt + 1 })

/-- ADMISSION_POINT (R80, R169): each point of a round once, in order; it shows the time that has passed, so that rands whose
oldest write has reached urgency 2 leave their buffers. -/
def execAdmissionPoint (k : Fin 16) (s : State) : Host.Outcome State Fault Refusal :=
  if s.rnd.point ≤ k.val then .next (s.admitAll k.val).releaseUrgent else .next s

/-- Strokes waiting in their queues that can no longer fit complete with RANGE when the largest limit falls (R54). -/
def State.dropUnfit (s : State) : State :=
  s.each s.liveParts (fun s p => s.each ((s.part p).sqs.map (·.1)) (fun s q => s.each (s.sq p q).waiting (fun s k =>
    if s.overLimit p k.1.budget then s.failWaiting p q k.1 (k.2 == .placeable) .range (admitDetail none 0) else s)))

/-! ### Pops, steals and the budget stop (R86, R88 to R91, R351 to R353) -/

/-- Cycles that have elapsed on a weaver in the round, as far as the admission points passed show (R80). -/
def State.elapsedNow (s : State) (w : Nat) : Nat := s.elapsedAt w (s.rnd.point - 1) / 16

/-- DEQUE_POP (R351): the front stroke starts; the pop takes one cycle. -/
def execDequePop (w : WeaverId) (s : State) : Host.Outcome State Fault Refusal :=
  let x := s.weaver w.val
  if x.st != .active || x.run.isSome || w.val ∈ s.auth.halted then .next s else
  match x.deque with
  | [] => .next s
  | k :: rest =>
    let t := s.elapsedNow w.val
    .next ((s.onWeaver w.val (fun x => { x with deque := rest, elapsed := t + 1 })).startRun w.val k 0)

/-- Weaver v lies in a scope of thief w: its die, the other die of its half, the other half (R88). -/
def inScope (w scope v : Nat) : Bool :=
  v ≠ w && (match scope with
    | 1 => weaverDie v == weaverDie w
    | 2 => weaverDie v != weaverDie w && weaverHalf v == weaverHalf w
    | _ => weaverHalf v != weaverHalf w)

/-- The weavers with a stroke in their deque that a thief scans in a scope, from its own number plus 1 on (R88). -/
def State.stealScope (s : State) (w scope : Nat) : List Nat :=
  fromOn (w + 1) (((List.filter (fun (e : Nat × Weaver) => !e.2.deque.isEmpty) s.weavers).map (·.1)).filter (inScope w scope))

/-- Transfer cycles of a scope (R88). -/
def stealCost : Nat → Nat
  | 1 => 8
  | 2 => 24
  | _ => 96

/-- The stroke that thief w may take from the back of v's deque in a scope: not the one that v, free to pop, gets in the
same cycle, and over the spine only while there is one (R20, R88 to R90, R353). -/
def State.stealable (s : State) (w scope v : Nat) : Option Stroke :=
  let x := s.weaver v
  let popped := x.run.isNone && decide (x.deque.length = 1) && !decide (v ∈ s.auth.halted)
  if x.st != .active || popped || (scope = 3 && s.spineGone) then none else
  match x.deque.getLast? with
  | none => none
  | some k =>
    if (s.part k.part).affinity.getLsbD w && (scope ≠ 3 || k.stealFar) &&
        decide (s.elapsedNow w + stealCost scope + k.budget ≤ s.limitOf w) then some k else none

/-- What thief w finds in its scopes, past the deques in `taken`: scope, weaver and stroke (R88). -/
def State.stealHit (s : State) (w : Nat) (taken : List Nat) : Option (Nat × Nat × Stroke) :=
  [1, 2, 3].findSome? (fun c => ((s.stealScope w c).filter (fun v => !taken.contains v)).findSome? (fun v =>
    (s.stealable w c v).map (fun k => (c, v, k))))

/-- Weaver w is idle and may try to steal (R88). -/
def State.thief (s : State) (w : Nat) : Bool :=
  let x := s.weaver w
  x.st == .active && x.run.isNone && x.deque.isEmpty && !decide (w ∈ s.auth.halted) && decide (x.retryAt ≤ s.elapsedNow w)

/-- The deques whose back entries the idle weavers of lower number take, the lowest first, when all try in one cycle
(R90). -/
def State.takenBelow (s : State) (w : Nat) : List Nat :=
  ((List.range w).filter s.thief).foldl (fun (l : List Nat) v => match s.stealHit v l with
    | some (_, x, _) => x :: l
    | none => l) []

/-- STEAL (R88, R90): an idle weaver tries its three scopes; finding nothing it tries again after 64 cycles. -/
def execSteal (w : WeaverId) (s : State) : Host.Outcome State Fault Refusal :=
  let t := s.elapsedNow w.val
  if !s.thief w.val then .next s else
  match s.stealHit w.val (s.takenBelow w.val) with
  | none => .next (s.onWeaver w.val (fun x => { x with retryAt := t + 64 }))
  | some (c, v, k) =>
    let s := s.onWeaver v (fun x => { x with deque := x.deque.dropLast })
    let s := s.onWeaver w.val (fun x => { x with elapsed := t })
    let s := (s.ownerEvent k.part 0x002 false 1).ownerEvent k.part 0x002 true (stealCost c)
    let s := if c = 3 then s.opEvent 0x10C { part := some k.part } else s
    .next (s.startRun w.val k (stealCost c))

/-- BUDGET_STOP (R86): the run whose budget is spent ends with OVERRUN. -/
def execBudgetStop (w : WeaverId) (s : State) : Host.Outcome State Fault Refusal :=
  match (s.weaver w.val).run with
  | none => .next s
  | some x => if (s.weaver w.val).st == .active && x.s.budget ≤ x.cyc then .next (s.endRun w.val .overrun x.pc 0) else .next s

end Sys2Proof.Machine
end

