-- ==== Sys2Proof/Machine/Extents.lean ====
section
/-! DEFINITION. The extent lifecycle and scrub (R132 to R152), page walks with migration of remote-backed pages (R111 to
R116, R126 to R131, R433), and host requests on the fabric side (R438, R441). -/
namespace Sys2Proof.Machine

/-! ### Blocks (R134, R137, R145) -/

/-- Allocatable blocks of a half (R30). -/
def halfBlocks : Nat := 376832

/-- The state that a block has until it is named (R557). -/
def BlockPool.autoState (q : BlockPool) (b : Nat) : BlockState := if b % halfBlocks < q.sweep then .clean else .dirty

/-- State of a block (R134). -/
def BlockPool.blockState (q : BlockPool) (b : Nat) : BlockState :=
  match q.st.look .auto b with
  | .auto => q.autoState b
  | x => x

/-- Names a block's state. -/
def BlockPool.setBlock (q : BlockPool) (b : Nat) (x : BlockState) : BlockPool := { q with st := q.st.put .auto b x }

/-- A DIRTY block is granted to an extent (R134, R145). -/
def BlockPool.isGranted (q : BlockPool) (b : Nat) : Bool :=
  decide (b ∈ q.granted) || q.cur.any (fun c => c.block = b && c.granted) || q.certNow.any (fun x => x.1 = b && x.2)

/-- A released block that is marked to retire: it is scrubbed, and never granted again (R152). -/
def BlockPool.leaves (q : BlockPool) (b : Nat) : Bool :=
  decide (b ∈ q.marked) && q.blockState b == .dirty && !q.isGranted b

/-- Free blocks of the half that are not granted: those a grant can take (R136, R152). -/
def BlockPool.free (q : BlockPool) : Nat :=
  halfBlocks - (q.st.filter (fun e => e.2 == .held || e.2 == .retired)).length - q.granted.length -
    (match q.cur with | some c => b2n c.granted | none => 0) - (q.certNow.filter (·.2)).length -
    (q.marked.filter q.leaves).length

/-- The first n CLEAN blocks of a half in ascending order, from local index i on (R137). -/
def BlockPool.cleanFrom (q : BlockPool) (h : Nat) : Nat → Nat → Nat → List Nat
  | 0, _, _ => []
  | fuel + 1, i, n =>
    if n = 0 then [] else
    let b := h * halfBlocks + i
    if q.blockState b == .clean && q.cur.all (fun c => c.block != b || c.rewrite) then b :: q.cleanFrom h fuel (i + 1) (n - 1)
    else q.cleanFrom h fuel (i + 1) n

/-- The first n blocks that start-up left DIRTY and nothing has named, in ascending order (R557). -/
def BlockPool.autoFrom (q : BlockPool) (h : Nat) : Nat → Nat → Nat → List Nat
  | 0, _, _ => []
  | fuel + 1, i, n =>
    if n = 0 then [] else
    let b := h * halfBlocks + i
    if q.st.look .auto b = .auto then b :: q.autoFrom h fuel (i + 1) (n - 1) else q.autoFrom h fuel (i + 1) n

/-- The lowest unnamed DIRTY block of a half (R557). -/
def BlockPool.nextAuto (q : BlockPool) (h : Nat) : Option Nat :=
  (q.autoFrom h (min (halfBlocks - q.sweep) (q.st.length + 1)) q.sweep 1).head?

/-- The first n DIRTY blocks that are not granted, in scrub-queue order: the one in progress, those of the start, those
released since (R137, R145, R557); one marked to retire is not granted again (R152). A block in progress is taken only while
no granted block is queued ahead of it, as it stands at the head of the queue (R145). -/
def BlockPool.dirtyFree (q : BlockPool) (h n : Nat) : List Nat :=
  let cur := match q.cur with | some c => if c.granted || c.rewrite || q.leaves c.block then [] else [c.block] | none => []
  let auto := q.autoFrom h (min (halfBlocks - q.sweep) (q.st.length + n)) q.sweep (n - cur.length)
  (cur ++ auto ++ q.released.filter (fun b => !q.leaves b)).take n

/-- Takes an ungranted DIRTY block for an extent: it moves behind the granted blocks queued, or stays in progress
(R137). -/
def BlockPool.takeDirty (q : BlockPool) (b : Nat) : BlockPool :=
  let q := q.setBlock b .dirty
  if q.cur.any (fun c => c.block = b && !c.rewrite) then { q with cur := q.cur.map (fun c => { c with granted := true }) }
  else { q with granted := q.granted ++ [b], released := q.released.filter (· ≠ b) }

/-- Takes a CLEAN block for an extent (R137). A rotating rewrite of it is given up. -/
def BlockPool.takeClean (q : BlockPool) (b : Nat) : BlockPool :=
  let q := q.setBlock b .held
  { q with cur := q.cur.filter (fun c => c.block ≠ b) }

/-! ### Grant and scrub record (R137, R150) -/

/-- Certified blocks of an extent. -/
def Extent.certCount (x : Extent) : Nat := (x.blocks.filter (·.cert)).length

/-- Writes an extent's scrub record to its holder's list, in which a record not reported yet stays (R150, R151). -/
def State.scrubRecord (s : State) (e : Nat) : State :=
  let x := s.extent e
  s.onPart x.holder (fun p => { p with
    records := p.records.filter (fun r => r.ext ≠ e || !r.reported) ++ [{ ext := e, half := x.half, blocks := x.blocks.length, substituted := x.substituted, grantSeq := x.grantSeq, seq := p.recordSeq, grantRound := x.grantRound, first := x.firstCert.getD 0, last := x.lastCert, initial := x.initialBlocks }]
    recordSeq := (p.recordSeq + 1) % 2 ^ 32 })

/-- Every block of an ACTIVE extent is certified (R150). -/
def Extent.whole (x : Extent) : Bool := x.st == .active && x.blocks.all (fun b => b.cert)

/-- Counts a block's certification into an extent's figures (R150). -/
def Extent.noteCert (x : Extent) (round : Nat) : Extent :=
  { x with firstCert := some (min round (x.firstCert.getD round)), lastCert := max x.lastCert round }

/-- The effect of EXT.GRANT (R100, R137, R150, R315). DESIGN CHOICE: a block last certified by the full memory test, for which
the spec gives no round, counts with round 0 in FIRST_CERT_ROUND and LAST_CERT_ROUND. -/
def State.grantExtent (s : State) (e h n p : Nat) : State :=
  let q := s.pool h
  let clean := q.cleanFrom h halfBlocks 0 n
  let dirty := q.dirtyFree h (n - clean.length)
  let s := s.onPool h (fun q => dirty.foldl BlockPool.takeDirty (clean.foldl BlockPool.takeClean q))
  let rounds := clean.map (fun b => q.certAt.look 0 b)
  let first := rounds.foldl (fun (a : Option Nat) r => some (min (r - 1) (a.getD (r - 1)))) none
  let root := !(s.part p).root.any (fun r => (s.extent r).st = .active && (s.extent r).holder = p)
  let s := s.onExtent e (fun x => { x with
    st := .active, half := h, hosted := false, root := root, holder := p, lastHolder := p, lhValid := true
    pins := 0, grantSeq := (x.grantSeq + 1) % 2 ^ 32, stateRound := s.now, certified := clean.length
    blocks := clean.map (fun b => { block := b, cert := true }) ++ dirty.map (fun b => { block := b })
    undone := [], swept := false, substituted := 0, grantRound := s.now, firstCert := first
    lastCert := rounds.foldl (fun a r => max a (r - 1)) 0
    initialBlocks := (rounds.filter (· = 0)).length, region := none })
  let s := if root then s.onPart p (fun x => { x with root := some e }) else s
  if dirty.isEmpty then s.scrubRecord e else s

/-! ### Draining, sweep and release (R131, R138 to R143) -/

/-- Drops the cached translations that a test picks (R116, R118, R138). -/
def State.dropCached (s : State) (t : Cached → Bool) : State :=
  let s := { s with dies := s.dies.mapAll {} (fun _ (d : DieSt) =>
    { d with walkCache := d.walkCache.filter (fun c => !t c), blockCache := d.blockCache.filter (fun c => !t c) }) }
  s.onNet (fun n => { n with
    fabCache0 := n.fabCache0.filter (fun c => !t c)
    fabCache1 := n.fabCache1.filter (fun c => !t c) })

/-- The migrations that wait in the queue of a link die's engine start while it runs fewer than 64 (R127). -/
def State.startQueued (s : State) (ld : Nat) : State :=
  s.each (s.migrations.filter (fun x => x.ld = ld && !x.running)) (fun s x =>
    if (s.migrations.filter (fun y => y.ld = ld && y.running)).length < 64 then
      (s.onMigration x.part x.pva (fun y => { y with running := true })).askPeer x.part x.pva 64
    else s)

/-- The migrations that a test picks end, with their reads, and the oldest that wait in the engines' queues start (R127). -/
def State.endMigrations (s : State) (t : Migration → Bool) : State :=
  let gone := s.migrations.filter t
  let s : State := { s with migrations := s.migrations.filter (fun m => !t m) }
  let s := s.onNet (fun n => { n with out := n.out.filter (fun q => !gone.any (fun m => q.part = m.part && q.pva = m.pva)) })
  (s.startQueued 0).startQueued 1

/-- The migration of a page ends (R127). -/
def State.endMigration (s : State) (m : Migration) : State := s.endMigrations (fun x => x.part = m.part && x.pva = m.pva)

/-- A region's destruction starts (R247). -/
def State.destroyRegion (s : State) (r : Nat) : State :=
  s.onRegion r (fun x => if x.valid && x.destroying.isNone then { x with destroying := some s.now } else x)

/-- An extent enters DRAINING: cached entries go, migrations into it are cancelled, and its region is destroyed (R131,
R138, R248). -/
def State.drainExtent (s : State) (e : Nat) (force : Bool) : State :=
  if (s.extent e).st != .active then s else
  let s := s.onExtent e (fun x => { x with st := .draining, stateRound := s.now, since := s.now, forced := force, swept := false })
  let s := s.dropCached (fun c => c.ext = e)
  let s := s.endMigrations (fun m => m.ext = e)
  match (s.extent e).region with
  | some r => s.destroyRegion r
  | none => s

/-- A pool address lies in a block of the list. -/
def inBlocks (bs : List Nat) (pa : Nat) : Bool := !isMeta pa && decide (paBlock pa ∈ bs)

/-- A host request is answered, unless it has been already (R441). -/
def State.answerHost (s : State) (tag : Nat) (st : Status) (data : List Byte) (poison : Bool) : State :=
  s.onHost (fun h => { h with reqs := h.reqs.map (fun q =>
    if q.tag = tag && q.answer.isNone then { q with answer := some (st.code, data, poison) } else q) })

/-- A kind of transaction that a requester asked for at a line. -/
def fromRequester : PendKind → Bool
  | .rdS => true
  | .rdX => true
  | .upg => true
  | .rdNc _ _ _ => true
  | .wrNc _ _ _ _ => true
  | .atomFar _ _ _ _ => true
  | _ => false

/-- A request that waits at a line is cancelled with a status (R138, R141). -/
def State.cancelReq (s : State) (r : FabReq) (k : PendKind) (st : Status) : State :=
  match k with
  | .stroke id => s.gotReq id st [] false
  | .host tag => s.answerHost tag st [] false
  | .evict => s
  | .publish _ => s
  | .clean => s
  | .device _ _ => s
  | .trim _ => s
  | _ => match r.who with
    | .buffer _ => s.gotReq r.tag st [] false
    | .agent _ _ => s.refuse r st

/-- Snoops every holder of a line with REVOKED; no answer is awaited (R138). -/
def State.sweepSnoop (s : State) (line : Nat) : State :=
  let e := s.dirEnt line
  let q : Pend := { op := opSnpInv, revoked := true }
  let s := if e.ovf then s.each (s.holdersOf (line * 64)) (fun s p => s.each (s.allRanks p) (fun s g =>
      let n := s.takeSnoopSeq p (2 ^ 24 + g.1)
      n.2.snoopGroup line q p g.1 n.1)) else s
  let targets := if e.ovf then (s.membersOf (line * 64)).filter (fun w => match w with
      | .agent p k => !(s.allRanks p.val).any (fun g => g.2.has k)
      | .buffer _ => false) else e.ptrs
  s.each targets (fun s w => match w with
    | .buffer d => s.bufferSnoop d.val line opSnpInv
    | .agent p k =>
      let n := s.takeSnoopSeq p.val (s.rank p.val k).ep
      n.2.snoop line q p.val k n.1)

/-- A token of a swept line: its holder's request ends with REVOKED at an atomic buffer (R138, R226). -/
def State.sweepToken (s : State) (line : Nat) (t : Token) : State :=
  match t.who with
  | .buffer _ => (s.gotReq t.id .revoked [] false).dropToken line t
  | .agent _ _ => s.dropToken line t

/-- The sweep of one line: an invalidation with REVOKED to every agent the entry names, by multicast where OVF is set,
what waits there is cancelled, and the entry is dropped; an owner's later data is discarded (R141, R142). -/
def State.sweepLine (s : State) (line : Nat) : State :=
  let e := s.dirEnt line
  let s := s.sweepSnoop line
  let s := match e.pend with
    | some x => s.cancelReq x.req x.kind .revoked
    | none => s
  let s := s.each e.waiting (fun s x => s.cancelReq x.1 x.2 .revoked)
  let s := s.each e.tokens (fun s t => s.sweepToken line t)
  let owners : List Requester := match e.pend with
    | some q => q.owner.toList
    | none => if e.st == .x then e.ptrs else []
  let s := s.onNet (fun n => { n with lateData := owners.foldl (fun l w => addOnce l (w, line)) n.lateData })
  { s with dir := s.dir.dropIf (· = line) }

/-- The sweep of the lines of some blocks (R142). -/
def State.sweepBlocks (s : State) (bs : List Nat) : State :=
  let lines := (List.filter (fun (e : Nat × DirEnt) => inBlocks bs (e.1 * 64)) s.dir).map (·.1)
  s.each lines State.sweepLine

/-- A queued bulk operation ends (R95, R138). -/
def State.cancelQueued (s : State) (o : BulkOp) (st : Status) : State :=
  ((s.unpinAll o.src).unpinAll o.dst).postRec o.part o.cq
    { kind := 1, status := st.code, sq := o.sq, cycles := min o.slices 65535, detail := 0x7FFF, userTag := o.userTag, round := s.now }

/-- The operation of a channel ends if a test picks it. -/
def State.cancelChannel (s : State) (d c : Nat) (t : BulkOp → Bool) (st : Status) : State :=
  match (s.die d).channels.look none c with
  | some o => if t o then s.bulkDone d c o st 0 else s
  | none => s

/-- Bulk operations that use an extent complete with a status (R95, R140). -/
def State.cancelBulk (s : State) (t : BulkOp → Bool) (st : Status) : State :=
  s.each (List.range 4) (fun s d =>
    let queued := (s.die d).queue.filter t
    let s := s.onDie d (fun x => { x with queue := x.queue.filter (fun o => !t o) })
    let s := s.each queued (fun s o => s.cancelQueued o st)
    s.each (List.range 8) (fun s c => s.cancelChannel d c t st))

/-- An operation uses an extent. -/
def BulkOp.uses (o : BulkOp) (e : Nat) : Bool := o.src.any (fun x => x.ext = e) || o.dst.any (fun x => x.ext = e)

/-- The requester of a write that has not reached the array gets REVOKED (R138). -/
def State.revokeAck (s : State) : Ack → State
  | .reply ld p _ pkt => s.sendReply p ld { pkt with status := Status.revoked.code, load := 0, units := 0, payload := [] }
  | .host tag => s.answerHost tag .revoked [] false
  | .stroke id _ => s.gotReq id .revoked [] false

/-- The partition that an answer goes to. -/
def State.ackPart (s : State) : Ack → Nat
  | .reply _ p _ _ => p
  | .host _ => ((s.liveParts.find? (fun p => (s.part p).host))).getD 0
  | .stroke id _ => ((s.poolReq id).map (·.part)).getD 0

/-- Every unfinished request for some blocks, that a test of the partition picks, is cancelled with REVOKED: those not
served, those whose write waits in a coalescing buffer, and those that wait at the link dies (R138, R247). -/
def State.cancelWork (s : State) (bs : List Nat) (who : Nat → Bool) : State :=
  let hit := s.poolReqs.filter (fun q => q.got.isNone && inBlocks bs q.pa && who q.part)
  let s := s.each hit (fun s q => s.gotReq q.id .revoked [] false)
  let due := fun (s : State) (c : Coal) => if inBlocks bs (randPa c.half c.rand) then c.acks.filter (fun a => who (s.ackPart a)) else []
  let acks := s.mem.coal.flatMap (due s)
  let s := s.onMem (fun m => { m with coal := m.coal.map (fun c => { c with acks := c.acks.filter (fun a => !decide (a ∈ due s c)) }) })
  let s := s.each acks State.revokeAck
  let mine := fun (q : Parked) => who (askPart q.req) && q.lines.any (fun ls => ls.any (fun l => inBlocks bs (l * 64)))
  let gone := s.net.parked.filter mine
  let s := s.onNet (fun n => { n with parked := n.parked.filter (fun q => !mine q) })
  s.each gone (fun s q => s.refuse q.req .revoked)

/-- EXTENT_DRAIN_LIMIT (R138, R140, R142): at D + 8 unfinished work is cancelled, pins are released and the sweep runs. -/
def execExtentDrainLimit (e : Nat) (s : State) : Host.Outcome State Fault Refusal :=
  let x := s.extent e
  if x.st != .draining || x.swept || s.now < x.since + 8 then .next s else
  let bs := x.blocks.map (·.block)
  let s := s.cancelBulk (fun o => o.uses e) .revoked
  let s := s.cancelWork bs (fun _ => true)
  let s := s.sweepBlocks bs
  .next (s.onExtent e (fun x => { x with pins := 0, swept := true }))

/-- A released block becomes DIRTY and joins the scrub queue; one in progress keeps its place (R138, R145). -/
def BlockPool.release (q : BlockPool) (b : Nat) : BlockPool :=
  if q.blockState b == .retired then q else
  let q := { q.setBlock b .dirty with granted := q.granted.filter (· ≠ b), certNow := q.certNow.filter (·.1 ≠ b) }
  match q.cur with
  | some c => if c.block = b && !c.rewrite then { q with cur := some { c with granted := false } }
      else { q with released := q.released ++ [b] }
  | none => { q with released := q.released ++ [b] }

/-- EXTENT_SCRUBBING_ENTRY (R135, R138): at D + 10 the blocks are released in ascending extent-space index. -/
def execExtentScrubbingEntry (e : Nat) (s : State) : Host.Outcome State Fault Refusal :=
  let x := s.extent e
  if x.st != .draining || !x.swept || s.now < x.since + 10 then .next s else
  let bs := (x.blocks.filter (fun b => !b.lost)).map (·.block)
  let s := s.onPool x.half (fun q => bs.foldl BlockPool.release q)
  let due := bs.filter (fun b => (s.pool x.half).blockState b != .retired)
  .next (s.onExtent e (fun x => { x with st := .scrubbing, stateRound := s.now, certified := 0, undone := due, root := false, region := none }))

/-- EXTENT_FREE (R135, R152): every released block is certified or retired. BLOCKS and CERTIFIED stay as they are until the
next grant. -/
def execExtentFree (e : Nat) (s : State) : Host.Outcome State Fault Refusal :=
  let x := s.extent e
  if x.st != .scrubbing || !x.undone.isEmpty then .next s
  else .next (s.onExtent e (fun x => { x with st := .free, stateRound := s.now }))

/-! ### Scrub (R144 to R147) -/

/-- The block that scrub takes next (R145). -/
def BlockPool.nextScrub (q : BlockPool) (h : Nat) : Option ScrubCur × BlockPool :=
  match q.granted with
  | b :: rest => (some { block := b, granted := true }, { q with granted := rest })
  | [] => match q.nextAuto h with
    | some b => (some { block := b }, ({ q with sweep := b % halfBlocks + 1 } : BlockPool).setBlock b .dirty)
    | none => match q.released with
      | b :: rest => (some { block := b }, { q with released := rest })
      | [] =>
        match (q.cleanFrom h (halfBlocks - q.rewriteAt) q.rewriteAt 1 ++ q.cleanFrom h q.rewriteAt 0 1).head? with
        | some b => (some { block := b, rewrite := true }, { q with rewriteAt := (b % halfBlocks + 1) % halfBlocks })
        | none => (none, q)

/-- The rands to which a slice writes: its own, and those of the pages that replace retired pages of it (R146, R203). -/
def State.scrubRands (s : State) (h lo hi : Nat) : List (Nat × Nat) :=
  let off := fun (pa : Nat) => halfOff pa / 2048
  (lo, hi) :: ((s.half h).pages.filter (fun e => decide (lo ≤ off e.1) && decide (off e.1 < hi))).map (fun e =>
    (metaOff / 2048 + 2 * e.2, metaOff / 2048 + 2 * e.2 + 2))

/-- The lines of a slice that agents hold or a transaction is pending on. -/
def State.sliceHeld (s : State) (h lo hi : Nat) : List Nat :=
  (List.filter (fun (e : Nat × DirEnt) => e.2.st != .u && decide (randPa h lo ≤ e.1 * 64) && decide (e.1 * 64 < randPa h hi))
    s.dir).map (·.1)

/-- One scrub slice of a half at step 8: zeros to the next part of the block in progress, once no agent holds a line of it,
as of every write at a home. A half that does not accept commands, in self-refresh or on its way out of it, or with no
working weave die, does none (R144, R146, R177, R178, R219). -/
def State.scrubSlice (s : State) (h : Nat) : State :=
  if s.asleepHalf h || s.halfDead h then s else
  let q := s.pool h
  let x := match q.cur with
    | some c => (some c, q)
    | none => q.nextScrub h
  match x.1 with
  | none => s
  | some c =>
    if 8 ≤ c.done then s else
    let n := min s.rnd.micros (8 - c.done)
    let r := c.block % halfBlocks * 1024
    let lo := r + 128 * c.done
    let hi := r + 128 * (c.done + n)
    match s.sliceHeld h lo hi with
    | [] =>
      let s := s.each (s.scrubRands h lo hi) (fun s x => s.zeroRands h x.1 x.2)
      s.onPool h (fun _ => { x.2 with cur := some { c with done := c.done + n } })
    | ls => (s.each ls (fun s l => if (s.dirEnt l).st == .busy then s else s.access l {} (.device (l * 64) []))).onPool h (fun _ =>
        { x.2 with cur := some c })

/-- An extent's block list is in force: ACTIVE or DRAINING (R134, R135). -/
def Extent.inForce (x : Extent) : Bool := x.st == .active || x.st == .draining

/-- The extents whose block list or scrub names a block. -/
def State.extentsOf (s : State) (b : Nat) : List Nat :=
  (List.filter (fun (e : Nat × Extent) => e.2.undone.any (· = b) || (e.2.inForce && e.2.blocks.any (fun y => y.block = b)))
    s.extents).map (·.1)

/-- A block is done for the extents in SCRUBBING that released it (R135, R152). -/
def State.scrubDone (s : State) (b : Nat) (certified : Bool) : State :=
  s.each (s.extentsOf b) (fun s e => s.onExtent e (fun x =>
    if x.undone.any (· = b) then
      { x with undone := x.undone.filter (· ≠ b), certified := x.certified + b2n certified } else x))

/-- A block's certification takes effect: HELD or CLEAN, or RETIRED where it is marked and not granted (R147, R152). -/
def State.certifyBlock (s : State) (h b round : Nat) : State :=
  let s := s.scrubDone b true
  let s := s.onPool h (fun q => { q with certAt := q.certAt.put 0 b (round + 1) })
  let held := (s.extentsOf b).filter (fun e => (s.extent e).inForce && (s.extent e).blocks.any (fun y => y.block = b && !y.cert))
  match held with
  | e :: _ =>
    let s := s.onPool h (fun q => q.setBlock b .held)
    let s := s.onExtent e (fun x =>
      ({ x with blocks := x.blocks.map (fun y => if y.block = b then { y with cert := true } else y), certified := x.certified + 1 } :
        Extent).noteCert round)
    if (s.extent e).whole then s.scrubRecord e else s
  | [] =>
    (if b ∈ (s.pool h).marked then s.persistChange else s).onPool h (fun q => if b ∈ q.marked then { q.setBlock b .retired with marked := q.marked.filter (· ≠ b) }
      else if q.blockState b == .dirty then q.setBlock b .clean else q)

/-- Step 4: the certifications of the round that ended take effect (R147). -/
def State.certifyAll (s : State) (h : Nat) : State :=
  let bs := (s.pool h).certNow
  let s := s.onPool h (fun q => { q with certNow := [] })
  s.each bs (fun s b => s.certifyBlock h b.1 (s.now - 1))

/-- A block of an extent that failed twice is replaced by the next free block, or its entry is lost (R147). -/
def State.substitute (s : State) (h e b : Nat) : State :=
  let put := fun (s : State) (y : BlockEnt) => s.onExtent e (fun x => { x with
    blocks := x.blocks.map (fun z => if z.block = b then y else z), substituted := x.substituted + 1 })
  let q := s.pool h
  match q.cleanFrom h halfBlocks 0 1 with
  | c :: _ =>
    let s := put (s.onPool h (fun q => q.takeClean c)) { block := c, cert := true }
    let r := q.certAt.look 0 c
    let s := s.onExtent e (fun x => ({ x with certified := x.certified + 1, initialBlocks := x.initialBlocks + b2n (decide (r = 0)) } : Extent).noteCert (r - 1))
    if (s.extent e).whole then s.scrubRecord e else s
  | [] => match q.dirtyFree h 1 with
    | c :: _ => put (s.onPool h (fun q => q.takeDirty c)) { block := c }
    | [] =>
      let k := ((s.extent e).blocks.findIdx? (fun z => z.block = b)).getD 0
      let s := s.onExtent e (fun x => { x with blocks := x.blocks.map (fun z => if z.block = b then { z with lost := true } else z) })
      s.event evBlockLost e k

/-- SCRUB_BLOCK_READBACK (R146, R147): a block written whole is read back. It is certified, scrubbed once more, or
retired and replaced. -/
def execScrubBlockReadback (h : HalfId) (pass : Bool) (s : State) : Host.Outcome State Fault Refusal :=
  match (s.pool h.val).cur with
  | none => .next s
  | some c =>
    if c.done < 8 then .next s else
    if pass then
      .next (s.onPool h.val (fun q =>
        let q := { q with cur := none }
        if c.rewrite then { q with certAt := q.certAt.put 0 c.block (s.now + 1) } else { q with certNow := q.certNow ++ [(c.block, c.granted)] }))
    else
      let pa := blockPa c.block
      if !c.failed then
        .next ((s.onPool h.val (fun q => { q with cur := some { c with done := 0, failed := true } })).logErr h.val
          { type := 0x08, source := 5, write := true, pa := pa, loc := s.lineWord pa })
      else
        let holder := (s.extentsOf c.block).filter (fun e => (s.extent e).inForce)
        let s := s.persistChange.onPool h.val (fun q => { q.setBlock c.block .retired with cur := none, marked := q.marked.filter (· ≠ c.block) })
        let s := s.logErr h.val { type := 0x0E, source := 5, write := true, pa := pa, loc := s.lineWord pa }
        let s := s.scrubDone c.block false
        .next (match holder with
          | e :: _ => s.substitute h.val e c.block
          | [] => s)

/-! ### Host requests on the fabric side (R123, R438, R441) -/

/-- The HOST partition (R101). -/
def State.hostPart (s : State) : Option Nat := s.liveParts.find? (fun p => (s.part p).host)

/-- The host extent whose DPA range holds an address and whose state a test admits (R438). -/
def State.hostExtAt (s : State) (dpa : Nat) (t : Nat → Bool) : Option HostExt :=
  (s.host.exts.map (·.2)).find? (fun x => t x.st && decide (x.dpa ≤ dpa) && decide (dpa < x.dpa + x.blocks * 0x200000))

/-- Serves a host request that has passed the DPA check: walked, held where another requester would get NOT_READY or while
ports hold requests for its line, or answered (R19, R115, R126, R160, R166, R177, R203, R441). -/
def State.tryHost (s : State) (tag : Nat) : State :=
  match s.host.reqs.find? (fun q => q.tag = tag && q.answer.isNone) with
  | none => s
  | some q =>
    match s.hostPart, s.hostExtAt q.dpa (fun st => st == 2 || st == 3) with
    | some p, some x =>
      let need : Rights := if q.write then { w := true } else { r := true }
      let pva := q.dpa - x.dpa + x.pva
      let o := s.walk p pva need
      let s := s.noteWalk (s.walkDie (2 * (s.extent x.ext).half)) p pva o
      match o with
      | .pa pa _ _ =>
        let group := if homeHalf pa = 0 then s.host.group0 else s.host.group1
        if s.halfDead (homeHalf pa) then s.answerHost tag .deadAgent [] false
        else if s.spineGone && !group.up then s.answerHost tag .fenced [] false else
        let s := s.touch pa
        if s.asleepHalf (homeHalf pa) || s.portHeld pa then s
        else
          let s := s.takeTurn pa 3 hostPort q.write false
          let s := if q.write then s.countWrite p pa 1 3 1 else s.countRead p pa 1 3 1
          s.ncAccess p (pa / 64) {} (.host tag)
      | .migrate epa e ext page => (s.startMigration p pva epa e ext page).getD s
      | .blocked pa => (s.touch pa).cleanLine pa
      | .notReady _ _ => s
      | o => s.answerHost tag o.status [] false
    | _, _ => s.answerHost tag .range [] false

/-- Host requests that are held are walked again (R441). -/
def State.retryHosts (s : State) : State :=
  let open_ := s.host.reqs.filter (fun q => q.answer.isNone &&
    !s.dir.any (fun e => (e.2.pend.any (fun x => x.kind == .host q.tag)) || e.2.waiting.any (fun x => x.2 == .host q.tag)) &&
    !s.mem.coal.any (fun c => c.acks.any (· == .host q.tag)))
  s.each (open_.map (·.tag)) State.tryHost

/-- Some stack of a half still has a request in its queues, a buffered write, a rewrite or an unanswered host request
(R175). -/
def State.stacksBusy (s : State) (h : Nat) : Bool :=
  let hostPa := fun (q : HostReq) => match s.hostPart, s.hostExtAt q.dpa (fun st => st == 2 || st == 3) with
    | some p, some x => match s.walk p (q.dpa - x.dpa + x.pva) (if q.write then { w := true } else { r := true }) with
      | .pa pa _ _ => homeHalf pa == h
      | _ => false
    | _, _ => false
  s.poolReqs.any (fun q => q.got.isNone && homeHalf q.pa == h) || s.mem.coal.any (·.half = h) ||
    s.mem.deltas.any (·.half = h) || s.mem.intents.any (·.1 / 10 = h) || s.host.reqs.any (fun q => q.answer.isNone && hostPa q)

/-- SELF_REFRESH_ENTRY (R175, R176): after 1,000 rounds without a touch, or after a flush, once no block is DIRTY, no rebuild
or move of units runs, and nothing is outstanding for the half's stacks. -/
def execSelfRefreshEntry (h : HalfId) (s : State) : Host.Outcome State Fault Refusal :=
  let x := s.half h.val
  let moving := x.rebuilding || x.moving.isSome || !x.copies.isEmpty
  let pending := s.dir.any (fun e => homeHalf (e.1 * 64) = h.val && e.2.st == .busy)
  let ok := x.idle ≥ 1000 && !x.touched && (x.refresh == .active || x.refresh == .flushing) &&
    !(s.pool h.val).anyDirty && !moving && !pending && !s.stacksBusy h.val
  .next (if ok then s.onHalf h.val (fun x => { x with refresh := .asleep }) else s)

/-! ### Walks and migration (R111 to R116, R126 to R131, R433) -/

/-- A die's walkers take a walk: for a range of a stroke, by its index, a die of the stroke's home half; for a fabric request a
die of the receiving link die's half, by bit 21 of the PVA; for a host request the dies of the half that homes its extent
(R115). -/
def State.walksOn (s : State) (src : WalkSrc) (pva d : Nat) : Bool :=
  match src with
  | .stroke h i => d == s.walkDie (2 * h.val + i.val % 2)
  | .fabric ld => d == s.walkDie (2 * ld.val + pva / 2 ^ 21 % 2)
  | .host h => d / 2 == h.val

/-- PAGE_WALK (R111 to R116): a walker of a working die that takes such a walk finishes it. Its fetches fill the die's walk
cache, and for a fabric request the link die's translation cache. A remote-backed page starts or joins its migration; a
line that an agent holds, or a half asleep, is asked for. -/
def execPageWalk (walker : Fin 48) (p : PartId) (pva : Nat) (need : Rights) (src : WalkSrc) (s : State) :
    Host.Outcome State Fault Refusal :=
  let d := walker.val / 12
  if !(s.die d).ok || !(s.part p.val).live || !s.walksOn src pva d then .next s else
  let o := s.walk p.val pva need
  let s := (s.onWalker walker.val (fun _ => { part := p.val, pva := pva, out := some o })).noteWalk d p.val pva o
  .next (match o with
    | .pa pa _ _ =>
      let s := s.touch pa
      (match src with | .fabric ld => s.fillFab ld.val p.val pva o | _ => s)
    | .migrate epa e ext page => (s.startMigration p.val pva epa e ext page).getD s
    | .blocked pa => (s.touch pa).cleanLine pa
    | _ => s)

/-- DATA_NC (R127, R433): a piece of a migrating page lands in its destination frames, and the engine asks for more. -/
def execDataNc (p : PartId) (pva offset : Nat) (data : List Byte) (load : Nat) (s : State) :
    Host.Outcome State Fault Refusal :=
  match s.migrations.find? (fun m => m.part = p.val && m.pva = pva && m.running) with
  | none => .next s
  | some m =>
    if offset ∈ m.landed || offset % 1024 ≠ 0 || m.asked ≤ offset || data.length ≠ 1024 then .next s else
    let dest := s.framePa m.ext (m.entry / 2 ^ 26 % 2 ^ 28 + offset / 4096) + offset % 4096
    let s := (s.each (nums (dest / 64) 16) (fun s l => s.touch (l * 64))).deviceWrite dest data
    let s := s.onNet (fun n => { n with out := n.out.filter (fun q => !(q.part = p.val && q.pva = pva && q.off = offset)) })
    let s := s.onMigration p.val pva (fun m => { m with
      landed := m.landed ++ [offset], left := m.left - 1024, maxLoad := max m.maxLoad (load % 16) })
    .next (s.askPeer p.val pva 64)

/-- A round boundary of the engine's windows: halved after a LOAD of 12 to 15, raised after one of 0 to 4 (R433). -/
def State.adjustWindows (s : State) : State :=
  { s with migrations := s.migrations.map (fun m =>
      let w := if 12 ≤ m.maxLoad then max 4096 (m.window / 2) else if m.maxLoad ≤ 4 then m.window + 4096 else m.window
      { m with window := min 0x200000 w, maxLoad := 0 }) }

/-- The waiting strokes that a page's migration defers, each with the range that waits (R78, R126). -/
def State.deferredOn (s : State) (m : Migration) : List (Nat × Nat × Stroke × Nat) :=
  (s.part m.part).sqs.flatMap (fun q => (q.2.waiting.filter (fun k => k.2 == .translating)).filterMap (fun k =>
    (m.joined.find? (fun x => x.1 = k.1.sid)).map (fun x => (m.part, q.1, k.1, x.2))))

/-- A read of the migration engine has failed, with the peer's status if one came. A read that the peer refused waits for the
transport timeout, at which it is sent again, up to three times, with its TAG and SEQ. After the fourth failure the
migration is abandoned, every stroke deferred on it completes with the peer's status, or TIMEOUT if none arrived, and held
host requests resolve with it (R129, R415, R417, R441). DESIGN CHOICE: where some of the four tries ended with a status of
the peer and others with none, the last status that arrived counts. -/
def State.readFailed (s : State) (q : OutReq) (st : Option Status) : State :=
  match s.migrations.find? (fun m => m.part = q.part && m.pva = q.pva && m.running) with
  | none => s
  | some m =>
    let why := if st.isSome then st else q.why
    if q.resends < 3 && st.isSome then
      s.onNet (fun n => { n with out := n.out.map (fun x => if x.tag = q.tag then { x with why := why, failed := true } else x) })
    else if q.resends < 3 then
      let more := fun (x : OutReq) => if x.tag = q.tag then { x with sent := s.now, resends := x.resends + 1, failed := false } else x
      (s.onNet (fun n => { n with out := n.out.map more })).originate q.part q.ld q.pkt true
    else
      let why := why.getD .timeout
      let ks := s.deferredOn m
      let s := s.endMigration m
      let s := s.countOf q.part 5 1
      let s := s.each ks (fun s k => s.failWaiting k.1 k.2.1 k.2.2.1 false why (admitDetail (some k.2.2.2) 0))
      let mine := s.host.reqs.filter (fun r => r.answer.isNone && s.hostPart == some q.part &&
        (match s.hostExtAt r.dpa (fun x => x == 2 || x == 3) with
          | some x => decide (q.pva ≤ r.dpa - x.dpa + x.pva) && decide (r.dpa - x.dpa + x.pva < q.pva + m.size)
          | none => false))
      s.each mine (fun s r => s.answerHost r.tag why [] false)

/-- MIGRATION_READ_FAIL (R129): the oldest outstanding read of the migration failed with a status of the peer, or in its
transport once the timeout has passed; one that has failed waits for its resending. -/
def execMigrationReadFail (p : PartId) (pva : Nat) (st : Option Status) (s : State) : Host.Outcome State Fault Refusal :=
  match s.net.out.find? (fun q => q.part = p.val && q.pva = pva && !q.failed) with
  | none => .next s
  | some q => .next (if st.isSome || decide (q.sent + s.rst.timeout ≤ s.now) then s.readFailed q st else s)

/-- MIGRATION_COMPLETE (R130): the last byte has landed, and the leaf is rewritten by a compare-and-swap at its home,
which waits while an agent holds the entry's line. Host requests held for the page are walked again (R441). -/
def execMigrationComplete (p : PartId) (pva : Nat) (s : State) : Host.Outcome State Fault Refusal :=
  match s.migrations.find? (fun m => m.part = p.val && m.pva = pva && m.running) with
  | none => .next s
  | some m =>
    if m.left ≠ 0 then .next s
    else if s.heldAway m.entryPa 8 then .next (s.cleanLine m.entryPa)
    else
      let w := s.readWord m.entryPa
      let same := w.1.toNat == m.entry && !w.2
      let new := m.entry % 2 ^ 55 - (if m.entry / 32 % 2 = 1 then 32 else 0)
      let s := if same then s.deviceWrite m.entryPa (toBytes 8 new) else s
      .next ((s.endMigration m).retryHosts)

end Sys2Proof.Machine
end

