-- ==== Sys2Proof/Machine/Coherence.lean ====
section
/-! DEFINITION. Coherent requests of agents, their answers to snoops, dead agents, and published regions (R122, R215 to
R248, R388). -/
namespace Sys2Proof.Machine

/-! ### The window check (R69, R122, R388) -/

/-- What becomes of a fabric request at the window check: the lines it reaches, the zeros of a doorbell block, a refusal,
or a wait for a line of a table. -/
inductive FabOut where
  | ok (lines : List Nat)
  | zeros
  | bad (st : Status) (retry : Nat)
  | wait
  deriving DecidableEq, Repr

/-- Bytes that a request reaches (R388). -/
def AgentOp.bytes (o : AgentOp) (r : FabReq) : Nat :=
  match o with
  | .rdNc => 64 * r.rdUnits
  | .wrNc data _ => data.length
  | .atom _ w8 _ _ => atomWidth w8
  | _ => 64

/-- The rights that a request asks of the window (R122). -/
def AgentOp.right (o : AgentOp) (w : Window) : Bool :=
  match o with
  | .rdX => w.rd && (w.wr || w.at_)
  | .upg => w.rd && (w.wr || w.at_)
  | .wrNc _ _ => w.wr
  | .atom _ _ _ _ => w.at_
  | _ => w.rd

/-- The rights that a request asks of the leaf (R122). -/
def AgentOp.need : AgentOp → Rights
  | .wrNc _ _ => { w := true }
  | .atom _ _ _ _ => { a := true }
  | _ => { r := true }

/-- A request asks for ownership (R122, R223). -/
def AgentOp.owns : AgentOp → Bool
  | .rdX => true
  | .upg => true
  | _ => false

/-- A request writes memory. -/
def AgentOp.writes : AgentOp → Bool
  | .wrNc _ _ => true
  | .atom _ _ _ _ => true
  | _ => false

/-- Retry-after of a half that leaves self-refresh: the remaining exit time in rounds, and 1 (R177). -/
def State.exitWait (s : State) (h : Nat) : Nat :=
  let gone := match (s.half h).refresh with
    | .waking => (s.now - (s.half h).wakeFrom) * s.rnd.micros
    | _ => 0
  ceilDiv (50 - gone) s.rnd.micros + 1

/-- A leaf's rights suffice: those asked for, and for ownership the write or the atomic right (R122). -/
def State.walkFab (s : State) (p pva : Nat) (need : Rights) (own : Bool) : WalkOut :=
  if own then
    match s.walk p pva { need with w := true } with
    | .perm => s.walk p pva { need with a := true }
    | o => o
  else s.walk p pva need

/-- The weave die that walks for a fabric request on a link die (R115). -/
def State.fabDie (s : State) (ld pva : Nat) : Nat := s.walkDie (2 * ld + pva / 2 ^ 21 % 2)

/-- The pages of a request, one by one; the first that fails decides (R112, R115, R122, R126). -/
def State.fabPages (s : State) (ld p : Nat) (need : Rights) (own : Bool) : Nat → Nat → Nat → List Nat → FabOut × State
  | 0, _, _, acc => (.ok acc, s)
  | fuel + 1, pva, n, acc =>
    if n = 0 then (.ok acc, s) else
    let o := s.walkFab p pva need own
    let s := (s.noteWalk (s.fabDie ld pva) p pva o).fillFab ld p pva o
    match o with
    | .pa a _ _ =>
      if s.halfDead (homeHalf a) then (.bad .deadAgent 0, s)
      else if s.cutOff ld a then (.bad .fenced 0, s)
      else
        let s := s.touch a
        if s.asleepHalf (homeHalf a) then (.bad .notReady (s.exitWait (homeHalf a)), s)
        else
          let k := min n (4096 - pva % 4096)
          s.fabPages ld p need own fuel (pva + k) (n - k) (acc ++ nums (a / 64) (k / 64))
    | .fault c _ => (.bad .xlateFault 0, s.countOf p (9 + c) 1)
    | .notReady e i => (.bad .notReady (s.extWait e i), s)
    | .migrate epa e ext page =>
      match s.startMigration p pva epa e ext page with
      | none => (.bad .notReady 8, s)
      | some s => (.bad .notReady (match s.migrationOf p pva with | some m => s.migrationWait m.left | none => 1), s)
    | .blocked a =>
      let s := s.touch a
      if s.asleepHalf (homeHalf a) then (.bad .notReady (s.exitWait (homeHalf a)), s) else (.wait, s.cleanLine a)
    | o => (.bad o.status 0, s)

/-- Check 5 of R122: the pages of a request from a PVA on. -/
def State.fabWalk (s : State) (r : FabReq) (p : Nat) (o : AgentOp) (pva : Nat) : FabOut × State :=
  let n := o.bytes r
  s.fabPages r.ld.val p o.need o.owns (n / 4096 + 2) (pva / 64 * 64) (if n % 64 = 0 then n else 64) []

/-- The window check of a request of an agent (R69, R122, R236, R388). -/
def State.fabCheck (s : State) (r : FabReq) (p rank : Nat) (o : AgentOp) : FabOut × State :=
  let w := s.window r.window
  if (s.rank p rank).dead then (.bad .deadAgent 0, s)
  else if !w.valid || w.part != p then (.bad .perm 0, s)
  else if rank < w.rankLo || w.rankHi < rank then (.bad .perm 0, s)
  else if w.len < r.offset + o.bytes r then (.bad .range 0, s)
  else if w.db then ((match o with | .rdNc => .zeros | _ => .bad .perm 0), s)
  else if !o.right w then (.bad .perm 0, s)
  else s.fabWalk r p o (w.pvaBase + r.offset)

/-! ### Requests at their lines (R119, R122, R223 to R226, R230, R246) -/

/-- The form of a request (R388): a read names whole lines and asks for a legal count; a write has up to 16 whole lines, or
up to 8 under byte masks; an atomic is aligned. -/
def AgentOp.formOk (o : AgentOp) (r : FabReq) : Bool :=
  match o with
  | .rdNc => r.offset % 64 == 0 && r.units == 0 && decide (r.rdUnits ≤ 16)
  | .wrNc data masks =>
    let n := data.length / 64
    r.offset % 64 == 0 && data.length % 64 == 0 && decide (n ≤ 16) && (match masks with
      | none => true
      | some ms => decide (ms.length = n) && decide (n ≤ 8))
  | .atom _ w8 _ _ => r.offset % atomWidth w8 == 0
  | _ => r.offset % 64 == 0 && r.units == 0 && r.rdUnits == 1

/-- A frame of a region refuses a write to some line (R239). -/
def State.linesRefuse (s : State) (r : FabReq) (ls : List Nat) : Bool :=
  match r.who with
  | .agent p _ => ls.any (fun l => s.frameRefuses p.val (l * 64))
  | .buffer _ => false

/-- A request keeps waiting in the fabric: it would be NACKed and neither holds a token of the line nor finds a free
credit of its slice (R225). -/
def State.creditless (s : State) (r : FabReq) (o : AgentOp) (line : Nat) : Bool :=
  (match o with | .rdNc => false | .wrNc _ _ => false | _ => true) && (s.dirEnt line).mustNack r &&
    !(s.dirEnt line).tokens.any (fun t => t.who = r.who && r.token = some t.token) &&
    decide (4096 ≤ (s.die (s.sliceOf line)).tokens.length)

/-- A request takes its turn at each of its lines and is served there (R166, R216, R223, R230, R239). -/
def State.agentServe (s : State) (r : FabReq) (o : AgentOp) (ls : List Nat) : State :=
  let s := s.each ls (fun s l => s.takeTurn (l * 64) 0 r.link.val o.writes r.hint)
  let part := askPart r
  let l := ls.headD 0
  match o with
  | .rdS => s.cohRequest l r .rdS
  | .rdX => if s.linesRefuse r ls then s.refuse r .perm else s.cohRequest l r .rdX
  | .upg => if s.linesRefuse r ls then s.refuse r .perm else s.cohRequest l r .upg
  | .rdNc => (s.each ls (fun s l => s.hitLine part l)).access l r (.rdNc ls.tail [] false)
  | .wrNc data masks => (s.each ls (fun s l => s.hitLine part l)).access l r (.wrNc ls.tail data masks .ok)
  | .atom op w8 operand compare =>
    if s.linesRefuse r ls then s.answer r opAtomRsp .perm 0 [] false none else s.atomRequest l r op w8 operand compare

/-- The translation pins of a reader's request on the versions of its frames (R239, R246). -/
def State.verPinsOf (s : State) (r : FabReq) (ls : List Nat) : List (FabReq × Nat × Nat) :=
  let p := askPart r
  ls.filterMap (fun l => (s.extentAt (l * 64)).bind (fun x =>
    match s.holding x.1 p with
    | .reader g =>
      let fr := (s.region g).table.look {} (s.regionFrame g x.1 (x.2 * 512 + l * 64 % 0x200000 / 4096))
      some (r, g, ((s.pinnedVersions p g).filter fr.live).foldl max 0)
    | _ => none))

/-- A request of an agent has not completed: it stands at a line, or waits in the fabric. -/
def State.outstanding (s : State) (r : FabReq) : Bool :=
  s.net.parked.any (fun q => q.req = r) ||
    s.dir.any (fun e => e.2.pend.any (fun q => q.req = r) || e.2.waiting.any (fun w => w.1 = r))

/-- Translation pins of requests that have completed are released (R246). -/
def State.dropVerPins (s : State) : State :=
  s.onNet (fun n => { n with verPins := n.verPins.filter (fun x => s.outstanding x.1) })

/-- A request waits at its link die. -/
def State.park (s : State) (q : Parked) : State := s.onNet (fun n => { n with parked := n.parked ++ [q] })

/-- A request that has been translated goes on to its lines: turned away by a dead half or one in self-refresh; waiting
while ports hold requests for a line or its slice has no credit; otherwise served (R19, R160, R177, R203, R225). -/
def State.agentLines (s : State) (r : FabReq) (o : AgentOp) (pva : Nat) (ls : List Nat) : State :=
  let s := s.onNet (fun n => { n with verPins := n.verPins ++ s.verPinsOf r ls })
  match ls.find? (fun l => s.halfDead (homeHalf (l * 64)) || s.asleepHalf (homeHalf (l * 64))) with
  | some l => if s.halfDead (homeHalf (l * 64)) then s.refuse r .deadAgent
      else (s.touch (l * 64)).refuse r .notReady (s.exitWait (homeHalf (l * 64)))
  | none =>
    if ls.any (fun l => s.portHeld (l * 64)) then s.park { req := r, op := o, pva := pva, lines := some ls }
    else if s.creditless r o (ls.headD 0) then s.park { req := r, op := o, pva := pva, lines := some ls, credit := true }
    else (s.agentServe r o ls).dropVerPins

/-- The token that a refused request presents is given up when its line's extent is DRAINING (R141). -/
def State.dropRevoked (s : State) (r : FabReq) : State :=
  s.each s.dir (fun s e => s.each (e.2.tokens.filter (fun t => t.who = r.who && r.token = some t.token)) (fun s t =>
    match s.extentAt (e.1 * 64) with
    | some x => if (s.extent x.1).st = .draining then (s.dropToken e.1 t).settleLine e.1 else s
    | none => s))

/-- What a request does once its window and pages are checked (R69, R122, R141). -/
def State.agentOut (s : State) (r : FabReq) (o : AgentOp) (pva : Nat) : FabOut → State
  | .ok ls => s.agentLines r o pva ls
  | .zeros => s.answer r opDataNc .ok 0 (List.replicate (o.bytes r) 0) false none
  | .bad st retry => (if st = .revoked then s.dropRevoked r else s).refuse r st retry
  | .wait => s.park { req := r, op := o, pva := pva }

/-- A request of an agent, or of an atomic buffer at its line (R14, R122, R223, R228 to R232, R388). -/
def State.agentOp (s : State) (r : FabReq) (o : AgentOp) : State :=
  match r.who with
  | .buffer _ => (match o with
    | .rdX => s.cohRequest (r.offset / 64) r .rdX
    | .upg => s.cohRequest (r.offset / 64) r .upg
    | .atom op w8 operand compare => s.atomRequest (r.offset / 64) r op w8 operand compare
    | _ => s)
  | .agent p rank =>
    let far : Bool := match o with
      | .atom _ _ _ _ => !(s.rank p.val rank).farAtomic && !(s.rank p.val rank).dead
      | _ => false
    if far then s.refuse r .perm
    else if !o.formOk r then s.refuse r .range
    else if o.bytes r = 0 then s.answer r (match o with | .rdNc => opDataNc | _ => opCmp) .ok 0 [] false none
    else
      let c := s.fabCheck r p.val rank o
      c.2.agentOut r o ((s.window r.window).pvaBase + r.offset) c.1

/-- A request that waited goes on: one that has been translated at its lines, any other with its walk (R119, R121). -/
def State.unpark (s : State) (q : Parked) : State :=
  match q.req.who with
  | .buffer _ => s
  | .agent p rank =>
    if (s.rank p.val rank).dead then s.refuse q.req .deadAgent else
    match q.lines with
    | some ls => s.agentLines q.req q.op q.pva ls
    | none =>
      let c := s.fabWalk q.req p.val q.op q.pva
      c.2.agentOut q.req q.op q.pva c.1

/-- Requests that wait at the link dies are tried again, in order of arrival (R114, R160, R203, R225). -/
def State.retryParked (s : State) : State :=
  let all := s.net.parked
  (s.onNet (fun n => { n with parked := [] })).each all State.unpark

/-- What ports held is sent, and what waited for a line goes on: strokes' requests, the hosts', the agents' (R160, R161, R203,
R441). -/
def State.releaseHeld (s : State) : State := s.resendHeld.retryHosts.retryParked

/-- RD_S (R122, R223). -/
def execRdS (r : FabReq) (s : State) : Host.Outcome State Fault Refusal := .next (s.agentOp r .rdS)

/-- RD_X (R122, R223). -/
def execRdX (r : FabReq) (s : State) : Host.Outcome State Fault Refusal := .next (s.agentOp r .rdX)

/-- UPG (R122, R223). -/
def execUpg (r : FabReq) (s : State) : Host.Outcome State Fault Refusal := .next (s.agentOp r .upg)

/-- RD_NC (R14, R69, R122, R219, R223, R388). -/
def execRdNc (r : FabReq) (s : State) : Host.Outcome State Fault Refusal := .next (s.agentOp r .rdNc)

/-- WR_NC (R14, R122, R219, R223, R385 to R388): up to 16 lines, or up to 8 under byte masks. -/
def execWrNc (r : FabReq) (data : List Byte) (masks : Option (List U64)) (s : State) :
    Host.Outcome State Fault Refusal := .next (s.agentOp r (.wrNc data masks))

/-- ATOM (R122, R223, R228 to R232): from an agent whose rank has FAR_ATOMIC, or from an atomic buffer at its line. -/
def execAtom (r : FabReq) (op : AtomOp) (width8 : Bool) (operand compare : U64) (s : State) :
    Host.Outcome State Fault Refusal := .next (s.agentOp r (.atom op width8 operand compare))

/-! ### Held work goes on (R161, R177, R203) -/

/-- SELF_REFRESH_EXIT (R177): 50 µs after the touch the stacks accept commands and what was held proceeds. -/
def execSelfRefreshExit (h : HalfId) (s : State) : Host.Outcome State Fault Refusal :=
  let x := s.half h.val
  if x.refresh != .waking || (s.now - x.wakeFrom + 1) * s.rnd.micros ≤ 50 then .next s
  else .next ((s.onHalf h.val (fun y => { y with refresh := .active, touched := true })).retryHosts)

/-- FAILOVER_RESYNC_DONE (R159 to R161): the standby controllers of a die's stacks have rewritten the parity of every open
intent, and ports send what they held. -/
def execFailoverResyncDone (d : DieId) (s : State) : Host.Outcome State Fault Refusal :=
  if !(s.die d.val).resync && !(dieStacks d.val).any (fun n => (s.stack n).resync) then .next s
  else .next (s.resyncStacks d.val).releaseHeld

/-- PAGE_RETIRE_COPY (R203): the copy of a retired page to its replacement ends, and the page maps there. -/
def execPageRetireCopy (h : HalfId) (s : State) : Host.Outcome State Fault Refusal :=
  match (s.half h.val).copies with
  | [] => .next s
  | c :: rest =>
    let dest := h.val * halfBase + metaOff + c.repl * 4096
    let s := s.each [0, 1] (fun s k => s.releaseRand h.val (randOf (c.page + k * 2048)))
    let s := s.each (List.range 64) (fun s k =>
      let x := s.newLine (c.page + k * 64)
      if x.2 then s.writePoisoned (dest + k * 64) x.1 else s.writePool (dest + k * 64) x.1)
    let s := s.each [0, 1] (fun s k => s.releaseRand h.val (randOf (dest + k * 2048)))
    .next (s.onHalf h.val (fun y => { y with copies := rest, pages := y.pages ++ [(c.page, c.repl)] })).releaseHeld

/-! ### Answers to snoops (R221 to R223, R234, R236) -/

/-- Changes the pending transaction of a line. -/
def State.onPend (s : State) (line : Nat) (f : Pend → Pend) : State :=
  s.onDir line (fun e => { e with pend := e.pend.map f })

/-- The opcode of the snoop that a line awaits an answer to. -/
def State.pendOp (s : State) (line : Nat) : Nat := match (s.dirEnt line).pend with | some q => q.op | none => 0

/-- An agent of a partition, by rank. -/
def agentOf (p rank : Nat) : Requester := .agent (Fin.ofNat 64 p) rank

/-- ACK_INV (R223): an awaited sharer has given the line up. -/
def execAckInv (p : PartId) (rank line : Nat) (s : State) : Host.Outcome State Fault Refusal :=
  let me : Requester := .agent p rank
  .next (if s.awaits line me && s.pendOp line = opSnpInv then (s.answered1 line me).retryParked else s)

/-- FWD_DONE (R223): the owner has forwarded the line, with its data when dirty and a shared copy was asked for. -/
def execFwdDone (p : PartId) (rank line : Nat) (data : Option (List Byte)) (poison : Bool) (s : State) :
    Host.Outcome State Fault Refusal :=
  let me : Requester := .agent p rank
  if !s.awaits line me || (s.pendOp line ≠ opSnpFwdS && s.pendOp line ≠ opSnpFwdX) then .next s else
  let s := match data with
    | some bs => if s.pendOp line = opSnpFwdS then s.putLine line bs poison else s
    | none => s
  .next ((s.onPend line (fun q => { q with forwarded := true })).answered1 line me).retryParked

/-- FWD_MISS (R223, R227): the agent does not hold the line. With WB_PENDING the home waits for its WB, unless that has come;
its answer stays awaited until then, so that R234 bounds the wait. -/
def execFwdMiss (p : PartId) (rank line : Nat) (wbPending : Bool) (s : State) : Host.Outcome State Fault Refusal :=
  let me : Requester := .agent p rank
  if !s.awaits line me || s.pendOp line = opSnpInv then .next s else
  let came := (s.dirEnt line).pend.all (fun q => q.owner.isNone)
  .next (if wbPending && !came then s.onPend line (fun q => { q with wbWait := true })
    else ((s.onPend line (fun q => { q with owner := none })).answered1 line me).retryParked)

/-- RECALL_DATA (R223): the owner has returned the line, with data when dirty. -/
def execRecallData (p : PartId) (rank line : Nat) (data : Option (List Byte)) (poison : Bool) (s : State) :
    Host.Outcome State Fault Refusal :=
  let me : Requester := .agent p rank
  if !s.awaits line me || (s.pendOp line ≠ opSnpRecall && s.pendOp line ≠ opSnpClean) then .next s else
  let s := match data with
    | some bs => s.putLine line bs poison
    | none => s
  .next (s.answered1 line me).retryParked

/-- The line's block has been swept since, or the sweep took the line from this owner, so that its data is discarded
(R142). -/
def State.sweptLine (s : State) (who : Requester) (line : Nat) : Bool :=
  s.extents.any (fun e => ((e.2.st == .draining && e.2.swept) || e.2.st == .scrubbing) &&
    e.2.blocks.any (fun b => b.block = paBlock (line * 64))) || decide ((who, line) ∈ s.net.lateData)

/-- CMP to an agent that sent a WB (R223). -/
def State.cmpWb (s : State) (who : Requester) (line : Nat) (st : Status) : State :=
  match who with
  | .buffer _ => s
  | .agent p k => s.answer { who := who, ld := Fin.ofNat 2 (homeHalf (line * 64)), ep := (s.rank p.val k).ep } opCmp st 0 [] false
      none

/-- WB (R141, R142, R221, R223, R236): the owner returns a line; during another transaction of the same owner it is
applied before that completes. One that does not come from the owner is answered and not written. -/
def execWb (who : Requester) (line : Nat) (dirty keep : Bool) (data : List Byte) (poison : Bool) (s : State) :
    Host.Outcome State Fault Refusal :=
  let gone : Bool := match who with | .agent p k => (s.rank p.val k).dead | .buffer _ => false
  let e := s.dirEnt line
  let put := fun (s : State) => if dirty then s.putLine line data poison else s
  if gone then .next (s.cmpWb who line .deadAgent)
  else if e.st = .x && e.ptrs.head? = some who then
    let s := put s
    let s := if keep then s else s.setLine line .u []
    .next ((s.cmpWb who line .ok).settleLine line).retryParked
  else if e.st = .busy && e.pend.any (fun q => q.owner = some who) then
    let s := put s
    let due : Bool := e.pend.any (·.wbWait) && !keep
    let s := if keep then s else s.onPend line (fun q => { q with owner := none, wbWait := false })
    let s := s.cmpWb who line .ok
    .next (if due then s.answered1 line who else s.resume line).retryParked
  else
    let late := s.sweptLine who line
    let s := s.onNet (fun n => { n with lateData := n.lateData.filter (· ≠ (who, line)) })
    .next (s.cmpWb who line (if late then .revoked else .ok))

/-- EVICT (R223): a sharer has dropped its copy. -/
def execEvict (p : PartId) (rank line : Nat) (s : State) : Host.Outcome State Fault Refusal :=
  let me : Requester := .agent p rank
  let e := s.dirEnt line
  if e.st != .s || !decide (me ∈ e.ptrs) then .next s else
  .next (s.onDir line (fun e =>
    let ptrs := e.ptrs.filter (· ≠ me)
    { e with ptrs := ptrs, st := if ptrs.isEmpty && !e.ovf then .u else .s }))

/-- PROBE_ACK (R234): shows that the agent is reachable; only the awaited answer ends the probing. -/
def execProbeAck (_p : PartId) (_rank : Nat) (s : State) : Host.Outcome State Fault Refusal := .next s

/-- SNOOP_PROBE (R234): at boundaries S + 4, S + 9 and S + 14 every agent awaited is probed and its snoop is sent again
with its number. -/
def execSnoopProbe (line : Nat) (s : State) : Host.Outcome State Fault Refusal :=
  match (s.dirEnt line).pend with
  | none => .next s
  | some q =>
    let n := s.now - q.round
    if n ≠ 4 && n ≠ 9 && n ≠ 14 then .next s else
    .next (s.each q.await (fun s a => match a.1 with
      | .buffer _ => s
      | .agent p k =>
        let ep := (s.rank p.val k).ep
        let x := s.takeSnoopSeq p.val ep
        let s := x.2.originate p.val (homeHalf (line * 64))
          { cls := 2, opcode := opSnpProbe, part := p.val, srcEp := s.rnd.endpoint, dstEp := ep, seq := x.1, word2 := s.handleWord p.val line }
        s.snoop line q p.val k a.2))

/-- TOKEN_LAPSE (R226): a line held 4 rounds for its oldest token lets it go. -/
def execTokenLapse (line : Nat) (s : State) : Host.Outcome State Fault Refusal :=
  let e := s.dirEnt line
  match e.tokens, e.heldFrom with
  | t :: _, some r => .next (if e.st != .busy && decide (r + 4 ≤ s.now) then ((s.dropToken line t).settleLine line).retryParked else s)
  | _, _ => .next s

/-! ### Dead agents (R234 to R236) -/

/-- One entry of the dead agent's sweep (R235). -/
def State.sweepDead (s : State) (me : Requester) (line : Nat) : State :=
  let e := s.dirEnt line
  let mine := e.tokens.filter (fun t => t.who = me)
  let s := s.each mine (fun s t => s.dropToken line t)
  let zeros := List.replicate 64 (0 : Byte)
  match e.st with
  | .u => s.settleLine line
  | .s =>
    let s := if e.ovf || !decide (me ∈ e.ptrs) then s else s.onDir line (fun e =>
      let ptrs := e.ptrs.filter (· ≠ me)
      { e with ptrs := ptrs, st := if ptrs.isEmpty then .u else .s })
    s.settleLine line
  | .x =>
    let s := if e.ptrs.head? = some me then (s.writePoisoned (line * 64) zeros).setLine line .u [] else s
    s.settleLine line
  | .busy =>
    match e.pend with
    | none => s
    | some q =>
      let waits := q.await.any (fun a => a.1 = me) || (q.wbWait && q.owner = some me)
      let owned := waits && q.op != opSnpInv
      let s := if owned then s.writePoisoned (line * 64) zeros else s
      let s := if q.req.who = me && fromRequester q.kind then
          (s.refuse q.req .deadAgent).onPend line (fun q => { q with kind := .clean })
        else s
      let s := s.onPend line (fun q => if owned then { q with owner := none, wbWait := false, dead := true } else q)
      if waits then s.answered1 line me else s

/-- An agent is declared dead, in both halves: its pointers go, the lines it owned are poisoned, and what waits for it
completes (R234 to R236). -/
def State.declareDead (s : State) (p rank : Nat) : State :=
  let me := agentOf p rank
  let s := s.onPart p (fun x => { x with ranks := x.ranks.mod {} rank (fun k => { k with dead := true }) })
  let s := s.countOf p 6 1
  s.each (s.dir.map (·.1)) (fun s l => s.sweepDead me l)

/-- Some snoop to the agent has had no answer by boundary S + 20 (R234). -/
def State.snoopOverdue (s : State) (p rank : Nat) : Bool :=
  s.dir.any (fun e => e.2.pend.any (fun q => q.await.any (fun a => a.1 = agentOf p rank) && decide (q.round + 20 ≤ s.now)))

/-- AGENT_DEAD_DECLARE (R234, R235): at S + 20, or where the agent's endpoint has been unreachable for 16 rounds. -/
def execAgentDeadDeclare (p : PartId) (rank : Nat) (s : State) : Host.Outcome State Fault Refusal :=
  let x := s.rank p.val rank
  if x.dead || !x.valid then .next s
  else if s.snoopOverdue p.val rank || decide (16 ≤ s.net.noPath.look 0 x.ep) then .next (s.declareDead p.val rank)
  else .next s

/-! ### Regions (R237 to R248) -/

/-- The region frame of a pool address, if it lies in the region. -/
def State.frameAt (s : State) (r pa : Nat) : Option Nat :=
  match s.extentAt pa with
  | none => none
  | some (e, k) => if e ∈ (s.region r).exts then some (s.regionFrame r e (k * 512 + pa % 0x200000 / 4096)) else none

/-- Lines with a directory entry in the frames of a region that a test picks. -/
def State.regionLines (s : State) (r : Nat) (t : Nat → Bool) : List Nat :=
  (s.dir.map (·.1)).filter (fun l => (s.frameAt r (l * 64)).any t)

/-- Every copy of a line held by agents of partitions other than the region's home is invalidated (R245, R247). -/
def State.trimLine (s : State) (home line : Nat) : State :=
  let e := s.dirEnt line
  let away := fun (w : Requester) => match w with | .agent p _ => p.val != home | .buffer _ => false
  if e.st != .s then s else
  let targets := ((if e.ovf then s.membersOf (line * 64) else e.ptrs)).filter away
  if targets.isEmpty then s else
  let s := s.beginBusy line { kind := .trim home, op := opSnpInv } targets e.ovf
  s.resume line

/-- Step 4 of the boundary after a publish: frames take BORN and DIED, and agents' copies of added frames are recalled
(R243). -/
def State.publishFrames (s : State) (r v index : Nat) (list : List (Nat × Bool)) : State :=
  let s := s.onRegion r (fun x => { x with
    table := list.foldl (fun t e => t.mod {} e.1 (fun (f : Frame) => if e.2 then { f with died := some v } else { f with born := some v })) x.table
    publishing := x.publishing.map (fun e => if e.1 = v then (e.1, index, s.now, e.2.2.2) else e) })
  let added := (list.filter (fun e => !e.2)).map (·.1)
  s.each (s.regionLines r (fun f => decide (f ∈ added))) (fun s l => match (s.dirEnt l).st with
    | .u => s
    | _ => s.access l {} (.publish r))

/-- The result that waits for a publish may leave (R243). -/
def State.publishResult (s : State) (home tag v : Nat) : State :=
  s.onCtl (fun c => { c with results := c.results.map (fun x =>
    if !x.ready && x.tag = tag && x.issuer == .owner (Fin.ofNat 64 home) && x.opcode = 0xD3 then
      { x with ready := true, effect := s.now, results := [v] } else x) })

/-- REGION_PUBLISH_COMPLETE (R243): once no recall of the publish is open, and not in the round of its frame change,
PIN_VERSION, INDEX and PUBLISH_ROUND take the new values and the result may leave. -/
def execRegionPublishComplete (r : Fin 1024) (s : State) : Host.Outcome State Fault Refusal :=
  let x := s.region r.val
  match x.publishing with
  | [] => .next s
  | (v, index, from_, tag) :: rest =>
    let open_ := s.dir.any (fun e => e.2.pend.any (fun q => q.kind == .publish r.val) ||
      e.2.waiting.any (fun w => w.2 == .publish r.val))
    if from_ = 0 || s.now ≤ from_ || open_ then .next s else
    let s := s.onRegion r.val (fun x => { x with pinVersion := v, index := index, publishRound := s.now, publishing := rest })
    .next (s.publishResult x.home tag v)

/-- VERSION_RETIRE (R245, R246): a version below PIN_VERSION with no pins goes; frames live in no remaining version become
unpublished, and other partitions' copies of them are invalidated. -/
def execVersionRetire (r : Fin 1024) (v : Nat) (s : State) : Host.Outcome State Fault Refusal :=
  let x := s.region r.val
  match x.versions.find? (fun y => y.num = v) with
  | none => .next s
  | some y =>
    let asked := s.net.verPins.any (fun q => q.2 = (r.val, v) && s.outstanding q.1)
    if x.pinVersion ≤ v || y.pins ≠ 0 || y.tpins ≠ 0 || asked then .next s else
    let left := (x.versions.filter (fun z => z.num ≠ v)).map (·.num)
    let gone := (x.table.filter (fun e => e.2.born.isSome && !left.any e.2.live)).map (·.1)
    let s := s.onRegion r.val (fun x => { x with
      versions := x.versions.filter (fun z => z.num ≠ v)
      table := gone.foldl (fun t k => t.put {} k {}) x.table })
    .next (s.each (s.regionLines r.val (fun f => decide (f ∈ gone))) (fun s l => s.trimLine x.home l))

/-- Blocks of a region. -/
def State.regionBlocks (s : State) (r : Nat) : List Nat :=
  (s.region r).exts.flatMap (fun e => (s.extent e).blocks.map (·.block))

/-- A stroke of a reader that has pinned borrowed frames of some extents: the first range with one (R246). -/
def Stroke.borrows (k : Stroke) (es : List Nat) : Option Nat :=
  (k.pages.find? (fun x => x.ver ≠ 0 && decide (x.ext ∈ es))).map (·.range)

/-- The strokes of a partition that have pinned borrowed frames of some extents and wait, suspended, moved or in their SQ,
complete with REVOKED, and their pins are released (R247). -/
def State.endBorrowers (s : State) (p : Nat) (es : List Nat) : State :=
  let lost := fun (x : Suspended) => (x.s.borrows es).isSome
  let gone := ((s.part p).suspended ++ (s.part p).moved).filter lost
  let s := s.onPart p (fun x => { x with
    suspended := x.suspended.filter (fun y => !lost y), moved := x.moved.filter (fun y => !lost y) })
  let s := s.each gone (fun s x => s.complete x.s .revoked x.s.used (admitDetail (x.s.borrows es) 0) 0)
  s.each ((s.part p).sqs.map (·.1)) (fun s q => s.each (s.sq p q).waiting (fun s k => match k.1.borrows es with
    | some i => s.failWaiting p q k.1 (k.2 == .placeable) .revoked (admitDetail (some i) 0)
    | none => s))

/-- REGION_DRAIN_LIMIT (R247): at D + 8 the borrowed requests still unfinished complete with REVOKED and their
translation pins are released. -/
def execRegionDrainLimit (r : Fin 1024) (s : State) : Host.Outcome State Fault Refusal :=
  let x := s.region r.val
  match x.destroying with
  | none => .next s
  | some d =>
    if !x.valid || s.now < d + 8 then .next s else
    let bs := s.regionBlocks r.val
    let s := s.cancelBulk (fun o => o.part != x.home && x.exts.any o.uses) .revoked
    let s := s.cancelWork bs (fun p => p != x.home)
    let s := s.each (s.liveParts.filter (· ≠ x.home)) (fun s p => s.endBorrowers p x.exts)
    let lines := (s.dir.map (·.1)).filter (fun l => inBlocks bs (l * 64))
    let away := fun (q : FabReq) => match q.who with | .agent p _ => p.val != x.home | .buffer _ => false
    let s := s.each lines (fun s l =>
      let drop := (s.dirEnt l).waiting.filter (fun w => fromRequester w.2 && away w.1)
      let s := s.each drop (fun s w => s.cancelReq w.1 w.2 .revoked)
      let s := s.onDir l (fun e => { e with waiting := e.waiting.filter (fun w => !(fromRequester w.2 && away w.1)) })
      match (s.dirEnt l).pend with
      | some q => if fromRequester q.kind && away q.req then (s.cancelReq q.req q.kind .revoked).onPend l (fun q => { q with kind := .clean }) else s
      | none => s)
    .next (s.onRegion r.val (fun x => { x with versions := x.versions.map (fun v => { v with tpins := 0 }) }))

/-- REGION_INVALIDATE (R247): from D + 8 other partitions' copies of region lines are invalidated. -/
def execRegionInvalidate (r : Fin 1024) (s : State) : Host.Outcome State Fault Refusal :=
  let x := s.region r.val
  match x.destroying with
  | none => .next s
  | some d =>
    if !x.valid || s.now < d + 8 then .next s
    else .next (s.each (s.regionLines r.val (fun _ => true)) (fun s l => s.trimLine x.home l))

/-- Step 4 of D + 10: the region's record becomes not VALID, its pins are void, and where it was lent its blocks are
DIRTY and scrubbed as granted blocks (R145, R247). -/
def State.endRegion (s : State) (r : Nat) : State :=
  let x := s.region r
  let s := { s with parts := s.parts.mapAll {} (fun _ (p : Partition) =>
    { p with pins := p.pins.mapAll {} (fun _ (y : RegionPin) => if y.held && y.region == r then
        { y with held := false, gen := (y.gen + 1) % 1024 } else y) }) }
  let s := s.each x.exts (fun s e => s.onExtent e (fun y => { y with region := none }))
  let s := if !x.lent then s else s.each x.exts (fun s e =>
    let y := s.extent e
    if y.st != .active then s else
    let bs := (y.blocks.filter (fun b => !b.lost)).map (·.block)
    let s := s.onPool y.half (fun q => bs.foldl (fun q b =>
      if q.blockState b == .held then { q.setBlock b .dirty with granted := q.granted ++ [b] } else q) q)
    s.onExtent e (fun y => { y with
      blocks := y.blocks.map (fun b => if b.lost then b else { b with cert := false })
      certified := 0, firstCert := none, lastCert := 0, initialBlocks := 0 }))
  s.onRegion r (fun _ => {})

end Sys2Proof.Machine
end

