-- ==== Sys2Proof/Machine/Crypto.lean ====
section
/-! DEFINITION. SHAKE256 and AES-256-GCM, by which the wrapped key of KEY.LOAD is opened (R473, R478). Their algorithms
are those of FIPS 202, FIPS 197 and NIST SP 800-38D, which the spec names. -/
namespace Sys2Proof.Machine

/-- SHAKE256 of bytes, n of at most 136 output bytes (R470, R473). -/
def shake256 (bs : List Byte) (n : Nat) : List Byte :=
  let k := bs.length / 136 + 1
  let pad := k * 136 - bs.length
  let tail : List Byte := if pad = 1 then [0x9F] else 0x1F :: (List.replicate (pad - 2) 0 ++ [0x80])
  (wordBytes (keccakAbsorb k (List.replicate 25 0) (bs ++ tail))).take n

/-- The bytes of an ASCII string. -/
def ascii (t : String) : List Byte := t.toList.map (fun c => BitVec.ofNat 8 c.toNat)

/-! ### AES-256 -/

/-- Doubling in GF(2^8). -/
def gfDouble (a : Byte) : Byte := (a <<< 1) ^^^ (if a.getLsbD 7 then 0x1B else 0)

/-- Product in GF(2^8). -/
def aesMul (a b : Byte) : Byte :=
  ((List.range 8).foldl (fun (x : Byte × Byte) i => (if b.getLsbD i then x.1 ^^^ x.2 else x.1, gfDouble x.2)) (0, a)).1

/-- The inverse in GF(2^8), 0 for 0: the 254th power. -/
def aesInv (a : Byte) : Byte := ((List.range 7).foldl (fun (x : Byte × Byte) _ => (aesMul x.1 (aesMul x.2 x.2), aesMul x.2 x.2)) (1, a)).1

/-- The AES substitution of a byte. -/
def aesSub (a : Byte) : Byte :=
  let i := aesInv a
  i ^^^ i.rotateLeft 1 ^^^ i.rotateLeft 2 ^^^ i.rotateLeft 3 ^^^ i.rotateLeft 4 ^^^ 0x63

/-- Word n of the key schedule from the words before it, newest first. -/
def aesNextWord (n : Nat) (ws : List (List Byte)) : List Byte :=
  let last := ws.headD []
  let t : List Byte :=
    if n % 8 = 0 then
      let r := (last.drop 1 ++ last.take 1).map aesSub
      xorBytes r [((List.range (n / 8 - 1)).foldl (fun x _ => gfDouble x) (1 : Byte)), 0, 0, 0]
    else if n % 8 = 4 then last.map aesSub else last
  xorBytes (ws.getD 7 []) t

/-- The fifteen round keys of a 32-byte key. -/
def aesKeys (key : List Byte) : List (List Byte) :=
  let start := ((List.range 8).map (fun i => (key.drop (4 * i)).take 4)).reverse
  let ws := ((nums 8 52).foldl (fun ws n => aesNextWord n ws :: ws) start).reverse
  (List.range 15).map (fun r => (List.range 4).flatMap (fun i => ws.getD (4 * r + i) []))

/-- Rotates the rows of the state. -/
def aesShift (st : List Byte) : List Byte := (List.range 16).map (fun i => st.getD ((i + 4 * (i % 4)) % 16) 0)

/-- Mixes the columns of the state. -/
def aesMix (st : List Byte) : List Byte :=
  (List.range 16).map (fun i =>
    let a := fun (k : Nat) => st.getD (i / 4 * 4 + (i + k) % 4) 0
    aesMul 2 (a 0) ^^^ aesMul 3 (a 1) ^^^ a 2 ^^^ a 3)

/-- AES-256 of one block. -/
def aesBlock (keys : List (List Byte)) (b : List Byte) : List Byte :=
  let st := (nums 1 13).foldl (fun st r => xorBytes (aesMix (aesShift (st.map aesSub))) (keys.getD r []))
    (xorBytes b (keys.getD 0 []))
  xorBytes (aesShift (st.map aesSub)) (keys.getD 14 [])

/-! ### GCM -/

/-- The number of big-endian bytes. -/
def ofBytesBe (bs : List Byte) : Nat := bs.foldl (fun n b => n * 256 + b.toNat) 0

/-- Big-endian bytes of a number. -/
def toBytesBe (n v : Nat) : List Byte := (toBytes n v).reverse

/-- Product in the field of GHASH. -/
def ghashMul (x y : BitVec 128) : BitVec 128 :=
  ((List.range 128).foldl (fun (p : BitVec 128 × BitVec 128) i =>
    (if x.getLsbD (127 - i) then p.1 ^^^ p.2 else p.1,
     (p.2 >>> 1) ^^^ (if p.2.getLsbD 0 then (0xE1 : BitVec 128) <<< 120 else 0))) (0, y)).1

/-- GHASH of whole blocks under a hash key. -/
def ghash (h : BitVec 128) : Nat → BitVec 128 → List Byte → BitVec 128
  | 0, y, _ => y
  | n + 1, y, bs => ghash h n (ghashMul (y ^^^ BitVec.ofNat 128 (ofBytesBe (bs.take 16))) h) (bs.drop 16)

/-- Zeros up to a multiple of 16 bytes. -/
def pad16 (bs : List Byte) : List Byte := bs ++ List.replicate ((16 - bs.length % 16) % 16) 0

/-- Opens AES-256-GCM under a 12-byte nonce: the plaintext, if the tag verifies. -/
def gcmOpen (key nonce aad ct tag : List Byte) : Option (List Byte) :=
  let keys := aesKeys key
  let h := BitVec.ofNat 128 (ofBytesBe (aesBlock keys (List.replicate 16 0)))
  let ctr := fun (i : Nat) => aesBlock keys (nonce ++ toBytesBe 4 i)
  let data := pad16 aad ++ pad16 ct ++ toBytesBe 8 (8 * aad.length) ++ toBytesBe 8 (8 * ct.length)
  let y := ghash h (data.length / 16) 0 data
  let t := xorBytes (toBytesBe 16 y.toNat) (ctr 1)
  if t = tag then
    some (xorBytes ct ((List.range (ct.length / 16 + 1)).flatMap (fun i => ctr (i + 2))))
  else none

/-- The traffic secret of an epoch under a session secret and the consent flags (R473). -/
def trafficSecret (ss : List U64) (epoch : Nat) (dbg prof : Bool) : List Byte :=
  shake256 (wordBytes ss ++ ascii "scegor-ts" ++ toBytes 4 epoch ++ toBytes 1 (b2n dbg + 2 * b2n prof)) 32

/-- Opens the wrapped key of KEY.LOAD: words 2 to 9 and the slot (R478). -/
def unwrapKey (ts : List Byte) (ws : List U64) (slot : Nat) : Option (List Byte) :=
  let w := fun (i : Nat) => ws.getD (i - 2) 0
  gcmOpen (shake256 (ts ++ ascii "scegor-wrap") 32) (toBytes 8 (w 2).toNat ++ [BitVec.ofNat 8 slot, 0, 0, 0])
    (wordBytes [w 2, w 9]) (wordBytes [w 3, w 4, w 5, w 6]) (wordBytes [w 7, w 8])

end Sys2Proof.Machine
end

