-- ==== Sys2Proof/Machine/Routes.lean ====
section
/-! DEFINITION. The route table that a stake computes from the flooded link states (R395, R397, R399) and the trees of
multicast groups (R405). -/
namespace Sys2Proof.Machine

/-- The flooded state: link states by origin. -/
abbrev Flooded := SMap LinkStateMsg

/-- What this device floods: its neighbours and agents on UP links, each as link and endpoint (R399). -/
def State.myLinkState (s : State) : LinkStateMsg :=
  let up := fun (cls : Nat → Bool) => ((List.range 48).filter (fun l => (s.link l).st == .up && cls (s.link l).peerClass)).map
    (fun l => (l, (s.link l).peerEp % 2 ^ 20))
  { origin := s.rnd.endpoint, neighbours := up (· != 1), agents := up (· == 1) }

/-- The flooded state with this device's own part as it stands. -/
def State.flooded (s : State) : Flooded := s.net.db.put {} s.rnd.endpoint s.myLinkState

/-- Links between S48s, from an S48: its link and the neighbour. -/
def Flooded.links (d : Flooded) (n : Nat) : List (Nat × Nat) := (SMap.look {} d n).neighbours

/-- The S48s that have flooded. -/
def Flooded.nodes (d : Flooded) : List Nat := List.map (·.1) d

/-- One step of a shortest-path search: each S48 takes the least of what its admitted links lead to, plus 1. Distances
are held plus 1, so that 0 stands for none. -/
def Flooded.relax (d : Flooded) (ok : Nat → Nat → Bool) (m : SMap Nat) : SMap Nat :=
  d.nodes.foldl (fun m n =>
    let reach := ((d.links n).filter (fun e => ok n e.2)).map (fun e => SMap.look 0 m e.2)
    let best := reach.foldl (fun a x => if x = 0 then a else if a = 0 then x + 1 else min a (x + 1)) (SMap.look 0 m n)
    SMap.put 0 m n best) m

/-- Distances to the S48s that a map gives, over admitted links. -/
def Flooded.dist (d : Flooded) (ok : Nat → Nat → Bool) (m : SMap Nat) : SMap Nat :=
  (List.range d.nodes.length).foldl (fun m _ => d.relax ok m) m

/-- Where an endpoint is: an S48 at distance 0, or the S48s with the agent on a link at distance 1. -/
def Flooded.start (d : Flooded) (ep : Nat) : SMap Nat :=
  d.nodes.foldl (fun m n =>
    if n = ep then SMap.put 0 m n 1
    else if (SMap.look {} d n).agents.any (fun a => a.2 = ep) then SMap.put 0 m n 2 else m) []

/-- Hops of every S48 from the root, plus 1. -/
def Flooded.rootDist (d : Flooded) (root : Nat) : SMap Nat := d.dist (fun _ _ => true) (SMap.put 0 [] root 1)

/-- The link from a to b is up: a lies farther from the root, or as far with the higher endpoint (R397). -/
def upFrom (rd : SMap Nat) (a b : Nat) : Bool :=
  let x := SMap.look 0 rd a
  let y := SMap.look 0 rd b
  decide (y < x) || (x == y && decide (b < a))

/-- The admitted link of an S48 that leads on over the least distance, ties to the lowest link. -/
def Flooded.bestLink (d : Flooded) (n : Nat) (cost : Nat → Nat) : Option Nat :=
  ((d.links n).foldl (fun (b : Option (Nat × Nat)) e =>
    let c := cost e.2
    if c = 0 then b else match b with
      | none => some (e.1, c)
      | some x => if c < x.2 || (c = x.2 && e.1 < x.1) then some (e.1, c) else b) none).map (·.1)

/-- The route table entry of an S48 for an endpoint: the minimal links, and escape links over which no up link follows a
down link (R395, R397). -/
def Flooded.route (d : Flooded) (rd : SMap Nat) (n ep : Nat) : Route :=
  let at_ := d.start ep
  let min := d.dist (fun _ _ => true) at_
  let down := d.dist (fun a b => !upFrom rd a b) at_
  let legal := d.dist (upFrom rd) down
  let here := ((SMap.look {} d n).agents.filter (fun a => a.2 = ep)).map (·.1)
  if n = ep then { isLocal := true } else
  let mine := (d.links n).filter (fun e => SMap.look 0 min e.2 ≠ 0 && SMap.look 0 min e.2 + 1 = SMap.look 0 min n)
  { min := (here ++ mine.map (·.1)).foldl (fun (m : BitVec 48) l => m ||| (1 <<< l)) 0
    escU := match here with
      | l :: _ => some l
      | [] => d.bestLink n (fun m => if upFrom rd n m then SMap.look 0 legal m else SMap.look 0 down m)
    escD := match here with
      | l :: _ => some l
      | [] => d.bestLink n (fun m => if upFrom rd n m then 0 else SMap.look 0 down m) }

/-- Endpoints that the flooded state names. -/
def Flooded.endpoints (d : Flooded) : List Nat :=
  d.foldl (fun l e => (e.2.agents.map (·.2)).foldl setAdd (setAdd l e.1)) []

/-- The whole table of this device (R399). -/
def State.computeRoutes (s : State) (root : Nat) : SMap Route :=
  let d := s.flooded
  let rd := d.rootDist root
  d.endpoints.foldl (fun m ep => SMap.put {} m ep (d.route rd s.rnd.endpoint ep)) []

/-- Links to S48s that are down from this device (R397). -/
def State.computeDown (s : State) (root : Nat) : BitVec 48 :=
  let d := s.flooded
  let rd := d.rootDist root
  (d.links s.rnd.endpoint).foldl (fun (m : BitVec 48) e => if upFrom rd s.rnd.endpoint e.2 then m else m ||| (1 <<< e.1)) 0

/-- The S48 with the lowest endpoint that the flooded state names (R397). -/
def State.lowestEp (s : State) : Nat := s.flooded.nodes.headD s.rnd.endpoint

/-! ### Multicast trees (R405) -/

/-- The escape route from an S48 to an endpoint: each S48 on it with its output link; none where it breaks off. -/
def Flooded.escPath (d : Flooded) (rd : SMap Nat) (ep : Nat) : Nat → Nat → Bool → Option (List (Nat × Nat))
  | 0, _, _ => none
  | fuel + 1, n, down =>
    if n = ep then some [] else
    let r := d.route rd n ep
    match (if down then r.escD else r.escU) with
    | none => none
    | some l =>
      match (d.links n).find? (fun e => e.1 = l) with
      | none => some [(n, l)]
      | some e => (d.escPath rd ep fuel e.2 (down || !upFrom rd n e.2)).map (fun rest => (n, l) :: rest)

/-- Ranks that a group's mask selects and the rank table holds as valid (R404). -/
def State.groupRanks (s : State) (p : Nat) (g : Group) : List Nat :=
  (List.range 256).filterMap (fun i =>
    if g.mask.getLsbD i && ((s.part p).ranks.look {} (g.base + i)).valid then some (g.base + i) else none)

/-- The partition whose range holds a group (R304). -/
def State.groupPart (s : State) (g : Nat) : Option Nat :=
  (s.parts.find? (fun x => x.2.live && decide (x.2.grpFirst ≤ g) && decide (g < x.2.grpFirst + x.2.grpCount))).map (·.1)

/-- The bytes of an MC_INSTALL packet: origin, group and local delivery, and the output links. -/
def mcBytes (origin g : Nat) (outs : List Nat) (here : Bool) : List Byte :=
  toBytes 8 (origin + g * 2 ^ 24 + b2n here * 2 ^ 36) ++
    toBytes 8 (outs.foldl (fun m l => m ||| 2 ^ l) 0) ++ List.replicate 48 0

/-- The members' endpoints of a group, each once. -/
def State.groupEps (s : State) (p : Nat) (g : Group) : List Nat :=
  (s.groupRanks p g).foldl (fun l r => setAdd l (s.rank p r).ep) []

/-- Builds the tree of a group: the union of the escape routes to its members. Its own router takes an entry, every
other one on the tree is sent one; without a free entry, or with a member that no route reaches, the group is
unicast-only (R405). -/
def State.buildTree (s : State) (g : Nat) : State :=
  let x := s.group g
  let drop := s.net.mc.filter (fun e => !(e.1 = s.rnd.endpoint && e.2.1 = g))
  let s := s.onNet (fun n => { n with mc := drop })
  match s.groupPart g with
  | none => s
  | some p =>
    if !x.valid then s else
    let d := s.flooded
    let rd := d.rootDist s.net.root
    let me := s.rnd.endpoint
    let paths := (s.groupEps p x).map (fun ep => (ep, d.escPath rd ep (d.length + 1) me false))
    let hops := paths.flatMap (fun q => q.2.getD [])
    let bad := paths.any (fun q => q.2.isNone) || decide (16384 ≤ s.net.mc.length)
    let s := { s with groups := s.groups.mod {} g (fun y => { y with unicastOnly := bad }) }
    if bad then s else
    let nodes := (hops.map (·.1)).foldl setAdd []
    let outsOf := fun n => ((hops.filter (fun h => h.1 = n)).map (·.2)).foldl setAdd []
    let ends := fun n => paths.any (fun q => q.1 = n)
    let s := s.onNet (fun n => { n with mc := n.mc ++ [(me, g, (outsOf me).map (Fin.ofNat 48), ends me)] })
    s.each (nodes.filter (· ≠ me)) (fun s n => s.launchFab
      { cls := 3, opcode := 0xC6, dstEp := n, units := 1, payload := mcBytes me g (outsOf n) (ends n) })

/-- The effect of a new table: it is installed, and every group's tree is built again under it (R399, R405). -/
def State.installRoutes (s : State) (root : Nat) : State :=
  let s := s.onNet (fun n => { n with
    routes := s.computeRoutes root, down := s.computeDown root, root := root, stale := false })
  (s.each (s.groups.map (·.1)) State.buildTree).retryEgress

end Sys2Proof.Machine
end

