-- ==== Sys2Proof/Machine/Effects.lean ====
section
/-! DEFINITION. What each control change does at step 4 of its effect boundary (R36, R55, R303). -/
namespace Sys2Proof.Machine

/-! ### Parameters of traffic control (R307, R420, R421, R423) -/

/-- Unlimited (R421). -/
def unlimited : Nat := 0xFFFFFFFF

/-- A link die's part of a parameter: half, LD0 with the odd byte, or the whole where the other die has failed (R420). -/
def State.share (s : State) (ld v : Nat) : Nat :=
  let other := if ld = 0 then s.net.ld1 else s.net.ld0
  if !other then v else if ld = 0 then (v + 1) / 2 else v / 2

/-- A rate, absent when it is unlimited (R421). -/
def State.shareRate (s : State) (ld v : Nat) : Option Nat := if v = unlimited then none else some (s.share ld v)

/-- The effect of SHAPE.SET (R420, R423). -/
def State.setShaper (s : State) (p rate burst overhead : Nat) : State :=
  s.each [0, 1] (fun s ld => s.onShaper p ld (fun x =>
    { x with rate := s.shareRate ld rate, burst := s.share ld burst, overhead := overhead }))

/-- The effect of POLICE.SET (R420, R423). -/
def State.setPolicer (s : State) (p cir pir cbs pbs : Nat) (aware : Bool) : State :=
  s.each [0, 1] (fun s ld => s.onPart p (fun y => { y with policers := y.policers.mod {} ld (fun x =>
    { x with cir := s.shareRate ld cir, pir := s.shareRate ld pir, cbs := s.share ld cbs, pbs := s.share ld pbs,
             aware := aware }) }))

/-- The effect of RANK.BUDGET on a range of ranks (R420, R421, R431). -/
def State.setBudget (s : State) (p lo hi bytes : Nat) : State :=
  let old := (s.part p).budgets
  let new := (nums (2 * lo) (2 * (hi + 1 - lo))).map (fun k =>
    (k, ({ bytes := s.share (k % 2) bytes, rem := (old.look {} k).rem } : Budget)))
  let below := List.filter (fun (e : Nat × Budget) => decide (e.1 < 2 * lo)) old
  let above := List.filter (fun (e : Nat × Budget) => decide (2 * hi + 1 < e.1)) old
  let mid := if bytes = unlimited then [] else new
  s.onPart p (fun y => { y with budgets := below ++ mid ++ above })

/-! ### Attestation epochs (R306, R472 to R475) -/

/-- Opens the partition's next epoch, once at a boundary: with a session's keys its first generation follows the last,
which stays acceptable for 4,096 rounds (R473, R475). -/
def State.openEpoch (s : State) (p : Nat) : State :=
  if (s.part p).epochRound = some s.now then s else
  s.onPart p (fun x =>
    let x := { x with epoch := (x.epoch + 1) % 2 ^ 32, epochRound := some s.now }
    if x.ss.isNone then x else
    match x.gen with
    | none => { x with gen := some 0, prevGen := false, ctrHigh := false }
    | some g => { x with gen := some ((g + 1) % 2 ^ 32), prevGen := true, dropAt := some (s.now + 4096), ctrHigh := false })

/-- A SESSION packet to an agent: its header unit and body, with the next SEQ of the flow (R387, R416, R469). -/
def State.sendSession (s : State) (p ep msg frag frags sid : Nat) (body : List Byte) : State :=
  let pad := (64 - body.length % 64) % 64
  let data := toBytes 8 (msg + frag * 2 ^ 8 + frags * 2 ^ 16 + sid * 2 ^ 32) ++ List.replicate 56 0 ++ body ++ List.replicate pad 0
  let n := s.takeSnoopSeq p (2 ^ 25 + ep)
  n.2.launchFab { cls := 3, opcode := 0xC2, part := p, dstEp := ep, seq := n.1, units := data.length / 64, payload := data }

/-- A completed session opens its epoch, and DONE with OK leaves (R472). -/
def State.openSession (s : State) (p : Nat) : State :=
  match (s.part p).session with
  | none => s
  | some y =>
    match y.ss with
    | none => s
    | some k =>
      let s := s.onPart p (fun x => { x with ss := some k, sessionDigest := y.th, session := none })
      (s.openEpoch p).sendSession p y.ep 4 0 1 y.sid (toBytes 8 Status.ok.code)

/-! ### Partitions (R304, R305, R476, R534) -/

/-- Releases what the strokes of a partition that are not placed hold (R305). -/
def State.dropStrokes (s : State) (p : Nat) : State :=
  let x := s.part p
  let waiting := x.sqs.flatMap (fun q => (q.2.waiting.filter (fun k => k.2 == .placeable)).map (·.1))
  let held := waiting ++ x.suspended.map (·.s) ++ x.moved.map (·.s)
  s.each held (fun s k => (s.unpinAll k.pages).cachePin k (-1))

/-- Releases a partition's pins on regions and its place among their readers (R248). -/
def State.dropReader (s : State) (p : Nat) : State :=
  let pins := ((s.part p).pins.map (·.2)).filter (·.held)
  let s := s.each pins (fun s y => s.onRegion y.region (fun r => { r with
    versions := r.versions.map (fun v => if v.num = y.version then { v with pins := v.pins - 1 } else v) }))
  { s with regions := s.regions.mapAll {} (fun _ (r : Region) => { r with readers := r.readers &&& ~~~((1 : U64) <<< p) }) }

/-- The agents of a partition that no longer exists leave the directory entries of other partitions' lines (R305). -/
def State.dropAgents (s : State) (p : Nat) : State :=
  let mine := fun (w : Requester) => match w with | .agent q _ => q.val == p | .buffer _ => false
  s.each s.dir (fun s e =>
    let own := (s.extentAt (e.1 * 64)).any (fun x => (s.extent x.1).holder = p)
    if own then s else
    let seen := (e.2.ptrs ++ (match e.2.pend with | some q => q.await.map (·.1) | none => [])).filter mine
    s.each seen (fun s w => s.sweepDead w e.1))

/-- The effect of PART.DESTROY (R305, R248, R476, R534). -/
def State.destroyPart (s : State) (p : Nat) : State :=
  let mine := (List.filter (fun (e : Nat × Extent) => e.2.st == .active && e.2.holder == p) s.extents).map (·.1)
  let s := s.each mine (fun s e => s.drainExtent e true)
  let x := s.part p
  let s := ((s.dropStrokes p).dropReader p).dropAgents p
  let inGroups := fun g => decide (x.grpFirst ≤ g) && decide (g < x.grpFirst + x.grpCount)
  let s := s.dropCached (fun c => c.part = p)
  let s : State := { s with
    windows := List.filter (fun (e : Nat × Window) => e.2.part ≠ p) s.windows
    groups := s.groups.dropIf inGroups }
  let s := s.onNet (fun n => { n with
    mc := n.mc.filter (fun e => !(e.1 = s.rnd.endpoint && inGroups e.2.1))
    rankCache := n.rankCache.filter (fun e => e.2.1 ≠ p)
    missQ := n.missQ.filter (fun e => e.2.1 ≠ p)
    ni := n.ni.filter (fun q => q.part ≠ p) })
  let me : Issuer := .owner (Fin.ofNat 64 p)
  let s := s.onCtl (fun c => { c with
    ownerQ := c.ownerQ.put [] p []
    background := c.background.filter (fun b => b.issuer ≠ me)
    results := c.results.filter (fun r => r.issuer ≠ me) })
  s.onPart p (fun _ => { destroyed := some s.now })

/-! ### Extents (R137, R138, R152, R315) -/

/-- A GRANT notice on the partition's stake mailbox channel; a full channel drops and counts it (R315, R460). -/
def State.grantNotice (s : State) (p e h n : Nat) : State :=
  let words := [BitVec.ofNat 64 (1 + e * 2 ^ 8 + h * 2 ^ 22), BitVec.ofNat 64 n, BitVec.ofNat 64 (s.extent e).grantSeq,
    BitVec.ofNat 64 s.now]
  match s.mbxPut idStake p 0 4 words with
  | (.ok, s) => s
  | (_, s) => s.countOf p 8 1

/-- The result that waits for a grant takes the number of CLEAN blocks (R299). -/
def State.grantResult (s : State) (e : Nat) : State :=
  s.onCtl (fun c => { c with results := c.results.map (fun r =>
    if !r.ready && r.opcode = 0xC3 && r.effect = s.now && r.results.head? = some e then
      { r with results := [e, (s.extent e).certCount] } else r) })

/-- The effect of EXT.RETIRE (R152). -/
def State.retireBlock (s : State) (b : Nat) : State :=
  let s := s.persistChange
  let h := blockHalf b
  let q := s.pool h
  let granted := q.isGranted b
  let gone := fun (q : BlockPool) => { q.setBlock b .retired with
    released := q.released.filter (· ≠ b), certNow := q.certNow.filter (·.1 ≠ b), cur := q.cur.filter (fun c => c.block ≠ b) }
  match q.blockState b with
  | .held => s.onPool h (fun q => { q with marked := addOnce q.marked b })
  | .dirty => if granted then s.onPool h (fun q => { q with marked := addOnce q.marked b })
    else (s.onPool h gone).scrubDone b false
  | .clean => s.onPool h gone
  | _ => s

/-! ### Counters (R537, R538, R543, R547) -/

/-- The effect of CNT.SELECT SUB 0 on an owner's counter: it is cleared; a chain set or cleared clears its partner
(R537, R538). -/
def Partition.select (x : Partition) (n event : Nat) (level chain : Bool) : Partition :=
  let was := x.chained n
  let x := { x with
    counters := x.counters.put 0 n 0
    sel := x.sel.put 0 n (event + b2n level * 2048 + b2n chain * 4096 + 1) }
  if was || chain then { x with counters := x.counters.put 0 (n + 1) 0, sel := x.sel.put 0 (n + 1) 0 } else x

/-- The effect of CNT.SELECT SUB 0 on an operator's counter (R537, R538). -/
def CntSt.select (x : CntSt) (n event : Nat) (chain : Bool) (f3 f4 f5 : Nat) : CntSt :=
  let none_ : Nat × Bool × Nat × Nat × Nat := (0, false, 0, 0, 0)
  let was := (x.sel.look none_ n).2.1
  let x := { x with prog := x.prog.put 0 n 0, sel := x.sel.put none_ n (event + 1, chain, f3, f4, f5) }
  if was || chain then { x with prog := x.prog.put 0 (n + 1) 0, sel := x.sel.put none_ (n + 1) none_ } else x

/-- The effect of CNT.SELECT on a snapshot ring (0x7FE) or a sampler (0x7FF), whose records are then numbered from 0
(R544, R547). -/
def State.setRing (s : State) (p : Option Nat) (n pva log2 k : Nat) : State :=
  match p with
  | none => s.onCnt (fun c => { c with sampler := if k = 0 then none else some k, sampleSeq := 0 })
  | some p => s.onPart p (fun x =>
    if n = 0x7FE then { x with snapRing := some (pva, log2) }
    else { x with sampler := if k = 0 then none else some (k, pva, log2), sampleSeq := 0 })

/-! ### Regions (R240, R241, R247) -/

/-- The pin record of a region version (R241). -/
def State.pinRecord (s : State) (r handle v index : Nat) : List Byte :=
  let es := (s.region r).exts
  let half := fun i => match es[i]? with
    | some e => e + (s.extent e).blocks.length % 65536 * 65536
    | none => 0
  toBytes 8 (v + handle * 2 ^ 32) ++ toBytes 8 index ++
    (List.range 4).flatMap (fun k => toBytes 8 (half (2 * k) + half (2 * k + 1) * 2 ^ 32)) ++ List.replicate 16 0

/-- The effect of REGION.PIN (R238, R241). -/
def State.pinRegion (s : State) (r p slot pva : Nat) : State :=
  let x := s.region r
  let v := x.pinVersion
  let gen := ((s.part p).pins.look {} slot).gen
  let s := s.onRegion r (fun x => { x with
    lent := x.lent || x.home != p
    versions := x.versions.map (fun y => if y.num = v then { y with pins := y.pins + 1 } else y) })
  let s := s.onPart p (fun y => { y with pins := y.pins.mod {} slot (fun k => { k with region := r, version := v, held := true }) })
  (s.writePva p pva (s.pinRecord r (slot + gen * 64) v x.index)).getD s

/-- The effect of REGION.UNPIN (R241). -/
def State.unpinRegion (s : State) (p slot : Nat) : State :=
  let k := (s.part p).pins.look {} slot
  if !k.held then s else
  let s := s.onRegion k.region (fun x => { x with
    versions := x.versions.map (fun y => if y.num = k.version then { y with pins := y.pins - 1 } else y) })
  let s := s.onPart p (fun y => { y with pins := y.pins.mod {} slot (fun k => { k with held := false, gen := (k.gen + 1) % 1024 }) })
  let es := (s.region k.region).exts
  s.dropCached (fun c => c.part = p && decide (c.ext ∈ es))

/-! ### Programs, power, retirement and the host's extents -/

/-- Drops unpinned images of a program from the program caches (R338). -/
def State.dropImages (s : State) (p handle : Nat) : State :=
  { s with dies := s.dies.mapAll {} (fun _ (d : DieSt) =>
      { d with cache := d.cache.filter (fun c => !(c.part = p && c.handle = handle && c.pins = 0)) }) }

/-- The effect of PWR.CAP SUB 0 (R308, R518). -/
def State.setCap (s : State) (watts asked : Nat) : State :=
  let s := s.onPower (fun x => { x with cap := watts })
  if asked < 320 then (s.onPower (fun x => x.setCond 0)).event evCapInfeasible asked 320
  else s.onPower (fun x => x.clearCond 0)

/-- The effect of MEM.RETIRE PAGE: the page's copy is due (R203). -/
def State.retirePage (s : State) (pa : Nat) : State :=
  let h := homeHalf pa
  let x := s.half h
  let n := x.pages.length + x.copies.length
  let s := s.persistChange.onHalf h (fun y => { y with copies := y.copies ++ [{ page := pa, repl := n }] })
  s.logErr h { type := 0x0C, source := 9, pa := pa, loc := s.lineWord pa }

/-- The effect of MEM.RETIRE BANK: its units are to be moved (R204). -/
def State.retireBank (s : State) (b : BankId) : State :=
  let h := bankHalf b
  let s := s.persistChange.onHalf h (fun y => { y with moving := some (b, 0) })
  s.logErr h { type := 0x0D, source := 9, loc := BitVec.ofNat 64 (bankWord b) }

/-- A host extent takes a state; the change is an event of the Dynamic Capacity log (R439, R440, R450). -/
def State.setHostExt (s : State) (i : Nat) (f : HostExt → HostExt) : State :=
  let s := s.onHost (fun h => { h with exts := h.exts.mod {} i f })
  s.event evDc i (s.host.exts.look {} i).st

/-! ### The changes -/

/-- What a staged change does at step 4 of its effect boundary, with the counter at that boundary. -/
def State.applyChange (s : State) : Change → State
  | .partCreate p x =>
    let t := s.takeFree
    t.2.onPart p (fun _ => { x with live := true, created := s.now, handleSecret := t.1 })
  | .partDestroy p => s.destroyPart p
  | .affinity p mask share => s.onPart p (fun x => { x with affinity := mask, share := share })
  | .consent p dbg prof => (s.onPart p (fun x => { x with dbg := dbg, prof := prof })).openEpoch p
  | .extGrant e h n p => ((s.grantExtent e h n p).grantNotice p e h n).grantResult e
  | .extRevoke e force => s.drainExtent e force
  | .extRetire b => s.retireBlock b
  | .winSet w x => { s with windows := s.windows.put {} w x }
  | .rankSet p r x =>
    let dies := decide ((s.rank p r).dead = false) && x.dead
    let s := s.onPart p (fun y => { y with ranks := y.ranks.put {} r x })
    let s := s.onNet (fun n => { n with rankCache := n.rankCache.filter (fun e => !(e.2.1 = p && e.2.2 = r)) })
    if dies then s.declareDead p r else s
  | .groupSet g x => ({ s with groups := s.groups.put {} g x } : State).buildTree g
  | .keyLoad p k x => s.onPart p (fun y => { y with peerKeys := y.peerKeys.put {} k x })
  | .shape p rate burst overhead => s.setShaper p rate burst overhead
  | .police p cir pir cbs pbs aware => s.setPolicer p cir pir cbs pbs aware
  | .budget p lo hi bytes => s.setBudget p lo hi bytes
  | .cap watts asked => s.setCap watts asked
  | .sagCap watts => s.onPower (fun x => { x with sagCap := watts })
  | .sagWarn half => s.onPower (fun x => { x with sagWarn := half })
  | .mode learned fixed boost =>
    s.onPower (fun x => { x with learned := learned, fixed := fixed, boostEn := boost, modeChanged := true })
  | .pref p phase op => s.onPart p (fun x => { x with pref := x.pref.put 0 phase (if op = 15 then 0 else op + 1) })
  | .select (some p) n event level chain _ _ _ => s.onPart p (fun x => x.select n event level chain)
  | .select none n event _ chain f3 f4 f5 => s.onCnt (fun c => c.select n event chain f3 f4 f5)
  | .ring p n pva log2 k => s.setRing p n pva log2 k
  | .userRead p allow => s.onPart p (fun x => { x with userRead := allow })
  | .snap (some p) b => s.onPart p (fun x => { x with snaps := addOnce x.snaps b })
  | .snap none b => s.onCnt (fun c => { c with snaps := addOnce c.snaps b })
  | .regionCreate r x =>
    let s := s.onRegion r (fun _ => { x with publishRound := s.now })
    s.each x.exts (fun s e => s.onExtent e (fun y => { y with region := some r }))
  | .regionAccept r p => s.onRegion r (fun x => { x with readers := x.readers ||| (1 <<< p) })
  | .regionDestroy r => s.destroyRegion r
  | .regionPin r p slot pva => s.pinRegion r p slot pva
  | .regionUnpin p slot => s.unpinRegion p slot
  | .regionPublish r v index list => s.publishFrames r v index list
  | .bind ch tx rx => s.onHost (fun h => { h with bindings := h.bindings.put 0 ch (tx * 256 + rx + 1) })
  | .lock => s.onCtl (fun c => { c with locked := true })
  | .priority v => s.onRnd (fun r => { r with prio := v })
  | .progLoad p k x => s.onPart p (fun y => { y with progs := y.progs.put {} k x })
  | .progUnload p k =>
    let gen := ((s.part p).progs.look {} k).gen
    (s.onPart p (fun y => { y with progs := y.progs.put {} k { gen := (gen + 1) % 256 } })).dropImages p (k + gen * 256)
  | .sync p pva len => s.dropCached (fun c => c.part = p && decide (c.pva < pva + len) && decide (pva < c.pva + c.size))
  | .target port units => { s with targets := s.targets.put 0 port (units + 1) }
  | .rebuildShare h share => s.onHalf h (fun x => { x with share := share })
  | .retirePage pa => s.retirePage pa
  | .retireBank b => s.retireBank b
  | .retireStack st => s.stackDown st
  | .epochOpen p => s.openSession p
  | .hostExtent i st => s.setHostExt i (fun x => { x with st := st, since := s.now })
  | .hostOffer i e dpa pva blocks =>
    (s.onExtent e (fun x => { x with hosted := true })).setHostExt i (fun _ =>
      { st := 1, dpa := dpa, ext := e, blocks := blocks, pva := pva })
  | .notice ch words => (s.mbxPut idStake ch 0 words.length words).2

end Sys2Proof.Machine
end

