-- ==== Sys2Proof/Machine/Program.lean ====
section
/-! DEFINITION. Program images: the header, and the checks that PROG.LOAD makes of it and of the code (R62 to R64, R249 to
R256, R335). -/
namespace Sys2Proof.Machine

/-- What an instruction's word may hold (R249, R250): each register field is 0 unused, 1 a register, 2 a predicate; the
format codes it accepts, if it takes a format; and the IMM bits it uses. -/
structure OpForm where
  dst : Nat := 0
  s1 : Nat := 0
  s2 : Nat := 0
  isel : Bool := false
  fmt : Option (Nat → Bool) := none
  imm : Nat := 0

/-- A format code that R272 names. -/
def anyFmt (c : Nat) : Bool := decide (c ≤ 12)
/-- The packed formats of VQUANT and VDQ (R275). -/
def quantFmt (c : Nat) : Bool := (decide (3 ≤ c) && decide (c ≤ 7)) || c == 10 || c == 11
/-- FP32 or BF16 (R275). -/
def plainFmt (c : Nat) : Bool := decide (c ≤ 1)
/-- F or I of R273. -/
def fiFmt (c : Nat) : Bool := isF c || isI c

/-- All of IMM. -/
def immAll : Nat := 0xFFFFFFFF

/-- The form of each opcode of Blurik 1.0 (R264 to R295, R296); none for an opcode that is not defined. -/
def opForm (op : Nat) (imm : Nat) : Option OpForm :=
  if op ≤ 0x0C then some { dst := 1, s1 := 1, s2 := 1, isel := true }
  else if op = 0x0D then some { dst := 1, imm := immAll }
  else if op = 0x0E then some { dst := 1 }
  else if op = 0x0F then some { dst := 1, s1 := 1, imm := immAll }
  else if op ≤ 0x13 then some { dst := 2, s1 := 1, s2 := 1, isel := true }
  else if op = 0x14 then some { dst := 2, s1 := 2, s2 := 2, imm := 7 }
  else if op = 0x15 then some { dst := 1, s1 := 1, s2 := 1, imm := 7 }
  else if op = 0x16 then some { imm := 0x1FFF }
  else if op = 0x17 then some { s1 := 1, imm := 0x1FFF }
  else if op < 0x20 then none
  else if op ≤ 0x24 then some { dst := 1, s1 := 1, imm := immAll }
  else if op ≤ 0x28 then some { s1 := 1, s2 := 1, imm := immAll }
  else if op = 0x29 then some { dst := 1, s1 := 1, fmt := some anyFmt, imm := immAll }
  else if op = 0x2A then some { s1 := 1, s2 := 1, fmt := some anyFmt, imm := immAll }
  else if op = 0x2B then some { dst := 1, s1 := 1, fmt := some anyFmt, imm := immAll }
  else if op = 0x2C then some { s1 := 1, s2 := 1 }
  else if op = 0x2D then some { dst := 2, s1 := 1, imm := immAll }
  else if op ≤ 0x2F then some { dst := 1, s1 := 1, s2 := 1, imm := 0xFF }
  else if op ≤ 0x31 then some { dst := 1, s1 := 1, s2 := 1, imm := 0x7FF }
  else if op = 0x32 then some { dst := 1, s1 := 1, imm := 7 }
  else if op = 0x33 then some { s1 := 1, s2 := 1, imm := 7 }
  else if op = 0x34 then some { imm := 0xFFFF }
  else if op < 0x40 then none
  else if op ≤ 0x42 then some { dst := 1, s1 := 1, s2 := 1, fmt := some fiFmt }
  else if op = 0x43 then some { dst := 1, s1 := 1, s2 := 1, fmt := some isF }
  else if op ≤ 0x45 then some { dst := 1, s1 := 1, s2 := 1, fmt := some fiFmt }
  else if op = 0x46 then some { dst := 1, s1 := 1, fmt := some fiFmt }
  else if op ≤ 0x49 then some { dst := 1, s1 := 1, fmt := some isF }
  else if op ≤ 0x4C then some { dst := 1, s1 := 1, s2 := 1 }
  else if op = 0x4D then some { dst := 1, s1 := 1, fmt := some isI, imm := 0x1F }
  else if op = 0x4E then some { dst := 1, s1 := 1, s2 := 1, fmt := some fiFmt }
  else if op = 0x4F then some { dst := 1, s1 := 1, s2 := 1 }
  else if op ≤ 0x51 then some { dst := 1, s1 := 1, fmt := some fiFmt }
  else if op = 0x52 then some { dst := 1, s1 := 1, fmt := some anyFmt }
  else if op ≤ 0x54 then some { dst := 1, s1 := 1, fmt := some anyFmt, imm := 0x7F }
  else if op = 0x55 then some { dst := 1, s1 := 1, fmt := some anyFmt, imm := 0x37F }
  else if op = 0x56 then some { dst := 1, s1 := 1, s2 := 1, fmt := some quantFmt, imm := 0xFFFFFF7F }
  else if op = 0x57 then some { dst := 1, s1 := 1, s2 := 1, fmt := some plainFmt, imm := 0xFFFFFF1F }
  else if op < 0x60 then none
  else if op = 0x60 then some { dst := 1, s1 := 1, s2 := 1, fmt := some (fun c => groupG c != 0) }
  else if op ≤ 0x62 then some { dst := 1, s1 := 1, s2 := 1, fmt := some (fun c => groupG c != 0), imm := 0x3FFFFF }
  else if op = 0x63 then some { dst := 1, s1 := 1, s2 := 1, fmt := some (fun c => groupG c != 0), imm := 0xFFFFF }
  else if op = 0x64 then some { dst := 1, s1 := 1, s2 := 1, fmt := some (fun c => decide (c ≤ 4)), imm := 0xFFF }
  else if op = 0x65 then some { dst := 1, s1 := 1, imm := 0x1FFF }
  else if op < 0x80 then none
  else if op ≤ 0x84 then some { dst := 1, s1 := 1, s2 := 1 }
  else if op < 0xA0 then none
  else if op ≤ 0xA3 then some { dst := 1, s1 := 1, s2 := 1, imm := 0xF }
  else if op = 0xA4 then some {}
  else if op = 0xA5 then some { s1 := 1, s2 := 1, imm := 7 }
  else if op = 0xA6 then some { dst := 1, s1 := 1, s2 := 1, imm := immAll }
  else if op = 0xA7 then some { imm := 0x1FFF }
  else if op = 0xA8 then some { imm := 0xF }
  else if op = 0xA9 then
    (if imm / 2 ^ 31 = 1 then some { dst := 1, s2 := 1, imm := 0x80000FFF }
     else some { dst := 1, s1 := 1, s2 := 1, imm := 0x8000007F })
  else if op = 0xAA then some { dst := 1, imm := 0x3FF }
  else if op = 0xAB then some { dst := 1, imm := 1 }
  else if op = 0xAC then some {}
  else if op < 0xC0 then none
  else if op ≤ 0xDF then some { imm := 0x1F }
  else none

/-- Opcode byte of a word. -/
def wordOp (w : U64) : Nat := bits w 63 56
/-- IMM of a word. -/
def wordImm (w : U64) : Nat := bits w 31 0

/-- An instruction is followed by an extension word (R252). -/
def needsExt (w : U64) : Bool :=
  wordOp w == 0x0E || ((wordOp w == 0x61 || wordOp w == 0x62) && bit w 20) || (wordOp w == 0x63 && bit w 18)

/-- The instructions of code words, each with its offset and its extension word (R252). -/
def instrsOf : Nat → List U64 → List (Nat × U64 × Option U64)
  | _, [] => []
  | i, w :: rest =>
    if needsExt w then
      match rest with
      | [] => [(i, w, none)]
      | e :: rest => (i, w, some e) :: instrsOf (i + 2) rest
    else (i, w, none) :: instrsOf (i + 1) rest

/-- The format fields of a word are codes that its instruction accepts (R253, R335). -/
def formatOk (w : U64) : Bool :=
  match opForm (wordOp w) (wordImm w) with
  | none => true
  | some x => x.fmt.all (fun t => t (bits w 55 52)) &&
    (wordOp w != 0x55 || anyFmt (bits w 3 0)) &&
    (wordOp w != 0x56 || plainFmt (bits w 3 0)) &&
    (wordOp w != 0x57 || quantFmt (bits w 3 0))

/-- A register field's value fits its use. -/
def fieldOk (use v : Nat) : Bool := if use = 0 then v == 0 else if use = 2 then decide (v < 8) else true

/-- The reserved fields of a word and of its extension word are zero (R249, R250, R252, R253, R277). -/
def reservedOk (w : U64) (ext : Option U64) : Bool :=
  match opForm (wordOp w) (wordImm w) with
  | none => true
  | some x =>
    let sel := bit w 36
    let sel2 : Bool := sel && x.isel
    (x.fmt.isSome || bits w 55 52 == 0) && fieldOk x.dst (bits w 51 47) && fieldOk x.s1 (bits w 46 42) &&
    fieldOk (if sel2 then 0 else x.s2) (bits w 41 37) && (x.isel || !sel) && (decide (wordOp w < 0xC0) || bits w 35 32 == 0) &&
    (sel2 || wordImm w &&& (immAll - x.imm) == 0) &&
    (wordOp w == 0x0E || ext.all (fun e => e.toNat < 2 ^ 36))

/-- The body of each LOOP: its first word and the word after it. -/
def loopBodies (is : List (Nat × U64 × Option U64)) : List (Nat × Nat) :=
  (is.filter (fun x => wordOp x.2.1 = 0x17)).map (fun x => (x.1 + 1, x.1 + 1 + bits x.2.1 12 0))

/-- Check 10 of R64 for one instruction, among n code words with the extension words and loop bodies named (R252, R253). -/
def targetsOk (n : Nat) (exts : List Nat) (bodies : List (Nat × Nat)) (x : Nat × U64 × Option U64) : Bool :=
  let i := x.1
  let w := x.2.1
  let k := bits w 12 0
  let resume := fun (r : Nat) =>
    decide (r < n) && !decide (r ∈ exts) && !bodies.any (fun b => decide (b.1 ≤ r) && decide (r < b.2))
  if needsExt w && x.2.2.isNone then false
  else if wordOp w = 0x16 then k != 0 && decide (i + k < n) && !decide (i + k ∈ exts)
  else if wordOp w = 0x17 then
    let last := i + 1 + k
    let around := bodies.filter (fun b => decide (b.1 ≤ i) && decide (i < b.2))
    decide (1 ≤ k) && decide (k ≤ 8183) && decide (last ≤ n) && !decide (last ∈ exts) &&
    around.all (fun b => decide (last ≤ b.2)) && decide (around.length < 4)
  else if wordOp w = 0xA6 then resume (bits w 18 6)
  else if wordOp w = 0xA7 then resume k
  else true

/-- The image that a header describes (R63). -/
structure Header where
  minor : Nat
  major : Nat
  priv : Nat
  code : Nat
  consts : Nat
  entry : Nat
  scratch : Nat
  deriving DecidableEq, Repr

/-- Reads a header (R63). -/
def headerOf (ws : List U64) : Header :=
  let w0 := ws.getD 0 0
  let w1 := ws.getD 1 0
  { minor := bits w0 39 32, major := bits w0 47 40, priv := bits w0 49 48, code := bits w1 15 0, consts := bits w1 31 16,
    entry := bits w1 47 32, scratch := bits w1 56 48 }

/-- Image bytes of a header (R64). -/
def Header.total (h : Header) : Nat := 64 + 8 * (h.code + h.consts)

/-- Checks 1 to 6 of R64 on a header: an image of `len` bytes that STAKE or an owner loads. -/
def headerStatus (ws : List U64) (len : Nat) (stake : Bool) : Status :=
  let h := headerOf ws
  let w0 := ws.getD 0 0
  if bits w0 31 0 ≠ 0x4B524C42 then .format
  else if bits w0 63 50 ≠ 0 || bits (ws.getD 1 0) 63 57 ≠ 0 || ((ws.drop 2).take 6).any (· ≠ 0) then .rsvdNonzero
  else if 1 < h.major then .version
  else if h.major = 0 then .unsupported
  else if h.priv = 1 || h.priv = 2 || (h.priv = 0 && !stake) then .perm
  else if 65536 < h.total || h.code = 0 || h.code ≤ h.entry || 256 < h.scratch || len ≠ h.total then .range
  else .ok

/-- Checks 7 to 11 of R64 on the code words. -/
def codeStatus (h : Header) (code : List U64) : Status :=
  let is := instrsOf 0 code
  let exts := (is.filter (fun x => x.2.2.isSome)).map (fun x => x.1 + 1)
  let bodies := loopBodies is
  let isCtl := fun (x : Nat × U64 × Option U64) => wordOp x.2.1 / 32 == 6
  if h.priv = 3 && is.any isCtl then .perm
  else if is.any (fun x => (opForm (wordOp x.2.1) (wordImm x.2.1)).isNone) then .unsupported
  else if !is.all (fun x => formatOk x.2.1) then .format
  else if !is.all (targetsOk code.length exts bodies) || h.entry ∈ exts then .range
  else if !is.all (fun x => reservedOk x.2.1 x.2.2) then .rsvdNonzero
  else .ok

/-- Whether PROG.LOAD takes an image of words: the status of R64, and the image with its digest (R62). -/
def loadImage (bs : List Byte) (len : Nat) (stake : Bool) (part handle : Nat) : Status × Image × List U64 :=
  let ws := bytesWords (bs.length / 8) bs
  let h := headerOf ws
  let code := (ws.drop 8).take h.code
  match headerStatus ws len stake with
  | .ok =>
    (codeStatus h code,
     { part := part, handle := handle, priv := h.priv, code := code, consts := (ws.drop (8 + h.code)).take h.consts,
       entry := h.entry, scratchKib := h.scratch },
     sha3Words bs)
  | st => (st, {}, [])

end Sys2Proof.Machine
end

