-- ==== Sys2Proof/Machine/Control.lean ====
section
/-! DEFINITION. Control requests: queues and passes, the checks common to every request, the state they are checked
against, and how a result or a staged change leaves them (R36, R57, R296 to R303, R496, R504, R508). -/
namespace Sys2Proof.Machine

/-! ### A request's fields (R296) -/

/-- Word i of a request. -/
def reqWord (r : CtrlReq) (i : Nat) : U64 := r.words.getD i 0
/-- Bits of a word of a request. -/
def reqBits (r : CtrlReq) (i hi lo : Nat) : Nat := bits (reqWord r i) hi lo
/-- OPCODE. -/
def reqOp (r : CtrlReq) : Nat := reqBits r 0 63 56
/-- SUB. -/
def reqSub (r : CtrlReq) : Nat := reqBits r 0 3 0
/-- REQ_TAG. -/
def reqTag (r : CtrlReq) : Nat := reqBits r 1 31 0
/-- PARTITION. -/
def reqPart (r : CtrlReq) : Nat := reqBits r 1 37 32
/-- CLASS (R249). -/
def reqClass (r : CtrlReq) : Nat := reqBits r 0 63 61

/-! ### The opcode table (R299) -/

/-- What R299 says of an instruction in one variant: the levels that may issue it besides STAKE, whether it concerns the
partition of word 1, and the bits of its operand words that are defined. -/
structure CtlDef where
  oper : Bool := false
  own : Bool := false
  names : Bool := false
  masks : List (Nat × Nat) := []

/-- Every bit of a word. -/
def allBits : Nat := 2 ^ 64 - 1
/-- Bits [hi:lo] as a mask. -/
def maskOf (hi lo : Nat) : Nat := 2 ^ (hi + 1) - 2 ^ lo

/-- Defined operand bits of CNT.SELECT SUB 0, which depend on the counter (R538, R540, R547). -/
def selectMasks (oper : Bool) (n : Nat) : List (Nat × Nat) :=
  let ring := [(3, maskOf 47 0), (4, maskOf 3 0)]
  if n = 0x7FE then (2, maskOf 10 0) :: ring
  else if n = 0x7FF then (2, maskOf 10 0 + maskOf 20 16) :: (if oper then [] else ring)
  else [(2, maskOf 10 0 + maskOf 28 16), (3, maskOf 25 0), (4, maskOf 45 0), (5, maskOf 45 0)]

/-- Number of variants of an opcode (R299). -/
def ctlSubs (op : Nat) : Nat :=
  if op = 0xCB || op = 0xCC || op = 0xD1 then 3
  else if op = 0xC2 || op = 0xC6 || op = 0xC7 || op = 0xCF || op = 0xD2 || op = 0xD4 || op = 0xD6 || op = 0xDB then 2
  else 1

/-- The row of R299 for an opcode and a variant. -/
def ctlDef (op sub : Nat) (oper : Bool) (n : Nat) : CtlDef :=
  let exts := maskOf 13 0 + maskOf 29 16 + maskOf 45 32 + maskOf 61 48
  match op, sub with
  | 0xC0, _ => { oper := true, masks := [(2, maskOf 5 0 + maskOf 10 8), (3, maskOf 49 0), (4, maskOf 47 0), (5, maskOf 47 0),
      (6, maskOf 47 0), (19, maskOf 15 0)] ++ (nums 7 12).map (fun i => (i, allBits)) }
  | 0xC1, _ => { oper := true, names := true }
  | 0xC2, 0 => { oper := true, names := true, masks := (14, maskOf 15 0) :: (nums 2 12).map (fun i => (i, allBits)) }
  | 0xC2, _ => { own := true, names := true, masks := [(2, maskOf 1 0)] }
  | 0xC3, _ => { oper := true, names := true, masks := [(2, maskOf 14 0), (3, maskOf 18 0)] }
  | 0xC4, _ => { oper := true, masks := [(2, maskOf 13 0)] }
  | 0xC5, _ => { oper := true, masks := [(2, maskOf 19 0)] }
  | 0xC6, _ => { oper := true, own := true, masks := [(2, maskOf 13 0)] }
  | 0xC7, 0 => { own := true, names := true, masks := [(2, maskOf 11 0), (3, maskOf 4 0 + maskOf 13 8 + maskOf 29 16 + maskOf 45 32),
      (4, maskOf 47 0), (5, maskOf 47 0)] }
  | 0xC7, _ => { own := true, names := true, masks := [(2, maskOf 11 0)] }
  | 0xC8, _ => { own := true, names := true, masks := [(2, maskOf 13 0 + maskOf 18 16), (3, maskOf 19 0)] }
  | 0xC9, _ => { own := true, names := true, masks := [(2, maskOf 11 0 + maskOf 17 16 + maskOf 45 32), (3, allBits),
      (4, allBits), (5, allBits), (6, allBits)] }
  | 0xCA, _ => { own := true, names := true, masks := [(2, maskOf 19 0 + maskOf 29 24 + maskOf 63 32), (9, maskOf 31 0),
      (10, maskOf 3 0)] ++ (nums 3 6).map (fun i => (i, allBits)) }
  | 0xCB, 0 => { oper := true, names := true, masks := [(2, maskOf 31 0), (3, maskOf 31 0), (4, maskOf 7 0)] }
  | 0xCB, 1 => { oper := true, names := true, masks := (6, 1) :: (nums 2 4).map (fun i => (i, maskOf 31 0)) }
  | 0xCB, _ => { oper := true, names := true, masks := [(2, maskOf 13 0 + maskOf 29 16), (3, maskOf 31 0)] }
  | 0xCC, _ => { oper := true, masks := [(2, maskOf 15 0)] }
  | 0xCD, _ => { oper := true, masks := [(2, maskOf 2 0)] }
  | 0xCE, _ => { own := true, names := true, masks := [(2, maskOf 7 0)] }
  | 0xCF, 0 => { oper := true, own := true, masks := selectMasks oper n }
  | 0xCF, _ => { oper := true, own := true, names := true, masks := [(2, 1)] }
  | 0xD0, _ => { oper := true, own := true, masks := [(2, allBits)] }
  | 0xD1, 0 => { own := true, names := true, masks := [(2, exts), (3, exts), (4, allBits)] }
  | 0xD1, _ => { own := true, names := true, masks := [(2, maskOf 9 0)] }
  | 0xD2, 0 => { own := true, names := true, masks := [(2, maskOf 9 0), (3, maskOf 47 0)] }
  | 0xD2, _ => { own := true, names := true, masks := [(2, maskOf 15 0)] }
  | 0xD3, _ => { own := true, names := true, masks := [(2, maskOf 9 0), (3, allBits), (4, maskOf 47 0), (5, maskOf 23 0),
      (6, maskOf 24 0)] }
  | 0xD4, 0 => { masks := [(2, maskOf 6 0), (3, allBits), (4, allBits)] }
  | 0xD4, _ => {}
  | 0xD5, _ => { oper := true, masks := [(2, maskOf 1 0 + maskOf 8 8 + maskOf 24 16)] }
  | 0xD6, 0 => { own := true, names := true, masks := [(2, maskOf 7 0), (3, maskOf 47 0), (4, maskOf 31 0)] }
  | 0xD6, _ => { own := true, names := true, masks := [(2, maskOf 15 0)] }
  | 0xD7, _ => { oper := true, own := true, masks := [(6, maskOf 47 0), (7, maskOf 31 0)] ++ (nums 2 4).map (fun i => (i, allBits)) }
  | 0xD8, _ => { oper := true }
  | 0xD9, _ => { oper := true, masks := [(2, maskOf 31 0), (3, maskOf 31 0)] }
  | 0xDA, _ => { own := true, names := true, masks := [(2, maskOf 47 0), (3, allBits)] }
  | 0xDB, 0 => { oper := true, masks := [(2, maskOf 5 0 + maskOf 31 16)] }
  | 0xDB, _ => { oper := true, masks := [(2, 1 + maskOf 14 8)] }
  | 0xDC, _ => { oper := true, masks := [(2, maskOf 1 0), (3, maskOf 45 0), (4, maskOf 16 0)] }
  | 0xDD, _ => { oper := true, masks := [(2, 1), (3, maskOf 31 0), (4, maskOf 6 0), (5, maskOf 47 0)] }
  | _, _ => { oper := true, own := true }

/-! ### The checks common to every request (R301) -/

/-- Reserved bits of words 0 and 1 (R296). -/
def reqReserved (r : CtrlReq) : Bool :=
  reqBits r 0 55 32 ≠ 0 || reqBits r 0 31 5 ≠ 0 || (reqBits r 0 4 4 ≠ 0 && reqOp r ≠ 0xC4) ||
    reqBits r 1 63 38 ≠ 0

/-- Reserved bits of the operand words (R296, R299). -/
def operReserved (r : CtrlReq) (d : CtlDef) : Bool :=
  (nums 2 30).any (fun i =>
    let m := ((d.masks.find? (fun e => e.1 = i)).map (·.2)).getD 0
    decide ((reqWord r i).toNat &&& (allBits - m) ≠ 0))

/-- Half of a memory port (R26, R312); the host port is not wholly in one half. -/
def portHalf (n : Nat) : Option Nat :=
  if n < 24 || n = 48 || n = 49 || n = 52 then some 0
  else if n < 48 || n = 50 || n = 51 || n = 53 then some 1 else none

/-- With the spine lost: the instruction changes nothing, or changes state of one half only, and that half is the
active stake's (R508). -/
def State.ownHalf (s : State) (r : CtrlReq) : Bool :=
  let h := s.activeHalf
  let op := reqOp r
  if op = 0xC6 || op = 0xDE || op = 0xDF || op = 0xD7 || op = 0xDD then true
  else if op = 0xC3 then reqBits r 2 14 14 == h
  else if op = 0xC4 then (s.extent (reqBits r 2 13 0)).half == h
  else if op = 0xC5 then blockHalf (reqBits r 2 19 0) == h
  else if op = 0xD1 && reqSub r = 0 then (s.extent (reqBits r 2 13 0)).half == h
  else if op = 0xD1 || op = 0xD3 || (op = 0xD2 && reqSub r = 0) then (s.region (reqBits r 2 9 0)).half == h
  else if op = 0xDB && reqSub r = 0 then portHalf (reqBits r 2 5 0) == some h
  else if op = 0xDB then reqBits r 2 0 0 == h
  else if op = 0xDC then
    (if reqBits r 2 1 0 = 0 then homeHalf (reqBits r 3 45 0) == h else decide (reqBits r 4 4 0 / 10 = h))
  else false

/-- The request reaches a half that is fenced, or the spine is lost and it is not confined to the active stake's half
(R36, R58, R301, R508). -/
def State.reqFenced (s : State) (r : CtrlReq) : Bool :=
  (s.lease s.activeHalf).fenced || (s.spineGone && !s.ownHalf r)

/-- A half applies no change: it is fenced, or with the spine lost it is the isolated subordinate (R58). -/
def State.barred (s : State) (h : Nat) : Bool := (s.lease h).fenced || (s.spineGone && decide (h ≠ s.activeHalf))

/-- The partition's destruction is staged or running (R301). -/
def State.dying (s : State) (p : Nat) : Bool :=
  (s.part p).destroyed.isSome || s.ctl.staged.any (fun c => c == .partDestroy p)

/-- Checks 2 to 7 of R301, and the existence of the partition that is named (R300); `f` is the state at the effect
boundary. -/
def State.commonStatus (s f : State) (i : Issuer) (r : CtrlReq) : Status :=
  let op := reqOp r
  let known := decide (reqSub r < ctlSubs op)
  let d := ctlDef op (reqSub r) (match i with | .owner _ => false | _ => true) (reqBits r 2 10 0)
  let level : Bool := match i with
    | .stake => true
    | .operator => d.oper
    | .owner p => d.own && decide (reqPart r = p.val)
  let gone : Bool := match i with
    | .owner p => s.dying p.val
    | _ => false
  if reqClass r ≠ 6 then .unsupported
  else if reqReserved r || (known && operReserved r d) then .rsvdNonzero
  else if !known then .unsupported
  else if s.reqFenced r then .fenced
  else if !level then .perm
  else if gone then .revoked
  else if (d.names || (match i with | .owner _ => true | _ => false)) && !(f.part (reqPart r)).live then .range
  else .ok

/-! ### Issuers and their memory -/

/-- Number of an issuer in journal entries (R496): 0 STAKE, 1 OPERATOR, 2 + p the owner of p. -/
def issuerNo : Issuer → Nat
  | .stake => 0
  | .operator => 1
  | .owner p => 2 + p.val

/-- Privilege code of an issuer (R59). -/
def issuerPriv : Issuer → Nat
  | .stake => 0
  | .operator => 1
  | .owner _ => 2

/-- Partition in whose memory an issuer names operands: its own; for the operator the HOST partition (R296). -/
def State.issuerPart (s : State) : Issuer → Option Nat
  | .stake => none
  | .operator => s.hostPart
  | .owner p => some p.val

/-- The address of the other half's copy of a metadata line (R30, R103). -/
def otherCopy (pa : Nat) : Nat := if pa < halfBase then pa + halfBase else pa - halfBase

/-- A metadata line as the stake reads it: where it is poison, the other half's copy (R30, R191). -/
def State.stakeLine (s : State) (pa : Nat) : List Byte × Bool :=
  let x := s.newLine pa
  if x.2 then s.newLine (otherCopy pa) else x

/-- What the stake reads of the metadata, and whether some line is poison in both copies (R191). -/
def State.stakeRead (s : State) (a n : Nat) : List Byte × Bool :=
  let ls := (linesOf a n).map (fun l => s.stakeLine (l * 64))
  (((ls.flatMap (·.1)).drop (a % 64)).take n, ls.any (·.2))

/-- The stake rewrites a poisoned metadata line from the other half's copy where that is good (R191). -/
def State.rewriteCopy (s : State) (pa : Nat) : State :=
  if (s.newLine pa).2 && !(s.newLine (otherCopy pa)).2 then s.writePool pa (s.newLine (otherCopy pa)).1 else s

/-- Reads an operand that a PVA names; for STAKE, a metadata address (R296). -/
def State.readIssuer (s : State) (i : Issuer) (a n : Nat) : ReadOut :=
  match i with
  | .stake =>
    if paEnd < a + n || !isMeta a || !isMeta (a + n - 1) || homeHalf a ≠ homeHalf (a + n - 1) then .bad .range
    else if s.heldAway a n then .wait
    else match s.stakeRead a n with
      | (_, true) => .bad .poison
      | (bs, false) => .ok bs
  | i => match s.issuerPart i with
    | none => .bad .xlateFault
    | some p => s.readPva p a n

/-- What a read of an operand does besides: it asks back what it waits for, touches and drains what it reads, and the stake
rewrites poisoned metadata (R170, R175, R191, R219). -/
def State.cleanIssuer (s : State) (i : Issuer) (a n : Nat) : State :=
  match i with
  | .stake =>
    if paEnd < a + n || !isMeta a || !isMeta (a + n - 1) then s
    else ((s.cleanLines a n).ownRead a n 9 true).each (linesOf a n) (fun s l => s.rewriteCopy (l * 64))
  | i => match s.issuerPart i with
    | none => s
    | some p => s.cleanPva p a n

/-- Writes an output area, or answers why not (R296, R314). -/
def State.writeIssuer (s : State) (i : Issuer) (a : Nat) (bs : List Byte) : Status × State :=
  match i with
  | .stake =>
    let n := bs.length
    if paEnd < a + n || !isMeta a || !isMeta (a + n - 1) || homeHalf a ≠ homeHalf (a + n - 1) then (.range, s)
    else (.ok, s.deviceWrite a bs)
  | i => match s.issuerPart i with
    | none => (.xlateFault, s)
    | some p => match s.pvaStatus p a bs.length { w := true } with
      | .ok => match s.writePva p a bs with
        | some s => (.ok, s)
        | none => (.perm, s)
      | st => (st, s)

/-! ### The state at the effect boundary (R303) -/

/-- The state after a command, or as it was. -/
def orSame (s : State) (o : Host.Outcome State Fault Refusal) : State :=
  match o with
  | .next t => t
  | _ => s

/-- The data-plane transitions scheduled for a boundary (R135, R138, R147, R247). -/
def State.dueTransitions (s : State) : State :=
  let es := s.extents.map (·.1)
  let rs := s.regions.map (·.1)
  let s := s.each es (fun s e => orSame s (execExtentDrainLimit e s))
  let s := s.each rs (fun s r => orSame s (execRegionDrainLimit (Fin.ofNat 1024 r) s))
  let s := s.each es (fun s e => orSame s (execExtentScrubbingEntry e s))
  let s := (s.certifyAll 0).certifyAll 1
  let s := s.each es (fun s e => orSame s (execExtentFree e s))
  s.each rs (fun s r => match (s.region r).destroying with
    | some d => if d + 10 ≤ s.now then s.endRegion r else s
    | none => s)

/-- The state as it will stand after step 4 of the next boundary: the transitions due there, then what is staged. -/
def State.future (s : State) : State :=
  let t := s.onRnd (fun r => { r with counter := r.counter + 1 })
  t.dueTransitions.each s.ctl.staged State.applyChange

/-! ### Queues and passes (R302, R303) -/

/-- An issuer's queue. -/
def State.ctlQueue (s : State) : Issuer → List CtrlReq
  | .stake => s.ctl.stakeQ
  | .operator => s.ctl.operQ
  | .owner p => s.ctl.ownerQ.look [] p.val

/-- Sets an issuer's queue. -/
def State.setQueue (s : State) (i : Issuer) (l : List CtrlReq) : State :=
  s.onCtl (fun c => match i with
    | .stake => { c with stakeQ := l }
    | .operator => { c with operQ := l }
    | .owner p => { c with ownerQ := c.ownerQ.put [] p.val l })

/-- Requests an issuer's queue holds (R302). -/
def queueCap : Issuer → Nat
  | .owner _ => 16
  | _ => 64

/-- Adds a result to those that wait. -/
def State.addResult (s : State) (x : Result) : State := s.onCtl (fun c => { c with results := c.results ++ [x] })

/-- A result of a request (R297). -/
def resultOf (i : Issuer) (r : CtrlReq) (st : Status) (results : List Nat) : Result :=
  { issuer := i, status := st.code, opcode := reqOp r, sub := reqSub r, tag := reqTag r, results := results }

/-- A request arrives at its issuer's queue; a full queue answers BUSY_RETRY (R301 check 1). -/
def State.enqueue (s : State) (i : Issuer) (r : CtrlReq) : State :=
  if (s.ctlQueue i).length < queueCap i then s.setQueue i (s.ctlQueue i ++ [r])
  else s.addResult (resultOf i r .busyRetry [])

/-- An issuer that waits for a background instruction's result (R303). -/
def State.blockedIssuer (s : State) (i : Issuer) : Bool := s.ctl.background.any (fun b => b.issuer = i)

/-- Place of an issuer in a pass of round N (R303). -/
def State.passKey (s : State) : Issuer → Nat
  | .stake => 0
  | .operator => 1
  | .owner p => 2 + (p.val + 64 - s.now % 64) % 64

/-- How far an issuer lies ahead of the queue served last. -/
def State.passDist (s : State) (i : Issuer) : Nat := (s.passKey i + 65 - s.ctl.turn) % 66

/-- The issuers with a request that can be served. -/
def State.readyIssuers (s : State) : List Issuer :=
  let all := [Issuer.stake, Issuer.operator] ++ s.ctl.ownerQ.map (fun e => .owner (Fin.ofNat 64 e.1))
  all.filter (fun i => !(s.ctlQueue i).isEmpty && !s.blockedIssuer i)

/-- It is an issuer's turn in the pass (R303). -/
def State.passTurn (s : State) (i : Issuer) : Bool := s.readyIssuers.all (fun j => decide (s.passDist i ≤ s.passDist j))

/-- The stake executes in this round: it holds the lease, has executed fewer than 64 instructions, and does not pass its
queues to an incoming stake in the round before a handover (R303, R502, R504). -/
def State.stakeRuns (s : State) : Bool :=
  let l := s.lease s.activeHalf
  s.leaseHeld && decide (s.ctl.executed < 64) && !(l.st == .handover && s.now + 1 == l.handover)

/-! ### What an instruction comes to -/

/-- The outcome of an instruction's own checks. -/
inductive CtlOut where
  | fail (st : Status) (results : List Nat)
  | done (results : List Nat)
  | stage (cs : List Change) (results : List Nat)
  | snap (c : Change) (b notBefore : Nat)
  | hold (cs : List Change)
  | background
  | wait

/-- Number that names a partition's or the operator's counter selection in journal entries. -/
def selIndex (p : Option Nat) (n : Nat) : Nat := p.getD 64 * 2048 + n

/-- KIND and INDEX of the journal entry of a change (R496); a change of no journalled object has none. DESIGN CHOICE: R496
does not say how an object is numbered. -/
def Change.delta : Change → Option (Nat × Nat)
  | .partCreate p _ => some (0x01, p)
  | .partDestroy p => some (0x01, p)
  | .affinity p _ _ => some (0x01, p)
  | .consent p _ _ => some (0x01, p)
  | .userRead p _ => some (0x01, p)
  | .pref p _ _ => some (0x01, p)
  | .extGrant e _ _ _ => some (0x02, e)
  | .extRevoke e _ => some (0x02, e)
  | .winSet w _ => some (0x03, w)
  | .rankSet p r _ => some (0x04, p * 16384 + r)
  | .groupSet g _ => some (0x05, g)
  | .keyLoad p k _ => some (0x06, p * 16 + k)
  | .epochOpen p => some (0x06, p * 16)
  | .shape p _ _ _ => some (0x07, p)
  | .police p _ _ _ _ _ => some (0x07, p)
  | .budget p lo _ _ => some (0x07, 64 + p * 16384 + lo)
  | .cap _ _ => some (0x08, 0)
  | .sagCap _ => some (0x08, 0)
  | .sagWarn _ => some (0x08, 0)
  | .mode _ _ _ => some (0x08, 0)
  | .select p n _ _ _ _ _ _ => some (0x09, selIndex p n)
  | .ring p n _ _ _ => some (0x09, selIndex p n)
  | .snap p _ => some (0x09, selIndex p 0)
  | .regionCreate r _ => some (0x0A, r)
  | .regionAccept r _ => some (0x0A, r)
  | .regionDestroy r => some (0x0A, r)
  | .regionPin r _ _ _ => some (0x0A, r)
  | .regionUnpin _ _ => some (0x0A, 0)
  | .regionPublish r _ _ _ => some (0x0A, r)
  | .progLoad p k _ => some (0x0B, p * 256 + k)
  | .progUnload p k => some (0x0B, p * 256 + k)
  | .bind ch _ _ => some (0x0C, ch)
  | .lock => some (0x0C, 128)
  | .priority _ => some (0x0D, 0)
  | .target n _ => some (0x0E, n)
  | .rebuildShare h _ => some (0x0E, 64 + h)
  | .extRetire _ => some (0x0E, 66)
  | .retirePage _ => some (0x0E, 67)
  | .retireBank _ => some (0x0E, 68)
  | .retireStack _ => some (0x0E, 69)
  | .hostExtent i _ => some (0x0F, i)
  | .hostOffer i _ _ _ _ => some (0x0F, i)
  | .notice _ _ => none
  | .sync _ _ _ => none

/-- What the entry of a change says beside its object: the block, page, bank or stack that it retires (R496). -/
def Change.named : Change → List U64
  | .extRetire b => [BitVec.ofNat 64 b]
  | .retirePage pa => [BitVec.ofNat 64 pa]
  | .retireBank b => [BitVec.ofNat 64 (bankWord b)]
  | .retireStack n => [BitVec.ofNat 64 n]
  | _ => []

/-- The journal entry of a staged change, for the region of a pin in its object's place (R241, R496). -/
def State.entryOf (s : State) (op : Nat) (c : Change) : Option JournalEntry :=
  c.delta.map (fun d => { kind := d.1, op := op, body := c.named, index := match c with
    | .regionUnpin p k => ((s.part p).pins.look {} k).region
    | _ => d.2 })

/-- Stages changes for step 4 of the next boundary, with their journal entries (R303, R496). -/
def State.stage (s : State) (op : Nat) (cs : List Change) : State :=
  let es := cs.filterMap (s.entryOf op)
  s.onCtl (fun c => { c with staged := c.staged ++ cs, deltas := c.deltas ++ es })

/-- What an outcome does: a result that leaves in this round, a staged change whose result waits for its boundary, or
work in the background (R57, R301, R303). -/
def State.settleCtl (s : State) (i : Issuer) (r : CtrlReq) (o : CtlOut) : State :=
  match o with
  | .fail st rs => s.addResult (resultOf i r st rs)
  | .done rs => s.addResult (resultOf i r .ok rs)
  | .stage cs rs =>
    (s.stage (reqOp r) cs).addResult { resultOf i r .ok rs with effect := s.now + 1, ready := false }
  | .snap c b later =>
    (s.stage (reqOp r) [c]).addResult { resultOf i r .ok [b] with effect := b, ready := false, notBefore := later }
  | .hold cs => (s.stage (reqOp r) cs).addResult { resultOf i r .ok [] with ready := false }
  | .background =>
    s.onCtl (fun c => { c with background := c.background ++ [{ issuer := i, req := r, op := reqOp r, started := s.now }] })
  | .wait => s

/-- A command of the table names this request: its opcode and variant, or where the request has no defined class or
variant, the opcode's first. -/
def reqIs (r : CtrlReq) (op sub : Nat) : Bool :=
  reqClass r ≠ 6 || (reqOp r == op && (reqSub r == sub || (decide (ctlSubs op ≤ reqSub r) && sub == 0)))

/-- A control instruction: the request arrives if it is not the next of its issuer, and is executed when the stake
serves that queue: the common checks, then its own. One that has to wait for a line of its operands stays in its queue
(R36, R301 to R303). -/
def State.control (s : State) (i : Issuer) (r : CtrlReq) (op sub : Nat)
    (go : State → State → Issuer → CtrlReq → CtlOut × State) : State :=
  if !s.leaseHeld || !reqIs r op sub then s else
  let s := if (s.ctlQueue i).head? = some r then s else s.enqueue i r
  if (s.ctlQueue i).head? ≠ some r || !s.stakeRuns || s.blockedIssuer i || !s.passTurn i then s else
  let f := s.future
  let o : CtlOut × State := match s.commonStatus f i r with
    | .ok => go f s i r
    | st => (.fail st [], s)
  match o.1 with
  | .wait => o.2
  | x =>
    let t := o.2.setQueue i ((s.ctlQueue i).drop 1)
    let t := t.onCtl (fun c => { c with executed := c.executed + 1, turn := s.passKey i })
    let t := t.opEvent 0x10E { priv := some (issuerPriv i), part := some (match i with | .owner p => p.val | _ => reqPart r) }
    t.settleCtl i r x

/-- An instruction whose checks read state and change none of it. -/
def pureCtl (go : State → State → Issuer → CtrlReq → CtlOut) : State → State → Issuer → CtrlReq → CtlOut × State :=
  fun f s i r => (go f s i r, s)

end Sys2Proof.Machine
end

