-- ==== Sys2Proof/Machine/ControlPool.lean ====
section
/-! DEFINITION. Control instructions on partitions, extents, windows, ranks, groups, keys and translations (R133, R136,
R152, R299, R300, R304 to R306, R402, R404, R478). In each, `f` is the state at the effect boundary. -/
namespace Sys2Proof.Machine

/-! ### Partitions -/

/-- Two ranges of windows or groups overlap (R304). -/
def rangesMeet (a n b m : Nat) : Bool := decide (0 < n) && decide (0 < m) && decide (a < b + m) && decide (b < a + n)

/-- The encapsulation-key check of FIPS 203: every coefficient below 3,329 (R304). -/
def ekValid (bs : List Byte) : Bool :=
  bs.length == 1184 && (List.range 384).all (fun k =>
    let v := ofBytes ((bs.drop (3 * k)).take 3)
    decide (v % 4096 < 3329) && decide (v / 4096 < 3329))

/-- A 768-bit mask from 12 words, without the retired weavers (R304). -/
def State.affinityOf (s : State) (ws : List U64) : BitVec 768 :=
  let m : BitVec 768 := BitVec.ofNat 768 (ofBytes (wordBytes ws))
  (s.weavers.filter (fun w => w.2.st == .retired)).foldl (fun (m : BitVec 768) w => m &&& ~~~((1 : BitVec 768) <<< w.1)) m

/-- Words i to i + n − 1 of a request. -/
def reqWords (r : CtrlReq) (i n : Nat) : List U64 := (nums i n).map (reqWord r)

/-- Some other partition has the HOST attribute, or its windows or groups overlap those asked for (R304). -/
def State.createConflict (f : State) (r : CtrlReq) : Bool :=
  let p := reqBits r 2 5 0
  let w0 := reqBits r 3 11 0
  let wn := reqBits r 3 24 12
  let g0 := reqBits r 3 36 25
  let gn := reqBits r 3 49 37
  let x := f.part p
  x.live || x.destroyed.any (fun d => decide (f.now < d + 10)) ||
  f.liveParts.any (fun q =>
    let y := f.part q
    (reqBits r 2 8 8 == 1 && y.host) || rangesMeet w0 wn y.winFirst y.winCount || rangesMeet g0 gn y.grpFirst y.grpCount)

/-- PART.CREATE (R101, R304). DESIGN CHOICE: the owner key of the HOST partition is a constant of Config, since the spec does
not say where the device takes the operator's key from, and OWNER_KEY is not read for that partition (log 165). -/
def ctlPartCreate (f s : State) (i : Issuer) (r : CtrlReq) : CtlOut × State :=
  let p := reqBits r 2 5 0
  let host := reqBits r 2 8 8 = 1
  let x : Partition :=
    { host := host, dbg := bit (reqWord r 2) 9, prof := bit (reqWord r 2) 10, winFirst := reqBits r 3 11 0,
      winCount := reqBits r 3 24 12, grpFirst := reqBits r 3 36 25, grpCount := reqBits r 3 49 37,
      qtable := reqBits r 4 47 0, remoteBase := reqBits r 5 47 0, affinity := s.affinityOf (reqWords r 7 12),
      share := reqBits r 19 15 0 }
  if p ≠ reqPart r then (.fail .range [], s)
  else if f.createConflict r then (.fail .conflict [], s)
  else if 4096 < x.winFirst + x.winCount || 4096 < x.grpFirst + x.grpCount || x.qtable % 4096 ≠ 0 || x.remoteBase % 4096 ≠ 0
  then (.fail .range [], s)
  else if host then (.stage [.partCreate p { x with ownerKey := (List.range 1184).map Config.operatorKeyByte }] [p], s)
  else
    let a := reqBits r 6 47 0
    let who := if i = .stake then .stake else Issuer.operator
    match s.readIssuer who a 1184 with
    | .wait => (.wait, s.cleanIssuer who a 1184)
    | .bad st => (.fail st [], s)
    | .ok ek =>
      let s := s.cleanIssuer who a 1184
      if ekValid ek then (.stage [.partCreate p { x with ownerKey := ek }] [p], s) else (.fail .integrity [], s)

/-- PART.DESTROY (R305). -/
def ctlPartDestroy (f : State) (_s : State) (_i : Issuer) (r : CtrlReq) : CtlOut :=
  let p := reqPart r
  if f.extents.any (fun e => e.2.st == .active && e.2.holder == p && e.2.hosted) then .fail .conflict []
  else .stage [.partDestroy p] []

/-- PART.SET SUB 0, AFFINITY (R306). -/
def ctlAffinity (_f s : State) (_i : Issuer) (r : CtrlReq) : CtlOut :=
  .stage [.affinity (reqPart r) (s.affinityOf (reqWords r 2 12)) (reqBits r 14 15 0)] []

/-- PART.SET SUB 1, CONSENT: the result names the epoch that opens (R299, R306, R473). -/
def ctlConsent (f _s : State) (_i : Issuer) (r : CtrlReq) : CtlOut :=
  let x := f.part (reqPart r)
  let epoch := if x.epochRound = some f.now then x.epoch else (x.epoch + 1) % 2 ^ 32
  .stage [.consent (reqPart r) (bit (reqWord r 2) 0) (bit (reqWord r 2) 1)] [epoch]

/-! ### Extents -/

/-- EXT.GRANT (R136, R137). -/
def ctlExtGrant (f _s : State) (_i : Issuer) (r : CtrlReq) : CtlOut :=
  let e := reqBits r 2 13 0
  let h := reqBits r 2 14 14
  let n := reqBits r 3 18 0
  if (f.extent e).st ≠ .free then .fail .conflict []
  else if n = 0 || (f.pool h).free < n then .fail .range []
  else .stage [.extGrant e h n (reqPart r)] [e]

/-- EXT.REVOKE (R136, R138, R248). -/
def ctlExtRevoke (f _s : State) (_i : Issuer) (r : CtrlReq) : CtlOut :=
  let e := reqBits r 2 13 0
  let force := reqBits r 0 4 4 = 1
  let x := f.extent e
  let others := f.extents.any (fun y => y.1 ≠ e && y.2.st == .active && y.2.holder == x.holder)
  let pinned := match x.region with
    | some g => (f.region g).versions.any (fun v => v.pins ≠ 0)
    | none => false
  if x.st ≠ .active || x.hosted || (x.root && others) || (!force && pinned) then .fail .conflict []
  else .stage [.extRevoke e force] []

/-- EXT.RETIRE (R152, R300). -/
def ctlExtRetire (f _s : State) (_i : Issuer) (r : CtrlReq) : CtlOut :=
  let b := reqBits r 2 19 0
  if 753664 ≤ b then .fail .range []
  else
    let q := f.pool (blockHalf b)
    if q.blockState b = .retired || b ∈ q.marked then .fail .conflict [] else .stage [.extRetire b] []

/-- STATE of an extent as a number (R132). -/
def ExtState.code : ExtState → Nat
  | .free => 0 | .active => 1 | .draining => 2 | .scrubbing => 3

/-- SCRUB_PCT (R132). -/
def Extent.pct (x : Extent) : Nat := 100 * x.certified / max 1 x.blocks.length

/-- Word 0 of an extent table entry (R132). -/
def Extent.word0 (x : Extent) : Nat :=
  x.st.code + x.half * 2 ^ 2 + b2n x.hosted * 2 ^ 3 + b2n x.root * 2 ^ 4 + b2n x.forced * 2 ^ 5 + x.holder * 2 ^ 8 +
    x.lastHolder * 2 ^ 16 + b2n x.lhValid * 2 ^ 24 + x.blocks.length * 2 ^ 25

/-- EXT.QUERY SUB 0, ENTRY, in the view of its issuer (R132, R133). -/
def ctlQueryEntry (_f s : State) (i : Issuer) (r : CtrlReq) : CtlOut :=
  let x := s.extent (reqBits r 2 13 0)
  match i with
  | .owner p =>
    if (x.st == .active || x.st == .draining) && x.holder == p.val then
      .done [0, x.word0, x.pins + x.grantSeq * 2 ^ 32, x.stateRound, x.certified + x.pct * 2 ^ 19]
    else .fail .perm []
  | _ => .done [0, x.word0, 0, 0, x.pct * 2 ^ 19]

/-- EXT.QUERY SUB 1, NEXT (R299). -/
def ctlQueryNext (_f s : State) (i : Issuer) (r : CtrlReq) : CtlOut :=
  let from_ := reqBits r 2 13 0
  let mine := fun (x : Extent) => match i with
    | .owner p => x.st == .active && x.holder == p.val
    | _ => x.st != .free
  .done [((s.extents.find? (fun e => decide (from_ ≤ e.1) && mine e.2)).map (·.1)).getD 0xFFFFFFFF]

/-! ### Windows, ranks, groups, keys, translations -/

/-- A window or group lies in the range fixed for a partition (R121, R300). -/
def inRange (k first count : Nat) : Bool := decide (first ≤ k) && decide (k < first + count)

/-- WIN.MAP (R120, R121). -/
def ctlWinMap (f _s : State) (_i : Issuer) (r : CtrlReq) : CtlOut :=
  let w := reqBits r 2 11 0
  let p := f.part (reqPart r)
  let e := reqWord r 3
  let x : Window :=
    { valid := bit e 0, rd := bit e 1, wr := bit e 2, at_ := bit e 3, db := bit e 4, part := bits e 13 8,
      rankLo := bits e 29 16, rankHi := bits e 45 32, pvaBase := reqBits r 4 47 0, len := reqBits r 5 47 0 }
  if !inRange w p.winFirst p.winCount || x.part ≠ reqPart r then .fail .perm []
  else if x.pvaBase % 4096 ≠ 0 || x.len % 4096 ≠ 0 || 2 ^ 48 < x.pvaBase + x.len ||
    (x.db && (x.pvaBase ≠ 0 || x.len ≠ 4096)) then .fail .range []
  else .stage [.winSet w x] []

/-- WIN.UNMAP (R121). -/
def ctlWinUnmap (f _s : State) (_i : Issuer) (r : CtrlReq) : CtlOut :=
  let w := reqBits r 2 11 0
  let p := f.part (reqPart r)
  if !inRange w p.winFirst p.winCount then .fail .perm [] else .stage [.winSet w {}] []

/-- RANK.SET (R299, R402). -/
def ctlRankSet (_f _s : State) (_i : Issuer) (r : CtrlReq) : CtlOut :=
  .stage [.rankSet (reqPart r) (reqBits r 2 13 0)
    { ep := reqBits r 3 19 0, valid := bit (reqWord r 2) 16, farAtomic := bit (reqWord r 2) 17, dead := bit (reqWord r 2) 18 }] []

/-- MCAST.SET (R299, R404). -/
def ctlMcastSet (f _s : State) (_i : Issuer) (r : CtrlReq) : CtlOut :=
  let g := reqBits r 2 11 0
  let p := f.part (reqPart r)
  let x : Group :=
    { valid := bit (reqWord r 2) 16, allRanks := bit (reqWord r 2) 17, base := reqBits r 2 45 32,
      mask := BitVec.ofNat 256 (ofBytes (wordBytes (reqWords r 3 4))) }
  if !inRange g p.grpFirst p.grpCount then .fail .perm [] else .stage [.groupSet g x] []

/-- KEY.LOAD (R478). -/
def ctlKeyLoad (f s : State) (_i : Issuer) (r : CtrlReq) : CtlOut :=
  let p := reqPart r
  let x := s.part p
  let slot := reqBits r 10 3 0
  let old := (f.part p).peerKeys.look {} slot
  let key : Option (List Byte) := x.ss.bind (fun ss =>
    unwrapKey (trafficSecret ss x.epoch x.dbg x.prof) (reqWords r 2 8) slot)
  match key with
  | none => .fail .integrity []
  | some ts =>
    if old.loaded && reqBits r 2 63 32 ≤ old.seq then .fail .conflict []
    else .stage [.keyLoad p slot
      { ep := reqBits r 2 23 0, part := reqBits r 2 29 24, seq := reqBits r 2 63 32, gen := reqBits r 9 31 0,
        loaded := true, ts := ts }] []

/-- XLATE.SYNC (R118). -/
def ctlSync (_f _s : State) (_i : Issuer) (r : CtrlReq) : CtlOut :=
  .stage [.sync (reqPart r) (reqBits r 2 47 0) (reqWord r 3).toNat] []

/-! ### The commands -/

/-- PART.CREATE. -/
def execPartCreate (i : Issuer) (r : CtrlReq) (s : State) : Host.Outcome State Fault Refusal :=
  .next (s.control i r 0xC0 0 ctlPartCreate)
/-- PART.DESTROY. -/
def execPartDestroy (i : Issuer) (r : CtrlReq) (s : State) : Host.Outcome State Fault Refusal :=
  .next (s.control i r 0xC1 0 (pureCtl ctlPartDestroy))
/-- PART.SET SUB 0. -/
def execPartSetAffinity (i : Issuer) (r : CtrlReq) (s : State) : Host.Outcome State Fault Refusal :=
  .next (s.control i r 0xC2 0 (pureCtl ctlAffinity))
/-- PART.SET SUB 1. -/
def execPartSetConsent (i : Issuer) (r : CtrlReq) (s : State) : Host.Outcome State Fault Refusal :=
  .next (s.control i r 0xC2 1 (pureCtl ctlConsent))
/-- EXT.GRANT. -/
def execExtGrant (i : Issuer) (r : CtrlReq) (s : State) : Host.Outcome State Fault Refusal :=
  .next (s.control i r 0xC3 0 (pureCtl ctlExtGrant))
/-- EXT.REVOKE. -/
def execExtRevoke (i : Issuer) (r : CtrlReq) (s : State) : Host.Outcome State Fault Refusal :=
  .next (s.control i r 0xC4 0 (pureCtl ctlExtRevoke))
/-- EXT.RETIRE. -/
def execExtRetire (i : Issuer) (r : CtrlReq) (s : State) : Host.Outcome State Fault Refusal :=
  .next (s.control i r 0xC5 0 (pureCtl ctlExtRetire))
/-- EXT.QUERY SUB 0. -/
def execExtQueryEntry (i : Issuer) (r : CtrlReq) (s : State) : Host.Outcome State Fault Refusal :=
  .next (s.control i r 0xC6 0 (pureCtl ctlQueryEntry))
/-- EXT.QUERY SUB 1. -/
def execExtQueryNext (i : Issuer) (r : CtrlReq) (s : State) : Host.Outcome State Fault Refusal :=
  .next (s.control i r 0xC6 1 (pureCtl ctlQueryNext))
/-- WIN.MAP. -/
def execWinMap (i : Issuer) (r : CtrlReq) (s : State) : Host.Outcome State Fault Refusal :=
  .next (s.control i r 0xC7 0 (pureCtl ctlWinMap))
/-- WIN.UNMAP. -/
def execWinUnmap (i : Issuer) (r : CtrlReq) (s : State) : Host.Outcome State Fault Refusal :=
  .next (s.control i r 0xC7 1 (pureCtl ctlWinUnmap))
/-- RANK.SET. -/
def execRankSet (i : Issuer) (r : CtrlReq) (s : State) : Host.Outcome State Fault Refusal :=
  .next (s.control i r 0xC8 0 (pureCtl ctlRankSet))
/-- MCAST.SET. -/
def execMcastSet (i : Issuer) (r : CtrlReq) (s : State) : Host.Outcome State Fault Refusal :=
  .next (s.control i r 0xC9 0 (pureCtl ctlMcastSet))
/-- KEY.LOAD. -/
def execKeyLoad (i : Issuer) (r : CtrlReq) (s : State) : Host.Outcome State Fault Refusal :=
  .next (s.control i r 0xCA 0 (pureCtl ctlKeyLoad))
/-- XLATE.SYNC. -/
def execXlateSync (i : Issuer) (r : CtrlReq) (s : State) : Host.Outcome State Fault Refusal :=
  .next (s.control i r 0xDA 0 (pureCtl ctlSync))

end Sys2Proof.Machine
end

