-- ==== Sys2Proof/Machine/ControlDevice.lean ====
section
/-! DEFINITION. Control instructions on traffic, power, counters, regions, mailboxes, the round, programs, firmware,
memory and queries (R205, R237 to R248, R299, R300, R307 to R315, R422, R456, R506, R511, R538 to R541). In each, `f`
is the state at the effect boundary. -/
namespace Sys2Proof.Machine

/-! ### Traffic (R307, R422) -/

/-- SHAPE.SET. A burst is held against a rate only where there is one (R421, R422). -/
def ctlShape (_f _s : State) (_i : Issuer) (r : CtrlReq) : CtlOut :=
  let rate := reqBits r 2 31 0
  let burst := reqBits r 3 31 0
  let overhead := reqBits r 4 7 0
  if rate < 128 || (rate ≠ unlimited && burst < rate) || burst < 2 * (1072 + overhead) then .fail .range []
  else .stage [.shape (reqPart r) rate burst overhead] []

/-- POLICE.SET. -/
def ctlPolice (_f _s : State) (_i : Issuer) (r : CtrlReq) : CtlOut :=
  let cir := reqBits r 2 31 0
  let pir := reqBits r 3 31 0
  let cbs := reqBits r 4 31 0
  let pbs := reqBits r 5 31 0
  if pir < cir || pbs < cbs || cir < 128 || (cir ≠ unlimited && cbs < cir) ||
    (pir ≠ unlimited && (pbs < pir || pbs < 2144)) then .fail .range []
  else .stage [.police (reqPart r) cir pir cbs pbs (bit (reqWord r 6) 0)] []

/-- RANK.BUDGET. -/
def ctlBudget (_f _s : State) (_i : Issuer) (r : CtrlReq) : CtlOut :=
  let lo := reqBits r 2 13 0
  let hi := reqBits r 2 29 16
  let n := reqBits r 3 31 0
  if hi < lo || n < 2176 then .fail .range [] else .stage [.budget (reqPart r) lo hi n] []

/-! ### Power (R308, R522, R523) -/

/-- PWR.CAP SUB 0. -/
def ctlCap (_f _s : State) (_i : Issuer) (r : CtrlReq) : CtlOut :=
  let v := reqBits r 2 15 0
  if v % 5 ≠ 0 || 1800 < v then .fail .range [] else .stage [.cap (max 320 v) v] [max 320 v]

/-- PWR.CAP SUB 1, SAG_CAP. -/
def ctlSagCap (_f _s : State) (_i : Issuer) (r : CtrlReq) : CtlOut :=
  let v := reqBits r 2 15 0
  if v % 5 ≠ 0 || 1800 < v || v < 320 then .fail .range [] else .stage [.sagCap v] [v]

/-- PWR.CAP SUB 2, SAG_WARN. -/
def ctlSagWarn (_f _s : State) (_i : Issuer) (r : CtrlReq) : CtlOut :=
  let v := reqBits r 2 15 0
  if v < 82 || 96 < v then .fail .range [] else .stage [.sagWarn v] [v]

/-- PWR.MODE. -/
def ctlMode (_f _s : State) (_i : Issuer) (r : CtrlReq) : CtlOut :=
  .stage [.mode (bit (reqWord r 2) 0) (bit (reqWord r 2) 1) (bit (reqWord r 2) 2)] []

/-- OP.PREF (R300, R523). -/
def ctlPref (_f _s : State) (_i : Issuer) (r : CtrlReq) : CtlOut :=
  let op := reqBits r 2 7 4
  if 8 ≤ op && op ≤ 14 then .fail .range [] else .stage [.pref (reqPart r) (reqBits r 2 3 0) op] []

/-! ### Counters (R309, R538 to R541, R544, R547) -/

/-- The filters an operator event carries, as P, S, C, A and T (R541). -/
def eventFilters (code : Nat) : Bool × Bool × Bool × Bool × Bool :=
  match code with
  | 0x100 => (true, true, false, true, true)
  | 0x101 => (true, true, false, true, true)
  | 0x102 => (false, true, false, true, false)
  | 0x103 => (false, true, false, true, true)
  | 0x104 => (false, false, false, true, false)
  | 0x105 => (false, true, false, true, true)
  | 0x106 => (false, false, false, true, true)
  | 0x107 => (false, false, false, true, true)
  | 0x108 => (false, false, false, true, true)
  | 0x109 => (false, false, true, false, true)
  | 0x10A => (false, false, true, false, true)
  | 0x10B => (true, false, false, false, true)
  | 0x10C => (false, false, false, false, true)
  | 0x10D => (false, false, false, false, true)
  | _ => (true, false, false, false, true)

/-- The selection's event, LEVEL and filters suit the issuer's table (R538 check 3, R539 to R541). -/
def selectFits (owner : Bool) (r : CtrlReq) : Bool :=
  let ev := reqBits r 2 26 16
  let level := bit (reqWord r 2) 27
  if owner then decide (1 ≤ ev) && decide (ev ≤ 0xE) && (!level || decide (ev ≤ 7) || ev == 0xE)
  else
    let x := eventFilters ev
    let lo := reqBits r 4 45 0
    let hi := reqBits r 5 45 0
    decide (0x100 ≤ ev) && decide (ev ≤ 0x10E) && !level &&
    (x.1 || reqBits r 3 3 0 == 0) && (x.2.1 || reqBits r 3 13 4 == 0) && (x.2.2.1 || reqBits r 3 17 14 == 0) &&
    (x.2.2.2.2 || reqBits r 3 24 18 == 0) && (x.2.2.2.1 || (reqBits r 3 25 25 == 0 && lo == 0 && hi == 0)) &&
    decide (lo ≤ hi) && decide (hi < paEnd)

/-- CNT.SELECT SUB 0 (R538). -/
def ctlSelect (f _s : State) (i : Issuer) (r : CtrlReq) : CtlOut :=
  let n := reqBits r 2 10 0
  let p : Option Nat := match i with | .owner p => some p.val | _ => none
  let chain := bit (reqWord r 2) 28
  let ring := n == 0x7FE || n == 0x7FF
  let known := match p with
    | some _ => ring || (decide (48 ≤ n) && decide (n ≤ 63))
    | none => decide (n ≤ 127) || n == 0x7FF
  let k := reqBits r 2 20 16
  let pva := reqBits r 3 47 0
  let log2 := reqBits r 4 3 0
  let partner := match p with
    | some p => (f.part p).chained (n - 1)
    | none => (f.cnt.sel.look (0, false, 0, 0, 0) (n - 1)).2.1
  if !known then .fail .range []
  else if ring then
    let kOk := n == 0x7FE || k == 0 || (decide (8 ≤ k) && decide (k ≤ 20))
    let ringOk := p.isNone || (n == 0x7FF && k == 0) ||
      (pva % 64 == 0 && (if n = 0x7FE then decide (1 ≤ log2) && decide (log2 ≤ 12) else decide (4 ≤ log2)))
    if kOk && ringOk then .stage [.ring p n pva log2 k] [] else .fail .range []
  else if p.isSome && (reqWord r 3 ≠ 0 || reqWord r 4 ≠ 0 || reqWord r 5 ≠ 0) then .fail .rsvdNonzero []
  else if !selectFits p.isSome r || (chain && n % 2 == 1) then .fail .range []
  else if n % 2 == 1 && partner then .fail .conflict []
  else .stage [.select p n (reqBits r 2 26 16) (bit (reqWord r 2) 27) chain (reqBits r 3 25 0) (reqBits r 4 45 0)
    (reqBits r 5 45 0)] []

/-- CNT.SELECT SUB 1, USER_READ (R299). -/
def ctlUserRead (_f _s : State) (_i : Issuer) (r : CtrlReq) : CtlOut :=
  .stage [.userRead (reqPart r) (bit (reqWord r 2) 0)] []

/-- CNT.SNAP (R309, R544). -/
def ctlSnap (f s : State) (i : Issuer) (r : CtrlReq) : CtlOut :=
  let b := (reqWord r 2).toNat
  let p : Option Nat := match i with | .owner p => some p.val | _ => none
  let named := match p with | some p => (f.part p).snaps | none => f.cnt.snaps
  if b < s.now + 2 then .fail .range []
  else if b ∈ named then .done [b]
  else .snap (.snap p b) b (if p.isSome then b + 3 else b)

/-! ### Regions (R237 to R243, R247, R248) -/

/-- The extents that words 2 and 3 name: up to the first zero after the first; none where a zero is followed by
another. -/
def regionExts (r : CtrlReq) : Option (List Nat) :=
  let all := [2, 3].flatMap (fun k => [reqBits r k 13 0, reqBits r k 29 16, reqBits r k 45 32, reqBits r k 61 48])
  let tail := (all.drop 1).takeWhile (· ≠ 0)
  if ((all.drop 1).drop tail.length).all (· = 0) then some (all.headD 0 :: tail) else none

/-- 4 KiB frames of some extents. -/
def State.framesOf (s : State) (es : List Nat) : Nat := es.foldl (fun n e => n + 512 * (s.extent e).blocks.length) 0

/-- REGION.CREATE (R237, R238, R240). -/
def ctlRegionCreate (f _s : State) (_i : Issuer) (r : CtrlReq) : CtlOut :=
  let p := reqPart r
  match regionExts r with
  | none => .fail .range []
  | some es =>
    let held := es.all (fun e => (f.extent e).st == .active && (f.extent e).holder == p)
    let busy := es.any (fun e => (f.extent e).root || (f.extent e).hosted || (f.extent e).region.isSome)
    let h := (f.extent (es.headD 0)).half
    let frames := f.framesOf es
    let inUse := (f.regions.filter (fun g => g.2.valid && g.2.half == h)).foldl (fun n g => n + g.2.frames) 0
    let new := (List.range 1024).find? (fun k => !(f.region k).valid)
    if !held then .fail .perm []
    else if busy then .fail .conflict []
    else if !decide es.Nodup || es.any (fun e => (f.extent e).half ≠ h) || 2 ^ 24 < frames || 2 ^ 26 < inUse + frames then
      .fail .range []
    else match new with
      | none => .fail .range []
      | some k => .stage [.regionCreate k
          { valid := true, half := h, home := p, offer := reqWord r 4, frames := frames, exts := es, versions := [{}] }] [k]

/-- A region that exists and is not being destroyed (R247). -/
def Region.open_ (x : Region) : Bool := x.valid && x.destroying.isNone

/-- The half of a region is fenced or an isolated subordinate (R248). -/
def State.regionFenced (s : State) (x : Region) : Bool := s.spineGone && x.half ≠ s.activeHalf

/-- REGION.ACCEPT (R240, R247). -/
def ctlRegionAccept (f _s : State) (_i : Issuer) (r : CtrlReq) : CtlOut :=
  let g := reqBits r 2 9 0
  let x := f.region g
  if !x.open_ then .fail .range []
  else if !x.offer.getLsbD (reqPart r) then .fail .perm []
  else .stage [.regionAccept g (reqPart r)] []

/-- REGION.DESTROY (R247). -/
def ctlRegionDestroy (f _s : State) (_i : Issuer) (r : CtrlReq) : CtlOut :=
  let g := reqBits r 2 9 0
  let x := f.region g
  if !x.open_ then .fail .range []
  else if x.home ≠ reqPart r then .fail .perm []
  else .stage [.regionDestroy g] []

/-- REGION.PIN (R241). -/
def ctlRegionPin (f s : State) (_i : Issuer) (r : CtrlReq) : CtlOut × State :=
  let g := reqBits r 2 9 0
  let p := reqPart r
  let pva := reqBits r 3 47 0
  let x := f.region g
  let free := (List.range 64).find? (fun k => !((f.part p).pins.look {} k).held)
  let ps := s.rangePieces p pva 64 { w := true }
  if !x.open_ then (.fail .range [], s)
  else if x.home ≠ p && !x.readers.getLsbD p then (.fail .perm [], s)
  else match free with
    | none => (.fail .range [], s)
    | some k =>
      if ps.any (fun y => match y.out with | .blocked _ => true | _ => false) then (.wait, s.cleanPva p pva 64)
      else match s.pvaStatus p pva 64 { w := true } with
        | .ok => (.stage [.regionPin g p k pva] [k + ((f.part p).pins.look {} k).gen * 64], s)
        | st => (.fail st [], s)

/-- REGION.UNPIN (R241). -/
def ctlRegionUnpin (f s : State) (_i : Issuer) (r : CtrlReq) : CtlOut :=
  let k := reqBits r 2 5 0
  let y := (f.part (reqPart r)).pins.look {} k
  if !y.held || y.gen ≠ reqBits r 2 15 6 then .fail .range []
  else if s.regionFenced (f.region y.region) then .fail .fenced []
  else .stage [.regionUnpin (reqPart r) k] []

/-- The entries of an update list: frame and whether it is removed (R242). -/
def updateList (bs : List Byte) (n : Nat) : List (Nat × Bool) :=
  (bytesWords n bs).map (fun w => (bits w 24 0, bit w 32))

/-- Index of the first list entry that R242 refuses: it names a frame beyond the region, one named before, an added one
that is published, or a removed one that is not live. -/
def badUpdate (x : Region) (l : List (Nat × Bool)) : Option Nat :=
  (List.range l.length).find? (fun i =>
    let e := l.getD i (0, false)
    let fr := x.table.look {} e.1
    decide (x.frames ≤ e.1) || (l.take i).any (fun y => y.1 = e.1) ||
      (if e.2 then !(fr.live x.version && fr.died.isNone) else fr.born.isSome))

/-- A frame is live in the version that an update list makes. -/
def liveAfter (x : Region) (l : List (Nat × Bool)) (k : Nat) : Bool :=
  match l.find? (fun e => e.1 = k) with
  | some e => !e.2
  | none => (x.table.look {} k).live (x.version + 1)

/-- REGION.PUBLISH: the checks of R242 in order, and the claim of the next version (R243). -/
def ctlPublish (f s : State) (i : Issuer) (r : CtrlReq) : CtlOut × State :=
  let g := reqBits r 2 9 0
  let p := reqPart r
  let n := reqBits r 5 23 0
  let index := reqBits r 6 24 0
  let x := f.region g
  let list := s.readIssuer (.owner (Fin.ofNat 64 p)) (reqBits r 4 47 0) (8 * n)
  let rsvd := match list with
    | .ok bs => (bytesWords n bs).any (fun w => bits w 31 25 ≠ 0 || bits w 63 33 ≠ 0)
    | _ => false
  let stale := x.valid && decide (x.home = p) && x.open_ && decide ((reqWord r 3).toNat ≠ x.version)
  if stale then (.fail .conflict [x.version], s)
  else if list = .wait then (.wait, s.cleanIssuer (.owner (Fin.ofNat 64 p)) (reqBits r 4 47 0) (8 * n))
  else if rsvd then (.fail .rsvdNonzero [], s)
  else if x.valid && x.home ≠ p then (.fail .perm [], s)
  else if !x.open_ then (.fail .range [], s)
  else if (reqWord r 3).toNat ≠ x.version then (.fail .conflict [x.version], s)
  else if 16 ≤ x.versions.length then (.fail .busyRetry [], s)
  else if x.version = 0xFFFFFFFE then (.fail .range [], s)
  else match list with
    | .bad st => (.fail st [], s)
    | .wait => (.wait, s)
    | .ok bs =>
      let s := s.cleanIssuer (.owner (Fin.ofNat 64 p)) (reqBits r 4 47 0) (8 * n)
      let l := updateList bs n
      match (if x.frames < n then some x.frames else badUpdate x l) with
      | some k => (.fail .range [k], s)
      | none =>
        if index ≠ 0x1FFFFFF && !liveAfter x l index then (.fail .range [0xFFFFFFFF], s)
        else
          let v := x.version + 1
          (.hold [.regionPublish g v index l],
           s.onRegion g (fun y => { y with
             version := v, versions := y.versions ++ [{ num := v, index := index }]
             publishing := y.publishing ++ [(v, index, 0, reqTag r)] }))

/-! ### Mailboxes and the round (R310, R315, R456) -/

/-- MBX.BIND: identities are the model's own numbers, STAKE 0, STAKE0 1, STAKE1 2, HOST 3, ANY_PART 4 and PART(p)
64 + p. -/
def ctlBind (f _s : State) (_i : Issuer) (r : CtrlReq) : CtlOut :=
  let ok := fun (n : Nat) => decide (n ≤ 4) || (decide (64 ≤ n) && decide (n < 128))
  let tx := (reqWord r 3).toNat
  let rx := (reqWord r 4).toNat
  if f.ctl.locked then .fail .conflict []
  else if !ok tx || !ok rx then .fail .range []
  else .stage [.bind (reqBits r 2 6 0) tx rx] []

/-- MBX.LOCK. -/
def ctlLock (_f _s : State) (_i : Issuer) (_r : CtrlReq) : CtlOut := .stage [.lock] []

/-- This device is its own round master: it is the one recognised, or none is (R43). -/
def State.isMaster (s : State) : Bool :=
  s.rnd.master == some s.rnd.endpoint || !s.links.any (fun e => e.2.trainedUp)

/-- The master announces a length change, 256 rounds after it accepts it (R41). -/
def State.announceLength (s : State) (code : Nat) : State :=
  s.onRnd (fun r => { r with pendLength := some (code, r.counter + 256), lengthBusy := true })

/-- The result of a ROUND.SET that waits takes the announced boundary (R310). -/
def State.lengthResult (s : State) : State :=
  match s.rnd.pendLength with
  | none => s
  | some (_, b) => s.onCtl (fun c => { c with results := c.results.map (fun x =>
      if x.opcode = 0xD5 && !x.ready && x.effect = 0 then { x with effect := b, results := [b] } else x) })

/-- ROUND.SET: the priority takes effect at E; a length goes to the round master (R41, R310). -/
def ctlRoundSet (_f s : State) (_i : Issuer) (r : CtrlReq) : CtlOut × State :=
  let code := reqBits r 2 1 0
  let setLen := bit (reqWord r 2) 8 && code ≠ s.rnd.length
  let prio : List Change := if bit (reqWord r 2) 24 then [.priority (reqBits r 2 23 16)] else []
  if setLen && (s.rnd.lengthBusy || s.rnd.pendLength.isSome) then (.fail .busyRetry [], s)
  else if setLen then
    let s := if s.isMaster then s.announceLength code
      else
        let s := s.onRnd (fun r => { r with lengthBusy := true })
        match s.rnd.master with
        | some ep => s.launchFab { cls := 3, opcode := 0xC7, dstEp := ep, units := 1, payload := toBytes 64 (2 + code * 256) }
        | none => s
    (.hold prio, s)
  else match prio with
    | [] => (.done [if bit (reqWord r 2) 8 then s.now else 0], s)
    | cs => (.stage cs [s.now + 1], s)

/-! ### Programs, firmware, memory and queries (R205, R311 to R314, R506, R511) -/

/-- PROG.LOAD (R311). -/
def ctlProgLoad (f s : State) (_i : Issuer) (r : CtrlReq) : CtlOut :=
  let slot := reqBits r 2 7 0
  let taken := ((f.part (reqPart r)).progs.look {} slot).img.isSome ||
    s.ctl.background.any (fun b => b.op = 0xD6 && reqPart b.req = reqPart r && reqBits b.req 2 7 0 = slot)
  if taken then .fail .conflict [] else .background

/-- PROG.UNLOAD (R66, R311). -/
def ctlProgUnload (f _s : State) (_i : Issuer) (r : CtrlReq) : CtlOut :=
  let x := (f.part (reqPart r)).progs.look {} (reqBits r 2 7 0)
  if x.img.isNone || x.gen ≠ reqBits r 2 15 8 then .fail .range []
  else .stage [.progUnload (reqPart r) (reqBits r 2 7 0)] []

/-- ATTEST (R314). -/
def ctlAttest (_f _s : State) (_i : Issuer) (_r : CtrlReq) : CtlOut := .background

/-- A handover, staging or keep-store copy is in progress (R505, R506). -/
def State.updateBusy (s : State) : Bool := s.auth.handover.isSome || s.auth.staging.isSome || s.auth.writing.isSome

/-- ROLE.SWAP (R506). -/
def ctlRoleSwap (_f s : State) (_i : Issuer) (r : CtrlReq) : CtlOut × State :=
  let k := 1 - (s.lease s.activeHalf).holder
  if (s.stake k).st = .failed then (.fail .conflict [], s)
  else if !(s.stake k).passDone || s.updateBusy then (.fail .busyRetry [], s)
  else (.hold [], s.onAuth (fun a => { a with handover := some (k, some (reqTag r)) }))

/-- FW.STAGE is accepted and its chunks may come; one staging runs at a time (R511). -/
def ctlFwStage (_f s : State) (_i : Issuer) (r : CtrlReq) : CtlOut × State :=
  if s.auth.staging.isSome then (.fail .busyRetry [], s)
  else (.background, s.onAuth (fun a => { a with staging := some (reqBits r 2 31 0, reqBits r 3 31 0, []), stagedImage := none }))

/-- MEM.TARGET SUB 0 (R300, R312). -/
def ctlTarget (_f _s : State) (_i : Issuer) (r : CtrlReq) : CtlOut :=
  let v := reqBits r 2 31 16
  if 54 < reqBits r 2 5 0 || v < 10 || 1000 < v then .fail .range [] else .stage [.target (reqBits r 2 5 0) v] []

/-- MEM.TARGET SUB 1, REBUILD_SHARE (R312). -/
def ctlShare (_f _s : State) (_i : Issuer) (r : CtrlReq) : CtlOut :=
  let v := reqBits r 2 14 8
  if v < 1 || 100 < v then .fail .range [] else .stage [.rebuildShare (reqBits r 2 0 0) v] []

/-- The bank that word 4 names (R199, R299). -/
def reqBank (r : CtrlReq) : BankId :=
  { stack := Fin.ofNat 20 (reqBits r 4 4 0), pc := Fin.ofNat 32 (reqBits r 4 9 5), rank := Fin.ofNat 6 (reqBits r 4 12 10),
    bank := Fin.ofNat 16 (reqBits r 4 16 13) }

/-- MEM.RETIRE (R203 to R205, R300). -/
def ctlMemRetire (f _s : State) (_i : Issuer) (r : CtrlReq) : CtlOut :=
  let pa := reqBits r 3 45 0
  let st := reqBits r 4 4 0
  let b := reqBank r
  match reqBits r 2 1 0 with
  | 0 =>
    let x := f.half (homeHalf pa)
    let used := x.pages.length + x.copies.length
    if pa % 4096 ≠ 0 || paEnd ≤ pa || (metaOff ≤ halfOff pa && halfOff pa < metaOff + 0x4000000) || 16384 ≤ used then .fail .range []
    else if x.pages.any (fun e => e.1 = pa) || x.copies.any (fun c => c.page = pa) then .fail .conflict []
    else .stage [.retirePage pa] []
  | 1 =>
    if 19 < st || 5 < reqBits r 4 12 10 then .fail .range [] else
    let x := f.half (st / 10)
    if b ∈ x.banks || x.moving.any (fun m => m.1 = b) || x.integrity ≠ .intact || 8 ≤ x.banks.length then .fail .conflict []
    else if x.moving.isSome then .fail .busyRetry []
    else .stage [.retireBank b] []
  | 2 =>
    if 19 < st then .fail .range [] else
    let x := f.half (st / 10)
    if (f.stack st).failed || st ∈ x.failing then .fail .conflict []
    else if x.moving.isSome then .fail .busyRetry []
    else .stage [.retireStack st] []
  | _ => .fail .range []

/-- ERR.READ (R300, R314). -/
def ctlErrRead (_f _s : State) (_i : Issuer) (r : CtrlReq) : CtlOut :=
  if reqBits r 4 6 0 = 0 || 64 < reqBits r 4 6 0 then .fail .range [] else .background

/-- The versions of R313 and R452. -/
def deviceVersions : Nat := 1 + 1 * 2 ^ 8 + 0 * 2 ^ 16 + 1 * 2 ^ 24

/-- DEV.QUERY (R313). -/
def ctlDevQuery (_f s : State) (i : Issuer) (_r : CtrlReq) : CtlOut :=
  let w1 := s.half0.integrity.code + s.half1.integrity.code * 2 ^ 3 + s.activeHalf * 2 ^ 6 + s.leaseEpoch * 2 ^ 32
  match i with
  | .owner p => .done [deviceVersions, w1,
      (s.extents.filter (fun e => e.2.st == .active && e.2.holder == p.val)).length,
      ((s.part p.val).pins.filter (fun k => k.2.held)).length]
  | _ => .done [deviceVersions, w1, s.pool0.free / 256 * 256, s.pool1.free / 256 * 256]

/-- CTRL.FENCE: its result leaves behind those of the issuer's earlier instructions (R299). -/
def ctlFence (_f _s : State) (_i : Issuer) (_r : CtrlReq) : CtlOut := .done []

/-! ### The commands -/

/-- SHAPE.SET. -/
def execShapeSet (i : Issuer) (r : CtrlReq) (s : State) : Host.Outcome State Fault Refusal :=
  .next (s.control i r 0xCB 0 (pureCtl ctlShape))
/-- POLICE.SET. -/
def execPoliceSet (i : Issuer) (r : CtrlReq) (s : State) : Host.Outcome State Fault Refusal :=
  .next (s.control i r 0xCB 1 (pureCtl ctlPolice))
/-- RANK.BUDGET. -/
def execRankBudget (i : Issuer) (r : CtrlReq) (s : State) : Host.Outcome State Fault Refusal :=
  .next (s.control i r 0xCB 2 (pureCtl ctlBudget))
/-- PWR.CAP SUB 0. -/
def execPwrCap (i : Issuer) (r : CtrlReq) (s : State) : Host.Outcome State Fault Refusal :=
  .next (s.control i r 0xCC 0 (pureCtl ctlCap))
/-- PWR.CAP SUB 1. -/
def execPwrCapSagCap (i : Issuer) (r : CtrlReq) (s : State) : Host.Outcome State Fault Refusal :=
  .next (s.control i r 0xCC 1 (pureCtl ctlSagCap))
/-- PWR.CAP SUB 2. -/
def execPwrCapSagWarn (i : Issuer) (r : CtrlReq) (s : State) : Host.Outcome State Fault Refusal :=
  .next (s.control i r 0xCC 2 (pureCtl ctlSagWarn))
/-- PWR.MODE. -/
def execPwrMode (i : Issuer) (r : CtrlReq) (s : State) : Host.Outcome State Fault Refusal :=
  .next (s.control i r 0xCD 0 (pureCtl ctlMode))
/-- OP.PREF. -/
def execOpPref (i : Issuer) (r : CtrlReq) (s : State) : Host.Outcome State Fault Refusal :=
  .next (s.control i r 0xCE 0 (pureCtl ctlPref))
/-- CNT.SELECT SUB 0. -/
def execCntSelectEvent (i : Issuer) (r : CtrlReq) (s : State) : Host.Outcome State Fault Refusal :=
  .next (s.control i r 0xCF 0 (pureCtl ctlSelect))
/-- CNT.SELECT SUB 1. -/
def execCntSelectUserRead (i : Issuer) (r : CtrlReq) (s : State) : Host.Outcome State Fault Refusal :=
  .next (s.control i r 0xCF 1 (pureCtl ctlUserRead))
/-- CNT.SNAP. -/
def execCntSnap (i : Issuer) (r : CtrlReq) (s : State) : Host.Outcome State Fault Refusal :=
  .next (s.control i r 0xD0 0 (pureCtl ctlSnap))
/-- REGION.CREATE. -/
def execRegionCreate (i : Issuer) (r : CtrlReq) (s : State) : Host.Outcome State Fault Refusal :=
  .next (s.control i r 0xD1 0 (pureCtl ctlRegionCreate))
/-- REGION.ACCEPT. -/
def execRegionAccept (i : Issuer) (r : CtrlReq) (s : State) : Host.Outcome State Fault Refusal :=
  .next (s.control i r 0xD1 1 (pureCtl ctlRegionAccept))
/-- REGION.DESTROY. -/
def execRegionDestroy (i : Issuer) (r : CtrlReq) (s : State) : Host.Outcome State Fault Refusal :=
  .next (s.control i r 0xD1 2 (pureCtl ctlRegionDestroy))
/-- REGION.PIN. -/
def execRegionPin (i : Issuer) (r : CtrlReq) (s : State) : Host.Outcome State Fault Refusal :=
  .next (s.control i r 0xD2 0 ctlRegionPin)
/-- REGION.UNPIN. -/
def execRegionUnpin (i : Issuer) (r : CtrlReq) (s : State) : Host.Outcome State Fault Refusal :=
  .next (s.control i r 0xD2 1 (pureCtl ctlRegionUnpin))
/-- REGION.PUBLISH. -/
def execRegionPublish (i : Issuer) (r : CtrlReq) (s : State) : Host.Outcome State Fault Refusal :=
  .next (s.control i r 0xD3 0 ctlPublish)
/-- MBX.BIND. -/
def execMbxBind (i : Issuer) (r : CtrlReq) (s : State) : Host.Outcome State Fault Refusal :=
  .next (s.control i r 0xD4 0 (pureCtl ctlBind))
/-- MBX.LOCK. -/
def execMbxLock (i : Issuer) (r : CtrlReq) (s : State) : Host.Outcome State Fault Refusal :=
  .next (s.control i r 0xD4 1 (pureCtl ctlLock))
/-- ROUND.SET. Where this device is the master, the result knows its boundary at once. -/
def execRoundSet (i : Issuer) (r : CtrlReq) (s : State) : Host.Outcome State Fault Refusal :=
  .next (s.control i r 0xD5 0 ctlRoundSet).lengthResult
/-- PROG.LOAD. -/
def execProgLoad (i : Issuer) (r : CtrlReq) (s : State) : Host.Outcome State Fault Refusal :=
  .next (s.control i r 0xD6 0 (pureCtl ctlProgLoad))
/-- PROG.UNLOAD. -/
def execProgUnload (i : Issuer) (r : CtrlReq) (s : State) : Host.Outcome State Fault Refusal :=
  .next (s.control i r 0xD6 1 (pureCtl ctlProgUnload))
/-- ATTEST. -/
def execAttest (i : Issuer) (r : CtrlReq) (s : State) : Host.Outcome State Fault Refusal :=
  .next (s.control i r 0xD7 0 (pureCtl ctlAttest))
/-- ROLE.SWAP. -/
def execRoleSwap (i : Issuer) (r : CtrlReq) (s : State) : Host.Outcome State Fault Refusal :=
  .next (s.control i r 0xD8 0 ctlRoleSwap)
/-- FW.STAGE. -/
def execFwStage (i : Issuer) (r : CtrlReq) (s : State) : Host.Outcome State Fault Refusal :=
  .next (s.control i r 0xD9 0 ctlFwStage)
/-- MEM.TARGET SUB 0. -/
def execMemTarget (i : Issuer) (r : CtrlReq) (s : State) : Host.Outcome State Fault Refusal :=
  .next (s.control i r 0xDB 0 (pureCtl ctlTarget))
/-- MEM.TARGET SUB 1. -/
def execMemTargetRebuildShare (i : Issuer) (r : CtrlReq) (s : State) : Host.Outcome State Fault Refusal :=
  .next (s.control i r 0xDB 1 (pureCtl ctlShare))
/-- MEM.RETIRE. -/
def execMemRetire (i : Issuer) (r : CtrlReq) (s : State) : Host.Outcome State Fault Refusal :=
  .next (s.control i r 0xDC 0 (pureCtl ctlMemRetire))
/-- ERR.READ. -/
def execErrRead (i : Issuer) (r : CtrlReq) (s : State) : Host.Outcome State Fault Refusal :=
  .next (s.control i r 0xDD 0 (pureCtl ctlErrRead))
/-- DEV.QUERY. -/
def execDevQuery (i : Issuer) (r : CtrlReq) (s : State) : Host.Outcome State Fault Refusal :=
  .next (s.control i r 0xDE 0 (pureCtl ctlDevQuery))
/-- CTRL.FENCE. -/
def execCtrlFence (i : Issuer) (r : CtrlReq) (s : State) : Host.Outcome State Fault Refusal :=
  .next (s.control i r 0xDF 0 (pureCtl ctlFence))

end Sys2Proof.Machine
end

