-- ==== Sys2Proof/Machine/Background.lean ====
section
/-! DEFINITION. What background control instructions do when their work ends: programs, attestation reports, the error
log and staged images; and how control results leave the device (R57, R62 to R66, R151, R201, R303, R311, R314, R464
to R467, R479 to R482, R496, R511). -/
namespace Sys2Proof.Machine

/-! ### Attestation reports (R464, R479 to R482) -/

/-- Bytes of words of which any that are missing are zero. -/
def wordsN (n : Nat) (ws : List U64) : List Byte := (List.range n).flatMap (fun i => toBytes 8 (ws.getD i 0).toNat)

/-- The stake that holds the lease. -/
def State.holderStake (s : State) : Stake := s.stake (s.lease s.activeHalf).holder

/-- Words 2 to 7 of the configuration record in force: the fabric key sealed under the device's sealing key (R464,
R553). -/
def State.sealedKey (s : State) : List U64 := Config.sealKey s.holderStake.fuseWords s.rst.fabricKey

/-- cfg_digest: SHA3-256 of the stake configuration record (R466, R553). -/
def State.cfgDigest (s : State) : List Byte := sha3 (wordsN 8 ([s.rst.cfg.1, s.rst.cfg.2] ++ s.sealedKey))

/-- Bytes of a scrub record (R150). -/
def ScrubRec.bytes (r : ScrubRec) : List Byte :=
  toBytes 8 (r.ext + r.half * 2 ^ 14 + r.blocks * 2 ^ 16 + r.substituted * 2 ^ 35) ++
    toBytes 8 (r.grantSeq + r.seq * 2 ^ 32) ++ toBytes 8 r.grantRound ++ toBytes 8 r.first ++ toBytes 8 r.last ++
    toBytes 8 r.initial ++ List.replicate 16 0

/-- The extents a partition holds, in ascending order. -/
def State.heldExtents (s : State) (p : Nat) : List (Nat × Extent) :=
  List.filter (fun (e : Nat × Extent) => e.2.st == .active && e.2.holder == p) s.extents

/-- Scrub records that the partition's next report contains: those not reported yet, and those of extents still held
(R151). -/
def State.reportRecords (s : State) (p : Nat) : List ScrubRec :=
  (s.part p).records.filter (fun r => !r.reported ||
    ((s.extent r.ext).st == .active && (s.extent r.ext).holder == p && (s.extent r.ext).grantSeq == r.grantSeq))

/-- Weavers of a mask. -/
def maskCount (m : BitVec 768) : Nat := ((List.range 768).filter (fun i => m.getLsbD i)).length

/-- The partition descriptor (R481). -/
def State.descriptor (s : State) (p : Nat) : List Byte :=
  let x := s.part p
  let exts := s.heldExtents p
  let progs := List.filter (fun (e : Nat × ProgSlot) => e.2.img.isSome) x.progs
  let regions := List.filter (fun (e : Nat × Region) => e.2.valid && (e.2.home == p || e.2.offer.getLsbD p)) s.regions
  let alone := s.liveParts.all (fun q => q == p || (s.part q).affinity &&& x.affinity == 0)
  let w0 := p + b2n x.host * 2 ^ 8 + b2n x.dbg * 2 ^ 9 + b2n x.prof * 2 ^ 10 + b2n x.userRead * 2 ^ 11 + b2n alone * 2 ^ 12 +
    maskCount x.affinity * 2 ^ 16 + exts.length * 2 ^ 32 + progs.length * 2 ^ 48
  let word7 := x.winFirst + x.winCount * 2 ^ 12 + x.grpFirst * 2 ^ 25 + x.grpCount * 2 ^ 37
  let extEntry := fun (e : Nat × Extent) =>
    toBytes 8 (e.1 + e.2.half * 2 ^ 14 + b2n e.2.root * 2 ^ 15 + b2n e.2.hosted * 2 ^ 16 + b2n e.2.region.isSome * 2 ^ 17 +
      e.2.blocks.length * 2 ^ 18 + e.2.certified * 2 ^ 37) ++ toBytes 8 e.2.grantSeq
  let progEntry := fun (e : Nat × ProgSlot) => match e.2.img with
    | some i => toBytes 8 (i.handle + i.priv * 2 ^ 16) ++ wordsN 4 e.2.digest
    | none => []
  let regionEntry := fun (e : Nat × Region) =>
    let home : Bool := e.2.home == p
    toBytes 8 (e.1 + (if home then 0 else 2 ^ 10 + b2n (e.2.readers.getLsbD p) * 2 ^ 11 + e.2.home * 2 ^ 12) + e.2.pinVersion * 2 ^ 32) ++
      (if home then toBytes 8 e.2.offer.toNat else toBytes 8 0) ++
      (if home then List.replicate 32 0 else sha3 (s.part e.2.home).ownerKey)
  toBytes 8 w0 ++ toBytes 8 (regions.length + x.debugSessions * 2 ^ 32) ++ toBytes 8 x.created ++ sha3 x.ownerKey ++
    toBytes 8 word7 ++ wordsN 4 x.sessionDigest ++ exts.flatMap extEntry ++ progs.flatMap progEntry ++ regions.flatMap regionEntry

/-- Zeros up to a multiple of 8 bytes (R479). -/
def pad8 (bs : List Byte) : List Byte := bs ++ List.replicate ((8 - bs.length % 8) % 8) 0

/-- An attestation report: of a partition, or of the device (R479 to R482). -/
def State.report (s : State) (part : Option Nat) (nonce : List U64) : List Byte :=
  let k := s.holderStake
  let cfg := s.cfgDigest
  let certs := (Config.certBytes (k.runDigest ++ bytesWords 4 cfg)).take 12288
  let desc := match part with | some p => s.descriptor p | none => []
  let recs := match part with | some p => s.reportRecords p | none => []
  let total := 144 + (pad8 certs).length + (pad8 desc).length + 64 * recs.length + 2424
  let epoch := match part with | some p => (s.part p).epoch | none => 0
  let header := toBytes 8 (0x52545441 + 2 ^ 32 + b2n part.isSome * 2 ^ 40 + part.getD 0 * 2 ^ 48) ++
    toBytes 8 (total + epoch * 2 ^ 32) ++ toBytes 8 s.now ++
    toBytes 8 (k.runSvn + k.rollback * 2 ^ 8 + deviceVersions * 2 ^ 16 + s.activeHalf * 2 ^ 48) ++ wordsN 4 nonce ++
    wordsN 4 k.runDigest ++ cfg ++ toBytes 8 (desc.length + certs.length * 2 ^ 32) ++
    toBytes 8 (recs.length + s.leaseEpoch * 2 ^ 32)
  let body := header ++ pad8 certs ++ pad8 desc ++ recs.flatMap ScrubRec.bytes
  body ++ (List.range 2420).map (Config.sigByte body) ++ List.replicate 4 0

/-! ### The work of each background instruction -/

/-- PROG.LOAD: reads the image and checks it; the slot takes it at the next boundary (R62, R64, R66, R311). -/
def bgProgLoad (f s : State) (i : Issuer) (r : CtrlReq) : CtlOut × State :=
  let p := reqPart r
  let slot := reqBits r 2 7 0
  let a := reqBits r 3 47 0
  let len := reqBits r 4 31 0
  let stake : Bool := i == .stake
  match s.readIssuer i a 64 with
  | .wait => (.wait, s.cleanIssuer i a 64)
  | .bad st => (.fail st [], s)
  | .ok head =>
    match headerStatus (bytesWords 8 head) len stake with
    | .ok =>
      match s.readIssuer i a len with
      | .wait => (.wait, s.cleanIssuer i a len)
      | .bad st => (.fail st [], s)
      | .ok bs =>
        let gen := (((f.part p).progs.look {} slot).gen + 1) % 256
        let handle := slot + gen * 256
        let s := s.cleanIssuer i a len
        match loadImage bs len stake p handle with
        | (.ok, img, digest) =>
          (.stage [.progLoad p slot { gen := gen, img := some img, digest := digest }] (handle :: digest.map (·.toNat)), s)
        | (st, _) => (.fail st [], s)
    | st => (.fail st [], s)

/-- Writes a report to its issuer's buffer of `limit` bytes; an owner's report marks the scrub records it holds (R151, R480). -/
def State.giveReport (s : State) (i : Issuer) (a limit : Nat) (bs : List Byte) : CtlOut × State :=
  if limit < bs.length then (.fail .range [], s)
  else match s.writeIssuer i a bs with
    | (.ok, s) =>
      let s := match i with
        | .owner p => s.onPart p.val (fun x => { x with records := x.records.map (fun y => { y with reported := true }) })
        | _ => s
      (.done [bs.length], s)
    | (st, s) => (.fail st [], s)

/-- ATTEST: a partition report for an owner, a device report for the operator, to the output area if it fits (R151,
R314, R479). -/
def bgAttest (_f s : State) (i : Issuer) (r : CtrlReq) : CtlOut × State :=
  let part : Option Nat := match i with | .owner p => some p.val | _ => none
  s.giveReport i (reqBits r 6 47 0) (reqBits r 7 31 0) (s.report part [reqWord r 2, reqWord r 3, reqWord r 4, reqWord r 5])

/-- Bytes of a log record; the operator's view rounds ROUND down and hides STATUS and PARTITION (R199, R201). -/
def LogRec.bytes (r : LogRec) (oper : Bool) : List Byte :=
  toBytes 8 (r.type + r.mode * 2 ^ 8 + b2n r.hard * 2 ^ 10 + b2n r.write * 2 ^ 11 + r.source * 2 ^ 16 + r.symbols * 2 ^ 20 +
    r.repeats * 2 ^ 24 + r.seq * 2 ^ 32) ++
  toBytes 8 (if oper then coarseRound r.round else r.round) ++ toBytes 8 r.loc.toNat ++ toBytes 8 r.pa ++
  toBytes 8 r.syndrome.toNat ++ toBytes 8 (r.path + if oper then 0 else r.status * 2 ^ 16 + r.part * 2 ^ 24) ++ List.replicate 16 0

/-- ERR.READ: the readable records of a half's log from a SEQ on (R201, R314). -/
def bgErrRead (_f s : State) (i : Issuer) (r : CtrlReq) : CtlOut × State :=
  let oper : Bool := i != .stake
  let first := reqBits r 3 31 0
  let recs := ((s.half (reqBits r 2 0 0)).log.filter (fun x =>
    (!oper || decide (x.round + 64 ≤ s.now)) && decide ((x.seq + 2 ^ 32 - first) % 2 ^ 32 < 2 ^ 31))).take (reqBits r 4 6 0)
  if recs.isEmpty then (.done [0], s)
  else match s.writeIssuer i (reqBits r 5 47 0) (recs.flatMap (·.bytes oper)) with
    | (.ok, s) => (.done [recs.length], s)
    | (st, s) => (.fail st [], s)

/-- The checks of R467 on an image, against a stake's fuses. -/
def imageStatus (k : Stake) (x : ImageFacts) : Status :=
  if !x.magicOk || k.revoked.getLsbD x.keySlot.val || !x.keyHashOk || !x.sigOk || !x.bodyOk then .integrity
  else if x.svn < k.rollback then .conflict
  else .ok

/-- All the chunks of the image have arrived (R511). -/
def State.staged (s : State) : Bool := s.auth.staging.any (fun x => decide (x.2.2.length = x.2.1))

/-- FW.STAGE: once the image is complete, its failed check, or the digest of the image that the standby's keep store
now holds (R467, R511). -/
def bgFwStage (_f s : State) (_i : Issuer) (_r : CtrlReq) : CtlOut × State :=
  match s.auth.stagedImage with
  | none => (.wait, s)
  | some x =>
    let s' := s.onAuth (fun a => { a with staging := none, stagedImage := none })
    match imageStatus s.holderStake x with
    | .ok =>
      if s.auth.writing.isSome then (.wait, s)
      else (.done (0 :: (List.range 4).map (fun i => (x.digest.getD i 0).toNat)), s')
    | st => (.fail st [], s')

/-- BACKGROUND_INSTRUCTION_DONE (R303): the issuer's background instruction ends, stages its change or returns its
result; one whose work cannot end yet goes on. -/
def execBackgroundInstructionDone (i : Issuer) (s : State) : Host.Outcome State Fault Refusal :=
  if !s.leaseHeld then .next s else
  match s.ctl.background.find? (fun b => b.issuer = i && !b.done) with
  | none => .next s
  | some b =>
    let f := s.future
    let o : CtlOut × State :=
      if b.op = 0xD6 then bgProgLoad f s i b.req
      else if b.op = 0xD7 then bgAttest f s i b.req
      else if b.op = 0xDD then bgErrRead f s i b.req
      else bgFwStage f s i b.req
    match o.1 with
    | .wait => .next o.2
    | x =>
      let t := o.2.onCtl (fun c => { c with background := c.background.map (fun y => if y.issuer = i then { y with done := true } else y) })
      .next (t.settleCtl i b.req x)

/-! ### Results (R57, R297, R298) -/

/-- The eight words of a control result (R297). -/
def Result.words (r : Result) : List U64 :=
  BitVec.ofNat 64 (r.status + r.opcode * 2 ^ 8 + r.sub * 2 ^ 16 + r.tag * 2 ^ 32) :: BitVec.ofNat 64 r.effect ::
    (List.range 6).map (fun i => BitVec.ofNat 64 (r.results.getD i 0))

/-- The control request packet at the network interface that a result answers. -/
def State.requestOf (s : State) (p tag : Nat) : Option Packet :=
  s.net.ni.find? (fun q => q.opcode = 0xC0 && q.part = p && ofBytes ((q.payload.drop 8).take 4) = tag)

/-- A result of an issuer may leave: its change, if any, is recorded, its boundary has come, and for CTRL.FENCE every
earlier result of the issuer has left (R57, R299, R309). -/
def State.mayLeave (s : State) (i : Issuer) (r : Result) : Bool :=
  r.issuer == i && r.ready && decide (r.notBefore ≤ s.now) &&
    (r.opcode != 0xDF || (s.ctl.results.find? (fun x => x.issuer = i)) == some r)

/-- CONTROL_RESULT_RETURN (R57, R297, R298, R303, R496): the issuer's first result that may leave goes over the rim to
the operator, or on its flow to an owner. -/
def execControlResultReturn (i : Issuer) (s : State) : Host.Outcome State Fault Refusal :=
  if !s.leaseHeld then .next s else
  match s.ctl.results.find? (s.mayLeave i) with
  | none => .next s
  | some r =>
    let s := s.onCtl (fun c => { c with
      results := c.results.erase r
      sent := if r.effect ≠ 0 then c.sent ++ [r] else c.sent
      background := c.background.filter (fun b => !(b.issuer = i && b.done && reqTag b.req = r.tag && b.op = r.opcode)) })
    .next (match i with
      | .stake => s
      | .operator => s.toHost { type := rtCtrlResult, dir := true, len := 8, payload := r.words }
      | .owner p => match s.requestOf p.val r.tag with
        | none => s
        | some q => s.sendReply p.val (s.flowHome q.srcEp p.val)
            { cls := 3, opcode := 0xC1, part := p.val, tag := q.tag, srcEp := s.rnd.endpoint, dstEp := q.srcEp, units := 1,
              payload := wordBytes r.words })

end Sys2Proof.Machine
end

