-- ==== Sys2Proof/Machine/Sync.lean ====
section
/-! DEFINITION. The synchronisation instructions of a stroke, watches, and sample records (R287 to R295, R547 to R549). -/
namespace Sys2Proof.Machine

/-- WAIT: reads a pool word as PLD does; its outcome comes with the answer (R287). -/
def execWait (w : WeaverId) (f : Fields) (s : State) : Host.Outcome State Fault Refusal :=
  let w8 := immBits f 5 5 == 1
  ok (s.tryIssue w.val 0xA6 f 1 [f.dst.toNat, f.src1.toNat, f.src2.toNat] poolWait (fun s x =>
    s.poolWord w.val f x (atomWidth w8) needR (fun s pa =>
      let s := s.onRun w.val (fun y => { y with waiting := true })
      (s.request w.val x pa (atomWidth w8)
        (.waitRead f.dst.toNat w8 (immBits f 4 3) (x.gr f.src2.toNat) (immBits f 18 6) (immBits f 31 19))).2)))

/-- YIELD: ends the run; the stroke is offered at admission point 0 of the next boundary (R290). -/
def execYield (w : WeaverId) (f : Fields) (s : State) : Host.Outcome State Fault Refusal :=
  ok (s.tryIssue w.val 0xA7 f 1 [] noWait (fun s _ =>
    (s.spend w.val 1 0 0 0).suspend w.val (immBits f 12 0) none 0 (some (s.now + 1, 0))))

/-- PHASE: the partition's phase at the next boundary; the last executed wins (R291). -/
def execPhase (w : WeaverId) (f : Fields) (s : State) : Host.Outcome State Fault Refusal :=
  ok (s.tryIssue w.val 0xA8 f 1 [] noWait (fun s x =>
    (s.onPart x.s.part (fun p => { p with phaseInstr := some (immBits f 3 0, w.val) })).retire w.val 1 1))

/-- SEND of a mailbox message of gS2 words from scratch gS1; the status goes to gD (R292, R457). -/
def execSendMailbox (w : WeaverId) (f : Fields) (s : State) : Host.Outcome State Fault Refusal :=
  if immBits f 31 31 = 1 then ok s else
  let len := fun (x : Run) => (x.gr f.src2.toNat).toNat
  let used := fun (x : Run) => len x ≤ 64 && len x != 0
  ok (s.tryIssue w.val 0xA9 f 1 [f.dst.toNat, f.src1.toNat, f.src2.toNat]
    (fun _ x => if used x && x.inScratch (x.s1 f).toNat (8 * len x) 8 then x.landed (x.s1 f).toNat (8 * len x) else some 0)
    (fun s x =>
      let a := (x.s1 f).toNat
      let n := len x
      if used x && !x.inScratch a (8 * n) 8 then s.faultRun w.val .range
      else if used x && x.poisoned a (8 * n) then s.faultRun w.val .poison
      else
        let words := if used x then bytesWords n (x.sbytes a (8 * n)) else []
        let r := s.mbxPut (idPart x.s.part) (immBits f 6 0) x.s.part n words
        (r.2.onRun w.val (fun y => y.putG f.dst.toNat (BitVec.ofNat 64 r.1.code) 8)).retire w.val
          (4 + (if n ≤ 64 then n else 0)) 1))

/-- SEND of a doorbell: the value gS2 [15:0] to an offset of the partition's doorbell block (R69, R292). -/
def execSendDoorbell (w : WeaverId) (f : Fields) (s : State) : Host.Outcome State Fault Refusal :=
  if immBits f 31 31 = 0 then ok s else
  ok (s.tryIssue w.val 0xA9 f 1 [f.dst.toNat, f.src2.toNat] noWait (fun s x =>
    let r := s.doorbell x.s.part (immBits f 11 0) (BitVec.ofNat 64 ((x.gr f.src2.toNat).toNat % 65536))
    (r.2.onRun w.val (fun y => y.putG f.dst.toNat (BitVec.ofNat 64 r.1.code) 8)).retire w.val 5 1))

/-- A partition counter number that is defined (R535). -/
def counterDefined (n : Nat) : Bool := decide (n < 34) || (decide (48 ≤ n) && decide (n < 64))

/-- CNTRD: a partition counter of the round copy, with the owner's grant (R293, R536). -/
def execCntrd (w : WeaverId) (f : Fields) (s : State) : Host.Outcome State Fault Refusal :=
  ok (s.tryIssue w.val 0xAA f 1 [f.dst.toNat] noWait (fun s x =>
    let n := immBits f 9 0
    let p := s.part x.s.part
    let bad := fun (st : Status) => (s.spend w.val 0 8 0 0).faultRun w.val st
    if !p.userRead then bad .perm
    else if !counterDefined n then bad .range
    else (s.onRun w.val (fun y => y.putG f.dst.toNat (BitVec.ofNat 64 (p.roundCopy.look 0 n)) 8)).retire w.val 8 1))

/-- TIME of the budget: gD = cycles left in this run (R294). -/
def execTimeBudget (w : WeaverId) (f : Fields) (s : State) : Host.Outcome State Fault Refusal :=
  if immBits f 0 0 = 1 then ok s else
  ok (s.tryIssue w.val 0xAB f 1 [f.dst.toNat] noWait (fun s x =>
    (s.onRun w.val (fun y => y.putG f.dst.toNat (BitVec.ofNat 64 (x.s.budget - x.cyc)) 1)).retire w.val 1 1))

/-- TIME of the round: gD = the round number (R294). -/
def execTimeRound (w : WeaverId) (f : Fields) (s : State) : Host.Outcome State Fault Refusal :=
  if immBits f 0 0 = 0 then ok s else
  ok (s.tryIssue w.val 0xAB f 1 [f.dst.toNat] noWait (fun s _ =>
    (s.onRun w.val (fun y => y.putG f.dst.toNat (BitVec.ofNat 64 s.now) 1)).retire w.val 1 1))

/-- END: the stroke completes OK with g1 as RESULT (R86, R295). -/
def execEndStroke (w : WeaverId) (f : Fields) (s : State) : Host.Outcome State Fault Refusal :=
  ok (s.tryIssue w.val 0xAC f 1 [1] noWait (fun s x =>
    (s.spend w.val 1 0 0 0).endRun w.val .ok x.pc (x.gr 1)))

/-! ### Watches (R288) -/

/-- The suspended stroke of a number, with its partition. -/
def State.suspendedOf (s : State) (sid : Nat) : Option (Nat × Suspended) :=
  s.parts.findSome? (fun e => (e.2.suspended.find? (fun k => k.s.sid = sid)).map (fun k => (e.1, k)))

/-- Ends a watch: the stroke is offered with its values of g3 and g4 (R288). -/
def State.offer (s : State) (p sid : Nat) (g3 : U64) (g4 : Status) (at_ : Nat × Nat) : State :=
  let f := fun (k : Suspended) => if k.s.sid = sid then
      { k with s := { k.s with g3 := g3, g4 := BitVec.ofNat 64 g4.code }, watch := none, offer := some at_ } else k
  s.onPart p (fun x => { x with suspended := x.suspended.map f })

/-- WATCH_EVALUATION: the home tests the watched word at a write or at its read of step 8; an error status or poison ends
the watch too. A line that an agent owns is asked back first; a half in self-refresh is not read (R288). -/
def execWatchEvaluation (sid : Nat) (st : Status) (s : State) : Host.Outcome State Fault Refusal :=
  match s.suspendedOf sid with
  | none => .next s
  | some (p, k) => match k.watch with
    | none => .next s
    | some (pa, w8, cond, cmp) =>
      let soon := (s.now, s.rnd.point)
      if k.fires ≤ s.now || s.asleepHalf (homeHalf pa) then .next s
      else if st ≠ .ok then .next (s.offer p sid 0 st soon)
      else if s.heldAway pa 1 then .next (s.cleanLine pa)
      else
        let n := atomWidth w8
        let r := s.readPool pa n
        let v := ofBytes r.1
        if r.2 then .next (s.offer p sid 0 .poison soon)
        else if waitCond cond v (cmp.toNat % 256 ^ n) then .next (s.offer p sid (BitVec.ofNat 64 v) .ok soon)
        else .next s

/-- WATCH_TIMEOUT: the timer of a watch fires at boundary S + T, and the stroke is offered with TIMEOUT (R288). -/
def execWatchTimeout (sid : Nat) (s : State) : Host.Outcome State Fault Refusal :=
  match s.suspendedOf sid with
  | none => .next s
  | some (p, k) =>
    if k.watch.isSome && decide (k.fires ≤ s.now) then .next (s.offer p sid 0 .timeout (s.now, 0)) else .next s

/-! ### Sample records (R547 to R549) -/

/-- Words 1 to 4 of a sample record (R548). -/
def sampleWords (t : Tagged) (round : Nat) (m : SampleTimes) : List U64 :=
  [BitVec.ofNat 64 round,
   BitVec.ofNat 64 (t.word % 65536 + t.handle % 65536 * 2 ^ 16 + t.opcode % 256 * 2 ^ 32 + b2n t.guardFalse * 2 ^ 40 +
     b2n t.ended * 2 ^ 41),
   BitVec.ofNat 64 (m.fetch % 65536 + m.decode % 65536 * 2 ^ 16 + m.issue % 65536 * 2 ^ 32 + m.wb % 65536 * 2 ^ 48),
   BitVec.ofNat 64 (m.req % 65536 + m.done % 65536 * 2 ^ 16 + m.stall % 65536 * 2 ^ 32 + m.cause % 16 * 2 ^ 48 +
     m.load % 16 * 2 ^ 52)]

/-- Word 0 of a sample record (R548). -/
def sampleWord0 (seq part w : Nat) : U64 := BitVec.ofNat 64 (seq % 2 ^ 32 + part % 64 * 2 ^ 32 + w % 1024 * 2 ^ 38)

/-- The owner's record goes to its ring, or is lost and counted (R549). -/
def State.ownerSample (s : State) (w : Nat) (t : Tagged) (m : SampleTimes) : State :=
  let x := s.part t.part
  match x.sampler with
  | none => s.countOf t.part 26 1
  | some (_, pva, log2) =>
    let ws := [sampleWord0 x.sampleSeq t.part w] ++ sampleWords t t.round m ++ [0, 0, 0]
    match s.writePva t.part (pva + 64 * (x.sampleSeq % 2 ^ log2)) (wordBytes ws) with
    | none => s.countOf t.part 26 1
    | some s =>
      (s.onPart t.part (fun x => { x with sampleSeq := (x.sampleSeq + 1) % 2 ^ 32 })).countOf t.part 25 1

/-- The operator's record goes to the operator ring of 6,144, its round rounded down (R549). -/
def State.operSample (s : State) (w : Nat) (t : Tagged) (m : SampleTimes) : State :=
  let ws := [sampleWord0 s.cnt.sampleSeq t.part w] ++ sampleWords t (coarseRound t.round) m ++ [0, 0, 0]
  s.onCnt (fun c => { c with samples := (ws :: c.samples).take 6144, sampleSeq := (c.sampleSeq + 1) % 2 ^ 32 })

/-- SAMPLE_RECORD_WRITE: the record of a weaver's tagged instruction is written with its stage times (R548, R549). -/
def execSampleRecordWrite (w : WeaverId) (t : SampleTimes) (s : State) : Host.Outcome State Fault Refusal :=
  match (s.weaver w.val).tagged with
  | none => .next s
  | some g =>
    let s := s.onWeaver w.val (fun x => { x with tagged := none })
    let s := if g.owner then s.ownerSample w.val g t else s
    .next (if g.oper then s.operSample w.val g t else s)

end Sys2Proof.Machine
end

