-- ==== Sys2Proof/Machine/Counters.lean ====
section
/-! DEFINITION. Counter snapshots: the shadows, the operator's values in their order, and the records (R533 to R537, R543
to R546). -/
namespace Sys2Proof.Machine

/-! ### The operator's values (R533, R545) -/

/-- Values of an operator snapshot: 1,920 for each weave die, 896 for each link die, 128 of the host-side die, 128
programmable (R545). -/
def snapValues : Nat := 9728
/-- First value of a weave die. -/
def weaveBase (d : Nat) : Nat := 1920 * d
/-- First value of a link die. -/
def linkBase (h : Nat) : Nat := 7680 + 896 * h
/-- First value of the host-side die. -/
def hostBase : Nat := 9472
/-- First programmable value. -/
def progBase : Nat := 9600

/-- The four issue-slot classes of a weaver in the order of R354, its clock's cycles less the other three counting as
front-starved, and SCRATCH_CE. -/
def State.weaverValues (s : State) (w : Nat) (x : Weaver) : List (Nat × Nat) :=
  let base := weaveBase (weaverDie w)
  let i := w % 192
  let front := ((s.cnt.clock : Int) + x.clockExtra).toNat - (x.slotWasted + x.slotRetired + x.slotBack)
  [(base + 4 * i, front), (base + 4 * i + 1, x.slotWasted), (base + 4 * i + 2, x.slotRetired), (base + 4 * i + 3, x.slotBack),
   (base + 768 + i, x.scratchCe)]

/-- Sets values of a snapshot. -/
def putAll (m : SMap Nat) (l : List (Nat × Nat)) : SMap Nat := l.foldl (fun m e => m.put 0 e.1 (e.2 % 2 ^ 48)) m

/-- Every operator counter, by its place in the snapshot (R545). -/
def State.operValues (s : State) : SMap Nat :=
  let m := (List.range 768).foldl (fun m w => putAll m (s.weaverValues w (s.weaver w))) []
  let m := putAll m (s.cnt.replay.map (fun e => (weaveBase (e.1 / 960 % 4) + 960 + e.1 % 960, e.2)))
  let m := s.links.foldl (fun m l => putAll m ((l.2.counters.filter (fun e => e.1 < 36)).map (fun e => (linkBase (l.1 / 24) + 36 * (l.1 % 24) + e.1, e.2)))) m
  let m := putAll m ((s.net.counters.filter (fun e => e.1 < 32)).map (fun e => (linkBase 0 + 864 + e.1, e.2)))
  let m := putAll m ((s.host.counters.filter (fun e => e.1 < 128)).map (fun e => (hostBase + e.1, e.2)))
  putAll m ((s.cnt.prog.filter (fun e => e.1 < 128)).map (fun e => (progBase + e.1, e.2)))

/-! ### The copy at a named boundary (R543) -/

/-- Some issuer has named a boundary. -/
def State.snapNamed (s : State) (b : Nat) : Bool := decide (b ∈ s.cnt.snaps) || s.parts.any (fun e => decide (b ∈ e.2.snaps))

/-- Copies every counter into bank B mod 2 (R543). -/
def State.copyShadows (s : State) (b : Nat) : State :=
  let copy := fun (_ : Nat) (x : Partition) => if b % 2 = 0 then { x with shadow0 := x.counters } else { x with shadow1 := x.counters }
  let s : State := { s with parts := s.parts.mapAll {} copy }
  if b ∈ s.cnt.snaps then
    let m := s.operValues
    s.onCnt (fun c => if b % 2 = 0 then { c with shadow0 := m } else { c with shadow1 := m })
  else s

/-! ### The records (R544, R546) -/

/-- Value of a counter in a record: exact, or with the spine lost a half's share of it (R544, R546). -/
def snapValue (free : Nat) (partial_ : Bool) (m : SMap Nat) (k : Nat) : Nat :=
  if partial_ then (Config.halfCount (free + k)).toNat else m.look 0 k

/-- A partition snapshot record, 576 B (R544). -/
def State.snapRecord (s : State) (p b : Nat) (partial_ : Bool) : List U64 :=
  let x := s.part p
  let m := if b % 2 = 0 then x.shadow0 else x.shadow1
  BitVec.ofNat 64 (x.snapSeq % 2 ^ 32 + b2n partial_ * 2 ^ 32) :: BitVec.ofNat 64 b :: List.replicate 6 0 ++
    (List.range 64).map (fun k => BitVec.ofNat 64 (if 34 ≤ k && k ≤ 47 then 0 else snapValue s.free partial_ m k))

/-- Writes a snapshot record into a partition's ring, its first word last; none without a ring or where the ring does not
translate (R544). -/
def State.putSnap (s : State) (p at_ : Nat) (rec_ : List U64) : Option State :=
  match s.writePva p (at_ + 8) (wordBytes (rec_.drop 1)) with
  | none => none
  | some s => s.writePva p at_ (wordBytes (rec_.take 1))

/-- Writes the record of a partition whose owner named B, word 0 last, or counts it lost (R544). With the spine lost the
reader of each half forms one, and that of the reader whose half does not hold the ring is lost (R546). -/
def State.writeSnap (s : State) (p b : Nat) (partial_ : Bool) : State :=
  let x := s.part p
  let rec_ := s.snapRecord p b partial_
  let s := s.onPart p (fun x => { x with snaps := x.snaps.filter (· ≠ b) })
  let s := if partial_ then s.countOf p 27 1 else s
  let s := match x.snapRing with
    | none => s.countOf p 27 1
    | some ring => match s.putSnap p (ring.1 + 576 * (x.snapSeq % 2 ^ ring.2)) rec_ with
      | none => s.countOf p 27 1
      | some t => t.onPart p (fun x => { x with snapSeq := (x.snapSeq + 1) % 2 ^ 32 })
  if partial_ then { s with free := s.free + 64 } else s

/-- Keeps the operator snapshot of B; the ring holds the 8 newest (R545). -/
def State.keepSnap (s : State) (b : Nat) (partial_ : Bool) : State :=
  let m := if b % 2 = 0 then s.cnt.shadow0 else s.cnt.shadow1
  let share := (List.range snapValues).map (fun k => (k, snapValue s.free true [] k))
  let m := if partial_ then putAll [] share else m
  let s : State := if partial_ then { s with free := s.free + snapValues } else s
  let s := s.onCnt (fun c => { c with
    snaps := c.snaps.filter (· ≠ b)
    ring := ((b, c.seq, partial_, m) :: c.ring).take 8
    seq := c.seq + 1 })
  s.each [0, 1] (fun s h => s.metaWrite h (8 * snapValues))

/-- SNAPSHOT_RECORD_WRITE (R544, R546): in round B + 2 the records of a snapshot boundary are written. With the spine lost
they are partial. -/
def execSnapshotRecordWrite (b : Nat) (s : State) : Host.Outcome State Fault Refusal :=
  if s.now < b + 2 then .next s else
  let lost : Bool := s.auth.lease0.spineLost || s.auth.lease1.spineLost
  let owners := (s.parts.filter (fun e => decide (b ∈ e.2.snaps))).map (·.1)
  let s := s.each owners (fun s p => s.writeSnap p b lost)
  .next (if b ∈ s.cnt.snaps then s.keepSnap b lost else s)

end Sys2Proof.Machine
end

