-- ==== Sys2Proof/Machine/Links.lean ====
section
/-! DEFINITION. Porward links: training, packets and their acknowledgement, failure and width (R360 to R383), and what a
router does with a packet that it has accepted (R389 to R398, R406). -/
namespace Sys2Proof.Machine

/-! ### Numbers and small operations -/

/-- Counters of a link (R383, R389). -/
def lcUncorr : Nat := 17
/-- CRC_FAIL. -/
def lcCrcFail : Nat := 26
/-- NAK_SENT. -/
def lcNakSent : Nat := 27
/-- NAK_RCVD. -/
def lcNakRcvd : Nat := 28
/-- REPLAY_PKT. -/
def lcReplay : Nat := 29
/-- CTRL_BAD. -/
def lcCtrlBad : Nat := 30
/-- TRAIN_RSVD. -/
def lcTrainRsvd : Nat := 31
/-- DOWN. -/
def lcDown : Nat := 32
/-- RETRAIN. -/
def lcRetrain : Nat := 33
/-- TRAIN_FAIL. -/
def lcTrainFail : Nat := 34
/-- STRANGER_SPOOF. -/
def lcSpoof : Nat := 35

/-- Lanes in a mask. -/
def litCount (m : BitVec 8) : Nat := ((List.range 8).filter (fun i => m.getLsbD i)).length

/-- Sequence number a is at or before b, modulo 65,536 (R373). -/
def seqLe (a b : Nat) : Bool := decide ((b + 65536 - a % 65536) % 65536 < 32768)

/-- The link takes a state; STATE_ROUND is the boundary from which the record shows it (R382). -/
def State.setLink (s : State) (l : Nat) (st : LState) : State :=
  s.onLink l (fun x => { x with st := st, stateRound := s.now + 1 })

/-- This device's flooded state has changed (R399). -/
def State.touchFlood (s : State) : State := s.onNet (fun n => { n with stale := true, staleFrom := s.now })

/-- A link goes out of every table entry at once (R398). -/
def State.dropLinkRoutes (s : State) (l : Nat) : State :=
  s.onNet (fun n => { n with routes := n.routes.mapAll {} (fun _ (r : Route) =>
    { r with min := r.min &&& ~~~((1 : BitVec 48) <<< l)
             escU := r.escU.filter (· ≠ l)
             escD := r.escD.filter (· ≠ l) }) })

/-- A link is declared DOWN: it loses its replay and receive buffers, its router stops using it, and it returns to DARK,
or to HOLD after the eighth time within 4,096 rounds (R376, R377, R398). -/
def State.linkDown (s : State) (l cause : Nat) : State :=
  let x := s.link l
  if !x.trainedUp then s else
  let s := if cause = 1 || cause = 2 || cause = 7 then s else s.emit (.control l 8 cause)
  let s := s.countLink l lcDown
  let downs := x.downs.filter (fun r => decide (s.now < r + 4096)) ++ [s.now]
  let hold := decide (8 ≤ downs.length)
  let s := s.onLink l (fun x =>
    { st := if hold then .hold else .dark, downCause := cause, stateRound := s.now + 1, downs := downs, holdFrom := s.now,
      delay := x.delay, peerEp := x.peerEp, peerClass := x.peerClass, peerLink := x.peerLink, counters := x.counters,
      widened := x.widened, lit := x.lit })
  let s := s.onRnd (fun r => { r with hops := r.hops.put 0 l 0 })
  let s := (s.dropLinkRoutes l).touchFlood
  if hold then s.event evLink l 2 else s

/-! ### Sending again (R373, R374, R379) -/

/-- Sends again every packet of the replay buffer from a SEQ on; a packet sent an eighth time declares the link DOWN
(R374). -/
def State.resend (s : State) (l : Nat) (t : Nat → Bool) : State :=
  let x := s.link l
  let hit := x.replay.filter (fun e => t e.1)
  if hit.any (fun e => decide (7 ≤ e.2.2)) then s.linkDown l 3 else
  let s := s.onLink l (fun x => { x with
    replay := x.replay.map (fun e => if t e.1 then (e.1, e.2.1, e.2.2 + 1) else e), dirty := true })
  s.each hit (fun s e => (s.countLink l lcReplay).emit (.packet l e.1 e.2.1))

/-- An acknowledgement frees every packet up to a SEQ (R374). -/
def State.acked (s : State) (l seq : Nat) : State :=
  s.onLink l (fun x => { x with replay := x.replay.filter (fun e => !seqLe e.1 seq) })

/-- Sends a NAK with the expected SEQ (R373). -/
def State.sendNak (s : State) (l : Nat) : State :=
  ((s.onLink l (fun x => { x with naking := true, dirty := true })).countLink l lcNakSent).emit (.control l 3 (s.link l).expect)

/-- Returns the credits of a packet that has left an input (R392). -/
def State.returnCredit (s : State) (l vc units : Nat) : State := s.emit (.control l 4 (vc + (units + 1) * 8))

/-! ### Policers and rank budgets (R420, R421, R427 to R432) -/

/-- What a policer makes of a request. -/
inductive Colour where
  | green | yellow
  | red (retry : Nat)
  | spent
  deriving DecidableEq, Repr

/-- Policed length of a request (R427). -/
def policedLen (p : Packet) : Nat :=
  if 1 ≤ p.opcode && p.opcode ≤ 4 then 48 + 64 * (p.seq % 32) else 48 + 64 * p.units

/-- Charge of a request against its rank's budget (R430). -/
def chargeOf (p : Packet) : Nat :=
  if 1 ≤ p.opcode && p.opcode ≤ 4 then 64 * (p.seq % 32)
  else if p.opcode = 0x05 then 64 * (p.units - p.opflags / 2 % 2)
  else if p.opcode = 0x06 then 64 else 0

/-- The colour of a request, and the policer after it (R428, R429, R431). -/
def Policer.colour (x : Policer) (len : Nat) (excess : Bool) : Colour × Policer :=
  if x.cir.isNone then (if excess then .spent else .green, x)
  else if excess && !x.aware then (.spent, x)
  else
    let take := fun (n : Nat) => if x.pir.isNone then n else n - len
    if x.pir.isSome && decide (x.tp < len) then
      (.red (min 2047 (max 1 (ceilDiv (len - x.tp) (x.pir.getD 1)))), x)
    else if excess || x.tc < len then (.yellow, { x with tp := take x.tp })
    else (.green, { x with tp := take x.tp, tc := x.tc - len })

/-- The effective budget of a rank at memory scale m, from its budget B (R432, R527). -/
def effectiveBudget (m b : Nat) : Nat := if m < 16 then max (min b 1088) (b * m / 16) else b

/-- Bytes per round that stand for the budget of an unlimited rank (R527). -/
def RoundSt.wholeBudget (r : RoundSt) : Nat := 4800000 * r.micros

/-- A rank's remainder on a link die; none where nothing limits it (R431, R527). An unlimited rank's entry counts down from
the scaled budget of R527. -/
def State.remainder (s : State) (b : Budget) : Option Int :=
  if b.bytes ≠ 0 then some b.rem
  else if s.power.budgetM < 16 then some ((effectiveBudget s.power.budgetM s.rnd.wholeBudget : Int) + b.rem)
  else none

/-- Polices a request on a link die: counts its colour, charges its rank and answers why it is refused, with the
retry-after, if it is (R427 to R431, R434). -/
def State.police (s : State) (ld : Nat) (p : Packet) : Option Nat × State :=
  let x := s.part p.part
  let key := p.srcRank * 2 + ld
  let b := x.budgets.look {} key
  let left := s.remainder b
  let c := (x.policers.look {} ld).colour (policedLen p) (left.any (fun n => decide (n ≤ 0)))
  let s := s.onPart p.part (fun x => { x with policers := x.policers.put {} ld c.2 })
  let policed := (x.policers.look {} ld).cir.isSome
  let charge := fun (s : State) => if left.isNone then s else
    s.onPart p.part (fun x => { x with budgets := x.budgets.mod {} key (fun b => { b with rem := b.rem - (chargeOf p : Int) }) })
  match c.1 with
  | .green => (none, charge (if policed then s.countOf p.part 21 1 else s))
  | .yellow => (none, charge (s.countOf p.part 22 1))
  | .red n => (some n, s.countOf p.part 23 1)
  | .spent => (some 1, s.countOf p.part 24 1)

/-! ### The network interface (R390, R403, R407 to R412, R416, R502) -/

/-- An opcode that R387 defines, under the kind of key the packet carries. -/
def definedOp (p : Packet) : Bool :=
  if p.keyId = 15 then decide (0xC2 ≤ p.opcode) && decide (p.opcode ≤ 0xC7) && p.opcode != 0xC3
  else (decide (1 ≤ p.opcode) && decide (p.opcode ≤ 8)) || (decide (0x40 ≤ p.opcode) && decide (p.opcode ≤ 0x4F)) ||
    (decide (0x80 ≤ p.opcode) && decide (p.opcode ≤ 0x85)) || p.opcode == 0xC0 || p.opcode == 0xC1 || p.opcode == 0xC3

/-- Reserved bits of a header that its class leaves (R385). -/
def headerRsvd (p : Packet) : Bool := p.rsvd || (p.cls != 1 && (p.status != 0 || p.load != 0))

/-- The generation under which a KEY_ID is accepted: G, or G − 1 while that stays acceptable (R390, R475). -/
def Partition.genOf (x : Partition) (k : Nat) : Option Nat :=
  match x.gen with
  | none => none
  | some g => if k = g % 15 then some g else if x.prevGen && 0 < g && k = (g - 1) % 15 then some (g - 1) else none

/-- A packet answers a read of the migration engine, under a peer's key (R127, R415, R478). -/
def State.fromPeer (s : State) (p : Packet) : Bool :=
  p.cls == 1 && s.net.out.any (fun q => q.tag = p.tag && q.pkt.dstEp = p.srcEp &&
    (s.part q.part).peerKeys.any (fun k => k.2.loaded && k.2.ep = p.srcEp && k.2.part = p.part && k.2.gen % 15 = p.keyId))

/-- The anti-replay window of a sender and key. -/
def State.replayWin (s : State) (p : Packet) (g : Nat) : Option ReplayWin :=
  s.net.windows.find? (fun w => w.part = p.part && w.ep = p.srcEp && w.rank = p.srcRank && w.gen = g)

/-- Check 4 of R390: the counter lies below the flow's reset threshold, was seen, or lies below the window. -/
def State.replayed (s : State) (p : Packet) (g : Nat) : Bool :=
  decide (p.pktCtr + 1 < (s.flow (flowOf p)).threshold) || (match s.replayWin p g with
    | none => false
    | some w => decide (p.pktCtr + 64 ≤ w.high) || decide (p.pktCtr ∈ w.seen))

/-- Records a counter in its window, and the generation that the endpoint has used (R390, R475). -/
def State.noteCtr (s : State) (p : Packet) (g : Nat) : State :=
  let old := (s.replayWin p g).getD { part := p.part, ep := p.srcEp, rank := p.srcRank, gen := g }
  let high := max old.high p.pktCtr
  let new := { old with high := high, seen := (old.seen.filter (fun c => decide (high < c + 64))) ++ [p.pktCtr] }
  let rest := s.net.windows.filter (fun w => !(w.part = p.part && w.ep = p.srcEp && w.rank = p.srcRank && w.gen = g))
  let s := s.onNet (fun n => { n with windows := rest ++ [new] })
  s.onPart p.part (fun x => { x with
    genUsed := if x.genUsed.look 0 p.srcEp ≤ g then x.genUsed.put 0 p.srcEp (g + 1) else x.genUsed
    ctrHigh := x.ctrHigh || (x.gen == some g && decide (2 ^ 31 ≤ p.pktCtr)) })

/-- Answers a packet that executed nothing: the answer is not kept, and the request counts as performed (R407, R429). -/
def State.turnAway (s : State) (ld : Nat) (p : Packet) (op : Nat) (st : Status) (retry : Nat) : State :=
  let s := if st = .notReady then s.ownerEvent p.part 0x00B false 1 else s
  let s := if p.cls = 0 && !p.flag then s.performed ld p else s
  s.originate p.part ld { cls := 1, opcode := op, status := st.code, part := p.part, tag := p.tag, srcEp := s.rnd.endpoint,
                          dstEp := p.srcEp, word2 := retry }

/-- A doorbell write of an agent: the window, then the doorbell (R69, R122, R236). -/
def State.agentDoorbell (s : State) (ld : Nat) (p : Packet) : State :=
  let w := s.window (p.word2 % 4096)
  let off := p.word2 / 4096 % 2 ^ 48
  let r : Status × State :=
    if !w.valid || w.part ≠ p.part then (.perm, s)
    else if p.srcRank < w.rankLo || w.rankHi < p.srcRank then (.perm, s)
    else if w.len < off + 8 then (.range, s)
    else if !w.db then (.perm, s)
    else s.doorbell p.part (w.pvaBase + off) (BitVec.ofNat 64 (ofBytes (p.payload.take 8)))
  r.2.sendReply p.part ld { cls := 1, opcode := if r.1 = .ok then opCmp else opErr, status := r.1.code, part := p.part,
                            tag := p.tag, srcEp := s.rnd.endpoint, dstEp := p.srcEp }

/-- A request is delivered: a doorbell is applied; any other waits at the interface for its execution (R407). -/
def State.deliver (s : State) (ld : Nat) (p : Packet) : State :=
  let s := s.onNet (fun n => { n with ni := n.ni ++ [p] })
  let s := if seqOpcode p.opcode then s.onFlow (flowOf p) (fun x => { x with executing := x.executing ++ [p.seq] }) else s
  if p.opcode = 0x07 then s.agentDoorbell ld p else s

/-- A flagged request is delivered: the expected epoch inverts (R409, R410). -/
def State.deliverFlagged (s : State) (p : Packet) : State :=
  let f := flowOf p
  let s := s.onFlow f (fun x => { x with
    epoch := !x.epoch, cur := x.other, other := 0, park := none, waitFrom := none })
  let s := s.onNet (fun n => { n with waitFlows := n.waitFlows.filter (fun e => e.2 ≠ f) })
  s.deliver (s.flowHome f.src f.part) p

/-- Entries of a flag park in use (R410). -/
def State.parked (s : State) (ld : Nat) : Nat :=
  (s.net.flows.filter (fun x => x.park.isSome && s.flowHome x.id.src x.id.part = ld)).length

/-- A flagged request arrives: delivered at once, parked, or turned away to wait in the list of flows (R410, R411). -/
def State.flagged (s : State) (p : Packet) : State :=
  let f := flowOf p
  let ld := s.flowHome f.src f.part
  let x := s.flow f
  if x.park.isSome then s
  else if p.aux ≤ x.cur then s.deliverFlagged p
  else
    let s := s.onFlow f (fun x => { x with waitFrom := some (x.waitFrom.getD s.now) })
    let first := match s.net.waitFlows.find? (fun e => e.1 = ld) with
      | none => true
      | some e => e.2 = f
    if s.parked ld < 63 || (s.parked ld = 63 && first) then
      (s.onNet (fun n => { n with waitFlows := n.waitFlows.filter (fun e => e.2 ≠ f) })).onFlow f (fun x =>
        { x with park := some (p, x.waitFrom.getD s.now) })
    else
      let mine := s.net.waitFlows.filter (fun e => e.1 = ld)
      let s := if mine.any (fun e => e.2 = f) then s
        else
          let youngest := mine.getLast?
          let s := if 256 ≤ mine.length then
              match youngest with
              | some y => (s.onNet (fun n => { n with waitFlows := n.waitFlows.filter (· ≠ y) })).onFlow y.2 (fun x =>
                  { x with waitFrom := none })
              | none => s
            else s
          s.onNet (fun n => { n with waitFlows := n.waitFlows ++ [(ld, f)] })
      s.turnAway ld p opNack .busyRetry 1

/-- A control instruction that reaches a half which is fenced, or an isolated subordinate, is not executed; its result is FENCED
(R36, R58, R301). -/
def State.fencedResult (s : State) (ld : Nat) (p : Packet) : State :=
  let i : Issuer := .owner (Fin.ofNat 64 p.part)
  (s.deliver ld p).sendReply p.part ld
    { cls := 3, opcode := 0xC1, part := p.part, tag := p.tag, srcEp := s.rnd.endpoint, dstEp := p.srcEp, units := 1,
      payload := wordBytes (resultOf i { words := bytesWords 32 p.payload } .fenced []).words }

/-- A request or control packet that has passed the checks of R390: RESET_WAIT, the policer, the reply cache, then
delivery; outside SERVICE and while a warm reset quiesces a request is not ready (R407 to R416, R427, R502, R554,
R560). -/
def State.receive (s : State) (ld : Nat) (p : Packet) : State :=
  let f := flowOf p
  let s := s.onFlow f (fun x => { x with last := s.now })
  let x := s.flow f
  if p.cls = 0 && x.resetWait then
    (if p.flag then s.turnAway ld p opErr .flagTimeout 0 else s)
  else
  let pol := if p.cls = 0 then s.police ld p else (none, s)
  let s := pol.2
  match pol.1 with
  | some n => s.turnAway ld p opErr .notReady n
  | none =>
    let old := if seqOpcode p.opcode then x.cache.find? (fun e => e.1 = p.seq) else none
    match old with
    | some e => s.originate p.part ld e.2
    | none =>
      if seqOpcode p.opcode && decide (p.seq ∈ x.executing) then s
      else if seqOpcode p.opcode && x.highSeq ≠ 0 && decide (64 < (x.highSeq - 1 + 65536 - p.seq) % 65536) &&
          decide ((x.highSeq - 1 + 65536 - p.seq) % 65536 < 32768) then s.countNet 9
      else if !s.admits && p.cls = 0 then s.turnAway ld p opErr .notReady 2047
      else if p.flag then s.flagged p
      else if p.opcode = 0xC0 then
        if s.barred ld then s.fencedResult ld p
        else if (s.lease 0).st = .pending || (s.lease 1).st = .pending then s.turnAway ld p opErr .busyRetry 0
        else (s.deliver ld p).enqueue (.owner (Fin.ofNat 64 p.part)) { words := bytesWords 32 p.payload }
      else if p.cls = 0 || p.opcode = 0xC3 then s.deliver ld p
      else s

/-- Checks 5 to 9 of R390, once the rank's entry is at the link die. -/
def State.rankChecked (s : State) (ld : Nat) (p : Packet) : State :=
  let k := s.rank p.part p.srcRank
  if !k.valid || k.ep ≠ p.srcEp then s.countNet 4
  else
    let refuse := fun (st : Status) => if p.cls = 1 then s else s.turnAway ld p opErr st 0
    if k.dead then refuse .deadAgent
    else if headerRsvd p then refuse .rsvdNonzero
    else if !definedOp p then refuse .unsupported
    else if p.cls = 1 && (p.opcode = opDataNc || p.opcode = opCmp || p.opcode = opErr || p.opcode = opAtomRsp) then s.countNet 8
    else if p.cls = 1 || p.cls = 2 then s
    else s.receive ld p

/-- The rank caches hold 4,096 entries each (R403). -/
def State.cacheRank (s : State) (ld p rank : Nat) : State :=
  s.onNet (fun n =>
    let e := (ld, p, rank)
    let mine := n.rankCache.filter (fun c => c.1 = ld && c ≠ e)
    let rest := n.rankCache.filter (fun c => c.1 ≠ ld)
    { n with rankCache := (e :: mine).take 4096 ++ rest })

/-- The miss queue of a link die is full, and the packet's channel is one on which credits are withheld (R403). -/
def State.missFull (s : State) (ld : Nat) (p : Packet) : Bool :=
  decide (256 ≤ (s.net.missQ.filter (fun e => e.1 = ld)).length) && (p.cls == 0 || p.cls == 2) && !p.esc

/-- A slice without a free credit withholds request credits from the link dies: a new request, which has no retry token,
waits at its input while one waits for a credit (R225). -/
def State.creditHeld (s : State) (p : Packet) : Bool :=
  p.cls == 0 && !p.esc && (p.aux == 0 || p.flag) && s.net.parked.any (fun q => q.credit)

/-- A packet reaches the network interface of this device on a link die: checks 1 to 4 of R390, then those of its rank,
at once or when a miss of the rank cache is served; none while the miss queue holds it back (R390, R403, R477). -/
def State.interface (s : State) (ld : Nat) (p : Packet) : Option State :=
  if p.opcode / 64 ≠ p.cls || 16 < p.units || !p.lenOk || (p.flag && p.cls ≠ 0) then some (s.countNet 0)
  else if 0xC4 ≤ p.opcode && p.opcode ≤ 0xC7 && p.keyId = 15 then some (if p.auth then s else s.countNet 2)
  else if p.keyId = 15 then
    if p.opcode ≠ 0xC2 || !(s.part p.part).live then some (s.countNet 1)
    else some (if !p.auth then s.countNet 2 else s)
  else if s.fromPeer p then some (if p.auth then s else s.countNet 2)
  else
    match (if (s.part p.part).live then (s.part p.part).genOf p.keyId else none) with
    | none => some (s.countNet 1)
    | some g =>
      if !p.auth then some (s.countNet 2)
      else if s.replayed p g then some (s.countNet 3)
      else if s.creditHeld p then none
      else if (ld, p.part, p.srcRank) ∈ s.net.rankCache then some ((s.noteCtr p g).rankChecked ld p)
      else if s.missFull ld p then none
      else some ((s.noteCtr p g).onNet (fun n => { n with missQ := n.missQ ++ [(ld, p.part, p.srcRank, p)] }))

/-! ### The router (R389, R391 to R398, R406) -/

/-- Combines an answer to a multicast invalidation that this router forwarded; once every branch has answered, the
combined MC_ACK leaves toward the origin (R406). -/
def State.sendMcAck (s : State) (w : McWait) : State :=
  let rest := s.net.mcWait.filter (fun x => !(x.origin = w.origin && x.group = w.group && x.line = w.line))
  let s := s.onNet (fun n => { n with mcWait := rest })
  s.launch { cls := 1, opcode := 0x4F, part := w.part, srcEp := s.rnd.endpoint, dstEp := w.origin, units := 1,
             word2 := w.line * 4096, payload := toBytes 64 w.mask.toNat }

/-- An answer on a link is one that this router combines. -/
def State.mcBranch (s : State) (l : Nat) (p : Packet) : Option McWait :=
  if p.cls = 1 && (p.opcode = 0x44 || p.opcode = 0x4F) then
    s.net.mcWait.find? (fun w => w.origin = p.dstEp && w.line = p.word2 / 4096 && w.part = p.part && decide (l ∈ w.left))
  else none

/-- Takes an answer of a branch (R406). -/
def State.mcAnswer (s : State) (l : Nat) (w : McWait) (p : Packet) : State :=
  let new : BitVec 256 := if p.opcode = 0x4F then BitVec.ofNat 256 (ofBytes (p.payload.take 32))
    else 1 <<< (Config.mcBit w.group p.srcRank).val
  let w' := { w with mask := w.mask ||| new, left := setDel w.left l }
  if w'.left.isEmpty then s.sendMcAck w' else
  s.onNet (fun n => { n with mcWait := n.mcWait.map (fun x => if x = w then w' else x) })

/-- A packet that a link has delivered to the router: the entry check of an agent link, then its own interface, a
combination of acknowledgements, or the input that it waits in (R389, R391, R395, R406). -/
def State.route (s : State) (l : Nat) (p : Packet) : State :=
  let vc := 2 * p.cls + b2n p.esc
  let freed := fun (s : State) => s.returnCredit l vc p.units
  if (s.link l).peerClass = 1 && (p.srcEp ≠ (s.link l).peerEp || p.mcast ||
      (p.keyId = 15 && 0xC4 ≤ p.opcode && p.opcode ≤ 0xC7)) then freed (s.countLink l lcSpoof)
  else if p.mcast then
    let outs := s.mcOuts p
    if outs.isEmpty then freed (s.countNet 6)
    else s.onLink l (fun x => { x with inputs := x.inputs ++ [{ vc := vc, round := s.now, pkt := p, outs := outs }] })
  else if (s.routeOf p.dstEp).isLocal || p.dstEp = s.rnd.endpoint then
    match s.interface (l / 24) p with
    | some s => freed s
    | none => s.onLink l (fun x => { x with inputs := x.inputs ++ [{ vc := vc, round := s.now, pkt := p }] })
  else match s.mcBranch l p with
    | some w => freed (s.mcAnswer l w p)
    | none =>
      if s.noRoute p then freed (s.countNet 6)
      else s.onLink l (fun x => { x with inputs := x.inputs ++ [{ vc := vc, round := s.now, pkt := p }] })

/-- LINK_PACKET_RX (R367, R372 to R374, R389 to R391): the packet is accepted and acknowledged, or discarded with a NAK
on the first such discard. -/
def execLinkPacketRx (l : LinkId) (seq : Nat) (ack : Option Nat) (crcOk codewordOk : Bool) (pkt : Packet) (s : State) :
    Host.Outcome State Fault Refusal :=
  let n := l.val
  let x := s.link n
  if !x.trainedUp then .next s
  else if !codewordOk || !crcOk || seq ≠ x.expect then
    let s := if !codewordOk then s.countLink n lcUncorr else if !crcOk then s.countLink n lcCrcFail else s
    let s := s.onLink n (fun x => { x with dirty := x.dirty || !codewordOk || !crcOk })
    .next (if x.naking then s else s.sendNak n)
  else
    let s := match ack with | some a => s.acked n a | none => s
    let s := (s.onLink n (fun x => { x with expect := (x.expect + 1) % 65536, naking := false })).emit (.control n 2 seq)
    let s := s.opEvent 0x10A { cls := some pkt.cls, part := some pkt.part }
    .next (if x.st = .probation then s.returnCredit n (2 * pkt.cls + b2n pkt.esc) pkt.units
      else (s.route n pkt).retryEgress)

/-- Tries to send the oldest packet of a virtual channel of an input onward (R395, R396, R406). -/
def State.forward (s : State) (l : Nat) (e : Input) : State :=
  let gone := fun (s : State) => (s.onLink l (fun x => { x with inputs := x.inputs.erase e })).returnCredit l e.vc e.pkt.units
  if e.pkt.mcast then
    let r := s.mcSend e.pkt e.outs
    if r.1.isEmpty then
      let s := gone r.2
      s.onNet (fun n => { n with mcWait := n.mcWait ++
        [{ origin := e.pkt.srcEp, group := e.pkt.word2 % 4096, line := e.pkt.word2 / 4096 % 2 ^ 40, part := e.pkt.part,
           left := s.mcOuts e.pkt, round := s.now }] })
    else r.2.onLink l (fun x => { x with inputs := x.inputs.map (fun y => if y = e then { y with outs := r.1 } else y) })
  else if (s.routeOf e.pkt.dstEp).isLocal || e.pkt.dstEp = s.rnd.endpoint then
    match s.interface (l / 24) e.pkt with
    | some s => gone s
    | none => s
  else if s.noRoute e.pkt then
    -- an escape packet whose link is gone waits for new tables (R398)
    if e.pkt.esc then s else gone (s.countNet 6)
  else match s.chooseLink e.pkt with
    | some (k, p) => gone (s.linkSend k p)
    | none => s

/-- The oldest packet of a virtual channel of a link's input. -/
def State.oldest (s : State) (l vc : Nat) : Option Input := (s.link l).inputs.find? (fun e => e.vc = vc)

/-- PACKET_FORWARD (R395, R396, R406). -/
def execPacketForward (l : LinkId) (vc : Fin 8) (s : State) : Host.Outcome State Fault Refusal :=
  match s.oldest l.val vc.val with
  | none => .next s
  | some e => .next (s.forward l.val e)

/-- HOP_AGE_DROP (R394): a packet that has waited 8 rounds at the input is discarded. -/
def execHopAgeDrop (l : LinkId) (vc : Fin 8) (s : State) : Host.Outcome State Fault Refusal :=
  match s.oldest l.val vc.val with
  | none => .next s
  | some e =>
    if s.now < e.round + 8 then .next s else
    let s := s.onLink l.val (fun x => { x with inputs := x.inputs.erase e })
    .next ((s.countNet 5).returnCredit l.val e.vc e.pkt.units)

/-! ### Control blocks (R365, R370, R374, R379, R392) -/

/-- A byte joins a CRC-16 of polynomial 0x1021 (R365). -/
def crc16Byte (c : BitVec 16) (b : Byte) : BitVec 16 :=
  (List.range 8).foldl (fun c _ => if c.getLsbD 15 then (c <<< 1) ^^^ 0x1021 else c <<< 1) (c ^^^ (b.setWidth 16 <<< 8))

/-- The CRC-16 of a control block: of its bytes 0 to 13, from 0xFFFF on (R365). -/
def crc16 (block : List Byte) : BitVec 16 := (block.take 14).foldl crc16Byte 0xFFFF

/-- A received control block is taken: its CRC-16 is right and its TYPE defined (R5, R365). -/
def blockOk (block : List Byte) : Bool :=
  ofBytes ((block.drop 14).take 2) == (crc16 block).toNat && decide ((block.getD 0 0).toNat < 9)

/-- IDLE: it carries nothing. A block that is dropped for its CRC-16 or its TYPE has no other effect either, whatever it would
have been, and comes as this command: it is counted (R365, R383). -/
def execIdle (x : CtrlBlock) (s : State) : Host.Outcome State Fault Refusal :=
  .next (if blockOk x.bytes || !((s.link x.link.val).trainedUp || (s.link x.link.val).st == .training) then s else s.countLink x.link.val lcCtrlBad)

/-- ACK (R374). -/
def execAck (l : LinkId) (seq : Nat) (s : State) : Host.Outcome State Fault Refusal :=
  .next (if (s.link l.val).trainedUp then (s.acked l.val seq).retryEgress else s)

/-- NAK (R374): every packet from the SEQ on is sent again, in order. -/
def execNak (l : LinkId) (seq : Nat) (s : State) : Host.Outcome State Fault Refusal :=
  if !(s.link l.val).trainedUp then .next s else
  let s := s.countLink l.val lcNakRcvd
  let s := s.onLink l.val (fun x => { x with dirty := true })
  .next (if (s.link l.val).st = .paused then s else s.resend l.val (fun k => seqLe seq k))

/-- CREDIT (R392). -/
def execCredit (l : LinkId) (vc : Fin 8) (units : Nat) (s : State) : Host.Outcome State Fault Refusal :=
  if !(s.link l.val).trainedUp then .next s else
  .next (s.onLink l.val (fun x => { x with
    credits := x.credits.put 0 vc.val (min x.vcUnits (x.credit vc.val + units)) })).retryEgress

/-- DELAY_REQ (R365, R370): answered with its time stamp. -/
def execDelayReq (l : LinkId) (stamp : U64) (s : State) : Host.Outcome State Fault Refusal :=
  .next (match (s.link l.val).st with
    | .training => s.emit (.control l.val 6 stamp.toNat)
    | .paused => s.emit (.control l.val 6 stamp.toNat)
    | _ => s)

/-- DELAY_RSP (R370): one of 64 samples; the next request follows. -/
def execDelayRsp (l : LinkId) (roundTripPs turnaroundPs : Nat) (s : State) : Host.Outcome State Fault Refusal :=
  let x := s.link l.val
  if !(x.st == .training && x.stage == 5 || x.st == .paused) || 64 ≤ x.samples.length then .next s else
  let s := s.onLink l.val (fun x => { x with samples := x.samples ++ [(roundTripPs - turnaroundPs) / 2] })
  .next (if (s.link l.val).samples.length < 64 then s.emit (.control l.val 5 0) else s)

/-- RETRAIN_REQ (R379): the link pauses for a fast retrain to the new mask. -/
def execRetrainReq (l : LinkId) (mask : BitVec 8) (s : State) : Host.Outcome State Fault Refusal :=
  let x := s.link l.val
  if !x.trainedUp then .next s else
  let m := if x.st = .paused then x.newMask &&& mask else mask
  if litCount m < 4 then .next (s.linkDown l.val 5) else
  let s := if x.st = .paused then s else s.countLink l.val lcRetrain
  .next ((s.onLink l.val (fun x => { x with
    newMask := m, samples := [], dirty := true, prob := x.prob || x.st == .probation })).setLink l.val .paused)

/-- LINK_DOWN (R376). -/
def execLinkDown (l : LinkId) (_cause : Nat) (s : State) : Host.Outcome State Fault Refusal := .next (s.linkDown l.val 6)

/-! ### Training (R370, R371) -/

/-- Training starts, or starts again from its first stage (R370). -/
def State.startTraining (s : State) (l : Nat) : State :=
  (s.onLink l (fun x => { x with
    stage := 1, offered := false, confirmed := false, trained := false, samples := [], lanes := x.lit, peerOffer := none })).setLink l .training

/-- A training has failed: it starts again after 1 ms; after the eighth in a row the link waits for the expiries of
65,536 rounds (R370). -/
def State.trainFailed (s : State) (l : Nat) : State :=
  let n := (s.link l).fails + 1
  let s := (s.onLink l (fun x => { x with fails := n })).countLink l lcTrainFail
  if n < 8 then s.startTraining l else
  let s := (s.onLink l (fun x => { x with slow := true, holdFrom := s.now, stage := 0, offered := false, confirmed := false, lanes := 0 })).setLink l .dark
  if n = 8 then s.event evLink l 1 else s

/-- The block that this device sends (R371). -/
def State.myBlock (s : State) (l : Nat) (confirm : Bool) : TrainBlock :=
  { confirm := confirm, laneMask := (s.link l).lanes, endpoint := s.rnd.endpoint, link := l }

/-- TRAINING_BLOCK (R371): the block is refused, ends in VERSION_MISMATCH, or agrees on protocol and lanes; with an offer
and a confirm received, stage 5 starts. -/
def execTrainingBlock (l : LinkId) (b : TrainBlock) (s : State) : Host.Outcome State Fault Refusal :=
  let n := l.val
  let x := s.link n
  let again := x.st == .versionMismatch && b.crcOk && x.peerOffer != some b
  if !(x.st == .training || again) || x.trained || x.stage = 5 then .next s
  else if !b.crcOk then .next ((s.countLink n lcCtrlBad).trainFailed n)
  else if 1 < max 1 b.majorMin || min 1 b.majorMax < 1 then
    if again then .next (s.onLink n (fun x => { x with peerOffer := some b })) else
    .next (((s.onLink n (fun x => { x with peerOffer := some b, stage := 0 })).setLink n .versionMismatch).event evLink n 5)
  else if b.rsvd || b.vcUnits < 17 || litCount (x.lit &&& b.laneMask) < 4 then
    .next ((s.countLink n lcTrainRsvd).trainFailed n)
  else
    let s := if again then s.startTraining n else s
    let s := s.onLink n (fun x => { x with
      stage := 4, offered := true, confirmed := x.confirmed || b.confirm, peerOffer := some b, major := 1
      minor := if b.majorMax = 1 then min 0 b.minor else 0
      lanes := x.lit &&& b.laneMask, peerEp := b.endpoint, peerClass := b.deviceClass, peerLink := b.link
      vcUnits := b.vcUnits })
    let s := s.emit (.training n (s.myBlock n true))
    .next (if (s.link n).confirmed then (s.onLink n (fun x => { x with stage := 5, samples := [] })).emit (.control n 5 0) else s)

/-- LIGHT_DETECT (R370): light on 4 or more lanes starts training. -/
def execLightDetect (l : LinkId) (lanes : BitVec 8) (s : State) : Host.Outcome State Fault Refusal :=
  let s := s.onLink l.val (fun x => { x with lit := lanes })
  let x := s.link l.val
  if x.st = .dark && !x.slow && 4 ≤ litCount lanes then
    let s := s.startTraining l.val
    .next (s.emit (.training l.val (s.myBlock l.val false)))
  else .next s

/-- TRAINING_STAGE_TIMEOUT (R370). -/
def execTrainingStageTimeout (l : LinkId) (s : State) : Host.Outcome State Fault Refusal :=
  let x := s.link l.val
  .next (if x.st = .training && !x.trained then s.trainFailed l.val else s)

/-- The median of some samples: the mean of the two in the middle (R370). -/
def median (l : List Nat) : Nat :=
  let ins := fun (m : List Nat) (k : Nat) => m.filter (· ≤ k) ++ [k] ++ m.filter (fun a => decide (k < a))
  let m := l.foldl ins []
  (m.getD ((m.length - 1) / 2) 0 + m.getD (m.length / 2) 0) / 2

/-- TRAINING_COMPLETE (R47, R370): the delay is measured; the link enters PROBATION at the next boundary. -/
def execTrainingComplete (l : LinkId) (s : State) : Host.Outcome State Fault Refusal :=
  let x := s.link l.val
  if x.st = .training && x.stage = 5 && x.samples.length = 64 then
    .next (s.onLink l.val (fun x => { x with
      trained := true, fails := 0, slow := false, stage := 0, delay := min 511 (median x.samples / 1000), samples := [] }))
  else .next s

/-- TRAINING_RETRY (R370): a link that has failed eight times in a row tries again. -/
def execTrainingRetry (l : LinkId) (s : State) : Host.Outcome State Fault Refusal :=
  let x := s.link l.val
  if x.st = .dark && x.slow && x.holdFrom + 65536 ≤ s.now && 4 ≤ litCount x.lit then
    let s := s.startTraining l.val
    .next (s.emit (.training l.val (s.myBlock l.val false)))
  else .next s

/-- LINK_UP (R372): at the boundary after the fourth consecutive clean round. -/
def execLinkUp (l : LinkId) (s : State) : Host.Outcome State Fault Refusal :=
  let x := s.link l.val
  if x.st = .probation && 4 ≤ x.clean then
    .next (s.onLink l.val (fun x => { x with st := .up, stateRound := s.now })).touchFlood
  else .next s

/-! ### Loss, width and hold (R374, R376 to R381) -/

/-- REPLAY_TIMEOUT (R374). -/
def execReplayTimeout (l : LinkId) (s : State) : Host.Outcome State Fault Refusal :=
  let x := s.link l.val
  .next (if (x.st = .up || x.st = .probation) && !x.replay.isEmpty then s.resend l.val (fun _ => true) else s)

/-- NAK_RESEND (R373). -/
def execNakResend (l : LinkId) (s : State) : Host.Outcome State Fault Refusal :=
  .next (if (s.link l.val).trainedUp && (s.link l.val).naking then s.sendNak l.val else s)

/-- LOSS_OF_LIGHT (R369, R371, R376): with light on fewer than 4 lanes the link is declared DOWN, and a training ends. -/
def execLossOfLight (l : LinkId) (lanes : BitVec 8) (s : State) : Host.Outcome State Fault Refusal :=
  let s := s.onLink l.val (fun x => { x with lit := lanes })
  if 4 ≤ litCount lanes then .next s else
  let x := s.link l.val
  if x.trainedUp then .next (s.linkDown l.val 1)
  else if x.st = .training || x.st = .versionMismatch then
    .next ((s.onLink l.val (fun x => { x with stage := 0, offered := false, confirmed := false, trained := false, lanes := 0 })).setLink l.val .dark)
  else .next s

/-- HEARTBEAT_TIMEOUT (R376). -/
def execHeartbeatTimeout (l : LinkId) (s : State) : Host.Outcome State Fault Refusal := .next (s.linkDown l.val 2)

/-- The link asks for a fast retrain to a mask (R379). -/
def State.askRetrain (s : State) (l : Nat) (m : BitVec 8) : State :=
  let x := s.link l
  let s := if x.st = .paused then s else s.countLink l lcRetrain
  ((s.onLink l (fun x => { x with newMask := m, samples := [], prob := x.prob || x.st == .probation })).setLink l .paused).emit
    (.control l 7 m.toNat)

/-- LANE_FAULT (R376, R378 to R380): the link narrows, or is declared DOWN where fewer than 4 lanes would be left. A fault
of a lane already removed restarts its count. -/
def execLaneFault (l : LinkId) (lane : Fin 8) (s : State) : Host.Outcome State Fault Refusal :=
  let n := l.val
  let x := s.link n
  let cur := if x.st = .paused then x.newMask else x.lanes
  if !x.trainedUp then .next s
  else if !cur.getLsbD lane.val then .next (s.onLink n (fun x => { x with laneClean := x.laneClean.put 0 lane.val 0 }))
  else
    let m := cur &&& ~~~((1 : BitVec 8) <<< lane.val)
    if litCount m < 4 then .next (s.linkDown n 5) else
    .next ((s.onLink n (fun x => { x with
      removed := x.removed ||| (1 <<< lane.val), laneClean := x.laneClean.put 0 lane.val 0, dirty := true })).askRetrain n m)

/-- FAST_RETRAIN_DONE (R368, R379): the link is UP at its new width, and asks for what was lost. -/
def execFastRetrainDone (l : LinkId) (delayNs : Nat) (s : State) : Host.Outcome State Fault Refusal :=
  let n := l.val
  let x := s.link n
  if x.st ≠ .paused then .next s else
  let s := (s.onLink n (fun x => { x with
    lanes := x.newMask, removed := x.removed &&& ~~~x.newMask, delay := min 511 delayNs, samples := [], prob := false
    newMask := 0 })).setLink n (if x.prob then .probation else .up)
  let s := s.sendNak n
  let s := s.onLink n (fun y => { y with naking := x.naking })
  .next (if x.lanes = x.newMask then s else s.event evLink n 3).retryEgress

/-- RETRAIN_TIMEOUT (R376). -/
def execRetrainTimeout (l : LinkId) (s : State) : Host.Outcome State Fault Refusal :=
  .next (if (s.link l.val).st = .paused then s.linkDown l.val 4 else s)

/-- LANE_RESTORE (R380): a removed lane clean for 4,096 rounds comes back, at most once in 65,536 rounds. -/
def execLaneRestore (l : LinkId) (lane : Fin 8) (s : State) : Host.Outcome State Fault Refusal :=
  let n := l.val
  let x := s.link n
  if x.st = .up && x.removed.getLsbD lane.val && 4096 ≤ x.laneClean.look 0 lane.val &&
      (x.widened = 0 || x.widened - 1 + 65536 ≤ s.now) then
    .next ((s.onLink n (fun x => { x with widened := s.now + 1 })).askRetrain n (x.lanes ||| (1 <<< lane.val)))
  else .next s

/-- HOLD_EXPIRY (R377). -/
def execHoldExpiry (l : LinkId) (s : State) : Host.Outcome State Fault Refusal :=
  let x := s.link l.val
  .next (if x.st = .hold && x.holdFrom + 65536 ≤ s.now then (s.onLink l.val (fun x => { x with downs := [] })).setLink l.val .dark else s)

/-- The four links of an optical engine fail until the next device reset (R381). -/
def State.failLink (s : State) (l cause : Nat) : State :=
  let s := s.persistChange.linkDown l cause
  (s.onLink l (fun x => { x with stage := 0, trained := false, lanes := 0, downCause := cause })).setLink l .failed

/-- ENGINE_FAILED (R381). -/
def execEngineFailed (oe : Fin 12) (s : State) : Host.Outcome State Fault Refusal :=
  .next (s.each (nums (4 * oe.val) 4) (fun s l => s.failLink l 8))

end Sys2Proof.Machine
end

