-- ==== Sys2Proof/Machine/Fabric.lean ====
section
/-! DEFINITION. Fabric events: mailbox puts of agents, flows and their flags, route tables, multicast trees and combined
acknowledgements, the rank cache, transport timeouts and the loss of a link die (R22, R399 to R417, R457). -/
namespace Sys2Proof.Machine

/-! ### Requests of agents -/

/-- MBX_PUT (R387, R456, R457): the message enters its channel or is refused; an agent's put is its partition's. -/
def execMbxPut (p : PartId) (rank tag channel len : Nat) (words : List U64) (s : State) :
    Host.Outcome State Fault Refusal :=
  if !(s.part p.val).live then .next s else
  let ep := (s.rank p.val rank).ep
  let r := s.mbxPut (idPart p.val) channel p.val len words
  .next (r.2.sendReply p.val (s.flowHome ep p.val)
    { cls := 1, opcode := if r.1 = .ok then opCmp else opErr, status := r.1.code, part := p.val, tag := tag,
      srcEp := s.rnd.endpoint, dstEp := ep })

/-! ### Flows (R409 to R413) -/

/-- FLOW_RESET (R412): the flow starts again above the threshold, and CMP answers. -/
def execFlowReset (f : FlowId) (pktCtr tag : Nat) (s : State) : Host.Outcome State Fault Refusal :=
  if !(s.part f.part).live then .next s else
  let s := s.onFlow f (fun x => { x with
    threshold := pktCtr + 1, epoch := false, cur := 0, other := 0, resetWait := false, park := none, waitFrom := none
    last := s.now })
  let s := s.onNet (fun n => { n with
    waitFlows := n.waitFlows.filter (fun e => e.2 ≠ f), notices := n.notices.filter (fun e => e.1 ≠ f) })
  .next (s.sendReply f.part (s.flowHome f.src f.part)
    { cls := 1, opcode := opCmp, part := f.part, tag := tag, srcEp := s.rnd.endpoint, dstEp := f.src })

/-- FLOW_COUNT_NOTICE (R409): notices of requests that the other link die performed reach the flow home. -/
def execFlowCountNotice (f : FlowId) (epoch : Bool) (n : Nat) (s : State) : Host.Outcome State Fault Refusal :=
  let mine := (s.net.notices.filter (fun e => e.1 = f && e.2.1 = epoch)).take n
  let s := s.onNet (fun k => { k with notices := mine.foldl List.erase k.notices })
  .next (s.each mine (fun s _ => s.onFlow f (fun x => x.perform epoch)))

/-- FLAGGED_REQUEST_DELIVER (R410): a parked request whose count has been reached. -/
def execFlaggedRequestDeliver (f : FlowId) (s : State) : Host.Outcome State Fault Refusal :=
  match (s.flow f).park with
  | none => .next s
  | some (p, _) => .next (if p.aux ≤ (s.flow f).cur then s.deliverFlagged p else s)

/-- The flag wait of a flow ends without its count (R411). -/
def State.flagExpire (s : State) (f : FlowId) : State :=
  let parked := (s.flow f).park
  let s := s.onFlow f (fun x => { x with park := none, waitFrom := none, resetWait := true })
  let s := s.onNet (fun n => { n with waitFlows := n.waitFlows.filter (fun e => e.2 ≠ f) })
  let s := s.countOf f.part 7 1
  match parked with
  | some (p, _) => s.turnAway (s.flowHome f.src f.part) p opErr .flagTimeout 0
  | none => s

/-- FLAG_WAIT_EXPIRY (R411): at the boundary FLAG_WAIT rounds after the request first arrived, unless its count has been
reached. -/
def execFlagWaitExpiry (f : FlowId) (s : State) : Host.Outcome State Fault Refusal :=
  let x := s.flow f
  match x.waitFrom with
  | none => .next s
  | some r =>
    if s.now < r + s.rst.flagWait then .next s else
    match x.park with
    | some (p, _) => .next (if p.aux ≤ x.cur then s.deliverFlagged p else s.flagExpire f)
    | none => .next (s.flagExpire f)

/-- FLOW_FORGET (R413). -/
def execFlowForget (f : FlowId) (s : State) : Host.Outcome State Fault Refusal :=
  if (s.flow f).last + 1024 ≤ s.now then
    .next (s.onNet (fun n => { n with
      flows := n.flows.filter (fun x => x.id ≠ f), waitFlows := n.waitFlows.filter (fun e => e.2 ≠ f) }))
  else .next s

/-! ### Link states and routes (R397 to R401) -/

/-- Bytes of a LINK_STATE packet: its origin and counts, then a word for each neighbour and agent. -/
def linkStateBytes (m : LinkStateMsg) : List Byte :=
  let one := fun (e : Nat × Nat) => toBytes 8 (e.1 + e.2 * 64)
  let bs := toBytes 8 (m.origin + m.neighbours.length * 2 ^ 32 + m.agents.length * 2 ^ 40) ++ m.neighbours.flatMap one ++
    m.agents.flatMap one
  bs ++ List.replicate ((64 - bs.length % 64) % 64) 0

/-- Sends a LINK_STATE on UP links to S48s, on their escape control channels (R399). -/
def State.sendFlood (s : State) (m : LinkStateMsg) (except_ : Option Nat) : State :=
  let ls := (List.range 48).filter (fun l => (s.link l).st == .up && (s.link l).peerClass != 1 && except_ != some l)
  let data := linkStateBytes m
  s.each ls (fun s l =>
    let ep := (s.link l).peerEp
    let c := s.net.fabCtr.look 0 ep
    let p : Packet := { cls := 3, opcode := 0xC5, keyId := 15, srcEp := s.rnd.endpoint, dstEp := ep, pktCtr := c,
                        units := data.length / 64, payload := data }
    let s := s.onNet (fun n => { n with fabCtr := n.fabCtr.put 0 ep ((c + 1) % 2 ^ 32) })
    let r := s.mcSend p [l]
    if r.1.isEmpty then r.2 else r.2.onNet (fun n => { n with egress := n.egress ++ [(p, r.1)] }))

/-- LINK_STATE (R399): a state that differs from what was known is taken and passed on. -/
def execLinkState (l : LinkId) (m : LinkStateMsg) (s : State) : Host.Outcome State Fault Refusal :=
  if m.origin = s.rnd.endpoint || s.net.db.look {} m.origin = m then .next s else
  let s := s.onNet (fun n => { n with db := n.db.put {} m.origin m })
  .next (s.touchFlood.sendFlood m (some l.val))

/-- LINK_STATE_FLOOD (R399): on a change of this device's links or agents, or after 4,096 rounds. -/
def execLinkStateFlood (s : State) : Host.Outcome State Fault Refusal :=
  let m := s.myLinkState
  if s.net.db.look {} s.rnd.endpoint = m && s.now < s.net.flooded + 4096 then .next s else
  let s := s.onNet (fun n => { n with db := n.db.put {} s.rnd.endpoint m, flooded := s.now })
  .next (s.sendFlood m none)

/-- ROUTE_TABLE_INSTALL (R399, R400): the table computed from the flooded state under the orientation in force. A new
root's orientation waits for its boundary, at least 16 rounds ahead. -/
def execRouteTableInstall (s : State) : Host.Outcome State Fault Refusal :=
  if !s.net.stale || !s.leaseHeld then .next s else
  let s := if s.lowestEp ≠ s.net.root && s.net.orient.isNone then
      s.onNet (fun n => { n with orient := some (s.lowestEp, s.now + 16) }) else s
  .next (s.installRoutes s.net.root)

/-- Packets held on escape channels are discarded (R400). -/
def State.flushEscape (s : State) : State :=
  let s := s.each (List.range 48) (fun s l =>
    let out := (s.link l).inputs.filter (fun e => e.vc % 2 = 1)
    let s := s.onLink l (fun x => { x with inputs := x.inputs.filter (fun e => e.vc % 2 ≠ 1) })
    s.each out (fun s e => (s.countNet 7).returnCredit l e.vc e.pkt.units))
  let out := s.net.egress.filter (fun e => e.1.esc || e.1.mcast)
  let s := s.onNet (fun n => { n with egress := n.egress.filter (fun e => !(e.1.esc || e.1.mcast)) })
  s.each out (fun s _ => s.countNet 7)

/-- ORIENTATION_BOUNDARY (R400). -/
def execOrientationBoundary (s : State) : Host.Outcome State Fault Refusal :=
  match s.net.orient with
  | none => .next s
  | some (root, b) =>
    if s.now < b then .next s else
    .next ((s.flushEscape.onNet (fun n => { n with orient := none })).installRoutes root)

/-- ENDPOINT_UNREACHABLE (R234, R401): after 16 rounds without a path every rank of the endpoint is declared dead. -/
def execEndpointUnreachable (ep : Nat) (s : State) : Host.Outcome State Fault Refusal :=
  if s.net.noPath.look 0 ep < 16 then .next s else
  .next (s.each s.liveParts (fun s p =>
    let ranks := (List.filter (fun (k : Nat × Rank) => k.2.valid && !k.2.dead && k.2.ep == ep) (s.part p).ranks).map (·.1)
    s.each ranks (fun s r => s.declareDead p r)))

/-! ### Multicast (R405, R406) -/

/-- MC_INSTALL (R405): a tree entry of another origin, while there is room. -/
def execMcInstall (origin group : Nat) (outs : List LinkId) (localDelivery : Bool) (s : State) :
    Host.Outcome State Fault Refusal :=
  let rest := s.net.mc.filter (fun e => !(e.1 = origin && e.2.1 = group))
  if 16384 ≤ rest.length then .next s else
  .next (s.onNet (fun n => { n with mc := rest ++ [(origin, group, outs, localDelivery)] }))

/-- MC_ACK (R234, R406): the home proceeds on the combined mask, and probes the members that it lacks. -/
def execMcAck (p : PartId) (group line : Nat) (mask : BitVec 256) (s : State) : Host.Outcome State Fault Refusal :=
  if s.pendOp line ≠ opSnpInv then .next s else
  let g := s.group group
  let mine := (s.groupRanks p.val g).filter (fun r => s.awaits line (agentOf p.val r))
  let has := fun (r : Nat) => mask.getLsbD (r - g.base)
  let s := s.each (mine.filter has) (fun s r =>
    if s.awaits line (agentOf p.val r) then s.answered1 line (agentOf p.val r) else s)
  .next (s.each (mine.filter (fun r => !has r)) (fun s r =>
    let ep := (s.rank p.val r).ep
    let x := s.takeSnoopSeq p.val ep
    x.2.originate p.val (homeHalf (line * 64))
      { cls := 2, opcode := opSnpProbe, part := p.val, srcEp := s.rnd.endpoint, dstEp := ep, seq := x.1, word2 := s.handleWord p.val line }))

/-- MC_ACK_TIMEOUT (R406): a router's combined answer leaves 4 rounds after it forwarded the invalidation. -/
def execMcAckTimeout (origin group line : Nat) (s : State) : Host.Outcome State Fault Refusal :=
  match s.net.mcWait.find? (fun w => w.origin = origin && w.group = group && w.line = line) with
  | none => .next s
  | some w => .next (if w.round + 4 ≤ s.now then s.sendMcAck w else s)

/-! ### Device-to-device control, the rank cache and timeouts (R41, R310, R403, R417, R529) -/

/-- A length change reaches the round master, which announces it unless one is pending (R41, R310). -/
def State.takeLength (s : State) (code : Nat) : State :=
  if !s.isMaster || s.rnd.pendLength.isSome || code = s.rnd.length then s else (s.announceLength code).lengthResult

/-- ROUND_CTRL (R310, R529). -/
def execRoundCtrl (m : RoundCtrl) (s : State) : Host.Outcome State Fault Refusal :=
  match m with
  | .report ep limit demand => .next (s.onPower (fun x => { x with
      reports := x.reports.filter (fun r => r.1 ≠ ep) ++ [(ep, limit, demand)] }))
  | .allotment watts => .next (s.onPower (fun x => { x with allotNew := some watts }))
  | .lengthChange code => .next (s.takeLength code.val)

/-- RANK_MISS_FILL (R403): the entry is cached, and the packets that wait for it go on. -/
def execRankMissFill (d : HalfId) (p : PartId) (rank : Nat) (s : State) : Host.Outcome State Fault Refusal :=
  let t := fun (e : Nat × Nat × Nat × Packet) => e.1 = d.val && e.2.1 = p.val && e.2.2.1 = rank
  let mine := s.net.missQ.filter t
  if mine.isEmpty then .next s else
  let s := (s.onNet (fun n => { n with missQ := n.missQ.filter (fun e => !t e) })).cacheRank d.val p.val rank
  .next (s.each mine (fun s e => s.rankChecked d.val e.2.2.2))

/-- TRANSPORT_TIMEOUT (R129, R415, R417): a read of the migration engine has had no response. -/
def execTransportTimeout (tag : Nat) (s : State) : Host.Outcome State Fault Refusal :=
  match s.net.out.find? (fun q => q.tag = tag) with
  | none => .next s
  | some q => .next (if q.sent + s.rst.timeout ≤ s.now then s.readFailed q none else s)

/-! ### Loss of a link die (R22, R381, R414, R420) -/

/-- Adds two rates, of which none is unlimited. -/
def addRate (a b : Option Nat) : Option Nat := match a, b with | some x, some y => some (x + y) | _, _ => none

/-- The working link die applies the whole traffic parameters of a partition (R420). -/
def Partition.wholeTraffic (x : Partition) (ld : Nat) : Partition :=
  let a := x.shapers.look {} ld
  let b := x.shapers.look {} (1 - ld)
  let c := x.policers.look {} ld
  let d := x.policers.look {} (1 - ld)
  let budgets := x.budgets.mapAll {} (fun k (y : Budget) =>
    if k % 2 = ld then { y with bytes := y.bytes + (x.budgets.look {} (k + 1 - 2 * ld)).bytes } else {})
  { x with
    shapers := SMap.put {} [] ld { a with rate := addRate a.rate b.rate, burst := a.burst + b.burst }
    policers := SMap.put {} [] ld { c with cir := addRate c.cir d.cir, pir := addRate c.pir d.pir, cbs := c.cbs + d.cbs, pbs := c.pbs + d.pbs }
    budgets := budgets }

/-- Step 4 of the boundary after a link die failed: its parked flagged requests and migrations are lost with it, and the
other die is flow home and applies whole parameters (R129, R414, R420). -/
def State.loseLinkDie (s : State) (d : Nat) : State :=
  let home := fun (f : FlowId) => s.flowHome f.src f.part
  let lost := (s.net.flows.filter (fun x => x.park.isSome && home x.id = d)).map (·.id)
  let s := s.onNet (fun n => { n with
    flows := n.flows.map (fun x => if decide (x.id ∈ lost) then { x with park := none } else x)
    missQ := n.missQ.filter (fun e => e.1 ≠ d)
    ld0 := n.ld0 && d != 0, ld1 := n.ld1 && d != 1, ldFailing := n.ldFailing.filter (· ≠ d) })
  let ms := s.migrations.filter (fun m => m.ld = d)
  let s := s.endMigrations (fun m => m.ld = d)
  let s := s.each ms (fun s m =>
    let s := s.countOf m.part 5 1
    s.each (s.deferredOn m) (fun s k => s.failWaiting k.1 k.2.1 k.2.2.1 false .timeout (admitDetail (some k.2.2.2) 0)))
  s.each (s.parts.map (·.1)) (fun s p => s.onPart p (fun x => x.wholeTraffic (1 - d)))

end Sys2Proof.Machine
end

