-- ==== Sys2Proof/Machine/Journal.lean ====
section
/-! DEFINITION. What the stakes keep in the metadata of both halves: journal records, checkpoints and the applied list
(R30, R494 to R499, R507 to R509), and the words that the stakes and the hoop publish (R488, R491, R510). -/
namespace Sys2Proof.Machine

/-! ### Published words (R488, R491, R510) -/

/-- Numbers as words. -/
def numWords (ns : List Nat) : List U64 := ns.map (BitVec.ofNat 64)

/-- Code of STATE in the health word (R488). -/
def StakeState.code : StakeState → Nat
  | .standby => 0 | .booting => 1 | .shadow => 2 | .active => 3 | .verifying => 4 | .failed => 7

/-- The health word of stake k (R488). -/
def State.healthWord (s : State) (k : Nat) : U64 :=
  let x := s.stake k
  let tag := if x.keep == .valid then (x.keepDigest.getD 0 0).toNat % 2 ^ 32 else 0
  BitVec.ofNat 64 (x.st.code + k * 2 ^ 3 + b2n x.passDone * 2 ^ 4 + b2n x.retest * 2 ^ 5 + x.slice % 1024 * 2 ^ 8 + tag * 2 ^ 32)

/-- Code of LEASE_STATE (R491). -/
def LeaseState.code : LeaseState → Nat
  | .none => 0 | .valid => 1 | .pending => 2 | .handover => 3

/-- The lease record of a hoop half (R491). -/
def Lease.words (l : Lease) : List U64 :=
  numWords [l.epoch + l.holder * 2 ^ 32 + l.st.code * 2 ^ 33 + b2n l.spineLost * 2 ^ 35 + b2n l.fenced * 2 ^ 36, l.expiry, l.handover]

/-- Code of STATE of a keep store (R510). -/
def KeepState.code : KeepState → Nat
  | .empty => 0 | .writing => 1 | .valid => 2

/-- The directory of a keep store: words 0 and 1 and FW_DIGEST (R510). -/
def Stake.keepDirectory (x : Stake) : List U64 :=
  numWords [0x5250454B + x.keep.code * 2 ^ 32, x.keepBytes] ++ (List.range 4).map (fun i => x.keepDigest.getD i 0)

/-! ### The content of a journalled object (R496) -/

/-- An extent table entry (R132). -/
def Extent.words (x : Extent) : List U64 :=
  numWords [x.word0, x.pins + x.grantSeq * 2 ^ 32, x.stateRound, x.certified + x.pct * 2 ^ 19]

/-- A window entry (R120). -/
def Window.words (x : Window) : List U64 :=
  numWords [b2n x.valid + b2n x.rd * 2 + b2n x.wr * 4 + b2n x.at_ * 8 + b2n x.db * 16 + x.part * 2 ^ 8 + x.rankLo * 2 ^ 16 +
    x.rankHi * 2 ^ 32, x.pvaBase, x.len, 0]

/-- A rank table entry (R402). -/
def Rank.word (x : Rank) : U64 :=
  BitVec.ofNat 64 (x.ep + b2n x.valid * 2 ^ 24 + b2n x.farAtomic * 2 ^ 25 + b2n x.dead * 2 ^ 26)

/-- A region record (R238). -/
def Region.words (x : Region) : List U64 :=
  let exts := fun (i : Nat) => x.exts.getD i 0 + x.exts.getD (i + 1) 0 * 2 ^ 16 + x.exts.getD (i + 2) 0 * 2 ^ 32 + x.exts.getD (i + 3) 0 * 2 ^ 48
  numWords [b2n x.valid + x.half * 2 + b2n x.lent * 4 + b2n x.destroying.isSome * 8 + x.home * 2 ^ 8, x.offer.toNat, x.readers.toNat,
    x.version + x.pinVersion * 2 ^ 32, x.frames, x.index, x.publishRound, exts 0, exts 4, 0, 0, 0, 0, 0, 0, 0]

/-- A group entry (R404). DESIGN CHOICE: the spec names its fields and no layout. -/
def Group.words (x : Group) : List U64 :=
  numWords ((b2n x.valid + b2n x.allRanks * 2 + b2n x.unicastOnly * 4 + x.base * 8) ::
    (List.range 4).map (fun i => (x.mask.toNat / 2 ^ (64 * i)) % 2 ^ 64))

/-- An integer in two's complement. -/
def intWord (n : Int) : U64 := BitVec.ofInt 64 n

/-- A partition's own settings. DESIGN CHOICE: the spec names the fields and no layout. -/
def Partition.words (x : Partition) : List U64 :=
  numWords [b2n x.live + b2n x.host * 2 + b2n x.dbg * 4 + b2n x.prof * 8 + b2n x.userRead * 16 + x.share * 2 ^ 16 + x.root.getD 0 * 2 ^ 32,
    x.winFirst + x.winCount * 2 ^ 16 + x.grpFirst * 2 ^ 32 + x.grpCount * 2 ^ 48, x.qtable, x.remoteBase, x.created, x.epoch,
    x.gen.getD 0] ++
  numWords ((List.range 12).map (fun i => (x.affinity.toNat / 2 ^ (64 * i)) % 2 ^ 64)) ++
  bytesWords (ceilDiv x.ownerKey.length 8) x.ownerKey

/-- A link die's shaper and policer (R424, R427). DESIGN CHOICE: the spec gives no layout. -/
def Partition.trafficWords (x : Partition) (d : Nat) : List U64 :=
  let y := x.shapers.look {} d
  let z := x.policers.look {} d
  numWords [y.rate.getD 0 + b2n y.rate.isSome * 2 ^ 62, y.burst + y.overhead * 2 ^ 56, z.cir.getD 0 + b2n z.cir.isSome * 2 ^ 62,
    z.pir.getD 0 + b2n z.pir.isSome * 2 ^ 62, z.cbs + b2n z.aware * 2 ^ 62, z.pbs]

/-- The new content of an object of a KIND, by its INDEX (R496). DESIGN CHOICE: where no table of the spec defines the object,
the order of its fields is the model's own. -/
def State.objectWords (s : State) (kind i : Nat) : List U64 :=
  match kind with
  | 0x01 => (s.part i).words
  | 0x02 => (s.extent i).words
  | 0x03 => (s.window i).words
  | 0x04 => [((s.part (i / 16384)).ranks.look {} (i % 16384)).word]
  | 0x05 => (s.group i).words
  | 0x06 =>
    let x := (s.part (i / 16)).peerKeys.look {} (i % 16)
    numWords [x.ep + x.part * 2 ^ 24 + b2n x.loaded * 2 ^ 32, x.seq + x.gen * 2 ^ 32] ++
      Config.sealKey s.holderStake.fuseWords (bytesWords 4 x.ts)
  | 0x07 =>
    if i < 64 then (s.part i).trafficWords 0 ++ (s.part i).trafficWords 1
    else
      let b := fun (d : Nat) => (s.part ((i - 64) / 16384)).budgets.look {} ((i - 64) % 16384 * 2 + d)
      numWords [(b 0).bytes, (b 1).bytes]
  | 0x08 => numWords [s.power.cap, s.power.sagCap, s.power.sagWarn, b2n s.power.learned + b2n s.power.fixed * 2 + b2n s.power.boostEn * 4]
  | 0x09 =>
    if i / 2048 < 64 then
      let x := s.part (i / 2048)
      let ring := x.snapRing.getD (0, 0)
      let smp := x.sampler.getD (0, 0, 0)
      numWords ([x.sel.look 0 (i % 2048), ring.1, ring.2, smp.1, smp.2.1, smp.2.2] ++ x.snaps)
    else
      let x := s.cnt.sel.look (0, false, 0, 0, 0) (i % 2048)
      numWords ([x.1 + b2n x.2.1 * 2 ^ 32, x.2.2.1, x.2.2.2.1, x.2.2.2.2, s.cnt.sampler.getD 0] ++ s.cnt.snaps)
  | 0x0A => (s.region i).words
  | 0x0B =>
    let x := (s.part (i / 256)).progs.look {} (i % 256)
    numWords [x.gen + b2n x.img.isSome * 2 ^ 8] ++ x.digest
  | 0x0C => if i = 128 then numWords [b2n s.ctl.locked] else numWords [s.host.bindings.look 0 i]
  | 0x0D => numWords [s.rnd.prio, s.rnd.length]
  | 0x0E => if i < 64 then numWords [s.targets.look 0 i] else if i < 66 then numWords [(s.half (i - 64)).share] else []
  | 0x0F =>
    let x := s.host.exts.look {} i
    numWords [x.st + x.ext * 2 ^ 2, x.dpa, x.blocks, x.pva]
  | _ => []

/-- An entry with the object's content as it is after step 4. -/
def State.fillEntry (s : State) (e : JournalEntry) : JournalEntry := { e with body := e.body ++ s.objectWords e.kind e.index }

/-! ### Records and copies (R494, R495) -/

/-- The words of an entry (R496). -/
def JournalEntry.words (e : JournalEntry) : List U64 :=
  BitVec.ofNat 64 (e.kind + e.op * 2 ^ 8 + e.index % 2 ^ 24 * 2 ^ 16 + e.body.length * 2 ^ 40) :: e.body

/-- Bytes of a record (R495). -/
def Journal.bytes (x : Journal) : Nat := 96 + 8 * ((x.entries.map (fun e => 1 + e.body.length)).foldl (· + ·) 0)

/-- The words of a record whose DIGEST field holds d (R495, R496). -/
def Journal.wordsWith (x : Journal) (d : List U64) : List U64 :=
  let four := fun (l : List U64) => (List.range 4).map (fun i => l.getD i 0)
  numWords [0x4C4E524A + x.entries.length * 2 ^ 32 + b2n x.completed * 2 ^ 48 + b2n x.checkpoint * 2 ^ 49, x.round,
    x.epoch + x.bytes * 2 ^ 32] ++ four x.prev ++ four d ++ [0] ++ x.entries.flatMap JournalEntry.words

/-- The words of a record (R495). -/
def Journal.words (x : Journal) : List U64 := x.wordsWith x.digest

/-- A record with its DIGEST (R495). -/
def Journal.sealed (x : Journal) : Journal := { x with digest := sha3Words (wordBytes (x.wordsWith [])) }

/-- A record goes to slot ROUND mod 16,384 of a ring (R494). -/
def JournalCopy.put (x : JournalCopy) (r : Journal) : JournalCopy :=
  { x with ring := r :: x.ring.filter (fun y => y.round % 16384 ≠ r.round % 16384) }

/-- A checkpoint goes to slot (ROUND / 4,096) mod 2 (R498). -/
def JournalCopy.putCheckpoint (x : JournalCopy) (c : Checkpoint) : JournalCopy :=
  if c.round / 4096 % 2 = 0 then { x with slot0 := some c } else { x with slot1 := some c }

/-- The newest checkpoint of a copy whose digest verifies (R498, R499). -/
def JournalCopy.newest (x : JournalCopy) : Option Checkpoint :=
  let good := ([x.slot0, x.slot1].filterMap id).filter (fun c => c.digest == sha3Words (wordBytes c.body))
  good.foldl (fun b c => match b with
    | none => some c
    | some y => if y.round < c.round then some c else b) none

/-- The copy in the metadata of a half (R30). -/
def State.journalCopy (s : State) (h : Nat) : JournalCopy := if h = 0 then s.ctl.copy0 else s.ctl.copy1

/-- Changes the copy of a half. -/
def State.onCopy (s : State) (h : Nat) (f : JournalCopy → JournalCopy) : State :=
  s.onCtl (fun c => if h = 0 then { c with copy0 := f c.copy0 } else { c with copy1 := f c.copy1 })

/-- The halves that the holder writes: both, or its own while the spine is lost (R494, R508). -/
def State.journalHalves (s : State) : List Nat := if s.spineGone then [s.activeHalf] else [0, 1]

/-- The last journalled round (R494). -/
def State.lastJournalled (s : State) : Nat := match (s.journalCopy s.activeHalf).ring with
  | j :: _ => j.round
  | [] => 0

/-- PREV_DIGEST of the next record: the digest of the newest one; zero where there is none (R495). -/
def State.prevDigest (s : State) : List U64 := match (s.journalCopy s.activeHalf).ring with
  | j :: _ => sha3Words (wordBytes j.words)
  | [] => []

/-- The record of a boundary as the holder writes it: every N that 4,096 divides has a checkpoint (R495, R498). -/
def State.newRecord (s : State) (round : Nat) (completed : Bool) (entries : List JournalEntry) : Journal :=
  { round := round, epoch := s.leaseEpoch, completed := completed, checkpoint := decide (round % 4096 = 0),
    entries := entries, prev := s.prevDigest : Journal }.sealed

/-- Writes a record to the metadata of the halves that the holder writes; a half in self-refresh buffers it (R176, R494). -/
def State.writeRecord (s : State) (r : Journal) : State :=
  s.each s.journalHalves (fun s h => (s.onCopy h (fun x => x.put r)).metaWrite h r.bytes)

/-- The copy of a half is written again from the other's (R507, R509). -/
def State.recopy (s : State) (h : Nat) : State :=
  let x := s.journalCopy (1 - h)
  s.onCopy h (fun _ => x)

/-! ### Checkpoints (R498) -/

/-- KIND and INDEX of every journalled object that is not as at reset, in ascending order. -/
def State.journalled (s : State) : List (Nat × Nat) :=
  let of := fun (k : Nat) (is : List Nat) => is.map (fun i => (k, i))
  let sub := fun (n : Nat) (f : Partition → List Nat) => s.parts.flatMap (fun e => (f e.2).map (fun i => e.1 * n + i))
  of 0x01 (s.parts.map (·.1)) ++ of 0x02 (s.extents.map (·.1)) ++ of 0x03 (s.windows.map (·.1)) ++
    of 0x04 (sub 16384 (fun x => x.ranks.map (·.1))) ++ of 0x05 (s.groups.map (·.1)) ++
    of 0x06 (sub 16 (fun x => x.peerKeys.map (·.1))) ++ of 0x07 (s.parts.map (·.1)) ++
    of 0x07 ((sub 16384 (fun x => (x.budgets.map (fun b => b.1 / 2)).eraseDups)).map (64 + ·)) ++ of 0x08 [0] ++
    of 0x09 (sub 2048 (fun x => x.sel.map (·.1))) ++ of 0x09 (s.cnt.sel.map (fun e => 64 * 2048 + e.1)) ++
    of 0x0A (s.regions.map (·.1)) ++ of 0x0B (sub 256 (fun x => x.progs.map (·.1))) ++ of 0x0C (s.host.bindings.map (·.1) ++ [128]) ++
    of 0x0D [0] ++ of 0x0E (s.targets.map (·.1) ++ [64, 65]) ++ of 0x0F (s.host.exts.map (·.1))

/-- The body of a checkpoint: the whole journalled control state. DESIGN CHOICE: the spec gives the body no layout; it is one
entry of R496 for each object. -/
def State.checkpointBody (s : State) : List U64 :=
  s.journalled.flatMap (fun o => (s.fillEntry { kind := o.1, index := o.2 }).words)

/-- A checkpoint of the boundary (R498). -/
def State.newCheckpoint (s : State) : Checkpoint :=
  let body := s.checkpointBody
  { round := s.now, epoch := s.leaseEpoch, body := body, digest := sha3Words (wordBytes body) }

/-- The checkpoint header (R498). -/
def Checkpoint.header (c : Checkpoint) : List U64 :=
  numWords [0x54504B43, c.round, c.epoch + 8 * c.body.length * 2 ^ 32] ++ (List.range 4).map (fun i => c.digest.getD i 0) ++ [0]

/-- Writes a checkpoint to the metadata of the halves that the holder writes (R176, R498). -/
def State.writeCheckpoint (s : State) (c : Checkpoint) : State :=
  s.each s.journalHalves (fun s h => (s.onCopy h (fun x => x.putCheckpoint c)).metaWrite h (64 + 8 * c.body.length))

end Sys2Proof.Machine
end

