-- ==== Sys2Proof/Machine/Security.lean ====
section
/-! DEFINITION. Sessions, key generations and the debug access path (chapter 17). -/
namespace Sys2Proof.Machine

/-! ### Sessions (R469 to R472) -/

/-- DONE with a status, to the agent of a session (R469). -/
def State.sendDone (s : State) (p ep sid : Nat) (st : Status) : State := s.sendSession p ep 4 0 1 sid (toBytes 8 st.code)

/-- Session starts of a partition in the last 1,024 rounds (R471). -/
def State.recentStarts (s : State) (p : Nat) : List Nat := (s.part p).starts.filter (fun r => decide (s.now < r + 1024))

/-- SESSION_HELLO (R390, R469 to R471): a first fragment starts a session, or is refused with DONE and BUSY_RETRY; a
further fragment continues the one outstanding. A stake must hold the lease to handle it. -/
def execSessionHello (p : PartId) (ep rank sid frag frags : Nat) (nonce : List U64) (s : State) :
    Host.Outcome State Fault Refusal :=
  let x := s.part p.val
  if !x.live || !s.leaseHeld then .next s else
  match x.session with
  | some y =>
    if y.sid = sid && y.ep = ep && y.rank = rank && y.offer.isNone && frag ≠ 0 then
      if frag = y.frags && frag < y.total then
        .next (s.onPart p.val (fun x => { x with
          session := some { y with frags := y.frags + 1, helloRound := s.now, nonce := y.nonce ++ nonce } }))
      else .next s
    else if y.sid = sid && y.ep = ep && y.rank = rank then .next s
    else .next (s.sendDone p.val ep sid .busyRetry)
  | none =>
    if frag ≠ 0 then .next s
    else if 4 ≤ (s.recentStarts p.val).length then .next (s.sendDone p.val ep sid .busyRetry)
    else .next (s.onPart p.val (fun x => { x with
      starts := s.recentStarts p.val ++ [s.now]
      session := some { sid := sid, ep := ep, rank := rank, frags := 1, total := frags, helloRound := s.now, nonce := nonce } }))

/-- The bytes that th covers (R470): partition, digest of the owner's key, owner nonce, ciphertext, device nonce and the
new epoch. -/
def sessionTranscript (p : Nat) (key : List Byte) (no : List U64) (ct nd : List Byte) (epoch : Nat) : List Byte :=
  toBytes 1 p ++ sha3 key ++ wordsN 4 no ++ ct ++ nd ++ toBytes 4 epoch

/-- The body of an OFFER (R469). -/
def offerBody (ct nd sig : List Byte) (epoch : Nat) : List Byte := ct ++ nd ++ toBytes 4 epoch ++ List.replicate 4 0 ++ sig

/-- SESSION_OFFER (R469, R470): the active stake encapsulates, signs and sends the four OFFER fragments. -/
def execSessionOffer (p : PartId) (s : State) : Host.Outcome State Fault Refusal :=
  match (s.part p.val).session with
  | none => .next s
  | some y =>
    if !s.leaseHeld || y.offer.isSome || y.frags < y.total then .next s else
    let a := s.takeFree
    let b := a.2.takeFree
    let ct := (List.range 1088).map (Config.encapsByte a.1)
    let nd := (List.range 32).map (Config.nonceByte b.1)
    let epoch := ((s.part p.val).epoch + 1) % 2 ^ 32
    let th := sha3 (sessionTranscript p.val (s.part p.val).ownerKey y.nonce ct nd epoch)
    let sig := (List.range 2420).map (Config.sigByte th)
    let body := offerBody ct nd sig epoch
    let s := b.2.onPart p.val (fun x => { x with session := some { y with offer := some s.now, th := bytesWords 4 th } })
    .next (s.each (List.range 4) (fun s i => s.sendSession p.val y.ep 2 i 4 y.sid ((body.drop (960 * i)).take 960)))

/-- SESSION_CONFIRM (R470, R472): a matching mac completes the session, and its epoch opens at the next boundary; a
mismatch is answered DONE with INTEGRITY and ends the attempt. -/
def execSessionConfirm (p : PartId) (sid : Nat) (macOk : Bool) (ss : List U64) (s : State) :
    Host.Outcome State Fault Refusal :=
  match (s.part p.val).session with
  | none => .next s
  | some y =>
    if !s.leaseHeld || y.sid ≠ sid || y.offer.isNone || y.ss.isSome then .next s
    else if macOk then
      .next ((s.onPart p.val (fun x => { x with session := some { y with ss := some ss } })).stage 0 [.epochOpen p.val])
    else .next ((s.onPart p.val (fun x => { x with session := none })).sendDone p.val y.ep sid .integrity)

/-- SESSION_CONFIRM_LAPSE (R470): an attempt without CONFIRM for 256 rounds after its OFFER lapses. -/
def execSessionConfirmLapse (p : PartId) (s : State) : Host.Outcome State Fault Refusal :=
  match (s.part p.val).session with
  | none => .next s
  | some y =>
    match y.offer with
    | none => .next s
    | some r =>
      if y.ss.isNone && decide (r + 256 ≤ s.now) then .next (s.onPart p.val (fun x => { x with session := none })) else .next s

/-! ### Key generations (R475) -/

/-- KEY_GENERATION_ADVANCE (R475): a packet counter under G has reached 2³¹, and G + 1 becomes the current
generation. An epoch that opens advances it at the boundary itself. -/
def execKeyGenerationAdvance (p : PartId) (s : State) : Host.Outcome State Fault Refusal :=
  let x := s.part p.val
  match x.gen with
  | none => .next s
  | some g =>
    if !x.ctrHigh then .next s
    else .next (s.onPart p.val (fun x => { x with
      gen := some ((g + 1) % 2 ^ 32), prevGen := true, ctrHigh := false, dropAt := none }))

/-- KEY_GENERATION_DROP (R475): 4,096 rounds after an epoch opened, the previous epoch's last generation is dropped. -/
def execKeyGenerationDrop (p : PartId) (s : State) : Host.Outcome State Fault Refusal :=
  match (s.part p.val).dropAt with
  | none => .next s
  | some d =>
    if s.now < d then .next s else .next (s.onPart p.val (fun x => { x with prevGen := false, dropAt := none }))

/-! ### The debug access path (R484) -/

/-- DEBUG_UNLOCK (R484): a good signature over the active stake's challenge unlocks the path; each partition with
DBG_CONSENT that it reaches counts one debug session. -/
def execDebugUnlock (sigOk : Bool) (reach : List PartId) (s : State) : Host.Outcome State Fault Refusal :=
  if !sigOk || !s.leaseHeld then .next s else
  let ps := (reach.map (·.val)).foldl (fun l p => if (s.part p).live && (s.part p).dbg then setAdd l p else l) []
  let s := s.onAuth (fun a => { a with unlocked := true, debugReach := ps })
  .next (s.each ps (fun s p => s.onPart p (fun x => { x with debugSessions := (x.debugSessions + 1) % 2 ^ 32 })))

/-- DEBUG_HALT (R484): an unlocked path halts a weaver; a weaver that runs a stroke of a partition without DBG_CONSENT
halts when that stroke ends. -/
def execDebugHalt (w : WeaverId) (s : State) : Host.Outcome State Fault Refusal :=
  if !s.auth.unlocked then .next s else
  let waits := (s.weaver w.val).run.any (fun r => !(s.part r.s.part).dbg)
  .next (s.onAuth (fun a =>
    if waits then { a with haltWait := setAdd a.haltWait w.val } else { a with halted := setAdd a.halted w.val }))

end Sys2Proof.Machine
end

