-- ==== Sys2Proof/Machine/Restart.lean ====
section
/-! DEFINITION. What a device reset clears and what it keeps (R551, R552, R560, R561), and the phases of a start (R555 to
R559). -/
namespace Sys2Proof.Machine

/-! ### What each unit keeps through a reset -/

/-- A weaver keeps its fuses and its record; one that was fenced is retired (R342, R356, R359, R552). -/
def Weaver.kept (x : Weaver) : Weaver :=
  let gone := x.st != .active
  { fmax := x.fmax, age := x.age, st := if gone then .retired else .active, cause := x.cause, margin := x.margin,
    boosted := x.boosted, boostIntervals := x.boostIntervals, stateRound := x.stateRound, fused := x.fused,
    fuse := x.fuse || (gone && x.cause != 7) }

/-- Every link is dark with cause LOCAL_RESET; a FAILED link stays FAILED until the self-test (R369, R376, R381). -/
def Link.darkened (x : Link) : Link := { st := if x.st == .failed then .failed else .dark, downCause := 7 }

/-- A half without its memory keeps its failed stacks, its retired pages and its retired banks, those still being moved
among them (R202, R552). -/
def HalfSt.persistent (x : HalfSt) : HalfSt :=
  { failed := x.failed, pages := x.pages ++ x.copies.map (fun c => (c.page, c.repl)),
    banks := x.banks ++ (x.moving.map (·.1)).toList }

/-- A half whose memory was retained keeps its states and cursors; its stacks are in self-refresh (R560, R561). -/
def HalfSt.retained (x : HalfSt) : HalfSt :=
  { x with refresh := .asleep, idle := 0, touched := false, metaBuf := 0, holdsCh6 := false, wakeFrom := 0 }

/-- Without its memory a block pool keeps its RETIRED blocks (R552). -/
def BlockPool.persistent (x : BlockPool) : BlockPool := { st := List.filter (fun (e : Nat × BlockState) => e.2 == .retired) x.st }

/-- A stake keeps its keep store and its fuses; its cores are in reset (R463, R510). -/
def Stake.persistent (x : Stake) : Stake :=
  { keep := x.keep, keepBytes := x.keepBytes, keepDigest := x.keepDigest, keepSvn := x.keepSvn, runDigest := x.runDigest, runSvn := x.runSvn,
    rollback := x.rollback, revoked := x.revoked, lifecycle := x.lifecycle, fuseWords := x.fuseWords }

/-- A weave die that failed stays out of service; what it cached is lost (R159, R552). -/
def DieSt.persistent (x : DieSt) : DieSt := { ok := x.ok && x.failed.isNone }

/-- The power controller starts again in the mode of its grade; the supply, the sensors and the conditions that hold by
themselves stay (R2, R517, R522). -/
def PowerSt.restarted (x : PowerSt) : PowerSt :=
  { gradeD := x.gradeD, fixed := x.gradeD, boostEn := !x.gradeD, feedA := x.feedA, feedB := x.feedB, bus := x.bus, sensors := x.sensors, group := x.group,
    cond := x.cond &&& 0b01000110 }

/-- A partition whose memory was retained: its counters read zero, what had not been admitted is back in its rings, and
what ran or waited is gone (R533, R560, R561). -/
def Partition.retained (x : Partition) : Partition :=
  { x with
    counters := [], latched := [], roundCopy := [], shadow0 := [], shadow1 := [], est := [], energy := 0
    placedAge := 65, phaseMark := none, phaseInstr := none, suspended := [], moved := []
    session := x.session.filter (fun _ => false)
    sqs := x.sqs.mapAll {} (fun _ (q : Sq) => { q with waiting := [], fetched := 0, live := [], reread := false })
    shapers := x.shapers.mapAll {} (fun _ (y : Shaper) => { y with queue := [] }) }

/-- The host side sees the rim go down: requests on the fabric side, messages under way and unread answers are lost
(R448, R449). -/
def HostSt.darkened (x : HostSt) (retain : Bool) : HostSt :=
  { x with
    group0 := {}, group1 := {}, counters := [], bindings := [], channels := [], toFabric := [], toHost := [], reqs := []
    exts := if retain then x.exts else []
    outstanding := 0, telemBusy := false, attestBusy := false }

/-! ### The reset (R551, R554, R577) -/

/-- The host-side die answers what waited on the fabric side itself: reads with poison and zero data, writes as complete
(R448). -/
def State.localAnswers (s : State) : State :=
  s.each s.host.reqs (fun s q =>
    s.emit (if q.write then .hostData q.tag 0 [] false else .hostData q.tag 0 (List.replicate 64 0) true))

/-- Both lane groups go dark, with their flags (R449, R453). -/
def State.rimDark (s : State) : State :=
  let n := b2n s.host.group0.up + b2n s.host.group1.up
  s.each (List.range n) (fun s _ => s.setInt flagRimDown)

/-- Stacks declared failed in this round are failed (R206). -/
def State.applyFailing (s : State) : State :=
  let s := s.each (s.half0.failing ++ s.half1.failing) State.stackDown
  (s.onHalf 0 (fun x => { x with failing := [] })).onHalf 1 (fun x => { x with failing := [] })

/-- Reset registers after a reset. -/
def ResetSt.after (x : ResetSt) (retain : Bool) : ResetSt :=
  { x with mode := .reset, phase := 0, due := none, warm := none, limited := false, retained := retain, pwrgd := false,
           noSpine := false }

/-- The fabric side goes into reset and pool memory is not retained: only fuses, keep stores and what the persistent area
carries are left (R551, R552). -/
def State.loseFabric (s : State) : State :=
  let s := s.localAnswers.rimDark.applyFailing
  { pending := s.pending
    rnd := { endpoint := s.rnd.endpoint }
    pool0 := s.pool0.persistent
    pool1 := s.pool1.persistent
    half0 := s.half0.persistent
    half1 := s.half1.persistent
    dies := s.dies.mapAll {} (fun _ x => x.persistent)
    stackTab := s.stackTab.mapAll {} (fun _ (x : StackSt) => { failed := x.failed })
    weavers := s.weavers.mapAll {} (fun _ x => x.kept)
    links := (List.range 48).foldl (fun m l => SMap.put {} m l (s.link l).darkened) []
    nextId := s.nextId
    auth := { stake0 := s.auth.stake0.persistent, stake1 := s.auth.stake1.persistent, keepPaused := s.auth.keepPaused }
    net := { ld0 := s.net.ld0, ld1 := s.net.ld1, fabCtr := s.net.fabCtr }
    host := s.host.darkened false
    power := s.power.restarted
    rst := s.rst.after false
    out := s.out
    free := s.free
    dirUse := s.dirUse }

/-- Buffered writes reach the arrays and parity updates on their way reach their units, before the stacks enter self-refresh
(R169, R560). -/
def State.flushBuffers (s : State) : State :=
  let s := s.releaseAll
  s.each s.mem.deltas (fun s d => s.onMem (fun m => m.applyDeltas d.half d.rand))

/-- The fabric side goes into a warm reset: pool memory, the metadata of both halves and the control state they carry stay
(R560, R561). -/
def State.retainFabric (s : State) : State :=
  let s := s.localAnswers.rimDark.applyFailing.flushBuffers
  let s := s.each (List.range 4) State.dieBuffer
  { s with
    rnd := { endpoint := s.rnd.endpoint }
    parts := s.parts.mapAll {} (fun _ x => x.retained)
    half0 := s.half0.retained
    half1 := s.half1.retained
    dies := s.dies.mapAll {} (fun _ x => x.persistent)
    stackTab := s.stackTab.mapAll {} (fun _ (x : StackSt) => { failed := x.failed })
    banks := []
    weavers := s.weavers.mapAll {} (fun _ x => x.kept)
    walkers := []
    migrations := []
    poolReqs := []
    ctl := { results := s.ctl.sent ++ s.ctl.results.filter (fun r => r.ready && r.effect ≠ 0)
             copy0 := s.ctl.copy0, copy1 := s.ctl.copy1, applied := s.ctl.applied, appliedEntries := s.ctl.appliedEntries }
    auth := { stake0 := s.auth.stake0.persistent, stake1 := s.auth.stake1.persistent, updateDone := s.auth.updateDone, updating := s.auth.updating,
              keepPaused := s.auth.keepPaused }
    links := (List.range 48).foldl (fun m l => SMap.put {} m l (s.link l).darkened) []
    net := { ld0 := s.net.ld0, ld1 := s.net.ld1, fabCtr := s.net.fabCtr, flows := s.net.flows, windows := s.net.windows,
             nextTag := s.net.nextTag }
    host := s.host.darkened true
    power := s.power.restarted
    cnt := { sel := s.cnt.sel, ring := s.cnt.ring, seq := s.cnt.seq, sampler := s.cnt.sampler, samples := s.cnt.samples,
             sampleSeq := s.cnt.sampleSeq, snaps := s.cnt.snaps }
    rst := s.rst.after true }

/-- Reset is released, unless DEV_RESET_N is held low or the power stage is off: START mode (R554, R578). -/
def State.release (s : State) : State :=
  if s.rst.mode == .reset && !s.rst.held && !s.rst.stageOff then s.onRst (fun r => { r with mode := .start, phase := 0 }) else s

/-! ### Phases 1 to 4 of a start (R555, R556, R559) -/

/-- A staged configuration record comes into force (R553). -/
def State.takeStaged (s : State) : State := match s.host.cfgStaged with
  | none => s
  | some (w0, w1, key) => (s.onHost (fun h => { h with cfgStaged := none })).onRst (fun r => { r with cfg := (w0, w1), fabricKey := key })

/-- The configuration record in force at a start: the one staged, if there is one (R553). -/
def State.takeCfg (s : State) : State :=
  let s := s.takeStaged
  let w := s.rst.cfg.1
  let s := s.onRst (fun r => { r with homeHalf := bits w 32 32, flagWait := bits w 49 43, timeout := bits w 63 50 })
  let s := s.onRnd (fun r => { r with length := bits w 34 33, running := bits w 34 33, prio := bits w 42 35 })
  s.onPower (fun x => { x with group := bits s.rst.cfg.2 15 0 })

/-- What a stake finds: its self-test passes (R489). -/
def testOk (f : StartFacts) (k : Nat) : Bool := f.stakeSelfTest.getD k true
/-- The image its slath reads (R467, R510). -/
def imageFound (f : StartFacts) (k : Nat) : ImageFacts := f.images.getD k {}

/-- A stake may take the lease: its self-test passes, its image passes R467, and its LIFECYCLE is PROVISIONED
(R463, R556). -/
def State.stakeBoots (s : State) (f : StartFacts) (k : Nat) : Bool :=
  testOk f k && s.ldWorks k && (s.stake k).lifecycle == 1 && imageStatus (s.stake k) (imageFound f k) == .ok

/-- Sends an AUTHORITY EVENT (R450). -/
def State.authority (s : State) : State := s.event evAuthority s.leaseEpoch s.activeHalf

/-- Phase 2: each stake's self-test and slath; lease epoch 1 goes to the home stake, or to the other one (R556, R559). -/
def State.bootStakes (s : State) (f : StartFacts) : State :=
  let s := s.each (List.range 2) (fun s k =>
    if s.stakeBoots f k then s.onStake k (fun x => { x with
      st := .standby, passed := 0, passDone := false, runDigest := (imageFound f k).digest, runSvn := (imageFound f k).svn })
    else (s.onStake k (fun x => { x with st := .failed, passDone := false })).authority)
  let home := s.rst.homeHalf
  let holder := if s.stakeBoots f home then home else 1 - home
  if !s.stakeBoots f holder then s else
  (s.onStake holder (fun x => { x with st := .active })).onLeases (fun _ =>
    { epoch := 1, holder := holder, st := .valid, expiry := 4 })

/-- Phase 4: the bridges that train; a failed weave die takes its bridge (R20, R21). -/
def State.trainBridges (s : State) (ok : List Bool) : State :=
  s.onAuth (fun a => { a with
    bridge0 := ok.getD 0 true && (s.die 0).ok && (s.die 2).ok
    bridge1 := ok.getD 1 true && (s.die 1).ok && (s.die 3).ok })

/-- Phases 1 to 4: with no stake that passes its self-test the device does not start; with none that passes R467, or no
good copy of the persistent area, it enters RECOVERY; with no spine bridge START is held (R559). -/
def State.startControl (s : State) (f : StartFacts) : State :=
  let s := s.onRst (fun r => { r with pwrgd := true, phase := 1 })
  let s := match s.rst.firstEvent with
    | some e => (s.onRst (fun r => { r with firstEvent := none })).event e.code e.d0 e.d1
    | none => s
  let s := if f.persistentOk then s.takeCfg else s
  let s := s.bootStakes f
  if !testOk f 0 && !testOk f 1 then s.onRst (fun r => { r with mode := .reset, phase := 0 })
  else if !s.leaseHeld then s.onRst (fun r => { r with mode := .recovery, phase := 2 })
  else if !f.persistentOk then s.onRst (fun r => { r with mode := .recovery, phase := 2 })
  else
    let s := (s.onRst (fun r => { r with phase := 3 })).onRnd (fun r => { r with counter := 0 })
    let s := s.trainBridges f.bridgesOk
    if s.auth.bridge0 || s.auth.bridge1 then s.onRst (fun r => { r with phase := 4 })
    else (s.onRst (fun r => { r with noSpine := true })).authority

/-! ### Phase 5: self-test (R558) -/

/-- A weave die that passes is in service, and its weavers retired with it return; one that fails is out of service
(R159, R359, R558). -/
def State.testDie (s : State) (d : Nat) (ok : Bool) : State :=
  let s := s.onDie d (fun x => { x with ok := ok, failed := none })
  s.each (dieWeavers d) (fun s w => s.onWeaver w (fun x =>
    if ok then (if x.st == .retired && x.cause == 7 && !x.fuse then { x with st := .active, cause := 0, stateRound := s.now } else x)
    else if x.st == .active then { x with st := .retired, cause := 7, stateRound := s.now } else x))

/-- Phase 5 in TEST mode: what passes is readmitted and what fails is removed (R555, R558). -/
def State.selfTest (s : State) (f : StartFacts) : State :=
  let s := s.onRst (fun r => { r with mode := .test, phase := 5 })
  let s := s.each (List.range 4) (fun s d => s.testDie d (f.diesOk.getD d true))
  let s := s.trainBridges [s.auth.bridge0, s.auth.bridge1]
  let s := s.each (List.range 4) (fun s d =>
    s.each (dieStacks d) (fun s n => s.onStack n (fun y => { y with secondary := !(s.die d).ok })))
  let s := s.each (f.badWeavers.map (·.val)) (fun s w =>
    if (s.weaver w).st == .active then (s.fenceWeaver w 1).retireWeaver w else s)
  let s := s.each (f.badStacks.map (·.val)) State.stackDown
  let s := s.each ((f.goodLinks.map (·.val)).filter (fun l => s.ldWorks (l / 24))) (fun s l =>
    s.onLink l (fun x => if x.st == .failed then { x with st := .dark } else x))
  let s := s.each (f.badLinks.map (·.val)) (fun s l => s.onLink l (fun x => { x with st := .failed }))
  s.onRst (fun r => { r with mode := .start })

/-! ### Phases 6 to 9 -/

/-- A half's integrity state from its failed stacks (R557). -/
def integrityOf (n : Nat) : Integrity := match n with
  | 0 => .intact
  | 1 => .rebuilt
  | 2 => .degraded
  | _ => .loss

/-- Phase 6 of a cold start: metadata is initialised, every allocatable block is CLEAN after the full memory test and
otherwise DIRTY, and a half with failed stacks counts as rebuilt (R555, R557). -/
def State.initMetadata (s : State) : State :=
  let full := !s.rst.fullTest
  let pool := fun (q : BlockPool) => { q with sweep := if full then halfBlocks else 0, testedFirst := full }
  let half := fun (x : HalfSt) => { x with
    integrity := integrityOf x.failed.length, rebuilding := false, lossAt := none, cursor := if x.failed.isEmpty then 0 else randCount }
  let s : State := { s with
    pool0 := pool s.pool0, pool1 := pool s.pool1, half0 := half s.half0, half1 := half s.half1 }
  s.onRst (fun r => { r with fullTest := true, phase := 6, persistDue := false })

/-- Phases 7 to 9: links with light train, the device joins its round domain or is its own master, its routes are
computed and the mailbox bindings are written (R43, R50, R399, R455, R555). -/
def State.startFabric (s : State) (f : StartFacts) (round : Nat) (jump : Bool) : State :=
  let s := s.each (f.litLinks.map (·.val)) (fun s l =>
    if (s.link l).st == .dark then (s.onLink l (fun x => { x with lit := 0xFF })).startTraining l else s)
  let s := s.onRnd (fun r => { r with
    counter := max r.counter round
    resync := r.resync || jump
    resyncCount := if jump then sat8 r.resyncCount else r.resyncCount
    master := if f.domainRound.isSome then none else some r.endpoint })
  let s := s.onLeases (fun l => { l with expiry := s.now + 4 })
  let s := s.installRoutes s.rnd.endpoint
  let s := s.onHost (fun h => { h with bindings := (List.range 128).map (fun ch =>
    (ch, (defaultBinding ch).1 * 256 + (defaultBinding ch).2 + 1)) })
  s.onRst (fun r => { r with phase := 9 })

/-- Phases 5 to 9 (R555, R557, R561, R562). A warm start replays the journal in place of phase 6, and enters RECOVERY when
that fails; it takes the round of its domain, or the last journalled round plus 1. -/
def State.startData (s : State) (f : StartFacts) : State :=
  let s := s.selfTest f
  if !s.rst.retained then s.initMetadata.startFabric f (f.domainRound.getD 0) f.domainRound.isSome
  else if !f.replayOk then s.onRst (fun r => { r with mode := .recovery })
  else
    let awake := fun (x : HalfSt) => { x with refresh := Refresh.active }
    let s : State := { s with half0 := awake s.half0, half1 := awake s.half1 }
    s.startFabric f (max (f.domainRound.getD 0) (s.lastJournalled + 1)) true

/-- The start phases from where the start stands (R555, R559). -/
def State.start (s : State) (f : StartFacts) : State :=
  if s.rst.mode != .start || s.rst.held || s.rst.noSpine || 5 ≤ s.rst.phase then s else
  let s := if s.rst.phase < 4 then s.startControl f else s
  if s.rst.mode == .start && s.rst.phase == 4 then s.startData f else s

end Sys2Proof.Machine
end

