-- ==== Sys2Proof/Machine/Power.lean ====
section
/-! DEFINITION. Supply, power capping and thermal control (chapter 19): the commands of the supply and the sensors, and
what the controller does at step 7 of a boundary. -/
namespace Sys2Proof.Machine

/-! ### Conditions and events (R517, R532) -/

/-- CAP_INFEASIBLE (R517). -/
def condInfeasible : Nat := 0
/-- SAG_WARN (R517). -/
def condSag : Nat := 1
/-- SINGLE_FEED (R517). -/
def condSingle : Nat := 2
/-- THERMAL_THROTTLE (R517). -/
def condThrottle : Nat := 3
/-- CAP_HELD_OVER (R517). -/
def condHeldOver : Nat := 4
/-- GROUP_FALLBACK (R517). -/
def condFallback : Nat := 5
/-- OVERVOLT (R517). -/
def condOvervolt : Nat := 6

/-- A condition holds. -/
def PowerSt.holds (x : PowerSt) (i : Nat) : Bool := x.cond.getLsbD i

/-- Starts a condition that does not hold yet. -/
def PowerSt.begin (x : PowerSt) (i : Nat) : PowerSt := if x.holds i then x else x.setCond i

/-- A SUPPLY EVENT (R532). -/
def State.supply (s : State) (kind d1 : Nat) : State := s.event evSupply kind d1
/-- A THERMAL EVENT (R532). -/
def State.thermal (s : State) (kind d1 : Nat) : State := s.event evThermal kind d1

/-! ### The supply (R513 to R516) -/

/-- FEED_LOST (R513, R514, R532): feed A for false, feed B for true. -/
def execFeedLost (b : Bool) (s : State) : Host.Outcome State Fault Refusal :=
  let was := if b then s.power.feedB else s.power.feedA
  if !was then .next s else
  let s := s.onPower (fun x => (if b then { x with feedB := false } else { x with feedA := false }).begin condSingle)
  .next (s.supply 3 (b2n b))

/-- FEED_RESTORED (R513, R532): SINGLE_FEED clears once both feeds are present. -/
def execFeedRestored (b : Bool) (s : State) : Host.Outcome State Fault Refusal :=
  let was := if b then s.power.feedB else s.power.feedA
  if was then .next s else
  let s := s.onPower (fun x =>
    let x := if b then { x with feedB := true } else { x with feedA := true }
    if x.feedA && x.feedB then x.clearCond condSingle else x)
  .next (s.supply 4 (b2n b))

/-- SAG_WARN threshold in units of 0.1 V (R308, R513). -/
def PowerSt.sagLevel (x : PowerSt) : Nat := 5 * x.sagWarn

/-- A half in self-refresh writes its buffered metadata out (R176, R515). -/
def State.flushMeta (s : State) (h : Nat) : State :=
  s.onHalf h (fun x => if x.refresh == .asleep && x.metaBuf ≠ 0 then { x with refresh := .flushing, metaBuf := 0 } else x)

/-- SAG_WARN (R513, R515, R532). -/
def execSagWarn (busV10 : Nat) (s : State) : Host.Outcome State Fault Refusal :=
  let s := s.onPower (fun x => { x with bus := busV10 })
  if s.power.sagLevel ≤ busV10 || s.power.holds condSag then .next s else
  let s := (s.onPower (fun x => x.setCond condSag)).onAuth (fun a => { a with keepPaused := true })
  .next (((s.flushMeta 0).flushMeta 1).supply 1 busV10)

/-- SAG_CLEAR (R513, R515, R532): the bus has held 1 V above the threshold for 64 rounds. -/
def execSagClear (busV10 : Nat) (s : State) : Host.Outcome State Fault Refusal :=
  let s := s.onPower (fun x => { x with bus := busV10 })
  if busV10 < s.power.sagLevel + 10 || !s.power.holds condSag then .next s else
  let s := (s.onPower (fun x => x.clearCond condSag)).onAuth (fun a => { a with keepPaused := false })
  .next (s.supply 2 busV10)

/-- The fabric side loses its power: it is off, and its first EVENT after the start is the one given (R516, R531). -/
def State.powerLost (s : State) (code d0 d1 : Nat) : State :=
  s.loseFabric.onRst (fun r => { r with mode := .off, firstEvent := some { code := code, round := 0, d0 := d0, d1 := d1 } })

/-- UNDERVOLT_RESET (R513, R516): below 38.0 V the fabric side goes to reset at once. -/
def execUndervoltReset (busV10 : Nat) (s : State) : Host.Outcome State Fault Refusal :=
  let s := s.onPower (fun x => { x with bus := busV10 })
  if 380 ≤ busV10 then .next s else .next (s.powerLost evSupply 5 busV10)

/-- OVERVOLT (R513, R532): above 61.0 V. -/
def execOvervolt (busV10 : Nat) (s : State) : Host.Outcome State Fault Refusal :=
  let s := s.onPower (fun x => { x with bus := busV10 })
  if busV10 ≤ 610 || s.power.holds condOvervolt then .next s
  else .next ((s.onPower (fun x => x.setCond condOvervolt)).supply 7 busV10)

/-- OVERVOLT_CLEAR (R513, R517): the condition ends at 61.0 V or below. -/
def execOvervoltClear (busV10 : Nat) (s : State) : Host.Outcome State Fault Refusal :=
  let s := s.onPower (fun x => { x with bus := busV10 })
  if 610 < busV10 then .next s else .next (s.onPower (fun x => x.clearCond condOvervolt))

/-! ### Temperatures (R530 to R532) -/

/-- A sensor lies in a stack (R532). -/
def sensorInStack (n : Nat) : Bool := decide (8 ≤ n % 32)
/-- Throttle threshold of a sensor (R530). -/
def throttleAt (n : Nat) : Nat := if sensorInStack n then 95 else 105
/-- Trip of a sensor (R531). -/
def tripAt (n : Nat) : Nat := if sensorInStack n then 105 else 115

/-- Takes a sensor's reading. -/
def PowerSt.read (x : PowerSt) (n temp : Nat) : PowerSt :=
  { x with sensors := x.sensors.put 0 n temp, hottest := max x.hottest temp }
/-- Some sensor is at or above its throttle threshold (R530). -/
def PowerSt.hot (x : PowerSt) : Bool := List.any x.sensors (fun (e : Nat × Nat) => decide (throttleAt e.1 ≤ e.2))
/-- Every sensor is at least 3 °C below its threshold (R530). -/
def PowerSt.cool (x : PowerSt) : Bool := List.all x.sensors (fun (e : Nat × Nat) => decide (e.2 + 3 ≤ throttleAt e.1))

/-- THROTTLE (R530, R532): a sensor reaches its threshold. -/
def execThrottle (sensor temp : Nat) (s : State) : Host.Outcome State Fault Refusal :=
  let was := decide (throttleAt sensor ≤ s.power.sensors.look 0 sensor)
  let s := s.onPower (fun x => x.read sensor temp)
  if temp < throttleAt sensor then .next s else
  let s := s.onPower (fun x => x.begin condThrottle)
  .next (if was then s else s.thermal 1 sensor)

/-- THROTTLE_CLEAR (R530, R532): the condition ends once no sensor is at its threshold; the thermal cap then follows at
each boundary. -/
def execThrottleClear (sensor temp : Nat) (s : State) : Host.Outcome State Fault Refusal :=
  let s := s.onPower (fun x => x.read sensor temp)
  if s.power.hot || !s.power.holds condThrottle then .next s
  else .next ((s.onPower (fun x => x.clearCond condThrottle)).thermal 2 sensor)

/-- TRIP (R531, R577): the power stage of the fabric side goes off. -/
def execTrip (sensor temp : Nat) (s : State) : Host.Outcome State Fault Refusal :=
  if temp < tripAt sensor then .next (s.onPower (fun x => x.read sensor temp)) else
  .next ((s.powerLost evThermal 4 sensor).onRst (fun r => { r with stageOff := true, thermtrip := true }))

/-- The power stage or the bus is back: the fabric side leaves reset, unless DEV_RESET_N holds it (R516, R531, R578). -/
def State.powerBack (s : State) : State := (s.onRst (fun r => { r with mode := .reset })).release

/-- TRIP_COOLDOWN_END (R531, R577): 60 s have passed and every sensor reads below 60 °C. -/
def execTripCooldownEnd (s : State) : Host.Outcome State Fault Refusal :=
  if !s.rst.stageOff then .next s else
  let s := s.onRst (fun r => { r with stageOff := false, thermtrip := false })
  .next ((s.onPower (fun x => { x with sensors := [] })).powerBack)

/-! ### Caps (R514, R518, R519, R525, R529, R530) -/

/-- The feed cap while SINGLE_FEED holds (R514). -/
def PowerSt.feedCap (x : PowerSt) : Option Nat := if x.holds condSingle then some (36 * x.bus / 50 * 5) else none
/-- The sag cap while SAG_WARN holds (R515). -/
def PowerSt.sagLimit (x : PowerSt) : Option Nat := if x.holds condSag then some x.sagCap else none

/-- The lesser of a number and a term that may be absent. -/
def minTerm (a : Nat) (b : Option Nat) : Nat := match b with
  | some b => min a b
  | none => a

/-- CAP, or in LEARNED mode the allotment, unless none has come for 16 rounds (R519, R529). -/
def PowerSt.capTerm (x : PowerSt) : Nat := if x.learned && x.allotAge < 16 then x.allot.getD x.cap else x.cap

/-- The terms of R519 other than the thermal cap. -/
def PowerSt.otherTerms (x : PowerSt) : Nat := minTerm (minTerm x.capTerm x.feedCap) x.sagLimit

/-- The thermal cap at a boundary after a round of power P (R530). -/
def PowerSt.nextThermal (x : PowerSt) (p : Nat) : Option Nat :=
  if x.hot then some (p - 40)
  else if x.cool then (match x.thermalCap with
    | none => none
    | some t => if x.otherTerms < t + 20 then none else some (t + 20))
  else x.thermalCap

/-- The effective cap (R519). -/
def PowerSt.effective (x : PowerSt) : Nat := max 320 (minTerm x.otherTerms x.thermalCap)

/-- Moves one actuator (R524). -/
def PowerSt.actuate (x : PowerSt) (p weaver : Nat) : PowerSt :=
  if x.eff < p then
    if 1 < x.duty then { x with duty := max 1 (x.duty - ceilDiv ((p - x.eff) * x.duty) (max weaver x.duty)) }
    else if x.idle < 15 then { x with idle := x.idle + 1 }
    else if 1 < x.memM then { x with memM := x.memM - 1 }
    else x
  else if p + 20 ≤ x.eff then
    if x.memM < 16 then { x with memM := x.memM + 1 }
    else if 0 < x.idle then { x with idle := x.idle - 1 }
    else if x.duty < 16 then { x with duty := x.duty + 1 }
    else x
  else x

/-- Rounds above the cap with every actuator at its limit (R525). -/
def PowerSt.countOver (x : PowerSt) (p : Nat) : PowerSt :=
  let above := decide (x.eff < p) && x.duty == 1 && x.idle == 15 && x.memM == 1
  let x := { x with overRounds := if above then x.overRounds + 1 else 0 }
  if x.holds condHeldOver && decide (p ≤ x.eff) then x.clearCond condHeldOver else x

/-- An allotment that has arrived applies; without one the wait grows (R529). -/
def PowerSt.takeAllot (x : PowerSt) : PowerSt :=
  match x.allotNew with
  | some w => { x.clearCond condFallback with allot := some w, allotAge := 0, allotNew := none }
  | none => { x with allotAge := x.allotAge + 1 }

/-- Step 7 for the device: allotment, thermal cap, effective cap, and one actuator (R518, R519, R524, R525, R529, R530). -/
def PowerSt.step7 (x : PowerSt) (p weaver busV10 : Nat) (temps : List (Nat × Nat)) : PowerSt :=
  let x := temps.foldl (fun (x : PowerSt) e => x.read e.1 e.2) { x with bus := busV10 }
  let x := x.takeAllot
  let x := { x with thermalCap := x.nextThermal p }
  let x := { x with eff := x.effective }
  (x.countOver p).actuate p weaver

/-- CAP_HELD_OVER (R525, R532). -/
def execCapHeldOver (s : State) : Host.Outcome State Fault Refusal :=
  if s.power.overRounds < 64 || s.power.holds condHeldOver then .next s
  else .next ((s.onPower (fun x => x.setCond condHeldOver)).supply 6 s.power.eff)

/-- GROUP_FALLBACK (R529, R532). -/
def execGroupFallback (s : State) : Host.Outcome State Fault Refusal :=
  let x := s.power
  if !x.learned || x.group = 0 || x.allotAge < 16 || x.holds condFallback then .next s
  else .next ((s.onPower (fun x => x.setCond condFallback)).supply 8 x.group)

/-! ### Learned estimates and the power group (R528, R529) -/

/-- Pool bytes a partition moved since the last boundary (R528, R535). -/
def Partition.movedBytes (x : Partition) : Nat :=
  let d := fun (k : Nat) => (x.counters.look 0 k + 2 ^ 48 - x.latched.look 0 k) % 2 ^ 48
  d 30 + d 32

/-- The estimate of a partition after the round that ends, in µW, at the duty and idle counts of that round (R528). -/
def State.learned (s : State) (p : Nat) : Nat :=
  let x := s.part p
  let pj := x.energy / (1700 * 1700) + 20 * x.movedBytes
  let w := pj / 2 ^ s.rnd.running * 16 / max 1 s.power.duty * 16 / (16 - s.idleCount p)
  let old := x.est.look 0 x.phase
  let new : Int := (old : Int) + ((w : Int) - (old : Int)) / 16
  new.toNat

/-- The mode that step 7 of the coming boundary finds (R522). -/
def State.nextLearned (s : State) : Bool :=
  s.ctl.staged.foldl (fun b c => match c with
    | .mode learned _ _ => learned
    | _ => b) s.power.learned

/-- Every partition's estimate, in LEARNED mode; the energy of the round is used up in either mode (R528). -/
def State.learnAll (s : State) : State :=
  let new := s.liveParts.map (fun p => (p, s.learned p))
  let s := if s.nextLearned then
      s.each new (fun s e => s.onPart e.1 (fun x => { x with est := x.est.put 0 x.phase e.2 })) else s
  { s with parts := s.parts.mapAll {} (fun _ (x : Partition) => { x with energy := 0 }) }

/-- Rounds up to a multiple of 10 W (R529). -/
def up10 (n : Nat) : Nat := (n + 9) / 10 * 10

/-- This device's limit and demand (R529). -/
def State.myReport (s : State) (nonWeaver : Nat) : Nat × Nat :=
  let x := s.power
  let w := (s.liveParts.map (fun p => (s.part p).est.look 0 (s.part p).phase)).foldl (· + ·) 0
  (up10 (minTerm (minTerm x.cap x.feedCap) x.sagLimit), up10 (nonWeaver + ceilDiv w 1000000))

/-- A ROUND_CTRL payload: its kind, 0 report, 1 allotment, 2 length change, and two figures (R387). -/
def roundCtrlBytes (kind a b : Nat) : List Byte := toBytes 64 (kind + a * 2 ^ 8 + b * 2 ^ 24)

/-- Allotments of the members of a group, from endpoint, limit and demand (R529). -/
def allotments (ms : List (Nat × Nat × Nat)) : List (Nat × Nat) :=
  let g := (ms.map (fun m => m.2.1)).foldl (· + ·) 0
  let n := ms.length
  let want := fun (m : Nat × Nat × Nat) => min 1800 (m.2.2 + 50)
  let asked := (ms.map want).foldl (· + ·) 0
  let extra := (ms.map (fun m => m.2.2 - 320)).foldl (· + ·) 0
  ms.map (fun m =>
    if asked ≤ g then (m.1, max 320 (min 1800 (want m + (g - asked) * m.2.1 / max 1 g)))
    else (m.1, max 320 ((320 + (g - 320 * n) * (m.2.2 - 320) / max 1 extra) / 5 * 5)))

/-- A member reports to its leader; the leader allots, and its own allotment reaches it like the others' (R529). The
leader is the S48 of the lowest endpoint that the flooded state names. -/
def State.groupStep (s : State) (nonWeaver : Nat) : State :=
  if s.power.group = 0 || !s.power.learned then s else
  let me := s.rnd.endpoint
  let r := s.myReport nonWeaver
  if s.lowestEp ≠ me then
    s.launchFab { cls := 3, opcode := 0xC7, dstEp := s.lowestEp, units := 1, payload := roundCtrlBytes 0 r.1 r.2 }
  else
    let all := allotments ((me, r.1, r.2) :: s.power.reports)
    s.each all (fun s a =>
      if a.1 = me then s.onPower (fun x => { x with allotNew := some a.2 })
      else s.launchFab { cls := 3, opcode := 0xC7, dstEp := a.1, units := 1, payload := roundCtrlBytes 1 a.2 0 })

/-! ### The ceiling and the weavers' clocks (R339 to R341, R520 to R523) -/

/-- Clock of an operating point in MHz (R520). -/
def opClock (op : Nat) : Nat := [600, 700, 800, 950, 1100, 1300, 1500, 1700].getD op 1700

/-- The ceiling after 64 rounds (R521, R522). -/
def PowerSt.nextCeiling (x : PowerSt) : PowerSt :=
  if x.fixed then { x with ceiling := 7, boost := 0 } else
  let x := if x.boostEn then x else { x with boost := 0 }
  if x.dutySum < 12 * x.dutyRounds then
    (if 0 < x.boost then { x with boost := x.boost - 1 } else { x with ceiling := x.ceiling - 1 })
  else if x.allFull && decide (x.peak * 100 ≤ x.eff * 95) then
    if x.ceiling < 7 then { x with ceiling := x.ceiling + 1 }
    else if x.boostEn && decide (x.boost < 14) then { x with boost := x.boost + 1 }
    else x
  else x

/-- The preference of a partition in its current phase; 15 for none (R523). -/
def Partition.preference (x : Partition) : Nat := match x.pref.look 0 x.phase with
  | 0 => 15
  | n + 1 => n

/-- The target of a weaver: the highest preference of the partitions active on it; 15 where none is (R523). -/
def State.clockTarget (s : State) (w : Nat) : Nat :=
  let active := s.parts.filter (fun e => e.2.live && decide (e.2.placedAge ≤ 64) && e.2.affinity.getLsbD w)
  match active with
  | [] => 15
  | _ => active.foldl (fun m e => max m e.2.preference) 0

/-- Fused maximum (R340). -/
def Weaver.fusedMax (x : Weaver) : Nat := 1700 + 25 * (x.fmax - x.age)

/-- A weaver takes its new fused maximum, and its clock for the next 64 rounds (R339 to R342, R523). -/
def Weaver.retune (x : Weaver) (power : PowerSt) (target : Nat) : Weaver :=
  let fused := x.fusedMax
  let mhz := if power.fixed then 1700
    else if target < 15 then opClock (min target power.ceiling)
    else if power.ceiling < 7 then opClock power.ceiling
    else min (1700 + 25 * power.boost) fused
  let up := decide (1700 < mhz)
  { x with fused := fused, mhz := mhz, boosted := x.boosted || up,
           boostIntervals := if up then min (2 ^ 31 - 1) (x.boostIntervals + 1) else x.boostIntervals }

/-- Changes every weaver. -/
def State.onWeavers (s : State) (f : Nat → Weaver → Weaver) : State :=
  { s with weavers := ((List.range 768).map (fun w => (w, f w (s.weaver w)))).filter (fun e => decide (e.2 ≠ {})) }

/-- The power record (R517). -/
def PowerSt.words (x : PowerSt) : List U64 :=
  let w0 := x.cap % 2048 + x.eff % 2048 * 2 ^ 11 + x.duty * 2 ^ 22 + x.ceiling * 2 ^ 27 + x.boost * 2 ^ 30 +
    x.idle * 2 ^ 34 + x.memM * 2 ^ 38 + b2n x.learned * 2 ^ 43 + b2n x.fixed * 2 ^ 44 + b2n x.boostEn * 2 ^ 45 +
    b2n x.feedA * 2 ^ 46 + b2n x.feedB * 2 ^ 47
  let w2 := (List.range 8).foldl (fun n i => n + x.counts.look 0 i % 256 * 256 ^ i) 0
  [BitVec.ofNat 64 w0, BitVec.ofNat 64 x.cond.toNat, BitVec.ofNat 64 w2]

/-- OPERATING_POINT_CHANGE (R54, R339 to R341, R521 to R523): at a boundary that is a multiple of 64, once. -/
def execOperatingPointChange (s : State) : Host.Outcome State Fault Refusal :=
  if s.now % 64 ≠ 0 || s.power.dutyRounds = 0 then .next s else
  let s := s.onPower (fun x => { x.nextCeiling with dutySum := 0, dutyRounds := 0, allFull := true, peak := 0 })
  let s := s.each ((List.filter (fun (e : Nat × Weaver) => e.2.ageOut) s.weavers).map (·.1)) (fun s w => s.fenceWeaver w 6)
  let s := s.onWeavers (fun w x => x.retune s.power (s.clockTarget w))
  .next (s.onPower (fun x => { x with record := x.words })).dropUnfit

end Sys2Proof.Machine
end

