-- ==== Sys2Proof/Machine/Reset.lean ====
section
/-! DEFINITION. The reset and start commands (chapter 21, R577, R578). -/
namespace Sys2Proof.Machine

/-! ### Causes outside the rim (R551, R577, R578) -/

/-- POWER_ON (R513, R516, R551): the bus has held 40.0 V for 100 ms and reset is released. -/
def execPowerOn (s : State) : Host.Outcome State Fault Refusal :=
  if s.rst.mode == .off && !s.rst.stageOff then .next s.powerBack else .next s

/-- DEV_RESET_N (R551, R577, R578): a low level resets the fabric side and holds it there; its end lets the cold start
begin. -/
def execDevResetN (low : Bool) (s : State) : Host.Outcome State Fault Refusal :=
  if low then
    let t := if s.rst.mode == .off then s else s.loseFabric
    .next (t.onRst (fun r => { r with held := true }))
  else .next ((s.onRst (fun r => { r with held := false })).release)

/-! ### The host island (R449, R551, R578, R580) -/

/-- What the host-side die loses in its own reset; the fabric side's tables, channels and requests stay, and of what was
under way to the host the EVENTs (R449, R452). -/
def HostSt.islandReset (x : HostSt) : HostSt :=
  { up := false
    exts := x.exts
    reqs := x.reqs
    counters := x.counters.dropIf (fun k => decide (k < 7))
    bindings := x.bindings
    channels := x.channels
    toHost := x.toHost.filter (fun m => m.type = rtEvent)
    cfgStaged := x.cfgStaged }

/-- HOST_ISLAND_RESET (R449, R551): the host-side die is in reset and the rim is down; the fabric side goes on. -/
def execHostIslandReset (s : State) : Host.Outcome State Fault Refusal := .next (s.onHost HostSt.islandReset)

/-- The head message of each channel to the host is sent again (R449). -/
def State.resendHeads (s : State) : State :=
  s.each (List.range 128) (fun s ch =>
    match s.channel ch with
    | [] => s
    | m :: _ =>
      if (s.binding ch).any (fun b => b.2 == idHost) then
        s.toHost { type := rtMbxPut, dir := true, channel := ch, len := m.len, tag := m.part, payload := m.words }
      else s)

/-- HOST_ISLAND_RESET_RELEASE (R449, R578). -/
def execHostIslandResetRelease (s : State) : Host.Outcome State Fault Refusal :=
  if s.host.up then .next s else .next ((s.onHost (fun h => { h with up := true })).resendHeads)

/-! ### RESET_REQ (R446, R448, R563) -/

/-- A refused RESET_REQ (R447). -/
def State.rimNak (s : State) (tag : Nat) (st : Status) : State := s.nak rtResetReq tag st

/-- CONFIRM of kinds 2 and 3 (R446). -/
def resetConfirm : Nat := 0x52535431

/-- A RESET_REQ reaches the fabric side (R448). -/
def State.takesReset (s : State) : Bool := decide (2 ≤ s.rimPhase)

/-- The oldest message of a kind, if there is one, is off its way to the host side. -/
def State.pullToHost (s : State) (t : RimMsg → Bool) : State := match s.takeToHost t with
  | some x => x.2
  | none => s
/-- The oldest message of a kind, if there is one, is off its way to the fabric side. -/
def State.pullToFabric (s : State) (t : RimMsg → Bool) : State := match s.takeToFabric t with
  | some x => x.2
  | none => s
/-- Takes a RESET_REQ off its way to the fabric side. -/
def State.takeResetReq (s : State) : State := s.pullToFabric (fun m => m.type = rtResetReq)

/-- The EVENT that answers an accepted request (R563). -/
def State.resetAccepted (s : State) (kind b : Nat) : State := s.event evResetAccepted kind b

/-- Both lane groups retrain (R448, R563). -/
def RimGroup.retrain (g : RimGroup) : RimGroup := { g with up := false, health := 0, training := true, sends := 0 }

/-- RIM_RETRAIN (R563). -/
def execRimRetrain (_tag : Nat) (s : State) : Host.Outcome State Fault Refusal :=
  if !s.takesReset then .next s else
  let s := s.takeResetReq.resetAccepted 1 0
  .next (s.rimDark.onHost (fun h => { h with group0 := h.group0.retrain, group1 := h.group1.retrain }))

/-- A cold reset is due at the next boundary; before the round counter runs there is none, and it comes at once (R42,
R555, R563). -/
def State.coldDue (s : State) (kind : Nat) : State :=
  if s.rst.phase < 3 then (s.resetAccepted kind 0).loseFabric.release
  else (s.resetAccepted kind (s.now + 1)).onRst (fun r => { r with due := some (3, s.now + 1) })

/-- A keep store is being written (R510, R563). -/
def State.keepWriting (s : State) : Bool :=
  s.auth.writing.isSome || s.auth.stake0.keep == .writing || s.auth.stake1.keep == .writing

/-- DEVICE_WARM (R560, R563). -/
def execDeviceWarm (tag confirm : Nat) (s : State) : Host.Outcome State Fault Refusal :=
  if !s.takesReset then .next s else
  let s := s.takeResetReq
  if confirm ≠ resetConfirm then .next (s.rimNak tag .perm)
  else if s.rst.mode != .service then .next (s.coldDue 2)
  else if !s.leaseHeld || s.updateBusy || s.rst.warm.isSome || s.rst.due.isSome then .next (s.rimNak tag .busyRetry)
  else .next ((s.resetAccepted 2 (s.now + 1)).onRst (fun r => { r with due := some (2, s.now + 1) }))

/-- DEVICE_COLD (R563). -/
def execDeviceCold (tag confirm : Nat) (s : State) : Host.Outcome State Fault Refusal :=
  if !s.takesReset then .next s else
  let s := s.takeResetReq
  if confirm ≠ resetConfirm then .next (s.rimNak tag .perm)
  else if s.keepWriting then .next (s.rimNak tag .busyRetry)
  else .next (s.coldDue 3)

/-! ### Starts (R555 to R562) -/

/-- COLD_START (R555 to R559). -/
def execColdStart (f : StartFacts) (s : State) : Host.Outcome State Fault Refusal :=
  if s.rst.retained then .next s else .next (s.start f)

/-- WARM_START (R559, R561, R562). -/
def execWarmStart (f : StartFacts) (s : State) : Host.Outcome State Fault Refusal :=
  if s.rst.retained then .next (s.start f) else .next s

/-- SPINE_TRAINING_RETRY (R559): a bridge that trains ends the hold, and the start goes on from phase 5. -/
def execSpineTrainingRetry (bridgesOk : List Bool) (s : State) : Host.Outcome State Fault Refusal :=
  if !s.rst.noSpine then .next s else
  let s := s.trainBridges ((bridgesOk ++ [false, false]).take 2)
  if s.auth.bridge0 || s.auth.bridge1 then .next (s.onRst (fun r => { r with noSpine := false, phase := 4 })) else .next s

/-- Timelines that a warm reset interrupted pass their drain limit at the first boundary of SERVICE (R561). -/
def State.resumeTimelines (s : State) : State :=
  let back := s.now - 8
  { s with
    extents := s.extents.mapAll {} (fun _ (x : Extent) =>
      if x.st == .draining && !x.swept then { x with since := min x.since back } else x)
    regions := s.regions.mapAll {} (fun _ (x : Region) => { x with destroying := x.destroying.map (fun d => min d back) }) }

/-- ENTER_SERVICE (R456, R554, R555): the start is complete, and the bindings written in phase 9 are locked. -/
def execEnterService (s : State) : Host.Outcome State Fault Refusal :=
  if s.rst.mode != .start || s.rst.phase ≠ 9 then .next s else
  let s := if s.rst.retained then s.resumeTimelines else s
  .next ((s.onCtl (fun c => { c with locked := true })).onRst (fun r => { r with mode := .service, retained := false }))

/-! ### The quiesce of a warm reset (R560) -/

/-- WARM_QUIESCE_START: admission stops and suspended strokes complete with TIMEOUT. -/
def execWarmQuiesceStart (s : State) : Host.Outcome State Fault Refusal :=
  match s.rst.due with
  | some (2, w) =>
    if s.now < w then .next s else
    let s := s.onRst (fun r => { r with due := none, warm := some w, limited := false })
    .next (s.each s.liveParts (fun s p =>
      let ks := (s.part p).suspended ++ (s.part p).moved
      let s := s.onPart p (fun x => { x with suspended := [], moved := [] })
      s.each ks (fun s k => s.complete k.s .timeout k.s.used (admitDetail none 0) 0)))
  | _ => .next s

/-- WARM_QUIESCE_LIMIT: unfinished bulk operations complete with BUSY_RETRY, parked flags answer FLAG_TIMEOUT, and host
requests resolve as failed. -/
def execWarmQuiesceLimit (s : State) : Host.Outcome State Fault Refusal :=
  match s.rst.warm with
  | none => .next s
  | some w =>
    if s.rst.limited || s.now < w + 8 then .next s else
    let s := s.onRst (fun r => { r with limited := true })
    let s := s.cancelBulk (fun _ => true) .busyRetry
    let parked := (s.net.flows.filter (fun x => x.park.isSome)).map (·.id)
    let s := s.each parked State.flagExpire
    let open_ := (s.host.reqs.filter (fun q => q.answer.isNone)).map (·.tag)
    .next (s.each open_ (fun s t => s.answerHost t .busyRetry [] false))

/-- WARM_RESET_ENTRY: as boundary W + 10 begins, the stacks enter self-refresh, the links go down and the fabric side
resets. -/
def execWarmResetEntry (s : State) : Host.Outcome State Fault Refusal :=
  match s.rst.warm with
  | none => .next s
  | some w => if s.rst.limited && decide (w + 10 ≤ s.now + 1) then .next s.retainFabric.release else .next s

end Sys2Proof.Machine
end

