-- ==== Sys2Proof/Machine/Rim.lean ====
section
/-! DEFINITION. The rim: host memory requests, lane groups, mailbox and doorbell messages, EVENTs, time and refusals
(chapter 16, R28, R487). -/
namespace Sys2Proof.Machine

/-! ### Phases and answers (R441, R447, R448) -/

/-- The host-side die runs and the rim carries messages; otherwise it answers by itself (R448). -/
def State.rimOpen (s : State) : Bool := s.host.up && decide (2 ≤ s.rimPhase)

/-- The answer to a host read: zero data and poison for any status but OK (R435, R441). -/
def State.readAnswer (s : State) (tag : Nat) (st : Nat) (data : List Byte) (poison : Bool) : State :=
  if st = 0 then s.emit (.hostData tag (if poison then Status.poison.code else 0) data poison)
  else s.emit (.hostData tag Status.poison.code (List.replicate 64 0) true)

/-- The completion of a host write (R441). -/
def State.writeAnswer (s : State) (tag : Nat) : State := s.emit (.hostData tag 0 [] false)

/-- The 64 bytes of a host write (R446). -/
def line64 (bs : List Byte) : List Byte := (bs ++ List.replicate 64 0).take 64

/-- A host memory request reaches the fabric side (R438, R441, R447): refused, answered, served or held. -/
def State.hostMem (s : State) (type : Nat) (rsvd : Bool) (q : HostReq) : State :=
  if rsvd then s.nak type q.tag .rsvdNonzero
  else if s.rimPhase < 4 then s.nak type q.tag .notReady
  else if q.dpa % 64 ≠ 0 || (s.hostExtAt q.dpa (· == 2)).isNone then s.nak type q.tag .range
  else
    let s := s.onHost (fun h => { h with reqs := h.reqs ++ [q] })
    if s.rst.limited then s.answerHost q.tag .busyRetry [] false else s.tryHost q.tag

/-- RIM_MEM_RD (R438, R441, R446 to R448). -/
def execRimMemRd (tag dpa : Nat) (rsvd : Bool) (s : State) : Host.Outcome State Fault Refusal :=
  if !s.host.up then .next s
  else if !s.rimOpen then .next (s.readAnswer tag 1 [] true)
  else .next (s.hostMem rtMemRd rsvd { tag := tag, dpa := dpa, since := s.now })

/-- RIM_MEM_WR (R438, R441, R446 to R448). -/
def execRimMemWr (tag dpa : Nat) (data : List Byte) (mask : Option U64) (rsvd : Bool) (s : State) :
    Host.Outcome State Fault Refusal :=
  if !s.host.up then .next s
  else if !s.rimOpen then .next (s.writeAnswer tag)
  else .next (s.hostMem rtMemWr rsvd { tag := tag, dpa := dpa, write := true, data := line64 data, mask := mask, since := s.now })

/-- HOST_RELEASE in ns: the host port's target and 1,000 ns (R164, R487). -/
def State.hostRelease (s : State) : Nat := 10 * (match s.targets.look 0 54 with | 0 => 200 | n + 1 => n) + 1000

/-- HOST_RELEASE_TIMER (R441, R487): the answer of a request goes to the host; one that is certainly past HOST_RELEASE is
counted in HOST_LATE. -/
def execHostReleaseTimer (tag : Nat) (s : State) : Host.Outcome State Fault Refusal :=
  match s.host.reqs.find? (fun q => q.tag = tag && q.answer.isSome) with
  | none => .next s
  | some q =>
    let s := s.onHost (fun h => { h with reqs := h.reqs.erase q })
    let s := if s.hostRelease < (s.now - q.since - 1) * s.rnd.micros * 1000 then s.countNet 11 else s
    if !s.host.up then .next s else
    match q.answer with
    | none => .next s
    | some (st, data, poison) =>
      if q.write then
        let s := if st = 0 then s else (s.countHost 3).setInt flagRefused
        .next (s.writeAnswer tag)
      else .next ((if st = 0 then s else s.countHost 2).readAnswer tag st data poison)

/-- HOST_REQUEST_HOLD_TIMEOUT (R441): a request held for 256 rounds resolves as a failed one. -/
def execHostRequestHoldTimeout (tag : Nat) (s : State) : Host.Outcome State Fault Refusal :=
  match s.host.reqs.find? (fun q => q.tag = tag && q.answer.isNone) with
  | none => .next s
  | some q => .next (if q.since + 256 ≤ s.now then s.answerHost tag .notReady [] false else s)

/-! ### Lane groups (R442 to R444, R448, R453) -/

/-- A lane group. -/
def State.rimGroup (s : State) (g : Nat) : RimGroup := if g = 0 then s.host.group0 else s.host.group1
/-- Changes a lane group. -/
def State.onRimGroup (s : State) (g : Nat) (f : RimGroup → RimGroup) : State :=
  s.onHost (fun h => if g = 0 then { h with group0 := f h.group0 } else { h with group1 := f h.group1 })

/-- Active lanes of a mask. -/
def lanes10 (m : BitVec 10) : Nat := ((List.range 10).filter (fun i => m.getLsbD i)).length

/-- With both groups down, the host-side die answers what waited (R448). -/
def State.rimLost (s : State) : State :=
  if s.host.group0.up || s.host.group1.up then s
  else s.localAnswers.onHost (fun h => { h with reqs := [], toFabric := [] })

/-- Messages under way move to the group that R28 names now (R28, R443, R449). -/
def State.moveTraffic (s : State) : State :=
  let move := fun (m : RimMsg) => { m with group := s.laneGroup m.type }
  s.onHost (fun h => { h with toFabric := h.toFabric.map move, toHost := h.toHost.map move })

/-- A lane group goes down, and its traffic moves to the other (R28, R443, R453). -/
def State.groupDown (s : State) (g : Nat) : State :=
  let was := (s.rimGroup g).up
  let s := s.onRimGroup g (fun x => { x with up := false, health := 0, training := false, sends := 0 })
  let s := s.moveTraffic
  if was then (s.setInt flagRimDown).rimLost else s

/-- A lane group's width changes at both ends (R444, R453); fewer than 5 lanes take it down. -/
def State.setLanes (s : State) (g : Nat) (m : BitVec 10) : State :=
  if lanes10 m < 5 then s.groupDown g
  else if m = (s.rimGroup g).lanes then s
  else (s.onRimGroup g (fun x => { x with lanes := m })).setInt flagRimWidth

/-- RIM_HEALTH (R443, R444): the lane states of the sending end, and the acknowledgement of what it has received; the
fourth exchange in a row makes a group usable. -/
def execRimHealth (g : HalfId) (toHost : Bool) (lanes : BitVec 10) (s : State) : Host.Outcome State Fault Refusal :=
  if !s.host.up || s.rst.mode == .off || s.rst.mode == .reset || !s.ldWorks g.val then .next s
  else if lanes10 lanes < 5 then .next (s.groupDown g.val)
  else
    let s := (s.setLanes g.val lanes).onRimGroup g.val (fun x => { x with sends := 0 })
    if !toHost || (s.rimGroup g.val).up then .next s else
    let s := s.onRimGroup g.val (fun x => { x with health := x.health + 1 })
    if (s.rimGroup g.val).health < 4 then .next s
    else .next ((s.onRimGroup g.val (fun x => { x with up := true, training := false })).setInt flagRimUp)

/-- RIM_GROUP_DOWN (R28, R443): 8 µs without a valid RIM_HEALTH. -/
def execRimGroupDown (g : HalfId) (s : State) : Host.Outcome State Fault Refusal := .next (s.groupDown g.val)

/-- RIM_MESSAGE_CRC_FAIL (R443): the message is replayed from the buffer; an eighth sending takes the group down. -/
def execRimMessageCrcFail (g : HalfId) (_atHost : Bool) (s : State) : Host.Outcome State Fault Refusal :=
  let n := max 1 (s.rimGroup g.val).sends + 1
  if 8 ≤ n then .next (s.groupDown g.val)
  else .next (s.onRimGroup g.val (fun x => { x with sends := n, replays := x.replays + 1 }))

/-- RIM_LANE_FAULT (R444). -/
def execRimLaneFault (g : HalfId) (lane : Fin 10) (s : State) : Host.Outcome State Fault Refusal :=
  .next (s.setLanes g.val ((s.rimGroup g.val).lanes &&& ~~~((1 : BitVec 10) <<< lane.val)))

/-- RIM_LANE_RESTORE (R444): at most once in 65,536 rounds. -/
def execRimLaneRestore (g : HalfId) (lane : Fin 10) (s : State) : Host.Outcome State Fault Refusal :=
  let x := s.rimGroup g.val
  if x.lanes.getLsbD lane.val || (x.widened ≠ 0 && s.now + 1 < x.widened + 65536) then .next s
  else .next ((s.setLanes g.val (x.lanes ||| ((1 : BitVec 10) <<< lane.val))).onRimGroup g.val (fun y => { y with widened := s.now + 1 }))

/-! ### Drops and refusals (R446, R447) -/

/-- Directions and LEN that a type allows (R446). -/
def rimShape (type : Nat) (dir : Bool) : Option (Nat × Nat) :=
  match type, dir with
  | 0x01, false => some (0, 0)
  | 0x01, true => some (8, 8)
  | 0x02, false => some (8, 9)
  | 0x02, true => some (0, 0)
  | 0x03, _ => some (0, 255)
  | 0x04, _ => some (0, 0)
  | 0x05, false => some (1, 1)
  | 0x05, true => some (0, 0)
  | 0x06, false => some (32, 32)
  | 0x07, true => some (8, 8)
  | 0x08, false => some (4, 4)
  | 0x09, true => some (1, 2048)
  | 0x0A, false => some (1, 128)
  | 0x0B, false => some (0, 0)
  | 0x0B, true => some (1, 512)
  | 0x0C, true => some (4, 4)
  | 0x0D, false => some (1, 1)
  | 0x0E, false => some (0, 0)
  | 0x0E, true => some (2, 2)
  | 0x0F, _ => some (1, 1)
  | 0x10, _ => some (0, 0)
  | _, _ => none

/-- Why a message is dropped: TYPE 0, DIR 1 or LEN 2 (R447). -/
def dropCause (m : RimMsg) : Option Nat :=
  if m.type = 0 || 0x10 < m.type then some 0
  else match rimShape m.type m.dir with
    | none => some 1
    | some (lo, hi) => if m.len < lo || hi < m.len then some 2 else none

/-- A message is dropped and counted; at the host side RIM_DROP sets (R447, R453). -/
def State.rimDrop (s : State) (atHost : Bool) (cause : Nat) : State :=
  if atHost then (s.countHost (4 + cause)).setInt flagRimDrop else s.countHost (12 + cause)

/-- RIM_MESSAGE_DROP (R447). -/
def execRimMessageDrop (atHost : Bool) (m : RimMsg) (s : State) : Host.Outcome State Fault Refusal :=
  match dropCause m with
  | none => .next s
  | some c => .next (s.rimDrop atHost c)

/-- Words of the host-side die's own result for a refused or unsent control request (R454). -/
def localResult (st : Nat) (ws : List U64) : List U64 :=
  let w0 := ws.getD 0 0
  let w1 := ws.getD 1 0
  BitVec.ofNat 64 (st + bits w0 63 56 * 2 ^ 8 + bits w0 3 0 * 2 ^ 16 + bits w1 31 0 * 2 ^ 32) :: List.replicate 7 0

/-- A control result joins the result queue of 128 and CTRL_RES sets (R453, R454); with the queue full it is lost. -/
def State.takeResult (s : State) (ws : List U64) : State :=
  if 128 ≤ s.host.results.length then s
  else (s.onHost (fun h => { h with results := h.results ++ [ws] })).setInt flagCtrlRes

/-- What a refusal does at the host side, by the refused message's type (R441, R447, R448, R453, R454, R457). -/
def State.hostNak (s : State) (type tag : Nat) (st : Status) (kept : List U64) : State :=
  if type = rtMemRd then ((if st = .range then s.countHost 0 else s)).readAnswer tag st.code [] true
  else if type = rtMemWr then
    ((if st = .range then (s.countHost 1).setInt flagRefused else s)).writeAnswer tag
  else if type = rtMbxPut then
    let k := tag % 16
    if !s.host.mbxWait.look false k then s else
    (s.onHost (fun h => { h with mbxWait := h.mbxWait.put false k false, mbxTxStatus := h.mbxTxStatus.put 0 k st.code })).emit
      (.abort (0x3000 + 8 * k))
  else if type = rtCtrlSubmit then
    (s.onHost (fun h => { h with outstanding := h.outstanding - 1 })).takeResult (localResult st.code kept)
  else if type = rtAttestReq then s.onHost (fun h => { h with attestBusy := false, attestStatus := st.code })
  else if type = rtFwChunk then s.setInt flagFwNak
  else if type = rtTelemetry then s.onHost (fun h => { h with telemBusy := false })
  else s

/-- RIM_NAK (R447): a refusal arrives. At the fabric side it concerns nothing that the model keeps. -/
def execRimNak (toHost : Bool) (tag type : Nat) (st : Status) (s : State) : Host.Outcome State Fault Refusal :=
  if !toHost || !s.host.up then .next s else
  match s.takeToHost (fun m => m.type = rtRimNak && m.tag = tag && m.addr = type && m.status = st.code) with
  | some (m, t) => .next (t.hostNak type tag st m.payload)
  | none => .next (s.hostNak type tag st [])

/-! ### Mailboxes over the rim (R449, R456 to R459) -/

/-- RIM_MBX_PUT (R447, R448, R457): a message from the host is placed or refused, and MBX_ACK carries the result; a message
for the host sets MBX_RX. -/
def execRimMbxPut (m : RimMsg) (s : State) : Host.Outcome State Fault Refusal :=
  if !s.host.up then .next s
  else if m.dir then
    let s := s.pullToHost (fun x => x.type = rtMbxPut && x.channel = m.channel)
    .next (s.setInt flagMbxRx)
  else if !s.rimOpen then .next s
  else
    let s := s.pullToFabric (fun x => x.type = rtMbxPut && x.channel = m.channel)
    if 255 < m.len then .next (s.rimDrop false 2)
    else if m.rsvd then .next (s.nak rtMbxPut m.tag .rsvdNonzero)
    else if s.rimPhase < 4 then .next (s.nak rtMbxPut m.tag .notReady)
    else if 64 < m.len then .next (s.nak rtMbxPut m.tag .mbxLen)
    else
      let r := s.mbxPut idHost m.channel 0 m.len (m.payload ++ List.replicate m.len 0)
      .next (r.2.toHost { type := rtMbxAck, dir := true, channel := m.channel, tag := m.tag, status := r.1.code })

/-- The count of a partition's messages that the host has consumed goes to its mailbox area (R458, R459). -/
def State.countTxDone (s : State) (p : Nat) : State :=
  if !(s.part p).live then s else
  let n := (s.part p).txDone + 1
  let s := s.onPart p (fun x => { x with txDone := n })
  (s.writePva p ((s.part p).qtable + 0x810) (toBytes 8 n)).getD s

/-- RIM_MBX_ACK (R457, R458): at the host, a put result ends the read of MBX_PUT, and a consumption that empties the channel
sets MBX_EMPTY; at the fabric side a consumption takes the head message off its channel. -/
def execRimMbxAck (toHost : Bool) (channel tag : Nat) (consumed : Bool) (st : Status) (s : State) :
    Host.Outcome State Fault Refusal :=
  let addr := b2n consumed
  if toHost then
    if !s.host.up then .next s else
    let s := s.pullToHost (fun x => x.type = rtMbxAck && x.channel = channel && x.addr = addr)
    if consumed then .next (if (s.channel channel).isEmpty then s.setInt flagMbxEmpty else s) else
    let k := tag % 16
    if !s.host.mbxWait.look false k then .next s else
    let s := s.onHost (fun h => { h with mbxWait := h.mbxWait.put false k false, mbxTxStatus := h.mbxTxStatus.put 0 k st.code })
    .next (s.emit (if st = .ok then .readData (0x3000 + 8 * k) 0 else .abort (0x3000 + 8 * k)))
  else
    let s := s.pullToFabric (fun x => x.type = rtMbxAck && x.channel = channel && x.addr = addr)
    if !consumed || !(s.binding channel).any (fun b => b.2 == idHost) then .next s else
    match s.mbxTake channel with
    | none => .next s
    | some (m, t) => .next (if 112 ≤ channel then t.countTxDone m.part else t)

/-- MAILBOX_DELIVERY (R458, R459): the head message of a partition's channel goes into its mailbox area when it has room,
the slot before RX_PROD; a read that waits for a line, or an area that does not translate, leaves it in the channel. -/
def execMailboxDelivery (p : PartId) (s : State) : Host.Outcome State Fault Refusal :=
  let x := s.part p.val
  match s.channel p.val with
  | [] => .next s
  | m :: _ =>
    if !x.live then .next s else
    let o := s.readPva p.val (x.qtable + 0x808) 8
    let s := s.cleanPva p.val (x.qtable + 0x808) 8
    match o with
    | .wait => .next s
    | .bad _ => .next s
    | .ok bs =>
      if 3 ≤ (x.rxProd + 2 ^ 64 - ofBytes bs) % 2 ^ 64 then .next s else
      let body := toBytes 8 (m.len + p.val * 2 ^ 8) ++ toBytes 8 s.now ++ wordBytes m.words
      match (s.writePva p.val (x.qtable + 0x840 + 0x240 * (x.rxProd % 3)) body).bind
          (fun s => s.writePva p.val (x.qtable + 0x800) (toBytes 8 (x.rxProd + 1))) with
      | none => .next s
      | some t => match t.mbxTake p.val with
        | none => .next s
        | some (_, t) => .next (t.onPart p.val (fun x => { x with rxProd := x.rxProd + 1 }))

/-! ### Doorbells, control results, EVENTs and time (R446, R448, R450, R452) -/

/-- RIM_DOORBELL (R69, R446 to R448): a write to the HOST partition's doorbell block, refused with PERM where R69 refuses
it; towards the host, an MSI-X vector. -/
def execRimDoorbell (toHost : Bool) (head : RimHead) (addr : Nat) (v : U64) (s : State) : Host.Outcome State Fault Refusal :=
  if toHost then
    if !s.host.up then .next s else
    let s := s.pullToHost (fun x => x.type = rtDoorbell)
    .next (s.emit (.vector (addr % 16)))
  else if !s.rimOpen then .next s
  else
    let s := s.pullToFabric (fun x => x.type = rtDoorbell && x.tag = head.tag)
    if head.rsvd || 4096 ≤ addr then .next (s.nak rtDoorbell head.tag .rsvdNonzero)
    else if s.rimPhase < 4 then .next (s.nak rtDoorbell head.tag .notReady)
    else match s.hostPart with
      | none => .next (s.nak rtDoorbell head.tag .perm)
      | some p =>
        let r := s.doorbell p addr v
        .next (if r.1 = .ok then r.2 else r.2.nak rtDoorbell head.tag r.1)

/-- CTRL_RESULT (R449, R453, R454): a control result arrives; it is lost while the host-side die is in reset. -/
def execCtrlResult (s : State) : Host.Outcome State Fault Refusal :=
  match s.takeToHost (fun m => m.type = rtCtrlResult) with
  | none => .next s
  | some (m, s) =>
    if !s.host.up then .next s
    else .next ((s.onHost (fun h => { h with outstanding := h.outstanding - 1 })).takeResult m.payload)

/-- An EVENT record as it arrives. -/
def eventOf (m : RimMsg) : EventRec :=
  { code := bits (m.payload.getD 0 0) 15 0, round := (m.payload.getD 1 0).toNat, d0 := (m.payload.getD 2 0).toNat,
    d1 := (m.payload.getD 3 0).toNat }

/-- EVENT (R450, R452, R453): the record joins the event queue of 256, or is counted dropped, and a CXL event log. -/
def execEvent (s : State) : Host.Outcome State Fault Refusal :=
  if !s.host.up then .next s else
  match s.takeToHost (fun m => m.type = rtEvent) with
  | none => .next s
  | some (m, s) =>
    let e := eventOf m
    let s := s.onHost (fun h =>
      let h := if h.events.length < 256 then { h with events := h.events ++ [e] } else { h with eventsDropped := sat8 h.eventsDropped }
      if e.code = evDc then { h with dcLog := h.dcLog ++ [e] } else { h with cxlLog := h.cxlLog ++ [e] })
    .next (s.setInt flagEvent)

/-- TIME_SYNC reaches the host: the round, with a rim timestamp (R446, R452). -/
def State.timeSync (s : State) : State :=
  let t := s.takeFree
  (t.2.onHost (fun h => { h with roundSync := s.now })).emit (.time s.now (Config.rimTime t.1))

/-- TIME_SYNC (R446, R448). -/
def execTimeSync (head : RimHead) (s : State) : Host.Outcome State Fault Refusal :=
  if !s.rimOpen then .next s else
  let s := s.pullToFabric (fun x => x.type = rtTimeSync && x.tag = head.tag)
  if head.rsvd then .next (s.nak rtTimeSync head.tag .rsvdNonzero) else
  .next s.timeSync

/-- TIME_SYNC_PERIODIC (R446): every 1,024 rounds. -/
def execTimeSyncPeriodic (s : State) : Host.Outcome State Fault Refusal :=
  if s.rimOpen && s.now % 1024 == 0 then .next s.timeSync else .next s

end Sys2Proof.Machine
end

