-- ==== Sys2Proof/Machine/Telemetry.lean ====
section
/-! DEFINITION. TELEMETRY, attestation and firmware over the rim (R342, R382, R437, R446, R451, R467, R486, R510, R511,
R545, R549, R559, R576). -/
namespace Sys2Proof.Machine

/-! ### The data of each selector (R451, R486) -/

/-- Code of a weaver's STATE (R342). -/
def WState.code : WState → Nat
  | .active => 0 | .fenced => 1 | .retired => 2

/-- A weaver record (R342). -/
def weaverRecord (w : Nat) (x : Weaver) : List U64 :=
  [BitVec.ofNat 64 (w + x.fmax % 16 * 2 ^ 10 + x.age % 16 * 2 ^ 14 + x.st.code * 2 ^ 18 + x.cause % 16 * 2 ^ 20 +
     x.margin % 256 * 2 ^ 24 + b2n x.boosted * 2 ^ 32 + x.boostIntervals % 2 ^ 31 * 2 ^ 33),
   BitVec.ofNat 64 x.stateRound]

/-- Code of a link's STATE (R369, R382). -/
def LState.code : LState → Nat
  | .dark => 0 | .training => 1 | .probation => 2 | .up => 3 | .paused => 4 | .hold => 5 | .versionMismatch => 6 | .failed => 7

/-- A link record (R382); WIDTH is 0 while the link carries no data. -/
def linkRecord (l : Nat) (x : Link) : List U64 :=
  let carries : Bool := x.st == .probation || x.st == .up || x.st == .paused
  let width := if carries then ((List.range 8).filter (fun i => x.lanes.getLsbD i)).length else 0
  [BitVec.ofNat 64 (l + x.st.code * 2 ^ 6 + width * 2 ^ 10 + x.lanes.toNat * 2 ^ 14 + x.major % 256 * 2 ^ 22 + x.minor % 256 * 2 ^ 30 +
     x.downCause % 16 * 2 ^ 38 + x.delay % 512 * 2 ^ 42),
   BitVec.ofNat 64 (x.peerEp % 2 ^ 24 + x.peerClass % 16 * 2 ^ 24), BitVec.ofNat 64 x.stateRound]

/-- The summary, 12 words: mean power, integrity states, active stake, lease epoch, temperature, the health words of the
stakes, two zero words, and the power record. The order of its words is the model's own (R451, R486, R488, R517, R576). -/
def State.summaryWords (s : State) : List U64 :=
  [BitVec.ofNat 64 s.power.shown.1, BitVec.ofNat 64 (s.half0.integrity.code + s.half1.integrity.code * 8),
   BitVec.ofNat 64 s.activeHalf, BitVec.ofNat 64 s.leaseEpoch, BitVec.ofNat 64 s.power.shown.2, s.healthWord 0,
   s.healthWord 1, 0, 0] ++
  (s.power.record ++ [0, 0, 0]).take 3

/-- An operator value as it is read: rounded down to a multiple of 256 (R486). -/
def coarseValue (n : Nat) : Nat := n / 256 * 256

/-- The operator snapshot in a slot of the ring, 16 rounds after its boundary (R486, R545). -/
def State.ringSlot (s : State) (slot : Nat) : Option (Nat × Nat × Bool × SMap Nat) :=
  s.cnt.ring.find? (fun e => e.2.1 % 8 = slot && decide (e.1 + 16 ≤ s.now))

/-- A page of the operator counter ring: ROUND, SEQ and PARTIAL on page 0 of a slot, then 512 values each (R545). -/
def State.ringPage (s : State) (pp : Nat) : List U64 :=
  match s.ringSlot (pp / 20) with
  | none => List.replicate (if pp % 20 = 0 then 3 else 512) 0
  | some e =>
    if pp % 20 = 0 then [BitVec.ofNat 64 e.1, BitVec.ofNat 64 e.2.1, BitVec.ofNat 64 (b2n e.2.2.1)]
    else (nums (512 * (pp % 20 - 1)) 512).map (fun k => BitVec.ofNat 64 (coarseValue (e.2.2.2.look 0 k)))

/-- A page of the operator sample ring, 64 records, each readable 16 rounds after its round (R549). -/
def State.samplePage (s : State) (page : Nat) : List U64 :=
  (nums (64 * page) 64).flatMap (fun slot =>
    let hit := s.cnt.samples.find? (fun r => bits (r.getD 0 0) 31 0 % 6144 = slot && decide ((r.getD 1 0).toNat + 16 ≤ s.now))
    ((hit.getD []) ++ List.replicate 8 0).take 8)

/-- The data of a selector (R451). -/
def State.telemetryData (s : State) (sel : Nat) : Option (List U64) :=
  let pp := sel % 256
  if sel = 0 then some s.summaryWords
  else if sel / 256 = 1 && pp < 3 then some ((nums (256 * pp) 256).flatMap (fun w => weaverRecord w (s.weaver w)))
  else if sel = 0x200 then some ((List.range 48).flatMap (fun l => linkRecord l (s.link l)))
  else if sel / 256 = 3 then some (if pp < 160 then s.ringPage pp else s.samplePage (pp - 160))
  else if sel = 0x400 then some ([0, 1, 2, 3, 4, 5, 6, 12, 13, 14].map (fun k => BitVec.ofNat 64 (coarseValue (s.host.counters.look 0 k))))
  else none

/-- TELEMETRY (R446, R448, R451): the data go to the host; a selector that the table lacks is refused. -/
def execTelemetry (head : RimHead) (selector : Nat) (s : State) : Host.Outcome State Fault Refusal :=
  if !s.rimOpen then .next s else
  let s := s.pullToFabric (fun x => x.type = rtTelemetry && x.tag = head.tag)
  if head.rsvd || 65536 ≤ selector then .next (s.nak rtTelemetry head.tag .rsvdNonzero) else
  match s.telemetryData selector with
  | none => .next (s.nak rtTelemetry head.tag .unsupported)
  | some ws => .next (s.toHost { type := rtTelemetry, dir := true, tag := head.tag, len := ws.length, addr := selector, payload := ws })

/-- TELEMETRY_DATA (R452, R453, R576): data land in TELEM_BUF; a summary refreshes the I3C block. -/
def execTelemetryData (s : State) : Host.Outcome State Fault Refusal :=
  match s.takeToHost (fun m => m.type = rtTelemetry) with
  | none => .next s
  | some (m, s) =>
    if !s.host.up then .next s else
    .next ((s.onHost (fun h => { h with
      telemBuf := m.payload
      telemBusy := false
      summary := if m.addr = 0 then m.payload else h.summary })).setInt flagTelemDone)

/-! ### Attestation (R437, R446, R452) -/

/-- ATTEST_REQ (R437, R446, R448): the stake that holds the lease makes the device report, with the IDE key material; with
no lease the request waits. -/
def execAttestReq (head : RimHead) (nonce : List U64) (s : State) : Host.Outcome State Fault Refusal :=
  if !s.rimOpen || (!head.rsvd && !s.leaseHeld) then .next s else
  let s := s.pullToFabric (fun x => x.type = rtAttestReq && x.tag = head.tag)
  if head.rsvd then .next (s.nak rtAttestReq head.tag .rsvdNonzero) else
  let bs := s.report none nonce
  let t := s.takeFree
  let ws := (bytesWords (bs.length / 8) bs ++ Config.ideKey t.1).take 2048
  .next (t.2.toHost { type := rtAttestResp, dir := true, tag := head.tag, len := ws.length, payload := ws })

/-- ATTEST_RESP (R452, R453). -/
def execAttestResp (st : Status) (s : State) : Host.Outcome State Fault Refusal :=
  match s.takeToHost (fun m => m.type = rtAttestResp) with
  | none => .next s
  | some (m, s) =>
    if !s.host.up then .next s else
    .next ((s.onHost (fun h => { h with attestBuf := m.payload, attestBusy := false, attestStatus := st.code })).setInt flagAttestDone)

/-! ### Firmware (R510, R511, R559) -/

/-- A keep store is set WRITING for an image, which is the one being staged or the one in the other keep store (R510). -/
def State.startKeep (s : State) (k : Nat) (digest : List U64) (svn : Nat) (forStage : Bool) : State :=
  let n := match s.auth.staging with
    | some x => x.1
    | none => (s.stake (1 - k)).keepBytes
  (s.onStake k (fun x => { x with keep := .writing, keepBytes := n })).onAuth (fun a => { a with writing := some (k, digest, svn, forStage) })

/-- Every chunk of FW.STAGE has arrived: the checks of R467, and the standby's keep store (R511). -/
def State.stageChunks (s : State) (facts : ImageFacts) : State :=
  if !s.staged || s.auth.stagedImage.isSome then s else
  let s := s.onAuth (fun a => { a with stagedImage := some facts })
  if imageStatus s.holderStake facts != .ok || s.keepWriting then s
  else s.startKeep (1 - (s.lease s.activeHalf).holder) facts.digest facts.svn true

/-- Length and chunk count of the image that RECOVERY takes, from BODY_LENGTH in word 1 of chunk 0 and the 3,780 bytes of
its header and signature (R466, R559). -/
def recoverySize (w1 : U64) : Nat × Nat :=
  let n := bits w1 31 0 + 3780
  (n, ceilDiv n 1024)

/-- RECOVERY has the whole image: the home stake's slath applies R467; a good image is written to both keep stores, and a
cold reset follows (R559). -/
def State.recoverImage (s : State) (facts : ImageFacts) : State :=
  if !s.staged then s else
  let n := (s.auth.staging.map (·.1)).getD 0
  let s := s.onAuth (fun a => { a with staging := none })
  if imageStatus (s.stake s.rst.homeHalf) facts != .ok then s else
  let put := fun (x : Stake) => { x with keep := KeepState.valid, keepBytes := n, keepDigest := facts.digest, keepSvn := facts.svn }
  ((s.onStake 0 put).onStake 1 put).loseFabric.release

/-- In RECOVERY, chunk 0 starts a staging area of the size that its BODY_LENGTH gives (R511, R559). -/
def State.beginRecovery (s : State) (index : Nat) (words : List U64) : State :=
  if s.rst.mode == .recovery && index = 0 && s.auth.staging.isNone then
    let n := recoverySize (words.getD 1 0)
    s.onAuth (fun a => { a with staging := some (n.1, n.2, []) })
  else s

/-- A chunk joins the staging area; RANGE outside it, or with nothing staged (R447, R511). -/
def State.takeChunk (s : State) (tag index : Nat) (words : List U64) (facts : ImageFacts) : State :=
  match s.auth.staging with
  | none => s.nak rtFwChunk tag .range
  | some (len, count, got) =>
    if count ≤ index || len + 7 < 1024 * index + 8 * words.length then s.nak rtFwChunk tag .range else
    let s := s.onAuth (fun a => { a with staging := some (len, count, got.put [] index words) })
    if s.rst.mode == .recovery then s.recoverImage facts else s.stageChunks facts

/-- FW_CHUNK (R446, R447, R448, R511, R559). -/
def execFwChunk (head : RimHead) (index : Nat) (words : List U64) (facts : ImageFacts) (s : State) :
    Host.Outcome State Fault Refusal :=
  if !s.rimOpen then .next s else
  let s := s.pullToFabric (fun x => x.type = rtFwChunk && x.tag = head.tag)
  if words.isEmpty || 128 < words.length then .next (s.rimDrop false 2)
  else if head.rsvd || 2 ^ 32 ≤ index then .next (s.nak rtFwChunk head.tag .rsvdNonzero)
  else if s.rimPhase = 2 then .next (s.nak rtFwChunk head.tag .notReady)
  else if s.rimPhase = 5 then .next (s.nak rtFwChunk head.tag .busyRetry)
  else .next ((s.beginRecovery index words).takeChunk head.tag index words facts)

end Sys2Proof.Machine
end

