-- ==== Sys2Proof/Machine/HostRegs.lean ====
section
/-! DEFINITION. The host register block (R452 to R454, R457, R458, R511): each write or read that does something, and plain
writes. A write with a nonzero reserved bit has no effect (R10). -/
namespace Sys2Proof.Machine

/-- A register command reaches a working host-side die. -/
def State.hostReg (s : State) (ok : Bool) (f : State → State) : Host.Outcome State Fault Refusal :=
  .next (if s.host.up && ok then f s else s)

/-- The words of a buffer. -/
def bufWords (m : SMap U64) (lo n : Nat) : List U64 := (nums lo n).map (m.look 0)

/-! ### Control requests and results (R448, R452, R454) -/

/-- CTRL_GO: more than 64 outstanding give a local BUSY_RETRY and a dark rim a local TIMEOUT; otherwise the copied request
crosses, and joins the operator's queue in SERVICE (R302, R448, R454). -/
def State.ctrlGo (s : State) : State :=
  let ws := bufWords s.host.ctrlReq 0 32
  if 64 ≤ s.host.outstanding then s.takeResult (localResult Status.busyRetry.code ws)
  else if !s.rimOpen then s.takeResult (localResult Status.timeout.code ws)
  else
    let s := s.onHost (fun h => { h with outstanding := h.outstanding + 1 })
    if s.rimPhase < 4 then s.nak rtCtrlSubmit 0 .notReady (ws.take 2)
    else if s.rimPhase = 5 then s.nak rtCtrlSubmit 0 .busyRetry (ws.take 2)
    else s.enqueue .operator { words := ws }

/-- CTRL_GO (R454). -/
def execCtrlGo (s : State) : Host.Outcome State Fault Refusal := s.hostReg true State.ctrlGo

/-- CTRL_RES_POP (R452). -/
def execCtrlResPop (s : State) : Host.Outcome State Fault Refusal :=
  s.hostReg true (fun s => s.onHost (fun h => { h with results := h.results.drop 1 }))

/-- EVENT_POP (R452). -/
def execEventPop (s : State) : Host.Outcome State Fault Refusal :=
  s.hostReg true (fun s => s.onHost (fun h => { h with events := h.events.drop 1 }))

/-! ### Mailboxes (R448, R457, R458) -/

/-- MBX_PUT_READ (R448, R457): the message in MBX_TX goes over the rim and the read waits for its MBX_ACK; a dark rim ends it
with Completer Abort. -/
def execMbxPutRead (k : Fin 16) (s : State) : Host.Outcome State Fault Refusal :=
  s.hostReg true (fun s =>
    if !s.rimOpen then s.emit (.abort (0x3000 + 8 * k.val))
    else if s.host.mbxWait.look false k.val then s
    else
      let len := s.host.mbxTxLen.look 0 k.val
      let s := s.onHost (fun h => { h with mbxWait := h.mbxWait.put false k.val true })
      s.toFabric { type := rtMbxPut, channel := 64 + k.val, tag := k.val, len := len,
                   payload := bufWords s.host.mbxTx (64 * k.val) (min len 64) })

/-- MBX_ACK_TIMEOUT (R457): no MBX_ACK within 20 µs. -/
def execMbxAckTimeout (k : Fin 16) (s : State) : Host.Outcome State Fault Refusal :=
  s.hostReg (s.host.mbxWait.look false k.val) (fun s =>
    (s.onHost (fun h => { h with
      mbxWait := h.mbxWait.put false k.val false
      mbxTxStatus := h.mbxTxStatus.put 0 k.val Status.timeout.code })).emit (.abort (0x3000 + 8 * k.val)))

/-- Channel of a receive index (R452). -/
def rxChannel (j : Nat) : Nat := if j < 16 then 80 + j else 96 + j

/-- MBX_POP (R458): the head message is consumed, and MBX_ACK says so; a message already acknowledged is not consumed
again. -/
def execMbxPop (j : Fin 32) (s : State) : Host.Outcome State Fault Refusal :=
  let ch := rxChannel j.val
  let sent := (s.host.toFabric.filter (fun m => m.type = rtMbxAck && m.channel = ch)).length
  s.hostReg (decide (sent < (s.channel ch).length)) (fun s => s.toFabric { type := rtMbxAck, channel := ch, addr := 1 })

/-! ### Flags and requests over the rim (R9, R446, R451 to R453, R511, R563) -/

/-- INT_STATUS_WRITE (R9, R10, R453): a flag set in the same cycle stays set and counts, also where the write has no effect
for a reserved bit. -/
def execIntStatusWrite (v setSameCycle : U64) (s : State) : Host.Outcome State Fault Refusal :=
  let s := s.each ((List.range 12).filter (fun i => setSameCycle.getLsbD i)) State.setInt
  s.hostReg (decide (v.toNat < 4096)) (fun s => s.onHost (fun h => { h with intStatus := clearFlags h.intStatus v (setSameCycle &&& 0xFFF) }))

/-- TELEM_REQ (R448, R451, R452). -/
def execTelemReq (v : U64) (s : State) : Host.Outcome State Fault Refusal :=
  s.hostReg (decide (v.toNat < 65536) && s.rimOpen) (fun s =>
    (s.onHost (fun h => { h with telemBusy := true })).toFabric { type := rtTelemetry, addr := v.toNat })

/-- ATTEST_GO (R446, R452). -/
def execAttestGo (s : State) : Host.Outcome State Fault Refusal :=
  s.hostReg s.rimOpen (fun s =>
    (s.onHost (fun h => { h with attestBusy := true })).toFabric
      { type := rtAttestReq, len := 4, payload := bufWords s.host.nonce 0 4 })

/-- FW_GO (R447, R452, R511): a length that FW_CHUNK does not allow is dropped at the fabric side. -/
def execFwGo (v : U64) (s : State) : Host.Outcome State Fault Refusal :=
  let n := bits v 39 32
  s.hostReg (decide (v.toNat < 2 ^ 40) && s.rimOpen) (fun s =>
    if n = 0 || 128 < n then s.rimDrop false 2
    else s.toFabric { type := rtFwChunk, len := n, addr := bits v 31 0, payload := bufWords s.host.fwBuf 0 n })

/-- HOST_DB (R446, R452). -/
def execHostDb (v : U64) (s : State) : Host.Outcome State Fault Refusal :=
  s.hostReg (decide (v.toNat < 2 ^ 32) && bits v 15 12 == 0 && s.rimOpen) (fun s =>
    s.toFabric { type := rtDoorbell, len := 1, addr := bits v 11 0, payload := [BitVec.ofNat 64 (bits v 31 16)] })

/-- RESET_CMD (R446, R447, R452, R563): a RESET_REQ crosses; reserved bits and an undefined KIND are refused. -/
def execResetCmd (v : U64) (s : State) : Host.Outcome State Fault Refusal :=
  s.hostReg s.rimOpen (fun s =>
    let kind := bits v 3 0
    if bits v 31 4 ≠ 0 then s.rimNak 0 .rsvdNonzero
    else if kind = 0 || 3 < kind then s.rimNak 0 .unsupported
    else s.toFabric { type := rtResetReq, len := 1, payload := [v] })

/-! ### Plain writes (R8, R10, R452) -/

/-- The value of a register after a 4 or 8 B write at an offset. -/
def mergeWrite (old : U64) (offset size : Nat) (v : U64) : U64 :=
  if size = 8 then v
  else if offset % 8 = 0 then (old &&& 0xFFFFFFFF00000000) ||| (v &&& 0xFFFFFFFF)
  else (old &&& 0xFFFFFFFF) ||| (v <<< 32)

/-- A write to a register that only holds what is written: INT_ENABLE, CTRL_REQ, MBX_TX, MBX_TXLEN, ATTEST_NONCE, FW_BUF. -/
def HostSt.plainWrite (h : HostSt) (offset size : Nat) (v : U64) : HostSt :=
  let put := fun (m : SMap U64) (k : Nat) => m.put 0 k (mergeWrite (m.look 0 k) offset size v)
  if offset / 8 = 0x18 / 8 then
    let x := mergeWrite h.intEnable offset size v
    if 4096 ≤ x.toNat then h else { h with intEnable := x }
  else if 0x100 ≤ offset && offset < 0x200 then { h with ctrlReq := put h.ctrlReq ((offset - 0x100) / 8) }
  else if 0x1000 ≤ offset && offset < 0x3000 then { h with mbxTx := put h.mbxTx ((offset - 0x1000) / 8) }
  else if 0x3080 ≤ offset && offset < 0x3100 then
    let k := (offset - 0x3080) / 8
    let x := mergeWrite (BitVec.ofNat 64 (h.mbxTxLen.look 0 k)) offset size v
    if 256 ≤ x.toNat then h else { h with mbxTxLen := h.mbxTxLen.put 0 k x.toNat }
  else if 0x9400 ≤ offset && offset < 0x9420 then { h with nonce := put h.nonce ((offset - 0x9400) / 8) }
  else if 0x9800 ≤ offset && offset < 0x9C00 then { h with fwBuf := put h.fwBuf ((offset - 0x9800) / 8) }
  else h

/-- HOST_REGISTER_WRITE (R452): an access that is not 4 or 8 B and naturally aligned within BAR0 ends in Completer Abort;
a write to a read-only or unlisted offset is ignored. -/
def execHostRegisterWrite (offset size : Nat) (v : U64) (s : State) : Host.Outcome State Fault Refusal :=
  s.hostReg true (fun s =>
    if !(size = 4 || size = 8) || offset % size ≠ 0 || 0x10000 ≤ offset then s.emit (.abort offset)
    else s.onHost (fun h => h.plainWrite offset size v))

end Sys2Proof.Machine
end

