-- ==== Sys2Proof/Machine/HostMgmt.lean ====
section
/-! DEFINITION. The CXL primary mailbox and the host services of the stake: Dynamic Capacity and the configuration record
(R435, R436, R438 to R440, R450, R460, R553). -/
namespace Sys2Proof.Machine

/-! ### Host services (R439, R440, R460, R553) -/

/-- What a service comes to: its status, the words of its answer from word 1 on, and the changes it stages. -/
structure Served where
  st : Status := .ok
  words : List U64 := []
  stage : List Change := []

/-- Entries of the host extent table that are in use (R438). -/
def State.hostEntries (s : State) : List (Nat × HostExt) := List.filter (fun (e : Nat × HostExt) => e.2.st ≠ 0) s.host.exts

/-- The lowest free DPA range of a size in blocks, in units of 2 MiB, below 64 GiB (R438, R439). -/
def freeDpa (used : List (Nat × Nat)) (n : Nat) : Option Nat :=
  let starts := 0 :: used.map (fun e => e.1 + e.2)
  let ok := starts.filter (fun a => decide (a + n ≤ 32768) && used.all (fun e => decide (a + n ≤ e.1) || decide (e.1 + e.2 ≤ a)))
  ok.foldl (fun (m : Option Nat) a => some (match m with | some b => min a b | none => a)) none

/-- DC_OFFER (R439), against the state at the effect boundary. -/
def dcOffer (f : State) (e pva : Nat) : Served :=
  let x := f.extent e
  let used := f.hostEntries
  let blocks := x.blocks.length
  let ranges := used.map (fun y => (y.2.dpa / 0x200000, y.2.blocks))
  let total := used.foldl (fun n y => n + y.2.blocks) 0
  let slot := (List.range 64).find? (fun i => (f.host.exts.look {} i).st = 0)
  if 16384 ≤ e || 2 ^ 48 ≤ pva then { st := .rsvdNonzero }
  else if !(x.st == .active && f.hostPart == some x.holder) then { st := .perm }
  else if x.root || x.hosted || x.region.isSome then { st := .conflict }
  else if x.certified < blocks then { st := .notReady }
  else match slot, freeDpa ranges blocks with
    | some i, some a =>
      if pva % 0x200000 ≠ 0 || 32768 < total + blocks then { st := .range }
      else { words := [BitVec.ofNat 64 (a * 0x200000)], stage := [.hostOffer i e (a * 0x200000) pva blocks] }
    | _, _ => { st := .range }

/-- DC_WITHDRAW (R440): with FORCE the entry becomes RELEASING; without, the host is asked by an event. -/
def dcWithdraw (f : State) (e : Nat) (force : Bool) : Served × Option (Nat × Nat) :=
  if 16384 ≤ e then ({ st := .rsvdNonzero }, none) else
  match f.hostEntries.find? (fun x => x.2.ext = e && (x.2.st = 1 || x.2.st = 2)) with
  | none => ({ st := .range }, none)
  | some (i, x) => if force then ({ stage := [.hostExtent i 3] }, none) else ({}, some (i, x.st))

/-- Relayed CXL opcodes (R436). -/
def dcGetConfig : Nat := 0x4800
/-- Get Dynamic Capacity Extent List. -/
def dcGetList : Nat := 0x4801
/-- Add Dynamic Capacity Response. -/
def dcAdd : Nat := 0x4802
/-- Release Dynamic Capacity. -/
def dcRelease : Nat := 0x4803

/-- A relayed Dynamic Capacity command (R435, R436, R440): the one region of 64 GiB in blocks of 2 MiB; the extents
accepted; an offer accepted; an extent released by the host. -/
def dcCommand (f : State) (op entry : Nat) : Served :=
  let x := f.host.exts.look {} entry
  if op = dcGetConfig then { words := [1, 0, BitVec.ofNat 64 0x1000000000, BitVec.ofNat 64 0x200000] }
  else if op = dcGetList then
    { words := (f.hostEntries.filter (fun e => e.2.st = 2)).flatMap (fun e => [BitVec.ofNat 64 e.2.dpa, BitVec.ofNat 64 (e.2.blocks * 0x200000)]) }
  else if op = dcAdd then (if x.st = 1 then { stage := [.hostExtent entry 2] } else { st := .range })
  else if op = dcRelease then (if x.st = 1 || x.st = 2 then { stage := [.hostExtent entry 3] } else { st := .range })
  else { st := .unsupported }

/-- CFG_STAGE (R553): the checks of the record's fields. -/
def cfgStatus (w0 w1 : U64) : Status :=
  let wait := bits w0 49 43
  let timeout := bits w0 63 50
  if bits w1 63 16 ≠ 0 then .rsvdNonzero
  else if bits w0 31 0 ≠ 0x47464353 || wait < 1 || 64 < wait || timeout < 4 || 8191 < timeout then .range
  else .ok

/-- Word 0 of a service's answer (R460). -/
def answerWord (svc reqId : Nat) (st : Status) : U64 := BitVec.ofNat 64 (svc % 256 + st.code * 2 ^ 8 + reqId % 65536 * 2 ^ 16)

/-- A service's changes are staged; its answer goes on a channel at once, or when they take effect (R57, R460). -/
def State.serve (s : State) (ch svc reqId : Nat) (o : Served) : State :=
  let ws := answerWord svc reqId o.st :: o.words
  if o.stage.isEmpty then (s.mbxPut idStake ch 0 (min ws.length 64) ws).2
  else s.stage 0 (o.stage ++ [.notice ch ws])

/-- CFG_STAGE stages the record (R553). -/
def State.cfgStage (s : State) (reqId : Nat) (w0 w1 : U64) (key : List U64) : State :=
  let st := cfgStatus w0 w1
  let s := if st = .ok then s.persistChange.onHost (fun h => { h with cfgStaged := some (w0, w1, key) }) else s
  s.serve 81 0x20 reqId { st := st }

/-- DC_WITHDRAW's service. -/
def State.withdraw (s : State) (reqId e : Nat) (force : Bool) : State :=
  let o := dcWithdraw s.future e force
  let s := match o.2 with
    | some (i, st) => s.event evDc i st
    | none => s
  s.serve 80 0x02 reqId o.1

/-- The stake serves a message of the host (R460, R553); a service that is not defined is UNSUPPORTED, and a message of
another channel is only consumed. -/
def State.serviceMsg (s : State) (ch : Nat) (m : MbxMsg) : State :=
  let w := fun i => m.words.getD i 0
  let svc := bits (w 0) 7 0
  let id := bits (w 0) 31 16
  let odd : Bool := bits (w 0) 15 8 ≠ 0 || bits (w 0) 63 32 ≠ 0
  if ch = 65 then
    if svc ≠ 0x20 then s.serve 81 svc id { st := .unsupported }
    else if odd then s.serve 81 svc id { st := .rsvdNonzero }
    else s.cfgStage id (w 1) (w 2) [w 3, w 4, w 5, w 6]
  else if ch ≠ 64 then s
  else if svc = 0x01 then
    s.serve 80 svc id (if odd then { st := .rsvdNonzero } else dcOffer s.future (w 1).toNat (w 2).toNat)
  else if svc = 0x02 then
    if odd || bits (w 1) 15 14 ≠ 0 || bits (w 1) 63 17 ≠ 0 then s.serve 80 svc id { st := .rsvdNonzero }
    else s.withdraw id (bits (w 1) 13 0) (bit (w 1) 16)
  else if svc = 0x10 then
    s.serve 80 svc id (if odd || bits (w 1) 63 16 ≠ 0 then { st := .rsvdNonzero } else dcCommand s.future (bits (w 1) 15 0) (w 2).toNat)
  else s.serve 80 svc id { st := .unsupported }

/-- The stake consumes the head message of a host channel and says so (R458). -/
def State.consume (s : State) (ch : Nat) : Option (MbxMsg × State) :=
  (s.mbxTake ch).map (fun x => (x.1, x.2.toHost { type := rtMbxAck, dir := true, channel := ch, addr := 1 }))

/-- The stake serves every message that waits on the host's channels (R449, R460). -/
def State.serveHosts (s : State) : State :=
  if !s.leaseHeld then s else
  s.each (nums 64 16) (fun s ch => s.each (s.channel ch) (fun s _ => match s.consume ch with
    | some (m, t) => t.serviceMsg ch m
    | none => s))

/-- The stake takes the message of a service request off its channel, if it is at its head. -/
def State.takeService (s : State) (ch svc reqId : Nat) : State :=
  match s.channel ch with
  | m :: _ =>
    if bits (m.words.getD 0 0) 7 0 = svc % 256 && bits (m.words.getD 0 0) 31 16 = reqId then
      match s.consume ch with
      | some x => x.2
      | none => s
    else s
  | [] => s

/-- DC_OFFER (R439, R460). -/
def execDcOffer (reqId extent pvaBase : Nat) (s : State) : Host.Outcome State Fault Refusal :=
  if !s.leaseHeld then .next s else
  .next ((s.takeService 64 0x01 reqId).serve 80 0x01 reqId (dcOffer s.future extent pvaBase))

/-- DC_WITHDRAW (R440, R460). -/
def execDcWithdraw (reqId extent : Nat) (force : Bool) (s : State) : Host.Outcome State Fault Refusal :=
  if !s.leaseHeld then .next s else .next ((s.takeService 64 0x02 reqId).withdraw reqId extent force)

/-- CFG_STAGE (R553). -/
def execCfgStage (reqId : Nat) (w0 w1 : U64) (key : List U64) (s : State) : Host.Outcome State Fault Refusal :=
  if !s.leaseHeld then .next s else .next ((s.takeService 65 0x20 reqId).cfgStage reqId w0 w1 key)

/-- Requests whose DPA lies in an entry that is freed are cancelled if unfinished (R440). -/
def State.cancelHosts (s : State) (x : HostExt) : State :=
  let open_ := s.host.reqs.filter (fun q => q.answer.isNone && decide (x.dpa ≤ q.dpa) && decide (q.dpa < x.dpa + x.blocks * 0x200000))
  s.each (open_.map (·.tag)) (fun s t => s.answerHost t .revoked [] false)

/-- HOST_EXTENT_FREE (R440): at step 4 of D + 8. -/
def execHostExtentFree (entry : Fin 64) (s : State) : Host.Outcome State Fault Refusal :=
  let x := s.host.exts.look {} entry.val
  if x.st ≠ 3 || s.now < x.since + 8 then .next s else
  .next (((s.cancelHosts x).onExtent x.ext (fun e => { e with hosted := false })).setHostExt entry.val (fun _ => {}))

/-! ### The primary mailbox (R436, R554) -/

/-- CXL return codes. -/
def cxlSuccess : Nat := 0
/-- Invalid Input. -/
def cxlInvalid : Nat := 2
/-- Unsupported (R436). -/
def cxlUnsupported : Nat := 3
/-- Retry Required. -/
def cxlRetry : Nat := 5
/-- Busy (R554). -/
def cxlBusy : Nat := 6

/-- The answer of a primary mailbox command. -/
def State.cxlAnswer (s : State) (code : Nat) (ws : List U64) : State :=
  s.onHost (fun h => { h with cxlReturn := code, cxlPayload := ws })

/-- A primary mailbox command at a working host-side die; until SERVICE the answer is Busy (R554). -/
def State.cxl (s : State) (f : State → State) : Host.Outcome State Fault Refusal :=
  s.hostReg true (fun s => if s.rst.mode == .service then f s else s.cxlAnswer cxlBusy [])

/-- IDENTIFY_MEMORY_DEVICE (R436). -/
def execIdentifyMemoryDevice (s : State) : Host.Outcome State Fault Refusal :=
  s.cxl (fun s => s.cxlAnswer cxlSuccess (Config.cxlAnswer 0x4000 s.host.summary))

/-- GET_SUPPORTED_LOGS (R436). -/
def execGetSupportedLogs (s : State) : Host.Outcome State Fault Refusal :=
  s.cxl (fun s => s.cxlAnswer cxlSuccess (Config.cxlAnswer 0x0400 s.host.summary))

/-- GET_LOG (R436): the Command Effects Log. -/
def execGetLog (s : State) : Host.Outcome State Fault Refusal :=
  s.cxl (fun s => s.cxlAnswer cxlSuccess (Config.cxlAnswer 0x0401 s.host.summary))

/-- GET_HEALTH_INFO (R436). -/
def execGetHealthInfo (s : State) : Host.Outcome State Fault Refusal :=
  s.cxl (fun s => s.cxlAnswer cxlSuccess (Config.cxlAnswer 0x4200 s.host.summary))

/-- The records of an event log: 4 is the Dynamic Capacity log, 0 to 3 the others (R436, R450). -/
def HostSt.eventLog (h : HostSt) (log : Nat) : List EventRec :=
  if log = 4 then h.dcLog else h.cxlLog.filter (fun e => (Config.cxlSeverity e.code).val = log)

/-- The 32 bytes of an EVENT record (R450). -/
def EventRec.words (e : EventRec) : List U64 :=
  [BitVec.ofNat 64 e.code, BitVec.ofNat 64 e.round, BitVec.ofNat 64 e.d0, BitVec.ofNat 64 e.d1]

/-- GET_EVENT_RECORDS (R436, R450). -/
def execGetEventRecords (log : Nat) (s : State) : Host.Outcome State Fault Refusal :=
  s.cxl (fun s => if 4 < log then s.cxlAnswer cxlInvalid [] else s.cxlAnswer cxlSuccess ((s.host.eventLog log).flatMap EventRec.words))

/-- Removes the oldest n elements that a test picks. -/
def dropFirst {α : Type} (t : α → Bool) : Nat → List α → List α
  | _, [] => []
  | 0, l => l
  | n + 1, a :: l => if t a then dropFirst t n l else a :: dropFirst t (n + 1) l

/-- CLEAR_EVENT_RECORDS (R436): the oldest n records of a log. -/
def execClearEventRecords (log n : Nat) (s : State) : Host.Outcome State Fault Refusal :=
  s.cxl (fun s =>
    if 4 < log then s.cxlAnswer cxlInvalid []
    else
      let s := s.onHost (fun h =>
        if log = 4 then { h with dcLog := h.dcLog.drop n }
        else { h with cxlLog := dropFirst (fun (e : EventRec) => (Config.cxlSeverity e.code).val = log) n h.cxlLog })
      s.cxlAnswer cxlSuccess [])

/-- GET_EVENT_INTERRUPT_POLICY (R436). -/
def execGetEventInterruptPolicy (s : State) : Host.Outcome State Fault Refusal :=
  s.cxl (fun s => s.cxlAnswer cxlSuccess [s.host.policy])

/-- SET_EVENT_INTERRUPT_POLICY (R436). -/
def execSetEventInterruptPolicy (policy : U64) (s : State) : Host.Outcome State Fault Refusal :=
  s.cxl (fun s => (s.onHost (fun h => { h with policy := policy })).cxlAnswer cxlSuccess [])

/-- UNSUPPORTED_MAILBOX_COMMAND (R436). -/
def execUnsupportedMailboxCommand (_opcode : Nat) (s : State) : Host.Outcome State Fault Refusal :=
  s.cxl (fun s => s.cxlAnswer cxlUnsupported [])

/-- A Dynamic Capacity command relayed to the stake on channel 64 and answered on channel 80 (R436, R449, R460): with no
lease, or with channel 64 full, the host retries. -/
def State.relay (s : State) (op entry : Nat) : Host.Outcome State Fault Refusal :=
  s.cxl (fun s =>
    if !s.leaseHeld || s.putStatus idHost 64 0 3 != .ok then s.cxlAnswer cxlRetry []
    else
      let o := dcCommand s.future op entry
      (s.stage 0 o.stage).cxlAnswer (if o.st = .ok then cxlSuccess else cxlInvalid) o.words)

/-- GET_DYNAMIC_CAPACITY_CONFIGURATION (R435, R436). -/
def execGetDynamicCapacityConfiguration (_reqId : Nat) (s : State) : Host.Outcome State Fault Refusal := s.relay dcGetConfig 0
/-- GET_DYNAMIC_CAPACITY_EXTENT_LIST (R436). -/
def execGetDynamicCapacityExtentList (_reqId : Nat) (s : State) : Host.Outcome State Fault Refusal := s.relay dcGetList 0
/-- ADD_DYNAMIC_CAPACITY_RESPONSE (R440). -/
def execAddDynamicCapacityResponse (_reqId : Nat) (entry : Fin 64) (s : State) : Host.Outcome State Fault Refusal :=
  s.relay dcAdd entry.val
/-- RELEASE_DYNAMIC_CAPACITY (R440). -/
def execReleaseDynamicCapacity (_reqId : Nat) (entry : Fin 64) (s : State) : Host.Outcome State Fault Refusal :=
  s.relay dcRelease entry.val

end Sys2Proof.Machine
end

