-- ==== Sys2Proof/Machine/Stakes.lean ====
section
/-! DEFINITION. Stakes and authority: health, the lease and its takeover, handovers, the spine, keep stores, checkpoints
and the persistent area (chapter 18, R341, R468, R552). -/
namespace Sys2Proof.Machine

/-- A stake's cores enter reset and its self-test begins a pass; a FAILED stake stays so (R488, R489). -/
def Stake.toReset (x : Stake) : Stake :=
  if x.st == .failed then x else { x with st := .standby, passDone := false, retest := false, passed := 0 }

/-- A stake's cores leave reset (R500, R504). -/
def State.releaseStake (s : State) (k : Nat) : State :=
  s.onStake k (fun x => { x with st := .booting, releasedAt := s.now })

/-- The image that a stake reads: its own keep store's when VALID, otherwise the other's (R510). -/
def State.bootImage (s : State) (k : Nat) : List U64 × Nat :=
  let x := if (s.stake k).keep == .valid then s.stake k else s.stake (1 - k)
  (x.keepDigest, x.keepSvn)

/-- A stake runs the image that it has read. -/
def State.runImage (s : State) (k : Nat) (digest : List U64) (svn : Nat) : State :=
  s.onStake k (fun x => { x with runDigest := digest, runSvn := svn })

/-! ### Live update (R468, R512) -/

/-- A live update completes: both keep stores VALID with the running image, which the stake that is not the holder has
booted (R512). -/
def State.checkUpdate (s : State) : State :=
  let h := s.holderStake
  let o := s.stake (1 - (s.lease s.activeHalf).holder)
  if s.auth.updating && h.keep == .valid && o.keep == .valid && h.keepDigest == h.runDigest && o.keepDigest == h.runDigest &&
      o.runDigest == h.runDigest then
    s.onAuth (fun a => { a with updating := false, updateDone := true })
  else s

/-- At a checkpoint boundary ROLLBACK rises to the SVN that both stakes run, after a completed update (R468). -/
def State.raiseRollback (s : State) : State :=
  let svn := s.auth.stake0.runSvn
  if !s.auth.updateDone || s.auth.stake1.runSvn ≠ svn then s
  else
    let up := fun (x : Stake) => { x with rollback := max x.rollback svn }
    ((s.onStake 0 up).onStake 1 up).onAuth (fun a => { a with updateDone := false })

/-! ### The end of a lease (R57, R302, R303, R500 to R503) -/

/-- The request packets of owners that no kept result answers are lost, and their SEQs no longer execute (R303, R416). -/
def State.dropRequests (s : State) : State :=
  let kept := fun (q : Packet) => s.ctl.results.any (fun r =>
    r.issuer == .owner (Fin.ofNat 64 q.part) && s.requestOf q.part r.tag == some q)
  let lost := s.net.ni.filter (fun q => q.opcode = 0xC0 && !kept q)
  s.onNet (fun n => { n with
    ni := n.ni.filter (fun q => !(q.opcode = 0xC0 && !kept q))
    flows := n.flows.map (fun f => { f with
      executing := f.executing.filter (fun e => !lost.any (fun q =>
        q.seq = e && q.srcEp = f.id.src && q.dstEp = f.id.dst && q.part = f.id.part && q.cls = f.id.cls)) }) })

/-- The changes that a stopped stake staged in the running round are discarded, and no result is sent for them (R57,
R507). -/
def State.discardStaged (s : State) : State :=
  let undo := fun (s : State) (c : Change) => match c with
    | .regionPublish r v _ _ => s.onRegion r (fun x => { x with publishing := x.publishing.filter (fun e => !(e.1 = v && e.2.2.1 = 0)) })
    | _ => s
  (s.each s.ctl.staged undo).onCtl (fun c => { c with
    staged := [], deltas := []
    results := c.results.filter (fun r => r.ready || decide (r.effect ≠ s.now + 1)) })

/-- A stake loses the lease without a handover: its queues, background work and staged changes are gone; the results that
the journal holds and does not know as sent are sent again (R57, R303, R499, R502). -/
def State.loseControl (s : State) : State :=
  let s := s.discardStaged.onCtl (fun c => { c with
    stakeQ := [], operQ := [], ownerQ := [], background := [], turn := 65, sent := []
    results := c.sent ++ c.results.filter (fun r => r.ready && r.effect ≠ 0) })
  let s := s.onAuth (fun a => { a with handover := none, staging := none, stagedImage := none, writing := none, renewal := none })
  s.dropRequests

/-- The hoop grants the next epoch to the stake that is not the holder, whose cores leave reset; with that stake FAILED, or
the spine lost, no stake has the lease (R500, R503, R508). -/
def State.grantOther (s : State) : State :=
  let old := (s.lease s.activeHalf).holder
  let s := s.loseControl.onStake old Stake.toReset
  if (s.stake (1 - old)).st == .failed || s.spineGone then s.onLeases (fun l => { l with st := .none, handover := 0 })
  else
    let s := s.onLeases (fun l => { l with epoch := (l.epoch + 1) % 2 ^ 32, holder := 1 - old, st := .pending, handover := 0 })
    (s.releaseStake (1 - old)).authority

/-- A stake stops, and what it staged in this round is discarded (R57, R490). -/
def State.stakeStops (s : State) (k : Nat) : State :=
  let s := if s.leaseHeld && (s.lease s.activeHalf).holder == k then s.discardStaged else s
  s.onStake k (fun x => { x with st := .failed, passDone := false })

/-- STAKE_HEALTH_FAIL (R57, R490): the stake stops, and what it staged in this round is discarded. -/
def execStakeHealthFail (k : HalfId) (missedWrites : Nat) (sramError secureFault : Bool) (s : State) :
    Host.Outcome State Fault Refusal :=
  if (s.stake k.val).st == .active && (decide (2 ≤ missedWrites) || sramError || secureFault) then
    .next (s.stakeStops k.val)
  else .next s

/-- LINK_DIE_FAILED (R22, R381): its links fail, its stake stops and its lane group goes down; the other die takes over at the
next boundary. -/
def execLinkDieFailed (d : HalfId) (s : State) : Host.Outcome State Fault Refusal :=
  if !s.ldWorks d.val then .next s else
  let s := s.each (nums (24 * d.val) 24) (fun s l => s.failLink l 8)
  let s := (s.stakeStops d.val).groupDown d.val
  .next (s.onNet (fun n => { n with ldFailing := n.ldFailing ++ [d.val] }))

/-- LEASE_END (R500): the lease has lapsed, or its holder reads FAILED. -/
def execLeaseEnd (s : State) : Host.Outcome State Fault Refusal :=
  let l := s.lease s.activeHalf
  if s.rst.mode == .service && l.epoch ≠ 0 && (l.st == .none || (s.leaseHeld && s.holderStake.st == .failed)) then
    .next s.grantOther
  else .next s

/-- The record of the last boundary that step 4 was applied at, rebuilt from the dies' applied lists if it is missing
(R497). Every die that takes part in step 4 applies the same changes, so that one applied list stands for theirs. -/
def State.completeRecord (s : State) : State :=
  if s.lastJournalled < s.ctl.applied then
    s.writeRecord (s.newRecord s.ctl.applied true (s.ctl.appliedEntries.map s.fillEntry))
  else s

/-- The new holder fails a phase or exceeds its time: it is FAILED, and the lease moves again (R503). -/
def State.takeoverFails (s : State) : State :=
  (s.onStake (s.lease s.activeHalf).holder (fun x => { x with st := .failed, passDone := false })).grantOther

/-- TAKEOVER_COMPLETE (R467, R499, R501): the image passes, the journal is replayed and completed, and the first renewal
goes out; the next boundary makes the lease VALID. -/
def execTakeoverComplete (facts : ImageFacts) (replayOk : Bool) (s : State) : Host.Outcome State Fault Refusal :=
  let l := s.lease s.activeHalf
  if l.st != .pending then .next s
  else if imageStatus (s.stake l.holder) facts != .ok || !replayOk then .next s.takeoverFails
  else
    let s := (s.runImage l.holder facts.digest facts.svn).onStake l.holder (fun x => { x with st := .active })
    .next (s.completeRecord.onAuth (fun a => { a with renewal := some l.epoch }))

/-- TAKEOVER_FAILED (R503). -/
def execTakeoverFailed (s : State) : Host.Outcome State Fault Refusal :=
  if (s.lease s.activeHalf).st == .pending then .next s.takeoverFails else .next s

/-! ### Handovers (R504 to R506) -/

/-- ROLE.SWAP's result may leave, with a status (R506). -/
def State.swapResult (s : State) (tag : Option Nat) (st : Status) (rs : List Nat) : State :=
  match tag with
  | none => s
  | some t => s.onCtl (fun c => { c with results := c.results.map (fun r =>
      if r.opcode = 0xD8 && r.tag = t && !r.ready then { r with status := st.code, results := rs, ready := true } else r) })

/-- HANDOVER_READY (R499, R504): the incoming stake has booted, replayed the journal and follows it. -/
def execHandoverReady (s : State) : Host.Outcome State Fault Refusal :=
  match s.auth.handover with
  | none => .next s
  | some (k, _) =>
    if !((s.stake k).st == .booting || (s.stake k).st == .shadow) || (s.lease s.activeHalf).st != .valid then .next s else
    let x := s.bootImage k
    let s := (s.runImage k x.1 x.2).onStake k (fun y => { y with st := .shadow })
    .next (s.onLeases (fun l => { l with st := .handover, handover := s.now + 2 }))

/-- HANDOVER_BOUNDARY (R504, R505, R512): the epoch goes to the incoming stake; the outgoing one enters reset. Background
instructions that have staged nothing start again from the front of their issuers' queues. -/
def execHandoverBoundary (s : State) : Host.Outcome State Fault Refusal :=
  let l := s.lease s.activeHalf
  match s.auth.handover with
  | none => .next s
  | some (k, tag) =>
    if l.st != .handover || s.now < l.handover then .next s else
    let old := 1 - k
    let changed : Bool := (s.stake k).runDigest != (s.stake old).runDigest
    let again := s.ctl.background.filter (fun b => !b.done)
    let s := s.onCtl (fun c => { c with background := c.background.filter (·.done), turn := 65 })
    let s := s.each again (fun s b => s.setQueue b.issuer (b.req :: s.ctlQueue b.issuer))
    let s := s.onLeases (fun x => { x with epoch := (l.epoch + 1) % 2 ^ 32, holder := k, st := .valid, handover := 0, expiry := s.now + 4 })
    let s := (s.onStake old Stake.toReset).onStake k (fun x => { x with st := .active })
    let s := s.onAuth (fun a => { a with handover := none, renewal := none, updating := a.updating || changed })
    let s := (s.swapResult tag .ok [(l.epoch + 1) % 2 ^ 32]).authority
    let x := s.stake k
    let s := if changed && !s.keepWriting then s.startKeep old x.runDigest x.runSvn false else s
    .next s.checkUpdate

/-- HOME_STAKE_RETURN (R505). -/
def execHomeStakeReturn (s : State) : Host.Outcome State Fault Refusal :=
  let l := s.lease s.activeHalf
  let home := s.rst.homeHalf
  let x := s.stake home
  if l.st == .valid && l.holder != home && x.st == .standby && x.passDone && x.keep == .valid &&
      x.keepDigest == s.holderStake.runDigest && !s.spineGone && !s.updateBusy then
    .next (s.onAuth (fun a => { a with handover := some (home, none) }))
  else .next s

/-- A handover ends without its boundary: the incoming stake returns to reset (R505, R506). -/
def State.dropHandover (s : State) (st : Status) : State :=
  match s.auth.handover with
  | none => s
  | some (k, tag) =>
    let s := (s.onStake k Stake.toReset).onAuth (fun a => { a with handover := none })
    (s.onLeases (fun l => if l.st == .handover then { l with st := .valid, handover := 0 } else l)).swapResult tag st []

/-- HANDOVER_FAILED (R467, R505, R506). -/
def execHandoverFailed (facts : ImageFacts) (timedOut : Bool) (s : State) : Host.Outcome State Fault Refusal :=
  match s.auth.handover with
  | none => .next s
  | some (k, _) =>
    if !((s.stake k).st == .booting || (s.stake k).st == .shadow) || (s.lease s.activeHalf).st == .handover then .next s
    else if timedOut then .next (s.dropHandover .timeout)
    else if imageStatus (s.stake k) facts != .ok then .next (s.dropHandover .integrity)
    else .next s

/-! ### The spine (R21, R508, R509) -/

/-- A path between the halves remains: a bridge is up, and with the other one down the traffic of each half's second weave die
reaches it through the half's weave-to-weave link (R21, R197). DEDUCED from R21's words on the remaining path. -/
def State.spinePath (s : State) : Bool :=
  let cut := fun (h : Nat) => (s.die (2 * h)).ok && (s.die (2 * h + 1)).ok && decide (h ∈ s.auth.weaveLost)
  (s.auth.bridge0 && s.auth.bridge1) || ((s.auth.bridge0 || s.auth.bridge1) && !cut 0 && !cut 1)

/-- SPINE_LOSS (R21, R508): the half without the holder becomes an isolated subordinate. -/
def execSpineLoss (s : State) : Host.Outcome State Fault Refusal :=
  if s.spinePath || s.spineGone then .next s else
  let s := s.dropHandover .fenced
  .next (s.onLease (1 - s.activeHalf) (fun l => { l with spineLost := true }))

/-- SPINE_RETURN (R21, R509): a bridge between working dies is up again, and the journal is copied. -/
def execSpineReturn (s : State) : Host.Outcome State Fault Refusal :=
  let up := fun (d : Nat) => (s.die d).ok && (s.die d).failed.isNone
  if !s.spineGone then .next s else
  let s := s.onAuth (fun a => { a with bridge0 := up 0 && up 2, bridge1 := up 1 && up 3 })
  .next (if s.spinePath then (s.recopy (1 - s.activeHalf)).onAuth (fun a => { a with copied := true }) else s)

/-- SPINE_REJOIN (R509). -/
def execSpineRejoin (s : State) : Host.Outcome State Fault Refusal :=
  if !s.spineGone || !s.auth.copied then .next s else
  let l := s.lease s.activeHalf
  let s := s.onLeases (fun _ => { l with spineLost := false, fenced := false })
  .next ((s.onAuth (fun a => { a with copied := false })).authority)

/-! ### Keep stores and images (R510 to R512) -/

/-- KEEP_STORE_WRITE_DONE (R510 to R512, R515): the image has been read back. A mismatch is programmed again. -/
def execKeepStoreWriteDone (k : HalfId) (readBackOk : Bool) (s : State) : Host.Outcome State Fault Refusal :=
  match s.auth.writing with
  | none => .next s
  | some (n, digest, svn, forStage) =>
    if n ≠ k.val || s.auth.keepPaused || !readBackOk then .next s else
    let s := s.onStake n (fun x => { x with keep := .valid, keepDigest := digest, keepSvn := svn })
    let s := s.onAuth (fun a => { a with writing := none })
    let s := match s.auth.stagedImage with
      | some x => if !forStage && imageStatus s.holderStake x == Status.ok then
          s.startKeep (1 - (s.lease s.activeHalf).holder) x.digest x.svn true else s
      | none => s
    .next s.checkUpdate

/-- FW_STAGE_TIMEOUT (R511). -/
def execFwStageTimeout (s : State) : Host.Outcome State Fault Refusal :=
  match s.ctl.background.find? (fun b => b.op = 0xD9 && !b.done) with
  | none => .next s
  | some b =>
    if s.staged || s.now < b.started + 65536 then .next s else
    let s := s.onAuth (fun a => { a with staging := none, stagedImage := none })
    let s := s.onCtl (fun c => { c with background := c.background.map (fun y => if y = b then { y with done := true } else y) })
    .next (s.settleCtl b.issuer b.req (.fail .timeout []))

/-- VERIFICATION_BOOT_END (R467, R512): the stake returns to reset; checks that fail leave it FAILED. -/
def execVerificationBootEnd (k : HalfId) (facts : ImageFacts) (s : State) : Host.Outcome State Fault Refusal :=
  if (s.stake k.val).st != .verifying then .next s
  else if imageStatus (s.stake k.val) facts != .ok then
    .next ((s.onStake k.val (fun x => { x with st := .failed, passDone := false })).authority)
  else .next (((s.runImage k.val facts.digest facts.svn).onStake k.val Stake.toReset).checkUpdate)

/-! ### Checkpoints and the persistent area (R341, R498, R552) -/

/-- A margin measurement: two in a row below 4.0 % of the cycle time blow an ageing fuse, or retire the weaver where no
slower code is left (R341). -/
def Weaver.measure (x : Weaver) (m : Nat) : Weaver :=
  let x := { x with margin := m }
  if 16 ≤ m then { x with low := false }
  else if !x.low then { x with low := true }
  else if x.fmax < x.age + 1 then { x with ageOut := true }
  else { x with age := x.age + 1, low := false }

/-- The checkpoint of this boundary is written (R498). -/
def State.checkpointed (s : State) : Bool :=
  ([(s.journalCopy s.activeHalf).slot0, (s.journalCopy s.activeHalf).slot1].filterMap id).any (fun c => c.round == s.now)

/-- CHECKPOINT (R340, R341, R468, R498): at N mod 4,096 = 0. -/
def execCheckpoint (margins : List (WeaverId × Nat)) (s : State) : Host.Outcome State Fault Refusal :=
  if !s.leaseHeld || s.now % 4096 ≠ 0 || s.checkpointed then .next s else
  let s := s.writeCheckpoint s.newCheckpoint
  let s := s.each margins (fun s m => if (s.weaver m.1.val).st == .active then s.onWeaver m.1.val (fun x => x.measure m.2) else s)
  let s := if margins.isEmpty then s else s.persistChange
  .next s.raiseRollback

/-- PERSISTENT_AREA_WRITE (R515, R552): both keep stores hold the change. -/
def execPersistentAreaWrite (s : State) : Host.Outcome State Fault Refusal :=
  if s.leaseHeld && !s.auth.keepPaused then .next (s.onRst (fun r => { r with persistDue := false })) else .next s

end Sys2Proof.Machine
end

