-- ==== Sys2Proof/Machine/Round.lean ====
section
/-! DEFINITION. The round: the ordered duties of a boundary, markers and claims, holdover, election, length changes and
resynchronisation (chapter 02). -/
namespace Sys2Proof.Machine

/-! ### Keys, parents and messages of the round (R43 to R47) -/

/-- This device sends its own claim: of priority 0 only after 64 rounds without a claim of nonzero priority (R43). -/
def RoundSt.claims (r : RoundSt) : Bool := r.prio ≠ 0 || decide (64 ≤ r.nonzeroAge)

/-- This device's claim (R43). -/
def RoundSt.ownClaim (r : RoundSt) : Claim := { counter := r.counter, prio := r.prio, ep := r.endpoint }

/-- Claim a goes before claim b: the counter decides between domains, whose counters differ by more than the one round of
R51; then priority; then the lower endpoint (R43). -/
def Claim.beats (a b : Claim) : Bool :=
  if b.counter + 1 < a.counter then true
  else if a.counter + 1 < b.counter then false
  else if a.prio ≠ b.prio then decide (b.prio < a.prio)
  else decide (a.ep < b.ep)

/-- The links that have finished training and are not down (R44). -/
def State.trainedLinks (s : State) : List Nat := (List.range 48).filter (fun l => (s.link l).trainedUp)

/-- The link with the fewest hops to the master; ties go to the lowest number (R46). -/
def RoundSt.bestParent (r : RoundSt) : Option Nat :=
  (r.hops.foldl (fun (m : Option (Nat × Nat)) e => match m with
    | none => some e
    | some b => if e.2 < b.2 then some e else some b) none).map (·.1)

/-- The parent is gone: its link is down (R49). -/
def RoundSt.parentDown (r : RoundSt) : Bool := r.parent.all (fun l => r.hops.look 0 l = 0)

/-- Marks of a boundary leave: the master's on every link, another S48's on every link but its parent, when a marker came
in the round that ended (R46). -/
def State.sendMarkers (s : State) : State :=
  let r := s.rnd
  if s.isMaster then
    s.each s.trainedLinks (fun s l => s.emit (.marker l r.counter r.endpoint r.prio 0 r.pendLength))
  else match r.parent, r.master with
    | some up, some ep =>
      if r.markerAge ≠ 0 then s else
      s.each (s.trainedLinks.filter (· ≠ up)) (fun s l => s.emit (.marker l r.counter ep r.masterPrio (r.hops.look 0 up) r.pendLength))
    | _, _ => s

/-- The device's own claim leaves on every trained link, once in a round (R44). -/
def State.sendClaims (s : State) : State :=
  if s.rnd.claims then s.each s.trainedLinks (fun s l => s.emit (.claim l s.rnd.ownClaim)) else s

/-- The round's own timers at a boundary, and the best claim: one's own where none that was heard beats it (R43 to R45,
R49). -/
def State.ageRound (s : State) : State :=
  s.onRnd (fun r =>
    let r := { r with
      nonzeroAge := min 64 (r.nonzeroAge + 1), markerAge := r.markerAge + 1, bestAge := r.bestAge + 1
      best := r.best.bind (fun c => if c.ep ≠ r.endpoint then some { c with counter := c.counter + 1 } else if r.claims then some r.ownClaim else none)
      parent := if r.parentDown then r.bestParent else r.parent }
    let own := r.claims && r.best.all (fun c => r.ownClaim.beats c && c.ep ≠ r.endpoint)
    if own then { r with best := some r.ownClaim, bestAge := 0 } else r)

/-! ### Opening the round: steps 0 to 2 (R53, R55, R536, R543) -/

/-- The device counts rounds: from phase 3 of its start on (R42, R50, R555). -/
def State.counts (s : State) : Bool := s.rst.mode != .off && s.rst.mode != .reset && decide (3 ≤ s.rst.phase)

/-- The number that the next boundary takes (R39, R50). -/
def State.nextRound (s : State) : Nat := max (s.now + 1) (s.rnd.join.getD 0)

/-- Step 0: a run that the boundary finds has overrun (R53). -/
def State.endRuns (s : State) : State :=
  let ws := (List.filter (fun (e : Nat × Weaver) => e.2.run.isSome) s.weavers).map (·.1)
  s.each ws (fun s w => match (s.weaver w).run with
    | some x => s.endRun w .overrun x.pc 0
    | none => s)

/-- Clock cycles of every weaver in the round that ends (R354). The time that a resynchronisation adds is open: at most one
round (R50). -/
def State.countClock (s : State) : State :=
  let n := 2 ^ s.rnd.running
  let f := s.takeFree
  let s := if s.rnd.lengthened then f.2 else s
  let more := if s.rnd.lengthened then (Config.resyncCycles f.1).toNat % (1700 * n + 1) else 0
  let s := s.onCnt (fun c => { c with clock := c.clock + 1700 * n + more })
  { s with weavers := s.weavers.mapAll {} (fun _ (x : Weaver) =>
      { x with clockExtra := x.clockExtra + ((x.mhz : Int) - 1700) * (n : Int) }) }

/-- Timers of a partition move with the counter (R50). -/
def Partition.shift (x : Partition) (d : Nat) : Partition :=
  let sus := fun (y : Suspended) => { y with fires := y.fires + d, offer := y.offer.map (fun o => (o.1 + d, o.2)) }
  { x with
    destroyed := x.destroyed.map (· + d)
    dropAt := x.dropAt.map (· + d)
    starts := x.starts.map (· + d)
    session := x.session.map (fun y => { y with helloRound := y.helloRound + d, offer := y.offer.map (· + d) })
    suspended := x.suspended.map sus
    moved := x.moved.map sus }

/-- Timers of the fabric move with the counter (R50). -/
def NetSt.shift (n : NetSt) (d : Nat) : NetSt :=
  { n with
    flows := n.flows.map (fun f => { f with park := f.park.map (fun p => (p.1, p.2 + d)), waitFrom := f.waitFrom.map (· + d), last := f.last + d })
    out := n.out.map (fun q => { q with sent := q.sent + d })
    mcWait := n.mcWait.map (fun w => { w with round := w.round + d })
    staleFrom := n.staleFrom + d, flooded := n.flooded + d }

/-- Timers of a link move with the counter (R50). -/
def Link.shift (x : Link) (d : Nat) : Link :=
  { x with
    downs := x.downs.map (· + d), holdFrom := x.holdFrom + d, widened := if x.widened = 0 then 0 else x.widened + d
    inputs := x.inputs.map (fun e => { e with round := e.round + d }) }

/-- Timers of a half move with the counter (R50). -/
def HalfSt.shift (x : HalfSt) (d : Nat) : HalfSt :=
  { x with
    wakeFrom := x.wakeFrom + d, ues := x.ues.map (fun u => (u.1, u.2.1, u.2.2 + d)), exhausted := x.exhausted.map (fun e => (e.1, e.2 + d)) }

/-- Every round-counted timer moves with a counter that jumps, so that the jump counts as one round (R50, R51). -/
def State.shiftTimers (s : State) (d : Nat) : State :=
  let s : State := { s with
    parts := s.parts.mapAll {} (fun _ (x : Partition) => x.shift d)
    extents := s.extents.mapAll {} (fun _ (x : Extent) => { x with since := x.since + d })
    dir := s.dir.mapAll {} (fun _ (x : DirEnt) => { x with
      fresh := x.fresh + d, heldFrom := x.heldFrom.map (· + d), pend := x.pend.map (fun q => { q with round := q.round + d }) })
    regions := s.regions.mapAll {} (fun _ (x : Region) => { x with
      destroying := x.destroying.map (· + d)
      publishing := x.publishing.map (fun e => (e.1, e.2.1, if e.2.2.1 = 0 then 0 else e.2.2.1 + d, e.2.2.2)) })
    links := s.links.mapAll {} (fun _ (x : Link) => x.shift d)
    weavers := s.weavers.mapAll {} (fun _ (x : Weaver) => { x with
      ueLines := x.ueLines.map (fun u => (u.1, u.2 + d)), regErrs := x.regErrs.map (· + d) })
    half0 := s.half0.shift d
    half1 := s.half1.shift d
    net := s.net.shift d }
  let s := s.onHost (fun h => { h with
    reqs := h.reqs.map (fun q => { q with since := q.since + d })
    exts := h.exts.mapAll {} (fun _ (x : HostExt) => { x with since := x.since + d })
    group0 := { h.group0 with widened := if h.group0.widened = 0 then 0 else h.group0.widened + d }
    group1 := { h.group1 with widened := if h.group1.widened = 0 then 0 else h.group1.widened + d } })
  let s := s.onLeases (fun l => { l with expiry := l.expiry + d, handover := if l.handover = 0 then 0 else l.handover + d })
  let s := (s.onStake 0 (fun x => { x with releasedAt := x.releasedAt + d })).onStake 1 (fun x => { x with releasedAt := x.releasedAt + d })
  let s := s.onCtl (fun c => { c with background := c.background.map (fun b => { b with started := b.started + d }) })
  s.onRst (fun r => { r with warm := r.warm.map (· + d) })

/-- Actions named for a boundary that the jump to n skips are carried out at n (R50). -/
def State.moveNamed (s : State) (n : Nat) : State :=
  let upTo := fun (b : Nat) => if b ≤ n then n else b
  let s := s.onCtl (fun c => { c with results := c.results.map (fun r =>
    if !r.ready && r.effect ≠ 0 then { r with effect := upTo r.effect, notBefore := upTo r.notBefore } else r) })
  let s := s.onRst (fun r => { r with due := r.due.map (fun x => (x.1, upTo x.2)) })
  s.onNet (fun k => { k with orient := k.orient.map (fun x => (x.1, upTo x.2)) })

/-- Step 1: the counter takes the boundary's number (R39, R50). -/
def State.openRound (s : State) : State :=
  let n := s.nextRound
  let s := if n = s.now + 1 then s else (s.shiftTimers (n - (s.now + 1))).moveNamed n
  s.onRnd (fun r => { r with counter := n, join := none, lengthened := false, running := r.length, steer := 0 })

/-- Boundaries after one and up to another that some issuer has named for a snapshot; where the counter jumps, the naming
may still be staged (R50). -/
def State.namedIn (s : State) (lo hi : Nat) : List Nat :=
  let staged := s.ctl.staged.filterMap (fun c => match c with | .snap _ b => some b | _ => none)
  let all := s.cnt.snaps ++ s.parts.flatMap (fun e => e.2.snaps) ++ (if lo + 1 < hi then staged else [])
  (all.foldl addOnce []).filter (fun b => decide (lo < b) && decide (b ≤ hi))

/-- Step 2: the named shadows are copied, and every die latches its components: the round copy shows what it latched a
round before (R536, R543). -/
def State.latchCounters (s : State) (before : Nat) : State :=
  let s := s.each (s.namedIn before s.now) State.copyShadows
  { s with parts := s.parts.mapAll {} (fun _ (x : Partition) => { x with roundCopy := x.latched, latched := x.counters }) }

/-! ### Health messages (R158, R159, R206) -/

/-- The misses of a stack's ports after an exchange. -/
def StackSt.exchange (x : StackSt) (p q : Bool) : StackSt :=
  { x with missP := if p then x.missP + 1 else 0, missS := if q then x.missS + 1 else 0 }

/-- The health exchange of the round that ends: a stack with both ports silent twice is declared failed, and a die with
all five primaries silent twice (R158, R159, R206). The exchange pauses in self-refresh (R175). -/
def State.healthExchange (s : State) (m : BoundaryIn) : State :=
  let s := s.each (List.range 20) (fun s n =>
    if (s.half (n / 10)).refresh == .asleep || (s.stack n).failed then s else
    s.onStack n (fun x => x.exchange (m.missedPrimary.any (fun k => k.val = n)) (m.missedSecondary.any (fun k => k.val = n))))
  let s := s.each (List.range 20) (fun s n => orSame s (execStackFailed (Fin.ofNat 20 n) .missedExchanges s))
  s.each (List.range 4) (fun s d =>
    if (dieStacks d).all (fun n => decide (2 ≤ (s.stack n).missP)) then s.declareDie d else s)

/-- The counters of codewords received, by corrected symbols and by lane, count what the receivers of the links measured in the
round that ends (R383). -/
def State.countCodewords (s : State) (m : BoundaryIn) : State :=
  s.each (m.codewords.filter (fun e => (decide (e.2.1 < 17) || (decide (18 ≤ e.2.1) && decide (e.2.1 < 26))) &&
    (s.link e.1.val).trainedUp)) (fun s e => s.countLink e.1.val e.2.1 e.2.2)

/-- A stack whose primary port alone has failed is served through its secondary port, as a failed die's stacks are: ports
hold its requests until the open write intents of its log are resynchronised (R159 to R161). -/
def State.portFailover (s : State) : State :=
  s.each (List.range 20) (fun s n =>
    let x := s.stack n
    if 2 ≤ x.missP && !x.failed && (s.die (primaryDie n)).ok && (s.die (primaryDie n)).failed.isNone && !x.secondary then
      (s.onStack n (fun x => { x with secondary := true, resync := true })).backToPorts [n] else s)

/-! ### Steps 3 and 4: timers and changes (R55, R56, R84, R147, R209, R247, R356, R370) -/

/-- The rounds since the last touch of a half (R175). -/
def State.countIdle (s : State) (h : Nat) : State :=
  s.onHalf h (fun x => { x with idle := if x.touched then 0 else x.idle + 1, touched := false })

/-- The rebuild of a half is done when its cursor has completed pass 2 (R207, R209). -/
def State.rebuildDone (s : State) (h : Nat) : State :=
  let x := s.half h
  if !x.rebuilding || x.cursor < randCount then s else
  let next : Integrity := if x.integrity == .exposed then .rebuilt else x.integrity
  let d := s.rebuildDie h
  let s := s.onHalf h (fun x => { x with rebuilding := false, credit := 0, holdsCh6 := false, integrity := next })
  let s := (s.logErr h { type := 0x0B }).fillChannels d 8
  if next == x.integrity then s else s.event evHalfState (h + next.code * 2) 0

/-- Weavers fenced in the round that ended are retired; those of a failed die wait for its takeover (R356, R359). -/
def State.retireFenced (s : State) : State :=
  let ws := (List.filter (fun (e : Nat × Weaver) => e.2.st == .fenced && (e.2.cause ≠ 7 || !(s.die (weaverDie e.1)).ok)) s.weavers).map (·.1)
  s.each ws State.retireWeaver

/-- A partition's phase: the mark of the last stroke placed, before that of a PHASE instruction (R84, R291). -/
def Partition.takePhase (x : Partition) : Partition :=
  { x with
    phase := match x.phaseMark, x.phaseInstr with
      | some k, _ => k
      | none, some (k, _) => k
      | none, none => x.phase
    phaseMark := none, phaseInstr := none }

/-- Links at a boundary: the round's cleanness counts, and a trained link enters PROBATION (R370, R372, R380). -/
def Link.atBoundary (x : Link) (now : Nat) : Link :=
  if x.trained then { x with st := .probation, trained := false, stateRound := now, clean := 0, dirty := false }
  else if !x.trainedUp then x
  else
    let lanes := (List.range 8).filter (fun k => x.removed.getLsbD k)
    { x with
      clean := if x.dirty then 0 else x.clean + 1, dirty := false
      laneClean := lanes.foldl (fun (m : SMap Nat) k => m.bump k) x.laneClean }

/-- Carries out an event for each item of a list; an event that is not due changes nothing. -/
def State.fireAll {α : Type} (s : State) (l : List α) (f : α → State → Host.Outcome State Fault Refusal) : State :=
  s.each l (fun s a => orSame s (f a s))

/-- The agents whose answer to a snoop some line awaits (R234). -/
def State.awaited (s : State) : List (PartId × Nat) :=
  s.dir.flatMap (fun e => (match e.2.pend with | some q => q.await | none => []).filterMap (fun (a : Requester × Nat) => match a.1 with
    | .agent p rank => some (p, rank)
    | .buffer _ => none))

/-- Step 3: every round-counted timer that has expired fires, so that step 4 sees what it has left (R55, R56). -/
def State.fireTimers (s : State) : State :=
  let s := ((s.countIdle 0).countIdle 1).fireAll (s.net.out.map (·.tag)) execTransportTimeout
  let s := s.fireAll (s.parts.flatMap (fun e => e.2.suspended.map (·.s.sid))) execWatchTimeout
  let s := s.fireAll (s.net.flows.map (·.id)) execFlagWaitExpiry
  let s := s.fireAll (s.net.flows.map (·.id)) execFlowForget
  let s := s.fireAll (s.net.mcWait.map (fun w => (w.origin, w.group, w.line))) (fun w => execMcAckTimeout w.1 w.2.1 w.2.2)
  let s := s.fireAll s.awaited (fun a => execAgentDeadDeclare a.1 a.2)
  let s := s.fireAll (s.dir.map (·.1)) execSnoopProbe
  let s := s.fireAll (s.dir.map (·.1)) execTokenLapse
  let s := s.fireAll (s.extents.map (·.1)) execExtentDrainLimit
  let s := s.fireAll (s.regions.map (·.1)) (fun r => execRegionDrainLimit (Fin.ofNat 1024 r))
  let s := s.fireAll (s.host.reqs.map (·.tag)) execHostRequestHoldTimeout
  let s := s.fireAll (s.parts.map (·.1)) (fun p => execSessionConfirmLapse (Fin.ofNat 64 p))
  let s := s.fireAll (s.parts.map (·.1)) (fun p => execKeyGenerationDrop (Fin.ofNat 64 p))
  let s := s.fireAll (s.links.map (·.1)) (fun l => execHoldExpiry (Fin.ofNat 48 l))
  let s := s.fireAll (s.net.noPath.map (·.1)) execEndpointUnreachable
  let s := orSame s (execFwStageTimeout s)
  orSame s (execGroupFallback s)

/-- The half to whose state alone a change belongs; none for a change of what both halves hold (R58, R508). -/
def State.changeHalf (s : State) : Change → Option Nat
  | .extGrant _ h _ _ => some h
  | .extRevoke e _ => some (s.extent e).half
  | .extRetire b => some (blockHalf b)
  | .regionCreate _ x => some x.half
  | .regionAccept r _ => some (s.region r).half
  | .regionDestroy r => some (s.region r).half
  | .regionPin r _ _ _ => some (s.region r).half
  | .regionUnpin p slot => some (s.region ((s.part p).pins.look {} slot).region).half
  | .regionPublish r _ _ _ => some (s.region r).half
  | .target n _ => portHalf n
  | .rebuildShare h _ => some h
  | .retirePage pa => some (homeHalf pa)
  | .retireBank b => some (bankHalf b)
  | .retireStack n => some (n / 10)
  | _ => none

/-- A staged change takes effect in the half that it belongs to (R58). -/
def State.mayApply (s : State) (c : Change) : Bool := !(s.changeHalf c).any s.barred

/-- Step 4: the transitions that are due, then the changes staged in the round that ended, in their order, in every die at
once but those of a half that applies none (R36, R55, R58, R303). -/
def State.takeEffect (s : State) : State :=
  let s := s.dueTransitions.fireAll (List.finRange 64) execHostExtentFree
  let s := orSame s (execOrientationBoundary s)
  let s := orSame s (execWarmQuiesceStart s)
  let s := orSame s (execWarmQuiesceLimit s)
  let s := s.each (s.ctl.staged.filter s.mayApply) State.applyChange
  let s := s.onCtl (fun c => { c with staged := [], applied := s.now, appliedEntries := c.deltas })
  let s := s.applyFailing.portFailover
  let s := s.each s.net.ldFailing State.loseLinkDie
  let s := ((s.rebuildDone 0).rebuildDone 1).retireFenced
  { s with
    parts := s.parts.mapAll {} (fun _ (x : Partition) => x.takePhase)
    links := s.links.mapAll {} (fun _ (x : Link) => x.atBoundary s.now) }

/-! ### Step 5: the hoop and the stakes (R488 to R492, R504, R507, R508, R512) -/

/-- Changes the lease records that the holder reaches: both, or its own half's with the spine lost (R508). -/
def State.onHeld (s : State) (f : Lease → Lease) : State := if s.spineGone then s.onLease s.activeHalf f else s.onLeases f

/-- A renewal in a lease record: with its epoch it sets EXPIRY and makes a PENDING lease VALID; without one the lease lapses
at EXPIRY (R492, R501). -/
def Lease.renew (l : Lease) (epoch : Option Nat) (now : Nat) : Lease :=
  if epoch = some l.epoch && l.st ≠ .none then { l with expiry := now + 4, st := if l.st = .pending then .valid else l.st }
  else if (l.st = .valid || l.st = .handover) && l.expiry ≤ now then { l with st := .none }
  else l

/-- The half that loses when the two hoop halves disagree (R507). -/
def State.hoopLoser (s : State) : Option Nat :=
  let a := s.lease 0
  let b := s.lease 1
  let claim := fun (l : Lease) => l.st == .valid || l.st == .handover
  if a = b || s.spineGone then none
  else if claim a && !claim b then some 1
  else if claim b && !claim a then some 0
  else if a.epoch ≠ b.epoch then some (if a.epoch < b.epoch then 0 else 1)
  else some (if (s.stake a.holder).st == .failed then 0 else 1)

/-- A half fenced at the last exchange takes the winner's record and its stake enters reset; a new loser is fenced
(R507). -/
def State.hoopExchange (s : State) : State :=
  if s.spineGone then s
  else if s.auth.lease0.fenced || s.auth.lease1.fenced then
    let k := if s.auth.lease0.fenced then 0 else 1
    let w := { s.lease (1 - k) with fenced := false }
    ((s.onLeases (fun _ => w)).onStake k (fun x => if w.holder = k then x else x.toReset)).recopy k
  else match s.hoopLoser with
    | none => s
    | some k =>
      let n := s.ctl.staged.length
      let s := if k = 0 && s.auth.lease0.holder ≠ s.auth.lease1.holder then
          s.discardStaged.onAuth (fun a => { a with staleControl := a.staleControl + n }) else s
      s.onLease k (fun l => { l with fenced := true })

/-- The stake that a handover brings in leaves reset (R504). -/
def State.releaseIncoming (s : State) : State := match s.auth.handover with
  | some (k, _) => if (s.stake k).st == .standby then s.releaseStake k else s
  | none => s

/-- The stake that is not the holder and not the home stake boots the new image to verify it (R512). -/
def State.startVerify (s : State) : State :=
  let h := s.holderStake
  let k := 1 - (s.lease s.activeHalf).holder
  let o := s.stake k
  if s.leaseHeld && s.auth.updating && k ≠ s.rst.homeHalf && o.st == .standby && o.passDone && o.runDigest != h.runDigest &&
      h.keep == .valid && o.keep == .valid && h.keepDigest == h.runDigest && o.keepDigest == h.runDigest then
    s.onStake k (fun x => { x with st := .verifying, releasedAt := s.now })
  else s

/-- One slice of the self-test of a stake in reset: a failing slice is tested again, and a second failure is final; 1,024
slices are a pass (R488, R489). -/
def State.selfTestSlice (s : State) (k : Nat) (fail : Bool) : State :=
  let x := s.stake k
  if x.st != .standby then s
  else if fail && x.retest then (s.onStake k (fun x => { x with st := .failed, retest := false, passDone := false })).authority
  else if fail then s.onStake k (fun x => { x with retest := true, slice := x.passed % 1024 })
  else s.onStake k (fun x => { x with
    retest := false, slice := x.passed % 1024, passed := x.passed + 1, passDone := x.passDone || decide (1024 ≤ x.passed + 1) })

/-- Step 5, which the holder's half carries out, and the stakes' self-tests (R55, R58, R489). -/
def State.hoopStep (s : State) (m : BoundaryIn) : State :=
  let r := s.auth.renewal
  let s := (s.onHeld (fun l => l.renew r s.now)).onAuth (fun a => { a with renewal := none })
  let s := s.hoopExchange.releaseIncoming.startVerify
  s.each [0, 1] (fun s k => s.selfTestSlice k (m.sliceFail.any (fun h => h.val = k)))

/-! ### Step 6: traffic (R425, R428, R431, R527) -/

/-- A shaper's refill (R425). -/
def Shaper.refill (x : Shaper) : Shaper := match x.rate with
  | some n => { x with t := min (x.burst : Int) (x.t + (n : Int)) }
  | none => x

/-- A policer's refill (R428). -/
def Policer.refill (x : Policer) : Policer :=
  { x with tc := min x.cbs (x.tc + x.cir.getD 0), tp := min x.pbs (x.tp + x.pir.getD 0) }

/-- A rank's remainder becomes its effective budget less the debt of the round that ended (R431, R527). -/
def State.refillBudget (s : State) (b : Budget) : Budget :=
  let debt : Int := max 0 (-((s.remainder b).getD 0))
  if b.bytes ≠ 0 then { b with rem := (effectiveBudget s.power.memM b.bytes : Int) - debt }
  else if s.power.memM < 16 then { b with rem := -debt } else {}

/-- Step 6: shapers, policers and budgets take their tokens, and waiting packets that have tokens leave. -/
def State.trafficStep (s : State) : State :=
  let s := { s with parts := s.parts.mapAll {} (fun _ (x : Partition) => { x with
    shapers := x.shapers.mapAll {} (fun _ (y : Shaper) => y.refill)
    policers := x.policers.mapAll {} (fun _ (y : Policer) => y.refill)
    budgets := x.budgets.mapAll {} (fun _ y => s.refillBudget y) }) }
  let s := s.onPower (fun x => { x with budgetM := x.memM })
  s.each (s.parts.map (·.1)) (fun s p => (s.drainShaper p 0 (s.shaper p 0).queue.length).drainShaper p 1 (s.shaper p 1).queue.length)

/-! ### Step 7: power (R486, R517 to R530) -/

/-- The figures over which the ceiling and the summary are formed: of the duty, idle level, power and temperature of the
round that ended (R486, R521). -/
def PowerSt.note (x : PowerSt) (now : Nat) (m : BoundaryIn) : PowerSt :=
  let x := if now % 64 = 1 then { x with dutySum := 0, dutyRounds := 0, allFull := true, peak := 0, powerSum := 0, hottest := 0 } else x
  { x with
    dutySum := x.dutySum + x.duty, dutyRounds := x.dutyRounds + 1, allFull := x.allFull && x.duty == 16 && x.idle == 0
    peak := max x.peak m.power, powerSum := x.powerSum + m.power, hottest := (m.temps.map (·.2)).foldl max x.hottest }

/-- At a multiple of 64 the summary shows the mean power and the highest temperature, coarsened (R486, R517). -/
def PowerSt.showAt (x : PowerSt) (now : Nat) : PowerSt :=
  if now % 64 ≠ 0 then x
  else { x with shown := (x.powerSum / max 1 x.dutyRounds / 10 * 10, x.hottest / 5 * 5), record := x.words }

/-- Step 7: the power controller, the power group and what a change of mode or length leaves without a fit (R54, R519 to
R529). -/
def State.powerStep (s : State) (m : BoundaryIn) (shorter : Bool) : State :=
  let s := s.onPower (fun x => ((x.note s.now m).step7 m.power m.weaverPower m.busV10 m.temps).showAt s.now)
  let s := s.groupStep m.nonWeaver
  if s.power.modeChanged || shorter then (s.onPower (fun x => { x with modeChanged := false })).dropUnfit else s

/-! ### Step 8: the halves (R94, R144, R210) -/

/-- The moves of units take their quota, and channel 6 of the lower-numbered working die once it is free (R94, R204,
R210). -/
def State.rebuildCredit (s : State) (h : Nat) : State :=
  if !(s.half h).moves then s else
  let free := ((s.die (s.rebuildDie h)).channels.look none 6).isNone
  s.onHalf h (fun x => { x with credit := x.credit + 3 * x.share * s.rnd.micros, holdsCh6 := x.holdsCh6 || free })

/-- The completion queues of step 8: resets that wait for the boundary are performed or refused, and held records and head
doorbells are tried again (R71, R98). -/
def State.cqStep (s : State) : State :=
  s.each s.liveParts (fun s p => s.each ((s.part p).cqs.map (·.1)) (fun s q =>
    let s := orSame s (execCqResetApply (Fin.ofNat 64 p) (Fin.ofNat 64 q) s)
    orSame s (execCqHeldRecordRetry (Fin.ofNat 64 p) (Fin.ofNat 64 q) s)))

/-- Step 8, with what waited for step 4: a half that has been idle enters self-refresh, urgent requests go before bulk work,
and what was deferred or held is tried again (R78, R98, R166, R175, R441). -/
def State.halfStep (s : State) : State :=
  let s := s.fireAll [0, 1] execSelfRefreshEntry
  let s := (s.serveUrgent 0).serveUrgent 1
  let s := ((s.scrubSlice 0).scrubSlice 1).startSlices
  let s := ((s.rebuildCredit 0).rebuildCredit 1).releaseHeld.cqStep
  if !s.admits then s else
  s.each s.liveParts (fun s p => s.each ((s.part p).sqs.map (·.1)) (fun s q =>
    if (s.sq p q).waiting.any (fun k => k.2 == .translating) then s.translateSq p q else s))

/-! ### Step 9: queues and weavers (R68, R76, R80, R523, R526, R539) -/

/-- An SQ at a boundary: HEAD is written where it has changed, and its round's fetches start again (R68, R76). -/
def State.sqBoundary (s : State) (p q : Nat) : State :=
  let x := s.sq p q
  let s := if x.headDirty then (s.writePva p (s.qdescPva p q true + 8) (toBytes 2 (x.head % 65536))).getD s else s
  s.onSq p q (fun y => { y with headDirty := false, fetched := 0 })

/-- Step 9 for a partition: its queues, the owner's events of the boundary, and the rounds since a placement. -/
def State.partBoundary (s : State) (p : Nat) : State :=
  let s := s.each ((s.part p).sqs.map (·.1)) (fun s q => s.sqBoundary p q)
  let waiting := ((s.part p).sqs.map (fun e => e.2.waiting.length)).foldl (· + ·) 0
  let s := (s.ownerEvent p 0x00E false waiting).ownerEvent p 0x00E true waiting
  let s := if s.idleRound p s.now then s.ownerEvent p 0x009 false 1 else s
  s.onPart p (fun x => { x with placedAge := min 65 (x.placedAge + 1) })

/-- The endpoints that agents of live partitions have (R402). -/
def State.agentEps (s : State) : List Nat :=
  (s.liveParts.flatMap (fun p => ((s.part p).ranks.filter (fun k => k.2.valid)).map (fun k => k.2.ep))).foldl addOnce []

/-- Rounds for which the route table has shown no path to an agent's endpoint (R401). -/
def State.countNoPath (s : State) : State :=
  s.each s.agentEps (fun s ep =>
    let r := s.routeOf ep
    let none_ := r.min == 0 && r.escU.isNone && r.escD.isNone && !r.isLocal
    s.onNet (fun n => { n with noPath := n.noPath.put 0 ep (if none_ then n.noPath.look 0 ep + 1 else 0) }))

/-- Step 9 for the device: a round begins on every weaver and on every migration's window (R55, R80, R433). -/
def State.beginRound (s : State) : State :=
  let s := s.each s.liveParts State.partBoundary
  let s : State := { s with weavers := s.weavers.mapAll {} (fun _ (x : Weaver) => { x with elapsed := 0, retryAt := 0 }) }
  let s := s.onRnd (fun r => { r with point := 0 })
  s.adjustWindows.countNoPath

/-- Links with an error ratio above 24 in 10⁵ over 4,096 rounds (R383). -/
def State.linkMargins (s : State) (m : BoundaryIn) : State :=
  s.each (m.ber.filter (fun e => decide (24 < e.2) && (s.link e.1.val).trainedUp)) (fun s e => s.event evLink e.1.val 4)

/-! ### Step 10: the journal (R57, R492, R494 to R497) -/

/-- The holder records the boundary's changes, results and sent results; the results that waited may leave, and its
renewal goes out (R57, R492, R496). -/
def State.journalStep (s : State) : State :=
  let due := fun (r : Result) => !r.ready && decide (r.effect ≠ 0) && decide (r.effect ≤ s.now)
  let s := if s.leaseHeld && s.holderStake.st == .active then
      let results := (s.ctl.results.filter due).map (fun r =>
        ({ kind := 0x20, op := r.opcode, index := issuerNo r.issuer, body := r.words } : JournalEntry))
      let sent := s.ctl.sent.map (fun r => ({ kind := 0x21, index := issuerNo r.issuer, body := numWords [r.tag] } : JournalEntry))
      let s := s.writeRecord (s.newRecord s.now false (s.ctl.deltas.map s.fillEntry ++ results ++ sent))
      let s := s.onCtl (fun c => { c with
        sent := [], results := c.results.map (fun r => if due r then { r with ready := true } else r) })
      s.onAuth (fun a => { a with renewal := some s.leaseEpoch })
    else s
  s.onCtl (fun c => { c with deltas := [], executed := 0, turn := 65 })

/-! ### Length changes, holdover and election (R41, R44, R49, R50) -/

/-- A rate per round at another round length, rounded down (R41). -/
def rescale (old new v : Nat) : Nat := v * 2 ^ new / 2 ^ old

/-- Rates per round of a partition at another round length (R41). -/
def Partition.rescale (x : Partition) (old new : Nat) : Partition :=
  let f := Machine.rescale old new
  { x with
    shapers := x.shapers.mapAll {} (fun _ (y : Shaper) => { y with rate := y.rate.map f })
    policers := x.policers.mapAll {} (fun _ (y : Policer) => { y with cir := y.cir.map f, pir := y.pir.map f })
    budgets := x.budgets.mapAll {} (fun _ (y : Budget) => { y with bytes := f y.bytes }) }

/-- LENGTH_CHANGE_EFFECT (R41, R50, R55): as the announced boundary, or the jump over it, comes, the length and the rates per
round change, which the boundary's journal record holds; quantities that count rounds do not change. -/
def execLengthChangeEffect (s : State) : Host.Outcome State Fault Refusal :=
  match s.rnd.pendLength with
  | none => .next s
  | some (code, b) =>
    if !s.counts || s.nextRound < b then .next s else
    let old := s.rnd.length
    let s : State := { s with parts := s.parts.mapAll {} (fun _ (x : Partition) => x.rescale old code) }
    let s := s.onCtl (fun c => { c with deltas := c.deltas ++ [{ kind := 0x0D, op := 0xD5 }] })
    .next (s.onRnd (fun r => { r with length := code, pendLength := none, lengthBusy := false }))

/-- ROUND_HOLDOVER (R9, R49): 16 rounds without a marker on any link set the flag and send an EVENT. -/
def execRoundHoldover (s : State) : Host.Outcome State Fault Refusal :=
  if !s.counts || s.isMaster || s.rnd.held || s.rnd.markerAge < 16 then .next s else
  let s := s.onRnd (fun r => { r with held := true, holdover := true, holdoverCount := sat8 r.holdoverCount })
  .next (s.event evHoldover s.now 0)

/-- ELECTION_START (R44, R49): after 64 rounds without a marker the claims start afresh. -/
def execElectionStart (s : State) : Host.Outcome State Fault Refusal :=
  if !s.counts || s.isMaster || s.rnd.electing || s.rnd.markerAge < 64 then .next s else
  .next (s.onRnd (fun r => { r with
    electing := true, bestAge := 0, best := if r.claims then some r.ownClaim else none }))

/-! ### The boundary -/

/-- ROUND_BOUNDARY (R55): the duties of steps 0 to 10 in their order. A cold reset that is due takes the boundary's
place (R563). -/
def execRoundBoundary (m : BoundaryIn) (s : State) : Host.Outcome State Fault Refusal :=
  if !s.counts then .next s
  else if s.rst.due.any (fun x => x.1 == 3 && decide (x.2 ≤ s.nextRound)) then .next s.loseFabric.release
  else
    let before := s.now
    let s := orSame s (execLengthChangeEffect s)
    let shorter := s.rnd.length ≠ s.rnd.running
    let s := ((s.serveHosts.countCodewords m).healthExchange m).endRuns.learnAll.countClock.releaseAll
    let s := s.openRound.latchCounters before
    let s := s.fireTimers.takeEffect
    let s := ((s.hoopStep m).trafficStep.powerStep m shorter).halfStep
    let s := (s.beginRound.linkMargins m).journalStep
    let s := s.sendMarkers.sendClaims.ageRound
    let s := orSame s (execRoundHoldover s)
    .next (orSame s (execElectionStart s))

/-! ### Resynchronisation (R50) -/

/-- ROUND_RESYNC (R50): a domain with a higher counter prevails. The running round is lengthened, and its boundary adopts
the counter. DESIGN CHOICE: the device keeps its own round length; R40 and R50 do not say when it takes the prevailing
domain's, and a length change of that domain reaches it in markers like any other (log 159). -/
def execRoundResync (counter : Nat) (s : State) : Host.Outcome State Fault Refusal :=
  if !s.counts || counter ≤ s.nextRound then .next s else
  .next (s.onRnd (fun r => { r with
    join := some counter, lengthened := true, resync := true, resyncCount := sat8 r.resyncCount }))

/-! ### Markers, claims and elections (R43 to R49) -/

/-- MARKER (R40, R46, R47): a marker of this domain, whose master is the one recognised, counts its hops, steers the next
boundary by at most 16 ns when it comes from the parent, and carries a length change. -/
def execMarker (l : LinkId) (boundary masterEp masterPrio hops : Nat) (pend : Option (Fin 4 × Nat)) (early : Bool) (offNs : Nat)
    (s : State) : Host.Outcome State Fault Refusal :=
  let n := l.val
  let own := s.rnd.master == some s.rnd.endpoint || masterEp == s.rnd.endpoint
  let foreign := s.rnd.master.any (fun m => m ≠ masterEp)
  if !s.counts || !(s.link n).trainedUp || own || foreign || s.now + 1 < boundary || boundary + 1 < s.now then .next s else
  let s := s.onRnd (fun r =>
    let r := { r with
      hops := r.hops.put 0 n (hops + 1), markerAge := 0, held := false, master := some (r.master.getD masterEp)
      masterPrio := masterPrio }
    { r with parent := if r.parent.isSome && r.parentDown then r.parent else r.bestParent })
  let by_ : Int := (min 16 offNs : Nat)
  let s := if s.rnd.parent = some n then s.onRnd (fun r => { r with steer := if early then -by_ else by_ }) else s
  match pend with
  | none => .next s
  | some (code, b) => .next (s.onRnd (fun r => { r with pendLength := some (code.val, b), lengthBusy := true })).lengthResult

/-- ROUND_CLAIM (R43, R44): the best claim heard is kept, and forwarded on the other trained links. -/
def execRoundClaim (l : LinkId) (counter prio ep : Nat) (s : State) : Host.Outcome State Fault Refusal :=
  let c : Claim := { counter := counter, prio := prio, ep := ep }
  if !s.counts || !(s.link l.val).trainedUp || ep = s.rnd.endpoint then .next s else
  let s := if prio = 0 then s else s.onRnd (fun r => { r with nonzeroAge := 0 })
  let same := s.rnd.best.any (fun b => b.ep = ep)
  if s.rnd.best.all (fun b => b.ep = ep || c.beats b) then
    let s := s.onRnd (fun r => { r with best := some c, bestAge := if same then r.bestAge else 0 })
    .next (s.each (s.trainedLinks.filter (· ≠ l.val)) (fun s k => s.emit (.claim k c)))
  else .next s

/-- MASTER_RECOGNISED (R44): the claim that has stood unchallenged for 8 rounds. -/
def execMasterRecognised (s : State) : Host.Outcome State Fault Refusal :=
  match s.rnd.best with
  | none => .next s
  | some c =>
    if !s.counts || s.rnd.bestAge < 8 || (s.rnd.master == some c.ep && !s.rnd.electing) then .next s else
    .next (s.onRnd (fun r =>
      let moved := r.master != some c.ep
      { r with
        master := some c.ep, masterPrio := c.prio, electing := false, markerAge := 0
        hops := if moved then [] else r.hops, parent := if moved then none else r.parent }))

end Sys2Proof.Machine
end

