-- ==== Sys2Proof/Machine/Scalar.lean ====
section
/-! DEFINITION. The scalar and loop instructions (R264 to R266). -/
namespace Sys2Proof.Machine

/-- An instruction that writes gD from gS1 and source 2 (R264). -/
def State.alu (s : State) (w op : Nat) (f : Fields) (cost lat : Nat) (g : U64 → U64 → U64) : State :=
  s.tryIssue w op f 1 (f.dst.toNat :: f.src1.toNat :: use2 f) noWait (fun s x =>
    (s.onRun w (fun y => y.putG f.dst.toNat (g (x.s1 f) (x.s2 f)) lat)).retire w cost 1)

/-- An instruction that writes pD from gS1 and source 2 (R264). -/
def State.cmp (s : State) (w op : Nat) (f : Fields) (g : U64 → U64 → Bool) : State :=
  s.tryIssue w op f 1 (preg f.dst.toNat :: f.src1.toNat :: use2 f) noWait (fun s x =>
    (s.onRun w (fun y => y.putP f.dst.toNat (g (x.s1 f) (x.s2 f)) 1)).retire w 1 1)

/-- ADD: gD = gS1 + S2, modulo 2⁶⁴ (R264). -/
def execAdd (w : WeaverId) (f : Fields) (s : State) : Host.Outcome State Fault Refusal :=
  ok (s.alu w.val 0x00 f 1 1 (fun a b => a + b))

/-- SUB: gD = gS1 − S2 (R264). -/
def execSub (w : WeaverId) (f : Fields) (s : State) : Host.Outcome State Fault Refusal :=
  ok (s.alu w.val 0x01 f 1 1 (fun a b => a - b))

/-- MUL: gD = the low 64 bits of the product (R264). -/
def execMul (w : WeaverId) (f : Fields) (s : State) : Host.Outcome State Fault Refusal :=
  ok (s.alu w.val 0x02 f 1 3 (fun a b => a * b))

/-- DIVU: gD = the unsigned quotient; a divisor of 0 gives all ones (R264). -/
def execDivu (w : WeaverId) (f : Fields) (s : State) : Host.Outcome State Fault Refusal :=
  ok (s.alu w.val 0x03 f 20 20 (fun a b => if b = 0 then BitVec.allOnes 64 else a / b))

/-- REMU: gD = the unsigned remainder; a divisor of 0 gives gS1 (R264). -/
def execRemu (w : WeaverId) (f : Fields) (s : State) : Host.Outcome State Fault Refusal :=
  ok (s.alu w.val 0x04 f 20 20 (fun a b => if b = 0 then a else a % b))

/-- AND: gD = gS1 AND S2 (R264). -/
def execAndOp (w : WeaverId) (f : Fields) (s : State) : Host.Outcome State Fault Refusal :=
  ok (s.alu w.val 0x05 f 1 1 (fun a b => a &&& b))

/-- OR: gD = gS1 OR S2 (R264). -/
def execOrOp (w : WeaverId) (f : Fields) (s : State) : Host.Outcome State Fault Refusal :=
  ok (s.alu w.val 0x06 f 1 1 (fun a b => a ||| b))

/-- XOR: gD = gS1 XOR S2 (R264). -/
def execXorOp (w : WeaverId) (f : Fields) (s : State) : Host.Outcome State Fault Refusal :=
  ok (s.alu w.val 0x07 f 1 1 (fun a b => a ^^^ b))

/-- SHL: gD = gS1 shifted left by S2 [5:0] (R264). -/
def execShl (w : WeaverId) (f : Fields) (s : State) : Host.Outcome State Fault Refusal :=
  ok (s.alu w.val 0x08 f 1 1 (fun a b => a <<< (b.toNat % 64)))

/-- SHR: gD = gS1 shifted right, logically, by S2 [5:0] (R264). -/
def execShr (w : WeaverId) (f : Fields) (s : State) : Host.Outcome State Fault Refusal :=
  ok (s.alu w.val 0x09 f 1 1 (fun a b => a >>> (b.toNat % 64)))

/-- SRA: gD = gS1 shifted right, arithmetically, by S2 [5:0] (R264). -/
def execSra (w : WeaverId) (f : Fields) (s : State) : Host.Outcome State Fault Refusal :=
  ok (s.alu w.val 0x0A f 1 1 (fun a b => a.sshiftRight (b.toNat % 64)))

/-- MIN: gD = the signed minimum (R264). -/
def execMinOp (w : WeaverId) (f : Fields) (s : State) : Host.Outcome State Fault Refusal :=
  ok (s.alu w.val 0x0B f 1 1 (fun a b => if a.slt b then a else b))

/-- MAX: gD = the signed maximum (R264). -/
def execMaxOp (w : WeaverId) (f : Fields) (s : State) : Host.Outcome State Fault Refusal :=
  ok (s.alu w.val 0x0C f 1 1 (fun a b => if b.slt a then a else b))

/-- CMPEQ: pD = 1 if gS1 equals S2 (R264). -/
def execCmpeq (w : WeaverId) (f : Fields) (s : State) : Host.Outcome State Fault Refusal :=
  ok (s.cmp w.val 0x10 f (fun a b => a == b))

/-- CMPNE: pD = 1 if gS1 differs from S2 (R264). -/
def execCmpne (w : WeaverId) (f : Fields) (s : State) : Host.Outcome State Fault Refusal :=
  ok (s.cmp w.val 0x11 f (fun a b => a != b))

/-- CMPLT: pD = 1 if gS1 is below S2, signed (R264). -/
def execCmplt (w : WeaverId) (f : Fields) (s : State) : Host.Outcome State Fault Refusal :=
  ok (s.cmp w.val 0x12 f (fun a b => a.slt b))

/-- CMPLTU: pD = 1 if gS1 is below S2, unsigned (R264). -/
def execCmpltu (w : WeaverId) (f : Fields) (s : State) : Host.Outcome State Fault Refusal :=
  ok (s.cmp w.val 0x13 f (fun a b => a.ult b))

/-- LI: gD = IMM, sign-extended (R264). -/
def execLi (w : WeaverId) (f : Fields) (s : State) : Host.Outcome State Fault Refusal :=
  ok (s.tryIssue w.val 0x0D f 1 [f.dst.toNat] noWait (fun s _ =>
    (s.onRun w.val (fun y => y.putG f.dst.toNat (simm f) 1)).retire w.val 1 1))

/-- LIX: gD = the extension word, over which the run goes on (R252, R264). -/
def execLix (w : WeaverId) (f : Fields) (s : State) : Host.Outcome State Fault Refusal :=
  ok (s.tryIssue w.val 0x0E f 2 [f.dst.toNat] noWait (fun s x =>
    (s.onRun w.val (fun y => y.putG f.dst.toNat (x.s.img.code.getD (x.pc + 1) 0) 1)).retire w.val 2 2))

/-- LDC: gD = constant word gS1 + IMM; RANGE past the constants (R264). -/
def execLdc (w : WeaverId) (f : Fields) (s : State) : Host.Outcome State Fault Refusal :=
  ok (s.tryIssue w.val 0x0F f 1 [f.dst.toNat, f.src1.toNat] noWait (fun s x =>
    match x.s.img.consts[(x.s1 f + simm f).toNat]? with
    | none => s.faultRun w.val .range
    | some v => (s.onRun w.val (fun y => y.putG f.dst.toNat v 3)).retire w.val 2 1))

/-- The predicate logic that IMM [2:0] names (R264). -/
def plogOp (f : Fields) (a b : Bool) : Bool :=
  let r := match immBits f 1 0 with
    | 0 => a && b
    | 1 => a || b
    | 2 => a != b
    | _ => a && !b
  r != (immBits f 2 2 == 1)

/-- PLOG: pD = the logic of pS1 and pS2 that IMM names (R264). -/
def execPlog (w : WeaverId) (f : Fields) (s : State) : Host.Outcome State Fault Refusal :=
  ok (s.tryIssue w.val 0x14 f 1 [preg f.dst.toNat, preg f.src1.toNat, preg f.src2.toNat] noWait (fun s x =>
    (s.onRun w.val (fun y => y.putP f.dst.toNat (plogOp f (x.pr f.src1.toNat) (x.pr f.src2.toNat)) 1)).retire w.val 1 1))

/-- SEL: gD = gS1 if p(IMM [2:0]) is 1, else gS2 (R264). -/
def execSel (w : WeaverId) (f : Fields) (s : State) : Host.Outcome State Fault Refusal :=
  ok (s.tryIssue w.val 0x15 f 1 [f.dst.toNat, f.src1.toNat, f.src2.toNat, preg (immBits f 2 0)] noWait (fun s x =>
    let v := if x.pr (immBits f 2 0) then x.s1 f else x.gr f.src2.toNat
    (s.onRun w.val (fun y => y.putG f.dst.toNat v 1)).retire w.val 1 1))

/-- BR: jumps forward IMM [12:0] words, with one bubble cycle (R264, R266, R343, R354). -/
def execBr (w : WeaverId) (f : Fields) (s : State) : Host.Outcome State Fault Refusal :=
  ok (s.tryIssue w.val 0x16 f 1 [] noWait (fun s x => (s.spend w.val 1 0 1 0).jumpTo w.val (x.pc + immBits f 12 0)))

/-- LOOP: runs the next IMM [12:0] words gS1 times; a count of 0 skips them and one above 16,777,215 gives RANGE. Its
guard false, the body is skipped too (R251, R264, R265). -/
def execLoop (w : WeaverId) (f : Fields) (s : State) : Host.Outcome State Fault Refusal :=
  ok (s.tryIssue w.val 0x17 f (1 + immBits f 12 0) [f.src1.toNat] noWait (fun s x =>
    let n := (x.s1 f).toNat
    if 16777215 < n then s.faultRun w.val .range
    else if n = 0 then (s.spend w.val 1 0 0 0).goTo w.val (x.pc + 1 + immBits f 12 0)
    else
      let l : Loop := { first := x.pc + 1, last := x.pc + 1 + immBits f 12 0, left := n }
      let s := s.spend w.val 1 0 0 0
      (s.onRun w.val (fun y => { y with lastIssued := y.pc, loops := l :: y.loops, pc := y.pc + 1 })).pastEnd w.val))

end Sys2Proof.Machine
end

