-- ==== Sys2Proof/Machine/Scratch.lean ====
section
/-! DEFINITION. The scratch instructions (R267, R268). -/
namespace Sys2Proof.Machine

/-- The scratch address gS1 + IMM (R267). -/
def saddr (x : Run) (f : Fields) : Nat := (x.s1 f + simm f).toNat

/-- A load of n bytes at gS1 + IMM with its alignment: it waits for pending lines, faults outside the scratch and on
poison, and hands the bytes on (R259, R262, R267, R268). -/
def State.sload (s : State) (w op : Nat) (f : Fields) (dst n align : Nat) (put : Run → List Byte → Run) : State :=
  s.tryIssue w op f 1 [dst, f.src1.toNat]
    (fun _ x => if x.inScratch (saddr x f) n align then x.landed (saddr x f) n else some 0)
    (fun s x =>
      let a := saddr x f
      if !x.inScratch a n align then s.faultRun w .range
      else if x.poisoned a n then s.faultRun w .poison
      else (s.onRun w (fun y => put y (x.sbytes a n))).retire w 1 1)

/-- A load of a general register (R267). -/
def State.sloadG (s : State) (w op : Nat) (f : Fields) (n : Nat) (conv : Nat → U64) : State :=
  s.sload w op f f.dst.toNat n n (fun y bs => y.putG f.dst.toNat (conv (ofBytes bs)) 3)

/-- A store of bytes at gS1 + IMM with its alignment; `whole` says that it clears the poison of its line (R262, R267,
R268). -/
def State.sstore (s : State) (w op : Nat) (f : Fields) (src n align : Nat) (whole : Bool) (bytes : Run → List Byte) : State :=
  s.tryIssue w op f 1 [src, f.src1.toNat]
    (fun _ x => if x.inScratch (saddr x f) n align then x.landed (saddr x f) n else some 0)
    (fun s x =>
      let a := saddr x f
      if !x.inScratch a n align then s.faultRun w .range
      else
        let s := s.onRun w (fun y => if whole then (y.sput a (bytes x)).unpoison a n else y.sput a (bytes x))
        s.retire w 1 1)

/-- LD8U: gD = a byte, zero-extended (R267). -/
def execLd8u (w : WeaverId) (f : Fields) (s : State) : Host.Outcome State Fault Refusal :=
  ok (s.sloadG w.val 0x20 f 1 (BitVec.ofNat 64))

/-- LD16U: gD = 16 bits, zero-extended (R267). -/
def execLd16u (w : WeaverId) (f : Fields) (s : State) : Host.Outcome State Fault Refusal :=
  ok (s.sloadG w.val 0x21 f 2 (BitVec.ofNat 64))

/-- LD32U: gD = 32 bits, zero-extended (R267). -/
def execLd32u (w : WeaverId) (f : Fields) (s : State) : Host.Outcome State Fault Refusal :=
  ok (s.sloadG w.val 0x22 f 4 (BitVec.ofNat 64))

/-- LD32S: gD = 32 bits, sign-extended (R267). -/
def execLd32s (w : WeaverId) (f : Fields) (s : State) : Host.Outcome State Fault Refusal :=
  ok (s.sloadG w.val 0x23 f 4 (fun n => (BitVec.ofNat 32 n).signExtend 64))

/-- LD64: gD = 64 bits (R267). -/
def execLd64 (w : WeaverId) (f : Fields) (s : State) : Host.Outcome State Fault Refusal :=
  ok (s.sloadG w.val 0x24 f 8 (BitVec.ofNat 64))

/-- ST8: stores the low byte of gS2 (R267). -/
def execSt8 (w : WeaverId) (f : Fields) (s : State) : Host.Outcome State Fault Refusal :=
  ok (s.sstore w.val 0x25 f f.src2.toNat 1 1 false (fun x => toBytes 1 (x.gr f.src2.toNat).toNat))

/-- ST16: stores the low 16 bits of gS2 (R267). -/
def execSt16 (w : WeaverId) (f : Fields) (s : State) : Host.Outcome State Fault Refusal :=
  ok (s.sstore w.val 0x26 f f.src2.toNat 2 2 false (fun x => toBytes 2 (x.gr f.src2.toNat).toNat))

/-- ST32: stores the low 32 bits of gS2 (R267). -/
def execSt32 (w : WeaverId) (f : Fields) (s : State) : Host.Outcome State Fault Refusal :=
  ok (s.sstore w.val 0x27 f f.src2.toNat 4 4 false (fun x => toBytes 4 (x.gr f.src2.toNat).toNat))

/-- ST64: stores gS2 (R267). -/
def execSt64 (w : WeaverId) (f : Fields) (s : State) : Host.Outcome State Fault Refusal :=
  ok (s.sstore w.val 0x28 f f.src2.toNat 8 8 false (fun x => toBytes 8 (x.gr f.src2.toNat).toNat))

/-- An FP6 format code. -/
def isFp6 (c : Nat) : Bool := c == 5 || c == 6

/-- The register of 64 B, or of 48 B of packed FP6 unpacked to a byte lane each (R267, R272). -/
def vecOfBytes (c : Nat) (bs : List Byte) : V512 :=
  if isFp6 c then ofLanes c (unpackBits 6 64 (ofBytes bs)) else BitVec.ofNat 512 (ofBytes bs)

/-- The stored bytes of a register: 64 B, or 48 B of packed FP6 (R267, R272). -/
def bytesOfVec (c : Nat) (v : V512) : List Byte :=
  if isFp6 c then toBytes 48 (packBits 6 (elems c v)) else toBytes 64 v.toNat

/-- VLD: vD = 64 B of scratch, or 48 B of packed FP6 (R267, R268). -/
def execVld (w : WeaverId) (f : Fields) (s : State) : Host.Outcome State Fault Refusal :=
  let c := f.fmt.toNat
  ok (s.sload w.val 0x29 f (vreg f.dst.toNat) (if isFp6 c then 48 else 64) (if isFp6 c then 16 else 64)
    (fun y bs => y.putV f.dst.toNat (vecOfBytes c bs) 3))

/-- VST: stores vS2, packing FP6; a whole line loses its poison bit (R267, R268). -/
def execVst (w : WeaverId) (f : Fields) (s : State) : Host.Outcome State Fault Refusal :=
  let c := f.fmt.toNat
  ok (s.sstore w.val 0x2A f (vreg f.src2.toNat) (if isFp6 c then 48 else 64) (if isFp6 c then 16 else 64) (!isFp6 c)
    (fun x => bytesOfVec c (x.vr f.src2.toNat)))

/-- VLDB: broadcasts one element; a sub-byte or FP6 element is the low bits of its byte (R267). -/
def execVldb (w : WeaverId) (f : Fields) (s : State) : Host.Outcome State Fault Refusal :=
  let c := f.fmt.toNat
  let n := max 1 (laneBits c / 8)
  ok (s.sload w.val 0x2B f (vreg f.dst.toNat) n n (fun y bs =>
    y.putV f.dst.toNat (ofLanes c (List.replicate (laneCount c) (ofBytes bs % 2 ^ elemBits c))) 3))

/-- SCLR: zeroes gS2 bytes from gS1 and clears their poison bits (R267). DESIGN CHOICE: a length of 0, which changes nothing
(R14), keeps the checks of its address (R259; log 164). -/
def execSclr (w : WeaverId) (f : Fields) (s : State) : Host.Outcome State Fault Refusal :=
  let bad := fun (x : Run) =>
    let a := (x.s1 f).toNat
    let n := (x.gr f.src2.toNat).toNat
    a % 64 != 0 || n % 64 != 0 || decide (x.size < a + n) || (n == 0 && decide (x.size ≤ a))
  ok (s.tryIssue w.val 0x2C f 1 [f.src1.toNat, f.src2.toNat]
    (fun _ x => if bad x then some 0 else x.landed (x.s1 f).toNat (x.gr f.src2.toNat).toNat)
    (fun s x =>
      let a := (x.s1 f).toNat
      let n := (x.gr f.src2.toNat).toNat
      if bad x then s.faultRun w.val .range
      else
        let s := s.onRun w.val (fun y =>
          { y.unpoison a n with scratch := y.scratch.dropIf (fun k => decide (a ≤ k) && decide (k < a + n)) })
        s.retire w.val (1 + ceilDiv n 256) 1))

/-- SPTEST: pD = the scratch poison bit of the line; it never faults on poison (R267, R268). -/
def execSptest (w : WeaverId) (f : Fields) (s : State) : Host.Outcome State Fault Refusal :=
  ok (s.tryIssue w.val 0x2D f 1 [preg f.dst.toNat, f.src1.toNat]
    (fun _ x => if x.inScratch (saddr x f) 1 1 then x.landed (saddr x f) 1 else some 0)
    (fun s x =>
      if !x.inScratch (saddr x f) 1 1 then s.faultRun w.val .range
      else (s.onRun w.val (fun y => y.putP f.dst.toNat (x.poisoned (saddr x f) 1) 1)).retire w.val 1 1))

end Sys2Proof.Machine
end

