-- ==== Sys2Proof/Machine/Vector.lean ====
section
/-! DEFINITION. The vector instructions (R272 to R275) with the arithmetic of chapter 11. -/
namespace Sys2Proof.Machine

/-! ### Lane-wise forms -/

/-- Lane-wise on two registers: an exact float result rounded under the stroke's mode, or a wrapping integer (R273, R320,
R325). -/
def vbin (c mode : Nat) (g : U64) (fo : Val → Val → Val) (io : Int → Int → Int) (a b : V512) : V512 × U64 :=
  match fmtOf c with
  | .float ff =>
    let r := mapRound mode (fun rd (p : Nat × Nat) => ff.arith rd (fo (ff.value p.1) (ff.value p.2))) ((lanes c a).zip (lanes c b)) g
    (ofLanes c r.1, r.2)
  | .int n => (ofLanes c (List.zipWith (fun x y => intEnc n (io (intValue n x) (intValue n y))) (lanes c a) (lanes c b)), g)
  | _ => (0, g)

/-- Fused multiply-add per lane, rounded once (R273). -/
def vfmaLanes (c mode : Nat) (g : U64) (a b d : V512) : V512 × U64 :=
  match fmtOf c with
  | .float ff =>
    let f := fun rd (p : Nat × Nat × Nat) => ff.arith rd (((ff.value p.1).mul (ff.value p.2.1)).add (ff.value p.2.2))
    let r := mapRound mode f ((lanes c a).zip ((lanes c b).zip (lanes c d))) g
    (ofLanes c r.1, r.2)
  | _ => (0, g)

/-- Lane-wise choice between two registers, without rounding (R321). -/
def vpick (c : Nat) (fo : Nat → Nat × Val → Nat × Val → Nat) (io : Int → Int → Int) (a b : V512) : V512 :=
  match fmtOf c with
  | .float ff => ofLanes c (List.zipWith (fun x y => fo (ff.nan.getD 0) (x, ff.value x) (y, ff.value y)) (lanes c a) (lanes c b))
  | .int n => ofLanes c (List.zipWith (fun x y => intEnc n (io (intValue n x) (intValue n y))) (lanes c a) (lanes c b))
  | _ => 0

/-- Absolute value of a lane; the most negative integer is kept (R273). -/
def absLane (c x : Nat) : Nat :=
  match fmtOf c with
  | .float ff => if (ff.value x).isNan then ff.nan.getD 0 else x % 2 ^ (ff.bits - 1)
  | .int n => intEnc n ((intValue n x).natAbs : Int)
  | _ => x

/-- A function of one lane in a float format. -/
def vmapF (c : Nat) (f : FloatFmt → Nat → Nat) (a : V512) : V512 :=
  match fmtOf c with
  | .float ff => ofLanes c ((lanes c a).map (f ff))
  | _ => 0

/-- A lane is below another (R321). -/
def laneLt (c x y : Nat) : Bool := (valueOf c x).lt (valueOf c y)

/-- A float lane widened exactly to FP32 (R321). -/
def widen (c x : Nat) : Nat := fp32.arith .nearest (valueOf c x)

/-- Sum of the lanes: floats as FP32 in the format's fixed order, integers as INT32 sign-extended (R273, R321, R333). -/
def vsumOf (c : Nat) (a : V512) : U64 :=
  if isF c then BitVec.ofNat 64 (f32sum (0x100 + c) ((lanes c a).map (widen c)))
  else (BitVec.ofInt 32 ((lanes c a).foldl (fun t x => t + intValue (laneBits c) x) 0)).signExtend 64

/-- Largest lane, in the forms of VSUM (R273, R321). -/
def vmaxOf (c : Nat) (a : V512) : U64 :=
  match lanes c a with
  | [] => 0
  | x :: l =>
    if isF c then
      BitVec.ofNat 64 (l.foldl (fun m y => pickMax 0x7FC00000 (m, fp32.value m) (widen c y, fp32.value (widen c y))) (widen c x))
    else (BitVec.ofInt 32 (l.foldl (fun m y => max m (intValue (laneBits c) y)) (intValue (laneBits c) x))).signExtend 64

/-- Replaces lane i of a register. -/
def setLane (c i x : Nat) (v : V512) : V512 := ofLanes c ((lanes c v).set i x)

/-! ### Issue of vector instructions -/

/-- An instruction that writes vD from vS1, vD and, with `two`, vS2, with its issue cycles and latency; it may take draws of the
stroke's generator (R273, R325). -/
def State.vop (s : State) (w op : Nat) (f : Fields) (two : Bool) (cost lat : Nat) (g : Run → V512 × U64) : State :=
  s.tryIssue w op f 1 ([vreg f.dst.toNat, vreg f.src1.toNat] ++ if two then [vreg f.src2.toNat] else []) noWait (fun s x =>
    (s.onRun w (fun y => { y.putV f.dst.toNat (g x).1 lat with rng := (g x).2 })).retire w cost 1)

/-- A vector instruction that rounds nothing. -/
def State.vpure (s : State) (w op : Nat) (f : Fields) (two : Bool) (cost lat : Nat) (g : Run → V512) : State :=
  s.vop w op f two cost lat (fun x => (g x, x.rng))

/-- VADD: lane-wise sum (R273). -/
def execVadd (w : WeaverId) (f : Fields) (s : State) : Host.Outcome State Fault Refusal :=
  ok (s.vop w.val 0x40 f true 1 4 (fun x =>
    vbin f.fmt.toNat x.s.roundMode x.rng Val.add (· + ·) (x.vr f.src1.toNat) (x.vr f.src2.toNat)))

/-- VSUB: lane-wise difference (R273). -/
def execVsub (w : WeaverId) (f : Fields) (s : State) : Host.Outcome State Fault Refusal :=
  ok (s.vop w.val 0x41 f true 1 4 (fun x =>
    vbin f.fmt.toNat x.s.roundMode x.rng (fun a b => a.add b.neg) (· - ·) (x.vr f.src1.toNat) (x.vr f.src2.toNat)))

/-- VMUL: lane-wise product (R273). -/
def execVmul (w : WeaverId) (f : Fields) (s : State) : Host.Outcome State Fault Refusal :=
  ok (s.vop w.val 0x42 f true 1 4 (fun x =>
    vbin f.fmt.toNat x.s.roundMode x.rng Val.mul (· * ·) (x.vr f.src1.toNat) (x.vr f.src2.toNat)))

/-- VFMA: vD = vS1 × vS2 + vD, rounded once (R273). -/
def execVfma (w : WeaverId) (f : Fields) (s : State) : Host.Outcome State Fault Refusal :=
  ok (s.vop w.val 0x43 f true 1 4 (fun x =>
    vfmaLanes f.fmt.toNat x.s.roundMode x.rng (x.vr f.src1.toNat) (x.vr f.src2.toNat) (x.vr f.dst.toNat)))

/-- VMIN: lane-wise minimum (R273, R321). -/
def execVmin (w : WeaverId) (f : Fields) (s : State) : Host.Outcome State Fault Refusal :=
  ok (s.vpure w.val 0x44 f true 1 4 (fun x => vpick f.fmt.toNat pickMin min (x.vr f.src1.toNat) (x.vr f.src2.toNat)))

/-- VMAX: lane-wise maximum (R273, R321). -/
def execVmax (w : WeaverId) (f : Fields) (s : State) : Host.Outcome State Fault Refusal :=
  ok (s.vpure w.val 0x45 f true 1 4 (fun x => vpick f.fmt.toNat pickMax max (x.vr f.src1.toNat) (x.vr f.src2.toNat)))

/-- VABS: lane-wise absolute value (R273). -/
def execVabs (w : WeaverId) (f : Fields) (s : State) : Host.Outcome State Fault Refusal :=
  ok (s.vpure w.val 0x46 f false 1 4 (fun x =>
    ofLanes f.fmt.toNat ((lanes f.fmt.toNat (x.vr f.src1.toNat)).map (absLane f.fmt.toNat))))

/-- VEXP2: 2^x per lane, whatever the rounding mode (R322). -/
def execVexp2 (w : WeaverId) (f : Fields) (s : State) : Host.Outcome State Fault Refusal :=
  ok (s.vpure w.val 0x47 f false 2 8 (fun x => vmapF f.fmt.toNat FloatFmt.exp2 (x.vr f.src1.toNat)))

/-- VRCP: 1/x per lane, whatever the rounding mode (R322). -/
def execVrcp (w : WeaverId) (f : Fields) (s : State) : Host.Outcome State Fault Refusal :=
  ok (s.vpure w.val 0x48 f false 2 8 (fun x => vmapF f.fmt.toNat FloatFmt.rcp (x.vr f.src1.toNat)))

/-- VRSQ: 1/√x per lane, whatever the rounding mode (R322). -/
def execVrsq (w : WeaverId) (f : Fields) (s : State) : Host.Outcome State Fault Refusal :=
  ok (s.vpure w.val 0x49 f false 2 8 (fun x => vmapF f.fmt.toNat FloatFmt.rsq (x.vr f.src1.toNat)))

/-- VAND: bitwise over 512 bits (R273). -/
def execVand (w : WeaverId) (f : Fields) (s : State) : Host.Outcome State Fault Refusal :=
  ok (s.vpure w.val 0x4A f true 1 2 (fun x => x.vr f.src1.toNat &&& x.vr f.src2.toNat))

/-- VOR: bitwise over 512 bits (R273). -/
def execVor (w : WeaverId) (f : Fields) (s : State) : Host.Outcome State Fault Refusal :=
  ok (s.vpure w.val 0x4B f true 1 2 (fun x => x.vr f.src1.toNat ||| x.vr f.src2.toNat))

/-- VXOR: bitwise over 512 bits (R273). -/
def execVxor (w : WeaverId) (f : Fields) (s : State) : Host.Outcome State Fault Refusal :=
  ok (s.vpure w.val 0x4C f true 1 2 (fun x => x.vr f.src1.toNat ^^^ x.vr f.src2.toNat))

/-- VSHR: logical right shift of each lane by IMM [4:0] (R273). -/
def execVshr (w : WeaverId) (f : Fields) (s : State) : Host.Outcome State Fault Refusal :=
  ok (s.vpure w.val 0x4D f false 1 2 (fun x =>
    ofLanes f.fmt.toNat ((lanes f.fmt.toNat (x.vr f.src1.toNat)).map (· / 2 ^ immBits f 4 0))))

/-- VCMPLT: a lane is all ones if vS1 is below vS2, else 0 (R273, R321). -/
def execVcmplt (w : WeaverId) (f : Fields) (s : State) : Host.Outcome State Fault Refusal :=
  let c := f.fmt.toNat
  ok (s.vpure w.val 0x4E f true 1 4 (fun x =>
    ofLanes c (List.zipWith (fun a b => if laneLt c a b then 2 ^ laneBits c - 1 else 0) (lanes c (x.vr f.src1.toNat)) (lanes c (x.vr f.src2.toNat)))))

/-- VSEL: vD = (vS1 AND vD) OR (vS2 AND NOT vD) (R273). -/
def execVsel (w : WeaverId) (f : Fields) (s : State) : Host.Outcome State Fault Refusal :=
  ok (s.vpure w.val 0x4F f true 1 2 (fun x =>
    (x.vr f.src1.toNat &&& x.vr f.dst.toNat) ||| (x.vr f.src2.toNat &&& ~~~ x.vr f.dst.toNat)))

/-- VSUM: gD = the sum of the lanes in a fixed order (R273). -/
def execVsum (w : WeaverId) (f : Fields) (s : State) : Host.Outcome State Fault Refusal :=
  ok (s.tryIssue w.val 0x50 f 1 [f.dst.toNat, vreg f.src1.toNat] noWait (fun s x =>
    (s.onRun w.val (fun y => y.putG f.dst.toNat (vsumOf f.fmt.toNat (x.vr f.src1.toNat)) 6)).retire w.val 1 1))

/-- VMAXR: gD = the largest lane (R273). -/
def execVmaxr (w : WeaverId) (f : Fields) (s : State) : Host.Outcome State Fault Refusal :=
  ok (s.tryIssue w.val 0x51 f 1 [f.dst.toNat, vreg f.src1.toNat] noWait (fun s x =>
    (s.onRun w.val (fun y => y.putG f.dst.toNat (vmaxOf f.fmt.toNat (x.vr f.src1.toNat)) 6)).retire w.val 1 1))

/-- VBC: the low lane bits of gS1 into every lane (R272, R273). -/
def execVbc (w : WeaverId) (f : Fields) (s : State) : Host.Outcome State Fault Refusal :=
  let c := f.fmt.toNat
  ok (s.tryIssue w.val 0x52 f 1 [vreg f.dst.toNat, f.src1.toNat] noWait (fun s x =>
    let v := ofLanes c (List.replicate (laneCount c) ((x.s1 f).toNat % 2 ^ elemBits c))
    (s.onRun w.val (fun y => y.putV f.dst.toNat v 2)).retire w.val 1 1))

/-- VEXT: gD = lane IMM [6:0], zero-extended; RANGE at or above the lane count (R273). -/
def execVext (w : WeaverId) (f : Fields) (s : State) : Host.Outcome State Fault Refusal :=
  let c := f.fmt.toNat
  ok (s.tryIssue w.val 0x53 f 1 [f.dst.toNat, vreg f.src1.toNat] noWait (fun s x =>
    match (elems c (x.vr f.src1.toNat))[immBits f 6 0]? with
    | none => s.faultRun w.val .range
    | some v => (s.onRun w.val (fun y => y.putG f.dst.toNat (BitVec.ofNat 64 v) 2)).retire w.val 1 1))

/-- VINS: the low lane bits of gS1 into lane IMM [6:0] of vD; RANGE at or above the lane count (R273). -/
def execVins (w : WeaverId) (f : Fields) (s : State) : Host.Outcome State Fault Refusal :=
  let c := f.fmt.toNat
  ok (s.tryIssue w.val 0x54 f 1 [vreg f.dst.toNat, f.src1.toNat] noWait (fun s x =>
    if laneCount c ≤ immBits f 6 0 then s.faultRun w.val .range
    else
      let v := setLane c (immBits f 6 0) ((x.s1 f).toNat % 2 ^ elemBits c) (x.vr f.dst.toNat)
      (s.onRun w.val (fun y => y.putV f.dst.toNat v 2)).retire w.val 1 1))

/-! ### Conversion (R274, R326 to R328) -/

/-- Source lanes and destination lane offset of a VCVT by its part index; none out of range (R274). -/
def cvtPart (nS nD p : Nat) : Option (Nat × Nat × Nat) :=
  if nD < nS then (if p < nS / nD then some (p * nD, nD, 0) else none)
  else if nS < nD then (if p < nD / nS then some (0, nS, p * nS) else none)
  else if p = 0 then some (0, nS, 0) else none

/-- A VCVT of a register: the new vD, the generator, and whether a lane overflowed (R274, R327). -/
def vcvtOf (src dst mode lo n at_ : Nat) (g : U64) (a d : V512) : V512 × U64 × Bool :=
  let r := mapRound mode (fun rd x => convertTo dst rd (valueOf src x)) (((elems src a).drop lo).take n) g
  let new := r.1.map (·.1)
  let old := lanes dst d
  (ofLanes dst (old.take at_ ++ new ++ old.drop (at_ + new.length)), r.2, r.1.any (·.2))

/-- VCVT: converts vS1 from the format of IMM [3:0] to FMT by the part index IMM [6:4] and the rounding of IMM [9:8];
overflow saturates, or gives FORMAT with TRAP_OVF (R274, R336). -/
def execVcvt (w : WeaverId) (f : Fields) (s : State) : Host.Outcome State Fault Refusal :=
  let src := immBits f 3 0
  let dst := f.fmt.toNat
  ok (s.tryIssue w.val 0x55 f 1 [vreg f.dst.toNat, vreg f.src1.toNat] noWait (fun s x =>
    if fmtOf src = .none then s.faultRun w.val .format
    else match cvtPart (laneCount src) (laneCount dst) (immBits f 6 4) with
      | none => s.faultRun w.val .range
      | some (lo, n, a) =>
        let r := vcvtOf src dst (immMode (immBits f 9 8) x.s.roundMode) lo n a x.rng (x.vr f.src1.toNat) (x.vr f.dst.toNat)
        let s := s.onRun w.val (fun y => { y with rng := r.2.1 })
        if r.2.2 && x.s.trapOvf then s.faultRun w.val .format
        else (s.onRun w.val (fun y => y.putV f.dst.toNat r.1 4)).retire w.val 1 1))

/-! ### Block scaling (R275, R329 to R332) -/

/-- Bytes of n packed elements of a format. -/
def packedBytes (c n : Nat) : Nat := (n * elemBits c + 7) / 8
/-- Elements of a block: 16 with BLK16, else 32 (R275). -/
def blockSize (blk16 : Bool) : Nat := if blk16 then 16 else 32
/-- Exponent of a format's largest normal (R331). -/
def emaxOf (c : Nat) : Int := match c with | 3 => 8 | 4 => 15 | 5 => 4 | 6 => 2 | 7 => 2 | _ => 0
/-- Power of two by which a block-scaled INT8 or INT4 element is divided (R329). -/
def intScale (c : Nat) : Int := match c with | 10 => 6 | 11 => 2 | _ => 0

/-- An element's value through its block's scale (R329). -/
def scaledValue (c x scale : Nat) : Val :=
  if scale % 256 = 255 then .nan else ((valueOf c x).scale (-(intScale c))).scale (((scale % 256 : Nat) : Int) - 127)

/-- Largest magnitude of a block. -/
def amaxOf (vs : List Val) : Val := vs.foldl (fun m v => if m.lt v.abs then v.abs else m) (.fin false 0 0)

/-- Quantises one block: the scale byte and the elements; none where a NaN or infinity traps (R331). -/
def quantBlock (dst mode : Nat) (trap : Bool) (vs : List Val) (g : U64) : Option (Nat × List Nat × U64) :=
  if vs.any (fun v => v.isNan || v.isInf) then
    if trap then none else some (255, vs.map (fun _ => 0), g)
  else
    let x : Option Int := match amaxOf vs with
      | .fin _ m e => if m = 0 then none else some (max (-127) (floorLog2 m e - emaxOf dst))
      | _ => none
    let r := mapRound mode (fun rd (v : Val) => (convertTo dst rd (v.scale (intScale dst - x.getD 0))).1) vs g
    some ((x.getD 0 + 127).toNat, r.1, r.2)

/-- Splits a list into pieces of n. -/
def chunks {α : Type} (n : Nat) : Nat → List α → List (List α)
  | 0, _ => []
  | k + 1, l => l.take n :: chunks n k (l.drop n)

/-- Quantises blocks in order: scales, elements, generator, and whether a block trapped (R331, R336). -/
def quantBlocks (dst mode : Nat) (trap : Bool) : List (List Val) → U64 → List Nat × List Nat × U64 × Bool
  | [], g => ([], [], g, false)
  | b :: bs, g =>
    match quantBlock dst mode trap b g with
    | none => ([], [], g, true)
    | some (sc, es, g) =>
      let r := quantBlocks dst mode trap bs g
      (sc :: r.1, es ++ r.2.1, r.2.2.1, r.2.2.2)

/-- Dequantises blocks in order with their scales (R332, R336). -/
def dequantBlocks (src dst mode : Nat) (trap : Bool) : List (List Nat × Nat) → U64 → List Nat × U64 × Bool
  | [], g => ([], g, false)
  | b :: bs, g =>
    let r := mapRound mode (fun rd x => convertTo dst rd (scaledValue src x b.2)) b.1 g
    if trap && r.1.any (·.2) then ([], r.2, true)
    else
      let t := dequantBlocks src dst mode trap bs r.2
      (r.1.map (·.1) ++ t.1, t.2.1, t.2.2)

/-- N of VQUANT and VDQ: IMM [31:8]. -/
def quantN (f : Fields) : Nat := immBits f 31 8

/-- The scratch regions of a VQUANT or VDQ lie in scratch and its inputs are aligned (R259, R275). -/
def quantBad (x : Run) (ins outs : List (Nat × Nat)) : Bool :=
  ins.any (fun r => r.1 % 64 != 0 || decide (x.size < r.1 + r.2)) || outs.any (fun r => decide (x.size < r.1 + r.2))

/-- VQUANT: N elements at gS1 to block-scaled elements at gD with their scales at gS2 (R275, R331). -/
def execVquant (w : WeaverId) (f : Fields) (s : State) : Host.Outcome State Fault Refusal :=
  let src := immBits f 3 0
  let dst := f.fmt.toNat
  let n := quantN f
  let b := blockSize (immBits f 4 4 == 1)
  let ins := fun (x : Run) => [((x.s1 f).toNat, packedBytes src n)]
  let outs := fun (x : Run) => [((x.gd f).toNat, packedBytes dst n), ((x.gr f.src2.toNat).toNat, n / b)]
  let bad := fun (x : Run) => n % b != 0 || (n != 0 && quantBad x (ins x) (outs x))
  ok (s.tryIssue w.val 0x56 f 1 [f.dst.toNat, f.src1.toNat, f.src2.toNat]
    (fun _ x => if bad x || n = 0 then some 0 else landedAll x (ins x ++ outs x))
    (fun s x =>
      if bad x then s.faultRun w.val .range
      else if n = 0 then s.retire w.val 8 1
      else if (ins x).any (fun r => x.poisoned r.1 r.2) then s.faultRun w.val .poison
      else
        let vs := (unpackBits (elemBits src) n (ofBytes (x.sbytes (x.s1 f).toNat (packedBytes src n)))).map (valueOf src)
        let r := quantBlocks dst (immMode (immBits f 6 5) x.s.roundMode) x.s.trapOvf (chunks b (n / b) vs) x.rng
        let es := toBytes (packedBytes dst r.2.1.length) (packBits (elemBits dst) r.2.1)
        let s := s.onRun w.val (fun y =>
          { (y.sput (x.gd f).toNat es).sput (x.gr f.src2.toNat).toNat (r.1.map (BitVec.ofNat 8)) with rng := r.2.2.1 })
        if r.2.2.2 then s.faultRun w.val .format else s.retire w.val (8 + 2 * ceilDiv n 16) 1))

/-- VDQ: packed elements at gS1 with scales at gS2 to FMT at gD (R275, R332). -/
def execVdq (w : WeaverId) (f : Fields) (s : State) : Host.Outcome State Fault Refusal :=
  let src := immBits f 3 0
  let dst := f.fmt.toNat
  let n := quantN f
  let b := blockSize (immBits f 4 4 == 1)
  let ins := fun (x : Run) => [((x.s1 f).toNat, packedBytes src n), ((x.gr f.src2.toNat).toNat, n / b)]
  let outs := fun (x : Run) => [((x.gd f).toNat, packedBytes dst n)]
  let bad := fun (x : Run) => n % b != 0 || (n != 0 && quantBad x (ins x) (outs x))
  ok (s.tryIssue w.val 0x57 f 1 [f.dst.toNat, f.src1.toNat, f.src2.toNat]
    (fun _ x => if bad x || n = 0 then some 0 else landedAll x (ins x ++ outs x))
    (fun s x =>
      if bad x then s.faultRun w.val .range
      else if n = 0 then s.retire w.val 8 1
      else if (ins x).any (fun r => x.poisoned r.1 r.2) then s.faultRun w.val .poison
      else
        let es := unpackBits (elemBits src) n (ofBytes (x.sbytes (x.s1 f).toNat (packedBytes src n)))
        let scales := (x.sbytes (x.gr f.src2.toNat).toNat (n / b)).map (·.toNat)
        let r := dequantBlocks src dst (immMode (immBits f 6 5) x.s.roundMode) x.s.trapOvf ((chunks b (n / b) es).zip scales) x.rng
        let bs := toBytes (packedBytes dst r.1.length) (packBits (elemBits dst) r.1)
        let s := s.onRun w.val (fun y => { y.sput (x.gd f).toNat bs with rng := r.2.1 })
        if r.2.2 then s.faultRun w.val .format else s.retire w.val (8 + ceilDiv n 16) 1))

end Sys2Proof.Machine
end

