-- ==== Sys2Proof/Machine/Tiles.lean ====
section
/-! DEFINITION. Dot products, tiles, the softmax step and output scaling (R263, R276 to R280, R329, R330, R333 to R336). -/
namespace Sys2Proof.Machine

/-- Cycles of an array instruction: a fixed part, and a part that the issue duty d/16 stretches (R263). -/
def dutyCost (duty fixed part : Nat) : Nat := fixed + ceilDiv (part * 16) duty

/-- An array instruction counts as issued, for its cycles, and marks the stroke where the duty is below 16/16 (R263,
R539). -/
def State.arrayUse (s : State) (w p cycles : Nat) : State :=
  let s := (s.ownerEvent p 0x006 false 1).ownerEvent p 0x006 true cycles
  if s.power.duty < 16 then s.onRun w (fun x => { x with slowed := true }) else s

/-- An integer format of the array: INT16, INT8 or INT4. -/
def isIntG (c : Nat) : Bool := decide (9 ≤ c) && decide (c ≤ 11)

/-- Sum of the products of two element lists: INT32, wrapping, for integers; otherwise FP32 in the fixed order of the
key (R276, R278, R333, R334). -/
def dotSum (key c : Nat) (a b : List Nat) : Nat :=
  if isIntG c then
    intEnc 32 ((a.zip b).foldl (fun t p => t + intValue (elemBits c) p.1 * intValue (elemBits c) p.2) 0)
  else f32sum key (List.zipWith (fun x y => f32prod (valueOf c x) (valueOf c y)) a b)

/-- Sum of scaled products in FP32 (R277, R333, R334). -/
def scaledSum (key : Nat) (a b : List Val) : Nat := f32sum key (List.zipWith f32prod a b)

/-- Adds to an accumulator: INT32 wrapping, or FP32. -/
def accAdd (int : Bool) (acc v : Nat) : Nat := if int then (acc + v) % 2 ^ 32 else f32add acc v

/-- DOT: gD [31:0] += the sum over lanes of vS1 × vS2; gD [63:32] becomes zero (R276, R333). -/
def execDot (w : WeaverId) (f : Fields) (s : State) : Host.Outcome State Fault Refusal :=
  let c := f.fmt.toNat
  ok (s.tryIssue w.val 0x60 f 1 [f.dst.toNat, vreg f.src1.toNat, vreg f.src2.toNat] noWait (fun s x =>
    let sum := dotSum (0x200 + c) c (elems c (x.vr f.src1.toNat)) (elems c (x.vr f.src2.toNat))
    let v := accAdd (isIntG c) ((x.gd f).toNat % 2 ^ 32) sum
    ((s.onRun w.val (fun y => y.putG f.dst.toNat (BitVec.ofNat 64 v) 4)).arrayUse w.val x.s.part 1).retire w.val 1 1))

/-- The shape of a tile instruction: rows of A, rows of B, K, blocks and the scratch addresses. -/
structure Tile where
  m : Nat
  n : Nat
  kg : Nat
  scaled : Bool
  blk16 : Bool
  fmt : Nat
  a : Nat
  b : Nat
  c : Nat
  sa : Nat
  sb : Nat

/-- K = 16 × KG (R276). -/
def Tile.k (t : Tile) : Nat := 16 * t.kg
/-- Packed bytes of K elements: the row stride of A and B (R276). -/
def Tile.row (t : Tile) : Nat := packedBytes t.fmt t.k
/-- Block size of the scales. -/
def Tile.bs (t : Tile) : Nat := blockSize t.blk16

/-- Which operand shapes the three tile instructions have (R276). -/
inductive TileOp where
  | dotr | axpyr | mma
  deriving DecidableEq, Repr

/-- Bytes of A: K elements, N elements, or M rows of K (R276). -/
def Tile.aBytes (t : Tile) : TileOp → Nat
  | .dotr => t.row
  | .axpyr => packedBytes t.fmt t.n
  | .mma => t.m * t.row
/-- Bytes of B: N rows (R276). -/
def Tile.bBytes (t : Tile) : Nat := t.n * t.row
/-- Bytes of C: values of 4 B (R276). -/
def Tile.cBytes (t : Tile) : TileOp → Nat
  | .dotr => 4 * t.n
  | .axpyr => 4 * t.k
  | .mma => 4 * t.m * t.n
/-- Scale bytes of A (R330). -/
def Tile.saBytes (t : Tile) : TileOp → Nat
  | .dotr => t.k / t.bs
  | .axpyr => t.n / t.bs
  | .mma => t.m * (t.k / t.bs)
/-- Scale bytes of B (R330). -/
def Tile.sbBytes (t : Tile) : Nat := t.n * (t.k / t.bs)

/-- Two byte regions overlap. -/
def overlap (a n b m : Nat) : Bool := decide (a < b + m) && decide (b < a + n)

/-- The scratch regions a tile reads. -/
def Tile.ins (t : Tile) (o : TileOp) : List (Nat × Nat) :=
  [(t.a, t.aBytes o), (t.b, t.bBytes)] ++ (if o = .dotr then [] else [(t.c, t.cBytes o)]) ++
    (if t.scaled then [(t.sa, t.saBytes o), (t.sb, t.sbBytes)] else [])

/-- A tile's operands are out of range: alignment, the scratch, an overlap of C, or a dimension that is not a multiple
of the block (R259, R276, R277). -/
def Tile.bad (t : Tile) (o : TileOp) (size : Nat) : Bool :=
  t.a % 64 != 0 || t.b % 64 != 0 || t.c % 64 != 0 ||
  (t.ins o ++ [(t.c, t.cBytes o)]).any (fun r => decide (size < r.1 + r.2)) ||
  overlap t.c (t.cBytes o) t.a (t.aBytes o) || overlap t.c (t.cBytes o) t.b t.bBytes ||
  (t.scaled && (t.k % t.bs != 0 || (o == .axpyr && t.n % t.bs != 0)))

/-- n elements of a format from scratch. -/
def Run.elemsAt (x : Run) (fmt a n : Nat) : List Nat :=
  unpackBits (elemBits fmt) n (ofBytes (x.sbytes a (packedBytes fmt n)))

/-- Elements with their block scales as exact values (R329, R330). -/
def withScales (fmt bs : Nat) (es scales : List Nat) : List Val :=
  (es.zip (List.range es.length)).map (fun e => scaledValue fmt e.1 (scales.getD (e.2 / bs) 0))

/-- Row i of an operand of K-element rows at an address, with the scales of that row. -/
def Tile.rowVals (t : Tile) (x : Run) (a sa i : Nat) : List Val :=
  withScales t.fmt t.bs (x.elemsAt t.fmt (a + i * t.row) t.k)
    ((x.sbytes (sa + i * (t.k / t.bs)) (t.k / t.bs)).map (·.toNat))

/-- Key of a tile's sum order: its kind and dimensions (R278). -/
def Tile.key (t : Tile) (o : TileOp) : Nat :=
  0x1000 + (match o with | .dotr => 0 | .axpyr => 1 | .mma => 2) + 4 * t.kg + 4096 * t.m + 65536 * t.n

/-- The value that a tile adds to its output j (R276, R277). -/
def Tile.out (t : Tile) (o : TileOp) (x : Run) (j : Nat) : Nat :=
  let key := t.key o
  match o with
  | .axpyr =>
    if t.scaled then
      let av := withScales t.fmt t.bs (x.elemsAt t.fmt t.a t.n) ((x.sbytes t.sa (t.n / t.bs)).map (·.toNat))
      scaledSum key av ((List.range t.n).map (fun i => (t.rowVals x t.b t.sb i).getD j .nan))
    else
      dotSum key t.fmt (x.elemsAt t.fmt t.a t.n) ((List.range t.n).map (fun i => (x.elemsAt t.fmt (t.b + i * t.row) t.k).getD j 0))
  | _ =>
    let m := if o = .mma then j / t.n else 0
    let n := if o = .mma then j % t.n else j
    if t.scaled then scaledSum key (t.rowVals x t.a t.sa m) (t.rowVals x t.b t.sb n)
    else dotSum key t.fmt (x.elemsAt t.fmt (t.a + m * t.row) t.k) (x.elemsAt t.fmt (t.b + n * t.row) t.k)

/-- Outputs of a tile. -/
def Tile.outs (t : Tile) : TileOp → Nat
  | .dotr => t.n
  | .axpyr => t.k
  | .mma => t.m * t.n

/-- A scale byte that a tile meets is 0xFF (R277). -/
def Tile.nanScale (t : Tile) (o : TileOp) (x : Run) : Bool :=
  t.scaled && ((x.sbytes t.sa (t.saBytes o)).any (· = 0xFF) || (x.sbytes t.sb t.sbBytes).any (· = 0xFF))

/-- The bytes of C after a tile: DOTR starts each output at +0, the others add to what C holds (R276, R333). -/
def Tile.result (t : Tile) (o : TileOp) (x : Run) : List Byte :=
  let int := isIntG t.fmt && !t.scaled
  (List.range (t.outs o)).flatMap (fun j =>
    let acc := if o = .dotr then 0 else ofBytes (x.sbytes (t.c + 4 * j) 4)
    toBytes 4 (accAdd int acc (t.out o x j)))

/-- A tile instruction (R276, R277, R336). -/
def State.tileOp (s : State) (w op : Nat) (f : Fields) (o : TileOp) (shape : Run → Tile) (scaled : Bool) : State :=
  let len := if scaled then 2 else 1
  s.tryIssue w op f len [f.dst.toNat, f.src1.toNat, f.src2.toNat]
    (fun _ x =>
      let t := shape x
      if t.bad o x.size then some 0 else landedAll x (t.ins o ++ [(t.c, t.cBytes o)]))
    (fun s x =>
      let t := shape x
      if t.bad o x.size then s.faultRun w .range
      else if (t.ins o).any (fun r => x.poisoned r.1 r.2) then s.faultRun w .poison
      else if t.nanScale o x then s.faultRun w .format
      else
        let part := ceilDiv (t.m * t.n * t.kg) (groupG t.fmt) + (if t.scaled then ceilDiv t.sbBytes 8 else 0)
        let cost := dutyCost s.power.duty 12 part
        ((s.onRun w (fun y => y.sput t.c (t.result o x))).arrayUse w x.s.part cost).retire w cost len)

/-- The tile of a DOTR or AXPYR word (R276, R277). -/
def rowTile (f : Fields) (x : Run) : Tile :=
  let ext := x.s.img.code.getD (x.pc + 1) 0
  { m := 1, n := immBits f 11 0 + 1, kg := immBits f 19 12 + 1, scaled := immBits f 20 20 == 1, blk16 := immBits f 21 21 == 1,
    fmt := f.fmt.toNat, a := (x.s1 f).toNat, b := (x.gr f.src2.toNat).toNat, c := (x.gd f).toNat,
    sa := bits ext 17 0, sb := bits ext 35 18 }

/-- The tile of an MMA word (R276, R277). -/
def mmaTile (f : Fields) (x : Run) : Tile :=
  let ext := x.s.img.code.getD (x.pc + 1) 0
  { m := immBits f 3 0 + 1, n := immBits f 9 4 + 1, kg := immBits f 17 10 + 1, scaled := immBits f 18 18 == 1,
    blk16 := immBits f 19 19 == 1, fmt := f.fmt.toNat, a := (x.s1 f).toNat, b := (x.gr f.src2.toNat).toNat,
    c := (x.gd f).toNat, sa := bits ext 17 0, sb := bits ext 35 18 }

/-- DOTR: C[i] = Σ_k A[k] × B[i][k] for N rows (R276). -/
def execDotr (w : WeaverId) (f : Fields) (s : State) : Host.Outcome State Fault Refusal :=
  ok (s.tileOp w.val 0x61 f .dotr (rowTile f) (immBits f 20 20 == 1))

/-- AXPYR: C[k] += Σ_i A[i] × B[i][k] (R276). -/
def execAxpyr (w : WeaverId) (f : Fields) (s : State) : Host.Outcome State Fault Refusal :=
  ok (s.tileOp w.val 0x62 f .axpyr (rowTile f) (immBits f 20 20 == 1))

/-- MMA: C[m][n] += Σ_k A[m][k] × B[n][k] (R276). -/
def execMma (w : WeaverId) (f : Fields) (s : State) : Host.Outcome State Fault Refusal :=
  ok (s.tileOp w.val 0x63 f .mma (mmaTile f) (immBits f 18 18 == 1))

/-! ### The softmax step (R279) -/

/-- What a softmax step computes: the maximum, the factor, the weights, the sum and the generator. -/
structure Softmax where
  m2 : Nat
  c : Nat
  p : List Nat
  l2 : Nat
  rng : U64

/-- FP32 values equal as numbers. -/
def f32eq (a b : Nat) : Bool :=
  !(fp32.value a).isNan && !(fp32.value b).isNan && !(fp32.value a).lt (fp32.value b) && !(fp32.value b).lt (fp32.value a)

/-- FP32 difference, nearest-even. -/
def f32sub (a b : Nat) : Nat := fp32.arith .nearest ((fp32.value a).add (fp32.value b).neg)

/-- One step of base-2 online softmax (R279). -/
def softmax (c mode : Nat) (m l sigma : Nat) (scores : List Nat) (g : U64) : Softmax :=
  let t := scores.map (fun s => f32mul s sigma)
  let m2 := t.foldl (fun a b => pickMax 0x7FC00000 (a, fp32.value a) (b, fp32.value b)) m
  let k := if f32eq m2 m then 0x3F800000 else fp32.exp2 (f32sub m m2)
  let w := fun rd (x : Nat) =>
    if fp32.value x = .inf true then 0 else (convertTo c rd (fp32.value (fp32.exp2 (f32sub x m2)))).1
  let r := mapRound mode w t g
  let sum := f32sum (0x300 + c + 16 * scores.length) (r.1.map (widen c))
  { m2 := m2, c := k, p := r.1, l2 := f32add (f32mul l k) sum, rng := r.2 }

/-- SMX: one step of online softmax on N scores at gS1 with the weights to gS2; a NaN score gives FORMAT (R279, R336). -/
def execSmx (w : WeaverId) (f : Fields) (s : State) : Host.Outcome State Fault Refusal :=
  let c := f.fmt.toNat
  let n := immBits f 11 0 + 1
  let d := f.dst.toNat
  let cost := 16 + ceilDiv n 8
  let bad := fun (x : Run) => d = 0 || decide (28 < d) || decide (x.size < (x.s1 f).toNat + 4 * n) ||
    decide (x.size < (x.gr f.src2.toNat).toNat + packedBytes c n)
  ok (s.tryIssue w.val 0x64 f 1 [d, d + 1, d + 2, d + 3, f.src1.toNat, f.src2.toNat]
    (fun _ x => if bad x then some 0 else
      landedAll x [((x.s1 f).toNat, 4 * n), ((x.gr f.src2.toNat).toNat, packedBytes c n)])
    (fun s x =>
      if bad x then s.faultRun w.val .range
      else if x.poisoned (x.s1 f).toNat (4 * n) then s.faultRun w.val .poison
      else
        let scores := unpackBits 32 n (ofBytes (x.sbytes (x.s1 f).toNat (4 * n)))
        if scores.any (fun v => (fp32.value v).isNan) then s.faultRun w.val .format
        else
          let low := fun i => (x.gr i).toNat % 2 ^ 32
          let r := softmax c x.s.roundMode (low d) (low (d + 1)) (low (d + 3)) scores x.rng
          let s := s.onRun w.val (fun y =>
            let y := y.sput (x.gr f.src2.toNat).toNat (toBytes (packedBytes c n) (packBits (elemBits c) r.p))
            { ((y.putG d (BitVec.ofNat 64 r.m2) cost).putG (d + 1) (BitVec.ofNat 64 r.l2) cost).putG (d + 2) (BitVec.ofNat 64 r.c) cost
              with rng := r.rng })
          s.retire w.val cost 1))

/-- 1/f rounded to FP32, nearest-even (R280, R326). -/
def f32inv (x : Nat) : Nat :=
  match fp32.value x with
  | .nan => 0x7FC00000
  | .inf n => fp32.withSign n 0
  | .fin n m e => if m = 0 then fp32.withSign n fp32.infMag else
      let a := rcpApprox m e
      fp32.arith .nearest (.fin n a.m a.e)

/-- OSCALE: scales K FP32 values at gD by f, or by 1/f with DIV (R280). -/
def execOscale (w : WeaverId) (f : Fields) (s : State) : Host.Outcome State Fault Refusal :=
  let k := immBits f 11 0 + 1
  let bad := fun (x : Run) => decide (x.size < (x.gd f).toNat + 4 * k)
  ok (s.tryIssue w.val 0x65 f 1 [f.dst.toNat, f.src1.toNat]
    (fun _ x => if bad x then some 0 else x.landed (x.gd f).toNat (4 * k))
    (fun s x =>
      if bad x then s.faultRun w.val .range
      else if x.poisoned (x.gd f).toNat (4 * k) then s.faultRun w.val .poison
      else
        let f0 := (x.s1 f).toNat % 2 ^ 32
        let v := if immBits f 12 12 = 1 then f32inv f0 else f0
        let es := (unpackBits 32 k (ofBytes (x.sbytes (x.gd f).toNat (4 * k)))).map (fun e => f32mul e v)
        (s.onRun w.val (fun y => y.sput (x.gd f).toNat (toBytes (4 * k) (packBits 32 es)))).retire w.val (4 + ceilDiv k 16) 1))

end Sys2Proof.Machine
end

