-- ==== Sys2Proof/Machine/Dispatch.lean ====
section
/-! DEFINITION. The dispatch: one arm for each command of the operation table. -/
namespace Sys2Proof.Machine

def exec (i : Instr) (s : State) : Host.Outcome State Fault Refusal :=
  match i with
  | .roundBoundary m => Sys2Proof.Machine.execRoundBoundary m s
  | .lengthChangeEffect => Sys2Proof.Machine.execLengthChangeEffect s
  | .marker l boundary masterEp masterPrio hops pend early offNs => Sys2Proof.Machine.execMarker l boundary masterEp masterPrio hops pend early offNs s
  | .roundClaim l counter prio ep => Sys2Proof.Machine.execRoundClaim l counter prio ep s
  | .masterRecognised => Sys2Proof.Machine.execMasterRecognised s
  | .roundHoldover => Sys2Proof.Machine.execRoundHoldover s
  | .electionStart => Sys2Proof.Machine.execElectionStart s
  | .roundResync counter => Sys2Proof.Machine.execRoundResync counter s
  | .sqTailDoorbell p q v => Sys2Proof.Machine.execSqTailDoorbell p q v s
  | .cqHeadDoorbell p q v => Sys2Proof.Machine.execCqHeadDoorbell p q v s
  | .sqResetDoorbell p q v => Sys2Proof.Machine.execSqResetDoorbell p q v s
  | .cqResetDoorbell p q v => Sys2Proof.Machine.execCqResetDoorbell p q v s
  | .cqResetApply p q => Sys2Proof.Machine.execCqResetApply p q s
  | .descriptorFetch p q => Sys2Proof.Machine.execDescriptorFetch p q s
  | .translationPinComplete p q => Sys2Proof.Machine.execTranslationPinComplete p q s
  | .admissionPoint k => Sys2Proof.Machine.execAdmissionPoint k s
  | .dequePop w => Sys2Proof.Machine.execDequePop w s
  | .steal w => Sys2Proof.Machine.execSteal w s
  | .budgetStop w => Sys2Proof.Machine.execBudgetStop w s
  | .cqHeldRecordRetry p q => Sys2Proof.Machine.execCqHeldRecordRetry p q s
  | .streamLineLand id cycle => Sys2Proof.Machine.execStreamLineLand id cycle s
  | .poolResponse id st cycle => Sys2Proof.Machine.execPoolResponse id st cycle s
  | .poolWriteRefusal id st => Sys2Proof.Machine.execPoolWriteRefusal id st s
  | .watchEvaluation sid st => Sys2Proof.Machine.execWatchEvaluation sid st s
  | .watchTimeout sid => Sys2Proof.Machine.execWatchTimeout sid s
  | .add w f => Sys2Proof.Machine.execAdd w f s
  | .sub w f => Sys2Proof.Machine.execSub w f s
  | .mul w f => Sys2Proof.Machine.execMul w f s
  | .divu w f => Sys2Proof.Machine.execDivu w f s
  | .remu w f => Sys2Proof.Machine.execRemu w f s
  | .andOp w f => Sys2Proof.Machine.execAndOp w f s
  | .orOp w f => Sys2Proof.Machine.execOrOp w f s
  | .xorOp w f => Sys2Proof.Machine.execXorOp w f s
  | .shl w f => Sys2Proof.Machine.execShl w f s
  | .shr w f => Sys2Proof.Machine.execShr w f s
  | .sra w f => Sys2Proof.Machine.execSra w f s
  | .minOp w f => Sys2Proof.Machine.execMinOp w f s
  | .maxOp w f => Sys2Proof.Machine.execMaxOp w f s
  | .li w f => Sys2Proof.Machine.execLi w f s
  | .lix w f => Sys2Proof.Machine.execLix w f s
  | .ldc w f => Sys2Proof.Machine.execLdc w f s
  | .cmpeq w f => Sys2Proof.Machine.execCmpeq w f s
  | .cmpne w f => Sys2Proof.Machine.execCmpne w f s
  | .cmplt w f => Sys2Proof.Machine.execCmplt w f s
  | .cmpltu w f => Sys2Proof.Machine.execCmpltu w f s
  | .plog w f => Sys2Proof.Machine.execPlog w f s
  | .sel w f => Sys2Proof.Machine.execSel w f s
  | .br w f => Sys2Proof.Machine.execBr w f s
  | .loop w f => Sys2Proof.Machine.execLoop w f s
  | .ld8u w f => Sys2Proof.Machine.execLd8u w f s
  | .ld16u w f => Sys2Proof.Machine.execLd16u w f s
  | .ld32u w f => Sys2Proof.Machine.execLd32u w f s
  | .ld32s w f => Sys2Proof.Machine.execLd32s w f s
  | .ld64 w f => Sys2Proof.Machine.execLd64 w f s
  | .st8 w f => Sys2Proof.Machine.execSt8 w f s
  | .st16 w f => Sys2Proof.Machine.execSt16 w f s
  | .st32 w f => Sys2Proof.Machine.execSt32 w f s
  | .st64 w f => Sys2Proof.Machine.execSt64 w f s
  | .vld w f => Sys2Proof.Machine.execVld w f s
  | .vst w f => Sys2Proof.Machine.execVst w f s
  | .vldb w f => Sys2Proof.Machine.execVldb w f s
  | .sclr w f => Sys2Proof.Machine.execSclr w f s
  | .sptest w f => Sys2Proof.Machine.execSptest w f s
  | .stream w f => Sys2Proof.Machine.execStream w f s
  | .streamw w f => Sys2Proof.Machine.execStreamw w f s
  | .gather w f => Sys2Proof.Machine.execGather w f s
  | .scatter w f => Sys2Proof.Machine.execScatter w f s
  | .pld w f => Sys2Proof.Machine.execPld w f s
  | .pst w f => Sys2Proof.Machine.execPst w f s
  | .swait w f => Sys2Proof.Machine.execSwait w f s
  | .vadd w f => Sys2Proof.Machine.execVadd w f s
  | .vsub w f => Sys2Proof.Machine.execVsub w f s
  | .vmul w f => Sys2Proof.Machine.execVmul w f s
  | .vfma w f => Sys2Proof.Machine.execVfma w f s
  | .vmin w f => Sys2Proof.Machine.execVmin w f s
  | .vmax w f => Sys2Proof.Machine.execVmax w f s
  | .vabs w f => Sys2Proof.Machine.execVabs w f s
  | .vexp2 w f => Sys2Proof.Machine.execVexp2 w f s
  | .vrcp w f => Sys2Proof.Machine.execVrcp w f s
  | .vrsq w f => Sys2Proof.Machine.execVrsq w f s
  | .vand w f => Sys2Proof.Machine.execVand w f s
  | .vor w f => Sys2Proof.Machine.execVor w f s
  | .vxor w f => Sys2Proof.Machine.execVxor w f s
  | .vshr w f => Sys2Proof.Machine.execVshr w f s
  | .vcmplt w f => Sys2Proof.Machine.execVcmplt w f s
  | .vsel w f => Sys2Proof.Machine.execVsel w f s
  | .vsum w f => Sys2Proof.Machine.execVsum w f s
  | .vmaxr w f => Sys2Proof.Machine.execVmaxr w f s
  | .vbc w f => Sys2Proof.Machine.execVbc w f s
  | .vext w f => Sys2Proof.Machine.execVext w f s
  | .vins w f => Sys2Proof.Machine.execVins w f s
  | .vcvt w f => Sys2Proof.Machine.execVcvt w f s
  | .vquant w f => Sys2Proof.Machine.execVquant w f s
  | .vdq w f => Sys2Proof.Machine.execVdq w f s
  | .dot w f => Sys2Proof.Machine.execDot w f s
  | .dotr w f => Sys2Proof.Machine.execDotr w f s
  | .axpyr w f => Sys2Proof.Machine.execAxpyr w f s
  | .mma w f => Sys2Proof.Machine.execMma w f s
  | .smx w f => Sys2Proof.Machine.execSmx w f s
  | .oscale w f => Sys2Proof.Machine.execOscale w f s
  | .fill w f => Sys2Proof.Machine.execFill w f s
  | .copy w f => Sys2Proof.Machine.execCopy w f s
  | .compare w f => Sys2Proof.Machine.execCompare w f s
  | .reduce w f => Sys2Proof.Machine.execReduce w f s
  | .checksum w f => Sys2Proof.Machine.execChecksum w f s
  | .aadd w f => Sys2Proof.Machine.execAadd w f s
  | .acas w f => Sys2Proof.Machine.execAcas w f s
  | .amax w f => Sys2Proof.Machine.execAmax w f s
  | .aswap w f => Sys2Proof.Machine.execAswap w f s
  | .fence w f => Sys2Proof.Machine.execFence w f s
  | .flag w f => Sys2Proof.Machine.execFlag w f s
  | .wait w f => Sys2Proof.Machine.execWait w f s
  | .yield w f => Sys2Proof.Machine.execYield w f s
  | .phase w f => Sys2Proof.Machine.execPhase w f s
  | .sendMailbox w f => Sys2Proof.Machine.execSendMailbox w f s
  | .sendDoorbell w f => Sys2Proof.Machine.execSendDoorbell w f s
  | .cntrd w f => Sys2Proof.Machine.execCntrd w f s
  | .timeBudget w f => Sys2Proof.Machine.execTimeBudget w f s
  | .timeRound w f => Sys2Proof.Machine.execTimeRound w f s
  | .endStroke w f => Sys2Proof.Machine.execEndStroke w f s
  | .sampleRecordWrite w t => Sys2Proof.Machine.execSampleRecordWrite w t s
  | .bulkSliceEnd d ch => Sys2Proof.Machine.execBulkSliceEnd d ch s
  | .partCreate who r => Sys2Proof.Machine.execPartCreate who r s
  | .partDestroy who r => Sys2Proof.Machine.execPartDestroy who r s
  | .partSetAffinity who r => Sys2Proof.Machine.execPartSetAffinity who r s
  | .partSetConsent who r => Sys2Proof.Machine.execPartSetConsent who r s
  | .extGrant who r => Sys2Proof.Machine.execExtGrant who r s
  | .extRevoke who r => Sys2Proof.Machine.execExtRevoke who r s
  | .extRetire who r => Sys2Proof.Machine.execExtRetire who r s
  | .extQueryEntry who r => Sys2Proof.Machine.execExtQueryEntry who r s
  | .extQueryNext who r => Sys2Proof.Machine.execExtQueryNext who r s
  | .winMap who r => Sys2Proof.Machine.execWinMap who r s
  | .winUnmap who r => Sys2Proof.Machine.execWinUnmap who r s
  | .rankSet who r => Sys2Proof.Machine.execRankSet who r s
  | .mcastSet who r => Sys2Proof.Machine.execMcastSet who r s
  | .keyLoad who r => Sys2Proof.Machine.execKeyLoad who r s
  | .shapeSet who r => Sys2Proof.Machine.execShapeSet who r s
  | .policeSet who r => Sys2Proof.Machine.execPoliceSet who r s
  | .rankBudget who r => Sys2Proof.Machine.execRankBudget who r s
  | .pwrCap who r => Sys2Proof.Machine.execPwrCap who r s
  | .pwrCapSagCap who r => Sys2Proof.Machine.execPwrCapSagCap who r s
  | .pwrCapSagWarn who r => Sys2Proof.Machine.execPwrCapSagWarn who r s
  | .pwrMode who r => Sys2Proof.Machine.execPwrMode who r s
  | .opPref who r => Sys2Proof.Machine.execOpPref who r s
  | .cntSelectEvent who r => Sys2Proof.Machine.execCntSelectEvent who r s
  | .cntSelectUserRead who r => Sys2Proof.Machine.execCntSelectUserRead who r s
  | .cntSnap who r => Sys2Proof.Machine.execCntSnap who r s
  | .regionCreate who r => Sys2Proof.Machine.execRegionCreate who r s
  | .regionAccept who r => Sys2Proof.Machine.execRegionAccept who r s
  | .regionDestroy who r => Sys2Proof.Machine.execRegionDestroy who r s
  | .regionPin who r => Sys2Proof.Machine.execRegionPin who r s
  | .regionUnpin who r => Sys2Proof.Machine.execRegionUnpin who r s
  | .regionPublish who r => Sys2Proof.Machine.execRegionPublish who r s
  | .mbxBind who r => Sys2Proof.Machine.execMbxBind who r s
  | .mbxLock who r => Sys2Proof.Machine.execMbxLock who r s
  | .roundSet who r => Sys2Proof.Machine.execRoundSet who r s
  | .progLoad who r => Sys2Proof.Machine.execProgLoad who r s
  | .progUnload who r => Sys2Proof.Machine.execProgUnload who r s
  | .attest who r => Sys2Proof.Machine.execAttest who r s
  | .roleSwap who r => Sys2Proof.Machine.execRoleSwap who r s
  | .fwStage who r => Sys2Proof.Machine.execFwStage who r s
  | .xlateSync who r => Sys2Proof.Machine.execXlateSync who r s
  | .memTarget who r => Sys2Proof.Machine.execMemTarget who r s
  | .memTargetRebuildShare who r => Sys2Proof.Machine.execMemTargetRebuildShare who r s
  | .memRetire who r => Sys2Proof.Machine.execMemRetire who r s
  | .errRead who r => Sys2Proof.Machine.execErrRead who r s
  | .devQuery who r => Sys2Proof.Machine.execDevQuery who r s
  | .ctrlFence who r => Sys2Proof.Machine.execCtrlFence who r s
  | .backgroundInstructionDone who => Sys2Proof.Machine.execBackgroundInstructionDone who s
  | .controlResultReturn who => Sys2Proof.Machine.execControlResultReturn who s
  | .pageWalk walker p pva need src => Sys2Proof.Machine.execPageWalk walker p pva need src s
  | .dataNc p pva offset data load => Sys2Proof.Machine.execDataNc p pva offset data load s
  | .migrationReadFail p pva st => Sys2Proof.Machine.execMigrationReadFail p pva st s
  | .migrationComplete p pva => Sys2Proof.Machine.execMigrationComplete p pva s
  | .extentDrainLimit e => Sys2Proof.Machine.execExtentDrainLimit e s
  | .extentScrubbingEntry e => Sys2Proof.Machine.execExtentScrubbingEntry e s
  | .scrubBlockReadback h pass => Sys2Proof.Machine.execScrubBlockReadback h pass s
  | .extentFree e => Sys2Proof.Machine.execExtentFree e s
  | .memReadDecode pa err came src who => Sys2Proof.Machine.execMemReadDecode pa err came src who s
  | .verifyRead pa err => Sys2Proof.Machine.execVerifyRead pa err s
  | .reconstruction pa x src who => Sys2Proof.Machine.execReconstruction pa x src who s
  | .coalesceRelease h rand => Sys2Proof.Machine.execCoalesceRelease h rand s
  | .parityDeltaUpdate h rand => Sys2Proof.Machine.execParityDeltaUpdate h rand s
  | .refreshDue b => Sys2Proof.Machine.execRefreshDue b s
  | .bankRefresh b => Sys2Proof.Machine.execBankRefresh b s
  | .rowCloseTimeout b => Sys2Proof.Machine.execRowCloseTimeout b s
  | .refreshRateSwitch st temp => Sys2Proof.Machine.execRefreshRateSwitch st temp s
  | .weaveDieFailed d => Sys2Proof.Machine.execWeaveDieFailed d s
  | .failoverTakeover d => Sys2Proof.Machine.execFailoverTakeover d s
  | .failoverResyncDone d => Sys2Proof.Machine.execFailoverResyncDone d s
  | .selfRefreshEntry h => Sys2Proof.Machine.execSelfRefreshEntry h s
  | .selfRefreshExit h => Sys2Proof.Machine.execSelfRefreshExit h s
  | .metadataFlush h => Sys2Proof.Machine.execMetadataFlush h s
  | .parityMismatch path kind x tries => Sys2Proof.Machine.execParityMismatch path kind x tries s
  | .stackFailed st cause => Sys2Proof.Machine.execStackFailed st cause s
  | .rebuildRand h badLines => Sys2Proof.Machine.execRebuildRand h badLines s
  | .pageRetireCopy h => Sys2Proof.Machine.execPageRetireCopy h s
  | .bankUnitMove h => Sys2Proof.Machine.execBankUnitMove h s
  | .scratchError w addr uncorrectable => Sys2Proof.Machine.execScratchError w addr uncorrectable s
  | .registerParityError w => Sys2Proof.Machine.execRegisterParityError w s
  | .weaverFence w cause => Sys2Proof.Machine.execWeaverFence w cause s
  | .rdS r => Sys2Proof.Machine.execRdS r s
  | .rdX r => Sys2Proof.Machine.execRdX r s
  | .upg r => Sys2Proof.Machine.execUpg r s
  | .rdNc r => Sys2Proof.Machine.execRdNc r s
  | .wrNc r data masks => Sys2Proof.Machine.execWrNc r data masks s
  | .atom r op width8 operand compare => Sys2Proof.Machine.execAtom r op width8 operand compare s
  | .ackInv p rank line => Sys2Proof.Machine.execAckInv p rank line s
  | .fwdDone p rank line data poison => Sys2Proof.Machine.execFwdDone p rank line data poison s
  | .fwdMiss p rank line wbPending => Sys2Proof.Machine.execFwdMiss p rank line wbPending s
  | .recallData p rank line data poison => Sys2Proof.Machine.execRecallData p rank line data poison s
  | .wb who line dirty keep data poison => Sys2Proof.Machine.execWb who line dirty keep data poison s
  | .evict p rank line => Sys2Proof.Machine.execEvict p rank line s
  | .probeAck p rank => Sys2Proof.Machine.execProbeAck p rank s
  | .mcAck p group line mask => Sys2Proof.Machine.execMcAck p group line mask s
  | .mcAckTimeout origin group line => Sys2Proof.Machine.execMcAckTimeout origin group line s
  | .snoopProbe line => Sys2Proof.Machine.execSnoopProbe line s
  | .agentDeadDeclare p rank => Sys2Proof.Machine.execAgentDeadDeclare p rank s
  | .tokenLapse line => Sys2Proof.Machine.execTokenLapse line s
  | .regionPublishComplete r => Sys2Proof.Machine.execRegionPublishComplete r s
  | .versionRetire r v => Sys2Proof.Machine.execVersionRetire r v s
  | .regionDrainLimit r => Sys2Proof.Machine.execRegionDrainLimit r s
  | .regionInvalidate r => Sys2Proof.Machine.execRegionInvalidate r s
  | .linkPacketRx l seq ack crcOk codewordOk pkt => Sys2Proof.Machine.execLinkPacketRx l seq ack crcOk codewordOk pkt s
  | .packetForward l vc => Sys2Proof.Machine.execPacketForward l vc s
  | .hopAgeDrop l vc => Sys2Proof.Machine.execHopAgeDrop l vc s
  | .idle x => Sys2Proof.Machine.execIdle x s
  | .ack l seq => Sys2Proof.Machine.execAck l seq s
  | .nak l seq => Sys2Proof.Machine.execNak l seq s
  | .credit l vc units => Sys2Proof.Machine.execCredit l vc units s
  | .delayReq l stamp => Sys2Proof.Machine.execDelayReq l stamp s
  | .delayRsp l roundTripPs turnaroundPs => Sys2Proof.Machine.execDelayRsp l roundTripPs turnaroundPs s
  | .retrainReq l mask => Sys2Proof.Machine.execRetrainReq l mask s
  | .linkDown l cause => Sys2Proof.Machine.execLinkDown l cause s
  | .trainingBlock l b => Sys2Proof.Machine.execTrainingBlock l b s
  | .lightDetect l lanes => Sys2Proof.Machine.execLightDetect l lanes s
  | .trainingStageTimeout l => Sys2Proof.Machine.execTrainingStageTimeout l s
  | .trainingComplete l => Sys2Proof.Machine.execTrainingComplete l s
  | .trainingRetry l => Sys2Proof.Machine.execTrainingRetry l s
  | .linkUp l => Sys2Proof.Machine.execLinkUp l s
  | .replayTimeout l => Sys2Proof.Machine.execReplayTimeout l s
  | .nakResend l => Sys2Proof.Machine.execNakResend l s
  | .lossOfLight l lanes => Sys2Proof.Machine.execLossOfLight l lanes s
  | .heartbeatTimeout l => Sys2Proof.Machine.execHeartbeatTimeout l s
  | .laneFault l lane => Sys2Proof.Machine.execLaneFault l lane s
  | .fastRetrainDone l delayNs => Sys2Proof.Machine.execFastRetrainDone l delayNs s
  | .retrainTimeout l => Sys2Proof.Machine.execRetrainTimeout l s
  | .laneRestore l lane => Sys2Proof.Machine.execLaneRestore l lane s
  | .holdExpiry l => Sys2Proof.Machine.execHoldExpiry l s
  | .engineFailed oe => Sys2Proof.Machine.execEngineFailed oe s
  | .sessionHello p ep rank sid frag frags nonce => Sys2Proof.Machine.execSessionHello p ep rank sid frag frags nonce s
  | .sessionConfirm p sid macOk ss => Sys2Proof.Machine.execSessionConfirm p sid macOk ss s
  | .sessionConfirmLapse p => Sys2Proof.Machine.execSessionConfirmLapse p s
  | .mbxPut p rank tag channel len words => Sys2Proof.Machine.execMbxPut p rank tag channel len words s
  | .flowReset f pktCtr tag => Sys2Proof.Machine.execFlowReset f pktCtr tag s
  | .linkState l m => Sys2Proof.Machine.execLinkState l m s
  | .linkStateFlood => Sys2Proof.Machine.execLinkStateFlood s
  | .mcInstall origin group outs localDelivery => Sys2Proof.Machine.execMcInstall origin group outs localDelivery s
  | .roundCtrl m => Sys2Proof.Machine.execRoundCtrl m s
  | .flowCountNotice f epoch n => Sys2Proof.Machine.execFlowCountNotice f epoch n s
  | .flaggedRequestDeliver f => Sys2Proof.Machine.execFlaggedRequestDeliver f s
  | .flagWaitExpiry f => Sys2Proof.Machine.execFlagWaitExpiry f s
  | .flowForget f => Sys2Proof.Machine.execFlowForget f s
  | .linkDieFailed d => Sys2Proof.Machine.execLinkDieFailed d s
  | .routeTableInstall => Sys2Proof.Machine.execRouteTableInstall s
  | .orientationBoundary => Sys2Proof.Machine.execOrientationBoundary s
  | .endpointUnreachable ep => Sys2Proof.Machine.execEndpointUnreachable ep s
  | .rankMissFill d p rank => Sys2Proof.Machine.execRankMissFill d p rank s
  | .transportTimeout tag => Sys2Proof.Machine.execTransportTimeout tag s
  | .rimMemRd tag dpa rsvd => Sys2Proof.Machine.execRimMemRd tag dpa rsvd s
  | .rimMemWr tag dpa data mask rsvd => Sys2Proof.Machine.execRimMemWr tag dpa data mask rsvd s
  | .hostReleaseTimer tag => Sys2Proof.Machine.execHostReleaseTimer tag s
  | .hostRequestHoldTimeout tag => Sys2Proof.Machine.execHostRequestHoldTimeout tag s
  | .rimMbxPut m => Sys2Proof.Machine.execRimMbxPut m s
  | .rimMbxAck toHost channel tag consumed st => Sys2Proof.Machine.execRimMbxAck toHost channel tag consumed st s
  | .rimDoorbell toHost head addr v => Sys2Proof.Machine.execRimDoorbell toHost head addr v s
  | .ctrlResult => Sys2Proof.Machine.execCtrlResult s
  | .attestReq head nonce => Sys2Proof.Machine.execAttestReq head nonce s
  | .attestResp st => Sys2Proof.Machine.execAttestResp st s
  | .fwChunk head index words facts => Sys2Proof.Machine.execFwChunk head index words facts s
  | .telemetry head selector => Sys2Proof.Machine.execTelemetry head selector s
  | .telemetryData => Sys2Proof.Machine.execTelemetryData s
  | .event => Sys2Proof.Machine.execEvent s
  | .timeSync head => Sys2Proof.Machine.execTimeSync head s
  | .timeSyncPeriodic => Sys2Proof.Machine.execTimeSyncPeriodic s
  | .rimHealth g toHost lanes => Sys2Proof.Machine.execRimHealth g toHost lanes s
  | .rimNak toHost tag type st => Sys2Proof.Machine.execRimNak toHost tag type st s
  | .rimMessageDrop atHost m => Sys2Proof.Machine.execRimMessageDrop atHost m s
  | .rimMessageCrcFail g atHost => Sys2Proof.Machine.execRimMessageCrcFail g atHost s
  | .rimGroupDown g => Sys2Proof.Machine.execRimGroupDown g s
  | .rimLaneFault g lane => Sys2Proof.Machine.execRimLaneFault g lane s
  | .rimLaneRestore g lane => Sys2Proof.Machine.execRimLaneRestore g lane s
  | .mbxAckTimeout k => Sys2Proof.Machine.execMbxAckTimeout k s
  | .mailboxDelivery p => Sys2Proof.Machine.execMailboxDelivery p s
  | .ctrlGo => Sys2Proof.Machine.execCtrlGo s
  | .ctrlResPop => Sys2Proof.Machine.execCtrlResPop s
  | .eventPop => Sys2Proof.Machine.execEventPop s
  | .mbxPutRead k => Sys2Proof.Machine.execMbxPutRead k s
  | .mbxPop j => Sys2Proof.Machine.execMbxPop j s
  | .intStatusWrite v setSameCycle => Sys2Proof.Machine.execIntStatusWrite v setSameCycle s
  | .telemReq v => Sys2Proof.Machine.execTelemReq v s
  | .attestGo => Sys2Proof.Machine.execAttestGo s
  | .fwGo v => Sys2Proof.Machine.execFwGo v s
  | .hostDb v => Sys2Proof.Machine.execHostDb v s
  | .hostRegisterWrite offset size v => Sys2Proof.Machine.execHostRegisterWrite offset size v s
  | .identifyMemoryDevice => Sys2Proof.Machine.execIdentifyMemoryDevice s
  | .getSupportedLogs => Sys2Proof.Machine.execGetSupportedLogs s
  | .getLog => Sys2Proof.Machine.execGetLog s
  | .getEventRecords log => Sys2Proof.Machine.execGetEventRecords log s
  | .clearEventRecords log n => Sys2Proof.Machine.execClearEventRecords log n s
  | .getEventInterruptPolicy => Sys2Proof.Machine.execGetEventInterruptPolicy s
  | .setEventInterruptPolicy policy => Sys2Proof.Machine.execSetEventInterruptPolicy policy s
  | .getHealthInfo => Sys2Proof.Machine.execGetHealthInfo s
  | .getDynamicCapacityConfiguration reqId => Sys2Proof.Machine.execGetDynamicCapacityConfiguration reqId s
  | .getDynamicCapacityExtentList reqId => Sys2Proof.Machine.execGetDynamicCapacityExtentList reqId s
  | .addDynamicCapacityResponse reqId entry => Sys2Proof.Machine.execAddDynamicCapacityResponse reqId entry s
  | .releaseDynamicCapacity reqId entry => Sys2Proof.Machine.execReleaseDynamicCapacity reqId entry s
  | .dcOffer reqId extent pvaBase => Sys2Proof.Machine.execDcOffer reqId extent pvaBase s
  | .dcWithdraw reqId extent force => Sys2Proof.Machine.execDcWithdraw reqId extent force s
  | .cfgStage reqId w0 w1 key => Sys2Proof.Machine.execCfgStage reqId w0 w1 key s
  | .hostExtentFree entry => Sys2Proof.Machine.execHostExtentFree entry s
  | .keyGenerationAdvance p => Sys2Proof.Machine.execKeyGenerationAdvance p s
  | .keyGenerationDrop p => Sys2Proof.Machine.execKeyGenerationDrop p s
  | .debugUnlock sigOk reach => Sys2Proof.Machine.execDebugUnlock sigOk reach s
  | .debugHalt w => Sys2Proof.Machine.execDebugHalt w s
  | .stakeHealthFail k missedWrites sramError secureFault => Sys2Proof.Machine.execStakeHealthFail k missedWrites sramError secureFault s
  | .leaseEnd => Sys2Proof.Machine.execLeaseEnd s
  | .takeoverComplete facts replayOk => Sys2Proof.Machine.execTakeoverComplete facts replayOk s
  | .takeoverFailed => Sys2Proof.Machine.execTakeoverFailed s
  | .handoverReady => Sys2Proof.Machine.execHandoverReady s
  | .handoverBoundary => Sys2Proof.Machine.execHandoverBoundary s
  | .homeStakeReturn => Sys2Proof.Machine.execHomeStakeReturn s
  | .spineLoss => Sys2Proof.Machine.execSpineLoss s
  | .spineReturn => Sys2Proof.Machine.execSpineReturn s
  | .spineRejoin => Sys2Proof.Machine.execSpineRejoin s
  | .keepStoreWriteDone k readBackOk => Sys2Proof.Machine.execKeepStoreWriteDone k readBackOk s
  | .fwStageTimeout => Sys2Proof.Machine.execFwStageTimeout s
  | .checkpoint margins => Sys2Proof.Machine.execCheckpoint margins s
  | .persistentAreaWrite => Sys2Proof.Machine.execPersistentAreaWrite s
  | .feedLost b => Sys2Proof.Machine.execFeedLost b s
  | .feedRestored b => Sys2Proof.Machine.execFeedRestored b s
  | .sagWarn busV10 => Sys2Proof.Machine.execSagWarn busV10 s
  | .sagClear busV10 => Sys2Proof.Machine.execSagClear busV10 s
  | .undervoltReset busV10 => Sys2Proof.Machine.execUndervoltReset busV10 s
  | .overvolt busV10 => Sys2Proof.Machine.execOvervolt busV10 s
  | .capHeldOver => Sys2Proof.Machine.execCapHeldOver s
  | .groupFallback => Sys2Proof.Machine.execGroupFallback s
  | .operatingPointChange => Sys2Proof.Machine.execOperatingPointChange s
  | .throttle sensor temp => Sys2Proof.Machine.execThrottle sensor temp s
  | .throttleClear sensor temp => Sys2Proof.Machine.execThrottleClear sensor temp s
  | .trip sensor temp => Sys2Proof.Machine.execTrip sensor temp s
  | .snapshotRecordWrite b => Sys2Proof.Machine.execSnapshotRecordWrite b s
  | .powerOn => Sys2Proof.Machine.execPowerOn s
  | .devResetN low => Sys2Proof.Machine.execDevResetN low s
  | .hostIslandReset => Sys2Proof.Machine.execHostIslandReset s
  | .rimRetrain tag => Sys2Proof.Machine.execRimRetrain tag s
  | .deviceWarm tag confirm => Sys2Proof.Machine.execDeviceWarm tag confirm s
  | .deviceCold tag confirm => Sys2Proof.Machine.execDeviceCold tag confirm s
  | .coldStart f => Sys2Proof.Machine.execColdStart f s
  | .spineTrainingRetry bridgesOk => Sys2Proof.Machine.execSpineTrainingRetry bridgesOk s
  | .enterService => Sys2Proof.Machine.execEnterService s
  | .warmQuiesceStart => Sys2Proof.Machine.execWarmQuiesceStart s
  | .warmQuiesceLimit => Sys2Proof.Machine.execWarmQuiesceLimit s
  | .warmResetEntry => Sys2Proof.Machine.execWarmResetEntry s
  | .warmStart f => Sys2Proof.Machine.execWarmStart f s
  | .tripCooldownEnd => Sys2Proof.Machine.execTripCooldownEnd s
  | .overvoltClear busV10 => Sys2Proof.Machine.execOvervoltClear busV10 s
  | .handoverFailed facts timedOut => Sys2Proof.Machine.execHandoverFailed facts timedOut s
  | .verificationBootEnd k facts => Sys2Proof.Machine.execVerificationBootEnd k facts s
  | .sessionOffer p => Sys2Proof.Machine.execSessionOffer p s
  | .resetCmd v => Sys2Proof.Machine.execResetCmd v s
  | .hostIslandResetRelease => Sys2Proof.Machine.execHostIslandResetRelease s
  | .unsupportedMailboxCommand opcode => Sys2Proof.Machine.execUnsupportedMailboxCommand opcode s

end Sys2Proof.Machine
end

