-- ==== Sys2Proof/Safety.lean ====
section
/-! DEFINITION. What claims about the S48 are stated in. -/
namespace Sys2Proof.Machine

/-- The outcome is a next state of which a property holds. -/
def Goes (o : Host.Outcome State Fault Refusal) (p : State → Prop) : Prop := ∃ t, o = .next t ∧ p t

/-! ### Blurik instructions -/

/-- The run has spent its cycles up to cycle t of its budget. -/
def Run.at_ (x : Run) (t : Nat) : Run := { x with cyc := t }

/-- The run x has issued an instruction of `len` words at cycle t for `cost` cycles, which left y: the next word in order, or
the first word of a loop body that has iterations left (R257, R265). -/
def Run.next (x y : Run) (t cost len : Nat) : Run :=
  { y with cyc := t + cost, lastIssued := x.pc, loops := (loopStep x.loops (x.pc + len)).1, pc := (loopStep x.loops (x.pc + len)).2 }

/-- The next word lies within the code. -/
def Run.room (x : Run) (len : Nat) : Prop := (loopStep x.loops (x.pc + len)).2 < x.s.img.code.length

/-- The cycle at which an instruction issues: its guard's predicate, the registers it names and what else it waits for are
there (R257). -/
def issueCycle (s : State) (f : Fields) (uses : List Nat) (ready : State → Run → Option Nat) (x : Run) : Option Nat :=
  match x.ready (if f.guard = 0 then [] else [preg (guardPred f)]), x.ready uses, ready s x with
  | some a, some b, some c => some (max a (max b c))
  | _, _, _ => none

/-- Weaver w stands at the instruction word with run x, its guard true, and issues it at cycle t, before its budget is
spent. -/
def Issues (s : State) (w op : Nat) (f : Fields) (uses : List Nat) (ready : State → Run → Option Nat) (x : Run) (t : Nat) : Prop :=
  (s.weaver w).run = some x ∧ s.canIssue w op f x = true ∧ guardTrue f x = true ∧ issueCycle s f uses ready x = some t ∧ t < x.s.budget

/-- The wait of a scratch access (R259, R262). -/
def scratchWait (f : Fields) (n align : Nat) (_ : State) (x : Run) : Option Nat :=
  if x.inScratch (saddr x f) n align then x.landed (saddr x f) n else some 0

/-- A weaver without its run, its slot counts and its tagged instruction. -/
def Weaver.steady (x : Weaver) : Weaver := { x with run := none, slotRetired := 0, slotWasted := 0, slotBack := 0, tagged := none }
/-- A partition without its counters and its energy of the round. -/
def Partition.steady (x : Partition) : Partition := { x with counters := [], energy := 0 }
/-- A state without its weavers, its partitions and the number of its next free value. -/
def State.bare (s : State) : State := { s with weavers := [], parts := [], free := 0 }

/-- From s to t only the run of weaver w changes, with its slot counts and tag, and counters and energy of partitions: all
else is as it was, pool memory and directory, control plane, fabric, host side and power controller included. -/
def OnlyRun (s t : State) (w : Nat) : Prop :=
  (∀ v, v ≠ w → t.weaver v = s.weaver v) ∧ (t.weaver w).steady = (s.weaver w).steady ∧
  (∀ p, (t.part p).steady = (s.part p).steady) ∧ t.bare = s.bare

/-- Where weaver w issues the instruction at cycle t, with `ok` true of its operands, the command goes to a next state in which
the run is what `put` makes of it after `cost` cycles, at the next word, and nothing else is changed. -/
def RunsAs (c : Instr) (w op : Nat) (f : Fields) (uses : List Nat) (ready : State → Run → Option Nat) (len cost : Nat)
    (ok : Run → Prop) (put : Run → Run) : Prop :=
  ∀ (s : State) (x : Run) (t : Nat), Issues s w op f uses ready x t → ok x → x.room len →
    Goes (exec c s) (fun u => (u.weaver w).run = some (x.next (put (x.at_ t)) t cost len) ∧ OnlyRun s u w)

/-- Where weaver w issues the instruction at cycle t, with `ok` true of the state and its run, the command goes to the next state
that `after` makes of the issued state u and its run; u differs from s in that run, in counts and in its tag alone. -/
def IssuesTo (c : Instr) (w op : Nat) (f : Fields) (uses : List Nat) (ready : State → Run → Option Nat)
    (ok : State → Run → Prop) (after : State → Run → State) : Prop :=
  ∀ (s : State) (x : Run) (t : Nat), Issues s w op f uses ready x t → ok s (x.at_ t) →
    ∃ u, (u.weaver w).run = some (x.at_ t) ∧ OnlyRun s u w ∧ exec c s = .next (after u (x.at_ t))

/-! ### Control requests -/

/-- The state in which a request stands in its issuer's queue: at once where it is the next there, else after its arrival
(R301 check 1, R302). -/
def State.arrive (s : State) (i : Issuer) (r : CtrlReq) : State := if (s.ctlQueue i).head? = some r then s else s.enqueue i r

/-- The stake serves the request now: the lease is held, the request is the next of its issuer, which waits for no background
instruction, and it is the issuer's turn in the pass (R302, R303). -/
def State.serving (s : State) (i : Issuer) (r : CtrlReq) : Prop :=
  s.leaseHeld = true ∧ (s.ctlQueue i).head? = some r ∧ s.stakeRuns = true ∧ s.blockedIssuer i = false ∧ s.passTurn i = true

/-- A request that stood in u is served: it leaves its queue, and the instruction is counted (R303, R541). -/
def State.served (t u : State) (i : Issuer) (r : CtrlReq) : State :=
  ((t.setQueue i ((u.ctlQueue i).drop 1)).onCtl (fun c => { c with executed := c.executed + 1, turn := u.passKey i })).opEvent 0x10E
    { priv := some (issuerPriv i), part := some (match i with | .owner p => p.val | _ => reqPart r) }

/-- The command carries out a request of an opcode and variant: served, passing the checks common to every request and with `ok`
true of the state at its effect boundary and of its own state u, it settles with the outcome `o` in the state `go`. -/
def Settles (c : Instr) (op sub : Nat) (i : Issuer) (r : CtrlReq) (ok : State → State → Prop) (o : State → State → CtlOut)
    (go : State → State → State := fun _ u => u) : Prop :=
  ∀ s : State, reqIs r op sub = true → s.leaseHeld = true → (s.arrive i r).serving i r →
    (s.arrive i r).commonStatus (s.arrive i r).future i r = .ok → ok (s.arrive i r).future (s.arrive i r) →
    exec c s = .next (((go (s.arrive i r).future (s.arrive i r)).served (s.arrive i r) i r).settleCtl i r
      (o (s.arrive i r).future (s.arrive i r)))

/-- Where `bad` picks a status, the request fails with it and changes nothing (R301). -/
def FailsWith (c : Instr) (op sub : Nat) (i : Issuer) (r : CtrlReq) (bad : State → State → Prop) (st : Status) : Prop :=
  Settles c op sub i r bad (fun _ _ => .fail st [])

/-! ### Legal ranges -/

/-- The actuators of the power controller (R517): duty, operating-point ceiling, boost, idle level, memory scale. -/
def PowerSt.dials (x : PowerSt) : Nat × Nat × Nat × Nat × Nat := (x.duty, x.ceiling, x.boost, x.idle, x.memM)

/-- The parts of the state that only the round, the power controller, resets and the queue itself change: the queue, the
round counter, the lengths of the round, the announced length change, and the actuators. -/
def State.gauge (s : State) : List Instr × Nat × Nat × Nat × Option (Nat × Nat) × Nat × Nat × Nat × Nat × Nat :=
  (s.pending, s.rnd.counter, s.rnd.length, s.rnd.running, s.rnd.pendLength, s.power.dials)

/-- The lengths of the round, the running one and an announced one are 2-bit codes (R40, R41). -/
def RoundSt.Legal (x : RoundSt) : Prop :=
  x.length ≤ 3 ∧ x.running ≤ 3 ∧ ∀ e, x.pendLength = some e → e.1 ≤ 3

/-- The actuators keep their ranges: duty 1 to 16 sixteenths, operating points 0 to 7, boost 0 to 14, idle level 0 to 15,
memory scale 1 to 16 sixteenths (R517, R520, R524, R526, R527). -/
def PowerSt.Legal (x : PowerSt) : Prop :=
  (1 ≤ x.duty ∧ x.duty ≤ 16) ∧ x.ceiling ≤ 7 ∧ x.boost ≤ 14 ∧ x.idle ≤ 15 ∧ 1 ≤ x.memM ∧ x.memM ≤ 16

/-- The round's lengths and the actuators of the power controller are legal. -/
def State.Legal (s : State) : Prop := s.rnd.Legal ∧ s.power.Legal

end Sys2Proof.Machine
end

