-- ==== Sys2Proof/Certificates/Slice0/Obligations.lean ====
section
/-! DEFINITION. The statements for the provers. -/
open Sys2Proof Sys2Proof.Machine

/-! ### The queue -/

/-- A step takes the command at the front of the queue and carries it out with the rest of the queue. -/
def Obligations.step_runs_front_command : Prop :=
  ∀ (c : Instr) (q : List Instr) (s : State), step { s with pending := c :: q } = exec c { s with pending := q }

/-! ### Blurik: scalar instructions -/

/-- R250, R257: a write to gD, vD or pD is read back, a write to g0 is discarded, the other registers keep their values, and
the result is readable its latency after the issue. -/
def Obligations.register_writes : Prop :=
  ∀ (x : Run) (d lat : Nat) (a : U64) (v : V512) (b : Bool),
    (x.putG d a lat).gr d = (if d = 0 then 0 else a) ∧ (∀ k, k ≠ d → (x.putG d a lat).gr k = x.gr k) ∧
    (d ≠ 0 → (x.putG d a lat).rdy.look 0 d = x.cyc + lat) ∧
    (x.putG d a lat).v = x.v ∧ (x.putG d a lat).p = x.p ∧ (x.putG d a lat).scratch = x.scratch ∧
    (x.putV d v lat).vr d = v ∧ (∀ k, k ≠ d → (x.putV d v lat).vr k = x.vr k) ∧
    (x.putV d v lat).rdy.look 0 (vreg d) = x.cyc + lat ∧
    (x.putV d v lat).g = x.g ∧ (x.putV d v lat).p = x.p ∧ (x.putV d v lat).scratch = x.scratch ∧
    (x.putP d b lat).pr d = b ∧ (∀ k, k % 8 ≠ d % 8 → (x.putP d b lat).pr k = x.pr k) ∧
    (x.putP d b lat).rdy.look 0 (preg d) = x.cyc + lat ∧
    (x.putP d b lat).g = x.g ∧ (x.putP d b lat).v = x.v ∧ (x.putP d b lat).scratch = x.scratch

/-- R264, R249, R250, R257: an arithmetic instruction writes gD from gS1 and source 2, with its issue cycles and latency; the
sources are read before gD is written.
R264: a comparison writes pD from gS1 and source 2; PLOG combines two predicates; SEL picks gS1 or gS2 by a predicate.
R264, R252: LI writes the sign-extended IMM; LIX the extension word, over which the run goes on; LDC constant word
gS1 + IMM, or it ends the stroke with RANGE past the constants. -/
def Obligations.scalar_instructions : Prop :=
  (∀ (w : WeaverId) (f : Fields),
      let row := fun (c : Instr) (op cost lat : Nat) (g : U64 → U64 → U64) =>
        RunsAs c w.val op f (f.dst.toNat :: f.src1.toNat :: use2 f) noWait 1 cost (fun _ => True)
          (fun x => x.putG f.dst.toNat (g (x.s1 f) (x.s2 f)) lat)
      row (.add w f) 0x00 1 1 (fun a b => a + b) ∧
      row (.sub w f) 0x01 1 1 (fun a b => a - b) ∧
      row (.mul w f) 0x02 1 3 (fun a b => a * b) ∧
      row (.divu w f) 0x03 20 20 (fun a b => if b = 0 then BitVec.allOnes 64 else a / b) ∧
      row (.remu w f) 0x04 20 20 (fun a b => if b = 0 then a else a % b) ∧
      row (.andOp w f) 0x05 1 1 (fun a b => a &&& b) ∧
      row (.orOp w f) 0x06 1 1 (fun a b => a ||| b) ∧
      row (.xorOp w f) 0x07 1 1 (fun a b => a ^^^ b) ∧
      row (.shl w f) 0x08 1 1 (fun a b => a <<< (b.toNat % 64)) ∧
      row (.shr w f) 0x09 1 1 (fun a b => a >>> (b.toNat % 64)) ∧
      row (.sra w f) 0x0A 1 1 (fun a b => a.sshiftRight (b.toNat % 64)) ∧
      row (.minOp w f) 0x0B 1 1 (fun a b => if a.slt b then a else b) ∧
      row (.maxOp w f) 0x0C 1 1 (fun a b => if b.slt a then a else b)) ∧
  (∀ (w : WeaverId) (f : Fields),
      let row := fun (c : Instr) (op : Nat) (g : U64 → U64 → Bool) =>
        RunsAs c w.val op f (preg f.dst.toNat :: f.src1.toNat :: use2 f) noWait 1 1 (fun _ => True)
          (fun x => x.putP f.dst.toNat (g (x.s1 f) (x.s2 f)) 1)
      row (.cmpeq w f) 0x10 (fun a b => a == b) ∧
      row (.cmpne w f) 0x11 (fun a b => a != b) ∧
      row (.cmplt w f) 0x12 (fun a b => a.slt b) ∧
      row (.cmpltu w f) 0x13 (fun a b => a.ult b) ∧
      RunsAs (.plog w f) w.val 0x14 f [preg f.dst.toNat, preg f.src1.toNat, preg f.src2.toNat] noWait 1 1 (fun _ => True)
        (fun x => x.putP f.dst.toNat (plogOp f (x.pr f.src1.toNat) (x.pr f.src2.toNat)) 1) ∧
      RunsAs (.sel w f) w.val 0x15 f [f.dst.toNat, f.src1.toNat, f.src2.toNat, preg (immBits f 2 0)] noWait 1 1 (fun _ => True)
        (fun x => x.putG f.dst.toNat (if x.pr (immBits f 2 0) then x.s1 f else x.gr f.src2.toNat) 1)) ∧
  (∀ (w : WeaverId) (f : Fields),
      RunsAs (.li w f) w.val 0x0D f [f.dst.toNat] noWait 1 1 (fun _ => True)
        (fun x => x.putG f.dst.toNat (f.imm.signExtend 64) 1) ∧
      RunsAs (.lix w f) w.val 0x0E f [f.dst.toNat] noWait 2 2 (fun _ => True)
        (fun x => x.putG f.dst.toNat (x.s.img.code.getD (x.pc + 1) 0) 1) ∧
      RunsAs (.ldc w f) w.val 0x0F f [f.dst.toNat, f.src1.toNat] noWait 1 2
        (fun x => (x.s1 f + f.imm.signExtend 64).toNat < x.s.img.consts.length)
        (fun x => x.putG f.dst.toNat (x.s.img.consts.getD (x.s1 f + f.imm.signExtend 64).toNat 0) 3) ∧
      IssuesTo (.ldc w f) w.val 0x0F f [f.dst.toNat, f.src1.toNat] noWait
        (fun _ x => x.s.img.consts.length ≤ (x.s1 f + f.imm.signExtend 64).toNat)
        (fun u _ => u.faultRun w.val .range))

/-- R264 to R266: BR goes on IMM [12:0] words ahead with one bubble cycle, leaving the loops whose body ends before there.
LOOP of a count of 1 to 16,777,215 goes into its body; a count of 0 goes on after it; a greater one ends the stroke with
RANGE. -/
def Obligations.branch_and_loop : Prop :=
  ∀ (w : WeaverId) (f : Fields) (s : State) (x : Run) (t : Nat),
    (Issues s w.val 0x16 f [] noWait x t → x.pc + immBits f 12 0 < x.s.img.code.length →
      Goes (exec (.br w f) s) (fun u => (u.weaver w.val).run = some { x with
        cyc := t + 2, lastIssued := x.pc, loops := loopLeave x.loops (x.pc + immBits f 12 0), pc := x.pc + immBits f 12 0 } ∧
        OnlyRun s u w.val)) ∧
    (Issues s w.val 0x17 f [f.src1.toNat] noWait x t → (x.s1 f).toNat = 0 → x.room (1 + immBits f 12 0) →
      Goes (exec (.loop w f) s) (fun u => (u.weaver w.val).run = some (x.next x t 1 (1 + immBits f 12 0)) ∧ OnlyRun s u w.val)) ∧
    (Issues s w.val 0x17 f [f.src1.toNat] noWait x t → 1 ≤ (x.s1 f).toNat → (x.s1 f).toNat ≤ 16777215 →
      x.pc + 1 < x.s.img.code.length →
      Goes (exec (.loop w f) s) (fun u => (u.weaver w.val).run = some { x with
        cyc := t + 1, lastIssued := x.pc, pc := x.pc + 1,
        loops := { first := x.pc + 1, last := x.pc + 1 + immBits f 12 0, left := (x.s1 f).toNat } :: x.loops } ∧
        OnlyRun s u w.val)) ∧
    (Issues s w.val 0x17 f [f.src1.toNat] noWait x t → 16777215 < (x.s1 f).toNat →
      ∃ u, (u.weaver w.val).run = some (x.at_ t) ∧ OnlyRun s u w.val ∧ exec (.loop w f) s = .next (u.faultRun w.val .range))

/-! ### Blurik: scratch instructions -/

/-- R259, R262, R267, R268: a load within the scratch, aligned to its size and on no poison line, waits for the bytes to land and
writes gD, zero-extended or sign-extended; out of the scratch or misaligned it ends the stroke with RANGE, and on poison with
POISON.
R259, R262, R267, R268: a store within the scratch and aligned to its size writes the low bytes of gS2, lowest byte first, and
leaves poison bits; elsewhere it ends the stroke with RANGE.
R267: bytes stored to scratch are read back, and every other scratch byte is as it was. -/
def Obligations.scratch_accesses : Prop :=
  (∀ (w : WeaverId) (f : Fields),
      let wait := fun (n : Nat) => scratchWait f n n
      let row := fun (c : Instr) (op n : Nat) (conv : Nat → U64) =>
        RunsAs c w.val op f [f.dst.toNat, f.src1.toNat] (wait n) 1 1
          (fun x => x.inScratch (saddr x f) n n = true ∧ x.poisoned (saddr x f) n = false)
          (fun x => x.putG f.dst.toNat (conv (ofBytes (x.sbytes (saddr x f) n))) 3) ∧
        IssuesTo c w.val op f [f.dst.toNat, f.src1.toNat] (wait n)
          (fun _ x => x.inScratch (saddr x f) n n = false) (fun u _ => u.faultRun w.val .range) ∧
        IssuesTo c w.val op f [f.dst.toNat, f.src1.toNat] (wait n)
          (fun _ x => x.inScratch (saddr x f) n n = true ∧ x.poisoned (saddr x f) n = true) (fun u _ => u.faultRun w.val .poison)
      row (.ld8u w f) 0x20 1 (BitVec.ofNat 64) ∧
      row (.ld16u w f) 0x21 2 (BitVec.ofNat 64) ∧
      row (.ld32u w f) 0x22 4 (BitVec.ofNat 64) ∧
      row (.ld32s w f) 0x23 4 (fun n => (BitVec.ofNat 32 n).signExtend 64) ∧
      row (.ld64 w f) 0x24 8 (BitVec.ofNat 64)) ∧
  (∀ (w : WeaverId) (f : Fields),
      let wait := fun (n : Nat) => scratchWait f n n
      let row := fun (c : Instr) (op n : Nat) =>
        RunsAs c w.val op f [f.src2.toNat, f.src1.toNat] (wait n) 1 1 (fun x => x.inScratch (saddr x f) n n = true)
          (fun x => x.sput (saddr x f) (toBytes n (x.gr f.src2.toNat).toNat)) ∧
        IssuesTo c w.val op f [f.src2.toNat, f.src1.toNat] (wait n)
          (fun _ x => x.inScratch (saddr x f) n n = false) (fun u _ => u.faultRun w.val .range)
      row (.st8 w f) 0x25 1 ∧ row (.st16 w f) 0x26 2 ∧ row (.st32 w f) 0x27 4 ∧ row (.st64 w f) 0x28 8) ∧
  (∀ (x : Run) (a : Nat) (bs : List Byte),
      (x.sput a bs).sbytes a bs.length = bs ∧
      (∀ k, (k < a ∨ a + bs.length ≤ k) → (x.sput a bs).scratch.look 0 k = x.scratch.look 0 k) ∧
      (x.sput a bs).poison = x.poison ∧ (x.sput a bs).g = x.g ∧ (x.sput a bs).v = x.v ∧ (x.sput a bs).p = x.p)

/-- R259, R267, R268, R272: VLD and VST move 64 B, or 48 B of packed FP6; VLDB broadcasts one element; SCLR zeroes lines and clears
their poison bits; SPTEST reads the poison bit of a line. -/
def Obligations.scratch_vectors : Prop :=
  ∀ (w : WeaverId) (f : Fields),
    let c := f.fmt.toNat
    let n := if isFp6 c then 48 else 64
    let al := if isFp6 c then 16 else 64
    let wait := scratchWait f
    let e := max 1 (laneBits c / 8)
    let clear := fun (x : Run) => (x.s1 f).toNat % 64 = 0 ∧ (x.gr f.src2.toNat).toNat % 64 = 0 ∧
      (x.s1 f).toNat + (x.gr f.src2.toNat).toNat ≤ x.size ∧ (x.s1 f).toNat < x.size
    RunsAs (.vld w f) w.val 0x29 f [vreg f.dst.toNat, f.src1.toNat] (wait n al) 1 1
      (fun x => x.inScratch (saddr x f) n al = true ∧ x.poisoned (saddr x f) n = false)
      (fun x => x.putV f.dst.toNat (vecOfBytes c (x.sbytes (saddr x f) n)) 3) ∧
    RunsAs (.vst w f) w.val 0x2A f [vreg f.src2.toNat, f.src1.toNat] (wait n al) 1 1
      (fun x => x.inScratch (saddr x f) n al = true)
      (fun x => if isFp6 c then x.sput (saddr x f) (bytesOfVec c (x.vr f.src2.toNat))
        else (x.sput (saddr x f) (bytesOfVec c (x.vr f.src2.toNat))).unpoison (saddr x f) 64) ∧
    RunsAs (.vldb w f) w.val 0x2B f [vreg f.dst.toNat, f.src1.toNat] (wait e e) 1 1
      (fun x => x.inScratch (saddr x f) e e = true ∧ x.poisoned (saddr x f) e = false)
      (fun x => x.putV f.dst.toNat (ofLanes c (List.replicate (laneCount c) (ofBytes (x.sbytes (saddr x f) e) % 2 ^ elemBits c))) 3) ∧
    (∀ (s : State) (x : Run) (t : Nat),
      Issues s w.val 0x2C f [f.src1.toNat, f.src2.toNat] (fun _ x => x.landed (x.s1 f).toNat (x.gr f.src2.toNat).toNat) x t →
      clear x → x.room 1 →
      Goes (exec (.sclr w f) s) (fun u => ∃ y, (u.weaver w.val).run = some y ∧
        y.scratch = x.scratch.dropIf (fun k => decide ((x.s1 f).toNat ≤ k) && decide (k < (x.s1 f).toNat + (x.gr f.src2.toNat).toNat)) ∧
        y.poison = x.poison.filter (fun l => !decide (l ∈ linesOf (x.s1 f).toNat (x.gr f.src2.toNat).toNat)) ∧
        y.cyc = t + (1 + ceilDiv (x.gr f.src2.toNat).toNat 256) ∧ y.g = x.g ∧ y.v = x.v ∧ y.p = x.p ∧ OnlyRun s u w.val)) ∧
    RunsAs (.sptest w f) w.val 0x2D f [preg f.dst.toNat, f.src1.toNat] (wait 1 1) 1 1
      (fun x => x.inScratch (saddr x f) 1 1 = true)
      (fun x => x.putP f.dst.toNat (x.poisoned (saddr x f) 1) 1)

/-! ### Blurik: vector instructions -/

/-- R273, R272, R320 to R322, R325: the lane-wise instructions write vD from vS1, vS2 and vD, with their issue cycles and latency.
Those that round take the stroke's mode and its generator's draws; the others leave the generator.
R273, R274: VSUM and VMAXR write gD; VBC broadcasts; VEXT and VINS take a lane, and end the stroke with RANGE at or above the
lane count; VCVT converts by its part index, and with TRAP_OVF an overflow ends the stroke with FORMAT. -/
def Obligations.vector_lanes_and_moves : Prop :=
  (∀ (w : WeaverId) (f : Fields),
      let c := f.fmt.toNat
      let two := [vreg f.dst.toNat, vreg f.src1.toNat] ++ [vreg f.src2.toNat]
      let one := [vreg f.dst.toNat, vreg f.src1.toNat] ++ []
      let round := fun (i : Instr) (op : Nat) (g : Run → V512 × U64) =>
        RunsAs i w.val op f two noWait 1 1 (fun _ => True) (fun x => { x.putV f.dst.toNat (g x).1 4 with rng := (g x).2 })
      let exact := fun (i : Instr) (op : Nat) (uses : List Nat) (cost lat : Nat) (g : Run → V512) =>
        RunsAs i w.val op f uses noWait 1 cost (fun _ => True) (fun x => x.putV f.dst.toNat (g x) lat)
      let a := fun (x : Run) => x.vr f.src1.toNat
      let b := fun (x : Run) => x.vr f.src2.toNat
      let d := fun (x : Run) => x.vr f.dst.toNat
      round (.vadd w f) 0x40 (fun x => vbin c x.s.roundMode x.rng Val.add (· + ·) (a x) (b x)) ∧
      round (.vsub w f) 0x41 (fun x => vbin c x.s.roundMode x.rng (fun p q => p.add q.neg) (· - ·) (a x) (b x)) ∧
      round (.vmul w f) 0x42 (fun x => vbin c x.s.roundMode x.rng Val.mul (· * ·) (a x) (b x)) ∧
      round (.vfma w f) 0x43 (fun x => vfmaLanes c x.s.roundMode x.rng (a x) (b x) (d x)) ∧
      exact (.vmin w f) 0x44 two 1 4 (fun x => vpick c pickMin min (a x) (b x)) ∧
      exact (.vmax w f) 0x45 two 1 4 (fun x => vpick c pickMax max (a x) (b x)) ∧
      exact (.vabs w f) 0x46 one 1 4 (fun x => ofLanes c ((lanes c (a x)).map (absLane c))) ∧
      exact (.vexp2 w f) 0x47 one 2 8 (fun x => vmapF c FloatFmt.exp2 (a x)) ∧
      exact (.vrcp w f) 0x48 one 2 8 (fun x => vmapF c FloatFmt.rcp (a x)) ∧
      exact (.vrsq w f) 0x49 one 2 8 (fun x => vmapF c FloatFmt.rsq (a x)) ∧
      exact (.vand w f) 0x4A two 1 2 (fun x => a x &&& b x) ∧
      exact (.vor w f) 0x4B two 1 2 (fun x => a x ||| b x) ∧
      exact (.vxor w f) 0x4C two 1 2 (fun x => a x ^^^ b x) ∧
      exact (.vshr w f) 0x4D one 1 2 (fun x => ofLanes c ((lanes c (a x)).map (· / 2 ^ immBits f 4 0))) ∧
      exact (.vcmplt w f) 0x4E two 1 4 (fun x =>
        ofLanes c (List.zipWith (fun p q => if laneLt c p q then 2 ^ laneBits c - 1 else 0) (lanes c (a x)) (lanes c (b x)))) ∧
      exact (.vsel w f) 0x4F two 1 2 (fun x => (a x &&& d x) ||| (b x &&& ~~~ d x))) ∧
  (∀ (w : WeaverId) (f : Fields),
      let c := f.fmt.toNat
      let lane := immBits f 6 0
      let src := immBits f 3 0
      let a := fun (x : Run) => x.vr f.src1.toNat
      let cvt := fun (x : Run) (k : Nat × Nat × Nat) =>
        vcvtOf src c (immMode (immBits f 9 8) x.s.roundMode) k.1 k.2.1 k.2.2 x.rng (a x) (x.vr f.dst.toNat)
      RunsAs (.vsum w f) w.val 0x50 f [f.dst.toNat, vreg f.src1.toNat] noWait 1 1 (fun _ => True)
        (fun x => x.putG f.dst.toNat (vsumOf c (a x)) 6) ∧
      RunsAs (.vmaxr w f) w.val 0x51 f [f.dst.toNat, vreg f.src1.toNat] noWait 1 1 (fun _ => True)
        (fun x => x.putG f.dst.toNat (vmaxOf c (a x)) 6) ∧
      RunsAs (.vbc w f) w.val 0x52 f [vreg f.dst.toNat, f.src1.toNat] noWait 1 1 (fun _ => True)
        (fun x => x.putV f.dst.toNat (ofLanes c (List.replicate (laneCount c) ((x.s1 f).toNat % 2 ^ elemBits c))) 2) ∧
      RunsAs (.vext w f) w.val 0x53 f [f.dst.toNat, vreg f.src1.toNat] noWait 1 1
        (fun x => lane < (elems c (a x)).length)
        (fun x => x.putG f.dst.toNat (BitVec.ofNat 64 ((elems c (a x)).getD lane 0)) 2) ∧
      IssuesTo (.vext w f) w.val 0x53 f [f.dst.toNat, vreg f.src1.toNat] noWait
        (fun _ x => (elems c (a x)).length ≤ lane) (fun u _ => u.faultRun w.val .range) ∧
      RunsAs (.vins w f) w.val 0x54 f [vreg f.dst.toNat, f.src1.toNat] noWait 1 1 (fun _ => lane < laneCount c)
        (fun x => x.putV f.dst.toNat (setLane c lane ((x.s1 f).toNat % 2 ^ elemBits c) (x.vr f.dst.toNat)) 2) ∧
      IssuesTo (.vins w f) w.val 0x54 f [vreg f.dst.toNat, f.src1.toNat] noWait
        (fun _ _ => laneCount c ≤ lane) (fun u _ => u.faultRun w.val .range) ∧
      (∀ k, fmtOf src ≠ .none → cvtPart (laneCount src) (laneCount c) (immBits f 6 4) = some k →
        RunsAs (.vcvt w f) w.val 0x55 f [vreg f.dst.toNat, vreg f.src1.toNat] noWait 1 1
          (fun x => ¬((cvt x k).2.2 = true ∧ x.s.trapOvf = true))
          (fun x => { x.putV f.dst.toNat (cvt x k).1 4 with rng := (cvt x k).2.1 })))

/-- R275, R331, R332, R336: VQUANT and VDQ of a count within their regions, on no poison line, write the quantised elements and
scales, or the dequantised elements, where no block traps; a count of 0 writes nothing. -/
def Obligations.vector_blocks : Prop :=
  ∀ (w : WeaverId) (f : Fields),
    let n := immBits f 31 8
    let b := blockSize (immBits f 4 4 == 1)
    let src := immBits f 3 0
    let dst := f.fmt.toNat
    let uses := [f.dst.toNat, f.src1.toNat, f.src2.toNat]
    let p := fun (x : Run) => (x.s1 f).toNat
    let q := fun (x : Run) => (x.gr f.src2.toNat).toNat
    let d := fun (x : Run) => (x.gd f).toNat
    let qin := fun (x : Run) => [(p x, packedBytes src n)]
    let qout := fun (x : Run) => [(d x, packedBytes dst n), (q x, n / b)]
    let din := fun (x : Run) => [(p x, packedBytes src n), (q x, n / b)]
    let dout := fun (x : Run) => [(d x, packedBytes dst n)]
    let quant := fun (x : Run) => quantBlocks dst (immMode (immBits f 6 5) x.s.roundMode) x.s.trapOvf
      (chunks b (n / b) ((unpackBits (elemBits src) n (ofBytes (x.sbytes (p x) (packedBytes src n)))).map (valueOf src))) x.rng
    let dequant := fun (x : Run) => dequantBlocks src dst (immMode (immBits f 6 5) x.s.roundMode) x.s.trapOvf
      ((chunks b (n / b) (unpackBits (elemBits src) n (ofBytes (x.sbytes (p x) (packedBytes src n))))).zip
        ((x.sbytes (q x) (n / b)).map (·.toNat))) x.rng
    (n = 0 → RunsAs (.vquant w f) w.val 0x56 f uses noWait 1 8 (fun _ => True) id ∧
      RunsAs (.vdq w f) w.val 0x57 f uses noWait 1 8 (fun _ => True) id) ∧
    (n % b = 0 → n ≠ 0 →
    RunsAs (.vquant w f) w.val 0x56 f uses (fun _ x => if quantBad x (qin x) (qout x) then some 0 else landedAll x (qin x ++ qout x))
      1 (8 + 2 * ceilDiv n 16)
      (fun x => quantBad x (qin x) (qout x) = false ∧ x.poisoned (p x) (packedBytes src n) = false ∧ (quant x).2.2.2 = false)
      (fun x => { (x.sput (d x) (toBytes (packedBytes dst (quant x).2.1.length) (packBits (elemBits dst) (quant x).2.1))).sput (q x)
        ((quant x).1.map (BitVec.ofNat 8)) with rng := (quant x).2.2.1 }) ∧
    RunsAs (.vdq w f) w.val 0x57 f uses (fun _ x => if quantBad x (din x) (dout x) then some 0 else landedAll x (din x ++ dout x))
      1 (8 + ceilDiv n 16)
      (fun x => quantBad x (din x) (dout x) = false ∧ x.poisoned (p x) (packedBytes src n) = false ∧
        x.poisoned (q x) (n / b) = false ∧ (dequant x).2.2 = false)
      (fun x => { x.sput (d x) (toBytes (packedBytes dst (dequant x).1.length) (packBits (elemBits dst) (dequant x).1)) with
        rng := (dequant x).2.1 }))

/-! ### Blurik: array instructions -/

/-- R276 to R279, R263, R333 to R336: DOT adds its sum to gD; DOTR, AXPYR and MMA within their regions, on no poison line and with no
NaN scale, write their C; SMX and OSCALE write theirs. An array instruction at a duty below 16/16 marks the stroke.
R279, R280: SMX writes the weights, the maximum, the sum and the factor of one step of online softmax; OSCALE multiplies K
FP32 values at gD by f or 1/f. -/
def Obligations.array_and_softmax_instructions : Prop :=
  (∀ (w : WeaverId) (f : Fields),
      let c := f.fmt.toNat
      let uses := [f.dst.toNat, f.src1.toNat, f.src2.toNat]
      let tile := fun (i : Instr) (op : Nat) (o : TileOp) (shape : Run → Tile) (scaled : Bool) =>
        ∀ (s : State) (x : Run) (t : Nat),
          Issues s w.val op f uses (fun _ x => if (shape x).bad o x.size then some 0 else
            landedAll x ((shape x).ins o ++ [((shape x).c, (shape x).cBytes o)])) x t →
          (shape x).bad o x.size = false → ((shape x).ins o).any (fun r => x.poisoned r.1 r.2) = false →
          (shape x).nanScale o x = false → x.room (if scaled then 2 else 1) →
          Goes (exec i s) (fun u => ∃ y, (u.weaver w.val).run = some y ∧
            y.scratch = (x.sput (shape x).c ((shape x).result o x)).scratch ∧ y.g = x.g ∧ y.v = x.v ∧ y.p = x.p ∧
            y.slowed = (x.slowed || decide (s.power.duty < 16)) ∧
            y.cyc = t + dutyCost s.power.duty 12 (ceilDiv ((shape x).m * (shape x).n * (shape x).kg) (groupG (shape x).fmt) +
              (if (shape x).scaled then ceilDiv (shape x).sbBytes 8 else 0)) ∧ OnlyRun s u w.val)
      (∀ (s : State) (x : Run) (t : Nat),
        Issues s w.val 0x60 f [f.dst.toNat, vreg f.src1.toNat, vreg f.src2.toNat] noWait x t → x.room 1 →
        Goes (exec (.dot w f) s) (fun u => ∃ y, (u.weaver w.val).run = some y ∧
          y.gr f.dst.toNat = (if f.dst = 0 then 0 else BitVec.ofNat 64 (accAdd (isIntG c) ((x.gd f).toNat % 2 ^ 32)
            (dotSum (0x200 + c) c (elems c (x.vr f.src1.toNat)) (elems c (x.vr f.src2.toNat))))) ∧
          (∀ k, k ≠ f.dst.toNat → y.gr k = x.gr k) ∧ y.v = x.v ∧ y.p = x.p ∧ y.scratch = x.scratch ∧ y.cyc = t + 1 ∧
          y.slowed = (x.slowed || decide (s.power.duty < 16)) ∧ OnlyRun s u w.val)) ∧
      tile (.dotr w f) 0x61 .dotr (rowTile f) (immBits f 20 20 == 1) ∧
      tile (.axpyr w f) 0x62 .axpyr (rowTile f) (immBits f 20 20 == 1) ∧
      tile (.mma w f) 0x63 .mma (mmaTile f) (immBits f 18 18 == 1)) ∧
  (∀ (w : WeaverId) (f : Fields),
      let c := f.fmt.toNat
      let n := immBits f 11 0 + 1
      let d := f.dst.toNat
      let cost := 16 + ceilDiv n 8
      let low := fun (x : Run) (i : Nat) => (x.gr i).toNat % 2 ^ 32
      let scores := fun (x : Run) => unpackBits 32 n (ofBytes (x.sbytes (x.s1 f).toNat (4 * n)))
      let r := fun (x : Run) => softmax c x.s.roundMode (low x d) (low x (d + 1)) (low x (d + 3)) (scores x) x.rng
      let inside := fun (x : Run) => (x.s1 f).toNat + 4 * n ≤ x.size ∧ (x.gr f.src2.toNat).toNat + packedBytes c n ≤ x.size
      let factor := fun (x : Run) => if immBits f 12 12 = 1 then f32inv ((x.s1 f).toNat % 2 ^ 32) else (x.s1 f).toNat % 2 ^ 32
      let at_ := fun (x : Run) => (x.gd f).toNat
      (1 ≤ d → d ≤ 28 →
        RunsAs (.smx w f) w.val 0x64 f [d, d + 1, d + 2, d + 3, f.src1.toNat, f.src2.toNat]
          (fun _ x => if x.size < (x.s1 f).toNat + 4 * n ∨ x.size < (x.gr f.src2.toNat).toNat + packedBytes c n then some 0 else
            landedAll x [((x.s1 f).toNat, 4 * n), ((x.gr f.src2.toNat).toNat, packedBytes c n)]) 1 cost
          (fun x => inside x ∧ x.poisoned (x.s1 f).toNat (4 * n) = false ∧ (scores x).any (fun v => (fp32.value v).isNan) = false)
          (fun x => { (((x.sput (x.gr f.src2.toNat).toNat (toBytes (packedBytes c n) (packBits (elemBits c) (r x).p))).putG d
            (BitVec.ofNat 64 (r x).m2) cost).putG (d + 1) (BitVec.ofNat 64 (r x).l2) cost).putG (d + 2) (BitVec.ofNat 64 (r x).c) cost
            with rng := (r x).rng })) ∧
      RunsAs (.oscale w f) w.val 0x65 f [f.dst.toNat, f.src1.toNat]
        (fun _ x => if x.size < at_ x + 4 * n then some 0 else x.landed (at_ x) (4 * n)) 1 (4 + ceilDiv n 16)
        (fun x => at_ x + 4 * n ≤ x.size ∧ x.poisoned (at_ x) (4 * n) = false)
        (fun x => x.sput (at_ x) (toBytes (4 * n) (packBits 32
          ((unpackBits 32 n (ofBytes (x.sbytes (at_ x) (4 * n)))).map (fun e => f32mul e (factor x)))))))

/-! ### Blurik: pool, bulk and synchronisation instructions -/

/-- R258, R269, R270: a STREAM or STREAMW that passes its checks issues the line requests of its transfer on its tag; one that fails
ends the stroke with that status; GATHER and SCATTER transfer their elements in order.
R258, R260, R269, R284 to R287: a pool word that is aligned and passes its right is translated and requested: PLD and the atomics
with gD awaiting the answer, PST and FLAG with the bytes of gS2, WAIT with its run waiting. A word that fails ends the stroke with
RANGE or PERM. -/
def Obligations.pool_streams_and_words : Prop :=
  (∀ (w : WeaverId) (f : Fields),
      let uses := [f.dst.toNat, f.src1.toNat, f.src2.toNat]
      let n := fun (x : Run) => (x.gr f.src2.toNat).toNat
      let stream := fun (c : Instr) (op : Nat) (read : Bool) (need : Range → Bool) =>
        let wait := fun (s : State) (x : Run) => match streamFault x f need with
          | some _ => some 0
          | none => both (both (x.tagIdle (immTag f)) (if read then some 0 else x.landed (x.gd f).toNat (n x))) (poolWait s x)
        IssuesTo c w.val op f uses wait (fun _ x => streamFault x f need = none)
          (fun u x => (u.transfer w.val read (immBits f 7 7 == 1) (immRange f) (immTag f) (transferFuel (n x)) (x.gd f).toNat (x.s1 f).toNat
            (n x)).retire w.val 2 1) ∧
        ∀ st, IssuesTo c w.val op f uses wait (fun _ x => streamFault x f need = some st) (fun u _ => u.faultRun w.val st)
      let gather := fun (c : Instr) (op : Nat) (read : Bool) =>
        let wait := fun (s : State) (x : Run) => match gatherFault x f with
          | some _ => some 0
          | none => both (both (both (x.tagIdle (immTag f)) (x.landed (x.s1 f).toNat (4 * n x)))
              (if read then some 0 else x.landed (x.gd f).toNat (n x * elemSize f))) (poolWait s x)
        IssuesTo c w.val op f uses wait (fun _ x => gatherFault x f = none ∧ x.poisoned (x.s1 f).toNat (4 * n x) = false)
          (fun u x => u.elements w.val f read x (n x) 0) ∧
        IssuesTo c w.val op f uses wait (fun _ x => gatherFault x f = none ∧ x.poisoned (x.s1 f).toNat (4 * n x) = true)
          (fun u _ => u.faultRun w.val .poison) ∧
        ∀ st, IssuesTo c w.val op f uses wait (fun _ x => gatherFault x f = some st) (fun u _ => u.faultRun w.val st)
      stream (.stream w f) 0x2E true needR ∧ stream (.streamw w f) 0x2F false needW ∧
      gather (.gather w f) 0x30 true ∧ gather (.scatter w f) 0x31 false) ∧
  (∀ (w : WeaverId) (f : Fields),
      let r := immRange f
      let d := f.dst.toNat
      let w8 := immBits f 3 3 == 1
      let v8 := immBits f 5 5 == 1
      let off := fun (x : Run) => (x.s1 f).toNat
      let pa := fun (x : Run) => x.s.poolPa r (off x)
      let three := [f.dst.toNat, f.src1.toNat, f.src2.toNat]
      let word := fun (c : Instr) (op : Nat) (uses : List Nat) (wait : State → Run → Option Nat) (n : Nat) (need : Range → Bool)
          (go : State → Run → State) =>
        IssuesTo c w.val op f uses wait (fun _ x => x.s.wordFault r (off x) n need = none)
          (fun u x => go (u.weaverXlate w.val r (off x)) x) ∧
        ∀ st, IssuesTo c w.val op f uses wait (fun _ x => x.s.wordFault r (off x) n need = some st) (fun u _ => u.faultRun w.val st)
      let atom := fun (c : Instr) (op : Nat) (a : AtomOp) => word c op three poolWait (atomWidth w8) needA (fun u x =>
        (((u.ownerEvent x.s.part 0x007 false 1).onRun w.val (fun y => y.awaitG d)).request w.val x (pa x) (atomWidth w8)
          (.atom d a w8 (x.gr f.src2.toNat) (x.gd f))).2.retire w.val 1 1)
      word (.pld w f) 0x32 [f.dst.toNat, f.src1.toNat] poolWait 8 needR (fun u x =>
        ((u.onRun w.val (fun y => y.awaitG d)).request w.val x (pa x) 8 (.load d)).2.retire w.val 1 1) ∧
      word (.pst w f) 0x33 [f.src1.toNat, f.src2.toNat] poolWait 8 needW (fun u x =>
        (u.request w.val x (pa x) 8 (.store (toBytes 8 (x.gr f.src2.toNat).toNat))).2.retire w.val 1 1) ∧
      atom (.aadd w f) 0xA0 .add ∧ atom (.acas w f) 0xA1 .cas ∧ atom (.amax w f) 0xA2 .max ∧ atom (.aswap w f) 0xA3 .swap ∧
      word (.flag w f) 0xA5 [f.src1.toNat, f.src2.toNat]
        (fun s x => if (x.s.wordFault r (off x) 8 needW).isSome then some 0 else fenced s x) 8 needW (fun u x =>
          (u.request w.val x (pa x) 8 (.store (toBytes 8 (x.gr f.src2.toNat).toNat))).2.retire w.val 1 1) ∧
      word (.wait w f) 0xA6 three poolWait (atomWidth v8) needR (fun u x =>
        ((u.onRun w.val (fun y => { y with waiting := true })).request w.val x (pa x) (atomWidth v8)
          (.waitRead d v8 (immBits f 4 3) (x.gr f.src2.toNat) (immBits f 18 6) (immBits f 31 19))).2))

/-- R269, R285, R291, R293, R294: SWAIT and FENCE retire once their tags are idle, or the earlier writes acknowledged; PHASE leaves its
mark; CNTRD with the owner's grant reads the round copy; TIME reads the budget left, or the round.
R86, R281 to R283, R290, R292, R295, R457: a bulk launch with its block in aligned clean scratch answers its status in gD; SEND puts a
message or writes a doorbell, with the status in gD; YIELD suspends the stroke, offered at the next boundary; END completes it OK
with g1 as RESULT. -/
def Obligations.stroke_state_and_services : Prop :=
  (∀ (w : WeaverId) (f : Fields),
      let tags := (List.range 16).filter (fun t => f.imm.getLsbD t)
      RunsAs (.swait w f) w.val 0x34 f [] (fun _ x => tags.foldl (fun t g => both t (x.tagIdle g)) (some 0)) 1 1 (fun _ => True) id ∧
      RunsAs (.fence w f) w.val 0xA4 f [] fenced 1 1 (fun _ => True) id ∧
      (∀ (s : State) (x : Run) (t : Nat), Issues s w.val 0xA8 f [] noWait x t → x.room 1 →
        Goes (exec (.phase w f) s) (fun u => (u.weaver w.val).run = some (x.next (x.at_ t) t 1 1) ∧
          (u.part x.s.part).phaseInstr = some (immBits f 3 0, w.val) ∧ u.mem = s.mem)) ∧
      (∀ (s : State) (x : Run) (t : Nat), Issues s w.val 0xAA f [f.dst.toNat] noWait x t → (s.part x.s.part).userRead = true →
        counterDefined (immBits f 9 0) = true → x.room 1 →
        Goes (exec (.cntrd w f) s) (fun u => (u.weaver w.val).run = some (x.next ((x.at_ t).putG f.dst.toNat
          (BitVec.ofNat 64 ((s.part x.s.part).roundCopy.look 0 (immBits f 9 0))) 8) t 8 1) ∧ OnlyRun s u w.val)) ∧
      (immBits f 0 0 = 0 → RunsAs (.timeBudget w f) w.val 0xAB f [f.dst.toNat] noWait 1 1 (fun _ => True)
        (fun x => x.putG f.dst.toNat (BitVec.ofNat 64 (x.s.budget - x.cyc)) 1)) ∧
      (immBits f 0 0 = 1 → ∀ (s : State) (x : Run) (t : Nat), Issues s w.val 0xAB f [f.dst.toNat] noWait x t → x.room 1 →
        Goes (exec (.timeRound w f) s) (fun u => (u.weaver w.val).run = some (x.next ((x.at_ t).putG f.dst.toNat
          (BitVec.ofNat 64 s.rnd.counter) 1) t 1 1) ∧ OnlyRun s u w.val))) ∧
  (∀ (w : WeaverId) (f : Fields),
      let three := [f.dst.toNat, f.src1.toNat, f.src2.toNat]
      let a := fun (x : Run) => (x.s1 f).toNat
      let n := fun (x : Run) => (x.gr f.src2.toNat).toNat
      let put := fun (st : Status) (y : Run) => y.putG f.dst.toNat (BitVec.ofNat 64 st.code)
      let bulk := fun (c : Instr) (op : Nat) (k : BulkKind) =>
        IssuesTo c w.val op f three (fun _ x => if x.inScratch (a x) 32 32 then x.landed (a x) 32 else some 0)
          (fun _ x => x.inScratch (a x) 32 32 = true ∧ x.poisoned (a x) 32 = false)
          (fun u x =>
            let r := u.bulkLaunch w.val x.s k (bulkBlock (x.sbytes (a x) 32)) (x.gr f.src2.toNat)
            (r.2.onRun w.val (fun y => put r.1 y 6)).retire w.val 4 1)
      bulk (.fill w f) 0x80 .fill ∧ bulk (.copy w f) 0x81 .copy ∧ bulk (.compare w f) 0x82 .compare ∧
      bulk (.reduce w f) 0x83 .reduce ∧ bulk (.checksum w f) 0x84 .checksum ∧
      (immBits f 31 31 = 0 → IssuesTo (.sendMailbox w f) w.val 0xA9 f three
        (fun _ x => if decide (n x ≤ 64) && n x != 0 && x.inScratch (a x) (8 * n x) 8 then x.landed (a x) (8 * n x) else some 0)
        (fun _ x => 1 ≤ n x ∧ n x ≤ 64 ∧ x.inScratch (a x) (8 * n x) 8 = true ∧ x.poisoned (a x) (8 * n x) = false)
        (fun u x =>
          let r := u.mbxPut (idPart x.s.part) (immBits f 6 0) x.s.part (n x) (bytesWords (n x) (x.sbytes (a x) (8 * n x)))
          (r.2.onRun w.val (fun y => put r.1 y 8)).retire w.val (4 + n x) 1)) ∧
      (immBits f 31 31 = 1 → IssuesTo (.sendDoorbell w f) w.val 0xA9 f [f.dst.toNat, f.src2.toNat] noWait (fun _ _ => True)
        (fun u x =>
          let r := u.doorbell x.s.part (immBits f 11 0) (BitVec.ofNat 64 (n x % 65536))
          (r.2.onRun w.val (fun y => put r.1 y 8)).retire w.val 5 1)) ∧
      IssuesTo (.yield w f) w.val 0xA7 f [] noWait (fun _ _ => True)
        (fun u _ => (u.spend w.val 1 0 0 0).suspend w.val (immBits f 12 0) none 0 (some (u.now + 1, 0))) ∧
      IssuesTo (.endStroke w f) w.val 0xAC f [1] noWait (fun _ _ => True)
        (fun u x => (u.spend w.val 1 0 0 0).endRun w.val .ok x.pc (x.gr 1)))

/-! ### The round -/

/-- R39, R41, R50, R55: while the device counts and no cold reset is due, a boundary adds 1 to the round counter, or adopts the
counter that a resynchronisation named; a length change announced for it, or for a boundary that it jumps over, takes effect, and
the round that it opens has the length in force; the queue is as it was. -/
def Obligations.boundary_opens_the_next_round : Prop :=
  ∀ (m : BoundaryIn) (s : State), s.counts = true →
    s.rst.due.any (fun x => x.1 == 3 && decide (x.2 ≤ max (s.rnd.counter + 1) (s.rnd.join.getD 0))) = false →
    Goes (exec (.roundBoundary m) s) (fun t =>
      (s.rnd.join = none → t.rnd.counter = s.rnd.counter + 1) ∧
      (∀ n, s.rnd.join = some n → t.rnd.counter = max (s.rnd.counter + 1) n) ∧
      (∀ code b, s.rnd.pendLength = some (code, b) → b ≤ max (s.rnd.counter + 1) (s.rnd.join.getD 0) →
        t.rnd.length = code ∧ t.rnd.pendLength = none) ∧
      ((∀ code b, s.rnd.pendLength = some (code, b) → max (s.rnd.counter + 1) (s.rnd.join.getD 0) < b) →
        t.rnd.length = s.rnd.length ∧ t.rnd.pendLength = s.rnd.pendLength) ∧
      t.rnd.running = t.rnd.length ∧ t.pending = s.pending)

/-- R39: the counter does not move but at a boundary: every other command leaves it as it is, the commands aside that reset or
start the device. -/
def Obligations.counter_moves_at_boundaries : Prop :=
  ∀ (c : Instr) (s t : State), exec c s = .next t → t.rnd.counter = s.rnd.counter ∨ (∃ m, c = .roundBoundary m) ∨
    (∃ f, c = .coldStart f) ∨ (∃ f, c = .warmStart f) ∨ c = .warmResetEntry ∨ (∃ b, c = .devResetN b) ∨
    (∃ a b, c = .deviceCold a b) ∨ (∃ a b, c = .deviceWarm a b) ∨ (∃ a b, c = .trip a b) ∨ (∃ a, c = .undervoltReset a) ∨
    (∃ a b d e, c = .fwChunk a b d e)

/-- R40, R41, R55: at the announced boundary the round has the new length and every rate per round of a partition is rescaled to it,
and the boundary's journal record holds the change; what counts rounds is as it was, and so is all else. Before that boundary
nothing changes.
R46, R47, R49: a marker of this domain on a trained link counts the link's hops as one more than it carries, ends a holdover, and
steers the next boundary by at most 16 ns where it comes from the parent; a length change that it carries is pending from then on.
It changes the round's state alone. A marker does nothing to the master itself, on a link that is not trained, or where it names
another master than the one recognised.
R43, R44: a claim from another device that beats the best one heard is kept, and leaves on every other trained link; a claim that
does not beat it is dropped, and one of nonzero priority silences a device of priority 0.
R44, R49, R50: the claim that stood 8 rounds is recognised as master; 16 rounds without a marker set ROUND_HOLDOVER and send an EVENT,
64 start an election; a domain with a higher counter lengthens the running round and names the counter that its boundary adopts. -/
def Obligations.round_domain : Prop :=
  (∀ (s : State) (code b : Nat), s.counts = true → s.rnd.pendLength = some (code, b) →
      let f := fun v => v * 2 ^ code / 2 ^ s.rnd.length
      (b ≤ max (s.rnd.counter + 1) (s.rnd.join.getD 0) →
        exec .lengthChangeEffect s = .next { s with
          rnd := { s.rnd with length := code, pendLength := none, lengthBusy := false }
          ctl := { s.ctl with deltas := s.ctl.deltas ++ [{ kind := 0x0D, op := 0xD5 }] }
          parts := s.parts.mapAll {} (fun _ (x : Partition) => { x with
            shapers := x.shapers.mapAll {} (fun _ (y : Shaper) => { y with rate := y.rate.map f })
            policers := x.policers.mapAll {} (fun _ (y : Policer) => { y with cir := y.cir.map f, pir := y.pir.map f })
            budgets := x.budgets.mapAll {} (fun _ (y : Budget) => { y with bytes := f y.bytes }) }) }) ∧
      (max (s.rnd.counter + 1) (s.rnd.join.getD 0) < b → exec .lengthChangeEffect s = .next s)) ∧
  (∀ (l : LinkId) (b ep prio hops off : Nat) (early : Bool) (s : State),
      let own := s.rnd.master == some s.rnd.endpoint || ep == s.rnd.endpoint
      (s.counts = true → (s.link l.val).trainedUp = true → own = false → (s.rnd.master = none ∨ s.rnd.master = some ep) → b ≤ s.rnd.counter + 1 → s.rnd.counter ≤ b + 1 →
        Goes (exec (.marker l b ep prio hops none early off) s) (fun t =>
          t.rnd.hops.look 0 l.val = hops + 1 ∧ (∀ k, k ≠ l.val → t.rnd.hops.look 0 k = s.rnd.hops.look 0 k) ∧
          t.rnd.markerAge = 0 ∧ t.rnd.held = false ∧ t.rnd.master = some ep ∧ t.rnd.masterPrio = prio ∧ t.rnd.counter = s.rnd.counter ∧
          (t.rnd.parent = some l.val → t.rnd.steer = if early then -((min 16 off : Nat) : Int) else ((min 16 off : Nat) : Int)) ∧
          (t.rnd.parent ≠ some l.val → t.rnd.steer = s.rnd.steer) ∧ t = { s with rnd := t.rnd }) ∧
        ∀ (code : Fin 4) (e : Nat), Goes (exec (.marker l b ep prio hops (some (code, e)) early off) s) (fun t =>
          t.rnd.pendLength = some (code.val, e) ∧ t.rnd.hops.look 0 l.val = hops + 1 ∧ t.rnd.markerAge = 0 ∧ t.mem = s.mem)) ∧
      (own = true ∨ (s.link l.val).trainedUp = false ∨ (∃ other, s.rnd.master = some other ∧ other ≠ ep) → ∀ pend, exec (.marker l b ep prio hops pend early off) s = .next s)) ∧
  (∀ (l : LinkId) (counter prio ep : Nat) (s : State),
      let c : Claim := { counter := counter, prio := prio, ep := ep }
      let age := if prio = 0 then s.rnd.nonzeroAge else 0
      s.counts = true → (s.link l.val).trainedUp = true → ep ≠ s.rnd.endpoint →
      (s.rnd.best.all (fun b => b.ep = ep || c.beats b) = true →
        Goes (exec (.roundClaim l counter prio ep) s) (fun t =>
          t.rnd = { s.rnd with nonzeroAge := age, best := some c, bestAge := if s.rnd.best.any (fun b => b.ep = ep) then s.rnd.bestAge else 0 } ∧
          (∀ k, k < 48 → k ≠ l.val → (s.link k).trainedUp = true → Out.claim k c ∈ t.out) ∧
          t = { s with rnd := t.rnd, out := t.out })) ∧
      (s.rnd.best.all (fun b => b.ep = ep || c.beats b) = false →
        exec (.roundClaim l counter prio ep) s = .next { s with rnd := { s.rnd with nonzeroAge := age } }) ∧
      (∀ b : Claim, b.counter = counter → (c.beats b = true ↔ b.prio < prio ∨ (b.prio = prio ∧ ep < b.ep)))) ∧
  (∀ (s : State), s.counts = true →
      (∀ c, s.rnd.best = some c → 8 ≤ s.rnd.bestAge → (s.rnd.master ≠ some c.ep ∨ s.rnd.electing = true) →
        Goes (exec .masterRecognised s) (fun t => t.rnd.master = some c.ep ∧ t.rnd.masterPrio = c.prio ∧ t.rnd.electing = false ∧
          t.rnd.counter = s.rnd.counter ∧ t = { s with rnd := t.rnd })) ∧
      (∀ c, s.rnd.best = some c → s.rnd.bestAge < 8 → exec .masterRecognised s = .next s) ∧
      (s.isMaster = false → s.rnd.held = false → 16 ≤ s.rnd.markerAge →
        exec .roundHoldover s = .next (({ s with rnd := { s.rnd with
          held := true, holdover := true, holdoverCount := min 255 (s.rnd.holdoverCount + 1) } } : State).event 0x0005 s.rnd.counter 0)) ∧
      (s.rnd.markerAge < 16 → exec .roundHoldover s = .next s) ∧
      (s.isMaster = false → s.rnd.electing = false → 64 ≤ s.rnd.markerAge →
        Goes (exec .electionStart s) (fun t => t.rnd.electing = true ∧ t.rnd.bestAge = 0 ∧
          t.rnd.best = (if s.rnd.prio ≠ 0 ∨ 64 ≤ s.rnd.nonzeroAge then
            some { counter := s.rnd.counter, prio := s.rnd.prio, ep := s.rnd.endpoint } else none) ∧ t = { s with rnd := t.rnd })) ∧
      (s.rnd.markerAge < 64 → exec .electionStart s = .next s) ∧
      (∀ n, max (s.rnd.counter + 1) (s.rnd.join.getD 0) < n →
        exec (.roundResync n) s = .next { s with rnd := { s.rnd with
          join := some n, lengthened := true, resync := true, resyncCount := min 255 (s.rnd.resyncCount + 1) } }) ∧
      (∀ n, n ≤ s.rnd.counter + 1 → exec (.roundResync n) s = .next s))

/-! ### Queues -/

/-- R70, R71: an SQ tail doorbell of a live partition whose descriptor has been read sets the tail; on a halted SQ it does nothing, on
a disabled one it is counted, and a tail more than the ring's entries past HEAD is answered by a queue event with RANGE. A value
above 16 bits changes nothing. An SQ reset doorbell resets the queue, whatever its 16-bit value.
R69 to R71, R98: a CQ head doorbell whose CQ is usable frees the records up to it; one that would free records not yet written is
answered by a queue event with RANGE; on a CQ that is not usable it is counted. A CQ reset doorbell holds the CQ's records, after reading the descriptor of a CQ whose first use it is, and
the boundary after it takes the new descriptor where that passes its checks and holds the records reserved. A retry writes the
held records as far as the ring allows. -/
def Obligations.queue_doorbells : Prop :=
  (∀ (p : PartId) (q : Fin 64) (v : U64) (s : State), (s.part p.val).live = true →
      let x := s.sq p.val q.val
      let ahead := (v.toNat + 65536 - x.head % 65536) % 65536
      (v.toNat < 65536 → x.read = true → x.halted = false → x.enable = true → ahead ≤ 2 ^ x.log2 →
        exec (.sqTailDoorbell p q v) s = .next (s.onSq p.val q.val (fun x => { x with tail := v.toNat }))) ∧
      (v.toNat < 65536 → x.read = true → x.halted = false → x.enable = true → 2 ^ x.log2 < ahead →
        exec (.sqTailDoorbell p q v) s = .next (s.queueEvent p.val x.defaultCq q.val .range v)) ∧
      (x.read = true → x.halted = false → x.enable = false → v.toNat < 65536 →
        exec (.sqTailDoorbell p q v) s = .next (s.countOf p.val 4 1)) ∧
      (x.read = true → x.halted = true → exec (.sqTailDoorbell p q v) s = .next s) ∧
      (65536 ≤ v.toNat → exec (.sqTailDoorbell p q v) s = .next s) ∧
      (v.toNat < 65536 → exec (.sqResetDoorbell p q v) s = .next (s.sqReset p.val q.val)) ∧
      (65536 ≤ v.toNat → exec (.sqResetDoorbell p q v) s = .next s)) ∧
  (∀ (p : PartId) (q : Fin 64) (v : U64) (s : State),
      let c := s.cq p.val q.val
      let n := (v.toNat + 65536 - c.head % 65536) % 65536
      ((s.part p.val).live = true → v.toNat < 65536 → c.read = true → c.usable = true → n ≤ c.wpos - c.head →
        exec (.cqHeadDoorbell p q v) s = .next (s.onCq p.val q.val (fun c => { c with head := c.head + n }))) ∧
      ((s.part p.val).live = true → v.toNat < 65536 → c.read = true → c.usable = true → c.wpos - c.head < n →
        exec (.cqHeadDoorbell p q v) s = .next (s.queueEvent p.val q.val 0 .range v)) ∧
      ((s.part p.val).live = true → v.toNat < 65536 → c.read = true → c.usable = false →
        exec (.cqHeadDoorbell p q v) s = .next (s.countOf p.val 4 1)) ∧
      ((s.part p.val).live = true → v.toNat < 65536 →
        exec (.cqResetDoorbell p q v) s = .next ((s.useCq p.val q.val).2.onCq p.val q.val (fun c =>
          { c with resetting := true, resetRound := s.rnd.counter, headWait := none })) ∧
        (c.read = true → s.useCq p.val q.val = (true, s))) ∧
      (65536 ≤ v.toNat → exec (.cqResetDoorbell p q v) s = .next s) ∧
      (∀ bs, c.resetting = true → c.resetRound < s.rnd.counter → s.readPva p.val (s.qdescPva p.val q.val false) 16 = .ok bs →
        let u := s.cleanPva p.val (s.qdescPva p.val q.val false) 16
        (u.cqResetFault p.val q.val (qdescOf false bs) = none →
          exec (.cqResetApply p q) s = .next (((u.onCq p.val q.val (fun c =>
            { c with resetting := false, wpos := 0, head := 0, event := none })).setCqDesc p.val q.val (qdescOf false bs)).flush p.val q.val)) ∧
        (∀ st, u.cqResetFault p.val q.val (qdescOf false bs) = some st →
          exec (.cqResetApply p q) s = .next (((u.onCq p.val q.val (fun c => { c with resetting := false })).flush p.val q.val).queueEvent
            p.val q.val 0 st 0))) ∧
      (c.resetting = false → exec (.cqResetApply p q) s = .next s) ∧
      (c.headWait = none → exec (.cqHeldRecordRetry p q) s = .next (s.flush p.val q.val)))

/-- R76 to R78, R80 to R82: a fetch reads descriptors in ring order while there are any: one that passes the first checks joins the strokes in
translation, one that fails is decided with its record; the strokes in translation are tried in their order; an admission point
is passed once, in order, lets rands at urgency 2 leave their buffers, and places nothing while the device is out of SERVICE.
R86, R88 to R90, R351 to R353: an idle active weaver starts the stroke at the front of its deque, or, with an empty deque, the stroke
at the back of the first victim that has one it may take and that no idle weaver of lower number takes, which costs the transfer
cycles of the scope; with none it waits 64 cycles.
A run whose budget is spent ends with OVERRUN at its word. -/
def Obligations.admission_pops_and_steals : Prop :=
  (∀ (p : PartId) (q : Fin 64) (k : Fin 16) (s : State),
      let x := s.sq p.val q.val
      let pos := x.head + x.waiting.length
      let pva := x.base + 128 * (pos % 2 ^ x.log2)
      ((s.part p.val).live = true → x.read = true → x.reread = false →
        exec (.descriptorFetch p q) s = .next (s.fetch p.val q.val 64) ∧
        ((x.tail + 65536 - x.head % 65536) % 65536 ≤ x.waiting.length → exec (.descriptorFetch p q) s = .next s)) ∧
      (∀ n bs, x.halted = false → x.enable = true → x.fetched < 64 → x.waiting.length < (x.tail + 65536 - x.head % 65536) % 65536 →
        s.readPva p.val pva 128 = .ok bs → bits (BitVec.ofNat 64 (dfield bs 0 8)) 55 54 = 0 →
        let d := strokeOf p.val q.val bs
        let v := s.cleanPva p.val pva 128
        (v.cq p.val d.cq).read = true →
        (v.firstChecks p.val bs d = none →
          let img := (v.imageOf p.val d.handle).getD {}
          s.fetch p.val q.val (n + 1) = ((v.takeId.2).onSq p.val q.val (fun y => { y with
            waiting := y.waiting ++ [({ d with sid := v.nextId, img := img, start := img.entry }, .translating)]
            fetched := y.fetched + 1 })).fetch p.val q.val n) ∧
        (∀ st b u, v.firstChecks p.val bs d = some st → v.admitRec p.val q.val d false st (admitDetail none 0) = some (b, u) →
          s.fetch p.val q.val (n + 1) = (u.onSq p.val q.val (fun y => { y with fetched := y.fetched + 1 })).fetch p.val q.val n)) ∧
      exec (.translationPinComplete p q) s = .next (s.each (x.waiting.filter (fun k => k.2 == .translating)) (fun s k =>
        if (s.sq p.val q.val).halted then s else s.translate p.val q.val k.1)) ∧
      (s.rnd.point ≤ k.val → exec (.admissionPoint k) s = .next (s.admitAll k.val).releaseUrgent ∧
        Goes (exec (.admissionPoint k) s) (fun t => t.rnd.point = k.val + 1) ∧
        (k.val ≠ 0 → s.rst.mode ≠ .service ∨ s.rst.warm ≠ none →
          exec (.admissionPoint k) s = .next ({ s with rnd := { s.rnd with point := k.val + 1 } } : State).releaseUrgent)) ∧
      (k.val < s.rnd.point → exec (.admissionPoint k) s = .next s)) ∧
  (∀ (w : WeaverId) (s : State),
      let x := s.weaver w.val
      let t := s.elapsedNow w.val
      let idle := x.st = .active ∧ x.run = none ∧ w.val ∉ s.auth.halted
      let taken := s.takenBelow w.val
      let scan := [1, 2, 3].findSome? (fun c => ((s.stealScope w.val c).filter (fun v => !taken.contains v)).findSome? (fun v =>
        (s.stealable w.val c v).map (fun k => (c, v, k))))
      (∀ k rest, idle → x.deque = k :: rest →
        exec (.dequePop w) s = .next ((s.onWeaver w.val (fun x => { x with deque := rest, elapsed := t + 1 })).startRun w.val k 0)) ∧
      (x.st ≠ .active ∨ x.run ≠ none ∨ x.deque = [] → exec (.dequePop w) s = .next s) ∧
      (idle → x.deque = [] → x.retryAt ≤ t → scan = none →
        exec (.steal w) s = .next (s.onWeaver w.val (fun x => { x with retryAt := t + 64 }))) ∧
      (∀ c v k, idle → x.deque = [] → x.retryAt ≤ t → scan = some (c, v, k) →
        exec (.steal w) s = .next (
          let s := (s.onWeaver v (fun x => { x with deque := x.deque.dropLast })).onWeaver w.val (fun x => { x with elapsed := t })
          let s := (s.ownerEvent k.part 0x002 false 1).ownerEvent k.part 0x002 true (if c = 1 then 8 else if c = 2 then 24 else 96)
          (if c = 3 then s.opEvent 0x10C { part := some k.part } else s).startRun w.val k (if c = 1 then 8 else if c = 2 then 24 else 96))) ∧
      (x.st ≠ .active ∨ x.run ≠ none ∨ x.deque ≠ [] ∨ t < x.retryAt → exec (.steal w) s = .next s) ∧
      (∀ r, x.run = some r → x.st = .active → r.s.budget ≤ r.cyc →
        exec (.budgetStop w) s = .next (s.endRun w.val .overrun r.pc 0)) ∧
      (∀ r, x.run = some r → r.cyc < r.s.budget → exec (.budgetStop w) s = .next s))

/-! ### Answers to a stroke -/

/-- R166, R260, R262, R271: when the scheduler has issued the request, the bytes that the home answered land in scratch and leave the
tag; an error status ends the stroke, with the word of the instruction that failed; an answer to a stroke that has left its weaver
changes no run. A request that has been issued needs no further issue.
R166, R260, R261, R269, R284, R285: when the scheduler has issued the request, a PLD's answer writes gD, which stops waiting; an
atomic's its old value; a write's acknowledgement leaves; poison ends a PLD with POISON, and an error status ends the stroke. A
home's refusal of a write reaches the stroke.
R287, R288: a watched word that meets its condition offers the stroke with the word in g3 and OK in g4; poison or an error status offers
it with that status; one that does not meet it changes nothing; the timer offers the stroke with TIMEOUT at boundary S + T.
R94, R95, R282: a slice of a bulk operation whose lines no agent holds and whose halves are awake and reachable is processed: FILL writes its pattern,
COPY the source bytes; an operation that a failed half cuts ends with DEAD_AGENT. A channel without a slice changes nothing. -/
def Obligations.answers_land : Prop :=
  (∀ (id cycle sa tag : Nat) (s : State) (q : PoolReq) (x : Run) (bs : List Byte) (poison : Bool),
      let u := (s.advance id).serveReq id
      (∀ r, s.poolReq id = some r → r.stage = .issued → u = s) ∧
      (u.poolReq id = some q → q.kind = .line sa tag → u.runOf q = some x →
      (q.got = some (.ok, bs, poison) →
        Goes (exec (.streamLineLand id cycle) s) (fun t =>
          (t.weaver q.weaver).run = some (x.landBytes id sa tag cycle bs poison) ∧
          t = { u with weavers := t.weavers, poolReqs := u.poolReqs.filter (fun r => r.id ≠ id) } ∧
          ∀ w, w ≠ q.weaver → t.weaver w = u.weaver w)) ∧
      (∀ st, q.got = some (st, bs, poison) → st ≠ .ok →
        exec (.streamLineLand id cycle) s = .next ((u.dropReq id).failRun q.weaver st q.word cycle)) ∧
      (q.got = none → exec (.streamLineLand id cycle) s = .next u) ∧
      (∀ b sa' tag', (x.landBytes id sa' tag' cycle b false).g = x.g ∧ (x.landBytes id sa' tag' cycle b false).v = x.v))) ∧
  (∀ (id cycle : Nat) (st : Status) (s : State) (q : PoolReq) (bs : List Byte) (poison : Bool),
      let u := (s.advance id).serveReq id
      u.poolReq id = some q →
      (∀ reg x, q.kind = .load reg → q.got = some (.ok, bs, false) → u.runOf q = some x →
        exec (.poolResponse id .ok cycle) s = .next ((u.dropReq id).onRun q.weaver (fun x =>
          { x.setGr reg (BitVec.ofNat 64 (ofBytes bs)) with wait := setDel x.wait reg, rdy := x.rdy.put 0 reg cycle }))) ∧
      (∀ reg x, q.kind = .load reg → q.got = some (.ok, bs, true) → u.runOf q = some x →
        exec (.poolResponse id .ok cycle) s = .next ((u.dropReq id).failRun q.weaver .poison q.word cycle)) ∧
      (∀ reg x, q.kind = .load reg → q.got = none → st ≠ .ok → u.runOf q = some x →
        exec (.poolResponse id st cycle) s = .next ((u.dropReq id).failRun q.weaver st q.word cycle)) ∧
      (∀ data, q.kind = .store data → q.got = some (.ok, bs, poison) →
        exec (.poolResponse id .ok cycle) s = .next (u.ackedReq q cycle)) ∧
      (∀ reg op w8 a b x, q.kind = .atom reg op w8 a b → q.got = some (.ok, bs, poison) → reg ≠ 0 → (u.ackedReq q cycle).runOf q = some x →
        exec (.poolResponse id .ok cycle) s = .next ((u.ackedReq q cycle).onRun q.weaver (fun x =>
          { x.setGr reg (BitVec.ofNat 64 (ofBytes bs)) with wait := setDel x.wait reg, rdy := x.rdy.put 0 reg cycle }))) ∧
      (q.got = none → exec (.poolResponse id .ok cycle) s = .next u) ∧
      (q.kind.writes = true → q.got = some (st, bs, poison) → st ≠ .ok →
        exec (.poolWriteRefusal id st) s = .next (u.refuseReq q st 0)) ∧
      (q.kind.writes = false → exec (.poolWriteRefusal id st) s = .next u)) ∧
  (∀ (sid p : Nat) (st : Status) (s : State) (k : Suspended) (pa cond : Nat) (w8 : Bool) (cmp : U64),
      s.suspendedOf sid = some (p, k) → k.watch = some (pa, w8, cond, cmp) →
      let n := if w8 then 8 else 4
      let v := ofBytes (s.readPool pa n).1
      (s.rnd.counter < k.fires → s.asleepHalf (homeHalf pa) = false → s.heldAway pa 1 = false →
        ((s.readPool pa n).2 = true →
          exec (.watchEvaluation sid .ok) s = .next (s.offer p sid 0 .poison (s.rnd.counter, s.rnd.point))) ∧
        ((s.readPool pa n).2 = false → waitCond cond v (cmp.toNat % 256 ^ n) = true →
          exec (.watchEvaluation sid .ok) s = .next (s.offer p sid (BitVec.ofNat 64 v) .ok (s.rnd.counter, s.rnd.point))) ∧
        ((s.readPool pa n).2 = false → waitCond cond v (cmp.toNat % 256 ^ n) = false → exec (.watchEvaluation sid .ok) s = .next s) ∧
        (st ≠ .ok → exec (.watchEvaluation sid st) s = .next (s.offer p sid 0 st (s.rnd.counter, s.rnd.point)))) ∧
      (k.fires ≤ s.rnd.counter → exec (.watchEvaluation sid st) s = .next s ∧
        exec (.watchTimeout sid) s = .next (s.offer p sid 0 .timeout (s.rnd.counter, 0))) ∧
      (s.rnd.counter < k.fires → exec (.watchTimeout sid) s = .next s)) ∧
  (∀ (d : DieId) (ch : Fin 8) (s : State) (o : BulkOp), (s.die d.val).channels.look none ch.val = some o →
      let fuel := 2 * (o.slice / 64 + 2) + o.src.length + o.dst.length
      let src := if o.kind.readsSrc then lineCuts o.src fuel o.done o.slice else []
      let dst := if o.kind = .checksum then (if o.op = 1 ∧ o.len ≤ o.done + o.slice then lineCuts o.dst 4 0 32 else [])
        else lineCuts o.dst fuel o.done o.slice
      let pas := (src ++ dst).map (·.2.1)
      let u := s.each pas State.touch
      (o.slice ≠ 0 → (s.die d.val).failed = none → pas.any (fun a => u.halfDead (homeHalf a)) = false → pas.any (u.cutOff (d.val / 2)) = false →
        pas.any (fun a => u.asleepHalf (homeHalf a)) = false →
        u.sliceBlocks (src ++ (if o.kind.readsDst then dst else [])) (if o.kind.writes o.op then dst else []) = [] →
        exec (.bulkSliceEnd d ch) s = .next ((u.sliceReads (src ++ (if o.kind.readsDst then dst else []))).runSlice d.val ch.val o src dst)) ∧
      (o.slice ≠ 0 → (s.die d.val).failed = none → pas.any (fun a => u.halfDead (homeHalf a)) = true →
        exec (.bulkSliceEnd d ch) s = .next (u.bulkDone d.val ch.val o .deadAgent 0)) ∧
      (o.slice = 0 → exec (.bulkSliceEnd d ch) s = .next s) ∧
      (o.kind = .fill → ∀ t : State, t.runSlice d.val ch.val o src dst = (t.opEvent 0x10D { part := some o.part }).bulkWrite d.val ch.val o none dst
        ((nums o.done o.slice).map (fun j => BitVec.ofNat 8 (o.pattern.toNat / 256 ^ (j % 8))))) ∧
      (o.kind = .copy → ∀ t : State, (t.readCuts src).2 = none → t.runSlice d.val ch.val o src dst =
        ((t.countRead o.part (pageAt o.src o.done) src.length 1 3).opEvent 0x10D { part := some o.part }).bulkWrite d.val ch.val o none dst
          ((t.readCuts src).1.take o.slice)))

/-! ### Control instructions -/

/-- R57, R301, R303: a served request leaves its queue and counts as executed. A failing one gives a result with its status; one that is done a
result with OK; one that stages changes adds them in their order, with their journal entries, and gives a result that waits for the next boundary; a
background one goes on. Nothing else of the state changes but counters. -/
def Obligations.requests_settle : Prop :=
  ∀ (u : State) (i : Issuer) (r : CtrlReq) (st : Status) (cs : List Change) (rs : List Nat),
    let t := u.served u i r
    let x := resultOf i r .ok rs
    (t.ctlQueue i = (u.ctlQueue i).drop 1 ∧ t.ctl.executed = u.ctl.executed + 1 ∧ t.ctl.results = u.ctl.results ∧
      t.ctl.staged = u.ctl.staged ∧ t = { u with ctl := t.ctl, cnt := t.cnt }) ∧
    t.settleCtl i r (.fail st rs) = { t with ctl := { t.ctl with results := t.ctl.results ++ [resultOf i r st rs] } } ∧
    t.settleCtl i r (.done rs) = { t with ctl := { t.ctl with results := t.ctl.results ++ [x] } } ∧
    t.settleCtl i r (.stage cs rs) = { t with ctl := { t.ctl with
      staged := t.ctl.staged ++ cs
      deltas := t.ctl.deltas ++ cs.filterMap (t.entryOf (reqOp r))
      results := t.ctl.results ++ [{ x with effect := u.rnd.counter + 1, ready := false }] } } ∧
    t.settleCtl i r .background = { t with ctl := { t.ctl with background := t.ctl.background ++
      [{ issuer := i, req := r, op := reqOp r, started := u.rnd.counter }] } } ∧
    (∀ c d, c.delta = some d → (∀ p k, c ≠ .regionUnpin p k) →
      t.entryOf (reqOp r) c = some { kind := d.1, op := reqOp r, index := d.2, body := c.named }) ∧
    x.tag = (r.words.getD 1 0).toNat % 2 ^ 32 ∧ x.status = 0 ∧ x.effect = 0 ∧ x.issuer = i

/-- R301 to R303: every control instruction, served, that fails a check common to all requests gives a result with that check's status and
changes nothing else; and one that cannot be served yet stands in its queue.
R59, R296, R299 to R301: what the common checks answer, in their order: a class other than 0b110 gives UNSUPPORTED; with a known variant and the
reserved bits of words 0, 1 and the operands zero, an owner who names another partition, or who issues what an owner may not, gets PERM. -/
def Obligations.common_control_checks : Prop :=
  (∀ (i : Issuer) (r : CtrlReq),
      let row := fun (c : Instr) (op sub : Nat) =>
        (∀ st, st ≠ .ok → ∀ s : State, reqIs r op sub = true → s.leaseHeld = true → (s.arrive i r).serving i r →
          (s.arrive i r).commonStatus (s.arrive i r).future i r = st →
          exec c s = .next (((s.arrive i r).served (s.arrive i r) i r).addResult (resultOf i r st []))) ∧
        (∀ s : State, s.leaseHeld = true → reqIs r op sub = true → ¬ (s.arrive i r).serving i r → exec c s = .next (s.arrive i r)) ∧
        (∀ s : State, s.leaseHeld = false ∨ reqIs r op sub = false → exec c s = .next s)
      row (.partCreate i r) 0xC0 0 ∧ row (.partDestroy i r) 0xC1 0 ∧ row (.partSetAffinity i r) 0xC2 0 ∧ row (.partSetConsent i r) 0xC2 1 ∧
      row (.extGrant i r) 0xC3 0 ∧ row (.extRevoke i r) 0xC4 0 ∧ row (.extRetire i r) 0xC5 0 ∧ row (.extQueryEntry i r) 0xC6 0 ∧
      row (.extQueryNext i r) 0xC6 1 ∧ row (.winMap i r) 0xC7 0 ∧ row (.winUnmap i r) 0xC7 1 ∧ row (.rankSet i r) 0xC8 0 ∧
      row (.mcastSet i r) 0xC9 0 ∧ row (.keyLoad i r) 0xCA 0 ∧ row (.shapeSet i r) 0xCB 0 ∧ row (.policeSet i r) 0xCB 1 ∧
      row (.rankBudget i r) 0xCB 2 ∧ row (.pwrCap i r) 0xCC 0 ∧ row (.pwrCapSagCap i r) 0xCC 1 ∧ row (.pwrCapSagWarn i r) 0xCC 2 ∧
      row (.pwrMode i r) 0xCD 0 ∧ row (.opPref i r) 0xCE 0 ∧ row (.cntSelectEvent i r) 0xCF 0 ∧ row (.cntSelectUserRead i r) 0xCF 1 ∧
      row (.cntSnap i r) 0xD0 0 ∧ row (.regionCreate i r) 0xD1 0 ∧ row (.regionAccept i r) 0xD1 1 ∧ row (.regionDestroy i r) 0xD1 2 ∧
      row (.regionPin i r) 0xD2 0 ∧ row (.regionUnpin i r) 0xD2 1 ∧ row (.regionPublish i r) 0xD3 0 ∧ row (.mbxBind i r) 0xD4 0 ∧
      row (.mbxLock i r) 0xD4 1 ∧ row (.progLoad i r) 0xD6 0 ∧ row (.progUnload i r) 0xD6 1 ∧ row (.attest i r) 0xD7 0 ∧
      row (.roleSwap i r) 0xD8 0 ∧ row (.fwStage i r) 0xD9 0 ∧ row (.xlateSync i r) 0xDA 0 ∧ row (.memTarget i r) 0xDB 0 ∧
      row (.memTargetRebuildShare i r) 0xDB 1 ∧ row (.memRetire i r) 0xDC 0 ∧ row (.errRead i r) 0xDD 0 ∧ row (.devQuery i r) 0xDE 0 ∧
      row (.ctrlFence i r) 0xDF 0) ∧
  (∀ (s f : State) (i : Issuer) (p : PartId) (r : CtrlReq),
      (bits (r.words.getD 0 0) 63 61 ≠ 6 → s.commonStatus f i r = .unsupported) ∧
      (bits (r.words.getD 0 0) 63 61 = 6 → bits (r.words.getD 0 0) 55 32 ≠ 0 → s.commonStatus f i r = .rsvdNonzero) ∧
      (bits (r.words.getD 0 0) 63 61 = 6 → reqReserved r = false → ctlSubs (reqOp r) ≤ reqSub r → s.commonStatus f i r = .unsupported) ∧
      (bits (r.words.getD 0 0) 63 61 = 6 → reqReserved r = false → reqSub r < ctlSubs (reqOp r) →
        operReserved r (ctlDef (reqOp r) (reqSub r) false (reqBits r 2 10 0)) = false → s.reqFenced r = false →
        (reqPart r ≠ p.val → s.commonStatus f (.owner p) r = .perm) ∧
        (reqOp r ∈ [0xC0, 0xC1, 0xC3, 0xC4, 0xC5, 0xCB, 0xCC, 0xCD, 0xD4, 0xD5, 0xD8, 0xD9, 0xDB, 0xDC, 0xDD] →
          s.commonStatus f (.owner p) r = .perm) ∧
        (reqPart r = p.val → reqOp r ∈ [0xC6, 0xC7, 0xC8, 0xC9, 0xCA, 0xCE, 0xCF, 0xD0, 0xD1, 0xD2, 0xD3, 0xD6, 0xD7, 0xDA, 0xDE, 0xDF] →
          s.dying p.val = true → s.commonStatus f (.owner p) r = .revoked)) ∧
      (bits (r.words.getD 0 0) 63 61 = 6 → reqReserved r = false → reqSub r < ctlSubs (reqOp r) →
        operReserved r (ctlDef (reqOp r) (reqSub r) true (reqBits r 2 10 0)) = false → s.reqFenced r = true → s.commonStatus f .stake r = .fenced))

/-- R132, R133, R135 to R138, R152, R299, R304 to R306, R473: PART.CREATE, PART.DESTROY, PART.SET, EXT.GRANT, EXT.REVOKE and EXT.RETIRE stage their
changes where their own checks pass, and give CONFLICT or RANGE where not; EXT.QUERY answers the table's words, to an owner for its own
extents alone. -/
def Obligations.partitions_and_extents : Prop :=
  ∀ (i : Issuer) (r : CtrlReq),
    let p := reqPart r
    let e := reqBits r 2 13 0
    let h := reqBits r 2 14 14
    let n := reqBits r 3 18 0
    let b := reqBits r 2 19 0
    let x := fun (s : State) => ({
      host := true, dbg := bit (reqWord r 2) 9, prof := bit (reqWord r 2) 10, winFirst := reqBits r 3 11 0, winCount := reqBits r 3 24 12
      grpFirst := reqBits r 3 36 25, grpCount := reqBits r 3 49 37, qtable := reqBits r 4 47 0, remoteBase := reqBits r 5 47 0
      affinity := s.affinityOf (reqWords r 7 12), share := reqBits r 19 15 0 } : Partition)
    let fits := reqBits r 3 11 0 + reqBits r 3 24 12 ≤ 4096 ∧ reqBits r 3 36 25 + reqBits r 3 49 37 ≤ 4096 ∧
      reqBits r 4 47 0 % 4096 = 0 ∧ reqBits r 5 47 0 % 4096 = 0
    Settles (.partCreate i r) 0xC0 0 i r (fun f _ => reqBits r 2 5 0 = p ∧ f.createConflict r = false ∧ fits ∧ reqBits r 2 8 8 = 1)
      (fun _ u => .stage [.partCreate p { x u with ownerKey := (List.range 1184).map Config.operatorKeyByte }] [p]) ∧
    (∀ ek, Settles (.partCreate i r) 0xC0 0 i r (fun f u => reqBits r 2 5 0 = p ∧ f.createConflict r = false ∧ fits ∧ reqBits r 2 8 8 = 0 ∧
        u.readIssuer (if i = .stake then .stake else .operator) (reqBits r 6 47 0) 1184 = .ok ek ∧ ekValid ek = true)
      (fun _ u => .stage [.partCreate p { x u with host := false, ownerKey := ek }] [p])
      (fun _ u => u.cleanIssuer (if i = .stake then .stake else .operator) (reqBits r 6 47 0) 1184)) ∧
    FailsWith (.partCreate i r) 0xC0 0 i r (fun _ _ => reqBits r 2 5 0 ≠ p) .range ∧
    FailsWith (.partCreate i r) 0xC0 0 i r (fun f _ => reqBits r 2 5 0 = p ∧ f.createConflict r = true) .conflict ∧
    Settles (.partDestroy i r) 0xC1 0 i r (fun f _ => f.extents.any (fun e => e.2.st == .active && e.2.holder == p && e.2.hosted) = false)
      (fun _ _ => .stage [.partDestroy p] []) ∧
    Settles (.partSetAffinity i r) 0xC2 0 i r (fun _ _ => True)
      (fun _ u => .stage [.affinity p (u.affinityOf (reqWords r 2 12)) (reqBits r 14 15 0)] []) ∧
    Settles (.partSetConsent i r) 0xC2 1 i r (fun _ _ => True) (fun f _ => .stage [.consent p (bit (reqWord r 2) 0) (bit (reqWord r 2) 1)]
      [if (f.part p).epochRound = some f.rnd.counter then (f.part p).epoch else ((f.part p).epoch + 1) % 2 ^ 32]) ∧
    Settles (.extGrant i r) 0xC3 0 i r (fun f _ => (f.extent e).st = .free ∧ n ≠ 0 ∧ n ≤ (f.pool h).free)
      (fun _ _ => .stage [.extGrant e h n p] [e]) ∧
    FailsWith (.extGrant i r) 0xC3 0 i r (fun f _ => (f.extent e).st ≠ .free) .conflict ∧
    FailsWith (.extGrant i r) 0xC3 0 i r (fun f _ => (f.extent e).st = .free ∧ (n = 0 ∨ (f.pool h).free < n)) .range ∧
    Settles (.extRevoke i r) 0xC4 0 i r (fun f _ => (f.extent e).st = .active ∧ (f.extent e).hosted = false ∧ (f.extent e).root = false ∧
        (f.extent e).region = none) (fun _ _ => .stage [.extRevoke e (decide (reqBits r 0 4 4 = 1))] []) ∧
    FailsWith (.extRevoke i r) 0xC4 0 i r (fun f _ => (f.extent e).st ≠ .active ∨ (f.extent e).hosted = true) .conflict ∧
    Settles (.extRetire i r) 0xC5 0 i r (fun f _ => b < 753664 ∧ (f.pool (blockHalf b)).blockState b ≠ .retired ∧
        b ∉ (f.pool (blockHalf b)).marked) (fun _ _ => .stage [.extRetire b] []) ∧
    FailsWith (.extRetire i r) 0xC5 0 i r (fun _ _ => 753664 ≤ b) .range ∧
    Settles (.extQueryEntry .operator r) 0xC6 0 .operator r (fun _ _ => True)
      (fun _ u => .done [0, (u.extent e).word0, 0, 0, (u.extent e).pct * 2 ^ 19]) ∧
    (∀ q : PartId, Settles (.extQueryEntry (.owner q) r) 0xC6 0 (.owner q) r
        (fun _ u => ((u.extent e).st = .active ∨ (u.extent e).st = .draining) ∧ (u.extent e).holder = q.val)
        (fun _ u => .done [0, (u.extent e).word0, (u.extent e).pins + (u.extent e).grantSeq * 2 ^ 32, (u.extent e).stateRound,
          (u.extent e).certified + (u.extent e).pct * 2 ^ 19]) ∧
      FailsWith (.extQueryEntry (.owner q) r) 0xC6 0 (.owner q) r (fun _ u => (u.extent e).holder ≠ q.val) .perm ∧
      Settles (.extQueryNext (.owner q) r) 0xC6 1 (.owner q) r (fun _ _ => True) (fun _ u => .done [((u.extents.find? (fun y =>
        decide (e ≤ y.1) && (y.2.st == .active && y.2.holder == q.val))).map (·.1)).getD 0xFFFFFFFF])) ∧
    Settles (.extQueryNext .operator r) 0xC6 1 .operator r (fun _ _ => True) (fun _ u => .done [((u.extents.find? (fun y =>
      decide (e ≤ y.1) && y.2.st != .free)).map (·.1)).getD 0xFFFFFFFF])

/-- R118, R120, R121, R299, R402, R404, R478: WIN.MAP, WIN.UNMAP, RANK.SET, MCAST.SET, KEY.LOAD and XLATE.SYNC stage their change; a window or
group outside the partition's gives PERM, a misaligned window RANGE, a key that does not unwrap INTEGRITY, one no newer CONFLICT. -/
def Obligations.windows_ranks_groups_and_keys : Prop :=
  ∀ (i : Issuer) (r : CtrlReq),
    let p := reqPart r
    let w := reqBits r 2 11 0
    let e := reqWord r 3
    let x : Window := {
      valid := bit e 0, rd := bit e 1, wr := bit e 2, at_ := bit e 3, db := bit e 4, part := bits e 13 8
      rankLo := bits e 29 16, rankHi := bits e 45 32, pvaBase := reqBits r 4 47 0, len := reqBits r 5 47 0 }
    let mine := fun (f : State) => (f.part p).winFirst ≤ w ∧ w < (f.part p).winFirst + (f.part p).winCount
    let group := fun (f : State) => (f.part p).grpFirst ≤ w ∧ w < (f.part p).grpFirst + (f.part p).grpCount
    let secret := fun (u : State) => (u.part p).ss.bind (fun ss =>
      unwrapKey (trafficSecret ss (u.part p).epoch (u.part p).dbg (u.part p).prof) (reqWords r 2 8) (reqBits r 10 3 0))
    let old := fun (f : State) => (f.part p).peerKeys.look {} (reqBits r 10 3 0)
    Settles (.winMap i r) 0xC7 0 i r (fun f _ => mine f ∧ x.part = p ∧ x.pvaBase % 4096 = 0 ∧ x.len % 4096 = 0 ∧ x.pvaBase + x.len ≤ 2 ^ 48 ∧
      (x.db = true → x.pvaBase = 0 ∧ x.len = 4096)) (fun _ _ => .stage [.winSet w x] []) ∧
    FailsWith (.winMap i r) 0xC7 0 i r (fun f _ => ¬ mine f ∨ x.part ≠ p) .perm ∧
    FailsWith (.winMap i r) 0xC7 0 i r (fun f _ => mine f ∧ x.part = p ∧ (x.pvaBase % 4096 ≠ 0 ∨ x.len % 4096 ≠ 0)) .range ∧
    Settles (.winUnmap i r) 0xC7 1 i r (fun f _ => mine f) (fun _ _ => .stage [.winSet w {}] []) ∧
    FailsWith (.winUnmap i r) 0xC7 1 i r (fun f _ => ¬ mine f) .perm ∧
    Settles (.rankSet i r) 0xC8 0 i r (fun _ _ => True) (fun _ _ => .stage [.rankSet p (reqBits r 2 13 0)
      { ep := reqBits r 3 19 0, valid := bit (reqWord r 2) 16, farAtomic := bit (reqWord r 2) 17, dead := bit (reqWord r 2) 18 }] []) ∧
    Settles (.mcastSet i r) 0xC9 0 i r (fun f _ => group f) (fun _ _ => .stage [.groupSet w
      { valid := bit (reqWord r 2) 16, allRanks := bit (reqWord r 2) 17, base := reqBits r 2 45 32,
        mask := BitVec.ofNat 256 (ofBytes (wordBytes (reqWords r 3 4))) }] []) ∧
    FailsWith (.mcastSet i r) 0xC9 0 i r (fun f _ => ¬ group f) .perm ∧
    (∀ ts, Settles (.keyLoad i r) 0xCA 0 i r (fun f u => secret u = some ts ∧ ((old f).loaded = true → (old f).seq < reqBits r 2 63 32))
      (fun _ _ => .stage [.keyLoad p (reqBits r 10 3 0) {
        ep := reqBits r 2 23 0, part := reqBits r 2 29 24, seq := reqBits r 2 63 32
        gen := reqBits r 9 31 0, loaded := true, ts := ts }] []) ∧
      FailsWith (.keyLoad i r) 0xCA 0 i r (fun f u => secret u = some ts ∧ (old f).loaded = true ∧ reqBits r 2 63 32 ≤ (old f).seq)
        .conflict) ∧
    FailsWith (.keyLoad i r) 0xCA 0 i r (fun _ u => secret u = none) .integrity ∧
    Settles (.xlateSync i r) 0xDA 0 i r (fun _ _ => True) (fun _ _ => .stage [.sync p (reqBits r 2 47 0) (reqWord r 3).toNat] [])

/-- R307, R308, R422, R522, R523: SHAPE.SET, POLICE.SET, RANK.BUDGET, PWR.CAP with its SAG_CAP and SAG_WARN, PWR.MODE and OP.PREF, served
and passing the common checks, complete in a next state in which their setting is staged where it lies within its ranges, and fail
with RANGE outside: a cap is a multiple of 5 W up to 1,800 W, of which less than 320 W acts as 320 W; SAG_WARN lies from 82 to 96
half volts. -/
def Obligations.traffic_and_power_settings : Prop :=
  ∀ (i : Issuer) (r : CtrlReq),
    let p := reqPart r
    let a := reqBits r 2 31 0
    let b := reqBits r 3 31 0
    let c := reqBits r 4 31 0
    let d := reqBits r 5 31 0
    let free := 0xFFFFFFFF
    let v := reqBits r 2 15 0
    let shapeOk := 128 ≤ a ∧ (a ≠ free → a ≤ b) ∧ 2 * (1072 + reqBits r 4 7 0) ≤ b
    let policeOk := a ≤ b ∧ c ≤ d ∧ 128 ≤ a ∧ (a ≠ free → a ≤ c) ∧ (b ≠ free → b ≤ d ∧ 2144 ≤ d)
    let budgetOk := reqBits r 2 13 0 ≤ reqBits r 2 29 16 ∧ 2176 ≤ b
    let capOk := v % 5 = 0 ∧ v ≤ 1800
    let sagCapOk := v % 5 = 0 ∧ 320 ≤ v ∧ v ≤ 1800
    let sagWarnOk := 82 ≤ v ∧ v ≤ 96
    let prefOk := reqBits r 2 7 4 ≤ 7 ∨ reqBits r 2 7 4 = 15
    Settles (.shapeSet i r) 0xCB 0 i r (fun _ _ => shapeOk) (fun _ _ => .stage [.shape p a b (reqBits r 4 7 0)] []) ∧
    FailsWith (.shapeSet i r) 0xCB 0 i r (fun _ _ => ¬ shapeOk) .range ∧
    Settles (.policeSet i r) 0xCB 1 i r (fun _ _ => policeOk) (fun _ _ => .stage [.police p a b c d (bit (reqWord r 6) 0)] []) ∧
    FailsWith (.policeSet i r) 0xCB 1 i r (fun _ _ => ¬ policeOk) .range ∧
    Settles (.rankBudget i r) 0xCB 2 i r (fun _ _ => budgetOk) (fun _ _ => .stage [.budget p (reqBits r 2 13 0) (reqBits r 2 29 16) b] []) ∧
    FailsWith (.rankBudget i r) 0xCB 2 i r (fun _ _ => ¬ budgetOk) .range ∧
    Settles (.pwrCap i r) 0xCC 0 i r (fun _ _ => capOk) (fun _ _ => .stage [.cap (max 320 v) v] [max 320 v]) ∧
    FailsWith (.pwrCap i r) 0xCC 0 i r (fun _ _ => ¬ capOk) .range ∧
    Settles (.pwrCapSagCap i r) 0xCC 1 i r (fun _ _ => sagCapOk) (fun _ _ => .stage [.sagCap v] [v]) ∧
    FailsWith (.pwrCapSagCap i r) 0xCC 1 i r (fun _ _ => ¬ sagCapOk) .range ∧
    Settles (.pwrCapSagWarn i r) 0xCC 2 i r (fun _ _ => sagWarnOk) (fun _ _ => .stage [.sagWarn v] [v]) ∧
    FailsWith (.pwrCapSagWarn i r) 0xCC 2 i r (fun _ _ => ¬ sagWarnOk) .range ∧
    Settles (.pwrMode i r) 0xCD 0 i r (fun _ _ => True)
      (fun _ _ => .stage [.mode (bit (reqWord r 2) 0) (bit (reqWord r 2) 1) (bit (reqWord r 2) 2)] []) ∧
    Settles (.opPref i r) 0xCE 0 i r (fun _ _ => prefOk) (fun _ _ => .stage [.pref p (reqBits r 2 3 0) (reqBits r 2 7 4)] []) ∧
    FailsWith (.opPref i r) 0xCE 0 i r (fun _ _ => ¬ prefOk) .range

/-- R299, R309, R313, R538 to R544, R547: CNT.SELECT stages the event of a counter that it may select, with a fitting event, or RANGE; a ring, or
the sampler; CNT.SELECT USER_READ the owner's grant; CNT.SNAP names a boundary at least 2 rounds ahead; DEV.QUERY and CTRL.FENCE are
done at once.
R41, R310: ROUND.SET of a priority alone stages it; a round length that differs is announced by the master 256 rounds after it accepts it;
with a change pending it gives BUSY_RETRY. -/
def Obligations.counter_selection_queries_and_round_set : Prop :=
  (∀ (i : Issuer) (q : PartId) (r : CtrlReq),
      let n := reqBits r 2 10 0
      let chain := bit (reqWord r 2) 28
      let level := bit (reqWord r 2) 27
      let ev := reqBits r 2 26 16
      let o : Issuer := .owner q
      let b := (reqWord r 2).toNat
      let zero := reqWord r 3 = 0 ∧ reqWord r 4 = 0 ∧ reqWord r 5 = 0
      Settles (.cntSelectEvent o r) 0xCF 0 o r (fun f _ => 48 ≤ n ∧ n ≤ 63 ∧ zero ∧ selectFits true r = true ∧ (chain = true → n % 2 = 0) ∧
        (n % 2 = 1 → (f.part q.val).chained (n - 1) = false)) (fun _ _ => .stage [.select (some q.val) n ev level chain 0 0 0] []) ∧
      FailsWith (.cntSelectEvent o r) 0xCF 0 o r (fun _ _ => n < 48 ∨ (63 < n ∧ n < 0x7FE)) .range ∧
      FailsWith (.cntSelectEvent o r) 0xCF 0 o r (fun f _ => 48 ≤ n ∧ n ≤ 63 ∧ zero ∧ selectFits true r = true ∧ chain = false ∧ n % 2 = 1 ∧
        (f.part q.val).chained (n - 1) = true) .conflict ∧
      Settles (.cntSelectEvent o r) 0xCF 0 o r (fun _ _ => n = 0x7FE ∧ reqBits r 3 47 0 % 64 = 0 ∧ 1 ≤ reqBits r 4 3 0 ∧ reqBits r 4 3 0 ≤ 12)
        (fun _ _ => .stage [.ring (some q.val) n (reqBits r 3 47 0) (reqBits r 4 3 0) (reqBits r 2 20 16)] []) ∧
      Settles (.cntSelectEvent .operator r) 0xCF 0 .operator r (fun f _ => n ≤ 127 ∧ selectFits false r = true ∧ (chain = true → n % 2 = 0) ∧
        (n % 2 = 1 → (f.cnt.sel.look (0, false, 0, 0, 0) (n - 1)).2.1 = false))
        (fun _ _ => .stage [.select none n ev level chain (reqBits r 3 25 0) (reqBits r 4 45 0) (reqBits r 5 45 0)] []) ∧
      Settles (.cntSelectUserRead i r) 0xCF 1 i r (fun _ _ => True) (fun _ _ => .stage [.userRead (reqPart r) (bit (reqWord r 2) 0)] []) ∧
      Settles (.cntSnap o r) 0xD0 0 o r (fun f u => u.rnd.counter + 2 ≤ b ∧ b ∉ (f.part q.val).snaps)
        (fun _ _ => .snap (.snap (some q.val) b) b (b + 3)) ∧
      Settles (.cntSnap .operator r) 0xD0 0 .operator r (fun f u => u.rnd.counter + 2 ≤ b ∧ b ∉ f.cnt.snaps)
        (fun _ _ => .snap (.snap none b) b b) ∧
      FailsWith (.cntSnap i r) 0xD0 0 i r (fun _ u => b < u.rnd.counter + 2) .range ∧
      Settles (.devQuery .operator r) 0xDE 0 .operator r (fun _ _ => True) (fun _ u => .done [deviceVersions,
        u.half0.integrity.code + u.half1.integrity.code * 2 ^ 3 + u.activeHalf * 2 ^ 6 + u.leaseEpoch * 2 ^ 32,
        u.pool0.free / 256 * 256, u.pool1.free / 256 * 256]) ∧
      Settles (.devQuery o r) 0xDE 0 o r (fun _ _ => True) (fun _ u => .done [deviceVersions,
        u.half0.integrity.code + u.half1.integrity.code * 2 ^ 3 + u.activeHalf * 2 ^ 6 + u.leaseEpoch * 2 ^ 32,
        (u.extents.filter (fun e => e.2.st == .active && e.2.holder == q.val)).length, ((u.part q.val).pins.filter (fun k => k.2.held)).length]) ∧
      Settles (.ctrlFence i r) 0xDF 0 i r (fun _ _ => True) (fun _ _ => .done [])) ∧
  (∀ (i : Issuer) (r : CtrlReq) (s : State),
      (s.leaseHeld = false → exec (.roundSet i r) s = .next s.lengthResult) ∧
      (reqIs r 0xD5 0 = true → s.leaseHeld = true → (s.arrive i r).serving i r →
      (s.arrive i r).commonStatus (s.arrive i r).future i r = .ok →
      let u := s.arrive i r
      let code := reqBits r 2 1 0
      let prio : List Change := if bit (reqWord r 2) 24 then [.priority (reqBits r 2 23 16)] else []
      (bit (reqWord r 2) 8 = false → bit (reqWord r 2) 24 = true →
        exec (.roundSet i r) s = .next ((u.served u i r).settleCtl i r (.stage prio [s.rnd.counter + 1])).lengthResult) ∧
      (bit (reqWord r 2) 8 = true → code ≠ s.rnd.length → (s.rnd.lengthBusy = true ∨ s.rnd.pendLength ≠ none) →
        exec (.roundSet i r) s = .next ((u.served u i r).settleCtl i r (.fail .busyRetry [])).lengthResult) ∧
      (bit (reqWord r 2) 8 = true → code ≠ s.rnd.length → s.rnd.lengthBusy = false → s.rnd.pendLength = none → s.isMaster = true →
        Goes (exec (.roundSet i r) s) (fun t => t.rnd = { s.rnd with pendLength := some (code, s.rnd.counter + 256), lengthBusy := true } ∧
          t.ctl.staged = s.ctl.staged ++ prio ∧ t = { s with rnd := t.rnd, ctl := t.ctl, cnt := t.cnt }))))

/-- R237 to R248: the region instructions stage their change where the region exists, is not being destroyed, and the partition may; PIN needs a free
slot and a writable record, UNPIN the generation of the pin it names, PUBLISH the version it expects, and the new version is claimed; a publish that expects another version fails with CONFLICT without reading
its list. -/
def Obligations.region_instructions : Prop :=
  ∀ (i : Issuer) (r : CtrlReq),
    let p := reqPart r
    let g := reqBits r 2 9 0
    let open_ := fun (f : State) => (f.region g).valid = true ∧ (f.region g).destroying = none
    let k := reqBits r 2 5 0
    let n := reqBits r 5 23 0
    let index := reqBits r 6 24 0
    (∀ es id, Settles (.regionCreate i r) 0xD1 0 i r (fun f _ => regionExts r = some es ∧
        es.all (fun e => (f.extent e).st == .active && (f.extent e).holder == p) = true ∧
        es.any (fun e => (f.extent e).root || (f.extent e).hosted || (f.extent e).region.isSome) = false ∧ es.Nodup ∧
        es.any (fun e => (f.extent e).half ≠ (f.extent (es.headD 0)).half) = false ∧ f.framesOf es ≤ 2 ^ 24 ∧
        (f.regions.filter (fun y => y.2.valid && y.2.half == (f.extent (es.headD 0)).half)).foldl (fun m y => m + y.2.frames) 0 +
          f.framesOf es ≤ 2 ^ 26 ∧ (List.range 1024).find? (fun j => !(f.region j).valid) = some id)
      (fun f _ => .stage [.regionCreate id {
        valid := true, half := (f.extent (es.headD 0)).half, home := p, offer := reqWord r 4
        frames := f.framesOf es, exts := es, versions := [{}] }] [id]) ∧
      FailsWith (.regionCreate i r) 0xD1 0 i r (fun f _ => regionExts r = some es ∧
        es.all (fun e => (f.extent e).st == .active && (f.extent e).holder == p) = false) .perm) ∧
    Settles (.regionAccept i r) 0xD1 1 i r (fun f _ => open_ f ∧ (f.region g).offer.getLsbD p = true)
      (fun _ _ => .stage [.regionAccept g p] []) ∧
    FailsWith (.regionAccept i r) 0xD1 1 i r (fun f _ => open_ f ∧ (f.region g).offer.getLsbD p = false) .perm ∧
    Settles (.regionDestroy i r) 0xD1 2 i r (fun f _ => open_ f ∧ (f.region g).home = p) (fun _ _ => .stage [.regionDestroy g] []) ∧
    FailsWith (.regionDestroy i r) 0xD1 2 i r (fun f _ => ¬ open_ f) .range ∧
    FailsWith (.regionDestroy i r) 0xD1 2 i r (fun f _ => open_ f ∧ (f.region g).home ≠ p) .perm ∧
    (∀ slot, Settles (.regionPin i r) 0xD2 0 i r (fun f u => open_ f ∧ ((f.region g).home = p ∨ (f.region g).readers.getLsbD p = true) ∧
        (List.range 64).find? (fun j => !((f.part p).pins.look {} j).held) = some slot ∧
        (u.rangePieces p (reqBits r 3 47 0) 64 { w := true }).any (fun y => match y.out with | .blocked _ => true | _ => false) = false ∧
        u.pvaStatus p (reqBits r 3 47 0) 64 { w := true } = .ok)
      (fun f _ => .stage [.regionPin g p slot (reqBits r 3 47 0)] [slot + ((f.part p).pins.look {} slot).gen * 64])) ∧
    FailsWith (.regionPin i r) 0xD2 0 i r (fun f _ => open_ f ∧ (f.region g).home ≠ p ∧ (f.region g).readers.getLsbD p = false) .perm ∧
    Settles (.regionUnpin i r) 0xD2 1 i r (fun f u => ((f.part p).pins.look {} k).held = true ∧
        ((f.part p).pins.look {} k).gen = reqBits r 2 15 6 ∧ u.spineGone = false) (fun _ _ => .stage [.regionUnpin p k] []) ∧
    FailsWith (.regionUnpin i r) 0xD2 1 i r (fun f _ => ((f.part p).pins.look {} k).held = false) .range ∧
    (∀ bs, Settles (.regionPublish i r) 0xD3 0 i r (fun f u =>
        u.readIssuer (.owner (Fin.ofNat 64 p)) (reqBits r 4 47 0) (8 * n) = .ok bs ∧
        (bytesWords n bs).any (fun w => bits w 31 25 ≠ 0 || bits w 63 33 ≠ 0) = false ∧ open_ f ∧ (f.region g).home = p ∧
        (reqWord r 3).toNat = (f.region g).version ∧ (f.region g).versions.length < 16 ∧ (f.region g).version ≠ 0xFFFFFFFE ∧
        n ≤ (f.region g).frames ∧ badUpdate (f.region g) (updateList bs n) = none ∧
        (index = 0x1FFFFFF ∨ liveAfter (f.region g) (updateList bs n) index = true))
      (fun f _ => .hold [.regionPublish g ((f.region g).version + 1) index (updateList bs n)])
      (fun f u => (u.cleanIssuer (.owner (Fin.ofNat 64 p)) (reqBits r 4 47 0) (8 * n)).onRegion g (fun y => { y with
        version := (f.region g).version + 1
        versions := y.versions ++ [{ num := (f.region g).version + 1, index := index }]
        publishing := y.publishing ++ [((f.region g).version + 1, index, 0, reqTag r)] }))) ∧
    Settles (.regionPublish i r) 0xD3 0 i r (fun f _ => open_ f ∧ (f.region g).home = p ∧ (reqWord r 3).toNat ≠ (f.region g).version)
      (fun f _ => .fail .conflict [(f.region g).version])

/-- R41, R66, R203 to R205, R299, R300, R310 to R315, R456, R506, R511: mailbox bindings and their lock, programs, attestation, the role swap, staged
firmware, memory targets and retirements, and the error log: each stages its change, holds or goes on in the background where its checks pass. -/
def Obligations.mailbox_program_and_memory_instructions : Prop :=
  ∀ (i : Issuer) (r : CtrlReq),
    let p := reqPart r
    let slot := reqBits r 2 7 0
    let who := fun (n : Nat) => n ≤ 4 ∨ (64 ≤ n ∧ n < 128)
    let tx := (reqWord r 3).toNat
    let rx := (reqWord r 4).toNat
    let pa := reqBits r 3 45 0
    let st := reqBits r 4 4 0
    let other := fun (u : State) => 1 - (u.lease u.activeHalf).holder
    Settles (.mbxBind i r) 0xD4 0 i r (fun f _ => f.ctl.locked = false ∧ who tx ∧ who rx) (fun _ _ => .stage [.bind (reqBits r 2 6 0) tx rx] []) ∧
    FailsWith (.mbxBind i r) 0xD4 0 i r (fun f _ => f.ctl.locked = true) .conflict ∧
    Settles (.mbxLock i r) 0xD4 1 i r (fun _ _ => True) (fun _ _ => .stage [.lock] []) ∧
    Settles (.progLoad i r) 0xD6 0 i r (fun f u => ((f.part p).progs.look {} slot).img = none ∧
      u.ctl.background.any (fun b => b.op = 0xD6 && reqPart b.req = p && reqBits b.req 2 7 0 = slot) = false) (fun _ _ => .background) ∧
    FailsWith (.progLoad i r) 0xD6 0 i r (fun f _ => ((f.part p).progs.look {} slot).img ≠ none) .conflict ∧
    Settles (.progUnload i r) 0xD6 1 i r (fun f _ => ((f.part p).progs.look {} slot).img ≠ none ∧
      ((f.part p).progs.look {} slot).gen = reqBits r 2 15 8) (fun _ _ => .stage [.progUnload p slot] []) ∧
    FailsWith (.progUnload i r) 0xD6 1 i r (fun f _ => ((f.part p).progs.look {} slot).img = none) .range ∧
    Settles (.attest i r) 0xD7 0 i r (fun _ _ => True) (fun _ _ => .background) ∧
    Settles (.roleSwap i r) 0xD8 0 i r (fun _ u => (u.stake (other u)).st ≠ .failed ∧ (u.stake (other u)).passDone = true ∧
      u.auth.handover = none ∧ u.auth.staging = none ∧ u.auth.writing = none) (fun _ _ => .hold [])
      (fun _ u => u.onAuth (fun a => { a with handover := some (other u, some (reqTag r)) })) ∧
    FailsWith (.roleSwap i r) 0xD8 0 i r (fun _ u => (u.stake (other u)).st = .failed) .conflict ∧
    FailsWith (.roleSwap i r) 0xD8 0 i r (fun _ u => (u.stake (other u)).st ≠ .failed ∧ (u.stake (other u)).passDone = false) .busyRetry ∧
    Settles (.fwStage i r) 0xD9 0 i r (fun _ u => u.auth.staging = none) (fun _ _ => .background)
      (fun _ u => u.onAuth (fun a => { a with staging := some (reqBits r 2 31 0, reqBits r 3 31 0, []), stagedImage := none })) ∧
    FailsWith (.fwStage i r) 0xD9 0 i r (fun _ u => u.auth.staging ≠ none) .busyRetry ∧
    Settles (.memTarget i r) 0xDB 0 i r (fun _ _ => reqBits r 2 5 0 ≤ 54 ∧ 10 ≤ reqBits r 2 31 16 ∧ reqBits r 2 31 16 ≤ 1000)
      (fun _ _ => .stage [.target (reqBits r 2 5 0) (reqBits r 2 31 16)] []) ∧
    FailsWith (.memTarget i r) 0xDB 0 i r (fun _ _ => 54 < reqBits r 2 5 0 ∨ reqBits r 2 31 16 < 10 ∨ 1000 < reqBits r 2 31 16) .range ∧
    Settles (.memTargetRebuildShare i r) 0xDB 1 i r (fun _ _ => 1 ≤ reqBits r 2 14 8 ∧ reqBits r 2 14 8 ≤ 100)
      (fun _ _ => .stage [.rebuildShare (reqBits r 2 0 0) (reqBits r 2 14 8)] []) ∧
    Settles (.memRetire i r) 0xDC 0 i r (fun f _ => reqBits r 2 1 0 = 0 ∧ pa % 4096 = 0 ∧ pa < paEnd ∧
        (halfOff pa < metaOff ∨ metaOff + 0x4000000 ≤ halfOff pa) ∧
        (f.half (homeHalf pa)).pages.length + (f.half (homeHalf pa)).copies.length < 16384 ∧
        (f.half (homeHalf pa)).pages.any (fun e => e.1 = pa) = false ∧ (f.half (homeHalf pa)).copies.any (fun c => c.page = pa) = false)
      (fun _ _ => .stage [.retirePage pa] []) ∧
    Settles (.memRetire i r) 0xDC 0 i r (fun f _ => reqBits r 2 1 0 = 2 ∧ st ≤ 19 ∧ (f.stack st).failed = false ∧
        st ∉ (f.half (st / 10)).failing ∧ (f.half (st / 10)).moving = none) (fun _ _ => .stage [.retireStack st] []) ∧
    FailsWith (.memRetire i r) 0xDC 0 i r (fun _ _ => reqBits r 2 1 0 = 3) .range ∧
    Settles (.errRead i r) 0xDD 0 i r (fun _ _ => 1 ≤ reqBits r 4 6 0 ∧ reqBits r 4 6 0 ≤ 64) (fun _ _ => .background) ∧
    FailsWith (.errRead i r) 0xDD 0 i r (fun _ _ => reqBits r 4 6 0 = 0 ∨ 64 < reqBits r 4 6 0) .range

/-- R303, R314: the issuer's background instruction whose work has ended settles with its outcome and is marked done; work that waits goes on;
without one, or without the lease, nothing changes.
R57, R297, R298: the issuer's first result that may leave does so once: to the operator as a CTRL_RESULT of 8 words over the rim, the stake reads it,
and an owner gets it on its flow; with none, nothing changes. A result whose change is not recorded, or whose boundary has not come, does
not leave. -/
def Obligations.background_work_and_results : Prop :=
  (∀ (i : Issuer) (s : State) (b : Background), s.leaseHeld = true →
      s.ctl.background.find? (fun b => b.issuer = i && !b.done) = some b →
      let mark := fun (t : State) => t.onCtl (fun c => { c with
        background := c.background.map (fun y => if y.issuer = i then { y with done := true } else y) })
      let row := fun (op : Nat) (go : State → State → Issuer → CtrlReq → CtlOut × State) => b.op = op →
        (∀ t st rs, go s.future s i b.req = (.fail st rs, t) →
          exec (.backgroundInstructionDone i) s = .next ((mark t).settleCtl i b.req (.fail st rs))) ∧
        (∀ t rs, go s.future s i b.req = (.done rs, t) → exec (.backgroundInstructionDone i) s = .next ((mark t).settleCtl i b.req (.done rs))) ∧
        (∀ t cs rs, go s.future s i b.req = (.stage cs rs, t) →
          exec (.backgroundInstructionDone i) s = .next ((mark t).settleCtl i b.req (.stage cs rs))) ∧
        (∀ t, go s.future s i b.req = (.wait, t) → exec (.backgroundInstructionDone i) s = .next t)
      row 0xD6 bgProgLoad ∧ row 0xD7 bgAttest ∧ row 0xDD bgErrRead ∧ row 0xD9 bgFwStage) ∧
  (∀ (i : Issuer) (s : State) (r : Result), s.leaseHeld = true → s.ctl.results.find? (s.mayLeave i) = some r →
      let u := { s with ctl := { s.ctl with
        results := s.ctl.results.erase r
        sent := if r.effect ≠ 0 then s.ctl.sent ++ [r] else s.ctl.sent
        background := s.ctl.background.filter (fun b => !(b.issuer = i && b.done && reqTag b.req = r.tag && b.op = r.opcode)) } }
      (i = .stake → exec (.controlResultReturn i) s = .next u) ∧
      (i = .operator → exec (.controlResultReturn i) s = .next (u.toHost { type := 0x07, dir := true, len := 8, payload := r.words })) ∧
      (∀ p q, i = .owner p → s.requestOf p.val r.tag = some q →
        exec (.controlResultReturn i) s = .next (u.sendReply p.val (u.flowHome q.srcEp p.val)
          { cls := 3, opcode := 0xC1, part := p.val, tag := q.tag, srcEp := s.rnd.endpoint, dstEp := q.srcEp, units := 1,
            payload := wordBytes r.words })) ∧
      (∀ x, s.mayLeave i x = true → x.ready = true ∧ x.issuer = i ∧ x.notBefore ≤ s.rnd.counter))

/-! ### Translation, migration, extents and scrub -/

/-- R111 to R116, R126, R177: a walker of a working die that takes walks of that source finishes the walk of a live partition with the
outcome of R111, after reading its table entries; a page that is found leaves its block in the die's walk cache and touches its half, and
for a fabric request it enters the link die's translation cache; a remote-backed page starts its migration; a line that an agent holds, or
a half asleep, is asked for; a walk that the die does not take changes nothing.
R127, R129, R130, R433: a piece of a migrating page lands once in its frames, touching its half, and more is asked for; a read that the
peer refused waits for its timeout, and one that failed in its transport is sent again up to three times; the migration whose last byte has landed rewrites the leaf it read, unless that has changed, ends, and what waited goes on.
R135, R138, R141, R142: at D + 8 a DRAINING extent has its unfinished work cancelled and its lines swept, and loses its pins; at D + 10 it
enters SCRUBBING with every block it has to be scrubbed, but those that are retired, and is no holder's root; with none left it is FREE,
its blocks standing in its entry until the next grant. Before, nothing changes. -/
def Obligations.walks_migrations_and_extents : Prop :=
  (∀ (k : Fin 48) (p : PartId) (pva : Nat) (need : Rights) (src : WalkSrc) (s : State),
      let d := k.val / 12
      let o := s.walk p.val pva need
      let u := (s.onWalker k.val (fun _ => { part := p.val, pva := pva, out := some o })).noteWalk d p.val pva o
      ((s.die d).ok = true → (s.part p.val).live = true → s.walksOn src pva d = true →
        (∀ pa e n, o = .pa pa e n →
          (∃ c rest, (u.die d).blockCache = c :: rest ∧ c.part = p.val ∧ c.ext = e ∧ c.pa = blockPa (paBlock pa)) ∧
          (∀ ld, src = .fabric ld →
            let v := u.touch pa
            let c : Cached := {
              part := p.val, level := 1, pva := pva / n * n, size := n, ext := e, pa := pa - pva % n
              rights := (((v.fetches p.val pva).getLast?).map (·.rights)).getD {} }
            exec (.pageWalk k p pva need src) s = .next (v.onNet (fun x => if ld.val = 0
              then { x with fabCache0 := (c :: x.fabCache0.filter (· ≠ c)).take 4096 }
              else { x with fabCache1 := (c :: x.fabCache1.filter (· ≠ c)).take 4096 }))) ∧
          ((∀ ld, src ≠ .fabric ld) → exec (.pageWalk k p pva need src) s = .next (u.touch pa))) ∧
        (∀ epa e x page v, o = .migrate epa e x page → u.startMigration p.val pva epa e x page = some v →
          exec (.pageWalk k p pva need src) s = .next v) ∧
        (∀ pa, o = .blocked pa → exec (.pageWalk k p pva need src) s = .next ((u.touch pa).cleanLine pa)) ∧
        (∀ c l, o = .fault c l → exec (.pageWalk k p pva need src) s = .next u)) ∧
      ((s.die d).ok = false ∨ (s.part p.val).live = false ∨ s.walksOn src pva d = false →
        exec (.pageWalk k p pva need src) s = .next s) ∧
      (∀ h i, src = .stroke h i → (s.walksOn src pva d = true ↔
        d = (if (s.die (2 * h.val + i.val % 2)).ok then 2 * h.val + i.val % 2 else partner (2 * h.val + i.val % 2)))) ∧
      (∀ ld, src = .fabric ld → (s.walksOn src pva d = true ↔
        d = (if (s.die (2 * ld.val + pva / 2097152 % 2)).ok then 2 * ld.val + pva / 2097152 % 2
          else partner (2 * ld.val + pva / 2097152 % 2))))) ∧
  (∀ (p : PartId) (pva offset load : Nat) (data : List Byte) (s : State) (m : Migration),
      s.migrations.find? (fun m => m.part = p.val && m.pva = pva && m.running) = some m →
      let dest := s.framePa m.ext (m.entry / 2 ^ 26 % 2 ^ 28 + offset / 4096) + offset % 4096
      (offset ∉ m.landed → offset % 1024 = 0 → offset < m.asked → data.length = 1024 →
        exec (.dataNc p pva offset data load) s = .next (((((s.each (nums (dest / 64) 16) (fun s l => s.touch (l * 64))).deviceWrite dest data).onNet (fun n => { n with
          out := n.out.filter (fun q => !(q.part = p.val && q.pva = pva && q.off = offset)) })).onMigration p.val pva (fun m => { m with
            landed := m.landed ++ [offset], left := m.left - 1024, maxLoad := max m.maxLoad (load % 16) })).askPeer p.val pva 64)) ∧
      (offset ∈ m.landed ∨ data.length ≠ 1024 → exec (.dataNc p pva offset data load) s = .next s) ∧
      (m.left = 0 → s.heldAway m.entryPa 8 = false →
        (s.readWord m.entryPa = (BitVec.ofNat 64 m.entry, false) → m.entry < 2 ^ 64 →
          exec (.migrationComplete p pva) s = .next (((s.deviceWrite m.entryPa (toBytes 8
            (m.entry % 2 ^ 55 - (if m.entry / 32 % 2 = 1 then 32 else 0)))).endMigration m).retryHosts)) ∧
        ((s.readWord m.entryPa).1.toNat ≠ m.entry → exec (.migrationComplete p pva) s = .next (s.endMigration m).retryHosts)) ∧
      (m.left ≠ 0 → exec (.migrationComplete p pva) s = .next s) ∧
      (∀ q st, s.net.out.find? (fun q => q.part = p.val && q.pva = pva && !q.failed) = some q →
        (st ≠ none ∨ q.sent + s.rst.timeout ≤ s.rnd.counter → exec (.migrationReadFail p pva st) s = .next (s.readFailed q st)) ∧
        (st = none → s.rnd.counter < q.sent + s.rst.timeout → exec (.migrationReadFail p pva st) s = .next s) ∧
        (q.resends < 3 → q.part = p.val → q.pva = pva →
          (∀ x, s.readFailed q (some x) = s.onNet (fun n => { n with out := n.out.map (fun y =>
            if y.tag = q.tag then { y with why := some x, failed := true } else y) })) ∧
          s.readFailed q none = (s.onNet (fun n => { n with out := n.out.map (fun x =>
            if x.tag = q.tag then { x with sent := s.rnd.counter, resends := x.resends + 1, failed := false } else x) })).originate
              q.part q.ld q.pkt true))) ∧
  (∀ (e : Nat) (s : State),
      let x := s.extent e
      let bs := x.blocks.map (·.block)
      (x.st = .draining → x.swept = false → x.since + 8 ≤ s.rnd.counter →
        exec (.extentDrainLimit e) s = .next ((((s.cancelBulk (fun o => o.uses e) .revoked).cancelWork bs (fun _ => true)).sweepBlocks bs).onExtent e
          (fun x => { x with pins := 0, swept := true }))) ∧
      (x.st ≠ .draining ∨ x.swept = true ∨ s.rnd.counter < x.since + 8 → exec (.extentDrainLimit e) s = .next s) ∧
      (x.st = .draining → x.swept = true → x.since + 10 ≤ s.rnd.counter →
        Goes (exec (.extentScrubbingEntry e) s) (fun t =>
          t.extent e = { x with
            st := .scrubbing, stateRound := s.rnd.counter, certified := 0, root := false, region := none
            undone := ((x.blocks.filter (fun b => !b.lost)).map (·.block)).filter (fun b => (t.pool x.half).blockState b != .retired) } ∧
          (∀ k, k ≠ e → t.extent k = s.extent k) ∧ t = { s with extents := t.extents, pool0 := t.pool0, pool1 := t.pool1 })) ∧
      (x.st ≠ .draining ∨ x.swept = false ∨ s.rnd.counter < x.since + 10 → exec (.extentScrubbingEntry e) s = .next s) ∧
      (x.st = .scrubbing → x.undone = [] →
        Goes (exec (.extentFree e) s) (fun t => t.extent e = { x with st := .free, stateRound := s.rnd.counter } ∧
          (∀ k, k ≠ e → t.extent k = s.extent k) ∧ t = { s with extents := t.extents })) ∧
      (x.st ≠ .scrubbing ∨ x.undone ≠ [] → exec (.extentFree e) s = .next s))

/-- R146, R147: a block that scrub has written whole and that reads back is certified at the next boundary, or, when it was CLEAN, has a new round of
certification; the first failure scrubs it again with a SCRUB_READBACK record.
R24, R166, R179 to R184, R188, R192, R193: a read of a line takes its turn and its row, the symbols that its stack returns are decoded, and it is
delivered clean; corrected, with a CE record and a write-back; or with its poison mark in SERVICE, and otherwise as a bus error. An
uncorrectable line waits for its reconstruction, but in TEST it gives a bus error. An error at its verify read marks the line's record
HARD, with a HARD_LINE record the first time. A pool address that is not backed stops the machine.
R169, R170, R185 to R189: once every write held for the rand has drained, reconstruction of a line that the rand's other units give
restores it, logs UE_RECONSTRUCTED but for a unit on a failed stack, writes it back and delivers it; where they do not, the line is
poisoned in SERVICE with a record. A marked line is never reconstructed. The coalescing buffer releases a rand, and the parity unit takes
its deltas. -/
def Obligations.pool_line_reads_and_scrub : Prop :=
  (∀ (h : HalfId) (s : State) (c : ScrubCur), (s.pool h.val).cur = some c →
      (8 ≤ c.done → c.rewrite = false →
        Goes (exec (.scrubBlockReadback h true) s) (fun t => t.pool h.val = { s.pool h.val with
          cur := none, certNow := (s.pool h.val).certNow ++ [(c.block, c.granted)] } ∧ t = { s with pool0 := t.pool0, pool1 := t.pool1 })) ∧
      (8 ≤ c.done → c.rewrite = true →
        Goes (exec (.scrubBlockReadback h true) s) (fun t => t.pool h.val = { s.pool h.val with
          cur := none, certAt := (s.pool h.val).certAt.put 0 c.block (s.rnd.counter + 1) } ∧ t = { s with pool0 := t.pool0, pool1 := t.pool1 })) ∧
      (8 ≤ c.done → c.failed = false →
        exec (.scrubBlockReadback h false) s = .next ((s.onPool h.val (fun q => { q with cur := some { c with done := 0, failed := true } })).logErr h.val
          { type := 0x08, source := 5, write := true, pa := blockPa c.block, loc := s.lineWord (blockPa c.block) })) ∧
      (8 ≤ c.done → c.failed = true →
        let live := (s.extentsOf c.block).filter (fun e => (s.extent e).st == .active || (s.extent e).st == .draining)
        let u := ((s.persistChange.onPool h.val (fun q => { q.setBlock c.block .retired with
          cur := none, marked := q.marked.filter (· ≠ c.block) })).logErr h.val
            { type := 0x0E, source := 5, write := true, pa := blockPa c.block, loc := s.lineWord (blockPa c.block) }).scrubDone c.block false
        (live = [] → exec (.scrubBlockReadback h false) s = .next u) ∧
        (∀ e rest, live = e :: rest → exec (.scrubBlockReadback h false) s = .next (u.substitute h.val e c.block))) ∧
      (c.done < 8 → ∀ pass, exec (.scrubBlockReadback h pass) s = .next s)) ∧
  (∀ (pa : Nat) (err : SymErrs) (came : Option Nat) (src : LogSource) (p : PartId) (w : Bool) (s : State),
      let a := s.mapPa (pa / 64 * 64)
      let line := pa / 64 * 64
      let u := (s.drainLine pa).takeTurn pa src.val (s.sourcePort pa src) w false
      let ss := u.returned (came.getD pa) err
      let syn := u.syndromeOf pa ss
      let d := u.decoded pa ss
      (pa < paEnd → s.rst.mode.runs = true → s.halfDead (homeHalf pa) = false → s.unitLost pa = false →
        (d.1 = .clean → exec (.memReadDecode pa err came src ⟨p, w⟩) s = .next (u.emit (.lineRead pa src.val (some (d.2, false))))) ∧
        (∀ n, d.1 = .ce n → exec (.memReadDecode pa err came src ⟨p, w⟩) s =
          .next (((u.logErr (homeHalf pa) (u.lineRec 0x01 pa src p.val n 0 syn w)).writeBack pa d.2).emit (.lineRead pa src.val (some (d.2, false))))) ∧
        (d.1 = .mark → u.rst.mode = .service →
          exec (.memReadDecode pa err came src ⟨p, w⟩) s = .next (u.emit (.lineRead pa src.val (some (d.2, true))))) ∧
        (d.1 = .mark → u.rst.mode ≠ .service → exec (.memReadDecode pa err came src ⟨p, w⟩) s = .next (u.busErr pa src p syn w)) ∧
        (d.1 = .ue → u.rst.mode = .test → exec (.memReadDecode pa err came src ⟨p, w⟩) s = .next ((u.countUe pa).busErr pa src p syn w)) ∧
        (d.1 = .ue → u.rst.mode ≠ .test → exec (.memReadDecode pa err came src ⟨p, w⟩) s = .next u)) ∧
      (pa < paEnd → a / 64 ∈ (s.half (homeHalf a)).verify →
        let v := s.onHalf (homeHalf a) (fun x => { x with verify := setDel x.verify (a / 64) })
        let ds := v.decoded pa (v.returned pa err)
        let known := (v.half (homeHalf a)).log.any (fun r => r.pa = line && r.type == 0x07)
        (ds.1 = .clean → exec (.verifyRead pa err) s = .next v) ∧
        ∀ y, ds.1 ≠ .clean → (v.half (homeHalf a)).log.reverse.find? (fun r => r.pa = line && (r.type == 0x01 || r.type == 0x02)) = some y →
          let z := v.onHalf (homeHalf a) (fun x => { x with log := x.log.map (fun r => if r.seq = y.seq then { r with hard := true } else r) })
          (known = true → exec (.verifyRead pa err) s = .next z) ∧
          (known = false → exec (.verifyRead pa err) s = .next (z.logErr (homeHalf a)
            { z.lineRec 0x07 pa 8 0 0 0 (z.syndromeOf pa (v.returned pa err)) false with hard := true }))) ∧
      (a / 64 ∉ (s.half (homeHalf a)).verify → pa < paEnd → exec (.verifyRead pa err) s = .next s) ∧
      (paEnd ≤ pa → ∀ bad, exec (.memReadDecode pa err came src ⟨p, w⟩) s = .fault (.unbackedAddress pa) ∧
        exec (.verifyRead pa err) s = .fault (.unbackedAddress pa) ∧
        exec (.reconstruction pa ⟨err, bad⟩ src ⟨p, w⟩) s = .fault (.unbackedAddress pa))) ∧
  (∀ (pa : Nat) (err : SymErrs) (badUnits : List (Fin 9)) (src : LogSource) (p : PartId) (w : Bool) (h : HalfId) (rand : Nat) (s : State),
      let a := s.mapPa (pa / 64 * 64)
      let k := homeHalf a
      let r := randOf a
      let u := unitOf a
      let l := a / 64 % 4
      let bad := badUnits.map (·.val)
      let v0 := (s.releaseRand k r).onMem (fun m => m.applyDeltas k r)
      let lost := decide (u ∈ v0.lostUnits k r)
      let v := if lost then v0 else v0.countUe pa
      let syn := if lost then 0 else v0.syndromeOf pa (v0.returned pa err)
      (pa < paEnd → s.rst.mode = .service → s.halfDead k = false → a / 64 ∉ s.mem.poison →
        (v.canReconstruct k r u l bad = true →
          let x := (v.ownerEvent p.val 0x00D false 1).opEvent 0x105 { source := some src.val, pa := some pa, part := some p.val }
          let bs := x.mem.reconstruct k r u l
          exec (.reconstruction pa ⟨err, badUnits⟩ src ⟨p, w⟩) s = .next ((if lost then x
            else (x.logErr k (x.lineRec 0x02 pa src p.val 0 0 syn w)).writeBack pa bs).emit (.lineRead pa src.val (some (bs, false))))) ∧
        (v.canReconstruct k r u l bad = false → v.rst.mode = .service →
          let x := v.poisonLines k r l (u :: bad)
          exec (.reconstruction pa ⟨err, badUnits⟩ src ⟨p, w⟩) s = .next ((x.logErr k
            (x.lineRec 0x03 pa src p.val 0 Status.poison.code syn w)).emit (.lineRead pa src.val (some (List.replicate 64 0, true)))))) ∧
      (pa < paEnd → a / 64 ∈ s.mem.poison → exec (.reconstruction pa ⟨err, badUnits⟩ src ⟨p, w⟩) s = .next s) ∧
      exec (.coalesceRelease h rand) s = .next (s.releaseRand h.val rand) ∧
      exec (.parityDeltaUpdate h rand) s = .next { s with mem := s.mem.applyDeltas h.val rand })

/-! ### Stored data -/

/-- R168, R172, R173: a due refresh is postponed, up to 8, at the stack's rate, and none before its time; a bank without an open row and without a
queued request, or with 8 postponed, is refreshed and its row closes; a row closes at its timeout; above 85 °C the rate doubles, at 83 °C and below it is single again, and between it stays.
R175 to R178: a half without a touch in 1,000 rounds, whose stacks have nothing to do, enters self-refresh; 50 µs after the touch it is active and
what was held proceeds; metadata is flushed at three quarters of its buffer and at a checkpoint. -/
def Obligations.rows_refresh_and_self_refresh : Prop :=
  (∀ (b : BankId) (st : StackId) (temp : Nat) (s : State),
      let x := s.bankSt b
      ((s.half (bankHalf b)).refresh ≠ .asleep → x.due ≤ s.cnt.clock / 17 + 100 * s.rnd.micros →
        exec (.refreshDue b) s = .next (s.onBank b (fun x => { x with
          postponed := min 8 (x.postponed + 1), fast := (s.stack b.stack.val).hot
          due := x.due + (if (s.stack b.stack.val).hot then 195 else 390) }))) ∧
      ((s.half (bankHalf b)).refresh = .asleep ∨ s.cnt.clock / 17 + 100 * s.rnd.micros < x.due → exec (.refreshDue b) s = .next s) ∧
      (0 < x.postponed → x.postponed < 8 → x.row = none → s.bankQueued b = false →
        exec (.bankRefresh b) s = .next (s.onBank b (fun x => { x with postponed := x.postponed - 1, row := none }))) ∧
      (8 ≤ x.postponed →
        exec (.bankRefresh b) s = .next ((s.opEvent 0x104 {}).onBank b (fun x => { x with postponed := x.postponed - 1, row := none }))) ∧
      (x.postponed = 0 ∨ (x.postponed < 8 ∧ (x.row ≠ none ∨ s.bankQueued b = true)) → exec (.bankRefresh b) s = .next s) ∧
      exec (.rowCloseTimeout b) s = .next (s.onBank b (fun x => { x with row := none })) ∧
      Goes (exec (.refreshRateSwitch st temp) s) (fun t =>
        (85 < temp → (t.stack st.val).hot = true) ∧ (temp ≤ 83 → (t.stack st.val).hot = false) ∧
        (83 < temp → temp ≤ 85 → (t.stack st.val).hot = (s.stack st.val).hot) ∧
        (∀ k, k ≠ st.val → t.stack k = s.stack k) ∧ t = { s with stackTab := t.stackTab })) ∧
  (∀ (h : HalfId) (s : State),
      let x := s.half h.val
      let still := (s.pool h.val).anyDirty = false ∧ x.rebuilding = false ∧ x.moving = none ∧ x.copies = [] ∧ s.stacksBusy h.val = false ∧
        s.dir.any (fun e => homeHalf (e.1 * 64) = h.val && e.2.st == .busy) = false
      (1000 ≤ x.idle → x.touched = false → (x.refresh = .active ∨ x.refresh = .flushing) → still →
        exec (.selfRefreshEntry h) s = .next (s.onHalf h.val (fun x => { x with refresh := .asleep }))) ∧
      (x.idle < 1000 ∨ x.touched = true ∨ x.rebuilding = true ∨ x.copies ≠ [] ∨ s.stacksBusy h.val = true → exec (.selfRefreshEntry h) s = .next s) ∧
      (x.refresh = .waking → 50 < (s.rnd.counter - x.wakeFrom + 1) * s.rnd.micros →
        exec (.selfRefreshExit h) s = .next (s.onHalf h.val (fun y => { y with refresh := .active, touched := true })).retryHosts) ∧
      (x.refresh ≠ .waking ∨ (s.rnd.counter - x.wakeFrom + 1) * s.rnd.micros ≤ 50 → exec (.selfRefreshExit h) s = .next s) ∧
      (x.refresh = .asleep → (3145728 ≤ x.metaBuf ∨ s.rnd.counter % 4096 = 0) →
        exec (.metadataFlush h) s = .next (s.onHalf h.val (fun x => { x with refresh := .flushing, metaBuf := 0 }))) ∧
      (x.refresh ≠ .asleep → exec (.metadataFlush h) s = .next s))

/-! ### Failures -/

/-- R341, R345, R348, R356, R357: a fence stops an active weaver with its cause: its stroke completes with DEAD_AGENT and its deque is offered again; a
corrected scratch error is counted; an uncorrectable one poisons its line, and the fourth line within 4,096 rounds fences with cause 3; a
register parity error ends the stroke with POISON, and the fourth fences with cause 4.
R158 to R161, R217, R359: a weave die that is declared failed has every active weaver fenced with cause 7 and loses its bridge; after the next
boundary its partner takes its stacks, strokes, bulk work and directory slice, and what its controllers held goes back to the ports; the
resynchronisation rewrites the parity of every open write intent of those stacks, after which the ports send what they hold.
R195, R196, R206 to R214: a transfer that its replays save is counted on its path, and one that fails four times is exhausted; a stack that is
fatal, or silent on both ports twice, is declared failed, and one already failed is not; the rebuild restores the rand at its cursor; the
copy of a retired page, with its marks, ends with the page mapped to its replacement, and what was held goes on; a retiring bank moves unit by unit. -/
def Obligations.failed_weavers_dies_paths_and_stacks : Prop :=
  (∀ (w : WeaverId) (cause addr : Nat) (s : State),
      let x := s.weaver w.val
      let line := addr / 64
      let lines := (x.ueLines.filter (fun u => u.1 ≠ line && decide (s.rnd.counter < u.2 + 4096))) ++ [(line, s.rnd.counter)]
      let hit := s.onWeaver w.val (fun x => { x with run := x.run.map (fun y => { y with poison := setAdd y.poison line }), ueLines := lines })
      exec (.weaverFence w cause) s = .next (s.fenceWeaver w.val cause) ∧
      (x.st ≠ .active → s.fenceWeaver w.val cause = s) ∧
      (x.st = .active → x.run = none → x.deque = [] → (∀ q ∈ s.poolReqs, q.weaver = w.val → q.stage ≠ .engine) →
        Goes (exec (.weaverFence w cause) s) (fun t =>
        t.weaver w.val = { x with st := .fenced, cause := cause, stateRound := s.rnd.counter } ∧
        (∀ v, v ≠ w.val → t.weaver v = s.weaver v) ∧ t = { s with weavers := t.weavers })) ∧
      exec (.scratchError w addr false) s = .next (s.onWeaver w.val (fun x => { x with scratchCe := (x.scratchCe + 1) % 2 ^ 48 })) ∧
      (lines.length < 4 → exec (.scratchError w addr true) s = .next hit) ∧
      (4 ≤ lines.length → exec (.scratchError w addr true) s = .next (hit.fenceWeaver w.val 3)) ∧
      (x.st = .active → x.run ≠ none →
        let u := (s.faultRun w.val .poison).onWeaver w.val (fun x => { x with
          regErrs := (x.regErrs.filter (fun r => decide ((s.faultRun w.val .poison).now < r + 4096))) ++ [(s.faultRun w.val .poison).now] })
        ((u.weaver w.val).regErrs.length < 4 → exec (.registerParityError w) s = .next u) ∧
        (4 ≤ (u.weaver w.val).regErrs.length → exec (.registerParityError w) s = .next (u.fenceWeaver w.val 4))) ∧
      (x.st ≠ .active ∨ x.run = none → exec (.registerParityError w) s = .next s)) ∧
  (∀ (d : DieId) (s : State),
      ((s.die d.val).ok = true → (s.die d.val).failed = none →
        exec (.weaveDieFailed d) s = .next (((s.persistChange.onDie d.val (fun x => { x with failed := some s.rnd.counter })).each
          (dieWeavers d.val) (fun s w => s.onWeaver w (fun x =>
            if x.st = .active then { x with st := .fenced, cause := 7, stateRound := s.now } else x))).dropBridge (d.val % 2))) ∧
      ((s.die d.val).ok = false ∨ (s.die d.val).failed ≠ none → exec (.weaveDieFailed d) s = .next s) ∧
      (∀ f, (s.die d.val).ok = true → (s.die d.val).failed = some f → f < s.rnd.counter →
        let u := (s.onDie d.val (fun x => { x with ok := false, resync := (s.die (partner d.val)).ok })).each (dieStacks d.val)
          (fun s n => s.onStack n (fun y => { y with secondary := true }))
        exec (.failoverTakeover d) s = .next ((((((u.dieStrokes d.val).dieBulk d.val).onHalf (d.val / 2)
          (fun y => { y with holdsCh6 := false })).backToPorts (dieStacks d.val)).dieBuffer d.val).resnoop d.val)) ∧
      ((s.die d.val).ok = false ∨ (s.die d.val).failed = none → exec (.failoverTakeover d) s = .next s) ∧
      (∀ mine, mine = (if (s.die d.val).resync then dieStacks d.val else (dieStacks d.val).filter (fun n => (s.stack n).resync)) →
        ((s.die d.val).resync = true ∨ (dieStacks d.val).any (fun n => (s.stack n).resync) = true) →
        exec (.failoverResyncDone d) s = .next ((((s.each (s.mem.intents.filter (fun x => decide (x.1 ∈ mine)))
          (fun s x => s.rewriteParity (x.1 / 10) x.2)).each mine (fun s n => s.onStack n (fun y => { y with resync := false }))).onDie d.val
            (fun x => { x with resync := false })).releaseHeld)) ∧
      ((s.die d.val).resync = false → (dieStacks d.val).any (fun n => (s.stack n).resync) = false →
        exec (.failoverResyncDone d) s = .next s)) ∧
  (∀ (h : HalfId) (st : StackId) (path : Nat) (kind : PathKind) (x : Transfer) (tries : List (List (U32 × Bool)))
        (bad : List (Fin 4 × Fin 9)) (s : State),
      let y := s.half h.val
      let fails := ((tries.take 4).takeWhile (fun t => !t.all wordOk)).length
      let kept := s.onCnt (fun c => { c with sent := c.sent.mod [] path (fun l => (l ++ [x]).drop (l.length + 1 - 64)) })
      (fails = 0 → exec (.parityMismatch path kind x tries) s = .next kept) ∧
      (1 ≤ fails → fails < 4 →
        exec (.parityMismatch path kind x tries) s = .next (kept.onCnt (fun c => { c with replay := c.replay.bump path }))) ∧
      (4 ≤ fails → exec (.parityMismatch path kind x tries) s = .next (kept.exhaust path kind x)) ∧
      ((s.stack st.val).failed = false →
        exec (.stackFailed st .fatal) s = .next (s.onHalf (st.val / 10) (fun z => { z with failing := setAdd z.failing st.val })) ∧
        (2 ≤ (s.stack st.val).missP → 2 ≤ (s.stack st.val).missS → exec (.stackFailed st .missedExchanges) s =
          .next (s.onHalf (st.val / 10) (fun z => { z with failing := setAdd z.failing st.val }))) ∧
        ((s.stack st.val).missP < 2 → exec (.stackFailed st .missedExchanges) s = .next s)) ∧
      ((s.stack st.val).failed = true → ∀ cause, exec (.stackFailed st cause) s = .next s) ∧
      (y.rebuilding = true → 100 ≤ y.credit → y.holdsCh6 = true → y.moving = none → y.cursor < randCount →
        let c := s.skipRands h.val 64 y.cursor
        let r := rebuildRandAt c
        ∀ u, c < randCount → s.toRebuild h.val r = some u →
          let v := ((s.serveUrgent h.val).releaseRand h.val r).onMem (fun m => m.applyDeltas h.val r)
          let v := v.each (List.range 9) (fun s k => s.useSlot (slotBank (10 * h.val + s.unitAt h.val r k) r) (randPa h.val r) 6 false)
          exec (.rebuildRand h bad) s = .next ((v.each (List.range 4) (fun s l =>
            s.rebuildLine h.val r u ((bad.filter (fun b => b.1.val = l)).map (·.2.val)) l)).onHalf h.val
              (fun y => { y with cursor := c + 1, credit := y.credit - 100 })) ∧
          ∀ (z : State) (l : Nat), u < 8 → parityLine h.val r l ∉ z.mem.parityPoison →
            z.rebuildLine h.val r u [] l = z.onMem (fun m => m.store (randPa h.val r + u * 256 + l * 64) (m.reconstruct h.val r u l))) ∧
      (y.rebuilding = false ∨ y.credit < 100 → exec (.rebuildRand h bad) s = .next s) ∧
      (∀ c rest, y.copies = c :: rest →
        let dest := h.val * halfBase + metaOff + c.repl * 4096
        let v := s.each [0, 1] (fun s k => s.releaseRand h.val (randOf (c.page + k * 2048)))
        let v := v.each (List.range 64) (fun s k =>
          if (s.newLine (c.page + k * 64)).2 then s.writePoisoned (dest + k * 64) (s.newLine (c.page + k * 64)).1
          else s.writePool (dest + k * 64) (s.newLine (c.page + k * 64)).1)
        exec (.pageRetireCopy h) s = .next ((v.each [0, 1] (fun s k => s.releaseRand h.val (randOf (dest + k * 2048)))).onHalf h.val
          (fun y => { y with copies := rest, pages := y.pages ++ [(c.page, c.repl)] })).releaseHeld) ∧
      (y.copies = [] → exec (.pageRetireCopy h) s = .next s) ∧
      (∀ b n, y.moving = some (b, n) → 131072 ≤ skipSlots b 16 n →
        exec (.bankUnitMove h) s = .next (s.onHalf h.val (fun y => { y with moving := none, banks := y.banks ++ [b] }))) ∧
      (∀ b n, y.moving = some (b, n) → skipSlots b 16 n + 1 < 131072 → 100 ≤ y.credit → y.holdsCh6 = true →
        exec (.bankUnitMove h) s = .next ((s.onHalf h.val (fun y => { y with credit := y.credit - 100 })).onHalf h.val
          (fun y => { y with moving := some (b, skipSlots b 16 n + 1) }))) ∧
      (y.moving = none → exec (.bankUnitMove h) s = .next s))

/-! ### Coherence -/

/-- R122, R166, R220, R223, R225, R388: an agent's coherent request of a legal form whose window check passes takes its turn at each of its lines
and is served at the first: RD_S, RD_X and UPG as requests for a copy, ATOM as a far or an ownership atomic; RD_NC and WR_NC from their
first line on; what a region's frames refuse gets PERM. It waits in the fabric where its ports hold requests or its slice has no credit, and
while its walk waits. A refused check is answered with its status, a window onto doorbells reads as zeros (R69), a misaligned request or one for too
many lines gets RANGE, one for no line gets OK.
R223: what a request meets at a stable line: in U, and for a request that caches nothing or for RD_S in S, no snoop; in S, an invalidation of the
other holders for ownership and of all for a write; in X with another owner, SNP_FWD_S for RD_S, SNP_FWD_X for ownership (SNP_RECALL where
an atomic buffer asks), SNP_RECALL for a write and SNP_CLEAN for a read that caches nothing. A fifth sharer sets OVF. -/
def Obligations.coherent_requests_and_directory : Prop :=
  (∀ (r : FabReq) (p : PartId) (rank : Nat) (s u : State) (l : Nat) (ls : List Nat), r.who = .agent p rank →
      let pva := (s.window r.window).pvaBase + r.offset
      let v := u.onNet (fun n => { n with verPins := n.verPins ++ u.verPinsOf r (l :: ls) })
      let turns := fun (wr : Bool) => v.each (l :: ls) (fun s k => s.takeTurn (k * 64) 0 r.link.val wr r.hint)
      let hits := fun (wr : Bool) => (turns wr).each (l :: ls) (fun s k => s.hitLine p.val k)
      let awake := ∀ k ∈ l :: ls, v.halfDead (homeHalf (k * 64)) = false ∧ v.asleepHalf (homeHalf (k * 64)) = false
      let held := (l :: ls).any (fun k => v.portHeld (k * 64)) = true
      let gate := fun (c : Instr) (o : AgentOp) (served : State) =>
        o.formOk r = true → o.bytes r ≠ 0 →
          (s.fabCheck r p.val rank o = (.ok (l :: ls), u) → awake →
            (¬ held → v.creditless r o l = false → exec c s = .next served.dropVerPins) ∧
            (held → exec c s = .next (v.park { req := r, op := o, pva := pva, lines := some (l :: ls) })) ∧
            (¬ held → v.creditless r o l = true →
              exec c s = .next (v.park { req := r, op := o, pva := pva, lines := some (l :: ls), credit := true }))) ∧
          (s.fabCheck r p.val rank o = (.wait, u) → exec c s = .next (u.park { req := r, op := o, pva := pva })) ∧
          (∀ st retry, st ≠ .revoked → s.fabCheck r p.val rank o = (.bad st retry, u) → exec c s = .next (u.refuse r st retry)) ∧
          (∀ retry, s.fabCheck r p.val rank o = (.bad .revoked retry, u) → exec c s = .next ((u.dropRevoked r).refuse r .revoked retry))
      let copy := fun (c : Instr) (o : AgentOp) (k : PendKind) =>
        ((turns false).linesRefuse r (l :: ls) = false → gate c o ((turns false).cohRequest l r k)) ∧
        ((turns false).linesRefuse r (l :: ls) = true → gate c o ((turns false).refuse r .perm)) ∧
        (o.formOk r = false → exec c s = .next (s.refuse r .range))
      gate (.rdS r) .rdS ((turns false).cohRequest l r .rdS) ∧
      (AgentOp.rdS.formOk r = false → exec (.rdS r) s = .next (s.refuse r .range)) ∧
      copy (.rdX r) .rdX .rdX ∧ copy (.upg r) .upg .upg ∧
      gate (.rdNc r) .rdNc (((hits false).run l r (.rdNc ls [] false)).settleLine l) ∧
      (AgentOp.rdNc.formOk r = false → exec (.rdNc r) s = .next (s.refuse r .range)) ∧
      (AgentOp.rdNc.formOk r = true → r.rdUnits = 0 → exec (.rdNc r) s = .next (s.answer r opDataNc .ok 0 [] false none)) ∧
      (AgentOp.rdNc.formOk r = true → r.rdUnits ≠ 0 → s.fabCheck r p.val rank .rdNc = (.zeros, u) →
        exec (.rdNc r) s = .next (u.answer r opDataNc .ok 0 (List.replicate (64 * r.rdUnits) 0) false none)) ∧
      (∀ data masks, gate (.wrNc r data masks) (.wrNc data masks) (((hits true).run l r (.wrNc ls data masks .ok)).settleLine l) ∧
        ((AgentOp.wrNc data masks).formOk r = false → exec (.wrNc r data masks) s = .next (s.refuse r .range)) ∧
        ((AgentOp.wrNc data masks).formOk r = true → data = [] → exec (.wrNc r data masks) s = .next (s.answer r opCmp .ok 0 [] false none))) ∧
      (∀ op w8 a b, (s.rank p.val rank).farAtomic = true →
        ((turns true).linesRefuse r (l :: ls) = false →
          gate (.atom r op w8 a b) (.atom op w8 a b) ((turns true).atomRequest l r op w8 a b)) ∧
        ((turns true).linesRefuse r (l :: ls) = true →
          gate (.atom r op w8 a b) (.atom op w8 a b) ((turns true).answer r opAtomRsp .perm 0 [] false none)) ∧
        ((AgentOp.atom op w8 a b).formOk r = false → exec (.atom r op w8 a b) s = .next (s.refuse r .range))) ∧
      (∀ op w8 a b, (s.rank p.val rank).farAtomic = false → (s.rank p.val rank).dead = false →
        exec (.atom r op w8 a b) s = .next (s.refuse r .perm))) ∧
  (∀ (s : State) (line : Nat) (r : FabReq) (k : PendKind) (o : Requester),
      let e := s.dirEnt line
      let own := k = .rdX ∨ k = .upg
      let nc := k ≠ .rdS ∧ ¬ own
      (e.st = .u → s.conflict line r k = none) ∧
      (e.st = .s → ¬ own → s.kindWrites k = false → s.conflict line r k = none) ∧
      (e.st = .s → own → e.ovf = false → s.conflict line r k =
        if e.ptrs.filter (· ≠ r.who) = [] then none else some (opSnpInv, e.ptrs.filter (· ≠ r.who), none, false)) ∧
      (e.st = .s → nc → s.kindWrites k = true → e.ovf = false → s.conflict line r k = some (opSnpInv, e.ptrs, none, false)) ∧
      (e.st = .s → (own ∨ s.kindWrites k = true) → e.ovf = true → s.conflict line r k = some (opSnpInv, s.membersOf (line * 64), none, true)) ∧
      (e.st = .x → e.ptrs.head? = some o →
        (k = .rdS → s.conflict line r k = if o = r.who then none else some (opSnpFwdS, [o], some o, false)) ∧
        (own → s.conflict line r k = if o = r.who then none else
          some (match r.who with | .buffer _ => opSnpRecall | .agent _ _ => opSnpFwdX, [o], some o, false)) ∧
        (nc → s.kindWrites k = true → s.conflict line r k = some (opSnpRecall, [o], some o, false)) ∧
        (nc → s.kindWrites k = false → s.conflict line r k = some (opSnpClean, [o], some o, false))) ∧
      (∀ w, w ∉ e.ptrs → e.ptrs.length = 4 → (e.addSharer w).ovf = true ∧ (e.addSharer w).ptrs = e.ptrs) ∧
      (∀ w, w ∉ e.ptrs → e.ptrs.length < 4 → (e.addSharer w).ovf = e.ovf ∧ (e.addSharer w).ptrs = e.ptrs ++ [w]))

/-- R160, R228, R231, R284: an atomic returns the old word and stores the sum, the operand where the old word equals the compare value, the
signed maximum, or the operand, and the write-intent log records it with its old word; one that is recorded gets that word again and
changes nothing; on a published or borrowed frame it is refused with PERM, on a poisoned line with POISON.
R221, R223, R227, R234: an awaited answer to a snoop is taken, and requests that waited at the link dies are tried again: ACK_INV to an
invalidation, FWD_DONE with the data of a dirty line, FWD_MISS, and RECALL_DATA; after FWD_MISS with WB_PENDING the line waits on for the
owner's WB, unless it has come. One that is not awaited changes nothing; PROBE_ACK changes nothing.
R141, R142, R221, R223, R236: a WB from the owner of a line writes its data where dirty, frees the line unless it keeps it, and is answered CMP;
one from a dead agent gets DEAD_AGENT, one for a line that the sweep of its block took gets REVOKED, and any other that is not the owner's
is answered OK; none of these is written. An EVICT from a pointer removes it, and the last one
frees the line. -/
def Obligations.atomics_snoops_and_write_backs : Prop :=
  (∀ (s : State) (p pa tag port : Nat) (who : Requester) (op : AtomOp) (w8 : Bool) (a b : U64) (mk : List Byte → List Ack) (x y : Nat),
      let n := if w8 then 64 else 32
      let m := if w8 then 8 else 4
      let f := s.fetchLine pa
      let old := (f.1.1.drop (pa % 64)).take m
      let r := randOf (s.mapPa pa)
      let known := s.mem.atoms.find? (fun x => x.who = who && x.tag = tag && x.stack = (s.slotOf pa).1 && x.rand = r)
      (x < 2 ^ n → y < 2 ^ n → ∀ z,
        atomNew .add w8 x y z = (x + y) % 2 ^ n ∧ atomNew .swap w8 x y z = y ∧
        atomNew .cas w8 x y z = (if x = z % 2 ^ n then y else x) ∧
        atomNew .max w8 x y z = if (BitVec.ofNat n x).toInt < (BitVec.ofNat n y).toInt then y else x) ∧
      (s.frameRefuses p pa = true → s.doAtom p pa who tag port op w8 a b mk = (.perm, [], s)) ∧
      (s.frameRefuses p pa = false → ∀ k, known = some k →
        s.doAtom p pa who tag port op w8 a b mk = (.ok, k.old, s.each (mk k.old) State.ack)) ∧
      (s.frameRefuses p pa = false → known = none → f.1.2 = true → s.doAtom p pa who tag port op w8 a b mk = (.poison, [], f.2)) ∧
      (s.frameRefuses p pa = false → known = none → f.1.2 = false → s.doAtom p pa who tag port op w8 a b mk = (.ok, old,
        (f.2.onMem (fun g => { g with atoms := { who := who, tag := tag, stack := (f.2.slotOf pa).1, rand := r, old := old } :: g.atoms })).writeLine
          pa (toBytes m (atomNew op w8 (ofBytes old) a.toNat b.toNat)) (List.replicate m true) (mk old) port))) ∧
  (∀ (p : PartId) (rank line : Nat) (s : State) (bs : List Byte) (poison : Bool),
      let me : Requester := .agent p rank
      let op := s.pendOp line
      let came := (s.dirEnt line).pend.all (fun q => q.owner.isNone)
      (s.awaits line me = true →
        (op = opSnpInv → exec (.ackInv p rank line) s = .next (s.answered1 line me).retryParked ∧
          ∀ b, exec (.fwdMiss p rank line b) s = .next s) ∧
        (op = opSnpFwdS → exec (.fwdDone p rank line (some bs) poison) s =
          .next (((s.putLine line bs poison).onPend line (fun q => { q with forwarded := true })).answered1 line me).retryParked) ∧
        (op = opSnpFwdS ∨ op = opSnpFwdX → exec (.fwdDone p rank line none poison) s =
          .next ((s.onPend line (fun q => { q with forwarded := true })).answered1 line me).retryParked) ∧
        (op ≠ opSnpInv → exec (.fwdMiss p rank line false) s =
          .next ((s.onPend line (fun q => { q with owner := none })).answered1 line me).retryParked) ∧
        (op ≠ opSnpInv → came = true → exec (.fwdMiss p rank line true) s =
          .next ((s.onPend line (fun q => { q with owner := none })).answered1 line me).retryParked) ∧
        (op ≠ opSnpInv → came = false → exec (.fwdMiss p rank line true) s = .next (s.onPend line (fun q => { q with wbWait := true }))) ∧
        (op = opSnpRecall ∨ op = opSnpClean →
          exec (.recallData p rank line (some bs) poison) s = .next ((s.putLine line bs poison).answered1 line me).retryParked ∧
          exec (.recallData p rank line none poison) s = .next (s.answered1 line me).retryParked)) ∧
      (s.awaits line me = false → exec (.ackInv p rank line) s = .next s ∧ exec (.fwdDone p rank line (some bs) poison) s = .next s ∧
        (∀ b, exec (.fwdMiss p rank line b) s = .next s) ∧ exec (.recallData p rank line (some bs) poison) s = .next s) ∧
      exec (.probeAck p rank) s = .next s) ∧
  (∀ (p : PartId) (rank line : Nat) (s : State) (keep poison : Bool) (bs : List Byte),
      let me : Requester := .agent p rank
      let e := s.dirEnt line
      ((s.rank p.val rank).dead = false → e.st = .x → e.ptrs.head? = some me →
        exec (.wb me line true false bs poison) s =
          .next ((((s.putLine line bs poison).setLine line .u []).cmpWb me line .ok).settleLine line).retryParked ∧
        exec (.wb me line true true bs poison) s = .next (((s.putLine line bs poison).cmpWb me line .ok).settleLine line).retryParked ∧
        exec (.wb me line false false bs poison) s = .next (((s.setLine line .u []).cmpWb me line .ok).settleLine line).retryParked) ∧
      ((s.rank p.val rank).dead = true → ∀ d, exec (.wb me line d keep bs poison) s = .next (s.cmpWb me line .deadAgent)) ∧
      ((s.rank p.val rank).dead = false → e.st = .u → ∀ d, exec (.wb me line d keep bs poison) s =
        .next ((s.onNet (fun n => { n with lateData := n.lateData.filter (· ≠ (me, line)) })).cmpWb me line
          (if s.sweptLine me line then .revoked else .ok))) ∧
      (e.st = .s → me ∈ e.ptrs → Goes (exec (.evict p rank line) s) (fun t =>
        t.dirEnt line = { e with
          ptrs := e.ptrs.filter (· ≠ me), st := if (e.ptrs.filter (· ≠ me)).isEmpty && !e.ovf then .u else .s } ∧
        (∀ k, k ≠ line → t.dirEnt k = s.dirEnt k) ∧ t = { s with dir := t.dir })) ∧
      (e.st ≠ .s ∨ me ∉ e.ptrs → exec (.evict p rank line) s = .next s))

/-- R226, R234, R235, R402: at boundaries S + 4, S + 9 and S + 14 every awaited agent is probed and snooped again; an agent whose snoop is overdue at
S + 20, or whose endpoint has had no path in 16 rounds, is declared dead; a line held 4 rounds for its oldest token, and not BUSY, lets it
go.
R243, R245, R247: a publish whose recalls are done, in a round after its frame change, moves PIN_VERSION, INDEX and PUBLISH_ROUND and lets its result leave;
a version below PIN_VERSION without pins, and without a request under way that translated in it, goes, with the frames that no remaining version has; from D + 8 of a destruction other partitions'
copies are invalidated, and their requests cancelled. -/
def Obligations.probes_dead_agents_and_versions : Prop :=
  (∀ (p : PartId) (rank line : Nat) (s : State) (q : Pend) (t : Token) (ts : List Token) (f : Nat),
      let x := s.rank p.val rank
      ((s.dirEnt line).pend = some q → s.rnd.counter - q.round = 4 ∨ s.rnd.counter - q.round = 9 ∨ s.rnd.counter - q.round = 14 →
        exec (.snoopProbe line) s = .next (s.each q.await (fun s a => match a.1 with
          | .buffer _ => s
          | .agent p k =>
            let n := s.takeSnoopSeq p.val (s.rank p.val k).ep
            (n.2.originate p.val (homeHalf (line * 64)) {
              cls := 2, opcode := opSnpProbe, part := p.val, srcEp := s.rnd.endpoint, dstEp := (s.rank p.val k).ep, seq := n.1
              word2 := s.handleWord p.val line }).snoop line q p.val k a.2))) ∧
      ((s.dirEnt line).pend = some q → s.rnd.counter - q.round < 4 → exec (.snoopProbe line) s = .next s) ∧
      ((s.dirEnt line).pend = none → exec (.snoopProbe line) s = .next s) ∧
      (x.valid = true → x.dead = false → (s.snoopOverdue p.val rank = true ∨ 16 ≤ s.net.noPath.look 0 x.ep) →
        exec (.agentDeadDeclare p rank) s = .next (s.declareDead p.val rank)) ∧
      (x.dead = true ∨ x.valid = false ∨ (s.snoopOverdue p.val rank = false ∧ s.net.noPath.look 0 x.ep < 16) →
        exec (.agentDeadDeclare p rank) s = .next s) ∧
      ((s.dirEnt line).tokens = t :: ts → (s.dirEnt line).heldFrom = some f → f + 4 ≤ s.rnd.counter →
        (s.dirEnt line).st ≠ .busy →
        exec (.tokenLapse line) s = .next ((s.dropToken line t).settleLine line).retryParked) ∧
      ((s.dirEnt line).tokens = t :: ts → (s.dirEnt line).heldFrom = some f → (s.dirEnt line).st = .busy → exec (.tokenLapse line) s = .next s) ∧
      ((s.dirEnt line).tokens = t :: ts → (s.dirEnt line).heldFrom = some f → s.rnd.counter < f + 4 → exec (.tokenLapse line) s = .next s)) ∧
  (∀ (r : Fin 1024) (s : State) (v index from_ tag : Nat) (rest : List (Nat × Nat × Nat × Nat)),
      let x := s.region r.val
      let open_ := s.dir.any (fun e => e.2.pend.any (fun q => q.kind == .publish r.val) || e.2.waiting.any (fun w => w.2 == .publish r.val))
      (x.publishing = (v, index, from_, tag) :: rest → from_ ≠ 0 → from_ < s.rnd.counter → open_ = false →
        Goes (exec (.regionPublishComplete r) s) (fun t =>
          t.region r.val = { x with pinVersion := v, index := index, publishRound := s.rnd.counter, publishing := rest } ∧
          (∀ k, k ≠ r.val → t.region k = s.region k) ∧ t = { s with regions := t.regions, ctl := t.ctl })) ∧
      (x.publishing = [] ∨ open_ = true → exec (.regionPublishComplete r) s = .next s) ∧
      (∀ y, x.versions.find? (fun y => y.num = v) = some y → v < x.pinVersion → y.pins = 0 → y.tpins = 0 →
        s.net.verPins.any (fun q => q.2 = (r.val, v) && s.outstanding q.1) = false →
        let left := (x.versions.filter (fun z => z.num ≠ v)).map (·.num)
        let gone := (x.table.filter (fun e => e.2.born.isSome && !left.any e.2.live)).map (·.1)
        let u := s.onRegion r.val (fun x => { x with
          versions := x.versions.filter (fun z => z.num ≠ v), table := gone.foldl (fun t k => t.put {} k {}) x.table })
        exec (.versionRetire r v) s = .next (u.each (u.regionLines r.val (fun f => decide (f ∈ gone))) (fun s l => s.trimLine x.home l))) ∧
      (x.pinVersion ≤ v ∨ s.net.verPins.any (fun q => q.2 = (r.val, v) && s.outstanding q.1) = true →
        exec (.versionRetire r v) s = .next s) ∧
      (∀ d, x.destroying = some d → x.valid = true → d + 8 ≤ s.rnd.counter →
        exec (.regionInvalidate r) s = .next (s.each (s.regionLines r.val (fun _ => true)) (fun s l => s.trimLine x.home l)) ∧
        Goes (exec (.regionDrainLimit r) s) (fun t => ∀ y ∈ (t.region r.val).versions, y.tpins = 0)) ∧
      (x.destroying = none ∨ x.valid = false → exec (.regionInvalidate r) s = .next s ∧ exec (.regionDrainLimit r) s = .next s))

/-! ### Links -/

/-- R373, R374, R391: a packet with the expected SEQ in a good codeword is acknowledged, moves the expected SEQ on and goes to its route; a packet that is out
of order or damaged is dropped and asked for again by one NAK; on a link that is not trained nothing happens.
R365, R374, R379, R392, R394 to R396: the oldest packet of a virtual channel goes on, or is dropped after 8 rounds with its credits returned; IDLE carries
nothing, and a block with a bad CRC-16 or an undefined TYPE is counted and dropped; ACK frees what it acknowledges; NAK has the packets from its SEQ on sent again; CREDIT adds units up to the channel's share. -/
def Obligations.link_packets_and_control_blocks : Prop :=
  (∀ (l : LinkId) (seq : Nat) (pkt : Packet) (s : State),
      let n := l.val
      let x := s.link n
      (x.trainedUp = true → seq = x.expect →
        let u := ((s.onLink n (fun x => { x with expect := (x.expect + 1) % 65536, naking := false })).emit (.control n 2 seq)).opEvent 0x10A
          { cls := some pkt.cls, part := some pkt.part }
        (x.st ≠ .probation → exec (.linkPacketRx l seq none true true pkt) s = .next (u.route n pkt).retryEgress) ∧
        (x.st = .probation → exec (.linkPacketRx l seq none true true pkt) s =
          .next (u.returnCredit n (2 * pkt.cls + b2n pkt.esc) pkt.units))) ∧
      (x.trainedUp = true → seq ≠ x.expect → ∀ ack, x.naking = false →
        exec (.linkPacketRx l seq ack true true pkt) s = .next ((s.onLink n (fun x => { x with dirty := x.dirty || false || false })).sendNak n)) ∧
      (x.trainedUp = true → x.naking = true → ∀ ack, exec (.linkPacketRx l seq ack false true pkt) s =
        .next ((s.countLink n lcCrcFail).onLink n (fun x => { x with dirty := x.dirty || false || true }))) ∧
      (x.trainedUp = false → ∀ ack a b, exec (.linkPacketRx l seq ack a b pkt) s = .next s)) ∧
  (∀ (l : LinkId) (vc : Fin 8) (seq units : Nat) (block : List Byte) (s : State) (e : Input),
      let n := l.val
      let x := s.link n
      (s.oldest n vc.val = some e →
        exec (.packetForward l vc) s = .next (s.forward n e) ∧
        (e.round + 8 ≤ s.rnd.counter → exec (.hopAgeDrop l vc) s =
          .next (((s.onLink n (fun x => { x with inputs := x.inputs.erase e })).countNet 5).returnCredit n e.vc e.pkt.units)) ∧
        (s.rnd.counter < e.round + 8 → exec (.hopAgeDrop l vc) s = .next s)) ∧
      (s.oldest n vc.val = none → exec (.packetForward l vc) s = .next s ∧ exec (.hopAgeDrop l vc) s = .next s) ∧
      (blockOk block = true → exec (.idle ⟨l, block⟩) s = .next s) ∧
      (blockOk block = false → x.trainedUp = true ∨ x.st = .training → exec (.idle ⟨l, block⟩) s = .next (s.countLink n lcCtrlBad)) ∧
      (x.trainedUp = false → x.st ≠ .training → exec (.idle ⟨l, block⟩) s = .next s) ∧
      (x.trainedUp = true →
        exec (.ack l seq) s = .next (s.onLink n (fun x => { x with replay := x.replay.filter (fun e => !seqLe e.1 seq) })).retryEgress ∧
        (x.st ≠ .paused → exec (.nak l seq) s = .next (((s.countLink n lcNakRcvd).onLink n (fun x => { x with dirty := true })).resend n
          (fun k => seqLe seq k))) ∧
        exec (.credit l vc units) s = .next (s.onLink n (fun x => { x with
          credits := x.credits.put 0 vc.val (min x.vcUnits (x.credit vc.val + units)) })).retryEgress) ∧
      (x.trainedUp = false → exec (.ack l seq) s = .next s ∧ exec (.nak l seq) s = .next s ∧ exec (.credit l vc units) s = .next s))

/-- R47, R365, R370 to R372: light on 4 or more lanes starts the training of a dark link; an offer in agreement is confirmed, and a confirm starts the delay
samples; each sample is half the round trip without the turnaround; 64 of them complete the training, with their median as the delay; the
link is UP after 4 clean rounds of probation.
R370, R371, R376, R377: a stage that times out fails the training, and after eight failures the link tries again after 65,536 rounds; a lost heartbeat,
LINK_DOWN or a retrain that times out declares a trained link DOWN; a link in HOLD goes dark after 65,536 rounds; light lost on fewer than 4
lanes ends a link. -/
def Obligations.link_training_loss_and_hold : Prop :=
  (∀ (l : LinkId) (lanes : BitVec 8) (b : TrainBlock) (stamp : U64) (rt ta : Nat) (s : State),
      let n := l.val
      let x := s.link n
      (x.st = .dark → x.slow = false → 4 ≤ litCount lanes →
        let u := (s.onLink n (fun x => { x with lit := lanes })).startTraining n
        exec (.lightDetect l lanes) s = .next (u.emit (.training n (u.myBlock n false)))) ∧
      (litCount lanes < 4 → Goes (exec (.lightDetect l lanes) s) (fun t => t.link n = { x with lit := lanes } ∧
        (∀ k, k ≠ n → t.link k = s.link k) ∧ t = { s with links := t.links })) ∧
      (x.st = .training → x.trained = false → x.stage ≠ 5 → b.crcOk = true → b.majorMin ≤ 1 → 1 ≤ b.majorMax → b.rsvd = false → 17 ≤ b.vcUnits →
        4 ≤ litCount (x.lit &&& b.laneMask) → b.confirm = false → x.confirmed = false →
        Goes (exec (.trainingBlock l b) s) (fun t => (t.link n).stage = 4 ∧ (t.link n).offered = true ∧ (t.link n).lanes = x.lit &&& b.laneMask ∧
          (t.link n).major = 1 ∧ (t.link n).peerEp = b.endpoint ∧ (t.link n).st = .training ∧ t = { s with links := t.links, out := t.out })) ∧
      (x.st = .training → x.trained = false → x.stage ≠ 5 → b.crcOk = false →
        exec (.trainingBlock l b) s = .next ((s.countLink n lcCtrlBad).trainFailed n)) ∧
      ((x.st = .training ∨ x.st = .paused) → exec (.delayReq l stamp) s = .next (s.emit (.control n 6 stamp.toNat))) ∧
      (x.st = .up → exec (.delayReq l stamp) s = .next s) ∧
      (x.st = .paused → x.samples.length < 64 → Goes (exec (.delayRsp l rt ta) s) (fun t =>
        (t.link n).samples = x.samples ++ [(rt - ta) / 2] ∧ t = { s with links := t.links, out := t.out })) ∧
      (x.st = .up → exec (.delayRsp l rt ta) s = .next s) ∧
      (x.st = .training → x.stage = 5 → x.samples.length = 64 →
        Goes (exec (.trainingComplete l) s) (fun t => t.link n = { x with
          trained := true, fails := 0, slow := false, stage := 0, delay := min 511 (median x.samples / 1000), samples := [] } ∧
          t = { s with links := t.links })) ∧
      (x.samples.length < 64 → exec (.trainingComplete l) s = .next s) ∧
      (x.st = .probation → 4 ≤ x.clean → exec (.linkUp l) s =
        .next (s.onLink n (fun x => { x with st := .up, stateRound := s.rnd.counter })).touchFlood) ∧
      (x.st ≠ .probation ∨ x.clean < 4 → exec (.linkUp l) s = .next s)) ∧
  (∀ (l : LinkId) (lanes : BitVec 8) (cause : Nat) (s : State),
      let n := l.val
      let x := s.link n
      let u := s.onLink n (fun x => { x with lit := lanes })
      (x.st = .training → x.trained = false → exec (.trainingStageTimeout l) s = .next (s.trainFailed n)) ∧
      (x.st ≠ .training → exec (.trainingStageTimeout l) s = .next s) ∧
      (x.st = .dark → x.slow = true → x.holdFrom + 65536 ≤ s.rnd.counter → 4 ≤ litCount x.lit →
        exec (.trainingRetry l) s = .next ((s.startTraining n).emit (.training n ((s.startTraining n).myBlock n false)))) ∧
      (x.slow = false ∨ s.rnd.counter < x.holdFrom + 65536 → exec (.trainingRetry l) s = .next s) ∧
      exec (.linkDown l cause) s = .next (s.linkDown n 6) ∧ exec (.heartbeatTimeout l) s = .next (s.linkDown n 2) ∧
      (x.st = .paused → exec (.retrainTimeout l) s = .next (s.linkDown n 4)) ∧
      (x.st ≠ .paused → exec (.retrainTimeout l) s = .next s) ∧
      (x.trainedUp = false → ∀ k, s.linkDown n k = s) ∧
      (x.trainedUp = true → ∀ k, let t := s.linkDown n k
        ((t.link n).st = .dark ∨ (t.link n).st = .hold) ∧ (t.link n).downCause = k ∧ (t.link n).replay = [] ∧ (t.link n).inputs = [] ∧
          ((t.link n).st = .hold ↔ 8 ≤ (x.downs.filter (fun r => decide (s.rnd.counter < r + 4096))).length + 1) ∧ t.mem = s.mem) ∧
      (x.st = .hold → x.holdFrom + 65536 ≤ s.rnd.counter →
        Goes (exec (.holdExpiry l) s) (fun t => (t.link n).st = .dark ∧ (t.link n).downs = [] ∧ t = { s with links := t.links })) ∧
      (x.st ≠ .hold → exec (.holdExpiry l) s = .next s) ∧
      (litCount lanes < 4 → x.trainedUp = true → exec (.lossOfLight l lanes) s = .next (u.linkDown n 1)) ∧
      (4 ≤ litCount lanes → exec (.lossOfLight l lanes) s = .next u))

/-- R373, R374, R378 to R381: a replay timeout sends every packet of the buffer again, a NAK that went unheard is sent again; a faulty lane is removed by a
fast retrain, or ends a link that would have fewer than 4; a retrain asked for pauses the link for it, and one that is done brings it up at its
new width; a removed lane comes back after 4,096 clean rounds; a failed optical engine fails its four links. -/
def Obligations.lanes_and_retraining : Prop :=
  ∀ (l : LinkId) (lane : Fin 8) (mask : BitVec 8) (delay : Nat) (oe : Fin 12) (s : State),
    let n := l.val
    let x := s.link n
    let m := x.lanes &&& ~~~((1 : BitVec 8) <<< lane.val)
    (x.st = .up → x.replay ≠ [] → exec (.replayTimeout l) s = .next (s.resend n (fun _ => true))) ∧
    (x.replay = [] → exec (.replayTimeout l) s = .next s) ∧
    (x.trainedUp = true → x.naking = true → exec (.nakResend l) s = .next (s.sendNak n)) ∧
    (x.naking = false → exec (.nakResend l) s = .next s) ∧
    (x.st = .up → x.lanes.getLsbD lane.val = true → 4 ≤ litCount m → exec (.laneFault l lane) s = .next ((s.onLink n (fun x => { x with
      removed := x.removed ||| (1 <<< lane.val), laneClean := x.laneClean.put 0 lane.val 0, dirty := true })).askRetrain n m)) ∧
    (x.st = .up → x.lanes.getLsbD lane.val = true → litCount m < 4 → exec (.laneFault l lane) s = .next (s.linkDown n 5)) ∧
    (x.trainedUp = false → exec (.laneFault l lane) s = .next s) ∧
    (x.st = .up → 4 ≤ litCount mask → exec (.retrainReq l mask) s = .next (((s.countLink n lcRetrain).onLink n (fun x => { x with
      newMask := mask, samples := [], dirty := true, prob := x.prob || false })).setLink n .paused)) ∧
    (x.st = .up → litCount mask < 4 → exec (.retrainReq l mask) s = .next (s.linkDown n 5)) ∧
    (x.st = .paused → x.prob = false → x.lanes = x.newMask →
      let u := (s.onLink n (fun x => { x with
        lanes := x.newMask, removed := x.removed &&& ~~~x.newMask, delay := min 511 delay, samples := [], prob := false
        newMask := 0 })).setLink n .up
      exec (.fastRetrainDone l delay) s = .next ((u.sendNak n).onLink n (fun y => { y with naking := x.naking })).retryEgress) ∧
    (x.st ≠ .paused → exec (.fastRetrainDone l delay) s = .next s) ∧
    (x.st = .up → x.removed.getLsbD lane.val = true → 4096 ≤ x.laneClean.look 0 lane.val → x.widened = 0 →
      exec (.laneRestore l lane) s = .next ((s.onLink n (fun x => { x with widened := s.rnd.counter + 1 })).askRetrain n
        (x.lanes ||| (1 <<< lane.val)))) ∧
    (x.laneClean.look 0 lane.val < 4096 → exec (.laneRestore l lane) s = .next s) ∧
    exec (.engineFailed oe) s = .next (s.each [4 * oe.val, 4 * oe.val + 1, 4 * oe.val + 2, 4 * oe.val + 3] (fun s k => s.failLink k 8))

/-! ### The fabric -/

/-- R469 to R475: a session starts with its first HELLO fragment, and the next fragments in order complete it; a second one is answered BUSY_RETRY; its OFFER
leaves once every fragment is in; a CONFIRM with a good mac stages the new epoch, a bad one ends it with INTEGRITY; an attempt without CONFIRM
for 256 rounds lapses; a generation advances after 2³¹ packets, and a previous one is dropped at its boundary. -/
def Obligations.sessions_and_key_generations : Prop :=
  ∀ (p : PartId) (ep rank sid frag frags : Nat) (nonce ss : List U64) (s : State) (y : Session),
    let x := s.part p.val
    (x.live = true → s.leaseHeld = true → x.session = none → (s.recentStarts p.val).length < 4 →
      exec (.sessionHello p ep rank sid 0 frags nonce) s = .next (s.onPart p.val (fun x => { x with
        starts := s.recentStarts p.val ++ [s.rnd.counter]
        session := some { sid := sid, ep := ep, rank := rank, frags := 1, total := frags, helloRound := s.rnd.counter, nonce := nonce } }))) ∧
    (x.live = true → s.leaseHeld = true → x.session = none → 4 ≤ (s.recentStarts p.val).length →
      exec (.sessionHello p ep rank sid 0 frags nonce) s = .next (s.sendDone p.val ep sid .busyRetry)) ∧
    (x.live = false ∨ s.leaseHeld = false → exec (.sessionHello p ep rank sid frag frags nonce) s = .next s) ∧
    (x.session = some y → x.live = true → s.leaseHeld = true →
      (y.sid = sid → y.ep = ep → y.rank = rank → y.offer = none → frag ≠ 0 → frag = y.frags → frag < y.total →
        exec (.sessionHello p ep rank sid frag frags nonce) s = .next (s.onPart p.val (fun x => { x with
          session := some { y with frags := y.frags + 1, helloRound := s.rnd.counter, nonce := y.nonce ++ nonce } }))) ∧
      (y.sid ≠ sid → exec (.sessionHello p ep rank sid frag frags nonce) s = .next (s.sendDone p.val ep sid .busyRetry)) ∧
      (y.offer = none → y.total ≤ y.frags → Goes (exec (.sessionOffer p) s) (fun t =>
        ((t.part p.val).session.map (·.offer)) = some (some s.rnd.counter) ∧ t.mem = s.mem ∧ t.pending = s.pending)) ∧
      (y.frags < y.total → exec (.sessionOffer p) s = .next s) ∧
      (y.sid = sid → y.offer ≠ none → y.ss = none →
        exec (.sessionConfirm p sid true ss) s = .next ((s.onPart p.val (fun x => { x with session := some { y with ss := some ss } })).stage 0
          [.epochOpen p.val]) ∧
        exec (.sessionConfirm p sid false ss) s = .next ((s.onPart p.val (fun x => { x with session := none })).sendDone p.val y.ep sid .integrity)) ∧
      (∀ ok, y.sid ≠ sid → exec (.sessionConfirm p sid ok ss) s = .next s) ∧
      (∀ r, y.offer = some r → y.ss = none → r + 256 ≤ s.rnd.counter →
        exec (.sessionConfirmLapse p) s = .next (s.onPart p.val (fun x => { x with session := none }))) ∧
      (∀ r, y.offer = some r → s.rnd.counter < r + 256 → exec (.sessionConfirmLapse p) s = .next s)) ∧
    (∀ g, x.gen = some g → x.ctrHigh = true → exec (.keyGenerationAdvance p) s = .next (s.onPart p.val (fun x => { x with
      gen := some ((g + 1) % 2 ^ 32), prevGen := true, ctrHigh := false, dropAt := none }))) ∧
    (x.ctrHigh = false → exec (.keyGenerationAdvance p) s = .next s) ∧
    (∀ d, x.dropAt = some d → d ≤ s.rnd.counter →
      exec (.keyGenerationDrop p) s = .next (s.onPart p.val (fun x => { x with prevGen := false, dropAt := none }))) ∧
    (∀ d, x.dropAt = some d → s.rnd.counter < d → exec (.keyGenerationDrop p) s = .next s)

/-- R409 to R413, R456, R457: a put of an agent enters its channel or is refused, and is answered; a flow reset starts the flow afresh and is answered CMP; count
notices count; a flagged request whose count is reached is delivered, one whose wait ends is turned away with FLAG_TIMEOUT and its flow
waits for a reset; a flow silent for 1,024 rounds is forgotten. -/
def Obligations.agent_puts_and_flows : Prop :=
  ∀ (p : PartId) (rank tag ch len pktCtr n : Nat) (words : List U64) (f : FlowId) (epoch : Bool) (s : State),
    let x := s.flow f
    ((s.part p.val).live = true →
      let r := s.mbxPut (idPart p.val) ch p.val len words
      exec (.mbxPut p rank tag ch len words) s = .next (r.2.sendReply p.val (s.flowHome (s.rank p.val rank).ep p.val)
        { cls := 1, opcode := if r.1 = .ok then opCmp else opErr, status := r.1.code, part := p.val, tag := tag, srcEp := s.rnd.endpoint
          dstEp := (s.rank p.val rank).ep })) ∧
    ((s.part p.val).live = false → exec (.mbxPut p rank tag ch len words) s = .next s) ∧
    ((s.part f.part).live = true →
      let u := (s.onFlow f (fun x => { x with
        threshold := pktCtr + 1, epoch := false, cur := 0, other := 0, resetWait := false, park := none, waitFrom := none
        last := s.rnd.counter })).onNet (fun n => { n with
          waitFlows := n.waitFlows.filter (fun e => e.2 ≠ f), notices := n.notices.filter (fun e => e.1 ≠ f) })
      exec (.flowReset f pktCtr tag) s = .next (u.sendReply f.part (u.flowHome f.src f.part)
        { cls := 1, opcode := opCmp, part := f.part, tag := tag, srcEp := u.rnd.endpoint, dstEp := f.src })) ∧
    ((s.part f.part).live = false → exec (.flowReset f pktCtr tag) s = .next s) ∧
    (let mine := (s.net.notices.filter (fun e => e.1 = f && e.2.1 = epoch)).take n
     exec (.flowCountNotice f epoch n) s = .next ((s.onNet (fun k => { k with notices := mine.foldl List.erase k.notices })).each mine
       (fun s _ => s.onFlow f (fun x => x.perform epoch)))) ∧
    (∀ q r, x.park = some (q, r) →
      (q.aux ≤ x.cur → exec (.flaggedRequestDeliver f) s = .next (s.deliverFlagged q)) ∧
      (x.cur < q.aux → exec (.flaggedRequestDeliver f) s = .next s) ∧
      (∀ r0, x.waitFrom = some r0 → r0 + s.rst.flagWait ≤ s.rnd.counter → x.cur < q.aux →
        exec (.flagWaitExpiry f) s = .next (s.flagExpire f)) ∧
      (∀ r0, x.waitFrom = some r0 → s.rnd.counter < r0 + s.rst.flagWait → exec (.flagWaitExpiry f) s = .next s)) ∧
    (x.last + 1024 ≤ s.rnd.counter → Goes (exec (.flowForget f) s) (fun t =>
      t.net.flows = s.net.flows.filter (fun y => y.id ≠ f) ∧ t = { s with net := t.net })) ∧
    (s.rnd.counter < x.last + 1024 → exec (.flowForget f) s = .next s)

/-- R397 to R401, R405, R406: a flooded state that is new is taken and passed on, and this device's own leaves when it has changed or after 4,096 rounds; a stale
table is computed again under the lease, a new orientation taken at its boundary; an endpoint without a path for 16 rounds has its ranks declared dead;
a tree entry is installed while there is room; a combined answer leaves after 4 rounds.
R22, R41, R129, R234, R381, R403, R406, R417, R529: a combined answer to an invalidation counts for every member in its mask; reports and allotments of the power
group are kept and a length change reaches the master; a filled rank entry lets its packets go on; a read without a response in time has failed;
a failed link die fails its 24 links, stops its stake and loses its rim lane group, and the other takes over at the boundary. -/
def Obligations.routes_combined_answers_and_link_dies : Prop :=
  (∀ (l : LinkId) (m : LinkStateMsg) (ep origin group line : Nat) (outs : List LinkId) (here : Bool) (s : State),
      (m.origin ≠ s.rnd.endpoint → s.net.db.look {} m.origin ≠ m →
        exec (.linkState l m) s = .next ((s.onNet (fun n => { n with db := n.db.put {} m.origin m })).touchFlood.sendFlood m (some l.val))) ∧
      (m.origin = s.rnd.endpoint ∨ s.net.db.look {} m.origin = m → exec (.linkState l m) s = .next s) ∧
      (s.net.db.look {} s.rnd.endpoint ≠ s.myLinkState ∨ s.net.flooded + 4096 ≤ s.rnd.counter →
        exec .linkStateFlood s = .next ((s.onNet (fun n => { n with
          db := n.db.put {} s.rnd.endpoint s.myLinkState, flooded := s.rnd.counter })).sendFlood s.myLinkState none)) ∧
      (s.net.db.look {} s.rnd.endpoint = s.myLinkState → s.rnd.counter < s.net.flooded + 4096 → exec .linkStateFlood s = .next s) ∧
      (s.net.stale = true → s.leaseHeld = true → s.lowestEp = s.net.root → exec .routeTableInstall s = .next (s.installRoutes s.net.root)) ∧
      (s.net.stale = true → s.leaseHeld = true → s.lowestEp ≠ s.net.root → s.net.orient = none →
        exec .routeTableInstall s = .next ((s.onNet (fun n => { n with orient := some (s.lowestEp, s.rnd.counter + 16) })).installRoutes s.net.root)) ∧
      (s.net.stale = false ∨ s.leaseHeld = false → exec .routeTableInstall s = .next s) ∧
      (∀ root b, s.net.orient = some (root, b) →
        (b ≤ s.rnd.counter → exec .orientationBoundary s = .next ((s.flushEscape.onNet (fun n => { n with orient := none })).installRoutes root)) ∧
        (s.rnd.counter < b → exec .orientationBoundary s = .next s)) ∧
      (16 ≤ s.net.noPath.look 0 ep → exec (.endpointUnreachable ep) s = .next (s.each s.liveParts (fun s p =>
        s.each ((List.filter (fun (k : Nat × Rank) => k.2.valid && !k.2.dead && k.2.ep == ep) (s.part p).ranks).map (·.1))
          (fun s r => s.declareDead p r)))) ∧
      (s.net.noPath.look 0 ep < 16 → exec (.endpointUnreachable ep) s = .next s) ∧
      (let rest := s.net.mc.filter (fun e => !(e.1 = origin && e.2.1 = group))
       (rest.length < 16384 → exec (.mcInstall origin group outs here) s = .next { s with net := { s.net with mc := rest ++ [(origin, group, outs, here)] } }) ∧
       (16384 ≤ rest.length → exec (.mcInstall origin group outs here) s = .next s)) ∧
      (∀ w, s.net.mcWait.find? (fun w => w.origin = origin && w.group = group && w.line = line) = some w →
        (w.round + 4 ≤ s.rnd.counter → exec (.mcAckTimeout origin group line) s = .next (s.sendMcAck w)) ∧
        (s.rnd.counter < w.round + 4 → exec (.mcAckTimeout origin group line) s = .next s))) ∧
  (∀ (p : PartId) (group line ep limit demand watts tag rank : Nat) (mask : BitVec 256) (code : Fin 4) (d : HalfId) (s : State),
      (s.pendOp line = opSnpInv →
        let mine := (s.groupRanks p.val (s.group group)).filter (fun r => s.awaits line (agentOf p.val r))
        mine.all (fun r => mask.getLsbD (r - (s.group group).base)) = true → exec (.mcAck p group line mask) s =
          .next (s.each mine (fun s r => if s.awaits line (agentOf p.val r) then s.answered1 line (agentOf p.val r) else s))) ∧
      (s.pendOp line ≠ opSnpInv → exec (.mcAck p group line mask) s = .next s) ∧
      exec (.roundCtrl (.report ep limit demand)) s = .next { s with power := { s.power with
        reports := s.power.reports.filter (fun r => r.1 ≠ ep) ++ [(ep, limit, demand)] } } ∧
      exec (.roundCtrl (.allotment watts)) s = .next { s with power := { s.power with allotNew := some watts } } ∧
      (s.isMaster = true → s.rnd.pendLength = none → code.val ≠ s.rnd.length → Goes (exec (.roundCtrl (.lengthChange code)) s) (fun t =>
        t.rnd = { s.rnd with pendLength := some (code.val, s.rnd.counter + 256), lengthBusy := true } ∧ t = { s with rnd := t.rnd, ctl := t.ctl })) ∧
      (s.isMaster = false ∨ s.rnd.pendLength ≠ none → exec (.roundCtrl (.lengthChange code)) s = .next s) ∧
      (let t := fun (e : Nat × Nat × Nat × Packet) => e.1 = d.val && e.2.1 = p.val && e.2.2.1 = rank
       let mine := s.net.missQ.filter t
       (mine ≠ [] → exec (.rankMissFill d p rank) s = .next (((s.onNet (fun n => { n with missQ := n.missQ.filter (fun e => !t e) })).cacheRank
          d.val p.val rank).each mine (fun s e => s.rankChecked d.val e.2.2.2))) ∧
       (mine = [] → exec (.rankMissFill d p rank) s = .next s)) ∧
      (∀ q, s.net.out.find? (fun q => q.tag = tag) = some q →
        (q.sent + s.rst.timeout ≤ s.rnd.counter → exec (.transportTimeout tag) s = .next (s.readFailed q none)) ∧
        (s.rnd.counter < q.sent + s.rst.timeout → exec (.transportTimeout tag) s = .next s)) ∧
      (s.ldWorks d.val = true → exec (.linkDieFailed d) s =
        .next ((((s.each (nums (24 * d.val) 24) (fun s l => s.failLink l 8)).stakeStops d.val).groupDown d.val).onNet
          (fun n => { n with ldFailing := n.ldFailing ++ [d.val] }))) ∧
      (s.ldWorks d.val = false → exec (.linkDieFailed d) s = .next s))

/-! ### The rim -/

/-- R435, R438, R441, R446 to R448, R487: the host's memory requests. Below phase 2 the host-side die answers itself, reads with poison and
zero data, writes as complete. Else reserved bits, a phase below 4, an address off a line and an address that no accepted extent holds are
refused in that order, and any other request is served, or answered BUSY_RETRY past the quiesce limit. An answer leaves at its release, a read
with any status but OK as poison, and a request held for 256 rounds counts as failed.
R28, R443, R444, R453: RIM_HEALTH with 5 or more lanes sets the width of its group, and the fourth to the host in a row makes the group usable and
sets RIM_UP; fewer lanes, an eighth sending of one message and a silence take the group down, and its messages move to the other; a group of a link
die that has failed takes no exchange; lanes leave and come back one by one, a
return at most once in 65,536 rounds. -/
def Obligations.rim_requests_and_lane_groups : Prop :=
  (∀ (tag dpa : Nat) (data : List Byte) (mask : Option U64) (s : State),
      let rd : HostReq := { tag := tag, dpa := dpa, since := s.now }
      let wr : HostReq := { tag := tag, dpa := dpa, write := true, data := (data ++ List.replicate 64 0).take 64, mask := mask, since := s.now }
      let zero : List Byte := List.replicate 64 0
      (s.host.up = true → s.rimPhase < 2 → ∀ r,
        exec (.rimMemRd tag dpa r) s = .next (s.emit (.hostData tag Status.poison.code zero true)) ∧
        exec (.rimMemWr tag dpa data mask r) s = .next (s.emit (.hostData tag 0 [] false))) ∧
      (s.host.up = true → 2 ≤ s.rimPhase →
        exec (.rimMemRd tag dpa true) s = .next (s.nak rtMemRd tag .rsvdNonzero) ∧
        exec (.rimMemWr tag dpa data mask true) s = .next (s.nak rtMemWr tag .rsvdNonzero) ∧
        (s.rimPhase < 4 →
          exec (.rimMemRd tag dpa false) s = .next (s.nak rtMemRd tag .notReady) ∧
          exec (.rimMemWr tag dpa data mask false) s = .next (s.nak rtMemWr tag .notReady)) ∧
        (4 ≤ s.rimPhase → dpa % 64 ≠ 0 ∨ s.hostExtAt dpa (· == 2) = none →
          exec (.rimMemRd tag dpa false) s = .next (s.nak rtMemRd tag .range) ∧
          exec (.rimMemWr tag dpa data mask false) s = .next (s.nak rtMemWr tag .range)) ∧
        (4 ≤ s.rimPhase → dpa % 64 = 0 → s.hostExtAt dpa (· == 2) ≠ none →
          let put := fun (q : HostReq) => s.onHost (fun h => { h with reqs := h.reqs ++ [q] })
          (s.rst.limited = false →
            exec (.rimMemRd tag dpa false) s = .next ((put rd).tryHost tag) ∧
            exec (.rimMemWr tag dpa data mask false) s = .next ((put wr).tryHost tag)) ∧
          (s.rst.limited = true →
            exec (.rimMemRd tag dpa false) s = .next ((put rd).answerHost tag .busyRetry [] false) ∧
            exec (.rimMemWr tag dpa data mask false) s = .next ((put wr).answerHost tag .busyRetry [] false)))) ∧
      (∀ q, s.host.up = true → s.host.reqs.find? (fun q => q.tag = tag && q.answer.isSome) = some q →
        (s.now - q.since - 1) * s.rnd.micros * 1000 ≤ s.hostRelease → ∀ st bs p, q.answer = some (st, bs, p) →
        let u := s.onHost (fun h => { h with reqs := h.reqs.erase q })
        (q.write = false → st = 0 → exec (.hostReleaseTimer tag) s =
          .next (u.emit (.hostData tag (if p then Status.poison.code else 0) bs p))) ∧
        (q.write = false → st ≠ 0 → exec (.hostReleaseTimer tag) s =
          .next ((u.countHost 2).emit (.hostData tag Status.poison.code zero true))) ∧
        (q.write = true → st = 0 → exec (.hostReleaseTimer tag) s = .next (u.emit (.hostData tag 0 [] false))) ∧
        (q.write = true → st ≠ 0 → exec (.hostReleaseTimer tag) s =
          .next (((u.countHost 3).setInt flagRefused).emit (.hostData tag 0 [] false)))) ∧
      (∀ q, s.host.reqs.find? (fun q => q.tag = tag && q.answer.isNone) = some q →
        (q.since + 256 ≤ s.now → exec (.hostRequestHoldTimeout tag) s = .next (s.answerHost tag .notReady [] false)) ∧
        (s.now < q.since + 256 → exec (.hostRequestHoldTimeout tag) s = .next s))) ∧
  (∀ (g : HalfId) (lanes : BitVec 10) (lane : Fin 10) (b : Bool) (s : State),
      let x := s.rimGroup g.val
      (s.host.up = true → s.rst.mode ≠ .off → s.rst.mode ≠ .reset → s.ldWorks g.val = true →
        (lanes10 lanes < 5 → exec (.rimHealth g b lanes) s = .next (s.groupDown g.val)) ∧
        (5 ≤ lanes10 lanes → lanes = x.lanes → x.up = false →
          exec (.rimHealth g false lanes) s = .next (s.onRimGroup g.val (fun x => { x with sends := 0 })) ∧
          (x.health < 3 → exec (.rimHealth g true lanes) s = .next (s.onRimGroup g.val (fun x => { x with sends := 0, health := x.health + 1 }))) ∧
          (3 ≤ x.health → exec (.rimHealth g true lanes) s =
            .next ((s.onRimGroup g.val (fun x => { x with
              sends := 0, health := x.health + 1, up := true, training := false })).setInt flagRimUp))) ∧
        (5 ≤ lanes10 lanes → lanes ≠ x.lanes → x.up = true →
          exec (.rimHealth g b lanes) s = .next (((s.onRimGroup g.val (fun x => { x with lanes := lanes })).setInt flagRimWidth).onRimGroup g.val
            (fun x => { x with sends := 0 })))) ∧
      (s.ldWorks g.val = false → exec (.rimHealth g b lanes) s = .next s) ∧
      (let u := (s.onRimGroup g.val (fun x => { x with up := false, health := 0, training := false, sends := 0 })).moveTraffic;
        (x.up = true → exec (.rimGroupDown g) s = .next (u.setInt flagRimDown).rimLost) ∧
        (x.up = false → exec (.rimGroupDown g) s = .next u)) ∧
      (x.sends < 7 → exec (.rimMessageCrcFail g b) s =
        .next (s.onRimGroup g.val (fun y => { y with sends := max 1 x.sends + 1, replays := y.replays + 1 }))) ∧
      (7 ≤ x.sends → exec (.rimMessageCrcFail g b) s = .next (s.groupDown g.val)) ∧
      (x.lanes.getLsbD lane.val = true → 6 ≤ lanes10 x.lanes → ∃ m : BitVec 10,
        m.getLsbD lane.val = false ∧ (∀ i, i ≠ lane.val → m.getLsbD i = x.lanes.getLsbD i) ∧
        exec (.rimLaneFault g lane) s = .next ((s.onRimGroup g.val (fun x => { x with lanes := m })).setInt flagRimWidth)) ∧
      (x.lanes.getLsbD lane.val = true → lanes10 x.lanes = 5 → exec (.rimLaneFault g lane) s = .next (s.groupDown g.val)) ∧
      (x.lanes.getLsbD lane.val = false → x.widened = 0 ∨ x.widened + 65536 ≤ s.now + 1 → 4 ≤ lanes10 x.lanes → ∃ m : BitVec 10,
        m.getLsbD lane.val = true ∧ (∀ i, i ≠ lane.val → m.getLsbD i = x.lanes.getLsbD i) ∧
        exec (.rimLaneRestore g lane) s = .next (((s.onRimGroup g.val (fun x => { x with lanes := m })).setInt flagRimWidth).onRimGroup g.val
          (fun y => { y with widened := s.now + 1 }))) ∧
      (x.widened ≠ 0 → s.now + 1 < x.widened + 65536 → exec (.rimLaneRestore g lane) s = .next s))

/-- R69, R446 to R448, R452, R456 to R459: the host's messages go to its channel and come back as MBX_ACK, which ends the read of MBX_PUT with 0 or as an
abort; a message for the host sets MBX_RX; a pop says so once, and the message leaves its channel as that arrives; the head message of a
partition's channel goes to its mailbox area; doorbells of the host are those of the HOST partition. -/
def Obligations.mailboxes_and_doorbells : Prop :=
  ∀ (k : Fin 16) (j : Fin 32) (p : PartId) (ch tag addr : Nat) (v : U64) (m : RimMsg) (st : Status) (s : State), s.host.up = true →
    let put := s.pullToFabric (fun x => x.type = rtMbxPut && x.channel = m.channel)
    let settled := s.onHost (fun h => { h with mbxWait := h.mbxWait.put false k.val false })
    (2 ≤ s.rimPhase → s.host.mbxWait.look false k.val = false → exec (.mbxPutRead k) s =
      .next ((s.onHost (fun h => { h with mbxWait := h.mbxWait.put false k.val true })).toFabric { type := rtMbxPut, channel := 64 + k.val, tag := k.val, len := s.host.mbxTxLen.look 0 k.val, payload := bufWords s.host.mbxTx (64 * k.val) (min (s.host.mbxTxLen.look 0 k.val) 64) })) ∧
    (s.rimPhase < 2 → exec (.mbxPutRead k) s = .next (s.emit (.abort (0x3000 + 8 * k.val)))) ∧
    (s.host.mbxWait.look false k.val = true → exec (.mbxAckTimeout k) s = .next
      ((settled.onHost (fun h => { h with mbxTxStatus := h.mbxTxStatus.put 0 k.val Status.timeout.code })).emit (.abort (0x3000 + 8 * k.val)))) ∧
    (let ch := if j.val < 16 then 80 + j.val else 96 + j.val;
      ((s.host.toFabric.filter (fun m => m.type = rtMbxAck && m.channel = ch)).length < (s.channel ch).length →
        exec (.mbxPop j) s = .next (s.toFabric { type := rtMbxAck, channel := ch, addr := 1 })) ∧
      (s.channel ch = [] → exec (.mbxPop j) s = .next s)) ∧
    (m.dir = true → exec (.rimMbxPut m) s = .next ((s.pullToHost (fun x => x.type = rtMbxPut && x.channel = m.channel)).setInt flagMbxRx)) ∧
    (m.dir = false → 2 ≤ s.rimPhase → m.len ≤ 255 →
      (m.rsvd = true → exec (.rimMbxPut m) s = .next (put.nak rtMbxPut m.tag .rsvdNonzero)) ∧
      (m.rsvd = false → put.rimPhase < 4 → exec (.rimMbxPut m) s = .next (put.nak rtMbxPut m.tag .notReady)) ∧
      (m.rsvd = false → 4 ≤ put.rimPhase → 64 < m.len → exec (.rimMbxPut m) s = .next (put.nak rtMbxPut m.tag .mbxLen)) ∧
      (m.rsvd = false → 4 ≤ put.rimPhase → m.len ≤ 64 →
        let r := put.mbxPut idHost m.channel 0 m.len (m.payload ++ List.replicate m.len 0)
        exec (.rimMbxPut m) s = .next (r.2.toHost { type := rtMbxAck, dir := true, channel := m.channel, tag := m.tag, status := r.1.code }))) ∧
    (let u := s.pullToHost (fun x => x.type = rtMbxAck && x.channel = ch && x.addr = 1);
      exec (.rimMbxAck true ch tag true st) s = .next (if (u.channel ch).isEmpty then u.setInt flagMbxEmpty else u)) ∧
    (let u := s.pullToFabric (fun x => x.type = rtMbxAck && x.channel = ch && x.addr = 1)
      ∀ b h t, u.binding ch = some b → b.2 = idHost → u.channel ch = h :: t → ch < 112 →
        exec (.rimMbxAck false ch tag true st) s = .next (u.onHost (fun x => { x with channels := x.channels.put [] ch t }))) ∧
    (let u := s.pullToHost (fun x => x.type = rtMbxAck && x.channel = ch && x.addr = 0);
      tag % 16 = k.val → u.host.mbxWait.look false k.val = true → exec (.rimMbxAck true ch tag false st) s =
        .next ((u.onHost (fun h => { h with
            mbxWait := h.mbxWait.put false k.val false
            mbxTxStatus := h.mbxTxStatus.put 0 k.val st.code })).emit
          (if st = .ok then .readData (0x3000 + 8 * k.val) 0 else .abort (0x3000 + 8 * k.val)))) ∧
    (let x := s.part p.val;
      let c := s.cleanPva p.val (x.qtable + 0x808) 8
      ∀ h t bs s1 s2, s.channel p.val = h :: t → x.live = true → s.readPva p.val (x.qtable + 0x808) 8 = .ok bs →
        (x.rxProd + 2 ^ 64 - ofBytes bs) % 2 ^ 64 < 3 →
        c.writePva p.val (x.qtable + 0x840 + 0x240 * (x.rxProd % 3))
          (toBytes 8 (h.len + p.val * 2 ^ 8) ++ toBytes 8 c.now ++ wordBytes h.words) = some s1 →
        s1.writePva p.val (x.qtable + 0x800) (toBytes 8 (x.rxProd + 1)) = some s2 → s2.channel p.val = h :: t →
        exec (.mailboxDelivery p) s = .next ((s2.onHost (fun y => { y with channels := y.channels.put [] p.val t })).onPart p.val
          (fun y => { y with rxProd := y.rxProd + 1 }))) ∧
    (s.channel p.val = [] → exec (.mailboxDelivery p) s = .next s) ∧
    (∀ r, exec (.rimDoorbell true ⟨tag, r⟩ addr v) s = .next ((s.pullToHost (fun x => x.type = rtDoorbell)).emit (.vector (addr % 16)))) ∧
    (let u := s.pullToFabric (fun x => x.type = rtDoorbell && x.tag = tag);
      2 ≤ s.rimPhase →
      exec (.rimDoorbell false ⟨tag, true⟩ addr v) s = .next (u.nak rtDoorbell tag .rsvdNonzero) ∧
      (4096 ≤ addr → exec (.rimDoorbell false ⟨tag, false⟩ addr v) s = .next (u.nak rtDoorbell tag .rsvdNonzero)) ∧
      (u.rimPhase < 4 → addr < 4096 → exec (.rimDoorbell false ⟨tag, false⟩ addr v) s = .next (u.nak rtDoorbell tag .notReady)) ∧
      (4 ≤ u.rimPhase → addr < 4096 → u.hostPart = none → exec (.rimDoorbell false ⟨tag, false⟩ addr v) s = .next (u.nak rtDoorbell tag .perm)) ∧
      (∀ q, 4 ≤ u.rimPhase → addr < 4096 → u.hostPart = some q →
        ((u.doorbell q addr v).1 = .ok → exec (.rimDoorbell false ⟨tag, false⟩ addr v) s = .next (u.doorbell q addr v).2) ∧
        ((u.doorbell q addr v).1 ≠ .ok → exec (.rimDoorbell false ⟨tag, false⟩ addr v) s =
          .next ((u.doorbell q addr v).2.nak rtDoorbell tag (u.doorbell q addr v).1)))) ∧
    (2 ≤ s.rimPhase → v.toNat < 2 ^ 32 → bits v 15 12 = 0 → exec (.hostDb v) s =
      .next (s.toFabric { type := rtDoorbell, len := 1, addr := bits v 11 0, payload := [BitVec.ofNat 64 (bits v 31 16)] }))

/-- R446 to R448, R450 to R454, R576: what arrives at the host. The oldest control result joins the queue of 128 and sets CTRL_RES, the attestation answer
and telemetry data land in their buffers, an EVENT joins the queue of 256 or is counted dropped; refusals of memory requests end
them; a dropped message is counted by its cause; TIME_SYNC carries the round.
R302, R437, R446 to R448, R451, R454, R511, R563: the host's requests cross the rim. CTRL_GO with 64 outstanding is answered BUSY_RETRY and on a dark
rim TIMEOUT at the host, and joins the operator's queue in SERVICE; TELEM_REQ, ATTEST_GO, FW_GO and RESET_CMD send their messages; telemetry and
the report are answered, and a chunk of an image joins the staging area or is refused; a message with a reserved
header bit set is refused with RSVD_NONZERO. -/
def Obligations.rim_answers_and_host_requests : Prop :=
  (∀ (m : RimMsg) (rest : List RimMsg) (tag : Nat) (st : Status) (s : State), s.host.up = true →
      (takeMsg (fun m => m.type = rtCtrlResult) s.host.toHost = some (m, rest) →
        let u := s.onHost (fun h => { h with toHost := rest, outstanding := h.outstanding - 1 });
        (s.host.results.length < 128 → exec .ctrlResult s =
          .next ((u.onHost (fun h => { h with results := h.results ++ [m.payload] })).setInt flagCtrlRes)) ∧
        (128 ≤ s.host.results.length → exec .ctrlResult s = .next u)) ∧
      (takeMsg (fun m => m.type = rtAttestResp) s.host.toHost = some (m, rest) → exec (.attestResp st) s =
        .next ((s.onHost (fun h => { h with
          toHost := rest, attestBuf := m.payload, attestBusy := false, attestStatus := st.code })).setInt flagAttestDone)) ∧
      (takeMsg (fun m => m.type = rtTelemetry) s.host.toHost = some (m, rest) → exec .telemetryData s =
        .next ((s.onHost (fun h => { h with
          toHost := rest
          telemBuf := m.payload
          telemBusy := false
          summary := if m.addr = 0 then m.payload else h.summary })).setInt flagTelemDone)) ∧
      (takeMsg (fun m => m.type = rtEvent) s.host.toHost = some (m, rest) →
        let e : EventRec := { code := bits (m.payload.getD 0 0) 15 0, round := (m.payload.getD 1 0).toNat, d0 := (m.payload.getD 2 0).toNat, d1 := (m.payload.getD 3 0).toNat }
        Goes (exec .event s) (fun t => t.host.toHost = rest ∧
          (s.host.events.length < 256 → t.host.events = s.host.events ++ [e] ∧ t.host.eventsDropped = s.host.eventsDropped) ∧
          (256 ≤ s.host.events.length → t.host.events = s.host.events ∧ t.host.eventsDropped = sat8 s.host.eventsDropped) ∧
          (e.code = evDc → t.host.dcLog = s.host.dcLog ++ [e] ∧ t.host.cxlLog = s.host.cxlLog) ∧
          (e.code ≠ evDc → t.host.cxlLog = s.host.cxlLog ++ [e] ∧ t.host.dcLog = s.host.dcLog) ∧
          t.host.intStatus = s.host.intStatus ||| (1 <<< flagEvent) ∧ t = { s with host := t.host, out := t.out })) ∧
      (takeMsg (fun m => m.type = rtRimNak && m.tag = tag && m.addr = rtMemRd && m.status = st.code) s.host.toHost = some (m, rest) → st ≠ .ok →
        let u := s.onHost (fun h => { h with toHost := rest })
        exec (.rimNak true tag rtMemRd st) s =
          .next ((if st = .range then u.countHost 0 else u).emit (.hostData tag Status.poison.code (List.replicate 64 0) true))) ∧
      (takeMsg (fun m => m.type = rtRimNak && m.tag = tag && m.addr = rtMemWr && m.status = st.code) s.host.toHost = some (m, rest) →
        let u := s.onHost (fun h => { h with toHost := rest })
        exec (.rimNak true tag rtMemWr st) s =
          .next ((if st = .range then (u.countHost 1).setInt flagRefused else u).emit (.hostData tag 0 [] false))) ∧
      (∀ ty, exec (.rimNak false tag ty st) s = .next s) ∧
      (∀ c, dropCause m = some c →
        exec (.rimMessageDrop true m) s = .next ((s.countHost (4 + c)).setInt flagRimDrop) ∧
        exec (.rimMessageDrop false m) s = .next (s.countHost (12 + c))) ∧
      (m.type = 0 ∨ 16 < m.type → dropCause m = some 0) ∧
      (dropCause m = none → ∀ b, exec (.rimMessageDrop b m) s = .next s) ∧
      (2 ≤ s.rimPhase →
        exec (.timeSync ⟨tag, true⟩) s = .next ((s.pullToFabric (fun x => x.type = rtTimeSync && x.tag = tag)).nak rtTimeSync tag .rsvdNonzero) ∧
        Goes (exec (.timeSync ⟨tag, false⟩) s) (fun t => t.host.roundSync = s.now ∧ ∃ ts, t.out = .time s.now ts :: s.out) ∧
        (s.now % 1024 = 0 → Goes (exec .timeSyncPeriodic s) (fun t => t.host.roundSync = s.now ∧ ∃ ts, t.out = .time s.now ts :: s.out)) ∧
        (s.now % 1024 ≠ 0 → exec .timeSyncPeriodic s = .next s))) ∧
  (∀ (v : U64) (tag sel index : Nat) (nonce ws : List U64) (facts : ImageFacts) (s : State), s.host.up = true →
      (let req := (nums 0 32).map (s.host.ctrlReq.look 0);
        (64 ≤ s.host.outstanding → exec .ctrlGo s = .next (s.takeResult (localResult Status.busyRetry.code req))) ∧
        (s.host.outstanding < 64 → s.rimPhase < 2 → exec .ctrlGo s = .next (s.takeResult (localResult Status.timeout.code req))) ∧
        (s.host.outstanding < 64 → s.rimPhase = 4 → exec .ctrlGo s =
          .next ((s.onHost (fun h => { h with outstanding := h.outstanding + 1 })).enqueue .operator { words := req }))) ∧
      (2 ≤ s.rimPhase →
        (v.toNat < 65536 → exec (.telemReq v) s =
          .next ((s.onHost (fun h => { h with telemBusy := true })).toFabric { type := rtTelemetry, addr := v.toNat })) ∧
        exec .attestGo s = .next ((s.onHost (fun h => { h with attestBusy := true })).toFabric
          { type := rtAttestReq, len := 4, payload := (nums 0 4).map (s.host.nonce.look 0) }) ∧
        (v.toNat < 2 ^ 40 → 1 ≤ bits v 39 32 → bits v 39 32 ≤ 128 → exec (.fwGo v) s =
          .next (s.toFabric { type := rtFwChunk, len := bits v 39 32, addr := bits v 31 0, payload := (nums 0 (bits v 39 32)).map (s.host.fwBuf.look 0) })) ∧
        (v.toNat < 2 ^ 40 → bits v 39 32 = 0 ∨ 128 < bits v 39 32 → exec (.fwGo v) s = .next (s.countHost 14)) ∧
        (bits v 31 4 ≠ 0 → exec (.resetCmd v) s = .next (s.nak rtResetReq 0 .rsvdNonzero)) ∧
        (bits v 31 4 = 0 → bits v 3 0 = 0 ∨ 3 < bits v 3 0 → exec (.resetCmd v) s = .next (s.nak rtResetReq 0 .unsupported)) ∧
        (bits v 31 4 = 0 → 1 ≤ bits v 3 0 → bits v 3 0 ≤ 3 → exec (.resetCmd v) s =
          .next (s.toFabric { type := rtResetReq, len := 1, payload := [v] }))) ∧
      (2 ≤ s.rimPhase →
        let u := s.pullToFabric (fun x => x.type = rtTelemetry && x.tag = tag);
        exec (.telemetry ⟨tag, true⟩ sel) s = .next (u.nak rtTelemetry tag .rsvdNonzero) ∧
        (65536 ≤ sel → exec (.telemetry ⟨tag, false⟩ sel) s = .next (u.nak rtTelemetry tag .rsvdNonzero)) ∧
        (∀ d, sel < 65536 → u.telemetryData sel = some d → exec (.telemetry ⟨tag, false⟩ sel) s =
          .next (u.toHost { type := rtTelemetry, dir := true, tag := tag, len := d.length, addr := sel, payload := d })) ∧
        (sel < 65536 → u.telemetryData sel = none → exec (.telemetry ⟨tag, false⟩ sel) s = .next (u.nak rtTelemetry tag .unsupported))) ∧
      (2 ≤ s.rimPhase →
        let u := s.pullToFabric (fun x => x.type = rtAttestReq && x.tag = tag)
        let d := (bytesWords ((u.report none nonce).length / 8) (u.report none nonce) ++ Config.ideKey u.free).take 2048
        (s.leaseHeld = true → exec (.attestReq ⟨tag, false⟩ nonce) s = .next (({ u with free := u.free + 1 } : State).toHost
          { type := rtAttestResp, dir := true, tag := tag, len := d.length, payload := d })) ∧
        exec (.attestReq ⟨tag, true⟩ nonce) s = .next (u.nak rtAttestReq tag .rsvdNonzero)) ∧
      (2 ≤ s.rimPhase →
        let u := s.pullToFabric (fun x => x.type = rtFwChunk && x.tag = tag);
        ((ws = [] ∨ 128 < ws.length) → ∀ r, exec (.fwChunk ⟨tag, r⟩ index ws facts) s = .next (u.countHost 14)) ∧
        (1 ≤ ws.length → ws.length ≤ 128 → exec (.fwChunk ⟨tag, true⟩ index ws facts) s = .next (u.nak rtFwChunk tag .rsvdNonzero)) ∧
        (1 ≤ ws.length → ws.length ≤ 128 → index < 2 ^ 32 →
          (u.rimPhase = 2 → exec (.fwChunk ⟨tag, false⟩ index ws facts) s = .next (u.nak rtFwChunk tag .notReady)) ∧
          (u.rimPhase = 5 → exec (.fwChunk ⟨tag, false⟩ index ws facts) s = .next (u.nak rtFwChunk tag .busyRetry)) ∧
          (u.rimPhase = 4 → u.rst.mode = .service → u.auth.staging = none →
            exec (.fwChunk ⟨tag, false⟩ index ws facts) s = .next (u.nak rtFwChunk tag .range)) ∧
          (∀ len count got, u.rimPhase = 4 → u.rst.mode = .service → u.auth.staging = some (len, count, got) → index < count →
            1024 * index + 8 * ws.length ≤ len + 7 → exec (.fwChunk ⟨tag, false⟩ index ws facts) s =
            .next ((u.onAuth (fun a => { a with staging := some (len, count, got.put [] index ws) })).stageChunks facts)))))

/-- R9, R10, R452, R453: a pop drops the oldest entry; a write to INT_STATUS clears the flags written as 1 but for one set in the same cycle, and
one with a reserved bit clears none; a plain
register takes what is written; a write of another size, off its alignment or outside BAR0 ends in Completer Abort, and with the host-side
die down nothing happens. -/
def Obligations.host_registers : Prop :=
  ∀ (v : U64) (k : Nat) (s : State),
    (s.host.up = true →
      exec .ctrlResPop s = .next (s.onHost (fun h => { h with results := h.results.drop 1 })) ∧
      exec .eventPop s = .next (s.onHost (fun h => { h with events := h.events.drop 1 })) ∧
      (v.toNat < 4096 → exec (.intStatusWrite v 0) s = .next (s.onHost (fun h => { h with intStatus := h.intStatus &&& ~~~v }))) ∧
      (v.toNat < 4096 → ∀ w : U64, Goes (exec (.intStatusWrite v w) s) (fun t =>
        (∀ i, i < 12 → t.host.intStatus.getLsbD i = (w.getLsbD i || (s.host.intStatus.getLsbD i && !v.getLsbD i))) ∧
        (∀ i, i < 12 → t.host.intCount.look 0 i = if w.getLsbD i then sat8 (s.host.intCount.look 0 i) else s.host.intCount.look 0 i))) ∧
      (4096 ≤ v.toNat → exec (.intStatusWrite v 0) s = .next s ∧ ∀ w : U64, exec (.intStatusWrite v w) s =
        .next (s.each ((List.range 12).filter (fun i => w.getLsbD i)) State.setInt)) ∧
      (v.toNat < 4096 → exec (.hostRegisterWrite 0x18 8 v) s = .next (s.onHost (fun h => { h with intEnable := v }))) ∧
      (4096 ≤ v.toNat → exec (.hostRegisterWrite 0x18 8 v) s = .next s) ∧
      (k < 32 → exec (.hostRegisterWrite (0x100 + 8 * k) 8 v) s = .next (s.onHost (fun h => { h with ctrlReq := h.ctrlReq.put 0 k v }))) ∧
      (k < 1024 → exec (.hostRegisterWrite (0x1000 + 8 * k) 8 v) s = .next (s.onHost (fun h => { h with mbxTx := h.mbxTx.put 0 k v }))) ∧
      (k < 16 → v.toNat < 256 → exec (.hostRegisterWrite (0x3080 + 8 * k) 8 v) s =
        .next (s.onHost (fun h => { h with mbxTxLen := h.mbxTxLen.put 0 k v.toNat }))) ∧
      (k < 4 → exec (.hostRegisterWrite (0x9400 + 8 * k) 8 v) s = .next (s.onHost (fun h => { h with nonce := h.nonce.put 0 k v }))) ∧
      (k < 128 → exec (.hostRegisterWrite (0x9800 + 8 * k) 8 v) s = .next (s.onHost (fun h => { h with fwBuf := h.fwBuf.put 0 k v }))) ∧
      (0x9C00 ≤ k → k < 0x10000 → k % 8 = 0 → exec (.hostRegisterWrite k 8 v) s = .next s) ∧
      (0x10000 ≤ k ∨ k % 8 ≠ 0 → exec (.hostRegisterWrite k 8 v) s = .next (s.emit (.abort k))) ∧
      (∀ n, n ≠ 4 → n ≠ 8 → exec (.hostRegisterWrite k n v) s = .next (s.emit (.abort k)))) ∧
    (s.host.up = false → exec .ctrlResPop s = .next s ∧ exec .eventPop s = .next s ∧ exec .ctrlGo s = .next s ∧
      ∀ n w, exec (.intStatusWrite v w) s = .next s ∧ exec (.hostRegisterWrite k n v) s = .next s)

/-! ### The CXL mailbox and host services -/

/-- R435, R436, R438 to R440, R554: the primary mailbox. Until SERVICE every command is answered Busy; in SERVICE each command is answered, with the contents
that the spec leaves open free values; the Dynamic Capacity commands go to the stake, or are answered Retry with no lease. The return codes
are the CXL specification's. -/
def Obligations.cxl_mailbox_commands : Prop :=
  ∀ (log n req op : Nat) (entry : Fin 64) (policy : U64) (s : State), s.host.up = true →
    let ans := fun (s : State) (code : Nat) (ws : List U64) => s.onHost (fun h => { h with cxlReturn := code, cxlPayload := ws })
    (s.rst.mode = .service →
      exec .identifyMemoryDevice s = .next (ans s 0 (Config.cxlAnswer 0x4000 s.host.summary)) ∧
      exec .getSupportedLogs s = .next (ans s 0 (Config.cxlAnswer 0x0400 s.host.summary)) ∧
      exec .getLog s = .next (ans s 0 (Config.cxlAnswer 0x0401 s.host.summary)) ∧
      exec .getHealthInfo s = .next (ans s 0 (Config.cxlAnswer 0x4200 s.host.summary)) ∧
      (log = 4 →
        exec (.getEventRecords log) s = .next (ans s 0 (s.host.dcLog.flatMap
          (fun e => [BitVec.ofNat 64 e.code, BitVec.ofNat 64 e.round, BitVec.ofNat 64 e.d0, BitVec.ofNat 64 e.d1]))) ∧
        exec (.clearEventRecords log n) s = .next (ans (s.onHost (fun h => { h with dcLog := h.dcLog.drop n })) 0 [])) ∧
      (log < 4 →
        exec (.getEventRecords log) s = .next (ans s 0 ((s.host.cxlLog.filter (fun e => (Config.cxlSeverity e.code).val = log)).flatMap
          (fun e => [BitVec.ofNat 64 e.code, BitVec.ofNat 64 e.round, BitVec.ofNat 64 e.d0, BitVec.ofNat 64 e.d1]))) ∧
        Goes (exec (.clearEventRecords log n) s) (fun t =>
          t.host.cxlLog.filter (fun e => (Config.cxlSeverity e.code).val = log) =
            (s.host.cxlLog.filter (fun e => (Config.cxlSeverity e.code).val = log)).drop n ∧
          t.host.cxlLog.filter (fun e => (Config.cxlSeverity e.code).val ≠ log) =
            s.host.cxlLog.filter (fun e => (Config.cxlSeverity e.code).val ≠ log) ∧
          t.host.cxlReturn = 0 ∧ t.host.cxlPayload = [] ∧ t.host.dcLog = s.host.dcLog)) ∧
      (4 < log → exec (.getEventRecords log) s = .next (ans s 2 []) ∧ exec (.clearEventRecords log n) s = .next (ans s 2 [])) ∧
      exec .getEventInterruptPolicy s = .next (ans s 0 [s.host.policy]) ∧
      exec (.setEventInterruptPolicy policy) s = .next (ans (s.onHost (fun h => { h with policy := policy })) 0 []) ∧
      exec (.unsupportedMailboxCommand op) s = .next (ans s 3 []) ∧
      (s.leaseHeld = true → s.putStatus idHost 64 0 3 = .ok →
        exec (.getDynamicCapacityConfiguration req) s = .next (ans s 0 [1, 0, 0x1000000000, 0x200000]) ∧
        exec (.getDynamicCapacityExtentList req) s = .next (ans s 0 ((s.future.hostEntries.filter (fun e => e.2.st = 2)).flatMap
          (fun e => [BitVec.ofNat 64 e.2.dpa, BitVec.ofNat 64 (e.2.blocks * 0x200000)]))) ∧
        ((s.future.host.exts.look {} entry.val).st = 1 →
          exec (.addDynamicCapacityResponse req entry) s = .next (ans (s.stage 0 [.hostExtent entry.val 2]) 0 [])) ∧
        ((s.future.host.exts.look {} entry.val).st ≠ 1 → exec (.addDynamicCapacityResponse req entry) s = .next (ans s 2 [])) ∧
        ((s.future.host.exts.look {} entry.val).st = 1 ∨ (s.future.host.exts.look {} entry.val).st = 2 →
          exec (.releaseDynamicCapacity req entry) s = .next (ans (s.stage 0 [.hostExtent entry.val 3]) 0 []))) ∧
      (s.leaseHeld = false → ∀ c, c = .getDynamicCapacityConfiguration req ∨ c = .getDynamicCapacityExtentList req ∨
        c = .addDynamicCapacityResponse req entry ∨ c = .releaseDynamicCapacity req entry → exec c s = .next (ans s 5 []))) ∧
    (s.rst.mode ≠ .service → ∀ c, c = .identifyMemoryDevice ∨ c = .getSupportedLogs ∨ c = .getLog ∨ c = .getHealthInfo ∨
      c = .getEventRecords log ∨ c = .clearEventRecords log n ∨ c = .getEventInterruptPolicy ∨ c = .setEventInterruptPolicy policy ∨
      c = .getDynamicCapacityConfiguration req ∨ c = .getDynamicCapacityExtentList req ∨ c = .addDynamicCapacityResponse req entry ∨
      c = .releaseDynamicCapacity req entry ∨ c = .unsupportedMailboxCommand op → exec c s = .next (ans s 6 []))

/-- R439, R440, R460, R553: the host services of the stake that holds the lease. An offer of an active, certified extent of the HOST partition takes a free
entry of the host extent table and a free DPA range at the effect boundary; a withdrawal asks the host, or with FORCE takes the extent back; a good
configuration record is staged; an entry in release is freed eight rounds on, and its unfinished requests are cancelled. -/
def Obligations.host_services : Prop :=
  ∀ (id e pva i a : Nat) (entry : Fin 64) (w0 w1 : U64) (key : List U64) (s : State),
    let f := s.future
    let x := f.extent e
    let u := s.takeService 64 0x01 id
    let w := s.takeService 64 0x02 id
    (s.leaseHeld = true →
      (e < 16384 → pva < 2 ^ 48 →
        (x.st ≠ .active ∨ f.hostPart ≠ some x.holder → exec (.dcOffer id e pva) s = .next (u.serve 80 0x01 id { st := .perm })) ∧
        (x.st = .active → f.hostPart = some x.holder →
          (x.root = true ∨ x.hosted = true ∨ x.region ≠ none → exec (.dcOffer id e pva) s = .next (u.serve 80 0x01 id { st := .conflict })) ∧
          (x.root = false → x.hosted = false → x.region = none →
            (x.certified < x.blocks.length → exec (.dcOffer id e pva) s = .next (u.serve 80 0x01 id { st := .notReady })) ∧
            (x.blocks.length ≤ x.certified →
              (List.range 64).find? (fun i => (f.host.exts.look {} i).st = 0) = some i →
              freeDpa (f.hostEntries.map (fun y => (y.2.dpa / 0x200000, y.2.blocks))) x.blocks.length = some a →
              (pva % 0x200000 ≠ 0 → exec (.dcOffer id e pva) s = .next (u.serve 80 0x01 id { st := .range })) ∧
              (pva % 0x200000 = 0 → f.hostEntries.foldl (fun n y => n + y.2.blocks) 0 + x.blocks.length ≤ 32768 →
                exec (.dcOffer id e pva) s = .next (u.stage 0 [.hostOffer i e (a * 0x200000) pva x.blocks.length,
                  .notice 80 [answerWord 0x01 id .ok, BitVec.ofNat 64 (a * 0x200000)]])))))) ∧
      (e < 16384 → ∀ y, w.future.hostEntries.find? (fun x => x.2.ext = e && (x.2.st = 1 || x.2.st = 2)) = some (i, y) →
        exec (.dcWithdraw id e true) s = .next (w.stage 0 [.hostExtent i 3, .notice 80 [answerWord 0x02 id .ok]]) ∧
        exec (.dcWithdraw id e false) s = .next ((w.event evDc i y.st).serve 80 0x02 id {})) ∧
      (let c := s.takeService 65 0x20 id;
        (bits w1 63 16 = 0 → bits w0 31 0 = 0x47464353 → 1 ≤ bits w0 49 43 → bits w0 49 43 ≤ 64 → 4 ≤ bits w0 63 50 → bits w0 63 50 ≤ 8191 →
          exec (.cfgStage id w0 w1 key) s =
            .next ((c.persistChange.onHost (fun h => { h with cfgStaged := some (w0, w1, key) })).serve 81 0x20 id {})) ∧
        (bits w1 63 16 ≠ 0 → exec (.cfgStage id w0 w1 key) s = .next (c.serve 81 0x20 id { st := .rsvdNonzero })))) ∧
    (s.leaseHeld = false → exec (.dcOffer id e pva) s = .next s ∧ (∀ b, exec (.dcWithdraw id e b) s = .next s) ∧
      exec (.cfgStage id w0 w1 key) s = .next s) ∧
    (let y := s.host.exts.look {} entry.val;
      (y.st = 3 → y.since + 8 ≤ s.now → exec (.hostExtentFree entry) s =
        .next (((s.cancelHosts y).onExtent y.ext (fun e => { e with hosted := false })).setHostExt entry.val (fun _ => {}))) ∧
      (y.st ≠ 3 ∨ s.now < y.since + 8 → exec (.hostExtentFree entry) s = .next s))

/-! ### Samples, snapshots and debug -/

/-- R484, R543 to R546, R548, R549: the record of a tagged instruction goes to its owner's ring, or is counted lost, and to the operator's ring of 6,144; two rounds
after a snapshot boundary its record goes to the ring of the partition that named it, and to the operator's ring of eight in
each half's metadata; a signed challenge
unlocks the debug path, and a halt waits for a stroke that did not consent. -/
def Obligations.samples_snapshots_and_debug : Prop :=
  ∀ (w : WeaverId) (m : SampleTimes) (b p : Nat) (reach : List PartId) (s : State),
    let g := s.weaver w.val
    let u := s.onWeaver w.val (fun x => { x with tagged := none })
    (g.tagged = none → exec (.sampleRecordWrite w m) s = .next s) ∧
    (∀ k, g.tagged = some k →
      (k.owner = false → k.oper = false → exec (.sampleRecordWrite w m) s = .next u) ∧
      (k.owner = false → k.oper = true → exec (.sampleRecordWrite w m) s = .next (u.onCnt (fun c => { c with
        samples := ((sampleWord0 s.cnt.sampleSeq k.part w.val :: sampleWords k (k.round / 64 * 64) m ++ [0, 0, 0]) :: c.samples).take 6144
        sampleSeq := (c.sampleSeq + 1) % 2 ^ 32 }))) ∧
      (k.owner = true → k.oper = false → (s.part k.part).sampler = none → exec (.sampleRecordWrite w m) s = .next (u.countOf k.part 26 1)) ∧
      (∀ x pva lg, k.owner = true → k.oper = false → (s.part k.part).sampler = some (x, pva, lg) →
        let q := (s.part k.part).sampleSeq
        let r := u.writePva k.part (pva + 64 * (q % 2 ^ lg)) (wordBytes (sampleWord0 q k.part w.val :: sampleWords k k.round m ++ [0, 0, 0]))
        (r = none → exec (.sampleRecordWrite w m) s = .next (u.countOf k.part 26 1)) ∧
        (∀ t, r = some t → exec (.sampleRecordWrite w m) s =
          .next ((t.onPart k.part (fun x => { x with sampleSeq := (x.sampleSeq + 1) % 2 ^ 32 })).countOf k.part 25 1)))) ∧
    (s.now < b + 2 → exec (.snapshotRecordWrite b) s = .next s) ∧
    (b + 2 ≤ s.now → s.spineGone = false →
      (b ∈ s.cnt.snaps → List.filter (fun (e : Nat × Partition) => decide (b ∈ e.2.snaps)) s.parts = [] → exec (.snapshotRecordWrite b) s =
        .next (((s.onCnt (fun c => { c with
          snaps := c.snaps.filter (· ≠ b)
          ring := ((b, c.seq, false, if b % 2 = 0 then c.shadow0 else c.shadow1) :: c.ring).take 8
          seq := c.seq + 1 })).metaWrite 0 (8 * snapValues)).metaWrite 1 (8 * snapValues))) ∧
      (∀ y, b ∉ s.cnt.snaps → List.filter (fun (e : Nat × Partition) => decide (b ∈ e.2.snaps)) s.parts = [(p, y)] →
        let v := s.onPart p (fun x => { x with snaps := x.snaps.filter (· ≠ b) })
        ((s.part p).snapRing = none → exec (.snapshotRecordWrite b) s = .next (v.countOf p 27 1)) ∧
        (∀ r t, (s.part p).snapRing = some r → v.putSnap p (r.1 + 576 * ((s.part p).snapSeq % 2 ^ r.2)) (s.snapRecord p b false) = some t →
          exec (.snapshotRecordWrite b) s = .next (t.onPart p (fun x => { x with snapSeq := (x.snapSeq + 1) % 2 ^ 32 }))))) ∧
    (s.leaseHeld = true → Goes (exec (.debugUnlock true reach) s) (fun t => t.auth.unlocked = true ∧
      (∀ q : PartId, q ∈ reach → (s.part q.val).live = true → (s.part q.val).dbg = true →
        t.part q.val = { s.part q.val with debugSessions := ((s.part q.val).debugSessions + 1) % 2 ^ 32 }) ∧
      (∀ q : PartId, q ∉ reach ∨ (s.part q.val).live = false ∨ (s.part q.val).dbg = false → t.part q.val = s.part q.val))) ∧
    exec (.debugUnlock false reach) s = .next s ∧
    (s.auth.unlocked = true →
      (g.run = none → exec (.debugHalt w) s = .next (s.onAuth (fun a => { a with halted := setAdd a.halted w.val }))) ∧
      (∀ r, g.run = some r → (s.part r.s.part).dbg = true → exec (.debugHalt w) s =
        .next (s.onAuth (fun a => { a with halted := setAdd a.halted w.val }))) ∧
      (∀ r, g.run = some r → (s.part r.s.part).dbg = false → exec (.debugHalt w) s =
        .next (s.onAuth (fun a => { a with haltWait := setAdd a.haltWait w.val })))) ∧
    (s.auth.unlocked = false → exec (.debugHalt w) s = .next s)

/-! ### Stakes and authority -/

/-- R57, R490, R497, R500, R501, R503: an ACTIVE stake that misses two watchdog writes, or whose SRAM or secure element fails, is FAILED, and what
it staged in the round is discarded. The lease of a FAILED holder
ends: with the other stake fit and the spine there, the other stake is released from reset and holds the next epoch, PENDING; else no stake
has the lease. A takeover whose image and replay pass makes the new holder ACTIVE, completes the journal
with a record that is missing, in both copies, and sends its renewal; one that fails moves the lease again.
R504 to R506: the incoming stake that has booted and replayed the journal reads its image, is SHADOW and sets the boundary two rounds on; at that
boundary the next epoch goes to it and the outgoing stake enters reset; a time limit or an image that fails returns the incoming stake to
reset and leaves the lease; the home stake, once fit, gets a handover. -/
def Obligations.leases_and_handovers : Prop :=
  (∀ (k : HalfId) (n : Nat) (a b rok : Bool) (facts : ImageFacts) (s : State),
      let l := s.lease s.activeHalf
      let old := l.holder
      let other := 1 - old
      ((s.stake k.val).st = .active → 2 ≤ n ∨ a = true ∨ b = true →
        (s.leaseHeld = true → old = k.val → exec (.stakeHealthFail k n a b) s =
          .next (s.discardStaged.onStake k.val (fun x => { x with st := .failed, passDone := false })) ∧
          s.discardStaged.ctl = { s.ctl with
            staged := [], deltas := [], results := s.ctl.results.filter (fun r => r.ready || decide (r.effect ≠ s.now + 1)) }) ∧
        (s.leaseHeld = false ∨ old ≠ k.val →
          exec (.stakeHealthFail k n a b) s = .next (s.onStake k.val (fun x => { x with st := .failed, passDone := false })))) ∧
      ((s.stake k.val).st ≠ .active ∨ (n < 2 ∧ a = false ∧ b = false) → exec (.stakeHealthFail k n a b) s = .next s) ∧
      (s.rst.mode = .service → l.epoch ≠ 0 → l.st = .valid → (s.stake old).st = .failed →
        ((s.stake other).st ≠ .failed → s.spineGone = false → Goes (exec .leaseEnd s) (fun t =>
          (∀ h, t.lease h = { s.lease h with epoch := ((s.lease h).epoch + 1) % 2 ^ 32, holder := other, st := .pending, handover := 0 }) ∧
          t.stake other = { s.stake other with st := .booting, releasedAt := s.now } ∧ t.stake old = s.stake old ∧
          t.ctl.stakeQ = [] ∧ t.ctl.operQ = [] ∧ t.ctl.ownerQ = [] ∧ t.ctl.background = [] ∧ t.ctl.staged = [] ∧
          t.ctl.copy0 = s.ctl.copy0 ∧ t.ctl.copy1 = s.ctl.copy1 ∧ t.mem = s.mem ∧ t.parts = s.parts ∧ t.extents = s.extents)) ∧
        ((s.stake other).st = .failed ∨ s.spineGone = true → Goes (exec .leaseEnd s) (fun t =>
          (∀ h, t.lease h = { s.lease h with st := .none, handover := 0 }) ∧ t.leaseHeld = false ∧
          (∀ h, t.stake h = s.stake h) ∧ t.mem = s.mem ∧ t.parts = s.parts ∧ t.extents = s.extents))) ∧
      (s.rst.mode ≠ .service ∨ l.epoch = 0 → exec .leaseEnd s = .next s) ∧
      (l.st = .pending →
        (imageStatus (s.stake old) facts = .ok → s.ctl.applied ≤ s.lastJournalled → exec (.takeoverComplete facts true) s =
          .next ((s.onStake old (fun x => { x with runDigest := facts.digest, runSvn := facts.svn, st := .active })).onAuth
            (fun x => { x with renewal := some l.epoch }))) ∧
        (imageStatus (s.stake old) facts = .ok → s.lastJournalled < s.ctl.applied →
          let u := s.onStake old (fun x => { x with runDigest := facts.digest, runSvn := facts.svn, st := .active })
          let j := u.newRecord s.ctl.applied true (s.ctl.appliedEntries.map u.fillEntry)
          let kept := fun (x : JournalCopy) => j :: x.ring.filter (fun y => y.round % 16384 ≠ s.ctl.applied % 16384)
          exec (.takeoverComplete facts true) s = .next ((u.writeRecord j).onAuth (fun x => { x with renewal := some l.epoch })) ∧
          j.completed = true ∧ j.round = s.ctl.applied ∧
          (s.spineGone = false → (u.writeRecord j).ctl.copy0.ring = kept s.ctl.copy0 ∧ (u.writeRecord j).ctl.copy1.ring = kept s.ctl.copy1)) ∧
        (imageStatus (s.stake old) facts ≠ .ok ∨ rok = false → exec (.takeoverComplete facts rok) s = exec .takeoverFailed s) ∧
        ((s.stake other).st ≠ .failed → s.spineGone = false → Goes (exec .takeoverFailed s) (fun t =>
          (t.stake old).st = .failed ∧ (t.stake other).st = .booting ∧ (t.lease s.activeHalf).epoch = (l.epoch + 1) % 2 ^ 32 ∧
          (t.lease s.activeHalf).holder = other ∧ (t.lease s.activeHalf).st = .pending)) ∧
        ((s.stake other).st = .failed → Goes (exec .takeoverFailed s) (fun t =>
          (t.stake old).st = .failed ∧ (t.lease s.activeHalf).st = .none ∧ t.leaseHeld = false))) ∧
      (l.st ≠ .pending → exec (.takeoverComplete facts rok) s = .next s ∧ exec .takeoverFailed s = .next s)) ∧
  (∀ (k : Nat) (tag : Option Nat) (facts : ImageFacts) (s : State),
      let l := s.lease s.activeHalf
      let img := if (s.stake k).keep = .valid then s.stake k else s.stake (1 - k)
      (s.auth.handover = some (k, tag) →
        ((s.stake k).st = .booting ∨ (s.stake k).st = .shadow → l.st = .valid → exec .handoverReady s =
          .next ((s.onStake k (fun x => { x with runDigest := img.keepDigest, runSvn := img.keepSvn, st := .shadow })).onLeases
            (fun l => { l with st := .handover, handover := s.now + 2 }))) ∧
        ((s.stake k).st ≠ .booting → (s.stake k).st ≠ .shadow →
          exec .handoverReady s = .next s ∧ ∀ b, exec (.handoverFailed facts b) s = .next s) ∧
        (l.st = .handover → l.handover ≤ s.now → Goes (exec .handoverBoundary s) (fun t =>
          (∀ h, t.lease h = { s.lease h with
            epoch := (l.epoch + 1) % 2 ^ 32, holder := k, st := .valid, handover := 0, expiry := s.now + 4 }) ∧
          (t.stake k).st = .active ∧ ((s.stake (1 - k)).st ≠ .failed → (t.stake (1 - k)).st = .standby ∧ (t.stake (1 - k)).passDone = false) ∧
          t.auth.handover = none ∧ (∀ b ∈ t.ctl.background, b.done = true) ∧ t.mem = s.mem ∧ t.parts = s.parts ∧ t.extents = s.extents ∧
          (∀ g, tag = some g → ∀ r ∈ s.ctl.results, r.opcode = 0xD8 → r.tag = g → r.ready = false →
            { r with status := 0, results := [(l.epoch + 1) % 2 ^ 32], ready := true } ∈ t.ctl.results))) ∧
        (l.st ≠ .handover ∨ s.now < l.handover → exec .handoverBoundary s = .next s) ∧
        ((s.stake k).st = .booting → l.st ≠ .handover →
          (∀ b, (b = true ∨ imageStatus (s.stake k) facts ≠ .ok) → Goes (exec (.handoverFailed facts b) s) (fun t =>
            t.auth.handover = none ∧ (t.stake k).st = .standby ∧ (t.stake k).passDone = false ∧ t.stake (1 - k) = s.stake (1 - k) ∧
            t.lease s.activeHalf = l ∧
            (∀ g, tag = some g → ∀ r ∈ s.ctl.results, r.opcode = 0xD8 → r.tag = g → r.ready = false →
              { r with
                status := (if b then Status.timeout else Status.integrity).code
                results := []
                ready := true } ∈ t.ctl.results))) ∧
          (imageStatus (s.stake k) facts = .ok → exec (.handoverFailed facts false) s = .next s))) ∧
      (s.auth.handover = none → exec .handoverReady s = .next s ∧ exec .handoverBoundary s = .next s ∧ ∀ b, exec (.handoverFailed facts b) s = .next s) ∧
      (let h := s.rst.homeHalf
        let x := s.stake h
        (l.st = .valid → l.holder ≠ h → x.st = .standby → x.passDone = true → x.keep = .valid → x.keepDigest = s.holderStake.runDigest →
          s.spineGone = false → s.auth.handover = none → s.auth.staging = none → s.auth.writing = none →
          exec .homeStakeReturn s = .next (s.onAuth (fun a => { a with handover := some (h, none) }))) ∧
        (l.holder = h ∨ x.passDone = false ∨ s.spineGone = true ∨ s.auth.handover ≠ none → exec .homeStakeReturn s = .next s)))

/-- R21, R341, R468, R498, R508 to R512, R552: with both bridges gone, or one of them and a half's weave-to-weave link, the half without the holder
sets SPINE_LOST, until a path is back, its journal copy is written again from the other one, and the leases agree again; a
keep store that has been read back is VALID; a staging area without its chunks for 65,536 rounds fails with TIMEOUT; a stake that has verified an
image returns to reset, or is FAILED; a checkpoint is written once at its round, in its slot of both copies, with the margins of weavers, and ROLLBACK rises after an
update that both stakes run. -/
def Obligations.spine_keep_stores_and_checkpoints : Prop :=
  ∀ (k : HalfId) (facts : ImageFacts) (w : WeaverId) (n : Nat) (s : State),
    let x := s.weaver w.val
    (s.auth.bridge0 = false → s.auth.bridge1 = false → s.spineGone = false → s.auth.handover = none → exec .spineLoss s =
      .next (s.onLease (1 - s.activeHalf) (fun l => { l with spineLost := true }))) ∧
    (∀ h : HalfId, s.auth.bridge0 = false ∨ s.auth.bridge1 = false → h.val ∈ s.auth.weaveLost → (s.die (2 * h.val)).ok = true →
      (s.die (2 * h.val + 1)).ok = true → s.spineGone = false → s.auth.handover = none → exec .spineLoss s =
        .next (s.onLease (1 - s.activeHalf) (fun l => { l with spineLost := true }))) ∧
    ((s.auth.bridge0 = true ∧ s.auth.bridge1 = true) ∨ s.spineGone = true → exec .spineLoss s = .next s) ∧
    (s.auth.bridge0 = true ∨ s.auth.bridge1 = true → s.auth.weaveLost = [] → exec .spineLoss s = .next s) ∧
    (s.spineGone = true →
      let up := fun (d : Nat) => (s.die d).ok && (s.die d).failed.isNone
      let u := s.onAuth (fun a => { a with bridge0 := up 0 && up 2, bridge1 := up 1 && up 3 })
      (u.spinePath = true → Goes (exec .spineReturn s) (fun t =>
        t.journalCopy (1 - s.activeHalf) = s.journalCopy (1 - (1 - s.activeHalf)) ∧ t.auth = { u.auth with copied := true } ∧
        t = { s with auth := t.auth, ctl := t.ctl })) ∧
      (u.spinePath = false → exec .spineReturn s = .next u) ∧
      (s.auth.copied = true → Goes (exec .spineRejoin s) (fun t =>
        (∀ h, t.lease h = { s.lease s.activeHalf with spineLost := false, fenced := false }) ∧ t.spineGone = false ∧ t.auth.copied = false)) ∧
      (s.auth.copied = false → exec .spineRejoin s = .next s)) ∧
    (s.spineGone = false → exec .spineReturn s = .next s ∧ exec .spineRejoin s = .next s) ∧
    (∀ digest svn fs, s.auth.writing = some (k.val, digest, svn, fs) →
      (s.auth.keepPaused = false → s.auth.stagedImage = none → s.auth.updating = false → exec (.keepStoreWriteDone k true) s =
        .next ((s.onStake k.val (fun x => { x with keep := .valid, keepDigest := digest, keepSvn := svn })).onAuth
          (fun a => { a with writing := none }))) ∧
      (s.auth.keepPaused = true → ∀ b, exec (.keepStoreWriteDone k b) s = .next s) ∧
      exec (.keepStoreWriteDone k false) s = .next s) ∧
    (s.auth.writing = none → ∀ b, exec (.keepStoreWriteDone k b) s = .next s) ∧
    (∀ b, s.ctl.background.find? (fun b => b.op = 0xD9 && !b.done) = some b →
      (s.staged = false → b.started + 65536 ≤ s.now → exec .fwStageTimeout s =
        .next (((s.onAuth (fun a => { a with staging := none, stagedImage := none })).onCtl (fun c => { c with
          background := c.background.map (fun y => if y = b then { y with done := true } else y) })).settleCtl b.issuer b.req (.fail .timeout []))) ∧
      (s.staged = true ∨ s.now < b.started + 65536 → exec .fwStageTimeout s = .next s)) ∧
    ((s.stake k.val).st = .verifying →
      (imageStatus (s.stake k.val) facts = .ok → s.auth.updating = false → exec (.verificationBootEnd k facts) s =
        .next (s.onStake k.val (fun x => { x with
          runDigest := facts.digest, runSvn := facts.svn, st := .standby, passDone := false, retest := false, passed := 0 }))) ∧
      (imageStatus (s.stake k.val) facts ≠ .ok → exec (.verificationBootEnd k facts) s =
        .next (s.onStake k.val (fun x => { x with st := .failed, passDone := false })).authority)) ∧
    ((s.stake k.val).st ≠ .verifying → exec (.verificationBootEnd k facts) s = .next s) ∧
    (s.leaseHeld = true → s.now % 4096 = 0 → s.checkpointed = false →
      let u := s.writeCheckpoint s.newCheckpoint
      (s.spineGone = false → s.now % 8192 = 0 → u.ctl = { s.ctl with
        copy0 := { s.ctl.copy0 with slot0 := some s.newCheckpoint }, copy1 := { s.ctl.copy1 with slot0 := some s.newCheckpoint } }) ∧
      (s.spineGone = false → s.now % 8192 ≠ 0 → u.ctl = { s.ctl with
        copy0 := { s.ctl.copy0 with slot1 := some s.newCheckpoint }, copy1 := { s.ctl.copy1 with slot1 := some s.newCheckpoint } }) ∧
      (s.auth.updateDone = false → exec (.checkpoint []) s = .next u) ∧
      (s.auth.updateDone = true → s.auth.stake0.runSvn = s.auth.stake1.runSvn → Goes (exec (.checkpoint []) s) (fun t =>
        (∀ h, t.stake h = { s.stake h with rollback := max (s.stake h).rollback s.auth.stake0.runSvn }) ∧
        t.auth.updateDone = false ∧ t.ctl = u.ctl)) ∧
      (s.auth.updateDone = false → x.st = .active → Goes (exec (.checkpoint [(w, n)]) s) (fun t => t.ctl = u.ctl ∧
        (16 ≤ n → t.weaver w.val = { x with margin := n, low := false }) ∧
        (n < 16 → x.low = false → t.weaver w.val = { x with margin := n, low := true }) ∧
        (n < 16 → x.low = true → x.age < x.fmax → t.weaver w.val = { x with margin := n, age := x.age + 1, low := false }) ∧
        (n < 16 → x.low = true → x.fmax ≤ x.age → t.weaver w.val = { x with margin := n, ageOut := true })))) ∧
    (s.now % 4096 ≠ 0 ∨ s.checkpointed = true ∨ s.leaseHeld = false → ∀ l, exec (.checkpoint l) s = .next s) ∧
    (s.leaseHeld = true → s.auth.keepPaused = false → exec .persistentAreaWrite s = .next (s.onRst (fun r => { r with persistDue := false }))) ∧
    (s.auth.keepPaused = true → exec .persistentAreaWrite s = .next s)

/-! ### Power and temperature -/

/-- R308, R513 to R517, R525, R529, R532: losing a feed starts SINGLE_FEED and gaining the second ends it; a sag below the threshold starts SAG_WARN, pauses the keep
stores and writes buffered metadata out, and 1 V above it the sag ends; below 38.0 V the fabric side loses its power; above 61.0 V is
OVERVOLT; 64 rounds above the cap and 16 without an allotment start their conditions. Each sends its SUPPLY event once. -/
def Obligations.supply_conditions : Prop :=
  ∀ (b : Bool) (v : Nat) (s : State),
    let u := s.onPower (fun x => { x with bus := v })
    let x := s.power
    let flush := fun (s : State) (h : Nat) => s.onHalf h (fun x => if x.refresh = .asleep ∧ x.metaBuf ≠ 0 then { x with refresh := .flushing, metaBuf := 0 } else x)
    (x.feedA = true → exec (.feedLost false) s = .next ((s.onPower (fun x => ({ x with feedA := false } : PowerSt).begin condSingle)).event evSupply 3 0)) ∧
    (x.feedB = true → exec (.feedLost true) s = .next ((s.onPower (fun x => ({ x with feedB := false } : PowerSt).begin condSingle)).event evSupply 3 1)) ∧
    (x.feedA = false → exec (.feedLost false) s = .next s) ∧
    (x.feedA = false → x.feedB = true → exec (.feedRestored false) s =
      .next ((s.onPower (fun x => ({ x with feedA := true } : PowerSt).clearCond condSingle)).event evSupply 4 0)) ∧
    (x.feedA = false → x.feedB = false → exec (.feedRestored false) s = .next ((s.onPower (fun x => { x with feedA := true })).event evSupply 4 0)) ∧
    (x.feedB = false → x.feedA = true → exec (.feedRestored true) s =
      .next ((s.onPower (fun x => ({ x with feedB := true } : PowerSt).clearCond condSingle)).event evSupply 4 1)) ∧
    (x.feedB = true → exec (.feedRestored true) s = .next s) ∧
    (v < 5 * x.sagWarn → x.holds condSag = false → exec (.sagWarn v) s =
      .next ((flush (flush ((u.onPower (fun x => x.setCond condSag)).onAuth (fun a => { a with keepPaused := true })) 0) 1).event evSupply 1 v)) ∧
    (5 * x.sagWarn ≤ v ∨ x.holds condSag = true → exec (.sagWarn v) s = .next u) ∧
    (5 * x.sagWarn + 10 ≤ v → x.holds condSag = true → exec (.sagClear v) s =
      .next (((u.onPower (fun x => x.clearCond condSag)).onAuth (fun a => { a with keepPaused := false })).event evSupply 2 v)) ∧
    (v < 5 * x.sagWarn + 10 ∨ x.holds condSag = false → exec (.sagClear v) s = .next u) ∧
    (v < 380 → Goes (exec (.undervoltReset v) s) (fun t => t.rst.mode = .off ∧ t.parts = [] ∧ t.extents = [] ∧ t.mem = {} ∧ t.ctl = {} ∧
      t.rst.firstEvent = some { code := evSupply, round := 0, d0 := 5, d1 := v } ∧ t.auth.stake0.keep = s.auth.stake0.keep ∧
      t.auth.stake1.keep = s.auth.stake1.keep ∧ t.power.bus = v)) ∧
    (380 ≤ v → exec (.undervoltReset v) s = .next u) ∧
    (610 < v → x.holds condOvervolt = false → exec (.overvolt v) s = .next ((u.onPower (fun x => x.setCond condOvervolt)).event evSupply 7 v)) ∧
    (v ≤ 610 → exec (.overvolt v) s = .next u ∧ exec (.overvoltClear v) s = .next (u.onPower (fun x => x.clearCond condOvervolt))) ∧
    (610 < v → exec (.overvoltClear v) s = .next u) ∧
    (64 ≤ x.overRounds → x.holds condHeldOver = false → exec .capHeldOver s =
      .next ((s.onPower (fun x => x.setCond condHeldOver)).event evSupply 6 x.eff)) ∧
    (x.overRounds < 64 ∨ x.holds condHeldOver = true → exec .capHeldOver s = .next s) ∧
    (x.learned = true → x.group ≠ 0 → 16 ≤ x.allotAge → x.holds condFallback = false → exec .groupFallback s =
      .next ((s.onPower (fun x => x.setCond condFallback)).event evSupply 8 x.group)) ∧
    (x.learned = false ∨ x.group = 0 ∨ x.allotAge < 16 → exec .groupFallback s = .next s)

/-- R339, R340, R520 to R523, R530 to R532, R577: a sensor at its threshold starts THERMAL_THROTTLE, which ends once none is; a trip turns the power stage off and THERMTRIP_N on,
until the cooldown ends; every 64 rounds the ceiling moves by its rules and each weaver's clock follows its partitions' preferences. -/
def Obligations.temperatures_and_operating_points : Prop :=
  ∀ (n v : Nat) (s : State),
    let x := s.power
    let u := s.onPower (fun x => { x with sensors := x.sensors.put 0 n v, hottest := max x.hottest v })
    let th := if 8 ≤ n % 32 then 95 else 105
    (v < th → exec (.throttle n v) s = .next u) ∧
    (th ≤ v → x.sensors.look 0 n < th → exec (.throttle n v) s = .next ((u.onPower (fun x => x.begin condThrottle)).event evThermal 1 n)) ∧
    (th ≤ v → th ≤ x.sensors.look 0 n → exec (.throttle n v) s = .next (u.onPower (fun x => x.begin condThrottle))) ∧
    (u.power.hot = false → x.holds condThrottle = true → exec (.throttleClear n v) s =
      .next ((u.onPower (fun x => x.clearCond condThrottle)).event evThermal 2 n)) ∧
    (u.power.hot = true ∨ x.holds condThrottle = false → exec (.throttleClear n v) s = .next u) ∧
    (th + 10 ≤ v → Goes (exec (.trip n v) s) (fun t => t.rst.mode = .off ∧ t.rst.stageOff = true ∧ t.rst.thermtrip = true ∧
      t.parts = [] ∧ t.extents = [] ∧ t.mem = {} ∧ t.rst.firstEvent = some { code := evThermal, round := 0, d0 := 4, d1 := n })) ∧
    (v < th + 10 → exec (.trip n v) s = .next u) ∧
    (s.rst.stageOff = true → Goes (exec .tripCooldownEnd s) (fun t => t.rst.stageOff = false ∧ t.rst.thermtrip = false ∧
      t.power.sensors = [] ∧ (s.rst.held = false → t.rst.mode = .start ∧ t.rst.phase = 0) ∧ (s.rst.held = true → t.rst.mode = .reset))) ∧
    (s.rst.stageOff = false → exec .tripCooldownEnd s = .next s) ∧
    (s.now % 64 = 0 → x.dutyRounds ≠ 0 → List.all s.weavers (fun (e : Nat × Weaver) => !e.2.ageOut) = true →
      let y : PowerSt := { x.nextCeiling with dutySum := 0, dutyRounds := 0, allFull := true, peak := 0 }
      let r := (s.onPower (fun _ => y)).onWeavers (fun w z => z.retune y (s.clockTarget w))
      exec .operatingPointChange s = .next (r.onPower (fun z => { z with record := y.words })).dropUnfit) ∧
    (s.now % 64 ≠ 0 ∨ x.dutyRounds = 0 → exec .operatingPointChange s = .next s) ∧
    (x.fixed = true → x.nextCeiling = { x with ceiling := 7, boost := 0 }) ∧
    (x.fixed = false → x.boostEn = true → x.dutySum < 12 * x.dutyRounds → x.nextCeiling =
      if 0 < x.boost then { x with boost := x.boost - 1 } else { x with ceiling := x.ceiling - 1 }) ∧
    (x.fixed = false → x.boostEn = true → 12 * x.dutyRounds ≤ x.dutySum → x.allFull = true → x.peak * 100 ≤ x.eff * 95 → x.nextCeiling =
      if x.ceiling < 7 then { x with ceiling := x.ceiling + 1 } else if x.boost < 14 then { x with boost := x.boost + 1 } else x) ∧
    (∀ w : Weaver, ∀ g,
      (w.retune x g).fused = 1700 + 25 * (w.fmax - w.age) ∧
      (x.fixed = true → (w.retune x g).mhz = 1700) ∧
      (x.fixed = false → g < 15 → (w.retune x g).mhz = opClock (min g x.ceiling)) ∧
      (x.fixed = false → 15 ≤ g → x.ceiling < 7 → (w.retune x g).mhz = opClock x.ceiling) ∧
      (x.fixed = false → 15 ≤ g → 7 ≤ x.ceiling → (w.retune x g).mhz = min (1700 + 25 * x.boost) (1700 + 25 * (w.fmax - w.age))))

/-- R524: a boundary moves one actuator at most. Above the cap it is duty first, down by the power above the cap over the weaver power of one step of
duty, rounded up, to 1 at least; then idle, then memory; 20 W or more below the cap memory first, then idle, then duty; between the two
none moves. -/
def Obligations.power_controller_moves_one_actuator : Prop :=
  ∀ (x : PowerSt) (p w : Nat),
    let y := x.actuate p w
    (x.eff < p → 1 < x.duty → y = { x with duty := y.duty } ∧ 1 ≤ y.duty ∧ y.duty < x.duty ∧
      (1 < y.duty → (p - x.eff) * x.duty ≤ (x.duty - y.duty) * max w x.duty ∧ (x.duty - y.duty - 1) * max w x.duty < (p - x.eff) * x.duty)) ∧
    (x.eff < p → x.duty ≤ 1 → x.idle < 15 → y = { x with idle := x.idle + 1 }) ∧
    (x.eff < p → x.duty ≤ 1 → 15 ≤ x.idle → 1 < x.memM → y = { x with memM := x.memM - 1 }) ∧
    (x.eff < p → x.duty ≤ 1 → 15 ≤ x.idle → x.memM ≤ 1 → y = x) ∧
    (p + 20 ≤ x.eff → x.memM < 16 → y = { x with memM := x.memM + 1 }) ∧
    (p + 20 ≤ x.eff → 16 ≤ x.memM → 0 < x.idle → y = { x with idle := x.idle - 1 }) ∧
    (p + 20 ≤ x.eff → 16 ≤ x.memM → x.idle = 0 → x.duty < 16 → y = { x with duty := x.duty + 1 }) ∧
    (p + 20 ≤ x.eff → 16 ≤ x.memM → x.idle = 0 → 16 ≤ x.duty → y = x) ∧
    (p ≤ x.eff → x.eff < p + 20 → y = x)

/-! ### Resets and starts -/

/-- R446, R448, R551 to R554, R563, R577, R578: power and DEV_RESET_N; a reset that keeps no memory leaves fuses, keep stores and what the persistent area carries; the reset
of the host-side die leaves the fabric side alone; RESET_REQ of kinds 1 to 3 is accepted with an EVENT, or refused for its CONFIRM or with
BUSY_RETRY. -/
def Obligations.resets : Prop :=
  ∀ (tag n : Nat) (s : State),
    let q := s.pullToFabric (fun m => m.type = rtResetReq)
    (s.rst.mode = .off → s.rst.stageOff = false →
      (s.rst.held = false → exec .powerOn s = .next (s.onRst (fun r => { r with mode := .start, phase := 0 }))) ∧
      (s.rst.held = true → exec .powerOn s = .next (s.onRst (fun r => { r with mode := .reset })))) ∧
    (s.rst.mode ≠ .off ∨ s.rst.stageOff = true → exec .powerOn s = .next s) ∧
    (s.rst.mode = .off → exec (.devResetN true) s = .next (s.onRst (fun r => { r with held := true }))) ∧
    (s.rst.mode ≠ .off → Goes (exec (.devResetN true) s) (fun t => t.rst.mode = .reset ∧ t.rst.phase = 0 ∧ t.rst.held = true ∧
      t.rst.retained = false ∧ t.parts = [] ∧ t.extents = [] ∧ t.regions = [] ∧ t.mem = {} ∧ t.ctl = {} ∧ t.net.flows = [] ∧
      t.rnd = { endpoint := s.rnd.endpoint } ∧ t.auth.stake0.keep = s.auth.stake0.keep ∧ t.auth.stake1.keep = s.auth.stake1.keep ∧
      t.auth.stake0.rollback = s.auth.stake0.rollback ∧ t.net.ld0 = s.net.ld0 ∧ t.net.ld1 = s.net.ld1 ∧
      t.host.bindings = [] ∧ t.host.channels = [] ∧ t.host.exts = [] ∧ t.host.reqs = [] ∧ t.host.results = s.host.results)) ∧
    (s.rst.mode = .reset → s.rst.stageOff = false →
      exec (.devResetN false) s = .next (s.onRst (fun r => { r with held := false, mode := .start, phase := 0 }))) ∧
    (s.rst.mode ≠ .reset → exec (.devResetN false) s = .next (s.onRst (fun r => { r with held := false }))) ∧
    Goes (exec .hostIslandReset s) (fun t => t = { s with host := t.host } ∧ t.host.up = false ∧ t.host.results = [] ∧ t.host.events = [] ∧
      t.host.intStatus = 0 ∧ t.host.intEnable = 0 ∧ t.host.exts = s.host.exts ∧ t.host.reqs = s.host.reqs ∧ t.host.channels = s.host.channels ∧
      t.host.bindings = s.host.bindings ∧ t.host.group0.up = false ∧ t.host.group1.up = false ∧
      t.host.toHost = s.host.toHost.filter (fun m => m.type = rtEvent)) ∧
    (s.host.up = false → Goes (exec .hostIslandResetRelease s) (fun t => t = { s with host := t.host } ∧ t.host.up = true ∧
      t.host.channels = s.host.channels ∧
      (∀ ch h l, ch < 128 → s.channel ch = h :: l → (∃ b, s.binding ch = some b ∧ b.2 = idHost) →
        ∃ m ∈ t.host.toHost, m.type = rtMbxPut ∧ m.channel = ch ∧ m.len = h.len ∧ m.payload = h.words))) ∧
    (s.host.up = true → exec .hostIslandResetRelease s = .next s) ∧
    (2 ≤ s.rimPhase →
      exec (.rimRetrain tag) s = .next ((q.event evResetAccepted 1 0).rimDark.onHost (fun h => { h with group0 := h.group0.retrain, group1 := h.group1.retrain })) ∧
      (n ≠ 0x52535431 → exec (.deviceWarm tag n) s = .next (q.nak rtResetReq tag .perm) ∧
        exec (.deviceCold tag n) s = .next (q.nak rtResetReq tag .perm)) ∧
      (s.rst.mode = .service →
        (s.leaseHeld = true → s.updateBusy = false → s.rst.warm = none → s.rst.due = none → exec (.deviceWarm tag 0x52535431) s =
          .next ((q.event evResetAccepted 2 (s.now + 1)).onRst (fun r => { r with due := some (2, s.now + 1) }))) ∧
        (s.leaseHeld = false ∨ s.updateBusy = true ∨ s.rst.warm ≠ none ∨ s.rst.due ≠ none → exec (.deviceWarm tag 0x52535431) s =
          .next (q.nak rtResetReq tag .busyRetry))) ∧
      (s.keepWriting = false → 3 ≤ s.rst.phase → exec (.deviceCold tag 0x52535431) s =
        .next ((q.event evResetAccepted 3 (s.now + 1)).onRst (fun r => { r with due := some (3, s.now + 1) }))) ∧
      (s.keepWriting = true → exec (.deviceCold tag 0x52535431) s = .next (q.nak rtResetReq tag .busyRetry))) ∧
    (s.rimPhase < 2 → exec (.rimRetrain tag) s = .next s ∧ exec (.deviceWarm tag n) s = .next s ∧ exec (.deviceCold tag n) s = .next s)

/-- R554 to R562: a start whose stakes both fail their self-test ends in reset; one with no stake that boots, or without the persistent area, enters RECOVERY; one
without a bridge holds; else the home stake that boots holds lease epoch 1, and the start reaches phase 9, a warm one in the round after the
last that the journal holds; SERVICE follows. A warm reset quiesces, at its limit ends what is open, and at its entry keeps pool memory. -/
def Obligations.starts_and_warm_resets : Prop :=
  ∀ (f : StartFacts) (w : Nat) (ok : List Bool) (s : State),
    let go := if s.rst.retained then exec (.warmStart f) s else exec (.coldStart f) s
    let cfg := match s.host.cfgStaged with
      | some x => x.1
      | none => s.rst.cfg.1
    let last := match (s.journalCopy (bits cfg 32 32)).ring with
      | j :: _ => j.round
      | [] => 0
    (s.rst.mode = .start → s.rst.held = false → s.rst.noSpine = false → s.rst.phase < 4 →
      (testOk f 0 = false → testOk f 1 = false → Goes go (fun t => t.rst.mode = .reset ∧ t.rst.phase = 0)) ∧
      (testOk f 0 = true → s.leaseHeld = false → s.stakeBoots f 0 = false → s.stakeBoots f 1 = false →
        Goes go (fun t => t.rst.mode = .recovery ∧ t.rst.phase = 2)) ∧
      (s.stakeBoots f 0 = true → s.stakeBoots f 1 = true →
        (f.persistentOk = false → Goes go (fun t => t.rst.mode = .recovery ∧ t.rst.phase = 2)) ∧
        (f.persistentOk = true → f.bridgesOk = [false, false] →
          Goes go (fun t => t.rst.mode = .start ∧ t.rst.phase = 3 ∧ t.rst.noSpine = true ∧ t.rnd.counter = 0)) ∧
        (f.persistentOk = true → f.bridgesOk = [true, true] → (∀ d, (s.die d).ok = true) → f.badWeavers = [] → f.badStacks = [] →
          f.goodLinks = [] → f.badLinks = [] → f.litLinks = [] → (s.rst.retained = true → f.replayOk = true) →
          Goes go (fun t => t.rst.mode = .start ∧ t.rst.phase = 9 ∧ t.rst.homeHalf = bits cfg 32 32 ∧
            (∀ h, t.lease h = { epoch := 1, holder := bits cfg 32 32, st := .valid, expiry := t.now + 4 }) ∧
            (s.rst.retained = false → t.now = f.domainRound.getD 0) ∧
            (s.rst.retained = true → t.now = max (f.domainRound.getD 0) (last + 1) ∧ t.rnd.resync = true))))) ∧
    (s.rst.retained = true → exec (.coldStart f) s = .next s) ∧
    (s.rst.retained = false → exec (.warmStart f) s = .next s) ∧
    (s.rst.mode ≠ .start → exec (.coldStart f) s = .next s ∧ exec (.warmStart f) s = .next s) ∧
    (s.rst.noSpine = true → (s.die 0).ok = true → (s.die 2).ok = true → Goes (exec (.spineTrainingRetry (true :: ok)) s) (fun t =>
      t.auth.bridge0 = true ∧ t.rst = { s.rst with noSpine := false, phase := 4 })) ∧
    (s.rst.noSpine = false → exec (.spineTrainingRetry ok) s = .next s) ∧
    (s.rst.mode = .start → s.rst.phase = 9 → Goes (exec .enterService s) (fun t => t.rst = { s.rst with mode := .service, retained := false } ∧
      t.ctl = { s.ctl with locked := true } ∧ t.host = s.host ∧ t.mem = s.mem ∧ t.parts = s.parts ∧
      (s.rst.retained = false → t.extents = s.extents ∧ t.regions = s.regions))) ∧
    (s.rst.mode ≠ .start ∨ s.rst.phase ≠ 9 → exec .enterService s = .next s) ∧
    (s.rst.due = some (2, w) →
      (w ≤ s.now → (∀ p ∈ s.liveParts, (s.part p).suspended = [] ∧ (s.part p).moved = []) → exec .warmQuiesceStart s =
        .next ((s.onRst (fun r => { r with due := none, warm := some w, limited := false })).each s.liveParts (fun s p => s.onPart p (fun x => { x with suspended := [], moved := [] })))) ∧
      (s.now < w → exec .warmQuiesceStart s = .next s)) ∧
    (s.rst.due = none → exec .warmQuiesceStart s = .next s) ∧
    (s.rst.warm = some w →
      (s.rst.limited = false → w + 8 ≤ s.now →
        let u := ((s.onRst (fun r => { r with limited := true })).cancelBulk (fun _ => true) .busyRetry)
        exec .warmQuiesceLimit s = .next
          (let v := u.each ((u.net.flows.filter (fun x => x.park.isSome)).map (·.id)) State.flagExpire
           v.each ((v.host.reqs.filter (fun q => q.answer.isNone)).map (·.tag)) (fun s t => s.answerHost t .busyRetry [] false))) ∧
      (s.rst.limited = true ∨ s.now < w + 8 → exec .warmQuiesceLimit s = .next s) ∧
      (s.rst.limited = true → w + 10 ≤ s.now + 1 → exec .warmResetEntry s = .next s.retainFabric.release ∧
        s.retainFabric.rst.retained = true ∧ s.retainFabric.rst.warm = none ∧ s.retainFabric.rst.mode = .reset ∧
        s.retainFabric.half0.refresh = .asleep ∧ s.retainFabric.half1.refresh = .asleep ∧ s.retainFabric.rnd = { endpoint := s.rnd.endpoint }) ∧
      (s.rst.limited = false ∨ s.now + 1 < w + 10 → exec .warmResetEntry s = .next s)) ∧
    (s.rst.warm = none → exec .warmQuiesceLimit s = .next s ∧ exec .warmResetEntry s = .next s)

/-! ### The whole machine -/

/-- R155, R156, R185, R187, R208: bytes stored read back, and no other byte changes; the parity of a rand whose parity stack is there, once rewritten, gives back each of
its eight units from the others, whatever the memory held before. -/
def Obligations.pool_array_and_parity : Prop :=
  (∀ (m : PoolMem) (pa a : Nat) (bs : List Byte),
    ((m.store pa bs).array.look 0 a = if pa ≤ a ∧ a < pa + bs.length then bs.getD (a - pa) 0 else m.array.look 0 a) ∧
    (m.store pa bs).stored pa bs.length = bs ∧ (m.wf = true → (m.store pa bs).wf = true)) ∧
  (∀ (s : State) (h r u l : Nat), u < 8 → l < 4 → 8 ∉ s.lostUnits h r →
    (s.rewriteParity h r).mem.reconstruct h r u l = (s.rewriteParity h r).mem.unitLine h r u l ∧
    (s.rewriteParity h r).mem.unitLine h r u l = s.mem.unitLine h r u l)

/-- R551, R555: after reset no command waits, START stands at phase 0, and no partition, extent, region or result exists; the actuators are at full.
With no command waiting the block idles. (The model's own choice.) -/
def Obligations.reset_and_idle : Prop :=
  (State.reset.pending = [] ∧ State.reset.rst.mode = .start ∧ State.reset.rst.phase = 0 ∧ State.reset.parts = [] ∧ State.reset.extents = [] ∧
    State.reset.regions = [] ∧ State.reset.ctl = {} ∧ State.reset.mem.wf = true ∧ State.reset.leaseHeld = false ∧ State.reset.out = [] ∧
    State.reset.Legal) ∧
  (∀ s : State, s.pending = [] → step s = .next s)

/-- No command touches the queue, so a step only takes its front off. -/
def Obligations.commands_leave_the_queue : Prop :=
  ∀ (c : Instr) (s t : State), exec c s = .next t → t.pending = s.pending

/-- Whatever command runs, the round's lengths and the actuators of the power controller stay within their ranges (R40, R41, R517, R520, R524, R526,
R527). -/
def Obligations.steps_keep_legal_ranges : Prop :=
  ∀ s t : State, s.Legal → step s = .next t → t.Legal ∧ t.pending = s.pending.drop 1

/-! ### Single rules -/

/-- R254: the all-zero word is ADD g0, g0, g0; it costs 1 cycle and has no effect: the run goes on at the next word with every register, its scratch and
its wait times as they were. -/
def Obligations.zero_word_has_no_effect : Prop :=
  encWord 0x00 {} = 0 ∧ ∀ w : WeaverId, RunsAs (.add w {}) w.val 0x00 {} [0, 0, 0] noWait 1 1 (fun _ => True) id

/-- R471: a session start of a partition is refused with DONE and BUSY_RETRY while another is outstanding, or with 4 starts in the last 1,024 rounds; a HELLO
for a partition that does not exist is dropped; any other start is taken. -/
def Obligations.session_start_limits : Prop :=
  ∀ (p : PartId) (ep rank sid frags : Nat) (nonce : List U64) (s : State),
    let x := s.part p.val
    let recent := x.starts.filter (fun r => decide (s.now < r + 1024))
    let refused := Host.Outcome.next (s.sendDone p.val ep sid .busyRetry)
    (x.live = true → s.leaseHeld = true →
      (∀ y, x.session = some y → y.sid ≠ sid ∨ y.ep ≠ ep ∨ y.rank ≠ rank →
        ∀ frag, exec (.sessionHello p ep rank sid frag frags nonce) s = refused) ∧
      (x.session = none → 4 ≤ recent.length → exec (.sessionHello p ep rank sid 0 frags nonce) s = refused) ∧
      (x.session = none → recent.length < 4 → exec (.sessionHello p ep rank sid 0 frags nonce) s =
        .next (s.onPart p.val (fun x => { x with
          starts := recent ++ [s.now]
          session := some { sid := sid, ep := ep, rank := rank, frags := 1, total := frags, helloRound := s.now, nonce := nonce } })))) ∧
    (x.live = false → ∀ frag, exec (.sessionHello p ep rank sid frag frags nonce) s = .next s)

/-- R519: what step 7 of a boundary makes the effective cap: the least of the cap or, in LEARNED mode, the allotment (CAP again once none has come for 16
rounds, R529), the feed cap, the sag cap and the thermal cap, absent terms ignored, and at least 320 W. -/
def Obligations.effective_cap : Prop :=
  ∀ (x : PowerSt) (p w bus : Nat) (temps : List (Nat × Nat)),
    let y := x.step7 p w bus temps
    let first := if y.learned ∧ y.allotAge < 16 then y.allot.getD y.cap else y.cap
    let others := (if y.holds condSingle then [36 * bus / 50 * 5] else []) ++ (if y.holds condSag then [y.sagCap] else []) ++ y.thermalCap.toList
    y.eff = max 320 (others.foldl min first)
end

