-- ==== Sys2Proof/Laws/Table.lean ====
section
/-! SUPPORT. Laws of sparse tables, of bytes and numbers, and of folds over the state. -/
namespace Sys2Proof.Machine

/-! ### Sparse tables -/

section SMapLaws
variable {α : Type} (d : α)

/-- A table without a key has the default there. -/
theorem look_none {m : SMap α} {k : Nat} (h : ∀ e ∈ m, e.1 ≠ k) : SMap.look d m k = d := by
  induction m with
  | nil => rfl
  | cons a m ih =>
    simp only [SMap.look]
    rw [if_neg (h a (by simp))]
    exact ih (fun e he => h e (by simp [he]))

/-- Another key reads the same once a key is taken out. -/
theorem look_filter {m : SMap α} {k k' : Nat} (h : k' ≠ k) :
    SMap.look d (m.filter (fun e => decide (e.1 ≠ k))) k' = SMap.look d m k' := by
  induction m with
  | nil => rfl
  | cons a m ih =>
    simp only [List.filter]
    split
    · simp only [SMap.look, ih]
    · next ha =>
      simp only [decide_eq_false_iff_not, ne_eq, not_not] at ha
      simp only [SMap.look, ih]
      rw [if_neg (by omega)]

/-- What a key reads as after an insertion. -/
theorem look_place {m : SMap α} {k : Nat} {v : α} (k' : Nat) (h : ∀ e ∈ m, e.1 ≠ k) :
    SMap.look d (SMap.place m k v) k' = if k' = k then v else SMap.look d m k' := by
  induction m with
  | nil => simp only [SMap.place, SMap.look, eq_comm]
  | cons a m ih =>
    obtain ⟨j, u⟩ := a
    have hj : j ≠ k := h (j, u) (by simp)
    simp only [SMap.place]
    split
    · simp only [SMap.look, eq_comm (a := k)]
    · simp only [SMap.look, ih (fun e he => h e (by simp [he]))]
      by_cases hk : j = k'
      · subst hk; simp [hj]
      · simp [hk]

/-- The keys of a rising table after its first lie above it. -/
theorem keysRise_above {a : Nat × α} {m : SMap α} (h : keysRise (a :: m) = true) : ∀ e ∈ m, a.1 < e.1 := by
  induction m generalizing a with
  | nil => simp
  | cons b m ih =>
    simp only [keysRise, Bool.and_eq_true, decide_eq_true_eq] at h
    intro e he
    rcases List.mem_cons.1 he with rfl | he
    · exact h.1
    · exact lt_trans h.1 (ih h.2 e he)

/-- The rest of a rising table rises. -/
theorem keysRise_tail {a : Nat × α} {m : SMap α} (h : keysRise (a :: m) = true) : keysRise m = true := by
  cases m with
  | nil => rfl
  | cons b m => simp only [keysRise, Bool.and_eq_true] at h; exact h.2

/-- A first key below every other keeps a table rising. -/
theorem keysRise_cons {a : Nat × α} {m : SMap α} (h : keysRise m = true) (ha : ∀ e ∈ m, a.1 < e.1) :
    keysRise (a :: m) = true := by
  cases m with
  | nil => rfl
  | cons b m => simp [keysRise, h, ha b (by simp)]

/-- A kept part of a rising table rises. -/
theorem keysRise_filter {m : SMap α} (t : Nat × α → Bool) (h : keysRise m = true) : keysRise (m.filter t) = true := by
  induction m with
  | nil => rfl
  | cons a m ih =>
    simp only [List.filter]
    split
    · exact keysRise_cons (ih (keysRise_tail h)) (fun e he => keysRise_above h e (List.mem_of_mem_filter he))
    · exact ih (keysRise_tail h)

/-- An entry after an insertion is the new one or was there. -/
theorem mem_place {m : SMap α} {k : Nat} {v : α} {e : Nat × α} : e ∈ SMap.place m k v ↔ e = (k, v) ∨ e ∈ m := by
  induction m with
  | nil => simp [SMap.place]
  | cons a m ih =>
    obtain ⟨j, u⟩ := a
    simp only [SMap.place]
    split
    · simp
    · simp only [List.mem_cons, ih]; tauto

/-- An insertion of a new key keeps a table rising. -/
theorem keysRise_place {m : SMap α} {k : Nat} {v : α} (h : keysRise m = true) (hk : ∀ e ∈ m, e.1 ≠ k) :
    keysRise (SMap.place m k v) = true := by
  induction m with
  | nil => rfl
  | cons a m ih =>
    obtain ⟨j, u⟩ := a
    have hab := keysRise_above h
    have hj : j ≠ k := hk (j, u) (by simp)
    simp only [SMap.place]
    split
    · next hlt =>
      refine keysRise_cons h (fun e he => ?_)
      rcases List.mem_cons.1 he with rfl | he
      · exact hlt
      · exact lt_trans hlt (hab e he)
    · refine keysRise_cons (ih (keysRise_tail h) (fun e he => hk e (by simp [he]))) (fun e he => ?_)
      rcases mem_place.1 he with rfl | he
      · simp only; omega
      · exact hab e he

variable [DecidableEq α]

/-- What a key reads as after a put. -/
theorem look_put (m : SMap α) (k : Nat) (v : α) (k' : Nat) :
    SMap.look d (SMap.put d m k v) k' = if k' = k then v else SMap.look d m k' := by
  have hk : ∀ e ∈ m.filter (fun e => decide (e.1 ≠ k)), e.1 ≠ k := fun e he => by simpa using List.of_mem_filter he
  simp only [SMap.put]
  split
  · next hv =>
    subst hv
    by_cases h : k' = k
    · subst h; rw [if_pos rfl]; exact look_none _ hk
    · rw [if_neg h]; exact look_filter _ h
  · rw [look_place d k' hk]
    by_cases h : k' = k
    · simp [h]
    · rw [if_neg h, if_neg h]; exact look_filter _ h

/-- A key just put reads as what was put. -/
@[simp] theorem look_put_self (m : SMap α) (k : Nat) (v : α) : SMap.look d (SMap.put d m k v) k = v := by simp [look_put]

/-- Another key reads as before. -/
@[simp] theorem look_put_ne (m : SMap α) {k k' : Nat} (v : α) (hk : k' ≠ k) :
    SMap.look d (SMap.put d m k v) k' = SMap.look d m k' := by simp [look_put, hk]

/-- What a key reads as after a change of one value. -/
theorem look_mod (m : SMap α) (k : Nat) (f : α → α) (k' : Nat) :
    SMap.look d (SMap.mod d m k f) k' = if k' = k then f (SMap.look d m k) else SMap.look d m k' := look_put d m k _ k'

@[simp] theorem look_mod_self (m : SMap α) (k : Nat) (f : α → α) :
    SMap.look d (SMap.mod d m k f) k = f (SMap.look d m k) := by simp [look_mod]

@[simp] theorem look_mod_ne (m : SMap α) {k k' : Nat} (f : α → α) (hk : k' ≠ k) :
    SMap.look d (SMap.mod d m k f) k' = SMap.look d m k' := by simp [look_mod, hk]

/-- A put keeps the canonical form. -/
theorem put_wf {m : SMap α} {k : Nat} {v : α} (h : m.wf d = true) : (SMap.put d m k v).wf d = true := by
  simp only [SMap.wf, Bool.and_eq_true, List.all_eq_true, decide_eq_true_eq] at *
  have hk : ∀ e ∈ m.filter (fun e => decide (e.1 ≠ k)), e.1 ≠ k := fun e he => by simpa using List.of_mem_filter he
  simp only [SMap.put]
  split
  · exact ⟨keysRise_filter _ h.1, fun e he => h.2 e (List.mem_of_mem_filter he)⟩
  · next hv =>
    refine ⟨keysRise_place (keysRise_filter _ h.1) hk, fun e he => ?_⟩
    rcases mem_place.1 he with rfl | he
    · exact hv
    · exact h.2 e (List.mem_of_mem_filter he)

/-- A change of one value keeps the canonical form. -/
theorem mod_wf {m : SMap α} {k : Nat} {f : α → α} (h : m.wf d = true) : (SMap.mod d m k f).wf d = true := put_wf d h

/-- Removing keys keeps the canonical form. -/
theorem dropIf_wf {m : SMap α} (t : Nat → Bool) (h : m.wf d = true) : (m.dropIf t).wf d = true := by
  simp only [SMap.wf, SMap.dropIf, Bool.and_eq_true, List.all_eq_true, decide_eq_true_eq] at *
  exact ⟨keysRise_filter _ h.1, fun e he => h.2 e (List.mem_of_mem_filter he)⟩

/-- A fold of puts keeps the canonical form. -/
theorem foldl_put_wf {β : Type} (l : List β) (key : β → Nat) (val : SMap α → β → α) {m : SMap α} (h : m.wf d = true) :
    (l.foldl (fun m b => SMap.put d m (key b) (val m b)) m).wf d = true := by
  induction l generalizing m with
  | nil => exact h
  | cons b l ih => exact ih (put_wf d h)

end SMapLaws

/-! ### Bytes and numbers -/

@[simp] theorem toBytes_length (n v : Nat) : (toBytes n v).length = n := by
  induction n generalizing v with
  | zero => rfl
  | succ n ih => simp [toBytes, ih]

/-- The number of the bytes of a number is the number, cut to their width. -/
theorem ofBytes_toBytes (n v : Nat) : ofBytes (toBytes n v) = v % 256 ^ n := by
  induction n generalizing v with
  | zero => simp [toBytes, ofBytes, Nat.mod_one]
  | succ n ih =>
    have h : (BitVec.ofNat 8 v).toNat = v % 256 := BitVec.toNat_ofNat v 8
    rw [toBytes, ofBytes, ih, h, Nat.pow_succ, Nat.mul_comm (256 ^ n) 256, Nat.mod_mul]

/-! ### Folds over the state -/

@[simp] theorem each_nil {α : Type} (s : State) (f : State → α → State) : s.each [] f = s := rfl
@[simp] theorem each_cons {α : Type} (s : State) (a : α) (l : List α) (f : State → α → State) :
    s.each (a :: l) f = (f s a).each l f := rfl

/-- What each step of a fold leaves as it was, the fold leaves as it was. -/
theorem each_keeps {α β : Type} (π : State → β) {f : State → α → State} (h : ∀ s a, π (f s a) = π s) (s : State)
    (l : List α) : π (s.each l f) = π s := by
  induction l generalizing s with
  | nil => rfl
  | cons a l ih => rw [each_cons, ih, h]

/-- What each step of a fold keeps true, the fold keeps true. -/
theorem each_inv {α : Type} (P : State → Prop) {f : State → α → State} (h : ∀ s a, P s → P (f s a)) {s : State}
    (hs : P s) (l : List α) : P (s.each l f) := by
  induction l generalizing s with
  | nil => exact hs
  | cons a l ih => exact ih (h s a hs)

end Sys2Proof.Machine
end

