-- ==== Sys2Proof/Laws/State.lean ====
section
/-! SUPPORT. What each update of the state leaves as it was: one lemma for each field and each update. -/
namespace Sys2Proof.Machine

/-! onPart -/
@[simp] theorem onPart_pending (s : State) (p : Nat) (f : Partition → Partition) : (s.onPart p f).pending = s.pending := (rfl)
@[simp] theorem onPart_rnd (s : State) (p : Nat) (f : Partition → Partition) : (s.onPart p f).rnd = s.rnd := (rfl)
@[simp] theorem onPart_parts (s : State) (p : Nat) (f : Partition → Partition) : (s.onPart p f).parts = s.parts.mod {} p f := (rfl)
@[simp] theorem onPart_windows (s : State) (p : Nat) (f : Partition → Partition) : (s.onPart p f).windows = s.windows := (rfl)
@[simp] theorem onPart_groups (s : State) (p : Nat) (f : Partition → Partition) : (s.onPart p f).groups = s.groups := (rfl)
@[simp] theorem onPart_extents (s : State) (p : Nat) (f : Partition → Partition) : (s.onPart p f).extents = s.extents := (rfl)
@[simp] theorem onPart_pool0 (s : State) (p : Nat) (f : Partition → Partition) : (s.onPart p f).pool0 = s.pool0 := (rfl)
@[simp] theorem onPart_pool1 (s : State) (p : Nat) (f : Partition → Partition) : (s.onPart p f).pool1 = s.pool1 := (rfl)
@[simp] theorem onPart_mem (s : State) (p : Nat) (f : Partition → Partition) : (s.onPart p f).mem = s.mem := (rfl)
@[simp] theorem onPart_half0 (s : State) (p : Nat) (f : Partition → Partition) : (s.onPart p f).half0 = s.half0 := (rfl)
@[simp] theorem onPart_half1 (s : State) (p : Nat) (f : Partition → Partition) : (s.onPart p f).half1 = s.half1 := (rfl)
@[simp] theorem onPart_dies (s : State) (p : Nat) (f : Partition → Partition) : (s.onPart p f).dies = s.dies := (rfl)
@[simp] theorem onPart_stackTab (s : State) (p : Nat) (f : Partition → Partition) : (s.onPart p f).stackTab = s.stackTab := (rfl)
@[simp] theorem onPart_banks (s : State) (p : Nat) (f : Partition → Partition) : (s.onPart p f).banks = s.banks := (rfl)
@[simp] theorem onPart_targets (s : State) (p : Nat) (f : Partition → Partition) : (s.onPart p f).targets = s.targets := (rfl)
@[simp] theorem onPart_dir (s : State) (p : Nat) (f : Partition → Partition) : (s.onPart p f).dir = s.dir := (rfl)
@[simp] theorem onPart_regions (s : State) (p : Nat) (f : Partition → Partition) : (s.onPart p f).regions = s.regions := (rfl)
@[simp] theorem onPart_weavers (s : State) (p : Nat) (f : Partition → Partition) : (s.onPart p f).weavers = s.weavers := (rfl)
@[simp] theorem onPart_walkers (s : State) (p : Nat) (f : Partition → Partition) : (s.onPart p f).walkers = s.walkers := (rfl)
@[simp] theorem onPart_migrations (s : State) (p : Nat) (f : Partition → Partition) : (s.onPart p f).migrations = s.migrations := (rfl)
@[simp] theorem onPart_poolReqs (s : State) (p : Nat) (f : Partition → Partition) : (s.onPart p f).poolReqs = s.poolReqs := (rfl)
@[simp] theorem onPart_nextId (s : State) (p : Nat) (f : Partition → Partition) : (s.onPart p f).nextId = s.nextId := (rfl)
@[simp] theorem onPart_ctl (s : State) (p : Nat) (f : Partition → Partition) : (s.onPart p f).ctl = s.ctl := (rfl)
@[simp] theorem onPart_auth (s : State) (p : Nat) (f : Partition → Partition) : (s.onPart p f).auth = s.auth := (rfl)
@[simp] theorem onPart_links (s : State) (p : Nat) (f : Partition → Partition) : (s.onPart p f).links = s.links := (rfl)
@[simp] theorem onPart_net (s : State) (p : Nat) (f : Partition → Partition) : (s.onPart p f).net = s.net := (rfl)
@[simp] theorem onPart_host (s : State) (p : Nat) (f : Partition → Partition) : (s.onPart p f).host = s.host := (rfl)
@[simp] theorem onPart_power (s : State) (p : Nat) (f : Partition → Partition) : (s.onPart p f).power = s.power := (rfl)
@[simp] theorem onPart_cnt (s : State) (p : Nat) (f : Partition → Partition) : (s.onPart p f).cnt = s.cnt := (rfl)
@[simp] theorem onPart_rst (s : State) (p : Nat) (f : Partition → Partition) : (s.onPart p f).rst = s.rst := (rfl)
@[simp] theorem onPart_out (s : State) (p : Nat) (f : Partition → Partition) : (s.onPart p f).out = s.out := (rfl)
@[simp] theorem onPart_free (s : State) (p : Nat) (f : Partition → Partition) : (s.onPart p f).free = s.free := (rfl)
@[simp] theorem onPart_dirUse (s : State) (p : Nat) (f : Partition → Partition) : (s.onPart p f).dirUse = s.dirUse := (rfl)
/-! onExtent -/
@[simp] theorem onExtent_pending (s : State) (e : Nat) (f : Extent → Extent) : (s.onExtent e f).pending = s.pending := (rfl)
@[simp] theorem onExtent_rnd (s : State) (e : Nat) (f : Extent → Extent) : (s.onExtent e f).rnd = s.rnd := (rfl)
@[simp] theorem onExtent_parts (s : State) (e : Nat) (f : Extent → Extent) : (s.onExtent e f).parts = s.parts := (rfl)
@[simp] theorem onExtent_windows (s : State) (e : Nat) (f : Extent → Extent) : (s.onExtent e f).windows = s.windows := (rfl)
@[simp] theorem onExtent_groups (s : State) (e : Nat) (f : Extent → Extent) : (s.onExtent e f).groups = s.groups := (rfl)
@[simp] theorem onExtent_extents (s : State) (e : Nat) (f : Extent → Extent) : (s.onExtent e f).extents = s.extents.mod {} e f := (rfl)
@[simp] theorem onExtent_pool0 (s : State) (e : Nat) (f : Extent → Extent) : (s.onExtent e f).pool0 = s.pool0 := (rfl)
@[simp] theorem onExtent_pool1 (s : State) (e : Nat) (f : Extent → Extent) : (s.onExtent e f).pool1 = s.pool1 := (rfl)
@[simp] theorem onExtent_mem (s : State) (e : Nat) (f : Extent → Extent) : (s.onExtent e f).mem = s.mem := (rfl)
@[simp] theorem onExtent_half0 (s : State) (e : Nat) (f : Extent → Extent) : (s.onExtent e f).half0 = s.half0 := (rfl)
@[simp] theorem onExtent_half1 (s : State) (e : Nat) (f : Extent → Extent) : (s.onExtent e f).half1 = s.half1 := (rfl)
@[simp] theorem onExtent_dies (s : State) (e : Nat) (f : Extent → Extent) : (s.onExtent e f).dies = s.dies := (rfl)
@[simp] theorem onExtent_stackTab (s : State) (e : Nat) (f : Extent → Extent) : (s.onExtent e f).stackTab = s.stackTab := (rfl)
@[simp] theorem onExtent_banks (s : State) (e : Nat) (f : Extent → Extent) : (s.onExtent e f).banks = s.banks := (rfl)
@[simp] theorem onExtent_targets (s : State) (e : Nat) (f : Extent → Extent) : (s.onExtent e f).targets = s.targets := (rfl)
@[simp] theorem onExtent_dir (s : State) (e : Nat) (f : Extent → Extent) : (s.onExtent e f).dir = s.dir := (rfl)
@[simp] theorem onExtent_regions (s : State) (e : Nat) (f : Extent → Extent) : (s.onExtent e f).regions = s.regions := (rfl)
@[simp] theorem onExtent_weavers (s : State) (e : Nat) (f : Extent → Extent) : (s.onExtent e f).weavers = s.weavers := (rfl)
@[simp] theorem onExtent_walkers (s : State) (e : Nat) (f : Extent → Extent) : (s.onExtent e f).walkers = s.walkers := (rfl)
@[simp] theorem onExtent_migrations (s : State) (e : Nat) (f : Extent → Extent) : (s.onExtent e f).migrations = s.migrations := (rfl)
@[simp] theorem onExtent_poolReqs (s : State) (e : Nat) (f : Extent → Extent) : (s.onExtent e f).poolReqs = s.poolReqs := (rfl)
@[simp] theorem onExtent_nextId (s : State) (e : Nat) (f : Extent → Extent) : (s.onExtent e f).nextId = s.nextId := (rfl)
@[simp] theorem onExtent_ctl (s : State) (e : Nat) (f : Extent → Extent) : (s.onExtent e f).ctl = s.ctl := (rfl)
@[simp] theorem onExtent_auth (s : State) (e : Nat) (f : Extent → Extent) : (s.onExtent e f).auth = s.auth := (rfl)
@[simp] theorem onExtent_links (s : State) (e : Nat) (f : Extent → Extent) : (s.onExtent e f).links = s.links := (rfl)
@[simp] theorem onExtent_net (s : State) (e : Nat) (f : Extent → Extent) : (s.onExtent e f).net = s.net := (rfl)
@[simp] theorem onExtent_host (s : State) (e : Nat) (f : Extent → Extent) : (s.onExtent e f).host = s.host := (rfl)
@[simp] theorem onExtent_power (s : State) (e : Nat) (f : Extent → Extent) : (s.onExtent e f).power = s.power := (rfl)
@[simp] theorem onExtent_cnt (s : State) (e : Nat) (f : Extent → Extent) : (s.onExtent e f).cnt = s.cnt := (rfl)
@[simp] theorem onExtent_rst (s : State) (e : Nat) (f : Extent → Extent) : (s.onExtent e f).rst = s.rst := (rfl)
@[simp] theorem onExtent_out (s : State) (e : Nat) (f : Extent → Extent) : (s.onExtent e f).out = s.out := (rfl)
@[simp] theorem onExtent_free (s : State) (e : Nat) (f : Extent → Extent) : (s.onExtent e f).free = s.free := (rfl)
@[simp] theorem onExtent_dirUse (s : State) (e : Nat) (f : Extent → Extent) : (s.onExtent e f).dirUse = s.dirUse := (rfl)
/-! onDie -/
@[simp] theorem onDie_pending (s : State) (d : Nat) (f : DieSt → DieSt) : (s.onDie d f).pending = s.pending := (rfl)
@[simp] theorem onDie_rnd (s : State) (d : Nat) (f : DieSt → DieSt) : (s.onDie d f).rnd = s.rnd := (rfl)
@[simp] theorem onDie_parts (s : State) (d : Nat) (f : DieSt → DieSt) : (s.onDie d f).parts = s.parts := (rfl)
@[simp] theorem onDie_windows (s : State) (d : Nat) (f : DieSt → DieSt) : (s.onDie d f).windows = s.windows := (rfl)
@[simp] theorem onDie_groups (s : State) (d : Nat) (f : DieSt → DieSt) : (s.onDie d f).groups = s.groups := (rfl)
@[simp] theorem onDie_extents (s : State) (d : Nat) (f : DieSt → DieSt) : (s.onDie d f).extents = s.extents := (rfl)
@[simp] theorem onDie_pool0 (s : State) (d : Nat) (f : DieSt → DieSt) : (s.onDie d f).pool0 = s.pool0 := (rfl)
@[simp] theorem onDie_pool1 (s : State) (d : Nat) (f : DieSt → DieSt) : (s.onDie d f).pool1 = s.pool1 := (rfl)
@[simp] theorem onDie_mem (s : State) (d : Nat) (f : DieSt → DieSt) : (s.onDie d f).mem = s.mem := (rfl)
@[simp] theorem onDie_half0 (s : State) (d : Nat) (f : DieSt → DieSt) : (s.onDie d f).half0 = s.half0 := (rfl)
@[simp] theorem onDie_half1 (s : State) (d : Nat) (f : DieSt → DieSt) : (s.onDie d f).half1 = s.half1 := (rfl)
@[simp] theorem onDie_dies (s : State) (d : Nat) (f : DieSt → DieSt) : (s.onDie d f).dies = s.dies.mod {} d f := (rfl)
@[simp] theorem onDie_stackTab (s : State) (d : Nat) (f : DieSt → DieSt) : (s.onDie d f).stackTab = s.stackTab := (rfl)
@[simp] theorem onDie_banks (s : State) (d : Nat) (f : DieSt → DieSt) : (s.onDie d f).banks = s.banks := (rfl)
@[simp] theorem onDie_targets (s : State) (d : Nat) (f : DieSt → DieSt) : (s.onDie d f).targets = s.targets := (rfl)
@[simp] theorem onDie_dir (s : State) (d : Nat) (f : DieSt → DieSt) : (s.onDie d f).dir = s.dir := (rfl)
@[simp] theorem onDie_regions (s : State) (d : Nat) (f : DieSt → DieSt) : (s.onDie d f).regions = s.regions := (rfl)
@[simp] theorem onDie_weavers (s : State) (d : Nat) (f : DieSt → DieSt) : (s.onDie d f).weavers = s.weavers := (rfl)
@[simp] theorem onDie_walkers (s : State) (d : Nat) (f : DieSt → DieSt) : (s.onDie d f).walkers = s.walkers := (rfl)
@[simp] theorem onDie_migrations (s : State) (d : Nat) (f : DieSt → DieSt) : (s.onDie d f).migrations = s.migrations := (rfl)
@[simp] theorem onDie_poolReqs (s : State) (d : Nat) (f : DieSt → DieSt) : (s.onDie d f).poolReqs = s.poolReqs := (rfl)
@[simp] theorem onDie_nextId (s : State) (d : Nat) (f : DieSt → DieSt) : (s.onDie d f).nextId = s.nextId := (rfl)
@[simp] theorem onDie_ctl (s : State) (d : Nat) (f : DieSt → DieSt) : (s.onDie d f).ctl = s.ctl := (rfl)
@[simp] theorem onDie_auth (s : State) (d : Nat) (f : DieSt → DieSt) : (s.onDie d f).auth = s.auth := (rfl)
@[simp] theorem onDie_links (s : State) (d : Nat) (f : DieSt → DieSt) : (s.onDie d f).links = s.links := (rfl)
@[simp] theorem onDie_net (s : State) (d : Nat) (f : DieSt → DieSt) : (s.onDie d f).net = s.net := (rfl)
@[simp] theorem onDie_host (s : State) (d : Nat) (f : DieSt → DieSt) : (s.onDie d f).host = s.host := (rfl)
@[simp] theorem onDie_power (s : State) (d : Nat) (f : DieSt → DieSt) : (s.onDie d f).power = s.power := (rfl)
@[simp] theorem onDie_cnt (s : State) (d : Nat) (f : DieSt → DieSt) : (s.onDie d f).cnt = s.cnt := (rfl)
@[simp] theorem onDie_rst (s : State) (d : Nat) (f : DieSt → DieSt) : (s.onDie d f).rst = s.rst := (rfl)
@[simp] theorem onDie_out (s : State) (d : Nat) (f : DieSt → DieSt) : (s.onDie d f).out = s.out := (rfl)
@[simp] theorem onDie_free (s : State) (d : Nat) (f : DieSt → DieSt) : (s.onDie d f).free = s.free := (rfl)
@[simp] theorem onDie_dirUse (s : State) (d : Nat) (f : DieSt → DieSt) : (s.onDie d f).dirUse = s.dirUse := (rfl)
/-! onStack -/
@[simp] theorem onStack_pending (s : State) (n : Nat) (f : StackSt → StackSt) : (s.onStack n f).pending = s.pending := (rfl)
@[simp] theorem onStack_rnd (s : State) (n : Nat) (f : StackSt → StackSt) : (s.onStack n f).rnd = s.rnd := (rfl)
@[simp] theorem onStack_parts (s : State) (n : Nat) (f : StackSt → StackSt) : (s.onStack n f).parts = s.parts := (rfl)
@[simp] theorem onStack_windows (s : State) (n : Nat) (f : StackSt → StackSt) : (s.onStack n f).windows = s.windows := (rfl)
@[simp] theorem onStack_groups (s : State) (n : Nat) (f : StackSt → StackSt) : (s.onStack n f).groups = s.groups := (rfl)
@[simp] theorem onStack_extents (s : State) (n : Nat) (f : StackSt → StackSt) : (s.onStack n f).extents = s.extents := (rfl)
@[simp] theorem onStack_pool0 (s : State) (n : Nat) (f : StackSt → StackSt) : (s.onStack n f).pool0 = s.pool0 := (rfl)
@[simp] theorem onStack_pool1 (s : State) (n : Nat) (f : StackSt → StackSt) : (s.onStack n f).pool1 = s.pool1 := (rfl)
@[simp] theorem onStack_mem (s : State) (n : Nat) (f : StackSt → StackSt) : (s.onStack n f).mem = s.mem := (rfl)
@[simp] theorem onStack_half0 (s : State) (n : Nat) (f : StackSt → StackSt) : (s.onStack n f).half0 = s.half0 := (rfl)
@[simp] theorem onStack_half1 (s : State) (n : Nat) (f : StackSt → StackSt) : (s.onStack n f).half1 = s.half1 := (rfl)
@[simp] theorem onStack_dies (s : State) (n : Nat) (f : StackSt → StackSt) : (s.onStack n f).dies = s.dies := (rfl)
@[simp] theorem onStack_stackTab (s : State) (n : Nat) (f : StackSt → StackSt) : (s.onStack n f).stackTab = s.stackTab.mod {} n f := (rfl)
@[simp] theorem onStack_banks (s : State) (n : Nat) (f : StackSt → StackSt) : (s.onStack n f).banks = s.banks := (rfl)
@[simp] theorem onStack_targets (s : State) (n : Nat) (f : StackSt → StackSt) : (s.onStack n f).targets = s.targets := (rfl)
@[simp] theorem onStack_dir (s : State) (n : Nat) (f : StackSt → StackSt) : (s.onStack n f).dir = s.dir := (rfl)
@[simp] theorem onStack_regions (s : State) (n : Nat) (f : StackSt → StackSt) : (s.onStack n f).regions = s.regions := (rfl)
@[simp] theorem onStack_weavers (s : State) (n : Nat) (f : StackSt → StackSt) : (s.onStack n f).weavers = s.weavers := (rfl)
@[simp] theorem onStack_walkers (s : State) (n : Nat) (f : StackSt → StackSt) : (s.onStack n f).walkers = s.walkers := (rfl)
@[simp] theorem onStack_migrations (s : State) (n : Nat) (f : StackSt → StackSt) : (s.onStack n f).migrations = s.migrations := (rfl)
@[simp] theorem onStack_poolReqs (s : State) (n : Nat) (f : StackSt → StackSt) : (s.onStack n f).poolReqs = s.poolReqs := (rfl)
@[simp] theorem onStack_nextId (s : State) (n : Nat) (f : StackSt → StackSt) : (s.onStack n f).nextId = s.nextId := (rfl)
@[simp] theorem onStack_ctl (s : State) (n : Nat) (f : StackSt → StackSt) : (s.onStack n f).ctl = s.ctl := (rfl)
@[simp] theorem onStack_auth (s : State) (n : Nat) (f : StackSt → StackSt) : (s.onStack n f).auth = s.auth := (rfl)
@[simp] theorem onStack_links (s : State) (n : Nat) (f : StackSt → StackSt) : (s.onStack n f).links = s.links := (rfl)
@[simp] theorem onStack_net (s : State) (n : Nat) (f : StackSt → StackSt) : (s.onStack n f).net = s.net := (rfl)
@[simp] theorem onStack_host (s : State) (n : Nat) (f : StackSt → StackSt) : (s.onStack n f).host = s.host := (rfl)
@[simp] theorem onStack_power (s : State) (n : Nat) (f : StackSt → StackSt) : (s.onStack n f).power = s.power := (rfl)
@[simp] theorem onStack_cnt (s : State) (n : Nat) (f : StackSt → StackSt) : (s.onStack n f).cnt = s.cnt := (rfl)
@[simp] theorem onStack_rst (s : State) (n : Nat) (f : StackSt → StackSt) : (s.onStack n f).rst = s.rst := (rfl)
@[simp] theorem onStack_out (s : State) (n : Nat) (f : StackSt → StackSt) : (s.onStack n f).out = s.out := (rfl)
@[simp] theorem onStack_free (s : State) (n : Nat) (f : StackSt → StackSt) : (s.onStack n f).free = s.free := (rfl)
@[simp] theorem onStack_dirUse (s : State) (n : Nat) (f : StackSt → StackSt) : (s.onStack n f).dirUse = s.dirUse := (rfl)
/-! onBank -/
@[simp] theorem onBank_pending (s : State) (b : BankId) (f : Bank → Bank) : (s.onBank b f).pending = s.pending := (rfl)
@[simp] theorem onBank_rnd (s : State) (b : BankId) (f : Bank → Bank) : (s.onBank b f).rnd = s.rnd := (rfl)
@[simp] theorem onBank_parts (s : State) (b : BankId) (f : Bank → Bank) : (s.onBank b f).parts = s.parts := (rfl)
@[simp] theorem onBank_windows (s : State) (b : BankId) (f : Bank → Bank) : (s.onBank b f).windows = s.windows := (rfl)
@[simp] theorem onBank_groups (s : State) (b : BankId) (f : Bank → Bank) : (s.onBank b f).groups = s.groups := (rfl)
@[simp] theorem onBank_extents (s : State) (b : BankId) (f : Bank → Bank) : (s.onBank b f).extents = s.extents := (rfl)
@[simp] theorem onBank_pool0 (s : State) (b : BankId) (f : Bank → Bank) : (s.onBank b f).pool0 = s.pool0 := (rfl)
@[simp] theorem onBank_pool1 (s : State) (b : BankId) (f : Bank → Bank) : (s.onBank b f).pool1 = s.pool1 := (rfl)
@[simp] theorem onBank_mem (s : State) (b : BankId) (f : Bank → Bank) : (s.onBank b f).mem = s.mem := (rfl)
@[simp] theorem onBank_half0 (s : State) (b : BankId) (f : Bank → Bank) : (s.onBank b f).half0 = s.half0 := (rfl)
@[simp] theorem onBank_half1 (s : State) (b : BankId) (f : Bank → Bank) : (s.onBank b f).half1 = s.half1 := (rfl)
@[simp] theorem onBank_dies (s : State) (b : BankId) (f : Bank → Bank) : (s.onBank b f).dies = s.dies := (rfl)
@[simp] theorem onBank_stackTab (s : State) (b : BankId) (f : Bank → Bank) : (s.onBank b f).stackTab = s.stackTab := (rfl)
@[simp] theorem onBank_banks (s : State) (b : BankId) (f : Bank → Bank) : (s.onBank b f).banks = s.banks.mod {} (bankNo b) f := (rfl)
@[simp] theorem onBank_targets (s : State) (b : BankId) (f : Bank → Bank) : (s.onBank b f).targets = s.targets := (rfl)
@[simp] theorem onBank_dir (s : State) (b : BankId) (f : Bank → Bank) : (s.onBank b f).dir = s.dir := (rfl)
@[simp] theorem onBank_regions (s : State) (b : BankId) (f : Bank → Bank) : (s.onBank b f).regions = s.regions := (rfl)
@[simp] theorem onBank_weavers (s : State) (b : BankId) (f : Bank → Bank) : (s.onBank b f).weavers = s.weavers := (rfl)
@[simp] theorem onBank_walkers (s : State) (b : BankId) (f : Bank → Bank) : (s.onBank b f).walkers = s.walkers := (rfl)
@[simp] theorem onBank_migrations (s : State) (b : BankId) (f : Bank → Bank) : (s.onBank b f).migrations = s.migrations := (rfl)
@[simp] theorem onBank_poolReqs (s : State) (b : BankId) (f : Bank → Bank) : (s.onBank b f).poolReqs = s.poolReqs := (rfl)
@[simp] theorem onBank_nextId (s : State) (b : BankId) (f : Bank → Bank) : (s.onBank b f).nextId = s.nextId := (rfl)
@[simp] theorem onBank_ctl (s : State) (b : BankId) (f : Bank → Bank) : (s.onBank b f).ctl = s.ctl := (rfl)
@[simp] theorem onBank_auth (s : State) (b : BankId) (f : Bank → Bank) : (s.onBank b f).auth = s.auth := (rfl)
@[simp] theorem onBank_links (s : State) (b : BankId) (f : Bank → Bank) : (s.onBank b f).links = s.links := (rfl)
@[simp] theorem onBank_net (s : State) (b : BankId) (f : Bank → Bank) : (s.onBank b f).net = s.net := (rfl)
@[simp] theorem onBank_host (s : State) (b : BankId) (f : Bank → Bank) : (s.onBank b f).host = s.host := (rfl)
@[simp] theorem onBank_power (s : State) (b : BankId) (f : Bank → Bank) : (s.onBank b f).power = s.power := (rfl)
@[simp] theorem onBank_cnt (s : State) (b : BankId) (f : Bank → Bank) : (s.onBank b f).cnt = s.cnt := (rfl)
@[simp] theorem onBank_rst (s : State) (b : BankId) (f : Bank → Bank) : (s.onBank b f).rst = s.rst := (rfl)
@[simp] theorem onBank_out (s : State) (b : BankId) (f : Bank → Bank) : (s.onBank b f).out = s.out := (rfl)
@[simp] theorem onBank_free (s : State) (b : BankId) (f : Bank → Bank) : (s.onBank b f).free = s.free := (rfl)
@[simp] theorem onBank_dirUse (s : State) (b : BankId) (f : Bank → Bank) : (s.onBank b f).dirUse = s.dirUse := (rfl)
/-! onDir -/
@[simp] theorem onDir_pending (s : State) (l : Nat) (f : DirEnt → DirEnt) : (s.onDir l f).pending = s.pending := (rfl)
@[simp] theorem onDir_rnd (s : State) (l : Nat) (f : DirEnt → DirEnt) : (s.onDir l f).rnd = s.rnd := (rfl)
@[simp] theorem onDir_parts (s : State) (l : Nat) (f : DirEnt → DirEnt) : (s.onDir l f).parts = s.parts := (rfl)
@[simp] theorem onDir_windows (s : State) (l : Nat) (f : DirEnt → DirEnt) : (s.onDir l f).windows = s.windows := (rfl)
@[simp] theorem onDir_groups (s : State) (l : Nat) (f : DirEnt → DirEnt) : (s.onDir l f).groups = s.groups := (rfl)
@[simp] theorem onDir_extents (s : State) (l : Nat) (f : DirEnt → DirEnt) : (s.onDir l f).extents = s.extents := (rfl)
@[simp] theorem onDir_pool0 (s : State) (l : Nat) (f : DirEnt → DirEnt) : (s.onDir l f).pool0 = s.pool0 := (rfl)
@[simp] theorem onDir_pool1 (s : State) (l : Nat) (f : DirEnt → DirEnt) : (s.onDir l f).pool1 = s.pool1 := (rfl)
@[simp] theorem onDir_mem (s : State) (l : Nat) (f : DirEnt → DirEnt) : (s.onDir l f).mem = s.mem := (rfl)
@[simp] theorem onDir_half0 (s : State) (l : Nat) (f : DirEnt → DirEnt) : (s.onDir l f).half0 = s.half0 := (rfl)
@[simp] theorem onDir_half1 (s : State) (l : Nat) (f : DirEnt → DirEnt) : (s.onDir l f).half1 = s.half1 := (rfl)
@[simp] theorem onDir_dies (s : State) (l : Nat) (f : DirEnt → DirEnt) : (s.onDir l f).dies = s.dies := (rfl)
@[simp] theorem onDir_stackTab (s : State) (l : Nat) (f : DirEnt → DirEnt) : (s.onDir l f).stackTab = s.stackTab := (rfl)
@[simp] theorem onDir_banks (s : State) (l : Nat) (f : DirEnt → DirEnt) : (s.onDir l f).banks = s.banks := (rfl)
@[simp] theorem onDir_targets (s : State) (l : Nat) (f : DirEnt → DirEnt) : (s.onDir l f).targets = s.targets := (rfl)
@[simp] theorem onDir_dir (s : State) (l : Nat) (f : DirEnt → DirEnt) : (s.onDir l f).dir = s.dir.mod {} l f := (rfl)
@[simp] theorem onDir_regions (s : State) (l : Nat) (f : DirEnt → DirEnt) : (s.onDir l f).regions = s.regions := (rfl)
@[simp] theorem onDir_weavers (s : State) (l : Nat) (f : DirEnt → DirEnt) : (s.onDir l f).weavers = s.weavers := (rfl)
@[simp] theorem onDir_walkers (s : State) (l : Nat) (f : DirEnt → DirEnt) : (s.onDir l f).walkers = s.walkers := (rfl)
@[simp] theorem onDir_migrations (s : State) (l : Nat) (f : DirEnt → DirEnt) : (s.onDir l f).migrations = s.migrations := (rfl)
@[simp] theorem onDir_poolReqs (s : State) (l : Nat) (f : DirEnt → DirEnt) : (s.onDir l f).poolReqs = s.poolReqs := (rfl)
@[simp] theorem onDir_nextId (s : State) (l : Nat) (f : DirEnt → DirEnt) : (s.onDir l f).nextId = s.nextId := (rfl)
@[simp] theorem onDir_ctl (s : State) (l : Nat) (f : DirEnt → DirEnt) : (s.onDir l f).ctl = s.ctl := (rfl)
@[simp] theorem onDir_auth (s : State) (l : Nat) (f : DirEnt → DirEnt) : (s.onDir l f).auth = s.auth := (rfl)
@[simp] theorem onDir_links (s : State) (l : Nat) (f : DirEnt → DirEnt) : (s.onDir l f).links = s.links := (rfl)
@[simp] theorem onDir_net (s : State) (l : Nat) (f : DirEnt → DirEnt) : (s.onDir l f).net = s.net := (rfl)
@[simp] theorem onDir_host (s : State) (l : Nat) (f : DirEnt → DirEnt) : (s.onDir l f).host = s.host := (rfl)
@[simp] theorem onDir_power (s : State) (l : Nat) (f : DirEnt → DirEnt) : (s.onDir l f).power = s.power := (rfl)
@[simp] theorem onDir_cnt (s : State) (l : Nat) (f : DirEnt → DirEnt) : (s.onDir l f).cnt = s.cnt := (rfl)
@[simp] theorem onDir_rst (s : State) (l : Nat) (f : DirEnt → DirEnt) : (s.onDir l f).rst = s.rst := (rfl)
@[simp] theorem onDir_out (s : State) (l : Nat) (f : DirEnt → DirEnt) : (s.onDir l f).out = s.out := (rfl)
@[simp] theorem onDir_free (s : State) (l : Nat) (f : DirEnt → DirEnt) : (s.onDir l f).free = s.free := (rfl)
@[simp] theorem onDir_dirUse (s : State) (l : Nat) (f : DirEnt → DirEnt) : (s.onDir l f).dirUse = s.dirUse := (rfl)
/-! onRegion -/
@[simp] theorem onRegion_pending (s : State) (r : Nat) (f : Region → Region) : (s.onRegion r f).pending = s.pending := (rfl)
@[simp] theorem onRegion_rnd (s : State) (r : Nat) (f : Region → Region) : (s.onRegion r f).rnd = s.rnd := (rfl)
@[simp] theorem onRegion_parts (s : State) (r : Nat) (f : Region → Region) : (s.onRegion r f).parts = s.parts := (rfl)
@[simp] theorem onRegion_windows (s : State) (r : Nat) (f : Region → Region) : (s.onRegion r f).windows = s.windows := (rfl)
@[simp] theorem onRegion_groups (s : State) (r : Nat) (f : Region → Region) : (s.onRegion r f).groups = s.groups := (rfl)
@[simp] theorem onRegion_extents (s : State) (r : Nat) (f : Region → Region) : (s.onRegion r f).extents = s.extents := (rfl)
@[simp] theorem onRegion_pool0 (s : State) (r : Nat) (f : Region → Region) : (s.onRegion r f).pool0 = s.pool0 := (rfl)
@[simp] theorem onRegion_pool1 (s : State) (r : Nat) (f : Region → Region) : (s.onRegion r f).pool1 = s.pool1 := (rfl)
@[simp] theorem onRegion_mem (s : State) (r : Nat) (f : Region → Region) : (s.onRegion r f).mem = s.mem := (rfl)
@[simp] theorem onRegion_half0 (s : State) (r : Nat) (f : Region → Region) : (s.onRegion r f).half0 = s.half0 := (rfl)
@[simp] theorem onRegion_half1 (s : State) (r : Nat) (f : Region → Region) : (s.onRegion r f).half1 = s.half1 := (rfl)
@[simp] theorem onRegion_dies (s : State) (r : Nat) (f : Region → Region) : (s.onRegion r f).dies = s.dies := (rfl)
@[simp] theorem onRegion_stackTab (s : State) (r : Nat) (f : Region → Region) : (s.onRegion r f).stackTab = s.stackTab := (rfl)
@[simp] theorem onRegion_banks (s : State) (r : Nat) (f : Region → Region) : (s.onRegion r f).banks = s.banks := (rfl)
@[simp] theorem onRegion_targets (s : State) (r : Nat) (f : Region → Region) : (s.onRegion r f).targets = s.targets := (rfl)
@[simp] theorem onRegion_dir (s : State) (r : Nat) (f : Region → Region) : (s.onRegion r f).dir = s.dir := (rfl)
@[simp] theorem onRegion_regions (s : State) (r : Nat) (f : Region → Region) : (s.onRegion r f).regions = s.regions.mod {} r f := (rfl)
@[simp] theorem onRegion_weavers (s : State) (r : Nat) (f : Region → Region) : (s.onRegion r f).weavers = s.weavers := (rfl)
@[simp] theorem onRegion_walkers (s : State) (r : Nat) (f : Region → Region) : (s.onRegion r f).walkers = s.walkers := (rfl)
@[simp] theorem onRegion_migrations (s : State) (r : Nat) (f : Region → Region) : (s.onRegion r f).migrations = s.migrations := (rfl)
@[simp] theorem onRegion_poolReqs (s : State) (r : Nat) (f : Region → Region) : (s.onRegion r f).poolReqs = s.poolReqs := (rfl)
@[simp] theorem onRegion_nextId (s : State) (r : Nat) (f : Region → Region) : (s.onRegion r f).nextId = s.nextId := (rfl)
@[simp] theorem onRegion_ctl (s : State) (r : Nat) (f : Region → Region) : (s.onRegion r f).ctl = s.ctl := (rfl)
@[simp] theorem onRegion_auth (s : State) (r : Nat) (f : Region → Region) : (s.onRegion r f).auth = s.auth := (rfl)
@[simp] theorem onRegion_links (s : State) (r : Nat) (f : Region → Region) : (s.onRegion r f).links = s.links := (rfl)
@[simp] theorem onRegion_net (s : State) (r : Nat) (f : Region → Region) : (s.onRegion r f).net = s.net := (rfl)
@[simp] theorem onRegion_host (s : State) (r : Nat) (f : Region → Region) : (s.onRegion r f).host = s.host := (rfl)
@[simp] theorem onRegion_power (s : State) (r : Nat) (f : Region → Region) : (s.onRegion r f).power = s.power := (rfl)
@[simp] theorem onRegion_cnt (s : State) (r : Nat) (f : Region → Region) : (s.onRegion r f).cnt = s.cnt := (rfl)
@[simp] theorem onRegion_rst (s : State) (r : Nat) (f : Region → Region) : (s.onRegion r f).rst = s.rst := (rfl)
@[simp] theorem onRegion_out (s : State) (r : Nat) (f : Region → Region) : (s.onRegion r f).out = s.out := (rfl)
@[simp] theorem onRegion_free (s : State) (r : Nat) (f : Region → Region) : (s.onRegion r f).free = s.free := (rfl)
@[simp] theorem onRegion_dirUse (s : State) (r : Nat) (f : Region → Region) : (s.onRegion r f).dirUse = s.dirUse := (rfl)
/-! onWeaver -/
@[simp] theorem onWeaver_pending (s : State) (w : Nat) (f : Weaver → Weaver) : (s.onWeaver w f).pending = s.pending := (rfl)
@[simp] theorem onWeaver_rnd (s : State) (w : Nat) (f : Weaver → Weaver) : (s.onWeaver w f).rnd = s.rnd := (rfl)
@[simp] theorem onWeaver_parts (s : State) (w : Nat) (f : Weaver → Weaver) : (s.onWeaver w f).parts = s.parts := (rfl)
@[simp] theorem onWeaver_windows (s : State) (w : Nat) (f : Weaver → Weaver) : (s.onWeaver w f).windows = s.windows := (rfl)
@[simp] theorem onWeaver_groups (s : State) (w : Nat) (f : Weaver → Weaver) : (s.onWeaver w f).groups = s.groups := (rfl)
@[simp] theorem onWeaver_extents (s : State) (w : Nat) (f : Weaver → Weaver) : (s.onWeaver w f).extents = s.extents := (rfl)
@[simp] theorem onWeaver_pool0 (s : State) (w : Nat) (f : Weaver → Weaver) : (s.onWeaver w f).pool0 = s.pool0 := (rfl)
@[simp] theorem onWeaver_pool1 (s : State) (w : Nat) (f : Weaver → Weaver) : (s.onWeaver w f).pool1 = s.pool1 := (rfl)
@[simp] theorem onWeaver_mem (s : State) (w : Nat) (f : Weaver → Weaver) : (s.onWeaver w f).mem = s.mem := (rfl)
@[simp] theorem onWeaver_half0 (s : State) (w : Nat) (f : Weaver → Weaver) : (s.onWeaver w f).half0 = s.half0 := (rfl)
@[simp] theorem onWeaver_half1 (s : State) (w : Nat) (f : Weaver → Weaver) : (s.onWeaver w f).half1 = s.half1 := (rfl)
@[simp] theorem onWeaver_dies (s : State) (w : Nat) (f : Weaver → Weaver) : (s.onWeaver w f).dies = s.dies := (rfl)
@[simp] theorem onWeaver_stackTab (s : State) (w : Nat) (f : Weaver → Weaver) : (s.onWeaver w f).stackTab = s.stackTab := (rfl)
@[simp] theorem onWeaver_banks (s : State) (w : Nat) (f : Weaver → Weaver) : (s.onWeaver w f).banks = s.banks := (rfl)
@[simp] theorem onWeaver_targets (s : State) (w : Nat) (f : Weaver → Weaver) : (s.onWeaver w f).targets = s.targets := (rfl)
@[simp] theorem onWeaver_dir (s : State) (w : Nat) (f : Weaver → Weaver) : (s.onWeaver w f).dir = s.dir := (rfl)
@[simp] theorem onWeaver_regions (s : State) (w : Nat) (f : Weaver → Weaver) : (s.onWeaver w f).regions = s.regions := (rfl)
@[simp] theorem onWeaver_weavers (s : State) (w : Nat) (f : Weaver → Weaver) : (s.onWeaver w f).weavers = s.weavers.mod {} w f := (rfl)
@[simp] theorem onWeaver_walkers (s : State) (w : Nat) (f : Weaver → Weaver) : (s.onWeaver w f).walkers = s.walkers := (rfl)
@[simp] theorem onWeaver_migrations (s : State) (w : Nat) (f : Weaver → Weaver) : (s.onWeaver w f).migrations = s.migrations := (rfl)
@[simp] theorem onWeaver_poolReqs (s : State) (w : Nat) (f : Weaver → Weaver) : (s.onWeaver w f).poolReqs = s.poolReqs := (rfl)
@[simp] theorem onWeaver_nextId (s : State) (w : Nat) (f : Weaver → Weaver) : (s.onWeaver w f).nextId = s.nextId := (rfl)
@[simp] theorem onWeaver_ctl (s : State) (w : Nat) (f : Weaver → Weaver) : (s.onWeaver w f).ctl = s.ctl := (rfl)
@[simp] theorem onWeaver_auth (s : State) (w : Nat) (f : Weaver → Weaver) : (s.onWeaver w f).auth = s.auth := (rfl)
@[simp] theorem onWeaver_links (s : State) (w : Nat) (f : Weaver → Weaver) : (s.onWeaver w f).links = s.links := (rfl)
@[simp] theorem onWeaver_net (s : State) (w : Nat) (f : Weaver → Weaver) : (s.onWeaver w f).net = s.net := (rfl)
@[simp] theorem onWeaver_host (s : State) (w : Nat) (f : Weaver → Weaver) : (s.onWeaver w f).host = s.host := (rfl)
@[simp] theorem onWeaver_power (s : State) (w : Nat) (f : Weaver → Weaver) : (s.onWeaver w f).power = s.power := (rfl)
@[simp] theorem onWeaver_cnt (s : State) (w : Nat) (f : Weaver → Weaver) : (s.onWeaver w f).cnt = s.cnt := (rfl)
@[simp] theorem onWeaver_rst (s : State) (w : Nat) (f : Weaver → Weaver) : (s.onWeaver w f).rst = s.rst := (rfl)
@[simp] theorem onWeaver_out (s : State) (w : Nat) (f : Weaver → Weaver) : (s.onWeaver w f).out = s.out := (rfl)
@[simp] theorem onWeaver_free (s : State) (w : Nat) (f : Weaver → Weaver) : (s.onWeaver w f).free = s.free := (rfl)
@[simp] theorem onWeaver_dirUse (s : State) (w : Nat) (f : Weaver → Weaver) : (s.onWeaver w f).dirUse = s.dirUse := (rfl)
/-! onWalker -/
@[simp] theorem onWalker_pending (s : State) (k : Nat) (f : Walker → Walker) : (s.onWalker k f).pending = s.pending := (rfl)
@[simp] theorem onWalker_rnd (s : State) (k : Nat) (f : Walker → Walker) : (s.onWalker k f).rnd = s.rnd := (rfl)
@[simp] theorem onWalker_parts (s : State) (k : Nat) (f : Walker → Walker) : (s.onWalker k f).parts = s.parts := (rfl)
@[simp] theorem onWalker_windows (s : State) (k : Nat) (f : Walker → Walker) : (s.onWalker k f).windows = s.windows := (rfl)
@[simp] theorem onWalker_groups (s : State) (k : Nat) (f : Walker → Walker) : (s.onWalker k f).groups = s.groups := (rfl)
@[simp] theorem onWalker_extents (s : State) (k : Nat) (f : Walker → Walker) : (s.onWalker k f).extents = s.extents := (rfl)
@[simp] theorem onWalker_pool0 (s : State) (k : Nat) (f : Walker → Walker) : (s.onWalker k f).pool0 = s.pool0 := (rfl)
@[simp] theorem onWalker_pool1 (s : State) (k : Nat) (f : Walker → Walker) : (s.onWalker k f).pool1 = s.pool1 := (rfl)
@[simp] theorem onWalker_mem (s : State) (k : Nat) (f : Walker → Walker) : (s.onWalker k f).mem = s.mem := (rfl)
@[simp] theorem onWalker_half0 (s : State) (k : Nat) (f : Walker → Walker) : (s.onWalker k f).half0 = s.half0 := (rfl)
@[simp] theorem onWalker_half1 (s : State) (k : Nat) (f : Walker → Walker) : (s.onWalker k f).half1 = s.half1 := (rfl)
@[simp] theorem onWalker_dies (s : State) (k : Nat) (f : Walker → Walker) : (s.onWalker k f).dies = s.dies := (rfl)
@[simp] theorem onWalker_stackTab (s : State) (k : Nat) (f : Walker → Walker) : (s.onWalker k f).stackTab = s.stackTab := (rfl)
@[simp] theorem onWalker_banks (s : State) (k : Nat) (f : Walker → Walker) : (s.onWalker k f).banks = s.banks := (rfl)
@[simp] theorem onWalker_targets (s : State) (k : Nat) (f : Walker → Walker) : (s.onWalker k f).targets = s.targets := (rfl)
@[simp] theorem onWalker_dir (s : State) (k : Nat) (f : Walker → Walker) : (s.onWalker k f).dir = s.dir := (rfl)
@[simp] theorem onWalker_regions (s : State) (k : Nat) (f : Walker → Walker) : (s.onWalker k f).regions = s.regions := (rfl)
@[simp] theorem onWalker_weavers (s : State) (k : Nat) (f : Walker → Walker) : (s.onWalker k f).weavers = s.weavers := (rfl)
@[simp] theorem onWalker_walkers (s : State) (k : Nat) (f : Walker → Walker) : (s.onWalker k f).walkers = s.walkers.mod {} k f := (rfl)
@[simp] theorem onWalker_migrations (s : State) (k : Nat) (f : Walker → Walker) : (s.onWalker k f).migrations = s.migrations := (rfl)
@[simp] theorem onWalker_poolReqs (s : State) (k : Nat) (f : Walker → Walker) : (s.onWalker k f).poolReqs = s.poolReqs := (rfl)
@[simp] theorem onWalker_nextId (s : State) (k : Nat) (f : Walker → Walker) : (s.onWalker k f).nextId = s.nextId := (rfl)
@[simp] theorem onWalker_ctl (s : State) (k : Nat) (f : Walker → Walker) : (s.onWalker k f).ctl = s.ctl := (rfl)
@[simp] theorem onWalker_auth (s : State) (k : Nat) (f : Walker → Walker) : (s.onWalker k f).auth = s.auth := (rfl)
@[simp] theorem onWalker_links (s : State) (k : Nat) (f : Walker → Walker) : (s.onWalker k f).links = s.links := (rfl)
@[simp] theorem onWalker_net (s : State) (k : Nat) (f : Walker → Walker) : (s.onWalker k f).net = s.net := (rfl)
@[simp] theorem onWalker_host (s : State) (k : Nat) (f : Walker → Walker) : (s.onWalker k f).host = s.host := (rfl)
@[simp] theorem onWalker_power (s : State) (k : Nat) (f : Walker → Walker) : (s.onWalker k f).power = s.power := (rfl)
@[simp] theorem onWalker_cnt (s : State) (k : Nat) (f : Walker → Walker) : (s.onWalker k f).cnt = s.cnt := (rfl)
@[simp] theorem onWalker_rst (s : State) (k : Nat) (f : Walker → Walker) : (s.onWalker k f).rst = s.rst := (rfl)
@[simp] theorem onWalker_out (s : State) (k : Nat) (f : Walker → Walker) : (s.onWalker k f).out = s.out := (rfl)
@[simp] theorem onWalker_free (s : State) (k : Nat) (f : Walker → Walker) : (s.onWalker k f).free = s.free := (rfl)
@[simp] theorem onWalker_dirUse (s : State) (k : Nat) (f : Walker → Walker) : (s.onWalker k f).dirUse = s.dirUse := (rfl)
/-! onLink -/
@[simp] theorem onLink_pending (s : State) (l : Nat) (f : Link → Link) : (s.onLink l f).pending = s.pending := (rfl)
@[simp] theorem onLink_rnd (s : State) (l : Nat) (f : Link → Link) : (s.onLink l f).rnd = s.rnd := (rfl)
@[simp] theorem onLink_parts (s : State) (l : Nat) (f : Link → Link) : (s.onLink l f).parts = s.parts := (rfl)
@[simp] theorem onLink_windows (s : State) (l : Nat) (f : Link → Link) : (s.onLink l f).windows = s.windows := (rfl)
@[simp] theorem onLink_groups (s : State) (l : Nat) (f : Link → Link) : (s.onLink l f).groups = s.groups := (rfl)
@[simp] theorem onLink_extents (s : State) (l : Nat) (f : Link → Link) : (s.onLink l f).extents = s.extents := (rfl)
@[simp] theorem onLink_pool0 (s : State) (l : Nat) (f : Link → Link) : (s.onLink l f).pool0 = s.pool0 := (rfl)
@[simp] theorem onLink_pool1 (s : State) (l : Nat) (f : Link → Link) : (s.onLink l f).pool1 = s.pool1 := (rfl)
@[simp] theorem onLink_mem (s : State) (l : Nat) (f : Link → Link) : (s.onLink l f).mem = s.mem := (rfl)
@[simp] theorem onLink_half0 (s : State) (l : Nat) (f : Link → Link) : (s.onLink l f).half0 = s.half0 := (rfl)
@[simp] theorem onLink_half1 (s : State) (l : Nat) (f : Link → Link) : (s.onLink l f).half1 = s.half1 := (rfl)
@[simp] theorem onLink_dies (s : State) (l : Nat) (f : Link → Link) : (s.onLink l f).dies = s.dies := (rfl)
@[simp] theorem onLink_stackTab (s : State) (l : Nat) (f : Link → Link) : (s.onLink l f).stackTab = s.stackTab := (rfl)
@[simp] theorem onLink_banks (s : State) (l : Nat) (f : Link → Link) : (s.onLink l f).banks = s.banks := (rfl)
@[simp] theorem onLink_targets (s : State) (l : Nat) (f : Link → Link) : (s.onLink l f).targets = s.targets := (rfl)
@[simp] theorem onLink_dir (s : State) (l : Nat) (f : Link → Link) : (s.onLink l f).dir = s.dir := (rfl)
@[simp] theorem onLink_regions (s : State) (l : Nat) (f : Link → Link) : (s.onLink l f).regions = s.regions := (rfl)
@[simp] theorem onLink_weavers (s : State) (l : Nat) (f : Link → Link) : (s.onLink l f).weavers = s.weavers := (rfl)
@[simp] theorem onLink_walkers (s : State) (l : Nat) (f : Link → Link) : (s.onLink l f).walkers = s.walkers := (rfl)
@[simp] theorem onLink_migrations (s : State) (l : Nat) (f : Link → Link) : (s.onLink l f).migrations = s.migrations := (rfl)
@[simp] theorem onLink_poolReqs (s : State) (l : Nat) (f : Link → Link) : (s.onLink l f).poolReqs = s.poolReqs := (rfl)
@[simp] theorem onLink_nextId (s : State) (l : Nat) (f : Link → Link) : (s.onLink l f).nextId = s.nextId := (rfl)
@[simp] theorem onLink_ctl (s : State) (l : Nat) (f : Link → Link) : (s.onLink l f).ctl = s.ctl := (rfl)
@[simp] theorem onLink_auth (s : State) (l : Nat) (f : Link → Link) : (s.onLink l f).auth = s.auth := (rfl)
@[simp] theorem onLink_links (s : State) (l : Nat) (f : Link → Link) : (s.onLink l f).links = s.links.mod {} l f := (rfl)
@[simp] theorem onLink_net (s : State) (l : Nat) (f : Link → Link) : (s.onLink l f).net = s.net := (rfl)
@[simp] theorem onLink_host (s : State) (l : Nat) (f : Link → Link) : (s.onLink l f).host = s.host := (rfl)
@[simp] theorem onLink_power (s : State) (l : Nat) (f : Link → Link) : (s.onLink l f).power = s.power := (rfl)
@[simp] theorem onLink_cnt (s : State) (l : Nat) (f : Link → Link) : (s.onLink l f).cnt = s.cnt := (rfl)
@[simp] theorem onLink_rst (s : State) (l : Nat) (f : Link → Link) : (s.onLink l f).rst = s.rst := (rfl)
@[simp] theorem onLink_out (s : State) (l : Nat) (f : Link → Link) : (s.onLink l f).out = s.out := (rfl)
@[simp] theorem onLink_free (s : State) (l : Nat) (f : Link → Link) : (s.onLink l f).free = s.free := (rfl)
@[simp] theorem onLink_dirUse (s : State) (l : Nat) (f : Link → Link) : (s.onLink l f).dirUse = s.dirUse := (rfl)
/-! onRnd -/
@[simp] theorem onRnd_pending (s : State) (f : RoundSt → RoundSt) : (s.onRnd f).pending = s.pending := (rfl)
@[simp] theorem onRnd_rnd (s : State) (f : RoundSt → RoundSt) : (s.onRnd f).rnd = f s.rnd := (rfl)
@[simp] theorem onRnd_parts (s : State) (f : RoundSt → RoundSt) : (s.onRnd f).parts = s.parts := (rfl)
@[simp] theorem onRnd_windows (s : State) (f : RoundSt → RoundSt) : (s.onRnd f).windows = s.windows := (rfl)
@[simp] theorem onRnd_groups (s : State) (f : RoundSt → RoundSt) : (s.onRnd f).groups = s.groups := (rfl)
@[simp] theorem onRnd_extents (s : State) (f : RoundSt → RoundSt) : (s.onRnd f).extents = s.extents := (rfl)
@[simp] theorem onRnd_pool0 (s : State) (f : RoundSt → RoundSt) : (s.onRnd f).pool0 = s.pool0 := (rfl)
@[simp] theorem onRnd_pool1 (s : State) (f : RoundSt → RoundSt) : (s.onRnd f).pool1 = s.pool1 := (rfl)
@[simp] theorem onRnd_mem (s : State) (f : RoundSt → RoundSt) : (s.onRnd f).mem = s.mem := (rfl)
@[simp] theorem onRnd_half0 (s : State) (f : RoundSt → RoundSt) : (s.onRnd f).half0 = s.half0 := (rfl)
@[simp] theorem onRnd_half1 (s : State) (f : RoundSt → RoundSt) : (s.onRnd f).half1 = s.half1 := (rfl)
@[simp] theorem onRnd_dies (s : State) (f : RoundSt → RoundSt) : (s.onRnd f).dies = s.dies := (rfl)
@[simp] theorem onRnd_stackTab (s : State) (f : RoundSt → RoundSt) : (s.onRnd f).stackTab = s.stackTab := (rfl)
@[simp] theorem onRnd_banks (s : State) (f : RoundSt → RoundSt) : (s.onRnd f).banks = s.banks := (rfl)
@[simp] theorem onRnd_targets (s : State) (f : RoundSt → RoundSt) : (s.onRnd f).targets = s.targets := (rfl)
@[simp] theorem onRnd_dir (s : State) (f : RoundSt → RoundSt) : (s.onRnd f).dir = s.dir := (rfl)
@[simp] theorem onRnd_regions (s : State) (f : RoundSt → RoundSt) : (s.onRnd f).regions = s.regions := (rfl)
@[simp] theorem onRnd_weavers (s : State) (f : RoundSt → RoundSt) : (s.onRnd f).weavers = s.weavers := (rfl)
@[simp] theorem onRnd_walkers (s : State) (f : RoundSt → RoundSt) : (s.onRnd f).walkers = s.walkers := (rfl)
@[simp] theorem onRnd_migrations (s : State) (f : RoundSt → RoundSt) : (s.onRnd f).migrations = s.migrations := (rfl)
@[simp] theorem onRnd_poolReqs (s : State) (f : RoundSt → RoundSt) : (s.onRnd f).poolReqs = s.poolReqs := (rfl)
@[simp] theorem onRnd_nextId (s : State) (f : RoundSt → RoundSt) : (s.onRnd f).nextId = s.nextId := (rfl)
@[simp] theorem onRnd_ctl (s : State) (f : RoundSt → RoundSt) : (s.onRnd f).ctl = s.ctl := (rfl)
@[simp] theorem onRnd_auth (s : State) (f : RoundSt → RoundSt) : (s.onRnd f).auth = s.auth := (rfl)
@[simp] theorem onRnd_links (s : State) (f : RoundSt → RoundSt) : (s.onRnd f).links = s.links := (rfl)
@[simp] theorem onRnd_net (s : State) (f : RoundSt → RoundSt) : (s.onRnd f).net = s.net := (rfl)
@[simp] theorem onRnd_host (s : State) (f : RoundSt → RoundSt) : (s.onRnd f).host = s.host := (rfl)
@[simp] theorem onRnd_power (s : State) (f : RoundSt → RoundSt) : (s.onRnd f).power = s.power := (rfl)
@[simp] theorem onRnd_cnt (s : State) (f : RoundSt → RoundSt) : (s.onRnd f).cnt = s.cnt := (rfl)
@[simp] theorem onRnd_rst (s : State) (f : RoundSt → RoundSt) : (s.onRnd f).rst = s.rst := (rfl)
@[simp] theorem onRnd_out (s : State) (f : RoundSt → RoundSt) : (s.onRnd f).out = s.out := (rfl)
@[simp] theorem onRnd_free (s : State) (f : RoundSt → RoundSt) : (s.onRnd f).free = s.free := (rfl)
@[simp] theorem onRnd_dirUse (s : State) (f : RoundSt → RoundSt) : (s.onRnd f).dirUse = s.dirUse := (rfl)
/-! onMem -/
@[simp] theorem onMem_pending (s : State) (f : PoolMem → PoolMem) : (s.onMem f).pending = s.pending := (rfl)
@[simp] theorem onMem_rnd (s : State) (f : PoolMem → PoolMem) : (s.onMem f).rnd = s.rnd := (rfl)
@[simp] theorem onMem_parts (s : State) (f : PoolMem → PoolMem) : (s.onMem f).parts = s.parts := (rfl)
@[simp] theorem onMem_windows (s : State) (f : PoolMem → PoolMem) : (s.onMem f).windows = s.windows := (rfl)
@[simp] theorem onMem_groups (s : State) (f : PoolMem → PoolMem) : (s.onMem f).groups = s.groups := (rfl)
@[simp] theorem onMem_extents (s : State) (f : PoolMem → PoolMem) : (s.onMem f).extents = s.extents := (rfl)
@[simp] theorem onMem_pool0 (s : State) (f : PoolMem → PoolMem) : (s.onMem f).pool0 = s.pool0 := (rfl)
@[simp] theorem onMem_pool1 (s : State) (f : PoolMem → PoolMem) : (s.onMem f).pool1 = s.pool1 := (rfl)
@[simp] theorem onMem_mem (s : State) (f : PoolMem → PoolMem) : (s.onMem f).mem = f s.mem := (rfl)
@[simp] theorem onMem_half0 (s : State) (f : PoolMem → PoolMem) : (s.onMem f).half0 = s.half0 := (rfl)
@[simp] theorem onMem_half1 (s : State) (f : PoolMem → PoolMem) : (s.onMem f).half1 = s.half1 := (rfl)
@[simp] theorem onMem_dies (s : State) (f : PoolMem → PoolMem) : (s.onMem f).dies = s.dies := (rfl)
@[simp] theorem onMem_stackTab (s : State) (f : PoolMem → PoolMem) : (s.onMem f).stackTab = s.stackTab := (rfl)
@[simp] theorem onMem_banks (s : State) (f : PoolMem → PoolMem) : (s.onMem f).banks = s.banks := (rfl)
@[simp] theorem onMem_targets (s : State) (f : PoolMem → PoolMem) : (s.onMem f).targets = s.targets := (rfl)
@[simp] theorem onMem_dir (s : State) (f : PoolMem → PoolMem) : (s.onMem f).dir = s.dir := (rfl)
@[simp] theorem onMem_regions (s : State) (f : PoolMem → PoolMem) : (s.onMem f).regions = s.regions := (rfl)
@[simp] theorem onMem_weavers (s : State) (f : PoolMem → PoolMem) : (s.onMem f).weavers = s.weavers := (rfl)
@[simp] theorem onMem_walkers (s : State) (f : PoolMem → PoolMem) : (s.onMem f).walkers = s.walkers := (rfl)
@[simp] theorem onMem_migrations (s : State) (f : PoolMem → PoolMem) : (s.onMem f).migrations = s.migrations := (rfl)
@[simp] theorem onMem_poolReqs (s : State) (f : PoolMem → PoolMem) : (s.onMem f).poolReqs = s.poolReqs := (rfl)
@[simp] theorem onMem_nextId (s : State) (f : PoolMem → PoolMem) : (s.onMem f).nextId = s.nextId := (rfl)
@[simp] theorem onMem_ctl (s : State) (f : PoolMem → PoolMem) : (s.onMem f).ctl = s.ctl := (rfl)
@[simp] theorem onMem_auth (s : State) (f : PoolMem → PoolMem) : (s.onMem f).auth = s.auth := (rfl)
@[simp] theorem onMem_links (s : State) (f : PoolMem → PoolMem) : (s.onMem f).links = s.links := (rfl)
@[simp] theorem onMem_net (s : State) (f : PoolMem → PoolMem) : (s.onMem f).net = s.net := (rfl)
@[simp] theorem onMem_host (s : State) (f : PoolMem → PoolMem) : (s.onMem f).host = s.host := (rfl)
@[simp] theorem onMem_power (s : State) (f : PoolMem → PoolMem) : (s.onMem f).power = s.power := (rfl)
@[simp] theorem onMem_cnt (s : State) (f : PoolMem → PoolMem) : (s.onMem f).cnt = s.cnt := (rfl)
@[simp] theorem onMem_rst (s : State) (f : PoolMem → PoolMem) : (s.onMem f).rst = s.rst := (rfl)
@[simp] theorem onMem_out (s : State) (f : PoolMem → PoolMem) : (s.onMem f).out = s.out := (rfl)
@[simp] theorem onMem_free (s : State) (f : PoolMem → PoolMem) : (s.onMem f).free = s.free := (rfl)
@[simp] theorem onMem_dirUse (s : State) (f : PoolMem → PoolMem) : (s.onMem f).dirUse = s.dirUse := (rfl)
/-! onCtl -/
@[simp] theorem onCtl_pending (s : State) (f : CtlSt → CtlSt) : (s.onCtl f).pending = s.pending := (rfl)
@[simp] theorem onCtl_rnd (s : State) (f : CtlSt → CtlSt) : (s.onCtl f).rnd = s.rnd := (rfl)
@[simp] theorem onCtl_parts (s : State) (f : CtlSt → CtlSt) : (s.onCtl f).parts = s.parts := (rfl)
@[simp] theorem onCtl_windows (s : State) (f : CtlSt → CtlSt) : (s.onCtl f).windows = s.windows := (rfl)
@[simp] theorem onCtl_groups (s : State) (f : CtlSt → CtlSt) : (s.onCtl f).groups = s.groups := (rfl)
@[simp] theorem onCtl_extents (s : State) (f : CtlSt → CtlSt) : (s.onCtl f).extents = s.extents := (rfl)
@[simp] theorem onCtl_pool0 (s : State) (f : CtlSt → CtlSt) : (s.onCtl f).pool0 = s.pool0 := (rfl)
@[simp] theorem onCtl_pool1 (s : State) (f : CtlSt → CtlSt) : (s.onCtl f).pool1 = s.pool1 := (rfl)
@[simp] theorem onCtl_mem (s : State) (f : CtlSt → CtlSt) : (s.onCtl f).mem = s.mem := (rfl)
@[simp] theorem onCtl_half0 (s : State) (f : CtlSt → CtlSt) : (s.onCtl f).half0 = s.half0 := (rfl)
@[simp] theorem onCtl_half1 (s : State) (f : CtlSt → CtlSt) : (s.onCtl f).half1 = s.half1 := (rfl)
@[simp] theorem onCtl_dies (s : State) (f : CtlSt → CtlSt) : (s.onCtl f).dies = s.dies := (rfl)
@[simp] theorem onCtl_stackTab (s : State) (f : CtlSt → CtlSt) : (s.onCtl f).stackTab = s.stackTab := (rfl)
@[simp] theorem onCtl_banks (s : State) (f : CtlSt → CtlSt) : (s.onCtl f).banks = s.banks := (rfl)
@[simp] theorem onCtl_targets (s : State) (f : CtlSt → CtlSt) : (s.onCtl f).targets = s.targets := (rfl)
@[simp] theorem onCtl_dir (s : State) (f : CtlSt → CtlSt) : (s.onCtl f).dir = s.dir := (rfl)
@[simp] theorem onCtl_regions (s : State) (f : CtlSt → CtlSt) : (s.onCtl f).regions = s.regions := (rfl)
@[simp] theorem onCtl_weavers (s : State) (f : CtlSt → CtlSt) : (s.onCtl f).weavers = s.weavers := (rfl)
@[simp] theorem onCtl_walkers (s : State) (f : CtlSt → CtlSt) : (s.onCtl f).walkers = s.walkers := (rfl)
@[simp] theorem onCtl_migrations (s : State) (f : CtlSt → CtlSt) : (s.onCtl f).migrations = s.migrations := (rfl)
@[simp] theorem onCtl_poolReqs (s : State) (f : CtlSt → CtlSt) : (s.onCtl f).poolReqs = s.poolReqs := (rfl)
@[simp] theorem onCtl_nextId (s : State) (f : CtlSt → CtlSt) : (s.onCtl f).nextId = s.nextId := (rfl)
@[simp] theorem onCtl_ctl (s : State) (f : CtlSt → CtlSt) : (s.onCtl f).ctl = f s.ctl := (rfl)
@[simp] theorem onCtl_auth (s : State) (f : CtlSt → CtlSt) : (s.onCtl f).auth = s.auth := (rfl)
@[simp] theorem onCtl_links (s : State) (f : CtlSt → CtlSt) : (s.onCtl f).links = s.links := (rfl)
@[simp] theorem onCtl_net (s : State) (f : CtlSt → CtlSt) : (s.onCtl f).net = s.net := (rfl)
@[simp] theorem onCtl_host (s : State) (f : CtlSt → CtlSt) : (s.onCtl f).host = s.host := (rfl)
@[simp] theorem onCtl_power (s : State) (f : CtlSt → CtlSt) : (s.onCtl f).power = s.power := (rfl)
@[simp] theorem onCtl_cnt (s : State) (f : CtlSt → CtlSt) : (s.onCtl f).cnt = s.cnt := (rfl)
@[simp] theorem onCtl_rst (s : State) (f : CtlSt → CtlSt) : (s.onCtl f).rst = s.rst := (rfl)
@[simp] theorem onCtl_out (s : State) (f : CtlSt → CtlSt) : (s.onCtl f).out = s.out := (rfl)
@[simp] theorem onCtl_free (s : State) (f : CtlSt → CtlSt) : (s.onCtl f).free = s.free := (rfl)
@[simp] theorem onCtl_dirUse (s : State) (f : CtlSt → CtlSt) : (s.onCtl f).dirUse = s.dirUse := (rfl)
/-! onAuth -/
@[simp] theorem onAuth_pending (s : State) (f : AuthSt → AuthSt) : (s.onAuth f).pending = s.pending := (rfl)
@[simp] theorem onAuth_rnd (s : State) (f : AuthSt → AuthSt) : (s.onAuth f).rnd = s.rnd := (rfl)
@[simp] theorem onAuth_parts (s : State) (f : AuthSt → AuthSt) : (s.onAuth f).parts = s.parts := (rfl)
@[simp] theorem onAuth_windows (s : State) (f : AuthSt → AuthSt) : (s.onAuth f).windows = s.windows := (rfl)
@[simp] theorem onAuth_groups (s : State) (f : AuthSt → AuthSt) : (s.onAuth f).groups = s.groups := (rfl)
@[simp] theorem onAuth_extents (s : State) (f : AuthSt → AuthSt) : (s.onAuth f).extents = s.extents := (rfl)
@[simp] theorem onAuth_pool0 (s : State) (f : AuthSt → AuthSt) : (s.onAuth f).pool0 = s.pool0 := (rfl)
@[simp] theorem onAuth_pool1 (s : State) (f : AuthSt → AuthSt) : (s.onAuth f).pool1 = s.pool1 := (rfl)
@[simp] theorem onAuth_mem (s : State) (f : AuthSt → AuthSt) : (s.onAuth f).mem = s.mem := (rfl)
@[simp] theorem onAuth_half0 (s : State) (f : AuthSt → AuthSt) : (s.onAuth f).half0 = s.half0 := (rfl)
@[simp] theorem onAuth_half1 (s : State) (f : AuthSt → AuthSt) : (s.onAuth f).half1 = s.half1 := (rfl)
@[simp] theorem onAuth_dies (s : State) (f : AuthSt → AuthSt) : (s.onAuth f).dies = s.dies := (rfl)
@[simp] theorem onAuth_stackTab (s : State) (f : AuthSt → AuthSt) : (s.onAuth f).stackTab = s.stackTab := (rfl)
@[simp] theorem onAuth_banks (s : State) (f : AuthSt → AuthSt) : (s.onAuth f).banks = s.banks := (rfl)
@[simp] theorem onAuth_targets (s : State) (f : AuthSt → AuthSt) : (s.onAuth f).targets = s.targets := (rfl)
@[simp] theorem onAuth_dir (s : State) (f : AuthSt → AuthSt) : (s.onAuth f).dir = s.dir := (rfl)
@[simp] theorem onAuth_regions (s : State) (f : AuthSt → AuthSt) : (s.onAuth f).regions = s.regions := (rfl)
@[simp] theorem onAuth_weavers (s : State) (f : AuthSt → AuthSt) : (s.onAuth f).weavers = s.weavers := (rfl)
@[simp] theorem onAuth_walkers (s : State) (f : AuthSt → AuthSt) : (s.onAuth f).walkers = s.walkers := (rfl)
@[simp] theorem onAuth_migrations (s : State) (f : AuthSt → AuthSt) : (s.onAuth f).migrations = s.migrations := (rfl)
@[simp] theorem onAuth_poolReqs (s : State) (f : AuthSt → AuthSt) : (s.onAuth f).poolReqs = s.poolReqs := (rfl)
@[simp] theorem onAuth_nextId (s : State) (f : AuthSt → AuthSt) : (s.onAuth f).nextId = s.nextId := (rfl)
@[simp] theorem onAuth_ctl (s : State) (f : AuthSt → AuthSt) : (s.onAuth f).ctl = s.ctl := (rfl)
@[simp] theorem onAuth_auth (s : State) (f : AuthSt → AuthSt) : (s.onAuth f).auth = f s.auth := (rfl)
@[simp] theorem onAuth_links (s : State) (f : AuthSt → AuthSt) : (s.onAuth f).links = s.links := (rfl)
@[simp] theorem onAuth_net (s : State) (f : AuthSt → AuthSt) : (s.onAuth f).net = s.net := (rfl)
@[simp] theorem onAuth_host (s : State) (f : AuthSt → AuthSt) : (s.onAuth f).host = s.host := (rfl)
@[simp] theorem onAuth_power (s : State) (f : AuthSt → AuthSt) : (s.onAuth f).power = s.power := (rfl)
@[simp] theorem onAuth_cnt (s : State) (f : AuthSt → AuthSt) : (s.onAuth f).cnt = s.cnt := (rfl)
@[simp] theorem onAuth_rst (s : State) (f : AuthSt → AuthSt) : (s.onAuth f).rst = s.rst := (rfl)
@[simp] theorem onAuth_out (s : State) (f : AuthSt → AuthSt) : (s.onAuth f).out = s.out := (rfl)
@[simp] theorem onAuth_free (s : State) (f : AuthSt → AuthSt) : (s.onAuth f).free = s.free := (rfl)
@[simp] theorem onAuth_dirUse (s : State) (f : AuthSt → AuthSt) : (s.onAuth f).dirUse = s.dirUse := (rfl)
/-! onNet -/
@[simp] theorem onNet_pending (s : State) (f : NetSt → NetSt) : (s.onNet f).pending = s.pending := (rfl)
@[simp] theorem onNet_rnd (s : State) (f : NetSt → NetSt) : (s.onNet f).rnd = s.rnd := (rfl)
@[simp] theorem onNet_parts (s : State) (f : NetSt → NetSt) : (s.onNet f).parts = s.parts := (rfl)
@[simp] theorem onNet_windows (s : State) (f : NetSt → NetSt) : (s.onNet f).windows = s.windows := (rfl)
@[simp] theorem onNet_groups (s : State) (f : NetSt → NetSt) : (s.onNet f).groups = s.groups := (rfl)
@[simp] theorem onNet_extents (s : State) (f : NetSt → NetSt) : (s.onNet f).extents = s.extents := (rfl)
@[simp] theorem onNet_pool0 (s : State) (f : NetSt → NetSt) : (s.onNet f).pool0 = s.pool0 := (rfl)
@[simp] theorem onNet_pool1 (s : State) (f : NetSt → NetSt) : (s.onNet f).pool1 = s.pool1 := (rfl)
@[simp] theorem onNet_mem (s : State) (f : NetSt → NetSt) : (s.onNet f).mem = s.mem := (rfl)
@[simp] theorem onNet_half0 (s : State) (f : NetSt → NetSt) : (s.onNet f).half0 = s.half0 := (rfl)
@[simp] theorem onNet_half1 (s : State) (f : NetSt → NetSt) : (s.onNet f).half1 = s.half1 := (rfl)
@[simp] theorem onNet_dies (s : State) (f : NetSt → NetSt) : (s.onNet f).dies = s.dies := (rfl)
@[simp] theorem onNet_stackTab (s : State) (f : NetSt → NetSt) : (s.onNet f).stackTab = s.stackTab := (rfl)
@[simp] theorem onNet_banks (s : State) (f : NetSt → NetSt) : (s.onNet f).banks = s.banks := (rfl)
@[simp] theorem onNet_targets (s : State) (f : NetSt → NetSt) : (s.onNet f).targets = s.targets := (rfl)
@[simp] theorem onNet_dir (s : State) (f : NetSt → NetSt) : (s.onNet f).dir = s.dir := (rfl)
@[simp] theorem onNet_regions (s : State) (f : NetSt → NetSt) : (s.onNet f).regions = s.regions := (rfl)
@[simp] theorem onNet_weavers (s : State) (f : NetSt → NetSt) : (s.onNet f).weavers = s.weavers := (rfl)
@[simp] theorem onNet_walkers (s : State) (f : NetSt → NetSt) : (s.onNet f).walkers = s.walkers := (rfl)
@[simp] theorem onNet_migrations (s : State) (f : NetSt → NetSt) : (s.onNet f).migrations = s.migrations := (rfl)
@[simp] theorem onNet_poolReqs (s : State) (f : NetSt → NetSt) : (s.onNet f).poolReqs = s.poolReqs := (rfl)
@[simp] theorem onNet_nextId (s : State) (f : NetSt → NetSt) : (s.onNet f).nextId = s.nextId := (rfl)
@[simp] theorem onNet_ctl (s : State) (f : NetSt → NetSt) : (s.onNet f).ctl = s.ctl := (rfl)
@[simp] theorem onNet_auth (s : State) (f : NetSt → NetSt) : (s.onNet f).auth = s.auth := (rfl)
@[simp] theorem onNet_links (s : State) (f : NetSt → NetSt) : (s.onNet f).links = s.links := (rfl)
@[simp] theorem onNet_net (s : State) (f : NetSt → NetSt) : (s.onNet f).net = f s.net := (rfl)
@[simp] theorem onNet_host (s : State) (f : NetSt → NetSt) : (s.onNet f).host = s.host := (rfl)
@[simp] theorem onNet_power (s : State) (f : NetSt → NetSt) : (s.onNet f).power = s.power := (rfl)
@[simp] theorem onNet_cnt (s : State) (f : NetSt → NetSt) : (s.onNet f).cnt = s.cnt := (rfl)
@[simp] theorem onNet_rst (s : State) (f : NetSt → NetSt) : (s.onNet f).rst = s.rst := (rfl)
@[simp] theorem onNet_out (s : State) (f : NetSt → NetSt) : (s.onNet f).out = s.out := (rfl)
@[simp] theorem onNet_free (s : State) (f : NetSt → NetSt) : (s.onNet f).free = s.free := (rfl)
@[simp] theorem onNet_dirUse (s : State) (f : NetSt → NetSt) : (s.onNet f).dirUse = s.dirUse := (rfl)
/-! onHost -/
@[simp] theorem onHost_pending (s : State) (f : HostSt → HostSt) : (s.onHost f).pending = s.pending := (rfl)
@[simp] theorem onHost_rnd (s : State) (f : HostSt → HostSt) : (s.onHost f).rnd = s.rnd := (rfl)
@[simp] theorem onHost_parts (s : State) (f : HostSt → HostSt) : (s.onHost f).parts = s.parts := (rfl)
@[simp] theorem onHost_windows (s : State) (f : HostSt → HostSt) : (s.onHost f).windows = s.windows := (rfl)
@[simp] theorem onHost_groups (s : State) (f : HostSt → HostSt) : (s.onHost f).groups = s.groups := (rfl)
@[simp] theorem onHost_extents (s : State) (f : HostSt → HostSt) : (s.onHost f).extents = s.extents := (rfl)
@[simp] theorem onHost_pool0 (s : State) (f : HostSt → HostSt) : (s.onHost f).pool0 = s.pool0 := (rfl)
@[simp] theorem onHost_pool1 (s : State) (f : HostSt → HostSt) : (s.onHost f).pool1 = s.pool1 := (rfl)
@[simp] theorem onHost_mem (s : State) (f : HostSt → HostSt) : (s.onHost f).mem = s.mem := (rfl)
@[simp] theorem onHost_half0 (s : State) (f : HostSt → HostSt) : (s.onHost f).half0 = s.half0 := (rfl)
@[simp] theorem onHost_half1 (s : State) (f : HostSt → HostSt) : (s.onHost f).half1 = s.half1 := (rfl)
@[simp] theorem onHost_dies (s : State) (f : HostSt → HostSt) : (s.onHost f).dies = s.dies := (rfl)
@[simp] theorem onHost_stackTab (s : State) (f : HostSt → HostSt) : (s.onHost f).stackTab = s.stackTab := (rfl)
@[simp] theorem onHost_banks (s : State) (f : HostSt → HostSt) : (s.onHost f).banks = s.banks := (rfl)
@[simp] theorem onHost_targets (s : State) (f : HostSt → HostSt) : (s.onHost f).targets = s.targets := (rfl)
@[simp] theorem onHost_dir (s : State) (f : HostSt → HostSt) : (s.onHost f).dir = s.dir := (rfl)
@[simp] theorem onHost_regions (s : State) (f : HostSt → HostSt) : (s.onHost f).regions = s.regions := (rfl)
@[simp] theorem onHost_weavers (s : State) (f : HostSt → HostSt) : (s.onHost f).weavers = s.weavers := (rfl)
@[simp] theorem onHost_walkers (s : State) (f : HostSt → HostSt) : (s.onHost f).walkers = s.walkers := (rfl)
@[simp] theorem onHost_migrations (s : State) (f : HostSt → HostSt) : (s.onHost f).migrations = s.migrations := (rfl)
@[simp] theorem onHost_poolReqs (s : State) (f : HostSt → HostSt) : (s.onHost f).poolReqs = s.poolReqs := (rfl)
@[simp] theorem onHost_nextId (s : State) (f : HostSt → HostSt) : (s.onHost f).nextId = s.nextId := (rfl)
@[simp] theorem onHost_ctl (s : State) (f : HostSt → HostSt) : (s.onHost f).ctl = s.ctl := (rfl)
@[simp] theorem onHost_auth (s : State) (f : HostSt → HostSt) : (s.onHost f).auth = s.auth := (rfl)
@[simp] theorem onHost_links (s : State) (f : HostSt → HostSt) : (s.onHost f).links = s.links := (rfl)
@[simp] theorem onHost_net (s : State) (f : HostSt → HostSt) : (s.onHost f).net = s.net := (rfl)
@[simp] theorem onHost_host (s : State) (f : HostSt → HostSt) : (s.onHost f).host = f s.host := (rfl)
@[simp] theorem onHost_power (s : State) (f : HostSt → HostSt) : (s.onHost f).power = s.power := (rfl)
@[simp] theorem onHost_cnt (s : State) (f : HostSt → HostSt) : (s.onHost f).cnt = s.cnt := (rfl)
@[simp] theorem onHost_rst (s : State) (f : HostSt → HostSt) : (s.onHost f).rst = s.rst := (rfl)
@[simp] theorem onHost_out (s : State) (f : HostSt → HostSt) : (s.onHost f).out = s.out := (rfl)
@[simp] theorem onHost_free (s : State) (f : HostSt → HostSt) : (s.onHost f).free = s.free := (rfl)
@[simp] theorem onHost_dirUse (s : State) (f : HostSt → HostSt) : (s.onHost f).dirUse = s.dirUse := (rfl)
/-! onPower -/
@[simp] theorem onPower_pending (s : State) (f : PowerSt → PowerSt) : (s.onPower f).pending = s.pending := (rfl)
@[simp] theorem onPower_rnd (s : State) (f : PowerSt → PowerSt) : (s.onPower f).rnd = s.rnd := (rfl)
@[simp] theorem onPower_parts (s : State) (f : PowerSt → PowerSt) : (s.onPower f).parts = s.parts := (rfl)
@[simp] theorem onPower_windows (s : State) (f : PowerSt → PowerSt) : (s.onPower f).windows = s.windows := (rfl)
@[simp] theorem onPower_groups (s : State) (f : PowerSt → PowerSt) : (s.onPower f).groups = s.groups := (rfl)
@[simp] theorem onPower_extents (s : State) (f : PowerSt → PowerSt) : (s.onPower f).extents = s.extents := (rfl)
@[simp] theorem onPower_pool0 (s : State) (f : PowerSt → PowerSt) : (s.onPower f).pool0 = s.pool0 := (rfl)
@[simp] theorem onPower_pool1 (s : State) (f : PowerSt → PowerSt) : (s.onPower f).pool1 = s.pool1 := (rfl)
@[simp] theorem onPower_mem (s : State) (f : PowerSt → PowerSt) : (s.onPower f).mem = s.mem := (rfl)
@[simp] theorem onPower_half0 (s : State) (f : PowerSt → PowerSt) : (s.onPower f).half0 = s.half0 := (rfl)
@[simp] theorem onPower_half1 (s : State) (f : PowerSt → PowerSt) : (s.onPower f).half1 = s.half1 := (rfl)
@[simp] theorem onPower_dies (s : State) (f : PowerSt → PowerSt) : (s.onPower f).dies = s.dies := (rfl)
@[simp] theorem onPower_stackTab (s : State) (f : PowerSt → PowerSt) : (s.onPower f).stackTab = s.stackTab := (rfl)
@[simp] theorem onPower_banks (s : State) (f : PowerSt → PowerSt) : (s.onPower f).banks = s.banks := (rfl)
@[simp] theorem onPower_targets (s : State) (f : PowerSt → PowerSt) : (s.onPower f).targets = s.targets := (rfl)
@[simp] theorem onPower_dir (s : State) (f : PowerSt → PowerSt) : (s.onPower f).dir = s.dir := (rfl)
@[simp] theorem onPower_regions (s : State) (f : PowerSt → PowerSt) : (s.onPower f).regions = s.regions := (rfl)
@[simp] theorem onPower_weavers (s : State) (f : PowerSt → PowerSt) : (s.onPower f).weavers = s.weavers := (rfl)
@[simp] theorem onPower_walkers (s : State) (f : PowerSt → PowerSt) : (s.onPower f).walkers = s.walkers := (rfl)
@[simp] theorem onPower_migrations (s : State) (f : PowerSt → PowerSt) : (s.onPower f).migrations = s.migrations := (rfl)
@[simp] theorem onPower_poolReqs (s : State) (f : PowerSt → PowerSt) : (s.onPower f).poolReqs = s.poolReqs := (rfl)
@[simp] theorem onPower_nextId (s : State) (f : PowerSt → PowerSt) : (s.onPower f).nextId = s.nextId := (rfl)
@[simp] theorem onPower_ctl (s : State) (f : PowerSt → PowerSt) : (s.onPower f).ctl = s.ctl := (rfl)
@[simp] theorem onPower_auth (s : State) (f : PowerSt → PowerSt) : (s.onPower f).auth = s.auth := (rfl)
@[simp] theorem onPower_links (s : State) (f : PowerSt → PowerSt) : (s.onPower f).links = s.links := (rfl)
@[simp] theorem onPower_net (s : State) (f : PowerSt → PowerSt) : (s.onPower f).net = s.net := (rfl)
@[simp] theorem onPower_host (s : State) (f : PowerSt → PowerSt) : (s.onPower f).host = s.host := (rfl)
@[simp] theorem onPower_power (s : State) (f : PowerSt → PowerSt) : (s.onPower f).power = f s.power := (rfl)
@[simp] theorem onPower_cnt (s : State) (f : PowerSt → PowerSt) : (s.onPower f).cnt = s.cnt := (rfl)
@[simp] theorem onPower_rst (s : State) (f : PowerSt → PowerSt) : (s.onPower f).rst = s.rst := (rfl)
@[simp] theorem onPower_out (s : State) (f : PowerSt → PowerSt) : (s.onPower f).out = s.out := (rfl)
@[simp] theorem onPower_free (s : State) (f : PowerSt → PowerSt) : (s.onPower f).free = s.free := (rfl)
@[simp] theorem onPower_dirUse (s : State) (f : PowerSt → PowerSt) : (s.onPower f).dirUse = s.dirUse := (rfl)
/-! onCnt -/
@[simp] theorem onCnt_pending (s : State) (f : CntSt → CntSt) : (s.onCnt f).pending = s.pending := (rfl)
@[simp] theorem onCnt_rnd (s : State) (f : CntSt → CntSt) : (s.onCnt f).rnd = s.rnd := (rfl)
@[simp] theorem onCnt_parts (s : State) (f : CntSt → CntSt) : (s.onCnt f).parts = s.parts := (rfl)
@[simp] theorem onCnt_windows (s : State) (f : CntSt → CntSt) : (s.onCnt f).windows = s.windows := (rfl)
@[simp] theorem onCnt_groups (s : State) (f : CntSt → CntSt) : (s.onCnt f).groups = s.groups := (rfl)
@[simp] theorem onCnt_extents (s : State) (f : CntSt → CntSt) : (s.onCnt f).extents = s.extents := (rfl)
@[simp] theorem onCnt_pool0 (s : State) (f : CntSt → CntSt) : (s.onCnt f).pool0 = s.pool0 := (rfl)
@[simp] theorem onCnt_pool1 (s : State) (f : CntSt → CntSt) : (s.onCnt f).pool1 = s.pool1 := (rfl)
@[simp] theorem onCnt_mem (s : State) (f : CntSt → CntSt) : (s.onCnt f).mem = s.mem := (rfl)
@[simp] theorem onCnt_half0 (s : State) (f : CntSt → CntSt) : (s.onCnt f).half0 = s.half0 := (rfl)
@[simp] theorem onCnt_half1 (s : State) (f : CntSt → CntSt) : (s.onCnt f).half1 = s.half1 := (rfl)
@[simp] theorem onCnt_dies (s : State) (f : CntSt → CntSt) : (s.onCnt f).dies = s.dies := (rfl)
@[simp] theorem onCnt_stackTab (s : State) (f : CntSt → CntSt) : (s.onCnt f).stackTab = s.stackTab := (rfl)
@[simp] theorem onCnt_banks (s : State) (f : CntSt → CntSt) : (s.onCnt f).banks = s.banks := (rfl)
@[simp] theorem onCnt_targets (s : State) (f : CntSt → CntSt) : (s.onCnt f).targets = s.targets := (rfl)
@[simp] theorem onCnt_dir (s : State) (f : CntSt → CntSt) : (s.onCnt f).dir = s.dir := (rfl)
@[simp] theorem onCnt_regions (s : State) (f : CntSt → CntSt) : (s.onCnt f).regions = s.regions := (rfl)
@[simp] theorem onCnt_weavers (s : State) (f : CntSt → CntSt) : (s.onCnt f).weavers = s.weavers := (rfl)
@[simp] theorem onCnt_walkers (s : State) (f : CntSt → CntSt) : (s.onCnt f).walkers = s.walkers := (rfl)
@[simp] theorem onCnt_migrations (s : State) (f : CntSt → CntSt) : (s.onCnt f).migrations = s.migrations := (rfl)
@[simp] theorem onCnt_poolReqs (s : State) (f : CntSt → CntSt) : (s.onCnt f).poolReqs = s.poolReqs := (rfl)
@[simp] theorem onCnt_nextId (s : State) (f : CntSt → CntSt) : (s.onCnt f).nextId = s.nextId := (rfl)
@[simp] theorem onCnt_ctl (s : State) (f : CntSt → CntSt) : (s.onCnt f).ctl = s.ctl := (rfl)
@[simp] theorem onCnt_auth (s : State) (f : CntSt → CntSt) : (s.onCnt f).auth = s.auth := (rfl)
@[simp] theorem onCnt_links (s : State) (f : CntSt → CntSt) : (s.onCnt f).links = s.links := (rfl)
@[simp] theorem onCnt_net (s : State) (f : CntSt → CntSt) : (s.onCnt f).net = s.net := (rfl)
@[simp] theorem onCnt_host (s : State) (f : CntSt → CntSt) : (s.onCnt f).host = s.host := (rfl)
@[simp] theorem onCnt_power (s : State) (f : CntSt → CntSt) : (s.onCnt f).power = s.power := (rfl)
@[simp] theorem onCnt_cnt (s : State) (f : CntSt → CntSt) : (s.onCnt f).cnt = f s.cnt := (rfl)
@[simp] theorem onCnt_rst (s : State) (f : CntSt → CntSt) : (s.onCnt f).rst = s.rst := (rfl)
@[simp] theorem onCnt_out (s : State) (f : CntSt → CntSt) : (s.onCnt f).out = s.out := (rfl)
@[simp] theorem onCnt_free (s : State) (f : CntSt → CntSt) : (s.onCnt f).free = s.free := (rfl)
@[simp] theorem onCnt_dirUse (s : State) (f : CntSt → CntSt) : (s.onCnt f).dirUse = s.dirUse := (rfl)
/-! onRst -/
@[simp] theorem onRst_pending (s : State) (f : ResetSt → ResetSt) : (s.onRst f).pending = s.pending := (rfl)
@[simp] theorem onRst_rnd (s : State) (f : ResetSt → ResetSt) : (s.onRst f).rnd = s.rnd := (rfl)
@[simp] theorem onRst_parts (s : State) (f : ResetSt → ResetSt) : (s.onRst f).parts = s.parts := (rfl)
@[simp] theorem onRst_windows (s : State) (f : ResetSt → ResetSt) : (s.onRst f).windows = s.windows := (rfl)
@[simp] theorem onRst_groups (s : State) (f : ResetSt → ResetSt) : (s.onRst f).groups = s.groups := (rfl)
@[simp] theorem onRst_extents (s : State) (f : ResetSt → ResetSt) : (s.onRst f).extents = s.extents := (rfl)
@[simp] theorem onRst_pool0 (s : State) (f : ResetSt → ResetSt) : (s.onRst f).pool0 = s.pool0 := (rfl)
@[simp] theorem onRst_pool1 (s : State) (f : ResetSt → ResetSt) : (s.onRst f).pool1 = s.pool1 := (rfl)
@[simp] theorem onRst_mem (s : State) (f : ResetSt → ResetSt) : (s.onRst f).mem = s.mem := (rfl)
@[simp] theorem onRst_half0 (s : State) (f : ResetSt → ResetSt) : (s.onRst f).half0 = s.half0 := (rfl)
@[simp] theorem onRst_half1 (s : State) (f : ResetSt → ResetSt) : (s.onRst f).half1 = s.half1 := (rfl)
@[simp] theorem onRst_dies (s : State) (f : ResetSt → ResetSt) : (s.onRst f).dies = s.dies := (rfl)
@[simp] theorem onRst_stackTab (s : State) (f : ResetSt → ResetSt) : (s.onRst f).stackTab = s.stackTab := (rfl)
@[simp] theorem onRst_banks (s : State) (f : ResetSt → ResetSt) : (s.onRst f).banks = s.banks := (rfl)
@[simp] theorem onRst_targets (s : State) (f : ResetSt → ResetSt) : (s.onRst f).targets = s.targets := (rfl)
@[simp] theorem onRst_dir (s : State) (f : ResetSt → ResetSt) : (s.onRst f).dir = s.dir := (rfl)
@[simp] theorem onRst_regions (s : State) (f : ResetSt → ResetSt) : (s.onRst f).regions = s.regions := (rfl)
@[simp] theorem onRst_weavers (s : State) (f : ResetSt → ResetSt) : (s.onRst f).weavers = s.weavers := (rfl)
@[simp] theorem onRst_walkers (s : State) (f : ResetSt → ResetSt) : (s.onRst f).walkers = s.walkers := (rfl)
@[simp] theorem onRst_migrations (s : State) (f : ResetSt → ResetSt) : (s.onRst f).migrations = s.migrations := (rfl)
@[simp] theorem onRst_poolReqs (s : State) (f : ResetSt → ResetSt) : (s.onRst f).poolReqs = s.poolReqs := (rfl)
@[simp] theorem onRst_nextId (s : State) (f : ResetSt → ResetSt) : (s.onRst f).nextId = s.nextId := (rfl)
@[simp] theorem onRst_ctl (s : State) (f : ResetSt → ResetSt) : (s.onRst f).ctl = s.ctl := (rfl)
@[simp] theorem onRst_auth (s : State) (f : ResetSt → ResetSt) : (s.onRst f).auth = s.auth := (rfl)
@[simp] theorem onRst_links (s : State) (f : ResetSt → ResetSt) : (s.onRst f).links = s.links := (rfl)
@[simp] theorem onRst_net (s : State) (f : ResetSt → ResetSt) : (s.onRst f).net = s.net := (rfl)
@[simp] theorem onRst_host (s : State) (f : ResetSt → ResetSt) : (s.onRst f).host = s.host := (rfl)
@[simp] theorem onRst_power (s : State) (f : ResetSt → ResetSt) : (s.onRst f).power = s.power := (rfl)
@[simp] theorem onRst_cnt (s : State) (f : ResetSt → ResetSt) : (s.onRst f).cnt = s.cnt := (rfl)
@[simp] theorem onRst_rst (s : State) (f : ResetSt → ResetSt) : (s.onRst f).rst = f s.rst := (rfl)
@[simp] theorem onRst_out (s : State) (f : ResetSt → ResetSt) : (s.onRst f).out = s.out := (rfl)
@[simp] theorem onRst_free (s : State) (f : ResetSt → ResetSt) : (s.onRst f).free = s.free := (rfl)
@[simp] theorem onRst_dirUse (s : State) (f : ResetSt → ResetSt) : (s.onRst f).dirUse = s.dirUse := (rfl)
/-! emit -/
@[simp] theorem emit_pending (s : State) (o : Out) : (s.emit o).pending = s.pending := (rfl)
@[simp] theorem emit_rnd (s : State) (o : Out) : (s.emit o).rnd = s.rnd := (rfl)
@[simp] theorem emit_parts (s : State) (o : Out) : (s.emit o).parts = s.parts := (rfl)
@[simp] theorem emit_windows (s : State) (o : Out) : (s.emit o).windows = s.windows := (rfl)
@[simp] theorem emit_groups (s : State) (o : Out) : (s.emit o).groups = s.groups := (rfl)
@[simp] theorem emit_extents (s : State) (o : Out) : (s.emit o).extents = s.extents := (rfl)
@[simp] theorem emit_pool0 (s : State) (o : Out) : (s.emit o).pool0 = s.pool0 := (rfl)
@[simp] theorem emit_pool1 (s : State) (o : Out) : (s.emit o).pool1 = s.pool1 := (rfl)
@[simp] theorem emit_mem (s : State) (o : Out) : (s.emit o).mem = s.mem := (rfl)
@[simp] theorem emit_half0 (s : State) (o : Out) : (s.emit o).half0 = s.half0 := (rfl)
@[simp] theorem emit_half1 (s : State) (o : Out) : (s.emit o).half1 = s.half1 := (rfl)
@[simp] theorem emit_dies (s : State) (o : Out) : (s.emit o).dies = s.dies := (rfl)
@[simp] theorem emit_stackTab (s : State) (o : Out) : (s.emit o).stackTab = s.stackTab := (rfl)
@[simp] theorem emit_banks (s : State) (o : Out) : (s.emit o).banks = s.banks := (rfl)
@[simp] theorem emit_targets (s : State) (o : Out) : (s.emit o).targets = s.targets := (rfl)
@[simp] theorem emit_dir (s : State) (o : Out) : (s.emit o).dir = s.dir := (rfl)
@[simp] theorem emit_regions (s : State) (o : Out) : (s.emit o).regions = s.regions := (rfl)
@[simp] theorem emit_weavers (s : State) (o : Out) : (s.emit o).weavers = s.weavers := (rfl)
@[simp] theorem emit_walkers (s : State) (o : Out) : (s.emit o).walkers = s.walkers := (rfl)
@[simp] theorem emit_migrations (s : State) (o : Out) : (s.emit o).migrations = s.migrations := (rfl)
@[simp] theorem emit_poolReqs (s : State) (o : Out) : (s.emit o).poolReqs = s.poolReqs := (rfl)
@[simp] theorem emit_nextId (s : State) (o : Out) : (s.emit o).nextId = s.nextId := (rfl)
@[simp] theorem emit_ctl (s : State) (o : Out) : (s.emit o).ctl = s.ctl := (rfl)
@[simp] theorem emit_auth (s : State) (o : Out) : (s.emit o).auth = s.auth := (rfl)
@[simp] theorem emit_links (s : State) (o : Out) : (s.emit o).links = s.links := (rfl)
@[simp] theorem emit_net (s : State) (o : Out) : (s.emit o).net = s.net := (rfl)
@[simp] theorem emit_host (s : State) (o : Out) : (s.emit o).host = s.host := (rfl)
@[simp] theorem emit_power (s : State) (o : Out) : (s.emit o).power = s.power := (rfl)
@[simp] theorem emit_cnt (s : State) (o : Out) : (s.emit o).cnt = s.cnt := (rfl)
@[simp] theorem emit_rst (s : State) (o : Out) : (s.emit o).rst = s.rst := (rfl)
@[simp] theorem emit_out (s : State) (o : Out) : (s.emit o).out = o :: s.out := (rfl)
@[simp] theorem emit_free (s : State) (o : Out) : (s.emit o).free = s.free := (rfl)
@[simp] theorem emit_dirUse (s : State) (o : Out) : (s.emit o).dirUse = s.dirUse := (rfl)
/-! onPool -/
@[simp] theorem onPool_pending (s : State) (h : Nat) (f : BlockPool → BlockPool) : (s.onPool h f).pending = s.pending := by simp only [State.onPool]; split <;> rfl
@[simp] theorem onPool_rnd (s : State) (h : Nat) (f : BlockPool → BlockPool) : (s.onPool h f).rnd = s.rnd := by simp only [State.onPool]; split <;> rfl
@[simp] theorem onPool_parts (s : State) (h : Nat) (f : BlockPool → BlockPool) : (s.onPool h f).parts = s.parts := by simp only [State.onPool]; split <;> rfl
@[simp] theorem onPool_windows (s : State) (h : Nat) (f : BlockPool → BlockPool) : (s.onPool h f).windows = s.windows := by simp only [State.onPool]; split <;> rfl
@[simp] theorem onPool_groups (s : State) (h : Nat) (f : BlockPool → BlockPool) : (s.onPool h f).groups = s.groups := by simp only [State.onPool]; split <;> rfl
@[simp] theorem onPool_extents (s : State) (h : Nat) (f : BlockPool → BlockPool) : (s.onPool h f).extents = s.extents := by simp only [State.onPool]; split <;> rfl
@[simp] theorem onPool_mem (s : State) (h : Nat) (f : BlockPool → BlockPool) : (s.onPool h f).mem = s.mem := by simp only [State.onPool]; split <;> rfl
@[simp] theorem onPool_half0 (s : State) (h : Nat) (f : BlockPool → BlockPool) : (s.onPool h f).half0 = s.half0 := by simp only [State.onPool]; split <;> rfl
@[simp] theorem onPool_half1 (s : State) (h : Nat) (f : BlockPool → BlockPool) : (s.onPool h f).half1 = s.half1 := by simp only [State.onPool]; split <;> rfl
@[simp] theorem onPool_dies (s : State) (h : Nat) (f : BlockPool → BlockPool) : (s.onPool h f).dies = s.dies := by simp only [State.onPool]; split <;> rfl
@[simp] theorem onPool_stackTab (s : State) (h : Nat) (f : BlockPool → BlockPool) : (s.onPool h f).stackTab = s.stackTab := by simp only [State.onPool]; split <;> rfl
@[simp] theorem onPool_banks (s : State) (h : Nat) (f : BlockPool → BlockPool) : (s.onPool h f).banks = s.banks := by simp only [State.onPool]; split <;> rfl
@[simp] theorem onPool_targets (s : State) (h : Nat) (f : BlockPool → BlockPool) : (s.onPool h f).targets = s.targets := by simp only [State.onPool]; split <;> rfl
@[simp] theorem onPool_dir (s : State) (h : Nat) (f : BlockPool → BlockPool) : (s.onPool h f).dir = s.dir := by simp only [State.onPool]; split <;> rfl
@[simp] theorem onPool_regions (s : State) (h : Nat) (f : BlockPool → BlockPool) : (s.onPool h f).regions = s.regions := by simp only [State.onPool]; split <;> rfl
@[simp] theorem onPool_weavers (s : State) (h : Nat) (f : BlockPool → BlockPool) : (s.onPool h f).weavers = s.weavers := by simp only [State.onPool]; split <;> rfl
@[simp] theorem onPool_walkers (s : State) (h : Nat) (f : BlockPool → BlockPool) : (s.onPool h f).walkers = s.walkers := by simp only [State.onPool]; split <;> rfl
@[simp] theorem onPool_migrations (s : State) (h : Nat) (f : BlockPool → BlockPool) : (s.onPool h f).migrations = s.migrations := by simp only [State.onPool]; split <;> rfl
@[simp] theorem onPool_poolReqs (s : State) (h : Nat) (f : BlockPool → BlockPool) : (s.onPool h f).poolReqs = s.poolReqs := by simp only [State.onPool]; split <;> rfl
@[simp] theorem onPool_nextId (s : State) (h : Nat) (f : BlockPool → BlockPool) : (s.onPool h f).nextId = s.nextId := by simp only [State.onPool]; split <;> rfl
@[simp] theorem onPool_ctl (s : State) (h : Nat) (f : BlockPool → BlockPool) : (s.onPool h f).ctl = s.ctl := by simp only [State.onPool]; split <;> rfl
@[simp] theorem onPool_auth (s : State) (h : Nat) (f : BlockPool → BlockPool) : (s.onPool h f).auth = s.auth := by simp only [State.onPool]; split <;> rfl
@[simp] theorem onPool_links (s : State) (h : Nat) (f : BlockPool → BlockPool) : (s.onPool h f).links = s.links := by simp only [State.onPool]; split <;> rfl
@[simp] theorem onPool_net (s : State) (h : Nat) (f : BlockPool → BlockPool) : (s.onPool h f).net = s.net := by simp only [State.onPool]; split <;> rfl
@[simp] theorem onPool_host (s : State) (h : Nat) (f : BlockPool → BlockPool) : (s.onPool h f).host = s.host := by simp only [State.onPool]; split <;> rfl
@[simp] theorem onPool_power (s : State) (h : Nat) (f : BlockPool → BlockPool) : (s.onPool h f).power = s.power := by simp only [State.onPool]; split <;> rfl
@[simp] theorem onPool_cnt (s : State) (h : Nat) (f : BlockPool → BlockPool) : (s.onPool h f).cnt = s.cnt := by simp only [State.onPool]; split <;> rfl
@[simp] theorem onPool_rst (s : State) (h : Nat) (f : BlockPool → BlockPool) : (s.onPool h f).rst = s.rst := by simp only [State.onPool]; split <;> rfl
@[simp] theorem onPool_out (s : State) (h : Nat) (f : BlockPool → BlockPool) : (s.onPool h f).out = s.out := by simp only [State.onPool]; split <;> rfl
@[simp] theorem onPool_free (s : State) (h : Nat) (f : BlockPool → BlockPool) : (s.onPool h f).free = s.free := by simp only [State.onPool]; split <;> rfl
@[simp] theorem onPool_dirUse (s : State) (h : Nat) (f : BlockPool → BlockPool) : (s.onPool h f).dirUse = s.dirUse := by simp only [State.onPool]; split <;> rfl
/-! onHalf -/
@[simp] theorem onHalf_pending (s : State) (h : Nat) (f : HalfSt → HalfSt) : (s.onHalf h f).pending = s.pending := by simp only [State.onHalf]; split <;> rfl
@[simp] theorem onHalf_rnd (s : State) (h : Nat) (f : HalfSt → HalfSt) : (s.onHalf h f).rnd = s.rnd := by simp only [State.onHalf]; split <;> rfl
@[simp] theorem onHalf_parts (s : State) (h : Nat) (f : HalfSt → HalfSt) : (s.onHalf h f).parts = s.parts := by simp only [State.onHalf]; split <;> rfl
@[simp] theorem onHalf_windows (s : State) (h : Nat) (f : HalfSt → HalfSt) : (s.onHalf h f).windows = s.windows := by simp only [State.onHalf]; split <;> rfl
@[simp] theorem onHalf_groups (s : State) (h : Nat) (f : HalfSt → HalfSt) : (s.onHalf h f).groups = s.groups := by simp only [State.onHalf]; split <;> rfl
@[simp] theorem onHalf_extents (s : State) (h : Nat) (f : HalfSt → HalfSt) : (s.onHalf h f).extents = s.extents := by simp only [State.onHalf]; split <;> rfl
@[simp] theorem onHalf_pool0 (s : State) (h : Nat) (f : HalfSt → HalfSt) : (s.onHalf h f).pool0 = s.pool0 := by simp only [State.onHalf]; split <;> rfl
@[simp] theorem onHalf_pool1 (s : State) (h : Nat) (f : HalfSt → HalfSt) : (s.onHalf h f).pool1 = s.pool1 := by simp only [State.onHalf]; split <;> rfl
@[simp] theorem onHalf_mem (s : State) (h : Nat) (f : HalfSt → HalfSt) : (s.onHalf h f).mem = s.mem := by simp only [State.onHalf]; split <;> rfl
@[simp] theorem onHalf_dies (s : State) (h : Nat) (f : HalfSt → HalfSt) : (s.onHalf h f).dies = s.dies := by simp only [State.onHalf]; split <;> rfl
@[simp] theorem onHalf_stackTab (s : State) (h : Nat) (f : HalfSt → HalfSt) : (s.onHalf h f).stackTab = s.stackTab := by simp only [State.onHalf]; split <;> rfl
@[simp] theorem onHalf_banks (s : State) (h : Nat) (f : HalfSt → HalfSt) : (s.onHalf h f).banks = s.banks := by simp only [State.onHalf]; split <;> rfl
@[simp] theorem onHalf_targets (s : State) (h : Nat) (f : HalfSt → HalfSt) : (s.onHalf h f).targets = s.targets := by simp only [State.onHalf]; split <;> rfl
@[simp] theorem onHalf_dir (s : State) (h : Nat) (f : HalfSt → HalfSt) : (s.onHalf h f).dir = s.dir := by simp only [State.onHalf]; split <;> rfl
@[simp] theorem onHalf_regions (s : State) (h : Nat) (f : HalfSt → HalfSt) : (s.onHalf h f).regions = s.regions := by simp only [State.onHalf]; split <;> rfl
@[simp] theorem onHalf_weavers (s : State) (h : Nat) (f : HalfSt → HalfSt) : (s.onHalf h f).weavers = s.weavers := by simp only [State.onHalf]; split <;> rfl
@[simp] theorem onHalf_walkers (s : State) (h : Nat) (f : HalfSt → HalfSt) : (s.onHalf h f).walkers = s.walkers := by simp only [State.onHalf]; split <;> rfl
@[simp] theorem onHalf_migrations (s : State) (h : Nat) (f : HalfSt → HalfSt) : (s.onHalf h f).migrations = s.migrations := by simp only [State.onHalf]; split <;> rfl
@[simp] theorem onHalf_poolReqs (s : State) (h : Nat) (f : HalfSt → HalfSt) : (s.onHalf h f).poolReqs = s.poolReqs := by simp only [State.onHalf]; split <;> rfl
@[simp] theorem onHalf_nextId (s : State) (h : Nat) (f : HalfSt → HalfSt) : (s.onHalf h f).nextId = s.nextId := by simp only [State.onHalf]; split <;> rfl
@[simp] theorem onHalf_ctl (s : State) (h : Nat) (f : HalfSt → HalfSt) : (s.onHalf h f).ctl = s.ctl := by simp only [State.onHalf]; split <;> rfl
@[simp] theorem onHalf_auth (s : State) (h : Nat) (f : HalfSt → HalfSt) : (s.onHalf h f).auth = s.auth := by simp only [State.onHalf]; split <;> rfl
@[simp] theorem onHalf_links (s : State) (h : Nat) (f : HalfSt → HalfSt) : (s.onHalf h f).links = s.links := by simp only [State.onHalf]; split <;> rfl
@[simp] theorem onHalf_net (s : State) (h : Nat) (f : HalfSt → HalfSt) : (s.onHalf h f).net = s.net := by simp only [State.onHalf]; split <;> rfl
@[simp] theorem onHalf_host (s : State) (h : Nat) (f : HalfSt → HalfSt) : (s.onHalf h f).host = s.host := by simp only [State.onHalf]; split <;> rfl
@[simp] theorem onHalf_power (s : State) (h : Nat) (f : HalfSt → HalfSt) : (s.onHalf h f).power = s.power := by simp only [State.onHalf]; split <;> rfl
@[simp] theorem onHalf_cnt (s : State) (h : Nat) (f : HalfSt → HalfSt) : (s.onHalf h f).cnt = s.cnt := by simp only [State.onHalf]; split <;> rfl
@[simp] theorem onHalf_rst (s : State) (h : Nat) (f : HalfSt → HalfSt) : (s.onHalf h f).rst = s.rst := by simp only [State.onHalf]; split <;> rfl
@[simp] theorem onHalf_out (s : State) (h : Nat) (f : HalfSt → HalfSt) : (s.onHalf h f).out = s.out := by simp only [State.onHalf]; split <;> rfl
@[simp] theorem onHalf_free (s : State) (h : Nat) (f : HalfSt → HalfSt) : (s.onHalf h f).free = s.free := by simp only [State.onHalf]; split <;> rfl
@[simp] theorem onHalf_dirUse (s : State) (h : Nat) (f : HalfSt → HalfSt) : (s.onHalf h f).dirUse = s.dirUse := by simp only [State.onHalf]; split <;> rfl
/-! onStake -/
@[simp] theorem onStake_pending (s : State) (k : Nat) (f : Stake → Stake) : (s.onStake k f).pending = s.pending := by simp only [State.onStake]; split <;> rfl
@[simp] theorem onStake_rnd (s : State) (k : Nat) (f : Stake → Stake) : (s.onStake k f).rnd = s.rnd := by simp only [State.onStake]; split <;> rfl
@[simp] theorem onStake_parts (s : State) (k : Nat) (f : Stake → Stake) : (s.onStake k f).parts = s.parts := by simp only [State.onStake]; split <;> rfl
@[simp] theorem onStake_windows (s : State) (k : Nat) (f : Stake → Stake) : (s.onStake k f).windows = s.windows := by simp only [State.onStake]; split <;> rfl
@[simp] theorem onStake_groups (s : State) (k : Nat) (f : Stake → Stake) : (s.onStake k f).groups = s.groups := by simp only [State.onStake]; split <;> rfl
@[simp] theorem onStake_extents (s : State) (k : Nat) (f : Stake → Stake) : (s.onStake k f).extents = s.extents := by simp only [State.onStake]; split <;> rfl
@[simp] theorem onStake_pool0 (s : State) (k : Nat) (f : Stake → Stake) : (s.onStake k f).pool0 = s.pool0 := by simp only [State.onStake]; split <;> rfl
@[simp] theorem onStake_pool1 (s : State) (k : Nat) (f : Stake → Stake) : (s.onStake k f).pool1 = s.pool1 := by simp only [State.onStake]; split <;> rfl
@[simp] theorem onStake_mem (s : State) (k : Nat) (f : Stake → Stake) : (s.onStake k f).mem = s.mem := by simp only [State.onStake]; split <;> rfl
@[simp] theorem onStake_half0 (s : State) (k : Nat) (f : Stake → Stake) : (s.onStake k f).half0 = s.half0 := by simp only [State.onStake]; split <;> rfl
@[simp] theorem onStake_half1 (s : State) (k : Nat) (f : Stake → Stake) : (s.onStake k f).half1 = s.half1 := by simp only [State.onStake]; split <;> rfl
@[simp] theorem onStake_dies (s : State) (k : Nat) (f : Stake → Stake) : (s.onStake k f).dies = s.dies := by simp only [State.onStake]; split <;> rfl
@[simp] theorem onStake_stackTab (s : State) (k : Nat) (f : Stake → Stake) : (s.onStake k f).stackTab = s.stackTab := by simp only [State.onStake]; split <;> rfl
@[simp] theorem onStake_banks (s : State) (k : Nat) (f : Stake → Stake) : (s.onStake k f).banks = s.banks := by simp only [State.onStake]; split <;> rfl
@[simp] theorem onStake_targets (s : State) (k : Nat) (f : Stake → Stake) : (s.onStake k f).targets = s.targets := by simp only [State.onStake]; split <;> rfl
@[simp] theorem onStake_dir (s : State) (k : Nat) (f : Stake → Stake) : (s.onStake k f).dir = s.dir := by simp only [State.onStake]; split <;> rfl
@[simp] theorem onStake_regions (s : State) (k : Nat) (f : Stake → Stake) : (s.onStake k f).regions = s.regions := by simp only [State.onStake]; split <;> rfl
@[simp] theorem onStake_weavers (s : State) (k : Nat) (f : Stake → Stake) : (s.onStake k f).weavers = s.weavers := by simp only [State.onStake]; split <;> rfl
@[simp] theorem onStake_walkers (s : State) (k : Nat) (f : Stake → Stake) : (s.onStake k f).walkers = s.walkers := by simp only [State.onStake]; split <;> rfl
@[simp] theorem onStake_migrations (s : State) (k : Nat) (f : Stake → Stake) : (s.onStake k f).migrations = s.migrations := by simp only [State.onStake]; split <;> rfl
@[simp] theorem onStake_poolReqs (s : State) (k : Nat) (f : Stake → Stake) : (s.onStake k f).poolReqs = s.poolReqs := by simp only [State.onStake]; split <;> rfl
@[simp] theorem onStake_nextId (s : State) (k : Nat) (f : Stake → Stake) : (s.onStake k f).nextId = s.nextId := by simp only [State.onStake]; split <;> rfl
@[simp] theorem onStake_ctl (s : State) (k : Nat) (f : Stake → Stake) : (s.onStake k f).ctl = s.ctl := by simp only [State.onStake]; split <;> rfl
@[simp] theorem onStake_links (s : State) (k : Nat) (f : Stake → Stake) : (s.onStake k f).links = s.links := by simp only [State.onStake]; split <;> rfl
@[simp] theorem onStake_net (s : State) (k : Nat) (f : Stake → Stake) : (s.onStake k f).net = s.net := by simp only [State.onStake]; split <;> rfl
@[simp] theorem onStake_host (s : State) (k : Nat) (f : Stake → Stake) : (s.onStake k f).host = s.host := by simp only [State.onStake]; split <;> rfl
@[simp] theorem onStake_power (s : State) (k : Nat) (f : Stake → Stake) : (s.onStake k f).power = s.power := by simp only [State.onStake]; split <;> rfl
@[simp] theorem onStake_cnt (s : State) (k : Nat) (f : Stake → Stake) : (s.onStake k f).cnt = s.cnt := by simp only [State.onStake]; split <;> rfl
@[simp] theorem onStake_rst (s : State) (k : Nat) (f : Stake → Stake) : (s.onStake k f).rst = s.rst := by simp only [State.onStake]; split <;> rfl
@[simp] theorem onStake_out (s : State) (k : Nat) (f : Stake → Stake) : (s.onStake k f).out = s.out := by simp only [State.onStake]; split <;> rfl
@[simp] theorem onStake_free (s : State) (k : Nat) (f : Stake → Stake) : (s.onStake k f).free = s.free := by simp only [State.onStake]; split <;> rfl
@[simp] theorem onStake_dirUse (s : State) (k : Nat) (f : Stake → Stake) : (s.onStake k f).dirUse = s.dirUse := by simp only [State.onStake]; split <;> rfl
/-! onLease -/
@[simp] theorem onLease_pending (s : State) (k : Nat) (f : Lease → Lease) : (s.onLease k f).pending = s.pending := by simp only [State.onLease]; split <;> rfl
@[simp] theorem onLease_rnd (s : State) (k : Nat) (f : Lease → Lease) : (s.onLease k f).rnd = s.rnd := by simp only [State.onLease]; split <;> rfl
@[simp] theorem onLease_parts (s : State) (k : Nat) (f : Lease → Lease) : (s.onLease k f).parts = s.parts := by simp only [State.onLease]; split <;> rfl
@[simp] theorem onLease_windows (s : State) (k : Nat) (f : Lease → Lease) : (s.onLease k f).windows = s.windows := by simp only [State.onLease]; split <;> rfl
@[simp] theorem onLease_groups (s : State) (k : Nat) (f : Lease → Lease) : (s.onLease k f).groups = s.groups := by simp only [State.onLease]; split <;> rfl
@[simp] theorem onLease_extents (s : State) (k : Nat) (f : Lease → Lease) : (s.onLease k f).extents = s.extents := by simp only [State.onLease]; split <;> rfl
@[simp] theorem onLease_pool0 (s : State) (k : Nat) (f : Lease → Lease) : (s.onLease k f).pool0 = s.pool0 := by simp only [State.onLease]; split <;> rfl
@[simp] theorem onLease_pool1 (s : State) (k : Nat) (f : Lease → Lease) : (s.onLease k f).pool1 = s.pool1 := by simp only [State.onLease]; split <;> rfl
@[simp] theorem onLease_mem (s : State) (k : Nat) (f : Lease → Lease) : (s.onLease k f).mem = s.mem := by simp only [State.onLease]; split <;> rfl
@[simp] theorem onLease_half0 (s : State) (k : Nat) (f : Lease → Lease) : (s.onLease k f).half0 = s.half0 := by simp only [State.onLease]; split <;> rfl
@[simp] theorem onLease_half1 (s : State) (k : Nat) (f : Lease → Lease) : (s.onLease k f).half1 = s.half1 := by simp only [State.onLease]; split <;> rfl
@[simp] theorem onLease_dies (s : State) (k : Nat) (f : Lease → Lease) : (s.onLease k f).dies = s.dies := by simp only [State.onLease]; split <;> rfl
@[simp] theorem onLease_stackTab (s : State) (k : Nat) (f : Lease → Lease) : (s.onLease k f).stackTab = s.stackTab := by simp only [State.onLease]; split <;> rfl
@[simp] theorem onLease_banks (s : State) (k : Nat) (f : Lease → Lease) : (s.onLease k f).banks = s.banks := by simp only [State.onLease]; split <;> rfl
@[simp] theorem onLease_targets (s : State) (k : Nat) (f : Lease → Lease) : (s.onLease k f).targets = s.targets := by simp only [State.onLease]; split <;> rfl
@[simp] theorem onLease_dir (s : State) (k : Nat) (f : Lease → Lease) : (s.onLease k f).dir = s.dir := by simp only [State.onLease]; split <;> rfl
@[simp] theorem onLease_regions (s : State) (k : Nat) (f : Lease → Lease) : (s.onLease k f).regions = s.regions := by simp only [State.onLease]; split <;> rfl
@[simp] theorem onLease_weavers (s : State) (k : Nat) (f : Lease → Lease) : (s.onLease k f).weavers = s.weavers := by simp only [State.onLease]; split <;> rfl
@[simp] theorem onLease_walkers (s : State) (k : Nat) (f : Lease → Lease) : (s.onLease k f).walkers = s.walkers := by simp only [State.onLease]; split <;> rfl
@[simp] theorem onLease_migrations (s : State) (k : Nat) (f : Lease → Lease) : (s.onLease k f).migrations = s.migrations := by simp only [State.onLease]; split <;> rfl
@[simp] theorem onLease_poolReqs (s : State) (k : Nat) (f : Lease → Lease) : (s.onLease k f).poolReqs = s.poolReqs := by simp only [State.onLease]; split <;> rfl
@[simp] theorem onLease_nextId (s : State) (k : Nat) (f : Lease → Lease) : (s.onLease k f).nextId = s.nextId := by simp only [State.onLease]; split <;> rfl
@[simp] theorem onLease_ctl (s : State) (k : Nat) (f : Lease → Lease) : (s.onLease k f).ctl = s.ctl := by simp only [State.onLease]; split <;> rfl
@[simp] theorem onLease_links (s : State) (k : Nat) (f : Lease → Lease) : (s.onLease k f).links = s.links := by simp only [State.onLease]; split <;> rfl
@[simp] theorem onLease_net (s : State) (k : Nat) (f : Lease → Lease) : (s.onLease k f).net = s.net := by simp only [State.onLease]; split <;> rfl
@[simp] theorem onLease_host (s : State) (k : Nat) (f : Lease → Lease) : (s.onLease k f).host = s.host := by simp only [State.onLease]; split <;> rfl
@[simp] theorem onLease_power (s : State) (k : Nat) (f : Lease → Lease) : (s.onLease k f).power = s.power := by simp only [State.onLease]; split <;> rfl
@[simp] theorem onLease_cnt (s : State) (k : Nat) (f : Lease → Lease) : (s.onLease k f).cnt = s.cnt := by simp only [State.onLease]; split <;> rfl
@[simp] theorem onLease_rst (s : State) (k : Nat) (f : Lease → Lease) : (s.onLease k f).rst = s.rst := by simp only [State.onLease]; split <;> rfl
@[simp] theorem onLease_out (s : State) (k : Nat) (f : Lease → Lease) : (s.onLease k f).out = s.out := by simp only [State.onLease]; split <;> rfl
@[simp] theorem onLease_free (s : State) (k : Nat) (f : Lease → Lease) : (s.onLease k f).free = s.free := by simp only [State.onLease]; split <;> rfl
@[simp] theorem onLease_dirUse (s : State) (k : Nat) (f : Lease → Lease) : (s.onLease k f).dirUse = s.dirUse := by simp only [State.onLease]; split <;> rfl
@[simp] theorem onLeases_pending (s : State) (f : Lease → Lease) : (s.onLeases f).pending = s.pending := by simp [State.onLeases]
@[simp] theorem onLeases_rnd (s : State) (f : Lease → Lease) : (s.onLeases f).rnd = s.rnd := by simp [State.onLeases]
@[simp] theorem onLeases_parts (s : State) (f : Lease → Lease) : (s.onLeases f).parts = s.parts := by simp [State.onLeases]
@[simp] theorem onLeases_windows (s : State) (f : Lease → Lease) : (s.onLeases f).windows = s.windows := by simp [State.onLeases]
@[simp] theorem onLeases_groups (s : State) (f : Lease → Lease) : (s.onLeases f).groups = s.groups := by simp [State.onLeases]
@[simp] theorem onLeases_extents (s : State) (f : Lease → Lease) : (s.onLeases f).extents = s.extents := by simp [State.onLeases]
@[simp] theorem onLeases_pool0 (s : State) (f : Lease → Lease) : (s.onLeases f).pool0 = s.pool0 := by simp [State.onLeases]
@[simp] theorem onLeases_pool1 (s : State) (f : Lease → Lease) : (s.onLeases f).pool1 = s.pool1 := by simp [State.onLeases]
@[simp] theorem onLeases_mem (s : State) (f : Lease → Lease) : (s.onLeases f).mem = s.mem := by simp [State.onLeases]
@[simp] theorem onLeases_half0 (s : State) (f : Lease → Lease) : (s.onLeases f).half0 = s.half0 := by simp [State.onLeases]
@[simp] theorem onLeases_half1 (s : State) (f : Lease → Lease) : (s.onLeases f).half1 = s.half1 := by simp [State.onLeases]
@[simp] theorem onLeases_dies (s : State) (f : Lease → Lease) : (s.onLeases f).dies = s.dies := by simp [State.onLeases]
@[simp] theorem onLeases_stackTab (s : State) (f : Lease → Lease) : (s.onLeases f).stackTab = s.stackTab := by simp [State.onLeases]
@[simp] theorem onLeases_banks (s : State) (f : Lease → Lease) : (s.onLeases f).banks = s.banks := by simp [State.onLeases]
@[simp] theorem onLeases_targets (s : State) (f : Lease → Lease) : (s.onLeases f).targets = s.targets := by simp [State.onLeases]
@[simp] theorem onLeases_dir (s : State) (f : Lease → Lease) : (s.onLeases f).dir = s.dir := by simp [State.onLeases]
@[simp] theorem onLeases_regions (s : State) (f : Lease → Lease) : (s.onLeases f).regions = s.regions := by simp [State.onLeases]
@[simp] theorem onLeases_weavers (s : State) (f : Lease → Lease) : (s.onLeases f).weavers = s.weavers := by simp [State.onLeases]
@[simp] theorem onLeases_walkers (s : State) (f : Lease → Lease) : (s.onLeases f).walkers = s.walkers := by simp [State.onLeases]
@[simp] theorem onLeases_migrations (s : State) (f : Lease → Lease) : (s.onLeases f).migrations = s.migrations := by simp [State.onLeases]
@[simp] theorem onLeases_poolReqs (s : State) (f : Lease → Lease) : (s.onLeases f).poolReqs = s.poolReqs := by simp [State.onLeases]
@[simp] theorem onLeases_nextId (s : State) (f : Lease → Lease) : (s.onLeases f).nextId = s.nextId := by simp [State.onLeases]
@[simp] theorem onLeases_ctl (s : State) (f : Lease → Lease) : (s.onLeases f).ctl = s.ctl := by simp [State.onLeases]
@[simp] theorem onLeases_links (s : State) (f : Lease → Lease) : (s.onLeases f).links = s.links := by simp [State.onLeases]
@[simp] theorem onLeases_net (s : State) (f : Lease → Lease) : (s.onLeases f).net = s.net := by simp [State.onLeases]
@[simp] theorem onLeases_host (s : State) (f : Lease → Lease) : (s.onLeases f).host = s.host := by simp [State.onLeases]
@[simp] theorem onLeases_power (s : State) (f : Lease → Lease) : (s.onLeases f).power = s.power := by simp [State.onLeases]
@[simp] theorem onLeases_cnt (s : State) (f : Lease → Lease) : (s.onLeases f).cnt = s.cnt := by simp [State.onLeases]
@[simp] theorem onLeases_rst (s : State) (f : Lease → Lease) : (s.onLeases f).rst = s.rst := by simp [State.onLeases]
@[simp] theorem onLeases_out (s : State) (f : Lease → Lease) : (s.onLeases f).out = s.out := by simp [State.onLeases]
@[simp] theorem onLeases_free (s : State) (f : Lease → Lease) : (s.onLeases f).free = s.free := by simp [State.onLeases]
@[simp] theorem onLeases_dirUse (s : State) (f : Lease → Lease) : (s.onLeases f).dirUse = s.dirUse := by simp [State.onLeases]
@[simp] theorem takeFree_pending (s : State) : s.takeFree.2.pending = s.pending := (rfl)
@[simp] theorem takeId_pending (s : State) : s.takeId.2.pending = s.pending := (rfl)
@[simp] theorem takeFree_rnd (s : State) : s.takeFree.2.rnd = s.rnd := (rfl)
@[simp] theorem takeId_rnd (s : State) : s.takeId.2.rnd = s.rnd := (rfl)
@[simp] theorem takeFree_parts (s : State) : s.takeFree.2.parts = s.parts := (rfl)
@[simp] theorem takeId_parts (s : State) : s.takeId.2.parts = s.parts := (rfl)
@[simp] theorem takeFree_windows (s : State) : s.takeFree.2.windows = s.windows := (rfl)
@[simp] theorem takeId_windows (s : State) : s.takeId.2.windows = s.windows := (rfl)
@[simp] theorem takeFree_groups (s : State) : s.takeFree.2.groups = s.groups := (rfl)
@[simp] theorem takeId_groups (s : State) : s.takeId.2.groups = s.groups := (rfl)
@[simp] theorem takeFree_extents (s : State) : s.takeFree.2.extents = s.extents := (rfl)
@[simp] theorem takeId_extents (s : State) : s.takeId.2.extents = s.extents := (rfl)
@[simp] theorem takeFree_pool0 (s : State) : s.takeFree.2.pool0 = s.pool0 := (rfl)
@[simp] theorem takeId_pool0 (s : State) : s.takeId.2.pool0 = s.pool0 := (rfl)
@[simp] theorem takeFree_pool1 (s : State) : s.takeFree.2.pool1 = s.pool1 := (rfl)
@[simp] theorem takeId_pool1 (s : State) : s.takeId.2.pool1 = s.pool1 := (rfl)
@[simp] theorem takeFree_mem (s : State) : s.takeFree.2.mem = s.mem := (rfl)
@[simp] theorem takeId_mem (s : State) : s.takeId.2.mem = s.mem := (rfl)
@[simp] theorem takeFree_half0 (s : State) : s.takeFree.2.half0 = s.half0 := (rfl)
@[simp] theorem takeId_half0 (s : State) : s.takeId.2.half0 = s.half0 := (rfl)
@[simp] theorem takeFree_half1 (s : State) : s.takeFree.2.half1 = s.half1 := (rfl)
@[simp] theorem takeId_half1 (s : State) : s.takeId.2.half1 = s.half1 := (rfl)
@[simp] theorem takeFree_dies (s : State) : s.takeFree.2.dies = s.dies := (rfl)
@[simp] theorem takeId_dies (s : State) : s.takeId.2.dies = s.dies := (rfl)
@[simp] theorem takeFree_stackTab (s : State) : s.takeFree.2.stackTab = s.stackTab := (rfl)
@[simp] theorem takeId_stackTab (s : State) : s.takeId.2.stackTab = s.stackTab := (rfl)
@[simp] theorem takeFree_banks (s : State) : s.takeFree.2.banks = s.banks := (rfl)
@[simp] theorem takeId_banks (s : State) : s.takeId.2.banks = s.banks := (rfl)
@[simp] theorem takeFree_targets (s : State) : s.takeFree.2.targets = s.targets := (rfl)
@[simp] theorem takeId_targets (s : State) : s.takeId.2.targets = s.targets := (rfl)
@[simp] theorem takeFree_dir (s : State) : s.takeFree.2.dir = s.dir := (rfl)
@[simp] theorem takeId_dir (s : State) : s.takeId.2.dir = s.dir := (rfl)
@[simp] theorem takeFree_regions (s : State) : s.takeFree.2.regions = s.regions := (rfl)
@[simp] theorem takeId_regions (s : State) : s.takeId.2.regions = s.regions := (rfl)
@[simp] theorem takeFree_weavers (s : State) : s.takeFree.2.weavers = s.weavers := (rfl)
@[simp] theorem takeId_weavers (s : State) : s.takeId.2.weavers = s.weavers := (rfl)
@[simp] theorem takeFree_walkers (s : State) : s.takeFree.2.walkers = s.walkers := (rfl)
@[simp] theorem takeId_walkers (s : State) : s.takeId.2.walkers = s.walkers := (rfl)
@[simp] theorem takeFree_migrations (s : State) : s.takeFree.2.migrations = s.migrations := (rfl)
@[simp] theorem takeId_migrations (s : State) : s.takeId.2.migrations = s.migrations := (rfl)
@[simp] theorem takeFree_poolReqs (s : State) : s.takeFree.2.poolReqs = s.poolReqs := (rfl)
@[simp] theorem takeId_poolReqs (s : State) : s.takeId.2.poolReqs = s.poolReqs := (rfl)
@[simp] theorem takeFree_nextId (s : State) : s.takeFree.2.nextId = s.nextId := (rfl)
@[simp] theorem takeFree_ctl (s : State) : s.takeFree.2.ctl = s.ctl := (rfl)
@[simp] theorem takeId_ctl (s : State) : s.takeId.2.ctl = s.ctl := (rfl)
@[simp] theorem takeFree_auth (s : State) : s.takeFree.2.auth = s.auth := (rfl)
@[simp] theorem takeId_auth (s : State) : s.takeId.2.auth = s.auth := (rfl)
@[simp] theorem takeFree_links (s : State) : s.takeFree.2.links = s.links := (rfl)
@[simp] theorem takeId_links (s : State) : s.takeId.2.links = s.links := (rfl)
@[simp] theorem takeFree_net (s : State) : s.takeFree.2.net = s.net := (rfl)
@[simp] theorem takeId_net (s : State) : s.takeId.2.net = s.net := (rfl)
@[simp] theorem takeFree_host (s : State) : s.takeFree.2.host = s.host := (rfl)
@[simp] theorem takeId_host (s : State) : s.takeId.2.host = s.host := (rfl)
@[simp] theorem takeFree_power (s : State) : s.takeFree.2.power = s.power := (rfl)
@[simp] theorem takeId_power (s : State) : s.takeId.2.power = s.power := (rfl)
@[simp] theorem takeFree_cnt (s : State) : s.takeFree.2.cnt = s.cnt := (rfl)
@[simp] theorem takeId_cnt (s : State) : s.takeId.2.cnt = s.cnt := (rfl)
@[simp] theorem takeFree_rst (s : State) : s.takeFree.2.rst = s.rst := (rfl)
@[simp] theorem takeId_rst (s : State) : s.takeId.2.rst = s.rst := (rfl)
@[simp] theorem takeFree_out (s : State) : s.takeFree.2.out = s.out := (rfl)
@[simp] theorem takeId_out (s : State) : s.takeId.2.out = s.out := (rfl)
@[simp] theorem takeId_free (s : State) : s.takeId.2.free = s.free := (rfl)
@[simp] theorem takeFree_dirUse (s : State) : s.takeFree.2.dirUse = s.dirUse := (rfl)
@[simp] theorem takeId_dirUse (s : State) : s.takeId.2.dirUse = s.dirUse := (rfl)

/-! ### Looking up what an update changed -/

theorem part_onPart (s : State) (p p' : Nat) (f : Partition → Partition) :
    (s.onPart p f).part p' = if p' = p then f (s.part p) else s.part p' := look_mod _ _ _ _ _
@[simp] theorem part_onPart_self (s : State) (p : Nat) (f : Partition → Partition) :
    (s.onPart p f).part p = f (s.part p) := look_mod_self _ _ _ _
@[simp] theorem part_onPart_ne (s : State) {p p' : Nat} (f : Partition → Partition) (h : p' ≠ p) :
    (s.onPart p f).part p' = s.part p' := look_mod_ne _ _ _ h
theorem extent_onExtent (s : State) (e e' : Nat) (f : Extent → Extent) :
    (s.onExtent e f).extent e' = if e' = e then f (s.extent e) else s.extent e' := look_mod _ _ _ _ _
@[simp] theorem extent_onExtent_self (s : State) (e : Nat) (f : Extent → Extent) :
    (s.onExtent e f).extent e = f (s.extent e) := look_mod_self _ _ _ _
@[simp] theorem extent_onExtent_ne (s : State) {e e' : Nat} (f : Extent → Extent) (h : e' ≠ e) :
    (s.onExtent e f).extent e' = s.extent e' := look_mod_ne _ _ _ h
theorem die_onDie (s : State) (d d' : Nat) (f : DieSt → DieSt) :
    (s.onDie d f).die d' = if d' = d then f (s.die d) else s.die d' := look_mod _ _ _ _ _
@[simp] theorem die_onDie_self (s : State) (d : Nat) (f : DieSt → DieSt) :
    (s.onDie d f).die d = f (s.die d) := look_mod_self _ _ _ _
@[simp] theorem die_onDie_ne (s : State) {d d' : Nat} (f : DieSt → DieSt) (h : d' ≠ d) :
    (s.onDie d f).die d' = s.die d' := look_mod_ne _ _ _ h
theorem stack_onStack (s : State) (n n' : Nat) (f : StackSt → StackSt) :
    (s.onStack n f).stack n' = if n' = n then f (s.stack n) else s.stack n' := look_mod _ _ _ _ _
@[simp] theorem stack_onStack_self (s : State) (n : Nat) (f : StackSt → StackSt) :
    (s.onStack n f).stack n = f (s.stack n) := look_mod_self _ _ _ _
@[simp] theorem stack_onStack_ne (s : State) {n n' : Nat} (f : StackSt → StackSt) (h : n' ≠ n) :
    (s.onStack n f).stack n' = s.stack n' := look_mod_ne _ _ _ h
theorem dirEnt_onDir (s : State) (l l' : Nat) (f : DirEnt → DirEnt) :
    (s.onDir l f).dirEnt l' = if l' = l then f (s.dirEnt l) else s.dirEnt l' := look_mod _ _ _ _ _
@[simp] theorem dirEnt_onDir_self (s : State) (l : Nat) (f : DirEnt → DirEnt) :
    (s.onDir l f).dirEnt l = f (s.dirEnt l) := look_mod_self _ _ _ _
@[simp] theorem dirEnt_onDir_ne (s : State) {l l' : Nat} (f : DirEnt → DirEnt) (h : l' ≠ l) :
    (s.onDir l f).dirEnt l' = s.dirEnt l' := look_mod_ne _ _ _ h
theorem region_onRegion (s : State) (r r' : Nat) (f : Region → Region) :
    (s.onRegion r f).region r' = if r' = r then f (s.region r) else s.region r' := look_mod _ _ _ _ _
@[simp] theorem region_onRegion_self (s : State) (r : Nat) (f : Region → Region) :
    (s.onRegion r f).region r = f (s.region r) := look_mod_self _ _ _ _
@[simp] theorem region_onRegion_ne (s : State) {r r' : Nat} (f : Region → Region) (h : r' ≠ r) :
    (s.onRegion r f).region r' = s.region r' := look_mod_ne _ _ _ h
theorem weaver_onWeaver (s : State) (w w' : Nat) (f : Weaver → Weaver) :
    (s.onWeaver w f).weaver w' = if w' = w then f (s.weaver w) else s.weaver w' := look_mod _ _ _ _ _
@[simp] theorem weaver_onWeaver_self (s : State) (w : Nat) (f : Weaver → Weaver) :
    (s.onWeaver w f).weaver w = f (s.weaver w) := look_mod_self _ _ _ _
@[simp] theorem weaver_onWeaver_ne (s : State) {w w' : Nat} (f : Weaver → Weaver) (h : w' ≠ w) :
    (s.onWeaver w f).weaver w' = s.weaver w' := look_mod_ne _ _ _ h
theorem walker_onWalker (s : State) (k k' : Nat) (f : Walker → Walker) :
    (s.onWalker k f).walker k' = if k' = k then f (s.walker k) else s.walker k' := look_mod _ _ _ _ _
@[simp] theorem walker_onWalker_self (s : State) (k : Nat) (f : Walker → Walker) :
    (s.onWalker k f).walker k = f (s.walker k) := look_mod_self _ _ _ _
@[simp] theorem walker_onWalker_ne (s : State) {k k' : Nat} (f : Walker → Walker) (h : k' ≠ k) :
    (s.onWalker k f).walker k' = s.walker k' := look_mod_ne _ _ _ h
theorem link_onLink (s : State) (l l' : Nat) (f : Link → Link) :
    (s.onLink l f).link l' = if l' = l then f (s.link l) else s.link l' := look_mod _ _ _ _ _
@[simp] theorem link_onLink_self (s : State) (l : Nat) (f : Link → Link) :
    (s.onLink l f).link l = f (s.link l) := look_mod_self _ _ _ _
@[simp] theorem link_onLink_ne (s : State) {l l' : Nat} (f : Link → Link) (h : l' ≠ l) :
    (s.onLink l f).link l' = s.link l' := look_mod_ne _ _ _ h
@[simp] theorem extent_onPart' (s : State) (p : Nat) (f : Partition → Partition) (k' : Nat) : (s.onPart p f).extent k' = s.extent k' := (rfl)
@[simp] theorem die_onPart' (s : State) (p : Nat) (f : Partition → Partition) (k' : Nat) : (s.onPart p f).die k' = s.die k' := (rfl)
@[simp] theorem stack_onPart' (s : State) (p : Nat) (f : Partition → Partition) (k' : Nat) : (s.onPart p f).stack k' = s.stack k' := (rfl)
@[simp] theorem dirEnt_onPart' (s : State) (p : Nat) (f : Partition → Partition) (k' : Nat) : (s.onPart p f).dirEnt k' = s.dirEnt k' := (rfl)
@[simp] theorem region_onPart' (s : State) (p : Nat) (f : Partition → Partition) (k' : Nat) : (s.onPart p f).region k' = s.region k' := (rfl)
@[simp] theorem weaver_onPart' (s : State) (p : Nat) (f : Partition → Partition) (k' : Nat) : (s.onPart p f).weaver k' = s.weaver k' := (rfl)
@[simp] theorem walker_onPart' (s : State) (p : Nat) (f : Partition → Partition) (k' : Nat) : (s.onPart p f).walker k' = s.walker k' := (rfl)
@[simp] theorem link_onPart' (s : State) (p : Nat) (f : Partition → Partition) (k' : Nat) : (s.onPart p f).link k' = s.link k' := (rfl)
@[simp] theorem window_onPart' (s : State) (p : Nat) (f : Partition → Partition) (k' : Nat) : (s.onPart p f).window k' = s.window k' := (rfl)
@[simp] theorem group_onPart' (s : State) (p : Nat) (f : Partition → Partition) (k' : Nat) : (s.onPart p f).group k' = s.group k' := (rfl)
@[simp] theorem part_onExtent' (s : State) (e : Nat) (f : Extent → Extent) (k' : Nat) : (s.onExtent e f).part k' = s.part k' := (rfl)
@[simp] theorem die_onExtent' (s : State) (e : Nat) (f : Extent → Extent) (k' : Nat) : (s.onExtent e f).die k' = s.die k' := (rfl)
@[simp] theorem stack_onExtent' (s : State) (e : Nat) (f : Extent → Extent) (k' : Nat) : (s.onExtent e f).stack k' = s.stack k' := (rfl)
@[simp] theorem dirEnt_onExtent' (s : State) (e : Nat) (f : Extent → Extent) (k' : Nat) : (s.onExtent e f).dirEnt k' = s.dirEnt k' := (rfl)
@[simp] theorem region_onExtent' (s : State) (e : Nat) (f : Extent → Extent) (k' : Nat) : (s.onExtent e f).region k' = s.region k' := (rfl)
@[simp] theorem weaver_onExtent' (s : State) (e : Nat) (f : Extent → Extent) (k' : Nat) : (s.onExtent e f).weaver k' = s.weaver k' := (rfl)
@[simp] theorem walker_onExtent' (s : State) (e : Nat) (f : Extent → Extent) (k' : Nat) : (s.onExtent e f).walker k' = s.walker k' := (rfl)
@[simp] theorem link_onExtent' (s : State) (e : Nat) (f : Extent → Extent) (k' : Nat) : (s.onExtent e f).link k' = s.link k' := (rfl)
@[simp] theorem window_onExtent' (s : State) (e : Nat) (f : Extent → Extent) (k' : Nat) : (s.onExtent e f).window k' = s.window k' := (rfl)
@[simp] theorem group_onExtent' (s : State) (e : Nat) (f : Extent → Extent) (k' : Nat) : (s.onExtent e f).group k' = s.group k' := (rfl)
@[simp] theorem part_onDie' (s : State) (d : Nat) (f : DieSt → DieSt) (k' : Nat) : (s.onDie d f).part k' = s.part k' := (rfl)
@[simp] theorem extent_onDie' (s : State) (d : Nat) (f : DieSt → DieSt) (k' : Nat) : (s.onDie d f).extent k' = s.extent k' := (rfl)
@[simp] theorem stack_onDie' (s : State) (d : Nat) (f : DieSt → DieSt) (k' : Nat) : (s.onDie d f).stack k' = s.stack k' := (rfl)
@[simp] theorem dirEnt_onDie' (s : State) (d : Nat) (f : DieSt → DieSt) (k' : Nat) : (s.onDie d f).dirEnt k' = s.dirEnt k' := (rfl)
@[simp] theorem region_onDie' (s : State) (d : Nat) (f : DieSt → DieSt) (k' : Nat) : (s.onDie d f).region k' = s.region k' := (rfl)
@[simp] theorem weaver_onDie' (s : State) (d : Nat) (f : DieSt → DieSt) (k' : Nat) : (s.onDie d f).weaver k' = s.weaver k' := (rfl)
@[simp] theorem walker_onDie' (s : State) (d : Nat) (f : DieSt → DieSt) (k' : Nat) : (s.onDie d f).walker k' = s.walker k' := (rfl)
@[simp] theorem link_onDie' (s : State) (d : Nat) (f : DieSt → DieSt) (k' : Nat) : (s.onDie d f).link k' = s.link k' := (rfl)
@[simp] theorem window_onDie' (s : State) (d : Nat) (f : DieSt → DieSt) (k' : Nat) : (s.onDie d f).window k' = s.window k' := (rfl)
@[simp] theorem group_onDie' (s : State) (d : Nat) (f : DieSt → DieSt) (k' : Nat) : (s.onDie d f).group k' = s.group k' := (rfl)
@[simp] theorem part_onStack' (s : State) (n : Nat) (f : StackSt → StackSt) (k' : Nat) : (s.onStack n f).part k' = s.part k' := (rfl)
@[simp] theorem extent_onStack' (s : State) (n : Nat) (f : StackSt → StackSt) (k' : Nat) : (s.onStack n f).extent k' = s.extent k' := (rfl)
@[simp] theorem die_onStack' (s : State) (n : Nat) (f : StackSt → StackSt) (k' : Nat) : (s.onStack n f).die k' = s.die k' := (rfl)
@[simp] theorem dirEnt_onStack' (s : State) (n : Nat) (f : StackSt → StackSt) (k' : Nat) : (s.onStack n f).dirEnt k' = s.dirEnt k' := (rfl)
@[simp] theorem region_onStack' (s : State) (n : Nat) (f : StackSt → StackSt) (k' : Nat) : (s.onStack n f).region k' = s.region k' := (rfl)
@[simp] theorem weaver_onStack' (s : State) (n : Nat) (f : StackSt → StackSt) (k' : Nat) : (s.onStack n f).weaver k' = s.weaver k' := (rfl)
@[simp] theorem walker_onStack' (s : State) (n : Nat) (f : StackSt → StackSt) (k' : Nat) : (s.onStack n f).walker k' = s.walker k' := (rfl)
@[simp] theorem link_onStack' (s : State) (n : Nat) (f : StackSt → StackSt) (k' : Nat) : (s.onStack n f).link k' = s.link k' := (rfl)
@[simp] theorem window_onStack' (s : State) (n : Nat) (f : StackSt → StackSt) (k' : Nat) : (s.onStack n f).window k' = s.window k' := (rfl)
@[simp] theorem group_onStack' (s : State) (n : Nat) (f : StackSt → StackSt) (k' : Nat) : (s.onStack n f).group k' = s.group k' := (rfl)
@[simp] theorem part_onBank' (s : State) (b : BankId) (f : Bank → Bank) (k' : Nat) : (s.onBank b f).part k' = s.part k' := (rfl)
@[simp] theorem extent_onBank' (s : State) (b : BankId) (f : Bank → Bank) (k' : Nat) : (s.onBank b f).extent k' = s.extent k' := (rfl)
@[simp] theorem die_onBank' (s : State) (b : BankId) (f : Bank → Bank) (k' : Nat) : (s.onBank b f).die k' = s.die k' := (rfl)
@[simp] theorem stack_onBank' (s : State) (b : BankId) (f : Bank → Bank) (k' : Nat) : (s.onBank b f).stack k' = s.stack k' := (rfl)
@[simp] theorem dirEnt_onBank' (s : State) (b : BankId) (f : Bank → Bank) (k' : Nat) : (s.onBank b f).dirEnt k' = s.dirEnt k' := (rfl)
@[simp] theorem region_onBank' (s : State) (b : BankId) (f : Bank → Bank) (k' : Nat) : (s.onBank b f).region k' = s.region k' := (rfl)
@[simp] theorem weaver_onBank' (s : State) (b : BankId) (f : Bank → Bank) (k' : Nat) : (s.onBank b f).weaver k' = s.weaver k' := (rfl)
@[simp] theorem walker_onBank' (s : State) (b : BankId) (f : Bank → Bank) (k' : Nat) : (s.onBank b f).walker k' = s.walker k' := (rfl)
@[simp] theorem link_onBank' (s : State) (b : BankId) (f : Bank → Bank) (k' : Nat) : (s.onBank b f).link k' = s.link k' := (rfl)
@[simp] theorem window_onBank' (s : State) (b : BankId) (f : Bank → Bank) (k' : Nat) : (s.onBank b f).window k' = s.window k' := (rfl)
@[simp] theorem group_onBank' (s : State) (b : BankId) (f : Bank → Bank) (k' : Nat) : (s.onBank b f).group k' = s.group k' := (rfl)
@[simp] theorem part_onDir' (s : State) (l : Nat) (f : DirEnt → DirEnt) (k' : Nat) : (s.onDir l f).part k' = s.part k' := (rfl)
@[simp] theorem extent_onDir' (s : State) (l : Nat) (f : DirEnt → DirEnt) (k' : Nat) : (s.onDir l f).extent k' = s.extent k' := (rfl)
@[simp] theorem die_onDir' (s : State) (l : Nat) (f : DirEnt → DirEnt) (k' : Nat) : (s.onDir l f).die k' = s.die k' := (rfl)
@[simp] theorem stack_onDir' (s : State) (l : Nat) (f : DirEnt → DirEnt) (k' : Nat) : (s.onDir l f).stack k' = s.stack k' := (rfl)
@[simp] theorem region_onDir' (s : State) (l : Nat) (f : DirEnt → DirEnt) (k' : Nat) : (s.onDir l f).region k' = s.region k' := (rfl)
@[simp] theorem weaver_onDir' (s : State) (l : Nat) (f : DirEnt → DirEnt) (k' : Nat) : (s.onDir l f).weaver k' = s.weaver k' := (rfl)
@[simp] theorem walker_onDir' (s : State) (l : Nat) (f : DirEnt → DirEnt) (k' : Nat) : (s.onDir l f).walker k' = s.walker k' := (rfl)
@[simp] theorem link_onDir' (s : State) (l : Nat) (f : DirEnt → DirEnt) (k' : Nat) : (s.onDir l f).link k' = s.link k' := (rfl)
@[simp] theorem window_onDir' (s : State) (l : Nat) (f : DirEnt → DirEnt) (k' : Nat) : (s.onDir l f).window k' = s.window k' := (rfl)
@[simp] theorem group_onDir' (s : State) (l : Nat) (f : DirEnt → DirEnt) (k' : Nat) : (s.onDir l f).group k' = s.group k' := (rfl)
@[simp] theorem part_onRegion' (s : State) (r : Nat) (f : Region → Region) (k' : Nat) : (s.onRegion r f).part k' = s.part k' := (rfl)
@[simp] theorem extent_onRegion' (s : State) (r : Nat) (f : Region → Region) (k' : Nat) : (s.onRegion r f).extent k' = s.extent k' := (rfl)
@[simp] theorem die_onRegion' (s : State) (r : Nat) (f : Region → Region) (k' : Nat) : (s.onRegion r f).die k' = s.die k' := (rfl)
@[simp] theorem stack_onRegion' (s : State) (r : Nat) (f : Region → Region) (k' : Nat) : (s.onRegion r f).stack k' = s.stack k' := (rfl)
@[simp] theorem dirEnt_onRegion' (s : State) (r : Nat) (f : Region → Region) (k' : Nat) : (s.onRegion r f).dirEnt k' = s.dirEnt k' := (rfl)
@[simp] theorem weaver_onRegion' (s : State) (r : Nat) (f : Region → Region) (k' : Nat) : (s.onRegion r f).weaver k' = s.weaver k' := (rfl)
@[simp] theorem walker_onRegion' (s : State) (r : Nat) (f : Region → Region) (k' : Nat) : (s.onRegion r f).walker k' = s.walker k' := (rfl)
@[simp] theorem link_onRegion' (s : State) (r : Nat) (f : Region → Region) (k' : Nat) : (s.onRegion r f).link k' = s.link k' := (rfl)
@[simp] theorem window_onRegion' (s : State) (r : Nat) (f : Region → Region) (k' : Nat) : (s.onRegion r f).window k' = s.window k' := (rfl)
@[simp] theorem group_onRegion' (s : State) (r : Nat) (f : Region → Region) (k' : Nat) : (s.onRegion r f).group k' = s.group k' := (rfl)
@[simp] theorem part_onWeaver' (s : State) (w : Nat) (f : Weaver → Weaver) (k' : Nat) : (s.onWeaver w f).part k' = s.part k' := (rfl)
@[simp] theorem extent_onWeaver' (s : State) (w : Nat) (f : Weaver → Weaver) (k' : Nat) : (s.onWeaver w f).extent k' = s.extent k' := (rfl)
@[simp] theorem die_onWeaver' (s : State) (w : Nat) (f : Weaver → Weaver) (k' : Nat) : (s.onWeaver w f).die k' = s.die k' := (rfl)
@[simp] theorem stack_onWeaver' (s : State) (w : Nat) (f : Weaver → Weaver) (k' : Nat) : (s.onWeaver w f).stack k' = s.stack k' := (rfl)
@[simp] theorem dirEnt_onWeaver' (s : State) (w : Nat) (f : Weaver → Weaver) (k' : Nat) : (s.onWeaver w f).dirEnt k' = s.dirEnt k' := (rfl)
@[simp] theorem region_onWeaver' (s : State) (w : Nat) (f : Weaver → Weaver) (k' : Nat) : (s.onWeaver w f).region k' = s.region k' := (rfl)
@[simp] theorem walker_onWeaver' (s : State) (w : Nat) (f : Weaver → Weaver) (k' : Nat) : (s.onWeaver w f).walker k' = s.walker k' := (rfl)
@[simp] theorem link_onWeaver' (s : State) (w : Nat) (f : Weaver → Weaver) (k' : Nat) : (s.onWeaver w f).link k' = s.link k' := (rfl)
@[simp] theorem window_onWeaver' (s : State) (w : Nat) (f : Weaver → Weaver) (k' : Nat) : (s.onWeaver w f).window k' = s.window k' := (rfl)
@[simp] theorem group_onWeaver' (s : State) (w : Nat) (f : Weaver → Weaver) (k' : Nat) : (s.onWeaver w f).group k' = s.group k' := (rfl)
@[simp] theorem part_onWalker' (s : State) (k : Nat) (f : Walker → Walker) (k' : Nat) : (s.onWalker k f).part k' = s.part k' := (rfl)
@[simp] theorem extent_onWalker' (s : State) (k : Nat) (f : Walker → Walker) (k' : Nat) : (s.onWalker k f).extent k' = s.extent k' := (rfl)
@[simp] theorem die_onWalker' (s : State) (k : Nat) (f : Walker → Walker) (k' : Nat) : (s.onWalker k f).die k' = s.die k' := (rfl)
@[simp] theorem stack_onWalker' (s : State) (k : Nat) (f : Walker → Walker) (k' : Nat) : (s.onWalker k f).stack k' = s.stack k' := (rfl)
@[simp] theorem dirEnt_onWalker' (s : State) (k : Nat) (f : Walker → Walker) (k' : Nat) : (s.onWalker k f).dirEnt k' = s.dirEnt k' := (rfl)
@[simp] theorem region_onWalker' (s : State) (k : Nat) (f : Walker → Walker) (k' : Nat) : (s.onWalker k f).region k' = s.region k' := (rfl)
@[simp] theorem weaver_onWalker' (s : State) (k : Nat) (f : Walker → Walker) (k' : Nat) : (s.onWalker k f).weaver k' = s.weaver k' := (rfl)
@[simp] theorem link_onWalker' (s : State) (k : Nat) (f : Walker → Walker) (k' : Nat) : (s.onWalker k f).link k' = s.link k' := (rfl)
@[simp] theorem window_onWalker' (s : State) (k : Nat) (f : Walker → Walker) (k' : Nat) : (s.onWalker k f).window k' = s.window k' := (rfl)
@[simp] theorem group_onWalker' (s : State) (k : Nat) (f : Walker → Walker) (k' : Nat) : (s.onWalker k f).group k' = s.group k' := (rfl)
@[simp] theorem part_onLink' (s : State) (l : Nat) (f : Link → Link) (k' : Nat) : (s.onLink l f).part k' = s.part k' := (rfl)
@[simp] theorem extent_onLink' (s : State) (l : Nat) (f : Link → Link) (k' : Nat) : (s.onLink l f).extent k' = s.extent k' := (rfl)
@[simp] theorem die_onLink' (s : State) (l : Nat) (f : Link → Link) (k' : Nat) : (s.onLink l f).die k' = s.die k' := (rfl)
@[simp] theorem stack_onLink' (s : State) (l : Nat) (f : Link → Link) (k' : Nat) : (s.onLink l f).stack k' = s.stack k' := (rfl)
@[simp] theorem dirEnt_onLink' (s : State) (l : Nat) (f : Link → Link) (k' : Nat) : (s.onLink l f).dirEnt k' = s.dirEnt k' := (rfl)
@[simp] theorem region_onLink' (s : State) (l : Nat) (f : Link → Link) (k' : Nat) : (s.onLink l f).region k' = s.region k' := (rfl)
@[simp] theorem weaver_onLink' (s : State) (l : Nat) (f : Link → Link) (k' : Nat) : (s.onLink l f).weaver k' = s.weaver k' := (rfl)
@[simp] theorem walker_onLink' (s : State) (l : Nat) (f : Link → Link) (k' : Nat) : (s.onLink l f).walker k' = s.walker k' := (rfl)
@[simp] theorem window_onLink' (s : State) (l : Nat) (f : Link → Link) (k' : Nat) : (s.onLink l f).window k' = s.window k' := (rfl)
@[simp] theorem group_onLink' (s : State) (l : Nat) (f : Link → Link) (k' : Nat) : (s.onLink l f).group k' = s.group k' := (rfl)
@[simp] theorem part_onRnd' (s : State) (f : RoundSt → RoundSt) (k' : Nat) : (s.onRnd f).part k' = s.part k' := (rfl)
@[simp] theorem extent_onRnd' (s : State) (f : RoundSt → RoundSt) (k' : Nat) : (s.onRnd f).extent k' = s.extent k' := (rfl)
@[simp] theorem die_onRnd' (s : State) (f : RoundSt → RoundSt) (k' : Nat) : (s.onRnd f).die k' = s.die k' := (rfl)
@[simp] theorem stack_onRnd' (s : State) (f : RoundSt → RoundSt) (k' : Nat) : (s.onRnd f).stack k' = s.stack k' := (rfl)
@[simp] theorem dirEnt_onRnd' (s : State) (f : RoundSt → RoundSt) (k' : Nat) : (s.onRnd f).dirEnt k' = s.dirEnt k' := (rfl)
@[simp] theorem region_onRnd' (s : State) (f : RoundSt → RoundSt) (k' : Nat) : (s.onRnd f).region k' = s.region k' := (rfl)
@[simp] theorem weaver_onRnd' (s : State) (f : RoundSt → RoundSt) (k' : Nat) : (s.onRnd f).weaver k' = s.weaver k' := (rfl)
@[simp] theorem walker_onRnd' (s : State) (f : RoundSt → RoundSt) (k' : Nat) : (s.onRnd f).walker k' = s.walker k' := (rfl)
@[simp] theorem link_onRnd' (s : State) (f : RoundSt → RoundSt) (k' : Nat) : (s.onRnd f).link k' = s.link k' := (rfl)
@[simp] theorem window_onRnd' (s : State) (f : RoundSt → RoundSt) (k' : Nat) : (s.onRnd f).window k' = s.window k' := (rfl)
@[simp] theorem group_onRnd' (s : State) (f : RoundSt → RoundSt) (k' : Nat) : (s.onRnd f).group k' = s.group k' := (rfl)
@[simp] theorem part_onMem' (s : State) (f : PoolMem → PoolMem) (k' : Nat) : (s.onMem f).part k' = s.part k' := (rfl)
@[simp] theorem extent_onMem' (s : State) (f : PoolMem → PoolMem) (k' : Nat) : (s.onMem f).extent k' = s.extent k' := (rfl)
@[simp] theorem die_onMem' (s : State) (f : PoolMem → PoolMem) (k' : Nat) : (s.onMem f).die k' = s.die k' := (rfl)
@[simp] theorem stack_onMem' (s : State) (f : PoolMem → PoolMem) (k' : Nat) : (s.onMem f).stack k' = s.stack k' := (rfl)
@[simp] theorem dirEnt_onMem' (s : State) (f : PoolMem → PoolMem) (k' : Nat) : (s.onMem f).dirEnt k' = s.dirEnt k' := (rfl)
@[simp] theorem region_onMem' (s : State) (f : PoolMem → PoolMem) (k' : Nat) : (s.onMem f).region k' = s.region k' := (rfl)
@[simp] theorem weaver_onMem' (s : State) (f : PoolMem → PoolMem) (k' : Nat) : (s.onMem f).weaver k' = s.weaver k' := (rfl)
@[simp] theorem walker_onMem' (s : State) (f : PoolMem → PoolMem) (k' : Nat) : (s.onMem f).walker k' = s.walker k' := (rfl)
@[simp] theorem link_onMem' (s : State) (f : PoolMem → PoolMem) (k' : Nat) : (s.onMem f).link k' = s.link k' := (rfl)
@[simp] theorem window_onMem' (s : State) (f : PoolMem → PoolMem) (k' : Nat) : (s.onMem f).window k' = s.window k' := (rfl)
@[simp] theorem group_onMem' (s : State) (f : PoolMem → PoolMem) (k' : Nat) : (s.onMem f).group k' = s.group k' := (rfl)
@[simp] theorem part_onCtl' (s : State) (f : CtlSt → CtlSt) (k' : Nat) : (s.onCtl f).part k' = s.part k' := (rfl)
@[simp] theorem extent_onCtl' (s : State) (f : CtlSt → CtlSt) (k' : Nat) : (s.onCtl f).extent k' = s.extent k' := (rfl)
@[simp] theorem die_onCtl' (s : State) (f : CtlSt → CtlSt) (k' : Nat) : (s.onCtl f).die k' = s.die k' := (rfl)
@[simp] theorem stack_onCtl' (s : State) (f : CtlSt → CtlSt) (k' : Nat) : (s.onCtl f).stack k' = s.stack k' := (rfl)
@[simp] theorem dirEnt_onCtl' (s : State) (f : CtlSt → CtlSt) (k' : Nat) : (s.onCtl f).dirEnt k' = s.dirEnt k' := (rfl)
@[simp] theorem region_onCtl' (s : State) (f : CtlSt → CtlSt) (k' : Nat) : (s.onCtl f).region k' = s.region k' := (rfl)
@[simp] theorem weaver_onCtl' (s : State) (f : CtlSt → CtlSt) (k' : Nat) : (s.onCtl f).weaver k' = s.weaver k' := (rfl)
@[simp] theorem walker_onCtl' (s : State) (f : CtlSt → CtlSt) (k' : Nat) : (s.onCtl f).walker k' = s.walker k' := (rfl)
@[simp] theorem link_onCtl' (s : State) (f : CtlSt → CtlSt) (k' : Nat) : (s.onCtl f).link k' = s.link k' := (rfl)
@[simp] theorem window_onCtl' (s : State) (f : CtlSt → CtlSt) (k' : Nat) : (s.onCtl f).window k' = s.window k' := (rfl)
@[simp] theorem group_onCtl' (s : State) (f : CtlSt → CtlSt) (k' : Nat) : (s.onCtl f).group k' = s.group k' := (rfl)
@[simp] theorem part_onAuth' (s : State) (f : AuthSt → AuthSt) (k' : Nat) : (s.onAuth f).part k' = s.part k' := (rfl)
@[simp] theorem extent_onAuth' (s : State) (f : AuthSt → AuthSt) (k' : Nat) : (s.onAuth f).extent k' = s.extent k' := (rfl)
@[simp] theorem die_onAuth' (s : State) (f : AuthSt → AuthSt) (k' : Nat) : (s.onAuth f).die k' = s.die k' := (rfl)
@[simp] theorem stack_onAuth' (s : State) (f : AuthSt → AuthSt) (k' : Nat) : (s.onAuth f).stack k' = s.stack k' := (rfl)
@[simp] theorem dirEnt_onAuth' (s : State) (f : AuthSt → AuthSt) (k' : Nat) : (s.onAuth f).dirEnt k' = s.dirEnt k' := (rfl)
@[simp] theorem region_onAuth' (s : State) (f : AuthSt → AuthSt) (k' : Nat) : (s.onAuth f).region k' = s.region k' := (rfl)
@[simp] theorem weaver_onAuth' (s : State) (f : AuthSt → AuthSt) (k' : Nat) : (s.onAuth f).weaver k' = s.weaver k' := (rfl)
@[simp] theorem walker_onAuth' (s : State) (f : AuthSt → AuthSt) (k' : Nat) : (s.onAuth f).walker k' = s.walker k' := (rfl)
@[simp] theorem link_onAuth' (s : State) (f : AuthSt → AuthSt) (k' : Nat) : (s.onAuth f).link k' = s.link k' := (rfl)
@[simp] theorem window_onAuth' (s : State) (f : AuthSt → AuthSt) (k' : Nat) : (s.onAuth f).window k' = s.window k' := (rfl)
@[simp] theorem group_onAuth' (s : State) (f : AuthSt → AuthSt) (k' : Nat) : (s.onAuth f).group k' = s.group k' := (rfl)
@[simp] theorem part_onNet' (s : State) (f : NetSt → NetSt) (k' : Nat) : (s.onNet f).part k' = s.part k' := (rfl)
@[simp] theorem extent_onNet' (s : State) (f : NetSt → NetSt) (k' : Nat) : (s.onNet f).extent k' = s.extent k' := (rfl)
@[simp] theorem die_onNet' (s : State) (f : NetSt → NetSt) (k' : Nat) : (s.onNet f).die k' = s.die k' := (rfl)
@[simp] theorem stack_onNet' (s : State) (f : NetSt → NetSt) (k' : Nat) : (s.onNet f).stack k' = s.stack k' := (rfl)
@[simp] theorem dirEnt_onNet' (s : State) (f : NetSt → NetSt) (k' : Nat) : (s.onNet f).dirEnt k' = s.dirEnt k' := (rfl)
@[simp] theorem region_onNet' (s : State) (f : NetSt → NetSt) (k' : Nat) : (s.onNet f).region k' = s.region k' := (rfl)
@[simp] theorem weaver_onNet' (s : State) (f : NetSt → NetSt) (k' : Nat) : (s.onNet f).weaver k' = s.weaver k' := (rfl)
@[simp] theorem walker_onNet' (s : State) (f : NetSt → NetSt) (k' : Nat) : (s.onNet f).walker k' = s.walker k' := (rfl)
@[simp] theorem link_onNet' (s : State) (f : NetSt → NetSt) (k' : Nat) : (s.onNet f).link k' = s.link k' := (rfl)
@[simp] theorem window_onNet' (s : State) (f : NetSt → NetSt) (k' : Nat) : (s.onNet f).window k' = s.window k' := (rfl)
@[simp] theorem group_onNet' (s : State) (f : NetSt → NetSt) (k' : Nat) : (s.onNet f).group k' = s.group k' := (rfl)
@[simp] theorem part_onHost' (s : State) (f : HostSt → HostSt) (k' : Nat) : (s.onHost f).part k' = s.part k' := (rfl)
@[simp] theorem extent_onHost' (s : State) (f : HostSt → HostSt) (k' : Nat) : (s.onHost f).extent k' = s.extent k' := (rfl)
@[simp] theorem die_onHost' (s : State) (f : HostSt → HostSt) (k' : Nat) : (s.onHost f).die k' = s.die k' := (rfl)
@[simp] theorem stack_onHost' (s : State) (f : HostSt → HostSt) (k' : Nat) : (s.onHost f).stack k' = s.stack k' := (rfl)
@[simp] theorem dirEnt_onHost' (s : State) (f : HostSt → HostSt) (k' : Nat) : (s.onHost f).dirEnt k' = s.dirEnt k' := (rfl)
@[simp] theorem region_onHost' (s : State) (f : HostSt → HostSt) (k' : Nat) : (s.onHost f).region k' = s.region k' := (rfl)
@[simp] theorem weaver_onHost' (s : State) (f : HostSt → HostSt) (k' : Nat) : (s.onHost f).weaver k' = s.weaver k' := (rfl)
@[simp] theorem walker_onHost' (s : State) (f : HostSt → HostSt) (k' : Nat) : (s.onHost f).walker k' = s.walker k' := (rfl)
@[simp] theorem link_onHost' (s : State) (f : HostSt → HostSt) (k' : Nat) : (s.onHost f).link k' = s.link k' := (rfl)
@[simp] theorem window_onHost' (s : State) (f : HostSt → HostSt) (k' : Nat) : (s.onHost f).window k' = s.window k' := (rfl)
@[simp] theorem group_onHost' (s : State) (f : HostSt → HostSt) (k' : Nat) : (s.onHost f).group k' = s.group k' := (rfl)
@[simp] theorem part_onPower' (s : State) (f : PowerSt → PowerSt) (k' : Nat) : (s.onPower f).part k' = s.part k' := (rfl)
@[simp] theorem extent_onPower' (s : State) (f : PowerSt → PowerSt) (k' : Nat) : (s.onPower f).extent k' = s.extent k' := (rfl)
@[simp] theorem die_onPower' (s : State) (f : PowerSt → PowerSt) (k' : Nat) : (s.onPower f).die k' = s.die k' := (rfl)
@[simp] theorem stack_onPower' (s : State) (f : PowerSt → PowerSt) (k' : Nat) : (s.onPower f).stack k' = s.stack k' := (rfl)
@[simp] theorem dirEnt_onPower' (s : State) (f : PowerSt → PowerSt) (k' : Nat) : (s.onPower f).dirEnt k' = s.dirEnt k' := (rfl)
@[simp] theorem region_onPower' (s : State) (f : PowerSt → PowerSt) (k' : Nat) : (s.onPower f).region k' = s.region k' := (rfl)
@[simp] theorem weaver_onPower' (s : State) (f : PowerSt → PowerSt) (k' : Nat) : (s.onPower f).weaver k' = s.weaver k' := (rfl)
@[simp] theorem walker_onPower' (s : State) (f : PowerSt → PowerSt) (k' : Nat) : (s.onPower f).walker k' = s.walker k' := (rfl)
@[simp] theorem link_onPower' (s : State) (f : PowerSt → PowerSt) (k' : Nat) : (s.onPower f).link k' = s.link k' := (rfl)
@[simp] theorem window_onPower' (s : State) (f : PowerSt → PowerSt) (k' : Nat) : (s.onPower f).window k' = s.window k' := (rfl)
@[simp] theorem group_onPower' (s : State) (f : PowerSt → PowerSt) (k' : Nat) : (s.onPower f).group k' = s.group k' := (rfl)
@[simp] theorem part_onCnt' (s : State) (f : CntSt → CntSt) (k' : Nat) : (s.onCnt f).part k' = s.part k' := (rfl)
@[simp] theorem extent_onCnt' (s : State) (f : CntSt → CntSt) (k' : Nat) : (s.onCnt f).extent k' = s.extent k' := (rfl)
@[simp] theorem die_onCnt' (s : State) (f : CntSt → CntSt) (k' : Nat) : (s.onCnt f).die k' = s.die k' := (rfl)
@[simp] theorem stack_onCnt' (s : State) (f : CntSt → CntSt) (k' : Nat) : (s.onCnt f).stack k' = s.stack k' := (rfl)
@[simp] theorem dirEnt_onCnt' (s : State) (f : CntSt → CntSt) (k' : Nat) : (s.onCnt f).dirEnt k' = s.dirEnt k' := (rfl)
@[simp] theorem region_onCnt' (s : State) (f : CntSt → CntSt) (k' : Nat) : (s.onCnt f).region k' = s.region k' := (rfl)
@[simp] theorem weaver_onCnt' (s : State) (f : CntSt → CntSt) (k' : Nat) : (s.onCnt f).weaver k' = s.weaver k' := (rfl)
@[simp] theorem walker_onCnt' (s : State) (f : CntSt → CntSt) (k' : Nat) : (s.onCnt f).walker k' = s.walker k' := (rfl)
@[simp] theorem link_onCnt' (s : State) (f : CntSt → CntSt) (k' : Nat) : (s.onCnt f).link k' = s.link k' := (rfl)
@[simp] theorem window_onCnt' (s : State) (f : CntSt → CntSt) (k' : Nat) : (s.onCnt f).window k' = s.window k' := (rfl)
@[simp] theorem group_onCnt' (s : State) (f : CntSt → CntSt) (k' : Nat) : (s.onCnt f).group k' = s.group k' := (rfl)
@[simp] theorem part_onRst' (s : State) (f : ResetSt → ResetSt) (k' : Nat) : (s.onRst f).part k' = s.part k' := (rfl)
@[simp] theorem extent_onRst' (s : State) (f : ResetSt → ResetSt) (k' : Nat) : (s.onRst f).extent k' = s.extent k' := (rfl)
@[simp] theorem die_onRst' (s : State) (f : ResetSt → ResetSt) (k' : Nat) : (s.onRst f).die k' = s.die k' := (rfl)
@[simp] theorem stack_onRst' (s : State) (f : ResetSt → ResetSt) (k' : Nat) : (s.onRst f).stack k' = s.stack k' := (rfl)
@[simp] theorem dirEnt_onRst' (s : State) (f : ResetSt → ResetSt) (k' : Nat) : (s.onRst f).dirEnt k' = s.dirEnt k' := (rfl)
@[simp] theorem region_onRst' (s : State) (f : ResetSt → ResetSt) (k' : Nat) : (s.onRst f).region k' = s.region k' := (rfl)
@[simp] theorem weaver_onRst' (s : State) (f : ResetSt → ResetSt) (k' : Nat) : (s.onRst f).weaver k' = s.weaver k' := (rfl)
@[simp] theorem walker_onRst' (s : State) (f : ResetSt → ResetSt) (k' : Nat) : (s.onRst f).walker k' = s.walker k' := (rfl)
@[simp] theorem link_onRst' (s : State) (f : ResetSt → ResetSt) (k' : Nat) : (s.onRst f).link k' = s.link k' := (rfl)
@[simp] theorem window_onRst' (s : State) (f : ResetSt → ResetSt) (k' : Nat) : (s.onRst f).window k' = s.window k' := (rfl)
@[simp] theorem group_onRst' (s : State) (f : ResetSt → ResetSt) (k' : Nat) : (s.onRst f).group k' = s.group k' := (rfl)
@[simp] theorem part_emit' (s : State) (o : Out) (k' : Nat) : (s.emit o).part k' = s.part k' := (rfl)
@[simp] theorem extent_emit' (s : State) (o : Out) (k' : Nat) : (s.emit o).extent k' = s.extent k' := (rfl)
@[simp] theorem die_emit' (s : State) (o : Out) (k' : Nat) : (s.emit o).die k' = s.die k' := (rfl)
@[simp] theorem stack_emit' (s : State) (o : Out) (k' : Nat) : (s.emit o).stack k' = s.stack k' := (rfl)
@[simp] theorem dirEnt_emit' (s : State) (o : Out) (k' : Nat) : (s.emit o).dirEnt k' = s.dirEnt k' := (rfl)
@[simp] theorem region_emit' (s : State) (o : Out) (k' : Nat) : (s.emit o).region k' = s.region k' := (rfl)
@[simp] theorem weaver_emit' (s : State) (o : Out) (k' : Nat) : (s.emit o).weaver k' = s.weaver k' := (rfl)
@[simp] theorem walker_emit' (s : State) (o : Out) (k' : Nat) : (s.emit o).walker k' = s.walker k' := (rfl)
@[simp] theorem link_emit' (s : State) (o : Out) (k' : Nat) : (s.emit o).link k' = s.link k' := (rfl)
@[simp] theorem window_emit' (s : State) (o : Out) (k' : Nat) : (s.emit o).window k' = s.window k' := (rfl)
@[simp] theorem group_emit' (s : State) (o : Out) (k' : Nat) : (s.emit o).group k' = s.group k' := (rfl)
@[simp] theorem part_onPool' (s : State) (h : Nat) (f : BlockPool → BlockPool) (k' : Nat) : (s.onPool h f).part k' = s.part k' := by simp only [State.onPool]; split <;> rfl
@[simp] theorem extent_onPool' (s : State) (h : Nat) (f : BlockPool → BlockPool) (k' : Nat) : (s.onPool h f).extent k' = s.extent k' := by simp only [State.onPool]; split <;> rfl
@[simp] theorem die_onPool' (s : State) (h : Nat) (f : BlockPool → BlockPool) (k' : Nat) : (s.onPool h f).die k' = s.die k' := by simp only [State.onPool]; split <;> rfl
@[simp] theorem stack_onPool' (s : State) (h : Nat) (f : BlockPool → BlockPool) (k' : Nat) : (s.onPool h f).stack k' = s.stack k' := by simp only [State.onPool]; split <;> rfl
@[simp] theorem dirEnt_onPool' (s : State) (h : Nat) (f : BlockPool → BlockPool) (k' : Nat) : (s.onPool h f).dirEnt k' = s.dirEnt k' := by simp only [State.onPool]; split <;> rfl
@[simp] theorem region_onPool' (s : State) (h : Nat) (f : BlockPool → BlockPool) (k' : Nat) : (s.onPool h f).region k' = s.region k' := by simp only [State.onPool]; split <;> rfl
@[simp] theorem weaver_onPool' (s : State) (h : Nat) (f : BlockPool → BlockPool) (k' : Nat) : (s.onPool h f).weaver k' = s.weaver k' := by simp only [State.onPool]; split <;> rfl
@[simp] theorem walker_onPool' (s : State) (h : Nat) (f : BlockPool → BlockPool) (k' : Nat) : (s.onPool h f).walker k' = s.walker k' := by simp only [State.onPool]; split <;> rfl
@[simp] theorem link_onPool' (s : State) (h : Nat) (f : BlockPool → BlockPool) (k' : Nat) : (s.onPool h f).link k' = s.link k' := by simp only [State.onPool]; split <;> rfl
@[simp] theorem window_onPool' (s : State) (h : Nat) (f : BlockPool → BlockPool) (k' : Nat) : (s.onPool h f).window k' = s.window k' := by simp only [State.onPool]; split <;> rfl
@[simp] theorem group_onPool' (s : State) (h : Nat) (f : BlockPool → BlockPool) (k' : Nat) : (s.onPool h f).group k' = s.group k' := by simp only [State.onPool]; split <;> rfl
@[simp] theorem part_onHalf' (s : State) (h : Nat) (f : HalfSt → HalfSt) (k' : Nat) : (s.onHalf h f).part k' = s.part k' := by simp only [State.onHalf]; split <;> rfl
@[simp] theorem extent_onHalf' (s : State) (h : Nat) (f : HalfSt → HalfSt) (k' : Nat) : (s.onHalf h f).extent k' = s.extent k' := by simp only [State.onHalf]; split <;> rfl
@[simp] theorem die_onHalf' (s : State) (h : Nat) (f : HalfSt → HalfSt) (k' : Nat) : (s.onHalf h f).die k' = s.die k' := by simp only [State.onHalf]; split <;> rfl
@[simp] theorem stack_onHalf' (s : State) (h : Nat) (f : HalfSt → HalfSt) (k' : Nat) : (s.onHalf h f).stack k' = s.stack k' := by simp only [State.onHalf]; split <;> rfl
@[simp] theorem dirEnt_onHalf' (s : State) (h : Nat) (f : HalfSt → HalfSt) (k' : Nat) : (s.onHalf h f).dirEnt k' = s.dirEnt k' := by simp only [State.onHalf]; split <;> rfl
@[simp] theorem region_onHalf' (s : State) (h : Nat) (f : HalfSt → HalfSt) (k' : Nat) : (s.onHalf h f).region k' = s.region k' := by simp only [State.onHalf]; split <;> rfl
@[simp] theorem weaver_onHalf' (s : State) (h : Nat) (f : HalfSt → HalfSt) (k' : Nat) : (s.onHalf h f).weaver k' = s.weaver k' := by simp only [State.onHalf]; split <;> rfl
@[simp] theorem walker_onHalf' (s : State) (h : Nat) (f : HalfSt → HalfSt) (k' : Nat) : (s.onHalf h f).walker k' = s.walker k' := by simp only [State.onHalf]; split <;> rfl
@[simp] theorem link_onHalf' (s : State) (h : Nat) (f : HalfSt → HalfSt) (k' : Nat) : (s.onHalf h f).link k' = s.link k' := by simp only [State.onHalf]; split <;> rfl
@[simp] theorem window_onHalf' (s : State) (h : Nat) (f : HalfSt → HalfSt) (k' : Nat) : (s.onHalf h f).window k' = s.window k' := by simp only [State.onHalf]; split <;> rfl
@[simp] theorem group_onHalf' (s : State) (h : Nat) (f : HalfSt → HalfSt) (k' : Nat) : (s.onHalf h f).group k' = s.group k' := by simp only [State.onHalf]; split <;> rfl
@[simp] theorem part_onStake' (s : State) (k : Nat) (f : Stake → Stake) (k' : Nat) : (s.onStake k f).part k' = s.part k' := by simp only [State.onStake]; split <;> rfl
@[simp] theorem extent_onStake' (s : State) (k : Nat) (f : Stake → Stake) (k' : Nat) : (s.onStake k f).extent k' = s.extent k' := by simp only [State.onStake]; split <;> rfl
@[simp] theorem die_onStake' (s : State) (k : Nat) (f : Stake → Stake) (k' : Nat) : (s.onStake k f).die k' = s.die k' := by simp only [State.onStake]; split <;> rfl
@[simp] theorem stack_onStake' (s : State) (k : Nat) (f : Stake → Stake) (k' : Nat) : (s.onStake k f).stack k' = s.stack k' := by simp only [State.onStake]; split <;> rfl
@[simp] theorem dirEnt_onStake' (s : State) (k : Nat) (f : Stake → Stake) (k' : Nat) : (s.onStake k f).dirEnt k' = s.dirEnt k' := by simp only [State.onStake]; split <;> rfl
@[simp] theorem region_onStake' (s : State) (k : Nat) (f : Stake → Stake) (k' : Nat) : (s.onStake k f).region k' = s.region k' := by simp only [State.onStake]; split <;> rfl
@[simp] theorem weaver_onStake' (s : State) (k : Nat) (f : Stake → Stake) (k' : Nat) : (s.onStake k f).weaver k' = s.weaver k' := by simp only [State.onStake]; split <;> rfl
@[simp] theorem walker_onStake' (s : State) (k : Nat) (f : Stake → Stake) (k' : Nat) : (s.onStake k f).walker k' = s.walker k' := by simp only [State.onStake]; split <;> rfl
@[simp] theorem link_onStake' (s : State) (k : Nat) (f : Stake → Stake) (k' : Nat) : (s.onStake k f).link k' = s.link k' := by simp only [State.onStake]; split <;> rfl
@[simp] theorem window_onStake' (s : State) (k : Nat) (f : Stake → Stake) (k' : Nat) : (s.onStake k f).window k' = s.window k' := by simp only [State.onStake]; split <;> rfl
@[simp] theorem group_onStake' (s : State) (k : Nat) (f : Stake → Stake) (k' : Nat) : (s.onStake k f).group k' = s.group k' := by simp only [State.onStake]; split <;> rfl
@[simp] theorem part_onLease' (s : State) (k : Nat) (f : Lease → Lease) (k' : Nat) : (s.onLease k f).part k' = s.part k' := by simp only [State.onLease]; split <;> rfl
@[simp] theorem extent_onLease' (s : State) (k : Nat) (f : Lease → Lease) (k' : Nat) : (s.onLease k f).extent k' = s.extent k' := by simp only [State.onLease]; split <;> rfl
@[simp] theorem die_onLease' (s : State) (k : Nat) (f : Lease → Lease) (k' : Nat) : (s.onLease k f).die k' = s.die k' := by simp only [State.onLease]; split <;> rfl
@[simp] theorem stack_onLease' (s : State) (k : Nat) (f : Lease → Lease) (k' : Nat) : (s.onLease k f).stack k' = s.stack k' := by simp only [State.onLease]; split <;> rfl
@[simp] theorem dirEnt_onLease' (s : State) (k : Nat) (f : Lease → Lease) (k' : Nat) : (s.onLease k f).dirEnt k' = s.dirEnt k' := by simp only [State.onLease]; split <;> rfl
@[simp] theorem region_onLease' (s : State) (k : Nat) (f : Lease → Lease) (k' : Nat) : (s.onLease k f).region k' = s.region k' := by simp only [State.onLease]; split <;> rfl
@[simp] theorem weaver_onLease' (s : State) (k : Nat) (f : Lease → Lease) (k' : Nat) : (s.onLease k f).weaver k' = s.weaver k' := by simp only [State.onLease]; split <;> rfl
@[simp] theorem walker_onLease' (s : State) (k : Nat) (f : Lease → Lease) (k' : Nat) : (s.onLease k f).walker k' = s.walker k' := by simp only [State.onLease]; split <;> rfl
@[simp] theorem link_onLease' (s : State) (k : Nat) (f : Lease → Lease) (k' : Nat) : (s.onLease k f).link k' = s.link k' := by simp only [State.onLease]; split <;> rfl
@[simp] theorem window_onLease' (s : State) (k : Nat) (f : Lease → Lease) (k' : Nat) : (s.onLease k f).window k' = s.window k' := by simp only [State.onLease]; split <;> rfl
@[simp] theorem group_onLease' (s : State) (k : Nat) (f : Lease → Lease) (k' : Nat) : (s.onLease k f).group k' = s.group k' := by simp only [State.onLease]; split <;> rfl

@[simp] theorem half_onHalf_self (s : State) (h : Nat) (f : HalfSt → HalfSt) : (s.onHalf h f).half h = f (s.half h) := by
  unfold State.onHalf State.half; split <;> simp_all
@[simp] theorem pool_onPool_self (s : State) (h : Nat) (f : BlockPool → BlockPool) :
    (s.onPool h f).pool h = f (s.pool h) := by
  unfold State.onPool State.pool; split <;> simp_all
@[simp] theorem stake_onStake_self (s : State) (k : Nat) (f : Stake → Stake) : (s.onStake k f).stake k = f (s.stake k) := by
  unfold State.onStake State.stake; split <;> simp_all
@[simp] theorem lease_onLease_self (s : State) (k : Nat) (f : Lease → Lease) : (s.onLease k f).lease k = f (s.lease k) := by
  unfold State.onLease State.lease; split <;> simp_all
@[simp] theorem takeId_fst (s : State) : s.takeId.1 = s.nextId := (rfl)
@[simp] theorem takeId_nextId (s : State) : s.takeId.2.nextId = s.nextId + 1 := (rfl)
@[simp] theorem takeFree_fst (s : State) : s.takeFree.1 = s.free := (rfl)
@[simp] theorem takeFree_free (s : State) : s.takeFree.2.free = s.free + 1 := (rfl)

end Sys2Proof.Machine
end

