-- ==== Sys2Proof/Laws/Issue.lean ====
section
/-! SUPPORT. What issuing and retiring an instruction do. -/
namespace Sys2Proof.Machine

theorem OnlyRun.refl (s : State) (w : Nat) : OnlyRun s s w := ⟨fun _ _ => rfl, rfl, fun _ => rfl, rfl⟩
theorem OnlyRun.trans {s t u : State} {w : Nat} (h : OnlyRun s t w) (k : OnlyRun t u w) : OnlyRun s u w :=
  ⟨fun v hv => (k.1 v hv).trans (h.1 v hv), k.2.1.trans h.2.1, fun p => (k.2.2.1 p).trans (h.2.2.1 p), k.2.2.2.trans h.2.2.2⟩

theorem onWeaver_only (s : State) (w : Nat) (f : Weaver → Weaver) (h : ∀ x, (f x).steady = x.steady) : OnlyRun s (s.onWeaver w f) w :=
  ⟨fun v hv => by simp [hv], by simp [h], fun _ => rfl, rfl⟩

theorem onPart_only (s : State) (w p : Nat) (f : Partition → Partition) (h : ∀ x, (f x).steady = x.steady) :
    OnlyRun s (s.onPart p f) w :=
  ⟨fun _ _ => rfl, rfl, fun q => by by_cases hq : q = p <;> simp [hq, h], rfl⟩

theorem onRun_only (s : State) (w : Nat) (f : Run → Run) : OnlyRun s (s.onRun w f) w := onWeaver_only s w _ fun _ => rfl
theorem onRun_run {s : State} {w : Nat} {x : Run} (h : (s.weaver w).run = some x) (f : Run → Run) :
    ((s.onRun w f).weaver w).run = some (f x) := by simp [State.onRun, h]

theorem countOf_only (s : State) (w p k n : Nat) : OnlyRun s (s.countOf p k n) w := onPart_only s w p _ fun _ => rfl
theorem countOf_weaver (s : State) (v p k n : Nat) : (s.countOf p k n).weaver v = s.weaver v := rfl
theorem ownerEvent_only (s : State) (w p code : Nat) (level : Bool) (n : Nat) : OnlyRun s (s.ownerEvent p code level n) w := by
  unfold State.ownerEvent
  split
  · exact OnlyRun.refl s w
  · exact onPart_only s w p _ fun _ => rfl
theorem ownerEvent_weaver (s : State) (v p code : Nat) (level : Bool) (n : Nat) : (s.ownerEvent p code level n).weaver v = s.weaver v := by
  unfold State.ownerEvent
  split <;> rfl

theorem levels_only (s : State) (w p sid n : Nat) : OnlyRun s (s.levels p sid n) w := by
  have h : ∀ (c : Bool) (a : State) (code : Nat), OnlyRun s a w → OnlyRun s (if c then a.ownerEvent p code true n else a) w := by
    intro c a code k
    split
    · exact k.trans (ownerEvent_only _ _ _ _ _ _)
    · exact k
  exact h _ _ _ (h _ _ _ (h _ _ _ (ownerEvent_only _ _ _ _ _ _)))
theorem levels_weaver (s : State) (v p sid n : Nat) : (s.levels p sid n).weaver v = s.weaver v := by
  have h : ∀ (c : Bool) (a : State) (code : Nat), a.weaver v = s.weaver v → (if c then a.ownerEvent p code true n else a).weaver v = s.weaver v := by
    intro c a code k
    split
    · exact (ownerEvent_weaver _ _ _ _ _ _).trans k
    · exact k
  exact h _ _ _ (h _ _ _ (h _ _ _ (ownerEvent_weaver _ _ _ _ _ _)))

theorem slots_only (s : State) (w p a b c d : Nat) : OnlyRun s (s.slots w p a b c d) w := by
  unfold State.slots
  dsimp only
  refine OnlyRun.trans ?_ (countOf_only _ w _ _ _)
  refine OnlyRun.trans ?_ (countOf_only _ w _ _ _)
  refine OnlyRun.trans ?_ (countOf_only _ w _ _ _)
  refine OnlyRun.trans ?_ (countOf_only _ w _ _ _)
  refine OnlyRun.trans ?_ (onWeaver_only _ w _ fun _ => rfl)
  exact onPart_only s w p _ fun _ => rfl
theorem slots_run (s : State) (w p a b c d : Nat) : ((s.slots w p a b c d).weaver w).run = (s.weaver w).run := by
  simp [State.slots, countOf_weaver]

theorem spend_only (s : State) (w a b c d : Nat) : OnlyRun s (s.spend w a b c d) w := by
  unfold State.spend
  split
  · exact OnlyRun.refl s w
  · exact ((onRun_only s w _).trans (slots_only _ w _ _ _ _ _)).trans (levels_only _ w _ _ _)

/-- Spending cycles moves the run's cycle. -/
theorem spend_run {s : State} {w : Nat} {x : Run} (h : (s.weaver w).run = some x) (a b c d : Nat) :
    ((s.spend w a b c d).weaver w).run = some (x.at_ (x.cyc + (a + b + c + d))) := by
  unfold State.spend
  rw [h]
  dsimp only
  rw [levels_weaver, slots_run, onRun_run h]
  rfl

theorem sampleTag_only (s : State) (w p op word handle : Nat) (gf : Bool) : OnlyRun s (s.sampleTag w p op word handle gf) w := by
  have h : ∀ f, OnlyRun s { s with free := f } w := fun f => ⟨fun _ _ => rfl, rfl, fun _ => rfl, rfl⟩
  unfold State.sampleTag
  dsimp only
  split
  · exact OnlyRun.refl s w
  · split
    · exact h _
    · split
      · exact (h _).trans (countOf_only _ w _ _ _)
      · exact (h _).trans (onWeaver_only _ w _ fun _ => rfl)
theorem sampleTag_run (s : State) (w p op word handle : Nat) (gf : Bool) :
    ((s.sampleTag w p op word handle gf).weaver w).run = (s.weaver w).run := by
  unfold State.sampleTag
  dsimp only
  split
  · rfl
  · split
    · rfl
    · split
      · rfl
      · simp
        rfl

/-- What a run waits for lies at its present cycle or later. -/
theorem ready_le {x : Run} {uses : List Nat} {a : Nat} (h : x.ready uses = some a) : x.cyc ≤ a := by
  have k : ∀ (l : List Nat) (n : Nat), n ≤ l.foldl (fun t u => max t (x.rdy.look 0 u)) n := by
    intro l
    induction l with
    | nil => exact fun n => Nat.le_refl n
    | cons k l ih => exact fun n => Nat.le_trans (Nat.le_max_left _ _) (ih _)
  simp only [Run.ready, Option.ite_none_left_eq_some, Option.some.injEq] at h
  rw [← h.2]
  exact k _ _

/-- An instruction that issues has its effect on the state whose run stands at the cycle of issue. -/
theorem tryIssue_goes {s : State} {w op : Nat} {f : Fields} {skip : Nat} {uses : List Nat} {ready : State → Run → Option Nat}
    {x : Run} {t : Nat} (h : Issues s w op f uses ready x t) (body : State → Run → State) :
    ∃ u, s.tryIssue w op f skip uses ready body = body u (x.at_ t) ∧ (u.weaver w).run = some (x.at_ t) ∧ OnlyRun s u w := by
  obtain ⟨h1, h2, h3, h4, h5⟩ := h
  unfold issueCycle at h4
  split at h4
  · next a b c ha hb hc =>
    cases h4
    refine ⟨(s.spend w 0 0 0 (max a (max b c) - x.cyc)).sampleTag w x.s.part op x.pc x.s.handle false, ?_, ?_, ?_⟩
    · unfold State.tryIssue
      rw [h1]
      simp only [h2, h3, ha, hb, hc, Bool.not_true, Bool.false_eq_true, if_false]
      rw [if_neg (by omega)]
      rfl
    · have hx : x.cyc ≤ max a (max b c) := by
        have := ready_le ha
        omega
      rw [sampleTag_run, spend_run h1]
      congr 2
      omega
    · exact (spend_only s w _ _ _ _).trans (sampleTag_only _ w _ _ _ _ _)
  · cases h4

/-- Going on at a word that lies within the code. -/
theorem goTo_goes {s : State} {w pc : Nat} {x : Run} (h : (s.weaver w).run = some x)
    (hr : (loopStep x.loops pc).2 < x.s.img.code.length) :
    ((s.goTo w pc).weaver w).run = some { x with lastIssued := x.pc, loops := (loopStep x.loops pc).1, pc := (loopStep x.loops pc).2 } ∧
    OnlyRun s (s.goTo w pc) w := by
  have hx := onRun_run h (fun x => { x with lastIssued := x.pc, loops := (loopStep x.loops pc).1, pc := (loopStep x.loops pc).2 })
  have hp : s.goTo w pc = s.onRun w (fun x => { x with lastIssued := x.pc, loops := (loopStep x.loops pc).1, pc := (loopStep x.loops pc).2 }) := by
    unfold State.goTo
    dsimp only
    unfold State.pastEnd
    rw [hx]
    dsimp only
    rw [if_neg]
    simp
    omega
  rw [hp]
  exact ⟨hx, onRun_only s w _⟩

/-- An instruction that retires. -/
theorem retire_goes {s : State} {w cost len : Nat} {x y : Run} {t : Nat} (h : (s.weaver w).run = some y) (hc : y.cyc = t)
    (hp : y.pc = x.pc) (hl : y.loops = x.loops) (hs : y.s.img = x.s.img) (hr : x.room len) :
    ((s.retire w cost len).weaver w).run = some (x.next y t cost len) ∧ OnlyRun s (s.retire w cost len) w := by
  have h1 := spend_run h cost 0 0 0
  have e : s.retire w cost len = (s.spend w cost 0 0 0).goTo w (y.pc + len) := by
    unfold State.retire
    rw [h]
  have h2 := goTo_goes (pc := y.pc + len) h1 (by
    show (loopStep y.loops (y.pc + len)).2 < y.s.img.code.length
    rw [hl, hp, hs]
    exact hr)
  rw [e]
  refine ⟨h2.1.trans ?_, (spend_only s w _ _ _ _).trans h2.2⟩
  simp only [Run.next, Run.at_, hp, hl, hc, Nat.add_zero]

/-- An instruction whose effect on the run is `put` and which then retires. -/
theorem put_retire_goes {s u : State} {w cost len : Nat} {x : Run} {t : Nat} {put : Run → Run} (h : (u.weaver w).run = some (x.at_ t))
    (ho : OnlyRun s u w) (hp : (put (x.at_ t)).cyc = t ∧ (put (x.at_ t)).pc = x.pc ∧ (put (x.at_ t)).loops = x.loops ∧
      (put (x.at_ t)).s.img = x.s.img) (hr : x.room len) :
    (((u.onRun w put).retire w cost len).weaver w).run = some (x.next (put (x.at_ t)) t cost len) ∧
    OnlyRun s ((u.onRun w put).retire w cost len) w := by
  have k := retire_goes (cost := cost) (onRun_run h put) hp.1 hp.2.1 hp.2.2.1 hp.2.2.2 hr
  exact ⟨k.1, (ho.trans (onRun_only u w put)).trans k.2⟩

end Sys2Proof.Machine
end

