-- ==== Sys2Proof/Laws/Blurik.lean ====
section
/-! SUPPORT. Where a Blurik instruction that only changes its run completes. -/
namespace Sys2Proof.Machine

/-- A change of a run that leaves its cycle, word, loops and image as they were. -/
def Plain (y z : Run) : Prop := y.cyc = z.cyc ∧ y.pc = z.pc ∧ y.loops = z.loops ∧ y.s.img = z.s.img

theorem Plain.refl (x : Run) : Plain x x := ⟨rfl, rfl, rfl, rfl⟩
theorem Plain.trans {x y z : Run} (h : Plain x y) (k : Plain y z) : Plain x z :=
  ⟨h.1.trans k.1, h.2.1.trans k.2.1, h.2.2.1.trans k.2.2.1, h.2.2.2.trans k.2.2.2⟩
theorem putG_plain (x : Run) (i : Nat) (v : U64) (lat : Nat) : Plain (x.putG i v lat) x := by
  unfold Run.putG Run.setGr
  split <;> exact ⟨rfl, rfl, rfl, rfl⟩
theorem putV_plain (x : Run) (i : Nat) (v : V512) (lat : Nat) : Plain (x.putV i v lat) x := ⟨rfl, rfl, rfl, rfl⟩
theorem putP_plain (x : Run) (i : Nat) (v : Bool) (lat : Nat) : Plain (x.putP i v lat) x := ⟨rfl, rfl, rfl, rfl⟩
theorem sput_plain (x : Run) (a : Nat) (bs : List Byte) : Plain (x.sput a bs) x := ⟨rfl, rfl, rfl, rfl⟩
theorem unpoison_plain (x : Run) (a n : Nat) : Plain (x.unpoison a n) x := ⟨rfl, rfl, rfl, rfl⟩
theorem awaitG_plain (x : Run) (i : Nat) : Plain (x.awaitG i) x := by
  unfold Run.awaitG
  split <;> exact ⟨rfl, rfl, rfl, rfl⟩

/-- An instruction whose body, at the cycle of issue, changes the run by `put` and retires. -/
theorem issue_put {s : State} {w op : Nat} {f : Fields} {skip : Nat} {uses : List Nat} {ready : State → Run → Option Nat}
    {x : Run} {t cost len : Nat} {body : State → Run → State} {put : Run → Run} {z : Run} (h : Issues s w op f uses ready x t)
    (hr : x.room len) (hb : ∀ u, body u (x.at_ t) = (u.onRun w put).retire w cost len) (hz : put (x.at_ t) = z) (hp : Plain z (x.at_ t)) :
    Goes (ok (s.tryIssue w op f skip uses ready body))
      (fun u => (u.weaver w).run = some (x.next z t cost len) ∧ OnlyRun s u w) := by
  subst hz
  obtain ⟨u, h1, h2, h3⟩ := tryIssue_goes h body (skip := skip)
  refine ⟨_, rfl, ?_⟩
  rw [h1, hb]
  exact put_retire_goes h2 h3 ⟨hp.1, hp.2.1, hp.2.2.1, hp.2.2.2⟩ hr

/-- The wait of an instruction matters for its own run alone. -/
theorem Issues.wait {s : State} {w op : Nat} {f : Fields} {uses : List Nat} {ready ready' : State → Run → Option Nat} {x : Run} {t : Nat}
    (h : Issues s w op f uses ready x t) (e : ready' s x = ready s x) : Issues s w op f uses ready' x t := by
  obtain ⟨h1, h2, h3, h4, h5⟩ := h
  refine ⟨h1, h2, h3, ?_, h5⟩
  rw [← h4]
  unfold issueCycle
  rw [e]

/-- An instruction that issues, with its body at the cycle of issue. -/
theorem issue_to {s : State} {w op : Nat} {f : Fields} {skip : Nat} {uses : List Nat} {ready : State → Run → Option Nat}
    {x : Run} {t : Nat} {body after : State → Run → State} (h : Issues s w op f uses ready x t)
    (hb : ∀ u, body u (x.at_ t) = after u (x.at_ t)) :
    ∃ u, (u.weaver w).run = some (x.at_ t) ∧ OnlyRun s u w ∧
      (ok (s.tryIssue w op f skip uses ready body) : Host.Outcome State Fault Refusal) = .next (after u (x.at_ t)) := by
  obtain ⟨u, h1, h2, h3⟩ := tryIssue_goes h body (skip := skip)
  exact ⟨u, h2, h3, by rw [h1, hb]; rfl⟩

/-! ### The shared operations -/

theorem sload_goes {s : State} {w op : Nat} {f : Fields} {dst n align : Nat} {put : Run → List Byte → Run} {x : Run} {t : Nat}
    (h : Issues s w op f [dst, f.src1.toNat] (scratchWait f n align) x t) (hi : x.inScratch (saddr x f) n align = true)
    (hp : x.poisoned (saddr x f) n = false) (hr : x.room 1)
    (hq : Plain (put (x.at_ t) (x.sbytes (saddr x f) n)) (x.at_ t)) :
    Goes (ok (s.sload w op f dst n align put))
      (fun u => (u.weaver w).run = some (x.next (put (x.at_ t) (x.sbytes (saddr x f) n)) t 1 1) ∧ OnlyRun s u w) := by
  refine issue_put (put := fun y => put y (x.sbytes (saddr x f) n)) h hr (fun u => ?_) rfl hq
  show (if !x.inScratch (saddr x f) n align then u.faultRun w .range
    else if x.poisoned (saddr x f) n then u.faultRun w .poison
    else (u.onRun w (fun y => put y (x.sbytes (saddr x f) n))).retire w 1 1) = _
  rw [hi, hp]
  rfl

theorem sload_range {s : State} {w op : Nat} {f : Fields} {dst n align : Nat} {put : Run → List Byte → Run} {x : Run} {t : Nat}
    (h : Issues s w op f [dst, f.src1.toNat] (scratchWait f n align) x t) (hi : x.inScratch (saddr x f) n align = false) :
    ∃ u, (u.weaver w).run = some (x.at_ t) ∧ OnlyRun s u w ∧ ok (s.sload w op f dst n align put) = .next (u.faultRun w .range) := by
  refine issue_to (after := fun u _ => u.faultRun w .range) h fun u => ?_
  show (if !x.inScratch (saddr x f) n align then u.faultRun w .range else _) = _
  rw [hi]
  rfl

theorem sload_poison {s : State} {w op : Nat} {f : Fields} {dst n align : Nat} {put : Run → List Byte → Run} {x : Run} {t : Nat}
    (h : Issues s w op f [dst, f.src1.toNat] (scratchWait f n align) x t) (hi : x.inScratch (saddr x f) n align = true)
    (hp : x.poisoned (saddr x f) n = true) :
    ∃ u, (u.weaver w).run = some (x.at_ t) ∧ OnlyRun s u w ∧ ok (s.sload w op f dst n align put) = .next (u.faultRun w .poison) := by
  refine issue_to (after := fun u _ => u.faultRun w .poison) h fun u => ?_
  show (if !x.inScratch (saddr x f) n align then u.faultRun w .range
    else if x.poisoned (saddr x f) n then u.faultRun w .poison else _) = _
  rw [hi, hp]
  rfl

theorem sstore_goes {s : State} {w op : Nat} {f : Fields} {src n align : Nat} {whole : Bool} {bytes : Run → List Byte} {x : Run} {t : Nat}
    (h : Issues s w op f [src, f.src1.toNat] (scratchWait f n align) x t) (hi : x.inScratch (saddr x f) n align = true) (hr : x.room 1) :
    Goes (ok (s.sstore w op f src n align whole bytes))
      (fun u => (u.weaver w).run = some (x.next (if whole then ((x.at_ t).sput (saddr x f) (bytes (x.at_ t))).unpoison (saddr x f) n
        else (x.at_ t).sput (saddr x f) (bytes (x.at_ t))) t 1 1) ∧ OnlyRun s u w) := by
  refine issue_put (put := fun y => if whole then (y.sput (saddr x f) (bytes (x.at_ t))).unpoison (saddr x f) n
    else y.sput (saddr x f) (bytes (x.at_ t))) h hr (fun u => ?_) rfl ?_
  · show (if !x.inScratch (saddr x f) n align then u.faultRun w .range else _) = _
    rw [hi]
    rfl
  · cases whole <;> exact ⟨rfl, rfl, rfl, rfl⟩

theorem sstore_range {s : State} {w op : Nat} {f : Fields} {src n align : Nat} {whole : Bool} {bytes : Run → List Byte} {x : Run} {t : Nat}
    (h : Issues s w op f [src, f.src1.toNat] (scratchWait f n align) x t) (hi : x.inScratch (saddr x f) n align = false) :
    ∃ u, (u.weaver w).run = some (x.at_ t) ∧ OnlyRun s u w ∧ ok (s.sstore w op f src n align whole bytes) = .next (u.faultRun w .range) := by
  refine issue_to (after := fun u _ => u.faultRun w .range) h fun u => ?_
  show (if !x.inScratch (saddr x f) n align then u.faultRun w .range else _) = _
  rw [hi]
  rfl

theorem vop_goes {s : State} {w op : Nat} {f : Fields} {two : Bool} {cost lat : Nat} {g : Run → V512 × U64} {x : Run} {t : Nat}
    (h : Issues s w op f ([vreg f.dst.toNat, vreg f.src1.toNat] ++ if two then [vreg f.src2.toNat] else []) noWait x t) (hr : x.room 1) :
    Goes (ok (s.vop w op f two cost lat g))
      (fun u => (u.weaver w).run = some (x.next { (x.at_ t).putV f.dst.toNat (g (x.at_ t)).1 lat with rng := (g (x.at_ t)).2 } t cost 1) ∧
        OnlyRun s u w) :=
  issue_put (put := fun y => { y.putV f.dst.toNat (g (x.at_ t)).1 lat with rng := (g (x.at_ t)).2 }) h hr (fun _ => rfl) rfl
    ⟨rfl, rfl, rfl, rfl⟩

theorem vpure_goes {s : State} {w op : Nat} {f : Fields} {two : Bool} {cost lat : Nat} {g : Run → V512} {x : Run} {t : Nat}
    (h : Issues s w op f ([vreg f.dst.toNat, vreg f.src1.toNat] ++ if two then [vreg f.src2.toNat] else []) noWait x t) (hr : x.room 1) :
    Goes (ok (s.vpure w op f two cost lat g))
      (fun u => (u.weaver w).run = some (x.next ((x.at_ t).putV f.dst.toNat (g (x.at_ t)) lat) t cost 1) ∧ OnlyRun s u w) :=
  vop_goes h hr

/-- An array instruction marks the run where the duty is below 16/16 (R263). -/
theorem arrayUse_run {s : State} {w p cycles : Nat} {x : Run} (h : (s.weaver w).run = some x) :
    ((s.arrayUse w p cycles).weaver w).run = some { x with slowed := x.slowed || decide (s.power.duty < 16) } ∧
    OnlyRun s (s.arrayUse w p cycles) w := by
  have h1 : (((s.ownerEvent p 0x006 false 1).ownerEvent p 0x006 true cycles).weaver w).run = some x := by
    rw [ownerEvent_weaver, ownerEvent_weaver, h]
  have h2 := (ownerEvent_only s w p 0x006 false 1).trans (ownerEvent_only _ w p 0x006 true cycles)
  have h3 : ((s.ownerEvent p 0x006 false 1).ownerEvent p 0x006 true cycles).power = s.power := by
    have := congrArg State.power h2.2.2.2
    exact this
  unfold State.arrayUse
  dsimp only
  rw [h3]
  split
  · next hd => exact ⟨by rw [onRun_run h1]; simp [hd], h2.trans (onRun_only _ w _)⟩
  · next hd => exact ⟨by rw [h1]; simp [hd], h2⟩

end Sys2Proof.Machine
end

