-- ==== Sys2Proof/Laws/Gauge/Base.lean ====
section
/-! SUPPORT. The updates of the state that leave the gauge as it was. -/
namespace Sys2Proof.Machine

@[simp] theorem onPart_gauge (s : State) (p : Nat) (f : Partition → Partition) : (s.onPart p f).gauge = s.gauge := (rfl)
@[simp] theorem onExtent_gauge (s : State) (e : Nat) (f : Extent → Extent) : (s.onExtent e f).gauge = s.gauge := (rfl)
@[simp] theorem onDie_gauge (s : State) (d : Nat) (f : DieSt → DieSt) : (s.onDie d f).gauge = s.gauge := (rfl)
@[simp] theorem onStack_gauge (s : State) (n : Nat) (f : StackSt → StackSt) : (s.onStack n f).gauge = s.gauge := (rfl)
@[simp] theorem onBank_gauge (s : State) (b : BankId) (f : Bank → Bank) : (s.onBank b f).gauge = s.gauge := (rfl)
@[simp] theorem onDir_gauge (s : State) (l : Nat) (f : DirEnt → DirEnt) : (s.onDir l f).gauge = s.gauge := (rfl)
@[simp] theorem onRegion_gauge (s : State) (r : Nat) (f : Region → Region) : (s.onRegion r f).gauge = s.gauge := (rfl)
@[simp] theorem onWeaver_gauge (s : State) (w : Nat) (f : Weaver → Weaver) : (s.onWeaver w f).gauge = s.gauge := (rfl)
@[simp] theorem onWalker_gauge (s : State) (k : Nat) (f : Walker → Walker) : (s.onWalker k f).gauge = s.gauge := (rfl)
@[simp] theorem onLink_gauge (s : State) (l : Nat) (f : Link → Link) : (s.onLink l f).gauge = s.gauge := (rfl)
@[simp] theorem onMem_gauge (s : State) (f : PoolMem → PoolMem) : (s.onMem f).gauge = s.gauge := (rfl)
@[simp] theorem onCtl_gauge (s : State) (f : CtlSt → CtlSt) : (s.onCtl f).gauge = s.gauge := (rfl)
@[simp] theorem onAuth_gauge (s : State) (f : AuthSt → AuthSt) : (s.onAuth f).gauge = s.gauge := (rfl)
@[simp] theorem onNet_gauge (s : State) (f : NetSt → NetSt) : (s.onNet f).gauge = s.gauge := (rfl)
@[simp] theorem onHost_gauge (s : State) (f : HostSt → HostSt) : (s.onHost f).gauge = s.gauge := (rfl)
@[simp] theorem onCnt_gauge (s : State) (f : CntSt → CntSt) : (s.onCnt f).gauge = s.gauge := (rfl)
@[simp] theorem onRst_gauge (s : State) (f : ResetSt → ResetSt) : (s.onRst f).gauge = s.gauge := (rfl)
@[simp] theorem emit_gauge (s : State) (o : Out) : (s.emit o).gauge = s.gauge := (rfl)
@[simp] theorem onPool_gauge (s : State) (h : Nat) (f : BlockPool → BlockPool) : (s.onPool h f).gauge = s.gauge := by simp only [State.onPool]; split <;> rfl
@[simp] theorem onHalf_gauge (s : State) (h : Nat) (f : HalfSt → HalfSt) : (s.onHalf h f).gauge = s.gauge := by simp only [State.onHalf]; split <;> rfl
@[simp] theorem onStake_gauge (s : State) (k : Nat) (f : Stake → Stake) : (s.onStake k f).gauge = s.gauge := by simp only [State.onStake]; split <;> rfl
@[simp] theorem onLease_gauge (s : State) (k : Nat) (f : Lease → Lease) : (s.onLease k f).gauge = s.gauge := by simp only [State.onLease]; split <;> rfl
@[simp] theorem onLeases_gauge (s : State) (f : Lease → Lease) : (s.onLeases f).gauge = s.gauge := by simp [State.onLeases]
@[simp] theorem takeFree_gauge (s : State) : s.takeFree.2.gauge = s.gauge := (rfl)
@[simp] theorem takeId_gauge (s : State) : s.takeId.2.gauge = s.gauge := (rfl)
@[simp] theorem gauge_of_mk (pending : List Instr) (rnd : RoundSt) (parts : SMap Partition) (windows : SMap Window) (groups : SMap Group) (extents : SMap Extent) (pool0 : BlockPool) (pool1 : BlockPool) (mem : PoolMem) (half0 : HalfSt) (half1 : HalfSt) (dies : SMap DieSt) (stackTab : SMap StackSt) (banks : SMap Bank) (targets : SMap Nat) (dir : SMap DirEnt) (regions : SMap Region) (weavers : SMap Weaver) (walkers : SMap Walker) (migrations : List Migration) (poolReqs : List PoolReq) (nextId : Nat) (ctl : CtlSt) (auth : AuthSt) (links : SMap Link) (net : NetSt) (host : HostSt) (power : PowerSt) (cnt : CntSt) (rst : ResetSt) (out : List Out) (free : Nat) (dirUse : Nat) :
    State.gauge (State.mk pending rnd parts windows groups extents pool0 pool1 mem half0 half1 dies stackTab banks targets dir regions weavers walkers migrations poolReqs nextId ctl auth links net host power cnt rst out free dirUse) =
      (pending, rnd.counter, rnd.length, rnd.running, rnd.pendLength, power.dials) := (rfl)
@[simp] theorem gauge_mk (s : State) :
    (s.pending, s.rnd.counter, s.rnd.length, s.rnd.running, s.rnd.pendLength, s.power.dials) = s.gauge := (rfl)
@[simp] theorem onRnd_gauge (s : State) (f : RoundSt → RoundSt) (h1 : (f s.rnd).counter = s.rnd.counter)
    (h2 : (f s.rnd).length = s.rnd.length) (h3 : (f s.rnd).running = s.rnd.running)
    (h4 : (f s.rnd).pendLength = s.rnd.pendLength) : (s.onRnd f).gauge = s.gauge := by
  simp only [State.gauge, onRnd_pending, onRnd_rnd, onRnd_power, h1, h2, h3, h4]
@[simp] theorem onPower_gauge (s : State) (f : PowerSt → PowerSt) (h : (f s.power).dials = s.power.dials) :
    (s.onPower f).gauge = s.gauge := by
  simp only [State.gauge, onPower_pending, onPower_rnd, onPower_power, h]
@[simp] theorem dials_of_mk (cap : Nat) (eff : Nat) (duty : Nat) (ceiling : Nat) (boost : Nat) (idle : Nat) (memM : Nat) (budgetM : Nat) (learned : Bool) (fixed : Bool) (boostEn : Bool) (gradeD : Bool) (feedA : Bool) (feedB : Bool) (cond : BitVec 8) (counts : SMap Nat) (sagWarn : Nat) (sagCap : Nat) (thermalCap : Option Nat) (allot : Option Nat) (allotAge : Nat) (allotNew : Option Nat) (group : Nat) (reports : List (Nat × Nat × Nat)) (dutySum : Nat) (dutyRounds : Nat) (allFull : Bool) (peak : Nat) (powerSum : Nat) (hottest : Nat) (overRounds : Nat) (bus : Nat) (sensors : SMap Nat) (shown : Nat × Nat) (record : List U64) (modeChanged : Bool) :
    (PowerSt.mk cap eff duty ceiling boost idle memM budgetM learned fixed boostEn gradeD feedA feedB cond counts sagWarn sagCap thermalCap allot allotAge allotNew group reports dutySum dutyRounds allFull peak powerSum hottest overRounds bus sensors shown record modeChanged).dials = (duty, ceiling, boost, idle, memM) := (rfl)
@[simp] theorem setCond_dials (x : PowerSt) (i : Nat) : (x.setCond i).dials = x.dials := (rfl)
@[simp] theorem clearCond_dials (x : PowerSt) (i : Nat) : (x.clearCond i).dials = x.dials := (rfl)
@[simp] theorem dials_mk (x : PowerSt) : (x.duty, x.ceiling, x.boost, x.idle, x.memM) = x.dials := (rfl)
@[simp] theorem countPart_gauge (s : State) (p k n : Nat) : (s.countPart p k n).gauge = s.gauge := (rfl)
@[simp] theorem countLink_gauge (s : State) (l k n : Nat) : (s.countLink l k n).gauge = s.gauge := (rfl)
@[simp] theorem countNet_gauge (s : State) (k : Nat) : (s.countNet k).gauge = s.gauge := (rfl)
@[simp] theorem countHost_gauge (s : State) (k : Nat) : (s.countHost k).gauge = s.gauge := (rfl)
@[simp] theorem persistChange_gauge (s : State) : s.persistChange.gauge = s.gauge := (rfl)

/-- A choice between states with the same gauge has it. -/
@[simp] theorem ite_gauge (c : Prop) [Decidable c] (a b : State) : (if c then a else b).gauge = if c then a.gauge else b.gauge := by
  split <;> rfl

@[simp] theorem each_gauge {α : Type} (s : State) (l : List α) (f : State → α → State)
    (h : ∀ s a, (f s a).gauge = s.gauge) : (s.each l f).gauge = s.gauge := each_keeps State.gauge h s l

@[simp] theorem foldl_gauge {α : Type} (s : State) (l : List α) (f : State → α → State)
    (h : ∀ s a, (f s a).gauge = s.gauge) : (l.foldl f s).gauge = s.gauge := each_keeps State.gauge h s l

@[simp] theorem foldl_snd_gauge {α β : Type} (l : List α) (f : β × State → α → β × State) (x : β × State)
    (h : ∀ x a, (f x a).2.gauge = x.2.gauge) : (l.foldl f x).2.gauge = x.2.gauge := by
  induction l generalizing x with
  | nil => rfl
  | cons a l ih => rw [List.foldl_cons, ih, h]

@[simp] theorem foldl_fst_gauge {α β : Type} (l : List α) (f : State × β → α → State × β) (x : State × β)
    (h : ∀ x a, (f x a).1.gauge = x.1.gauge) : (l.foldl f x).1.gauge = x.1.gauge := by
  induction l generalizing x with
  | nil => rfl
  | cons a l ih => rw [List.foldl_cons, ih, h]

@[simp] theorem ite_snd_gauge {β : Type} (c : Prop) [Decidable c] (a b : β × State) :
    (if c then a else b).2.gauge = if c then a.2.gauge else b.2.gauge := by
  split <;> rfl

@[simp] theorem ite_fst_gauge {β : Type} (c : Prop) [Decidable c] (a b : State × β) :
    (if c then a else b).1.gauge = if c then a.1.gauge else b.1.gauge := by
  split <;> rfl

/-- A choice between states with the same gauge. -/
theorem ite_same {c : Prop} [Decidable c] {a b s : State} (h : a.gauge = s.gauge) (k : b.gauge = s.gauge) :
    (if c then a else b).gauge = s.gauge := by
  split <;> assumption

/-- A choice between outcomes with the same gauge. -/
theorem ite_snd_same {β : Type} {c : Prop} [Decidable c] {a b : β × State} {s : State} (h : a.2.gauge = s.gauge)
    (k : b.2.gauge = s.gauge) : (if c then a else b).2.gauge = s.gauge := by
  split <;> assumption

/-- A fold of changes that may fail. -/
theorem foldl_option_gauge {α β : Type} (l : List α) (f : Option (State × β) → α → Option (State × β))
    (h : ∀ x a y, f x a = some y → ∃ z, x = some z ∧ y.1.gauge = z.1.gauge) :
    ∀ x y, l.foldl f x = some y → ∃ z, x = some z ∧ y.1.gauge = z.1.gauge := by
  induction l with
  | nil => intro x y hy; exact ⟨y, hy, rfl⟩
  | cons a l ih =>
    intro x y hy
    obtain ⟨z, hz, e⟩ := ih _ _ hy
    obtain ⟨w, hw, e'⟩ := h _ _ _ hz
    exact ⟨w, hw, e.trans e'⟩

/-- A fold of changes that may fail. -/
theorem foldl_state_gauge {α : Type} (l : List α) (f : Option State → α → Option State)
    (h : ∀ x a y, f x a = some y → ∃ z, x = some z ∧ y.gauge = z.gauge) :
    ∀ x y, l.foldl f x = some y → ∃ z, x = some z ∧ y.gauge = z.gauge := by
  induction l with
  | nil => intro x y hy; exact ⟨y, hy, rfl⟩
  | cons a l ih =>
    intro x y hy
    obtain ⟨z, hz, e⟩ := ih _ _ hy
    obtain ⟨w, hw, e'⟩ := h _ _ _ hz
    exact ⟨w, hw, e.trans e'⟩

/-- The next state of a change that may fail, or the old state. -/
theorem getD_gauge {o : Option State} {s : State} (h : ∀ t, o = some t → t.gauge = s.gauge) : (o.getD s).gauge = s.gauge := by
  cases o with
  | none => rfl
  | some t => exact h t rfl

end Sys2Proof.Machine
end

