-- ==== Sys2Proof/Laws/Gauge/Flags.lean ====
section
/-! SUPPORT. The operations of Machine/Flags.lean leave the gauge as it was. -/
namespace Sys2Proof.Machine

@[simp] theorem setInt_gauge (s : State) (i : Nat) : (State.setInt s i).gauge = s.gauge := by
  simp [State.setInt]

@[simp] theorem countOf_gauge (s : State) (p k n : Nat) : (State.countOf s p k n).gauge = s.gauge := by
  simp [State.countOf]

@[simp] theorem ownerEvent_gauge (s : State) (p code : Nat) (level : Bool) (n : Nat) : (State.ownerEvent s p code level n).gauge = s.gauge := by
  simp [State.ownerEvent]

@[simp] theorem opEvent_gauge (s : State) (code : Nat) (e : OpEvt) (n : Nat) : (State.opEvent s code e n).gauge = s.gauge := by
  simp [State.opEvent]

@[simp] theorem countRead_gauge (s : State) (p pa lines source priv : Nat) : (State.countRead s p pa lines source priv).gauge = s.gauge := by
  simp [State.countRead]

@[simp] theorem countWrite_gauge (s : State) (p pa lines source priv : Nat) : (State.countWrite s p pa lines source priv).gauge = s.gauge := by
  simp [State.countWrite]

end Sys2Proof.Machine
end

