-- ==== Sys2Proof/Laws/Gauge/Send.lean ====
section
/-! SUPPORT. The operations of Machine/Send.lean leave the gauge as it was. -/
namespace Sys2Proof.Machine

@[simp] theorem linkSend_gauge (s : State) (l : Nat) (p : Packet) : (State.linkSend s l p).gauge = s.gauge := by
  simp [State.linkSend]

@[simp] theorem mcSend_gauge (s : State) (p : Packet) (outs : List Nat) : (State.mcSend s p outs).2.gauge = s.gauge := by
  simp [State.mcSend]

@[simp] theorem launch_gauge (s : State) (p : Packet) : (State.launch s p).gauge = s.gauge := by
  unfold State.launch
  (repeat' split) <;> simp

@[simp] theorem retryEgress_gauge (s : State) : (State.retryEgress s).gauge = s.gauge := by
  simp [State.retryEgress]

@[simp] theorem launchFab_gauge (s : State) (p : Packet) : (State.launchFab s p).gauge = s.gauge := by
  simp [State.launchFab]

@[simp] theorem onShaper_gauge (s : State) (p ld : Nat) (f : Shaper → Shaper) : (State.onShaper s p ld f).gauge = s.gauge := by
  simp [State.onShaper]

@[simp] theorem stamp_gauge (s : State) (p : Nat) (pkt : Packet) : (State.stamp s p pkt).2.gauge = s.gauge := by
  simp [State.stamp]

@[simp] theorem stampPeer_gauge (s : State) (p : Nat) (pkt : Packet) : (State.stampPeer s p pkt).2.gauge = s.gauge := by
  unfold State.stampPeer
  (repeat' split) <;> simp

@[simp] theorem drainShaper_gauge (s : State) (p ld : Nat) (a1 : Nat) : (State.drainShaper s p ld a1).gauge = s.gauge := by
  induction a1 generalizing s with
  | zero => rfl
  | succ n ih =>
    unfold State.drainShaper
    dsimp only
    (repeat' split) <;> simp [*]

@[simp] theorem originate_gauge (s : State) (p ld : Nat) (pkt : Packet) (peer : Bool) : (State.originate s p ld pkt peer).gauge = s.gauge := by
  simp [State.originate]

@[simp] theorem onFlow_gauge (s : State) (f : FlowId) (g : Flow → Flow) : (State.onFlow s f g).gauge = s.gauge := by
  simp [State.onFlow]

@[simp] theorem performed_gauge (s : State) (ld : Nat) (q : Packet) : (State.performed s ld q).gauge = s.gauge := by
  simp [State.performed]

@[simp] theorem answered_gauge (s : State) (ld : Nat) (reply : Packet) : (State.answered s ld reply).gauge = s.gauge := by
  unfold State.answered
  (repeat' split) <;> simp

@[simp] theorem sendReply_gauge (s : State) (p ld : Nat) (reply : Packet) : (State.sendReply s p ld reply).gauge = s.gauge := by
  simp [State.sendReply]

@[simp] theorem takeSnoopSeq_gauge (s : State) (p ep : Nat) : (State.takeSnoopSeq s p ep).2.gauge = s.gauge := by
  simp [State.takeSnoopSeq]

end Sys2Proof.Machine
end

