-- ==== Sys2Proof/Laws/Gauge/Memory.lean ====
section
/-! SUPPORT. The operations of Machine/Memory.lean leave the gauge as it was. -/
namespace Sys2Proof.Machine

@[simp] theorem giveCredits_gauge (s : State) : (State.giveCredits s).gauge = s.gauge := by
  simp [State.giveCredits]

@[simp] theorem writeRand_gauge (s : State) (h r enter port : Nat) (buf : SMap (Option Byte)) : (State.writeRand s h r enter port buf).gauge = s.gauge := by
  simp [State.writeRand]

@[simp] theorem gotReq_gauge (s : State) (id : Nat) (st : Status) (data : List Byte) (poison : Bool) : (State.gotReq s id st data poison).gauge = s.gauge := by
  simp [State.gotReq]

@[simp] theorem ackHost_gauge (s : State) (tag : Nat) : (State.ackHost s tag).gauge = s.gauge := by
  simp [State.ackHost]

@[simp] theorem ack_gauge (s : State) (a1 : Ack) : (State.ack s a1).gauge = s.gauge := by
  cases a1 <;> simp [State.ack]

@[simp] theorem releaseRand_gauge (s : State) (h r : Nat) : (State.releaseRand s h r).gauge = s.gauge := by
  unfold State.releaseRand
  (repeat' split) <;> simp

@[simp] theorem releaseAll_gauge (s : State) : (State.releaseAll s).gauge = s.gauge := by
  simp [State.releaseAll]

@[simp] theorem releaseUrgent_gauge (s : State) : (State.releaseUrgent s).gauge = s.gauge := by
  simp [State.releaseUrgent]

@[simp] theorem drainLine_gauge (s : State) (pa : Nat) : (State.drainLine s pa).gauge = s.gauge := by
  simp [State.drainLine]

@[simp] theorem drain_gauge (s : State) (pa n : Nat) : (State.drain s pa n).gauge = s.gauge := by
  simp [State.drain]

@[simp] theorem touch_gauge (s : State) (pa : Nat) : (State.touch s pa).gauge = s.gauge := by
  simp [State.touch]

@[simp] theorem metaWrite_gauge (s : State) (h n : Nat) : (State.metaWrite s h n).gauge = s.gauge := by
  simp [State.metaWrite]

@[simp] theorem refreshBank_gauge (s : State) (b : BankId) : (State.refreshBank s b).gauge = s.gauge := by
  simp [State.refreshBank]

@[simp] theorem useSlot_gauge (s : State) (b : BankId × Nat) (pa src : Nat) (hint : Bool) : (State.useSlot s b pa src hint).gauge = s.gauge := by
  simp [State.useSlot]

@[simp] theorem useRow_gauge (s : State) (pa src : Nat) (hint : Bool) : (State.useRow s pa src hint).gauge = s.gauge := by
  simp [State.useRow]

@[simp] theorem ownRead_gauge (s : State) (pa n src : Nat) (touches : Bool) : (State.ownRead s pa n src touches).gauge = s.gauge := by
  simp [State.ownRead]

@[simp] theorem writeLine_gauge (s : State) (pa : Nat) (bs : List Byte) (mask : List Bool) (acks : List Ack) (port : Nat) : (State.writeLine s pa bs mask acks port).gauge = s.gauge := by
  unfold State.writeLine
  dsimp only
  (repeat' split) <;> simp

@[simp] theorem writePool_gauge (s : State) (pa : Nat) (bs : List Byte) : (State.writePool s pa bs).gauge = s.gauge := by
  simp [State.writePool]

@[simp] theorem writePoisoned_gauge (s : State) (pa : Nat) (bs : List Byte) : (State.writePoisoned s pa bs).gauge = s.gauge := by
  simp [State.writePoisoned]

@[simp] theorem zeroRands_gauge (s : State) (h lo hi : Nat) : (State.zeroRands s h lo hi).gauge = s.gauge := by
  simp [State.zeroRands]

@[simp] theorem rewriteParity_gauge (s : State) (h r : Nat) : (State.rewriteParity s h r).gauge = s.gauge := by
  simp [State.rewriteParity]

end Sys2Proof.Machine
end

