-- ==== Sys2Proof/Laws/Gauge/Home.lean ====
section
/-! SUPPORT. The operations of Machine/Home.lean leave the gauge as it was. -/
namespace Sys2Proof.Machine

@[simp] theorem answer_gauge (s : State) (r : FabReq) (op : Nat) (st : Status) (word2 : Nat) (data : List Byte) (poison : Bool) (served : Option Nat) : (State.answer s r op st word2 data poison served).gauge = s.gauge := by
  unfold State.answer
  split
  · rfl
  · dsimp only
    rw [sendReply_gauge]
    simp only [ite_gauge, ownerEvent_gauge, ite_self]

@[simp] theorem refuse_gauge (s : State) (r : FabReq) (st : Status) (retry : Nat) : (State.refuse s r st retry).gauge = s.gauge := by
  simp [State.refuse]

@[simp] theorem snoop_gauge (s : State) (line : Nat) (q : Pend) (p rank seq : Nat) : (State.snoop s line q p rank seq).gauge = s.gauge := by
  simp [State.snoop]

@[simp] theorem snoopGroup_gauge (s : State) (line : Nat) (q : Pend) (p g seq : Nat) : (State.snoopGroup s line q p g seq).gauge = s.gauge := by
  simp [State.snoopGroup]

@[simp] theorem bufferSnoop_gauge (s : State) (d line op : Nat) : (State.bufferSnoop s d line op).gauge = s.gauge := by
  simp [State.bufferSnoop]

@[simp] theorem beginBusy_gauge (s : State) (line : Nat) (q : Pend) (targets : List Requester) (ovf : Bool) : (State.beginBusy s line q targets ovf).gauge = s.gauge := by
  unfold State.beginBusy
  dsimp only
  rw [each_gauge]
  · rw [each_gauge]
    · simp
    · intro s p
      rw [each_gauge]
      intro s g
      rw [each_gauge]
      · simp
      · intro s w
        cases w with
        | buffer d => rfl
        | agent x k => dsimp only; split <;> simp
  · intro s w
    cases w with
    | buffer d => simp
    | agent p k => dsimp only; (repeat' split) <;> simp

@[simp] theorem setLine_gauge (s : State) (line : Nat) (st : DirState) (ptrs : List Requester) : (State.setLine s line st ptrs).gauge = s.gauge := by
  simp [State.setLine]

@[simp] theorem fetchLine_gauge (s : State) (pa : Nat) : (State.fetchLine s pa).2.gauge = s.gauge := by
  simp [State.fetchLine]

@[simp] theorem doAtom_gauge (s : State) (p pa : Nat) (who : Requester) (tag port : Nat) (op : AtomOp) (w8 : Bool) (operand compare : U64) (mk : List Byte → List Ack) : (State.doAtom s p pa who tag port op w8 operand compare mk).2.2.gauge = s.gauge := by
  unfold State.doAtom
  dsimp only
  (repeat' split) <;> simp

@[simp] theorem localAtom_gauge (s : State) (d : Nat) (q : PoolReq) : (State.localAtom s d q).gauge = s.gauge := by
  unfold State.localAtom
  (repeat' split) <;> simp

@[simp] theorem serveStroke_gauge (s : State) (q : PoolReq) : (State.serveStroke s q).gauge = s.gauge := by
  unfold State.serveStroke
  (repeat' split) <;> simp

@[simp] theorem serveHost_gauge (s : State) (tag pa : Nat) : (State.serveHost s tag pa).gauge = s.gauge := by
  unfold State.serveHost
  (repeat' split) <;> simp

@[simp] theorem afterNc_gauge (s : State) (line : Nat) (st : DirState) (keep : Option Requester) : (State.afterNc s line st keep).gauge = s.gauge := by
  unfold State.afterNc
  (repeat' split) <;> simp

@[simp] theorem afterWrite_gauge (s : State) (line : Nat) (keep : Option Requester) : (State.afterWrite s line keep).gauge = s.gauge := by
  simp [State.afterWrite]

@[simp] theorem applyRdS_gauge (s : State) (line : Nat) (r : FabReq) (fwd : Bool) (keep : Option Requester) : (State.applyRdS s line r fwd keep).gauge = s.gauge := by
  simp [State.applyRdS]

@[simp] theorem bufferSpill_gauge (s : State) (d : DieId) : (State.bufferSpill s d).gauge = s.gauge := by
  unfold State.bufferSpill
  (repeat' split) <;> simp

@[simp] theorem applyRdX_gauge (s : State) (line : Nat) (r : FabReq) (fwd : Bool) : (State.applyRdX s line r fwd).gauge = s.gauge := by
  unfold State.applyRdX
  dsimp only
  (repeat' split) <;> simp

@[simp] theorem applyUpg_gauge (s : State) (line : Nat) (r : FabReq) : (State.applyUpg s line r).gauge = s.gauge := by
  simp [State.applyUpg]

@[simp] theorem applyRdNc_gauge (s : State) (line : Nat) (r : FabReq) (rest : List Nat) (data : List Byte) (poison : Bool) (keep : Option Requester) : (State.applyRdNc s line r rest data poison keep).1.gauge = s.gauge := by
  unfold State.applyRdNc
  (repeat' split) <;> simp

@[simp] theorem applyWrNc_gauge (s : State) (line : Nat) (r : FabReq) (rest : List Nat) (data : List Byte) (masks : Option (List U64)) (st : Status) (keep : Option Requester) : (State.applyWrNc s line r rest data masks st keep).1.gauge = s.gauge := by
  unfold State.applyWrNc
  (repeat' split) <;> simp

@[simp] theorem applyAtom_gauge (s : State) (line : Nat) (r : FabReq) (op : AtomOp) (w8 : Bool) (operand compare : U64) (keep : Option Requester) : (State.applyAtom s line r op w8 operand compare keep).gauge = s.gauge := by
  unfold State.applyAtom
  dsimp only
  (repeat' split) <;> simp

@[simp] theorem applyStroke_gauge (s : State) (line : Nat) (k : PendKind) (id : Nat) (keep : Option Requester) : (State.applyStroke s line k id keep).gauge = s.gauge := by
  unfold State.applyStroke
  dsimp only
  (repeat' split) <;> simp

@[simp] theorem applyHost_gauge (s : State) (line : Nat) (k : PendKind) (tag : Nat) (keep : Option Requester) : (State.applyHost s line k tag keep).gauge = s.gauge := by
  simp [State.applyHost]

@[simp] theorem applyTrim_gauge (s : State) (line home : Nat) : (State.applyTrim s line home).gauge = s.gauge := by
  simp [State.applyTrim]

@[simp] theorem applyDevice_gauge (s : State) (line a : Nat) (bs : List Byte) (keep : Option Requester) : (State.applyDevice s line a bs keep).gauge = s.gauge := by
  simp [State.applyDevice]

@[simp] theorem applyReq_gauge (s : State) (line : Nat) (r : FabReq) (k : PendKind) (fwd : Bool) (keep : Option Requester) : (State.applyReq s line r k fwd keep).1.gauge = s.gauge := by
  unfold State.applyReq
  (repeat' split) <;> simp

@[simp] theorem finish_gauge (s : State) (line : Nat) : (State.finish s line).1.gauge = s.gauge := by
  unfold State.finish
  split <;> simp

@[simp] theorem drive_gauge  (a1 : Nat) (a2 : State) (a3 : Nat) (a4 : FabReq) (a5 : PendKind) : (State.drive  a1 a2 a3 a4 a5).gauge = a2.gauge := by
  induction a1 generalizing a2 a3 a4 a5 with
  | zero => rfl
  | succ n ih =>
    unfold State.drive
    dsimp only
    split
    · simp
    · split
      · split
        · next h => have := applyReq_gauge a2 a3 a4 (a2.upgOr a3 a4 a5) false none; rw [h] at this; exact this
        · next h => have := applyReq_gauge a2 a3 a4 (a2.upgOr a3 a4 a5) false none; rw [h] at this; rw [ih]; exact this
      · next op targets owner ovf _ =>
        split
        · split
          · next h => have := finish_gauge (a2.beginBusy a3 { kind := a2.upgOr a3 a4 a5, req := a4, op := op, owner := owner } targets ovf) a3; rw [h] at this; simpa using this
          · next h => have := finish_gauge (a2.beginBusy a3 { kind := a2.upgOr a3 a4 a5, req := a4, op := op, owner := owner } targets ovf) a3; rw [h] at this; rw [ih]; simpa using this
        · simp

@[simp] theorem run_gauge (s : State) (line : Nat) (r : FabReq) (k : PendKind) : (State.run s line r k).gauge = s.gauge := by
  simp [State.run]

theorem takeCredit_gauge (s : State) (slice : Nat) {a : Nat} {t2 : State} (h : State.takeCredit s slice = some (a, t2)) : t2.gauge = s.gauge := by
  unfold State.takeCredit at h
  split at h
  · cases h
  · simp only [Option.some.injEq, Prod.mk.injEq] at h
    rw [← h.2]; simp

@[simp] theorem dropToken_gauge (s : State) (line : Nat) (t : Token) : (State.dropToken s line t).gauge = s.gauge := by
  simp [State.dropToken]

@[simp] theorem nack_gauge (s : State) (line : Nat) (r : FabReq) : (State.nack s line r).gauge = s.gauge := by
  unfold State.nack
  dsimp only
  split
  · split <;> simp
  · split
    · next h => have := takeCredit_gauge _ _ h; split <;> simp [this]
    · split <;> simp

@[simp] theorem useToken_gauge (s : State) (line : Nat) (r : FabReq) : (State.useToken s line r).gauge = s.gauge := by
  unfold State.useToken
  (repeat' split) <;> simp

@[simp] theorem atomServe_gauge (s : State) (line : Nat) (r : FabReq) (op : AtomOp) (w8 : Bool) (operand compare : U64) : (State.atomServe s line r op w8 operand compare).gauge = s.gauge := by
  simp [State.atomServe]

@[simp] theorem atomRetry_gauge (s : State) (line : Nat) (id : Nat) (d : DieId) : (State.atomRetry s line id d).gauge = s.gauge := by
  unfold State.atomRetry
  (repeat' split) <;> simp

@[simp] theorem settle_gauge  (a1 : Nat) (a2 : State) (a3 : Nat) : (State.settle  a1 a2 a3).gauge = a2.gauge := by
  induction a1 generalizing a2 a3 with
  | zero => rfl
  | succ n ih =>
    unfold State.settle
    dsimp only
    (repeat' split) <;> simp [*]

@[simp] theorem settleLine_gauge (s : State) (line : Nat) : (State.settleLine s line).gauge = s.gauge := by
  simp [State.settleLine]

@[simp] theorem access_gauge (s : State) (line : Nat) (r : FabReq) (k : PendKind) : (State.access s line r k).gauge = s.gauge := by
  simp [State.access]

@[simp] theorem resume_gauge (s : State) (line : Nat) : (State.resume s line).gauge = s.gauge := by
  unfold State.resume
  split
  · split
    · next h => have := finish_gauge s line; rw [h] at this; simpa using this
    · next h => have := finish_gauge s line; rw [h] at this; simpa using this
  · rfl

@[simp] theorem answered1_gauge (s : State) (line : Nat) (who : Requester) : (State.answered1 s line who).gauge = s.gauge := by
  simp [State.answered1]

@[simp] theorem putLine_gauge (s : State) (line : Nat) (data : List Byte) (poison : Bool) : (State.putLine s line data poison).gauge = s.gauge := by
  simp [State.putLine]

@[simp] theorem useLine_gauge (s : State) (part line : Nat) : (State.useLine s part line).gauge = s.gauge := by
  unfold State.useLine
  dsimp only
  (repeat' split) <;> simp

@[simp] theorem hitLine_gauge (s : State) (part line : Nat) : (State.hitLine s part line).gauge = s.gauge := by
  simp [State.hitLine]

@[simp] theorem ncAccess_gauge (s : State) (part line : Nat) (r : FabReq) (k : PendKind) : (State.ncAccess s part line r k).gauge = s.gauge := by
  simp [State.ncAccess]

@[simp] theorem cohRequest_gauge (s : State) (line : Nat) (r : FabReq) (k : PendKind) : (State.cohRequest s line r k).gauge = s.gauge := by
  simp [State.cohRequest]

@[simp] theorem atomRequest_gauge (s : State) (line : Nat) (r : FabReq) (op : AtomOp) (w8 : Bool) (operand compare : U64) : (State.atomRequest s line r op w8 operand compare).gauge = s.gauge := by
  simp [State.atomRequest]

@[simp] theorem weaverAtom_gauge (s : State) (q : PoolReq) : (State.weaverAtom s q).gauge = s.gauge := by
  unfold State.weaverAtom
  (repeat' split) <;> simp

@[simp] theorem serveHome_gauge (s : State) (q : PoolReq) : (State.serveHome s q).gauge = s.gauge := by
  unfold State.serveHome
  split
  · simp
  · split
    · simp
    · split
      · simp
      · simp

@[simp] theorem noteDrain_gauge (s : State) (x : Nat × Nat) : (State.noteDrain s x).gauge = s.gauge := by
  simp [State.noteDrain]

@[simp] theorem countUrgent_gauge (s : State) (urgency pa src part : Nat) : (State.countUrgent s urgency pa src part).gauge = s.gauge := by
  simp [State.countUrgent]

@[simp] theorem issueReq_gauge (s : State) (q : PoolReq) : (State.issueReq s q).gauge = s.gauge := by
  simp [State.issueReq]

@[simp] theorem issue_gauge (s : State) (x : Nat × Nat) (a1 : Slot) : (State.issue s x a1).gauge = s.gauge := by
  cases a1 <;> simp [State.issue]

@[simp] theorem turn_gauge (n : Nat) : ∀ (s : State) (x : Nat × Nat) (me : Cand), (State.turn n s x me).gauge = s.gauge := by
  induction n with
  | zero => intros; rfl
  | succ n ih =>
    intro s x me
    unfold State.turn
    split
    · split
      · rw [ih]; simp
      · rfl
    · rfl

@[simp] theorem takeTurn_gauge (s : State) (pa src port : Nat) (write hint : Bool) : (State.takeTurn s pa src port write hint).gauge = s.gauge := by
  simp [State.takeTurn]

@[simp] theorem serveTo_gauge  (a1 : Nat) (a2 : State) (a3 : Nat) : (State.serveTo  a1 a2 a3).gauge = a2.gauge := by
  induction a1 generalizing a2 with
  | zero => rfl
  | succ n ih =>
    unfold State.serveTo
    split
    · rfl
    · split
      · rfl
      · dsimp only
        split <;> rw [ih] <;> simp

@[simp] theorem serveReq_gauge (s : State) (id : Nat) : (State.serveReq s id).gauge = s.gauge := by
  simp [State.serveReq]

@[simp] theorem readsFirst_gauge (s : State) (sid pa : Nat) : (State.readsFirst s sid pa).gauge = s.gauge := by
  simp [State.readsFirst]

@[simp] theorem strokeRequest_gauge (s : State) (q : PoolReq) : (State.strokeRequest s q).gauge = s.gauge := by
  unfold State.strokeRequest
  (repeat' split) <;> simp

@[simp] theorem engineGo_gauge (n : Nat) : ∀ (s : State) (w : Nat), (State.engineGo s w n).gauge = s.gauge := by
  induction n with
  | zero => intros; rfl
  | succ n ih =>
    intro s w
    unfold State.engineGo
    split
    · rfl
    · split
      · rfl
      · dsimp only
        rw [ih]
        exact strokeRequest_gauge _ _

@[simp] theorem advance_gauge (s : State) (id : Nat) : (State.advance s id).gauge = s.gauge := by
  unfold State.advance
  (repeat' split) <;> simp [engineGo_gauge]

@[simp] theorem resendHeld_gauge (s : State) : (State.resendHeld s).gauge = s.gauge := by
  simp [State.resendHeld]

@[simp] theorem serveUrgent_gauge (s : State) (h : Nat) : (State.serveUrgent s h).gauge = s.gauge := by
  simp [State.serveUrgent]

@[simp] theorem deviceWrite_gauge (s : State) (pa : Nat) (bs : List Byte) : (State.deviceWrite s pa bs).gauge = s.gauge := by
  simp [State.deviceWrite]

@[simp] theorem cleanLine_gauge (s : State) (pa : Nat) : (State.cleanLine s pa).gauge = s.gauge := by
  unfold State.cleanLine
  (repeat' split) <;> simp

@[simp] theorem cleanLines_gauge (s : State) (pa n : Nat) : (State.cleanLines s pa n).gauge = s.gauge := by
  simp [State.cleanLines]

end Sys2Proof.Machine
end

