-- ==== Sys2Proof/Laws/Gauge/Translate.lean ====
section
/-! SUPPORT. The operations of Machine/Translate.lean leave the gauge as it was. -/
namespace Sys2Proof.Machine

@[simp] theorem readFetches_gauge (s : State) (p pva : Nat) : (State.readFetches s p pva).gauge = s.gauge := by
  simp [State.readFetches]

@[simp] theorem fillWalk_gauge (s : State) (d p pva : Nat) (o : WalkOut) : (State.fillWalk s d p pva o).gauge = s.gauge := by
  unfold State.fillWalk
  (repeat' split) <;> simp

@[simp] theorem noteWalk_gauge (s : State) (d p pva : Nat) (o : WalkOut) : (State.noteWalk s d p pva o).gauge = s.gauge := by
  simp [State.noteWalk]

@[simp] theorem fillFab_gauge (s : State) (ld p pva : Nat) (o : WalkOut) : (State.fillFab s ld p pva o).gauge = s.gauge := by
  unfold State.fillFab
  (repeat' split) <;> simp

@[simp] theorem onMigration_gauge (s : State) (p pva : Nat) (f : Migration → Migration) : (State.onMigration s p pva f).gauge = s.gauge := by
  simp [State.onMigration]

@[simp] theorem readPeer_gauge (s : State) (m : Migration) (off : Nat) : (State.readPeer s m off).gauge = s.gauge := by
  unfold State.readPeer
  (repeat' split) <;> simp

@[simp] theorem askPeer_gauge (s : State) (p pva : Nat) (a1 : Nat) : (State.askPeer s p pva a1).gauge = s.gauge := by
  induction a1 generalizing s with
  | zero => rfl
  | succ n ih =>
    unfold State.askPeer
    repeat' first
      | rfl
      | (simp [*]; done)
      | (simp_all; done)
      | split
      | (refine (each_gauge _ _ _ ?_).trans ?_)
      | (refine (foldl_gauge _ _ _ ?_).trans ?_)
      | (refine (foldl_snd_gauge _ _ _ ?_).trans ?_)
      | (refine (foldl_fst_gauge _ _ _ ?_).trans ?_)
      | intro _
      | dsimp only

theorem startMigration_gauge (s : State) (p pva epa entry ext page : Nat) {t2 : State}
    (h : State.startMigration s p pva epa entry ext page = some t2) : t2.gauge = s.gauge := by
  unfold State.startMigration at h
  split at h
  · cases h; rfl
  · simp only [Option.ite_none_left_eq_some, Option.some.injEq] at h
    rw [← h.2]; simp

/-- A migration that cannot start leaves the state. -/
@[simp] theorem startMigration_getD_gauge (s : State) (p pva epa entry ext page : Nat) :
    ((s.startMigration p pva epa entry ext page).getD s).gauge = s.gauge :=
  getD_gauge (fun _ h => startMigration_gauge _ _ _ _ _ _ _ h)

@[simp] theorem cleanPva_gauge (s : State) (p pva n : Nat) : (State.cleanPva s p pva n).gauge = s.gauge := by
  unfold State.cleanPva
  repeat' first
    | rfl
    | (simp; done)
    | (simp_all; done)
    | split
    | (refine (each_gauge _ _ _ ?_).trans ?_)
    | (refine (foldl_gauge _ _ _ ?_).trans ?_)
    | (refine (foldl_snd_gauge _ _ _ ?_).trans ?_)
    | (refine (foldl_fst_gauge _ _ _ ?_).trans ?_)
    | intro _
    | dsimp only

theorem writePva_gauge (s : State) (p pva : Nat) (bs : List Byte) {t2 : State} (h : State.writePva s p pva bs = some t2) :
    t2.gauge = s.gauge := by
  unfold State.writePva at h
  split at h
  · cases h
  · simp only [Option.map_eq_some_iff] at h
    obtain ⟨x, hx, rfl⟩ := h
    obtain ⟨z, hz, e⟩ := foldl_option_gauge _ _ (fun x a y hy => by
      cases x with
      | none => simp at hy
      | some x =>
        refine ⟨x, rfl, ?_⟩
        simp only [Option.bind_some] at hy
        split at hy
        · cases hy
        · cases hy; simp) _ _ hx
    cases hz; exact e

/-- A device write that may be refused. -/
@[simp] theorem writePva_getD_gauge (s : State) (p pva : Nat) (bs : List Byte) :
    ((s.writePva p pva bs).getD s).gauge = s.gauge := getD_gauge (fun _ h => writePva_gauge _ _ _ _ h)

end Sys2Proof.Machine
end

