-- ==== Sys2Proof/Laws/Gauge/Ops.lean ====
section
/-! SUPPORT. The operations of Machine/Ops.lean leave the gauge as it was. -/
namespace Sys2Proof.Machine

@[simp] theorem toHost_gauge (s : State) (m : RimMsg) : (State.toHost s m).gauge = s.gauge := by
  simp [State.toHost]

@[simp] theorem toFabric_gauge (s : State) (m : RimMsg) : (State.toFabric s m).gauge = s.gauge := by
  simp [State.toFabric]

theorem takeToHost_gauge (s : State) (t : RimMsg → Bool) {a : RimMsg} {t2 : State} (h : State.takeToHost s t = some (a, t2)) : t2.gauge = s.gauge := by
  simp only [State.takeToHost, Option.map_eq_some_iff, Prod.mk.injEq] at h
  obtain ⟨x, -, -, rfl⟩ := h
  simp

theorem takeToFabric_gauge (s : State) (t : RimMsg → Bool) {a : RimMsg} {t2 : State} (h : State.takeToFabric s t = some (a, t2)) : t2.gauge = s.gauge := by
  simp only [State.takeToFabric, Option.map_eq_some_iff, Prod.mk.injEq] at h
  obtain ⟨x, -, -, rfl⟩ := h
  simp

@[simp] theorem nak_gauge (s : State) (type tag : Nat) (st : Status) (kept : List U64) : (State.nak s type tag st kept).gauge = s.gauge := by
  simp [State.nak]

@[simp] theorem event_gauge (s : State) (code d0 d1 : Nat) : (State.event s code d0 d1).gauge = s.gauge := by
  simp [State.event]

@[simp] theorem mbxPut_gauge (s : State) (sender ch part len : Nat) (words : List U64) : (State.mbxPut s sender ch part len words).2.gauge = s.gauge := by
  unfold State.mbxPut
  (repeat' split) <;> simp

theorem mbxTake_gauge (s : State) (ch : Nat) {a : MbxMsg} {t2 : State} (h : State.mbxTake s ch = some (a, t2)) : t2.gauge = s.gauge := by
  unfold State.mbxTake at h
  split at h
  · cases h
  · simp only [Option.some.injEq, Prod.mk.injEq] at h; rw [← h.2]; simp

@[simp] theorem pinBy_gauge (s : State) (x : PinPage) (n : Int) : (State.pinBy s x n).gauge = s.gauge := by
  unfold State.pinBy
  dsimp only
  (repeat' split) <;> simp

@[simp] theorem pinAll_gauge (s : State) (xs : List PinPage) : (State.pinAll s xs).gauge = s.gauge := by
  simp [State.pinAll]

@[simp] theorem unpinAll_gauge (s : State) (xs : List PinPage) : (State.unpinAll s xs).gauge = s.gauge := by
  simp [State.unpinAll]

@[simp] theorem storePins_gauge (home : Nat) (l : List PinPage) : ∀ (s : State) (last : Bool),
    (s.storePins home l last).2.gauge = s.gauge := by
  induction l with
  | nil => intros; rfl
  | cons x l ih =>
    intro s last
    unfold State.storePins
    dsimp only
    rw [ih]
    simp

@[simp] theorem onSq_gauge (s : State) (p q : Nat) (f : Sq → Sq) : (State.onSq s p q f).gauge = s.gauge := by
  simp [State.onSq]

@[simp] theorem onCq_gauge (s : State) (p q : Nat) (f : Cq → Cq) : (State.onCq s p q f).gauge = s.gauge := by
  simp [State.onCq]

theorem writeRec_gauge (s : State) (p q : Nat) (r : DueRec) {t2 : State} (h : State.writeRec s p q r = some t2) : t2.gauge = s.gauge := by
  simp only [State.writeRec, Option.map_eq_some_iff] at h
  obtain ⟨x, hx, rfl⟩ := h
  simp [writePva_gauge _ _ _ _ hx]

@[simp] theorem countRec_gauge (s : State) (p : Nat) (r : DueRec) : (State.countRec s p r).gauge = s.gauge := by
  simp [State.countRec]

@[simp] theorem flushCq_gauge (s : State) (p q : Nat) (a1 : Nat) : (State.flushCq s p q a1).gauge = s.gauge := by
  induction a1 generalizing s with
  | zero => rfl
  | succ n ih =>
    unfold State.flushCq
    dsimp only
    split
    · rfl
    · split
      · rfl
      · split
        · rfl
        · split
          · rfl
          · next h => have := writeRec_gauge _ _ _ _ h; split <;> simp [ih, this]

@[simp] theorem flush_gauge (s : State) (p q : Nat) : (State.flush s p q).gauge = s.gauge := by
  simp [State.flush]

@[simp] theorem postRec_gauge (s : State) (p q : Nat) (r : DueRec) : (State.postRec s p q r).gauge = s.gauge := by
  simp [State.postRec]

@[simp] theorem recReady_gauge (s : State) (p q sid : Nat) : (State.recReady s p q sid).gauge = s.gauge := by
  simp [State.recReady]

@[simp] theorem queueEvent_gauge (s : State) (p q sq : Nat) (st : Status) (value : U64) : (State.queueEvent s p q sq st value).gauge = s.gauge := by
  unfold State.queueEvent
  dsimp only
  split
  · rfl
  · split
    · simp
    · split
      · exact (getD_gauge (fun t h => by rw [writePva_gauge _ _ _ _ h])).trans (by simp)
      · simp

end Sys2Proof.Machine
end

