-- ==== Sys2Proof/Laws/Gauge/Stroke.lean ====
section
/-! SUPPORT. The operations of Machine/Stroke.lean leave the gauge as it was. -/
namespace Sys2Proof.Machine

@[simp] theorem onRun_gauge (s : State) (w : Nat) (f : Run → Run) : (State.onRun s w f).gauge = s.gauge := by
  simp [State.onRun]

@[simp] theorem slots_gauge (s : State) (w p : Nat) (retired wasted front back : Nat) : (State.slots s w p retired wasted front back).gauge = s.gauge := by
  simp [State.slots]

@[simp] theorem startRun_gauge (s : State) (w : Nat) (k : Stroke) (transfer : Nat) : (State.startRun s w k transfer).gauge = s.gauge := by
  simp [State.startRun]

@[simp] theorem levels_gauge (s : State) (p sid n : Nat) : (State.levels s p sid n).gauge = s.gauge := by
  simp [State.levels]

@[simp] theorem spend_gauge (s : State) (w : Nat) (retired wasted front back : Nat) : (State.spend s w retired wasted front back).gauge = s.gauge := by
  unfold State.spend
  (repeat' split) <;> simp

@[simp] theorem cachePin_gauge (s : State) (k : Stroke) (n : Int) : (State.cachePin s k n).gauge = s.gauge := by
  simp [State.cachePin]

@[simp] theorem dropReads_gauge (s : State) (sid : Nat) : (State.dropReads s sid).gauge = s.gauge := by
  simp [State.dropReads]

@[simp] theorem complete_gauge (s : State) (k : Stroke) (st : Status) (cycles detail : Nat) (result : U64) : (State.complete s k st cycles detail result).gauge = s.gauge := by
  simp [State.complete]

@[simp] theorem leaveRun_gauge (s : State) (w cycles : Nat) : (State.leaveRun s w cycles).gauge = s.gauge := by
  simp [State.leaveRun]

@[simp] theorem endRun_gauge (s : State) (w : Nat) (st : Status) (detail : Nat) (result : U64) : (State.endRun s w st detail result).gauge = s.gauge := by
  unfold State.endRun
  (repeat' split) <;> simp

@[simp] theorem faultRun_gauge (s : State) (w : Nat) (st : Status) : (State.faultRun s w st).gauge = s.gauge := by
  unfold State.faultRun
  (repeat' split) <;> simp

@[simp] theorem suspend_gauge (s : State) (w : Nat) (resume : Nat) (watch : Option (Nat × Bool × Nat × U64)) (fires : Nat) (offer : Option (Nat × Nat)) : (State.suspend s w resume watch fires offer).gauge = s.gauge := by
  unfold State.suspend
  (repeat' split) <;> simp

@[simp] theorem pastEnd_gauge (s : State) (w : Nat) : (State.pastEnd s w).gauge = s.gauge := by
  unfold State.pastEnd
  (repeat' split) <;> simp

@[simp] theorem goTo_gauge (s : State) (w pc : Nat) : (State.goTo s w pc).gauge = s.gauge := by
  simp [State.goTo]

@[simp] theorem jumpTo_gauge (s : State) (w pc : Nat) : (State.jumpTo s w pc).gauge = s.gauge := by
  simp [State.jumpTo]

@[simp] theorem sampleTag_gauge (s : State) (w p opcode word handle : Nat) (guardFalse : Bool) : (State.sampleTag s w p opcode word handle guardFalse).gauge = s.gauge := by
  simp [State.sampleTag]

end Sys2Proof.Machine
end

