-- ==== Sys2Proof/Laws/Gauge/Operands.lean ====
section
/-! SUPPORT. The operations of Machine/Operands.lean leave the gauge as it was. -/
namespace Sys2Proof.Machine

theorem tryIssue_gauge (s : State) (w op : Nat) (f : Fields) (skip : Nat) (uses : List Nat)
    (ready : State → Run → Option Nat) (body : State → Run → State) (hb : ∀ s x, (body s x).gauge = s.gauge) :
    (s.tryIssue w op f skip uses ready body).gauge = s.gauge := by
  unfold State.tryIssue
  split
  · rfl
  · split
    · rfl
    · split
      · rfl
      · dsimp only
        split
        · split <;> simp
        · split
          · split <;> simp [hb]
          · rfl

@[simp] theorem retire_gauge (s : State) (w cost len : Nat) : (State.retire s w cost len).gauge = s.gauge := by
  unfold State.retire
  (repeat' split) <;> simp

@[simp] theorem weaverXlate_gauge (s : State) (w i off : Nat) : (State.weaverXlate s w i off).gauge = s.gauge := by
  unfold State.weaverXlate
  (repeat' split) <;> simp

@[simp] theorem request_gauge (s : State) (w : Nat) (x : Run) (pa len : Nat) (kind : PoolKind) (hint : Bool) : (State.request s w x pa len kind hint).2.gauge = s.gauge := by
  unfold State.request
  dsimp only
  split
  · exact engineGo_gauge _ _ _
  · exact (strokeRequest_gauge _ _).trans (engineGo_gauge _ _ _)

@[simp] theorem transfer_gauge (s : State) (w : Nat) (read hint : Bool) (i tag : Nat) (a1 : Nat) (a2 : Nat) (a3 : Nat) (a4 : Nat) : (State.transfer s w read hint i tag a1 a2 a3 a4).gauge = s.gauge := by
  induction a1 generalizing s a2 a3 a4 with
  | zero => rfl
  | succ n ih =>
    unfold State.transfer
    split
    · rfl
    · split
      · rfl
      · rw [ih]
        dsimp only
        split <;> simp

end Sys2Proof.Machine
end

