-- ==== Sys2Proof/Laws/Gauge/Transfers.lean ====
section
/-! SUPPORT. The operations of Machine/Transfers.lean leave the gauge as it was. -/
namespace Sys2Proof.Machine

@[simp] theorem streamOp_gauge (s : State) (w op : Nat) (f : Fields) (read : Bool) : (State.streamOp s w op f read).gauge = s.gauge := by
  unfold State.streamOp
  refine tryIssue_gauge _ _ _ _ _ _ _ _ (fun s x => ?_)
  try dsimp only
  (repeat' split) <;> simp

@[simp] theorem elements_gauge (s : State) (w : Nat) (f : Fields) (read : Bool) (x : Run) (a1 : Nat) (a2 : Nat) : (State.elements s w f read x a1 a2).gauge = s.gauge := by
  induction a1 generalizing s a2 <;> simp [State.elements, *]

@[simp] theorem gatherOp_gauge (s : State) (w op : Nat) (f : Fields) (read : Bool) : (State.gatherOp s w op f read).gauge = s.gauge := by
  unfold State.gatherOp
  refine tryIssue_gauge _ _ _ _ _ _ _ _ (fun s x => ?_)
  try dsimp only
  (repeat' split) <;> simp

theorem poolWord_gauge (s : State) (w : Nat) (f : Fields) (x : Run) (n : Nat) (need : Range → Bool)
    (k : State → Nat → State) (hk : ∀ s a, (k s a).gauge = s.gauge) : (s.poolWord w f x n need k).gauge = s.gauge := by
  unfold State.poolWord
  dsimp only
  split <;> simp [hk]

@[simp] theorem atomicOp_gauge (s : State) (w op : Nat) (f : Fields) (a : AtomOp) : (State.atomicOp s w op f a).gauge = s.gauge := by
  unfold State.atomicOp
  exact tryIssue_gauge _ _ _ _ _ _ _ _ (fun s x => poolWord_gauge _ _ _ _ _ _ _ (fun s a => by simp))

@[simp] theorem dropReq_gauge (s : State) (id : Nat) : (State.dropReq s id).gauge = s.gauge := by
  simp [State.dropReq]

@[simp] theorem failRun_gauge (s : State) (w : Nat) (st : Status) (word cycle : Nat) : (State.failRun s w st word cycle).gauge = s.gauge := by
  unfold State.failRun
  (repeat' split) <;> simp

@[simp] theorem failSuspended_gauge (s : State) (q : PoolReq) (st : Status) : (State.failSuspended s q st).gauge = s.gauge := by
  unfold State.failSuspended
  (repeat' split) <;> simp

@[simp] theorem recordMayGo_gauge (s : State) (p sid : Nat) : (State.recordMayGo s p sid).gauge = s.gauge := by
  simp [State.recordMayGo]

@[simp] theorem refuseReq_gauge (s : State) (q : PoolReq) (st : Status) (cycle : Nat) : (State.refuseReq s q st cycle).gauge = s.gauge := by
  unfold State.refuseReq
  dsimp only
  (repeat' split) <;> simp

@[simp] theorem ackedReq_gauge (s : State) (q : PoolReq) (cycle : Nat) : (State.ackedReq s q cycle).gauge = s.gauge := by
  unfold State.ackedReq
  dsimp only
  (repeat' split) <;> simp

@[simp] theorem land_gauge (s : State) (q : PoolReq) (sa tag cycle : Nat) (bs : List Byte) (poison : Bool) : (State.land s q sa tag cycle bs poison).gauge = s.gauge := by
  unfold State.land
  dsimp only
  (repeat' split) <;> simp

@[simp] theorem waitResult_gauge (s : State) (q : PoolReq) (reg : Nat) (w8 : Bool) (cond : Nat) (cmp : U64) (resume timeout cycle : Nat) (bs : List Byte) : (State.waitResult s q reg w8 cond cmp resume timeout cycle bs).gauge = s.gauge := by
  unfold State.waitResult
  dsimp only
  (repeat' split) <;> simp

end Sys2Proof.Machine
end

