-- ==== Sys2Proof/Laws/Gauge/Bulk.lean ====
section
/-! SUPPORT. The operations of Machine/Bulk.lean leave the gauge as it was. -/
namespace Sys2Proof.Machine

@[simp] theorem bulkLaunch_gauge (s : State) (w : Nat) (k : Stroke) (kind : BulkKind) (b : BulkBlock) (tag : U64) : (State.bulkLaunch s w k kind b tag).2.gauge = s.gauge := by
  unfold State.bulkLaunch
  dsimp only
  (repeat' split) <;> simp

@[simp] theorem bulkInstr_gauge (s : State) (w op : Nat) (f : Fields) (kind : BulkKind) : (State.bulkInstr s w op f kind).gauge = s.gauge := by
  unfold State.bulkInstr
  refine tryIssue_gauge _ _ _ _ _ _ _ _ (fun s x => ?_)
  try dsimp only
  (repeat' split) <;> simp

@[simp] theorem startSlices_gauge (s : State) : (State.startSlices s).gauge = s.gauge := by
  simp [State.startSlices]

@[simp] theorem fillChannels_gauge (s : State) (d : Nat) (a1 : Nat) : (State.fillChannels s d a1).gauge = s.gauge := by
  induction a1 generalizing s with
  | zero => rfl
  | succ n ih =>
    unfold State.fillChannels
    repeat' first
      | rfl
      | (simp [*]; done)
      | (simp_all; done)
      | split
      | (refine (each_gauge _ _ _ ?_).trans ?_)
      | (refine (foldl_gauge _ _ _ ?_).trans ?_)
      | (refine (foldl_snd_gauge _ _ _ ?_).trans ?_)
      | (refine (foldl_fst_gauge _ _ _ ?_).trans ?_)
      | intro _
      | dsimp only

@[simp] theorem bulkDone_gauge (s : State) (d ch : Nat) (o : BulkOp) (st : Status) (result : U64) : (State.bulkDone s d ch o st result).gauge = s.gauge := by
  simp [State.bulkDone]

@[simp] theorem writeCuts_gauge (s : State) (p : Nat) (l : List (Nat × Nat × Nat)) (bs : List Byte) :
    (s.writeCuts p l bs).1.gauge = s.gauge := by
  induction l generalizing s bs with
  | nil => rfl
  | cons a l ih =>
    obtain ⟨off, pa, n⟩ := a
    unfold State.writeCuts
    dsimp only
    split
    · rfl
    · split
      · rfl
      · rw [ih]; split <;> simp

@[simp] theorem bulkPoison_gauge (s : State) (d ch : Nat) (o : BulkOp) (k : Nat) : (State.bulkPoison s d ch o k).gauge = s.gauge := by
  simp [State.bulkPoison]

@[simp] theorem bulkOn_gauge (s : State) (d ch : Nat) (o : BulkOp) (stop : Option Nat) (result : U64) : (State.bulkOn s d ch o stop result).gauge = s.gauge := by
  unfold State.bulkOn
  (repeat' split) <;> simp

@[simp] theorem bulkWrite_gauge (s : State) (d ch : Nat) (o : BulkOp) (stop : Option Nat) (dst : List (Nat × Nat × Nat)) (bs : List Byte) : (State.bulkWrite s d ch o stop dst bs).gauge = s.gauge := by
  simp [State.bulkWrite]

@[simp] theorem bulkSum_gauge (s : State) (d ch : Nat) (o : BulkOp) (stop : Option Nat) (bs : List Byte) : (State.bulkSum s d ch o stop bs).gauge = s.gauge := by
  simp [State.bulkSum]

@[simp] theorem runSlice_gauge (s : State) (d ch : Nat) (o : BulkOp) (src dst : List (Nat × Nat × Nat)) : (State.runSlice s d ch o src dst).gauge = s.gauge := by
  unfold State.runSlice
  dsimp only
  (repeat' split) <;> simp

@[simp] theorem sliceReads_gauge (s : State) (reads : List (Nat × Nat × Nat)) : (State.sliceReads s reads).gauge = s.gauge := by
  simp [State.sliceReads]

end Sys2Proof.Machine
end

