-- ==== Sys2Proof/Laws/Gauge/Sync.lean ====
section
/-! SUPPORT. The operations of Machine/Sync.lean leave the gauge as it was. -/
namespace Sys2Proof.Machine

@[simp] theorem offer_gauge (s : State) (p sid : Nat) (g3 : U64) (g4 : Status) (at_ : Nat × Nat) : (State.offer s p sid g3 g4 at_).gauge = s.gauge := by
  simp [State.offer]

@[simp] theorem ownerSample_gauge (s : State) (w : Nat) (t : Tagged) (m : SampleTimes) : (State.ownerSample s w t m).gauge = s.gauge := by
  unfold State.ownerSample
  dsimp only
  (repeat' split) <;> first | (simp; done) | (simp [writePva_gauge _ _ _ _ (by assumption)]; done)

@[simp] theorem operSample_gauge (s : State) (w : Nat) (t : Tagged) (m : SampleTimes) : (State.operSample s w t m).gauge = s.gauge := by
  simp [State.operSample]

end Sys2Proof.Machine
end

