-- ==== Sys2Proof/Laws/Gauge/Integrity.lean ====
section
/-! SUPPORT. The operations of Machine/Integrity.lean leave the gauge as it was. -/
namespace Sys2Proof.Machine

@[simp] theorem logErr_gauge (s : State) (h : Nat) (r : LogRec) : (State.logErr s h r).gauge = s.gauge := by
  unfold State.logErr
  dsimp only
  (repeat' split) <;> simp

@[simp] theorem countUe_gauge (s : State) (pa : Nat) : (State.countUe s pa).gauge = s.gauge := by
  simp [State.countUe]

@[simp] theorem writeBack_gauge (s : State) (pa : Nat) (bs : List Byte) : (State.writeBack s pa bs).gauge = s.gauge := by
  simp [State.writeBack]

@[simp] theorem busErr_gauge (s : State) (pa : Nat) (src : LogSource) (part : PartId) (syndrome : U64) (write : Bool) : (State.busErr s pa src part syndrome write).gauge = s.gauge := by
  simp [State.busErr]

@[simp] theorem poisonLines_gauge (s : State) (h r l : Nat) (bad : List Nat) : (State.poisonLines s h r l bad).gauge = s.gauge := by
  simp [State.poisonLines]

@[simp] theorem moveDeque_gauge (s : State) (w : Nat) : (State.moveDeque s w).gauge = s.gauge := by
  simp [State.moveDeque]

@[simp] theorem dropEngine_gauge (s : State) (w : Nat) : (State.dropEngine s w).gauge = s.gauge := by
  simp [State.dropEngine]

@[simp] theorem fenceWeaver_gauge (s : State) (w cause : Nat) : (State.fenceWeaver s w cause).gauge = s.gauge := by
  unfold State.fenceWeaver
  dsimp only
  (repeat' split) <;> simp

@[simp] theorem retireWeaver_gauge (s : State) (w : Nat) : (State.retireWeaver s w).gauge = s.gauge := by
  unfold State.retireWeaver
  repeat' first
    | rfl
    | (simp; done)
    | (simp_all; done)
    | split
    | (refine (each_gauge _ _ _ ?_).trans ?_)
    | (refine (foldl_gauge _ _ _ ?_).trans ?_)
    | (refine (foldl_snd_gauge _ _ _ ?_).trans ?_)
    | (refine (foldl_fst_gauge _ _ _ ?_).trans ?_)
    | intro _
    | dsimp only

@[simp] theorem dropBridge_gauge (s : State) (b : Nat) : (State.dropBridge s b).gauge = s.gauge := by
  simp [State.dropBridge]

@[simp] theorem declareDie_gauge (s : State) (d : Nat) : (State.declareDie s d).gauge = s.gauge := by
  simp [State.declareDie]

@[simp] theorem bulkLost_gauge (s : State) (o : BulkOp) : (State.bulkLost s o).gauge = s.gauge := by
  simp [State.bulkLost]

@[simp] theorem dieStrokes_gauge (s : State) (d : Nat) : (State.dieStrokes s d).gauge = s.gauge := by
  unfold State.dieStrokes
  refine each_gauge _ _ _ (fun s w => ?_)
  dsimp only
  split
  · rfl
  · cases (s.weaver w).run <;> simp

@[simp] theorem dieBulk_gauge (s : State) (d : Nat) : (State.dieBulk s d).gauge = s.gauge := by
  simp [State.dieBulk]

@[simp] theorem dieBuffer_gauge (s : State) (d : Nat) : (State.dieBuffer s d).gauge = s.gauge := by
  simp [State.dieBuffer]

@[simp] theorem resnoop_gauge (s : State) (d : Nat) : (State.resnoop s d).gauge = s.gauge := by
  unfold State.resnoop
  repeat' first
    | rfl
    | (simp; done)
    | (simp_all; done)
    | split
    | (refine (each_gauge _ _ _ ?_).trans ?_)
    | (refine (foldl_gauge _ _ _ ?_).trans ?_)
    | (refine (foldl_snd_gauge _ _ _ ?_).trans ?_)
    | (refine (foldl_fst_gauge _ _ _ ?_).trans ?_)
    | intro _
    | dsimp only

@[simp] theorem backToPorts_gauge (s : State) (sts : List Nat) : (State.backToPorts s sts).gauge = s.gauge := by
  simp [State.backToPorts]

@[simp] theorem resyncStacks_gauge (s : State) (d : Nat) : (State.resyncStacks s d).gauge = s.gauge := by
  simp [State.resyncStacks]

@[simp] theorem pathFailed_gauge (s : State) (path : Nat) (a1 : PathKind) : (State.pathFailed s path a1).gauge = s.gauge := by
  cases a1 <;> simp [State.pathFailed]

@[simp] theorem carrierFails_gauge (s : State) (x : Transfer) : (State.carrierFails s x).gauge = s.gauge := by
  unfold State.carrierFails
  (repeat' split) <;> simp

@[simp] theorem exhaust_gauge (s : State) (path : Nat) (kind : PathKind) (x : Transfer) : (State.exhaust s path kind x).gauge = s.gauge := by
  unfold State.exhaust
  dsimp only
  (repeat' split) <;> simp

@[simp] theorem keepTransfer_gauge (s : State) (path : Nat) (x : Transfer) : (State.keepTransfer s path x).gauge = s.gauge := by
  simp [State.keepTransfer]

@[simp] theorem stackDown_gauge (s : State) (st : Nat) : (State.stackDown s st).gauge = s.gauge := by
  simp [State.stackDown]

@[simp] theorem rebuildLine_gauge (s : State) (h r u : Nat) (bad : List Nat) (l : Nat) : (State.rebuildLine s h r u bad l).gauge = s.gauge := by
  simp [State.rebuildLine]

end Sys2Proof.Machine
end

