-- ==== Sys2Proof/Laws/Gauge/Queues.lean ====
section
/-! SUPPORT. The operations of Machine/Queues.lean leave the gauge as it was. -/
namespace Sys2Proof.Machine

@[simp] theorem setCqDesc_gauge (s : State) (p q : Nat) (d : QDesc) : (State.setCqDesc s p q d).gauge = s.gauge := by
  simp [State.setCqDesc]

@[simp] theorem cqHead_gauge (s : State) (p q v : Nat) : (State.cqHead s p q v).gauge = s.gauge := by
  simp [State.cqHead]

@[simp] theorem useCq_gauge (s : State) (p q : Nat) : (State.useCq s p q).2.gauge = s.gauge := by
  unfold State.useCq
  dsimp only
  (repeat' split) <;> simp

@[simp] theorem cqHeadDoorbell_gauge (s : State) (p q v : Nat) : (State.cqHeadDoorbell s p q v).gauge = s.gauge := by
  simp [State.cqHeadDoorbell]

@[simp] theorem haltSq_gauge (s : State) (p q : Nat) (st : Status) : (State.haltSq s p q st).gauge = s.gauge := by
  simp [State.haltSq]

@[simp] theorem sqTail_gauge (s : State) (p q v : Nat) : (State.sqTail s p q v).gauge = s.gauge := by
  simp [State.sqTail]

@[simp] theorem loadSq_gauge (s : State) (p q : Nat) : (State.loadSq s p q).gauge = s.gauge := by
  unfold State.loadSq
  dsimp only
  (repeat' split) <;> simp

@[simp] theorem sqTailDoorbell_gauge (s : State) (p q v : Nat) : (State.sqTailDoorbell s p q v).gauge = s.gauge := by
  simp [State.sqTailDoorbell]

@[simp] theorem sqReset_gauge (s : State) (p q : Nat) : (State.sqReset s p q).gauge = s.gauge := by
  simp [State.sqReset]

@[simp] theorem cqReset_gauge (s : State) (p q : Nat) : (State.cqReset s p q).gauge = s.gauge := by
  simp [State.cqReset]

@[simp] theorem cqResetApply_gauge (s : State) (p q : Nat) : (State.cqResetApply s p q).gauge = s.gauge := by
  unfold State.cqResetApply
  dsimp only
  (repeat' split) <;> simp

@[simp] theorem doorbell_gauge (s : State) (p off : Nat) (v : U64) : (State.doorbell s p off v).2.gauge = s.gauge := by
  simp [State.doorbell]

@[simp] theorem nameCq_gauge (s : State) (p q : Nat) (cqBad : Bool) : (State.nameCq s p q cqBad).2.gauge = s.gauge := by
  simp [State.nameCq]

theorem admitRec_gauge (s : State) (p q : Nat) (k : Stroke) (cqBad : Bool) (st : Status) (detail : Nat) {a : Bool} {t2 : State} (h : State.admitRec s p q k cqBad st detail = some (a, t2)) : t2.gauge = s.gauge := by
  unfold State.admitRec at h
  dsimp only at h
  split at h
  · cases h
  · split at h
    · cases h
    · split at h
      · simp only [Option.some.injEq, Prod.mk.injEq] at h; rw [← h.2]; simp
      · split at h
        · cases h
        · simp only [Option.some.injEq, Prod.mk.injEq] at h; rw [← h.2]; simp

@[simp] theorem fetch_gauge (s : State) (p q : Nat) (a1 : Nat) : (State.fetch s p q a1).gauge = s.gauge := by
  induction a1 generalizing s with
  | zero => rfl
  | succ n ih =>
    unfold State.fetch
    dsimp only
    split
    · rfl
    · split
      · simp
      · simp
      · simp
      · split
        · simp
        · split
          · split
            · simp
            · next h => rw [ih]; simp [admitRec_gauge _ _ _ _ _ _ _ h]
          · rw [ih]; simp

@[simp] theorem joinMigration_gauge (s : State) (p pva sid i : Nat) : (State.joinMigration s p pva sid i).gauge = s.gauge := by
  unfold State.joinMigration
  (repeat' split) <;> simp

@[simp] theorem migratePieces_gauge (s : State) (p sid i pva : Nat) (ps : List Piece) : (State.migratePieces s p sid i pva ps).2.gauge = s.gauge := by
  unfold State.migratePieces
  refine foldl_snd_gauge _ _ _ (fun a x => ?_)
  split
  · split
    · next h => exact (joinMigration_gauge _ _ _ _ _).trans (startMigration_gauge _ _ _ _ _ _ _ h)
    · rfl
  · rfl

@[simp] theorem unblock_gauge (s : State) (ps : List Piece) : (State.unblock s ps).gauge = s.gauge := by
  unfold State.unblock
  repeat' first
    | rfl
    | (simp; done)
    | (simp_all; done)
    | split
    | (refine (each_gauge _ _ _ ?_).trans ?_)
    | (refine (foldl_gauge _ _ _ ?_).trans ?_)
    | (refine (foldl_snd_gauge _ _ _ ?_).trans ?_)
    | (refine (foldl_fst_gauge _ _ _ ?_).trans ?_)
    | intro _
    | dsimp only

@[simp] theorem walkPieces_gauge (s : State) (d p pva : Nat) (ps : List Piece) : (State.walkPieces s d p pva ps).gauge = s.gauge := by
  unfold State.walkPieces
  repeat' first
    | rfl
    | (simp; done)
    | (simp_all; done)
    | split
    | (refine (each_gauge _ _ _ ?_).trans ?_)
    | (refine (foldl_gauge _ _ _ ?_).trans ?_)
    | (refine (foldl_snd_gauge _ _ _ ?_).trans ?_)
    | (refine (foldl_fst_gauge _ _ _ ?_).trans ?_)
    | intro _
    | dsimp only

@[simp] theorem rangesOut_gauge (p sid : Nat) (l : List (Nat × Range)) : ∀ (s : State) (pins : List PinPage),
    (s.rangesOut p sid l pins).2.2.2.gauge = s.gauge := by
  induction l with
  | nil => intros; rfl
  | cons a l ih =>
    intro s pins
    obtain ⟨i, r⟩ := a
    unfold State.rangesOut
    dsimp only
    split
    · exact ih _ _
    · split
      · rw [ih]; exact walkPieces_gauge _ _ _ _ _
      · exact walkPieces_gauge _ _ _ _ _
      · exact (unblock_gauge _ _).trans (walkPieces_gauge _ _ _ _ _)
      · refine Eq.trans ?_ (walkPieces_gauge s (s.walkDie (2 * (match pins ++ s.pinsOf p i r.pva (s.rangePieces p r.pva r.len
          { r := r.r, w := r.w, a := r.a }) with | x :: _ => homeHalf x.pa | [] => 0) + i % 2)) p r.pva
          (s.rangePieces p r.pva r.len { r := r.r, w := r.w, a := r.a }))
        generalize s.walkPieces _ p r.pva _ = t
        have h := migratePieces_gauge t p sid i r.pva (s.rangePieces p r.pva r.len { r := r.r, w := r.w, a := r.a })
        generalize t.migratePieces p sid i r.pva (s.rangePieces p r.pva r.len { r := r.r, w := r.w, a := r.a }) = m at h ⊢
        obtain ⟨b, u⟩ := m
        cases b <;> exact h

theorem residentAll_gauge (s : State) (k : Stroke) {t2 : State} (h : State.residentAll s k = some t2) : t2.gauge = s.gauge := by
  unfold State.residentAll at h
  revert h
  generalize (List.range 4).filter _ = l
  intro h
  obtain ⟨u, hu, e⟩ := foldl_state_gauge l _ (fun x a y hy => by
    cases x with
    | none => simp at hy
    | some v =>
      simp only [Option.bind_some, Option.map_eq_some_iff] at hy
      obtain ⟨w, -, rfl⟩ := hy
      exact ⟨v, rfl, onDie_gauge _ _ _⟩) _ _ h
  cases hu; exact e

@[simp] theorem onWaiting_gauge (s : State) (p q sid : Nat) (f : Stroke × Stage → Stroke × Stage) : (State.onWaiting s p q sid f).gauge = s.gauge := by
  simp [State.onWaiting]

@[simp] theorem dropWaiting_gauge (s : State) (p q sid : Nat) : (State.dropWaiting s p q sid).gauge = s.gauge := by
  simp [State.dropWaiting]

@[simp] theorem failWaiting_gauge (s : State) (p q : Nat) (k : Stroke) (resident : Bool) (st : Status) (detail : Nat) : (State.failWaiting s p q k resident st detail).gauge = s.gauge := by
  unfold State.failWaiting
  split
  · rfl
  · next h => simp [admitRec_gauge _ _ _ _ _ _ _ h]
  · next h => simp [admitRec_gauge _ _ _ _ _ _ _ h]

@[simp] theorem translate_gauge (s : State) (p q : Nat) (k : Stroke) : (State.translate s p q k).gauge = s.gauge := by
  unfold State.translate
  dsimp only
  split
  · simp
  · simp
  · simp
  · split
    · next h => rw [onWaiting_gauge, residentAll_gauge _ _ h]; simp
    · simp

@[simp] theorem translateSq_gauge (s : State) (p q : Nat) : (State.translateSq s p q).gauge = s.gauge := by
  simp [State.translateSq]

@[simp] theorem place_gauge (s : State) (w : Nat) (k : Stroke) : (State.place s w k).gauge = s.gauge := by
  simp [State.place]

@[simp] theorem wakeFor_gauge (s : State) (k : Stroke) : (State.wakeFor s k).gauge = s.gauge := by
  simp [State.wakeFor]

@[simp] theorem placeSq_gauge (s : State) (p q pt : Nat) (a1 : Nat) : (State.placeSq s p q pt a1).gauge = s.gauge := by
  induction a1 generalizing s with
  | zero => rfl
  | succ n ih =>
    unfold State.placeSq
    dsimp only
    (repeat' split) <;> simp [*]

@[simp] theorem placeMoved_gauge (s : State) (p pt : Nat) : (State.placeMoved s p pt).gauge = s.gauge := by
  unfold State.placeMoved
  repeat' first
    | rfl
    | (simp; done)
    | (simp_all; done)
    | split
    | (refine (each_gauge _ _ _ ?_).trans ?_)
    | (refine (foldl_gauge _ _ _ ?_).trans ?_)
    | (refine (foldl_snd_gauge _ _ _ ?_).trans ?_)
    | (refine (foldl_fst_gauge _ _ _ ?_).trans ?_)
    | intro _
    | dsimp only

@[simp] theorem placeSuspended_gauge (s : State) (p pt : Nat) : (State.placeSuspended s p pt).gauge = s.gauge := by
  unfold State.placeSuspended
  repeat' first
    | rfl
    | (simp; done)
    | (simp_all; done)
    | split
    | (refine (each_gauge _ _ _ ?_).trans ?_)
    | (refine (foldl_gauge _ _ _ ?_).trans ?_)
    | (refine (foldl_snd_gauge _ _ _ ?_).trans ?_)
    | (refine (foldl_fst_gauge _ _ _ ?_).trans ?_)
    | intro _
    | dsimp only

@[simp] theorem markIdle_gauge (s : State) (p pt : Nat) : (State.markIdle s p pt).gauge = s.gauge := by
  simp [State.markIdle]

@[simp] theorem placePart_gauge (s : State) (p pt : Nat) : (State.placePart s p pt).gauge = s.gauge := by
  simp [State.placePart]

@[simp] theorem revokeWaiting_gauge (s : State) (p : Nat) : (State.revokeWaiting s p).gauge = s.gauge := by
  unfold State.revokeWaiting
  repeat' first
    | rfl
    | (simp; done)
    | (simp_all; done)
    | split
    | (refine (each_gauge _ _ _ ?_).trans ?_)
    | (refine (foldl_gauge _ _ _ ?_).trans ?_)
    | (refine (foldl_snd_gauge _ _ _ ?_).trans ?_)
    | (refine (foldl_fst_gauge _ _ _ ?_).trans ?_)
    | intro _
    | dsimp only

@[simp] theorem admitAll_gauge (s : State) (pt : Nat) : (State.admitAll s pt).gauge = s.gauge := by
  simp [State.admitAll]

@[simp] theorem dropUnfit_gauge (s : State) : (State.dropUnfit s).gauge = s.gauge := by
  unfold State.dropUnfit
  repeat' first
    | rfl
    | (simp; done)
    | (simp_all; done)
    | split
    | (refine (each_gauge _ _ _ ?_).trans ?_)
    | (refine (foldl_gauge _ _ _ ?_).trans ?_)
    | (refine (foldl_snd_gauge _ _ _ ?_).trans ?_)
    | (refine (foldl_fst_gauge _ _ _ ?_).trans ?_)
    | intro _
    | dsimp only

end Sys2Proof.Machine
end

