-- ==== Sys2Proof/Laws/Gauge/Extents.lean ====
section
/-! SUPPORT. The operations of Machine/Extents.lean leave the gauge as it was. -/
namespace Sys2Proof.Machine

@[simp] theorem scrubRecord_gauge (s : State) (e : Nat) : (State.scrubRecord s e).gauge = s.gauge := by
  simp [State.scrubRecord]

@[simp] theorem grantExtent_gauge (s : State) (e h n p : Nat) : (State.grantExtent s e h n p).gauge = s.gauge := by
  simp [State.grantExtent]

@[simp] theorem dropCached_gauge (s : State) (t : Cached → Bool) : (State.dropCached s t).gauge = s.gauge := by
  simp [State.dropCached]

@[simp] theorem startQueued_gauge (s : State) (ld : Nat) : (State.startQueued s ld).gauge = s.gauge := by
  simp [State.startQueued]

@[simp] theorem endMigrations_gauge (s : State) (t : Migration → Bool) : (State.endMigrations s t).gauge = s.gauge := by
  simp [State.endMigrations]

@[simp] theorem endMigration_gauge (s : State) (m : Migration) : (State.endMigration s m).gauge = s.gauge := by
  unfold State.endMigration
  repeat' first
    | rfl
    | (simp; done)
    | (simp_all; done)
    | split
    | (refine (each_gauge _ _ _ ?_).trans ?_)
    | (refine (foldl_gauge _ _ _ ?_).trans ?_)
    | (refine (foldl_snd_gauge _ _ _ ?_).trans ?_)
    | (refine (foldl_fst_gauge _ _ _ ?_).trans ?_)
    | intro _
    | dsimp only

@[simp] theorem destroyRegion_gauge (s : State) (r : Nat) : (State.destroyRegion s r).gauge = s.gauge := by
  simp [State.destroyRegion]

@[simp] theorem drainExtent_gauge (s : State) (e : Nat) (force : Bool) : (State.drainExtent s e force).gauge = s.gauge := by
  unfold State.drainExtent
  dsimp only
  (repeat' split) <;> simp

@[simp] theorem answerHost_gauge (s : State) (tag : Nat) (st : Status) (data : List Byte) (poison : Bool) : (State.answerHost s tag st data poison).gauge = s.gauge := by
  simp [State.answerHost]

@[simp] theorem cancelReq_gauge (s : State) (r : FabReq) (k : PendKind) (st : Status) : (State.cancelReq s r k st).gauge = s.gauge := by
  unfold State.cancelReq
  (repeat' split) <;> simp

@[simp] theorem sweepSnoop_gauge (s : State) (line : Nat) : (State.sweepSnoop s line).gauge = s.gauge := by
  unfold State.sweepSnoop
  dsimp only
  rw [each_gauge]
  · split
    · simp
    · rfl
  · intro s w
    cases w <;> simp

@[simp] theorem sweepToken_gauge (s : State) (line : Nat) (t : Token) : (State.sweepToken s line t).gauge = s.gauge := by
  unfold State.sweepToken
  (repeat' split) <;> simp

@[simp] theorem sweepLine_gauge (s : State) (line : Nat) : (State.sweepLine s line).gauge = s.gauge := by
  unfold State.sweepLine
  dsimp only
  (repeat' split) <;> simp

@[simp] theorem sweepBlocks_gauge (s : State) (bs : List Nat) : (State.sweepBlocks s bs).gauge = s.gauge := by
  simp [State.sweepBlocks]

@[simp] theorem cancelQueued_gauge (s : State) (o : BulkOp) (st : Status) : (State.cancelQueued s o st).gauge = s.gauge := by
  simp [State.cancelQueued]

@[simp] theorem cancelChannel_gauge (s : State) (d c : Nat) (t : BulkOp → Bool) (st : Status) : (State.cancelChannel s d c t st).gauge = s.gauge := by
  unfold State.cancelChannel
  (repeat' split) <;> simp

@[simp] theorem cancelBulk_gauge (s : State) (t : BulkOp → Bool) (st : Status) : (State.cancelBulk s t st).gauge = s.gauge := by
  simp [State.cancelBulk]

@[simp] theorem revokeAck_gauge (s : State) (a1 : Ack) : (State.revokeAck s a1).gauge = s.gauge := by
  cases a1 <;> simp [State.revokeAck]

@[simp] theorem cancelWork_gauge (s : State) (bs : List Nat) (who : Nat → Bool) : (State.cancelWork s bs who).gauge = s.gauge := by
  simp [State.cancelWork]

@[simp] theorem scrubSlice_gauge (s : State) (h : Nat) : (State.scrubSlice s h).gauge = s.gauge := by
  unfold State.scrubSlice
  dsimp only
  (repeat' split) <;> simp

@[simp] theorem scrubDone_gauge (s : State) (b : Nat) (certified : Bool) : (State.scrubDone s b certified).gauge = s.gauge := by
  simp [State.scrubDone]

@[simp] theorem certifyBlock_gauge (s : State) (h b round : Nat) : (State.certifyBlock s h b round).gauge = s.gauge := by
  unfold State.certifyBlock
  dsimp only
  (repeat' split) <;> simp

@[simp] theorem certifyAll_gauge (s : State) (h : Nat) : (State.certifyAll s h).gauge = s.gauge := by
  simp [State.certifyAll]

@[simp] theorem substitute_gauge (s : State) (h e b : Nat) : (State.substitute s h e b).gauge = s.gauge := by
  unfold State.substitute
  dsimp only
  (repeat' split) <;> simp

@[simp] theorem tryHost_gauge (s : State) (tag : Nat) : (State.tryHost s tag).gauge = s.gauge := by
  unfold State.tryHost
  dsimp only
  (repeat' split) <;> simp

@[simp] theorem retryHosts_gauge (s : State) : (State.retryHosts s).gauge = s.gauge := by
  simp [State.retryHosts]

@[simp] theorem adjustWindows_gauge (s : State) : (State.adjustWindows s).gauge = s.gauge := by
  simp [State.adjustWindows]

@[simp] theorem readFailed_gauge (s : State) (q : OutReq) (st : Option Status) : (State.readFailed s q st).gauge = s.gauge := by
  unfold State.readFailed
  (repeat' split) <;> simp

end Sys2Proof.Machine
end

