-- ==== Sys2Proof/Laws/Gauge/Coherence.lean ====
section
/-! SUPPORT. The operations of Machine/Coherence.lean leave the gauge as it was. -/
namespace Sys2Proof.Machine

@[simp] theorem fabPages_gauge (ld p : Nat) (need : Rights) (own : Bool) (fuel : Nat) : ∀ (s : State) (pva n : Nat) (acc : List Nat),
    (s.fabPages ld p need own fuel pva n acc).2.gauge = s.gauge := by
  induction fuel with
  | zero => intros; rfl
  | succ k ih =>
    intro s pva n acc
    unfold State.fabPages
    split
    · rfl
    · dsimp only
      refine Eq.trans ?_ (show ((s.noteWalk (s.fabDie ld pva) p pva (s.walkFab p pva need own)).fillFab ld p pva
        (s.walkFab p pva need own)).gauge = s.gauge by simp)
      generalize (s.noteWalk (s.fabDie ld pva) p pva (s.walkFab p pva need own)).fillFab ld p pva (s.walkFab p pva need own) = t
      generalize s.walkFab p pva need own = o
      split
      · split
        · rfl
        · split
          · rfl
          · split
            · simp
            · rw [ih]; simp
      · simp
      · rfl
      · split
        · rfl
        · next h => exact startMigration_gauge _ _ _ _ _ _ _ h
      · split <;> simp
      · rfl

@[simp] theorem fabWalk_gauge (s : State) (r : FabReq) (p : Nat) (o : AgentOp) (pva : Nat) : (State.fabWalk s r p o pva).2.gauge = s.gauge := by
  simp [State.fabWalk]

@[simp] theorem fabCheck_gauge (s : State) (r : FabReq) (p rank : Nat) (o : AgentOp) : (State.fabCheck s r p rank o).2.gauge = s.gauge := by
  simp [State.fabCheck]

@[simp] theorem agentServe_gauge (s : State) (r : FabReq) (o : AgentOp) (ls : List Nat) : (State.agentServe s r o ls).gauge = s.gauge := by
  unfold State.agentServe
  (repeat' split) <;> simp

@[simp] theorem dropVerPins_gauge (s : State) : (State.dropVerPins s).gauge = s.gauge := by
  simp [State.dropVerPins]

@[simp] theorem park_gauge (s : State) (q : Parked) : (State.park s q).gauge = s.gauge := by
  simp [State.park]

@[simp] theorem agentLines_gauge (s : State) (r : FabReq) (o : AgentOp) (pva : Nat) (ls : List Nat) : (State.agentLines s r o pva ls).gauge = s.gauge := by
  unfold State.agentLines
  dsimp only
  (repeat' split) <;> simp

@[simp] theorem dropRevoked_gauge (s : State) (r : FabReq) : (State.dropRevoked s r).gauge = s.gauge := by
  unfold State.dropRevoked
  repeat' first
    | rfl
    | (simp; done)
    | (simp_all; done)
    | split
    | (refine (each_gauge _ _ _ ?_).trans ?_)
    | (refine (foldl_gauge _ _ _ ?_).trans ?_)
    | (refine (foldl_snd_gauge _ _ _ ?_).trans ?_)
    | (refine (foldl_fst_gauge _ _ _ ?_).trans ?_)
    | intro _
    | dsimp only

@[simp] theorem agentOut_gauge (s : State) (r : FabReq) (o : AgentOp) (pva : Nat) (a1 : FabOut) : (State.agentOut s r o pva a1).gauge = s.gauge := by
  cases a1 <;> simp [State.agentOut]

@[simp] theorem agentOp_gauge (s : State) (r : FabReq) (o : AgentOp) : (State.agentOp s r o).gauge = s.gauge := by
  unfold State.agentOp
  (repeat' split) <;> simp

@[simp] theorem unpark_gauge (s : State) (q : Parked) : (State.unpark s q).gauge = s.gauge := by
  unfold State.unpark
  (repeat' split) <;> simp

@[simp] theorem retryParked_gauge (s : State) : (State.retryParked s).gauge = s.gauge := by
  simp [State.retryParked]

@[simp] theorem releaseHeld_gauge (s : State) : (State.releaseHeld s).gauge = s.gauge := by
  simp [State.releaseHeld]

@[simp] theorem onPend_gauge (s : State) (line : Nat) (f : Pend → Pend) : (State.onPend s line f).gauge = s.gauge := by
  simp [State.onPend]

@[simp] theorem cmpWb_gauge (s : State) (who : Requester) (line : Nat) (st : Status) : (State.cmpWb s who line st).gauge = s.gauge := by
  unfold State.cmpWb
  (repeat' split) <;> simp

@[simp] theorem sweepDead_gauge (s : State) (me : Requester) (line : Nat) : (State.sweepDead s me line).gauge = s.gauge := by
  unfold State.sweepDead
  dsimp only
  (repeat' split) <;> simp

@[simp] theorem declareDead_gauge (s : State) (p rank : Nat) : (State.declareDead s p rank).gauge = s.gauge := by
  simp [State.declareDead]

@[simp] theorem trimLine_gauge (s : State) (home line : Nat) : (State.trimLine s home line).gauge = s.gauge := by
  simp [State.trimLine]

@[simp] theorem publishFrames_gauge (s : State) (r v index : Nat) (list : List (Nat × Bool)) : (State.publishFrames s r v index list).gauge = s.gauge := by
  unfold State.publishFrames
  repeat' first
    | rfl
    | (simp; done)
    | (simp_all; done)
    | split
    | (refine (each_gauge _ _ _ ?_).trans ?_)
    | (refine (foldl_gauge _ _ _ ?_).trans ?_)
    | (refine (foldl_snd_gauge _ _ _ ?_).trans ?_)
    | (refine (foldl_fst_gauge _ _ _ ?_).trans ?_)
    | intro _
    | dsimp only

@[simp] theorem publishResult_gauge (s : State) (home tag v : Nat) : (State.publishResult s home tag v).gauge = s.gauge := by
  simp [State.publishResult]

@[simp] theorem endBorrowers_gauge (s : State) (p : Nat) (es : List Nat) : (State.endBorrowers s p es).gauge = s.gauge := by
  unfold State.endBorrowers
  repeat' first
    | rfl
    | (simp; done)
    | (simp_all; done)
    | split
    | (refine (each_gauge _ _ _ ?_).trans ?_)
    | (refine (foldl_gauge _ _ _ ?_).trans ?_)
    | (refine (foldl_snd_gauge _ _ _ ?_).trans ?_)
    | (refine (foldl_fst_gauge _ _ _ ?_).trans ?_)
    | intro _
    | dsimp only

@[simp] theorem endRegion_gauge (s : State) (r : Nat) : (State.endRegion s r).gauge = s.gauge := by
  simp [State.endRegion]

end Sys2Proof.Machine
end

