-- ==== Sys2Proof/Laws/Gauge/Routes.lean ====
section
/-! SUPPORT. The operations of Machine/Routes.lean leave the gauge as it was. -/
namespace Sys2Proof.Machine

@[simp] theorem buildTree_gauge (s : State) (g : Nat) : (State.buildTree s g).gauge = s.gauge := by
  unfold State.buildTree
  repeat' first
    | rfl
    | (simp; done)
    | (simp_all; done)
    | split
    | (refine (each_gauge _ _ _ ?_).trans ?_)
    | (refine (foldl_gauge _ _ _ ?_).trans ?_)
    | (refine (foldl_snd_gauge _ _ _ ?_).trans ?_)
    | (refine (foldl_fst_gauge _ _ _ ?_).trans ?_)
    | intro _
    | dsimp only

@[simp] theorem installRoutes_gauge (s : State) (root : Nat) : (State.installRoutes s root).gauge = s.gauge := by
  simp [State.installRoutes]

end Sys2Proof.Machine
end

