-- ==== Sys2Proof/Laws/Gauge/Effects.lean ====
section
/-! SUPPORT. The operations of Machine/Effects.lean leave the gauge as it was. -/
namespace Sys2Proof.Machine

@[simp] theorem setShaper_gauge (s : State) (p rate burst overhead : Nat) : (State.setShaper s p rate burst overhead).gauge = s.gauge := by
  simp [State.setShaper]

@[simp] theorem setPolicer_gauge (s : State) (p cir pir cbs pbs : Nat) (aware : Bool) : (State.setPolicer s p cir pir cbs pbs aware).gauge = s.gauge := by
  simp [State.setPolicer]

@[simp] theorem setBudget_gauge (s : State) (p lo hi bytes : Nat) : (State.setBudget s p lo hi bytes).gauge = s.gauge := by
  simp [State.setBudget]

@[simp] theorem openEpoch_gauge (s : State) (p : Nat) : (State.openEpoch s p).gauge = s.gauge := by
  simp [State.openEpoch]

@[simp] theorem sendSession_gauge (s : State) (p ep msg frag frags sid : Nat) (body : List Byte) : (State.sendSession s p ep msg frag frags sid body).gauge = s.gauge := by
  simp [State.sendSession]

@[simp] theorem openSession_gauge (s : State) (p : Nat) : (State.openSession s p).gauge = s.gauge := by
  unfold State.openSession
  (repeat' split) <;> simp

@[simp] theorem dropStrokes_gauge (s : State) (p : Nat) : (State.dropStrokes s p).gauge = s.gauge := by
  simp [State.dropStrokes]

@[simp] theorem dropReader_gauge (s : State) (p : Nat) : (State.dropReader s p).gauge = s.gauge := by
  simp [State.dropReader]

@[simp] theorem dropAgents_gauge (s : State) (p : Nat) : (State.dropAgents s p).gauge = s.gauge := by
  simp [State.dropAgents]

@[simp] theorem destroyPart_gauge (s : State) (p : Nat) : (State.destroyPart s p).gauge = s.gauge := by
  simp [State.destroyPart]

@[simp] theorem grantNotice_gauge (s : State) (p e h n : Nat) : (State.grantNotice s p e h n).gauge = s.gauge := by
  unfold State.grantNotice
  dsimp only
  split <;> (next h => have e := congrArg (fun x => x.2.gauge) h; simp only [mbxPut_gauge] at e; simp [e])

@[simp] theorem grantResult_gauge (s : State) (e : Nat) : (State.grantResult s e).gauge = s.gauge := by
  simp [State.grantResult]

@[simp] theorem retireBlock_gauge (s : State) (b : Nat) : (State.retireBlock s b).gauge = s.gauge := by
  unfold State.retireBlock
  dsimp only
  (repeat' split) <;> simp

@[simp] theorem setRing_gauge (s : State) (p : Option Nat) (n pva log2 k : Nat) : (State.setRing s p n pva log2 k).gauge = s.gauge := by
  unfold State.setRing
  (repeat' split) <;> simp

@[simp] theorem pinRegion_gauge (s : State) (r p slot pva : Nat) : (State.pinRegion s r p slot pva).gauge = s.gauge := by
  simp [State.pinRegion]

@[simp] theorem unpinRegion_gauge (s : State) (p slot : Nat) : (State.unpinRegion s p slot).gauge = s.gauge := by
  simp [State.unpinRegion]

@[simp] theorem dropImages_gauge (s : State) (p handle : Nat) : (State.dropImages s p handle).gauge = s.gauge := by
  simp [State.dropImages]

@[simp] theorem setCap_gauge (s : State) (watts asked : Nat) : (State.setCap s watts asked).gauge = s.gauge := by
  simp [State.setCap]

@[simp] theorem retirePage_gauge (s : State) (pa : Nat) : (State.retirePage s pa).gauge = s.gauge := by
  simp [State.retirePage]

@[simp] theorem retireBank_gauge (s : State) (b : BankId) : (State.retireBank s b).gauge = s.gauge := by
  simp [State.retireBank]

@[simp] theorem setHostExt_gauge (s : State) (i : Nat) (f : HostExt → HostExt) : (State.setHostExt s i f).gauge = s.gauge := by
  simp [State.setHostExt]

@[simp] theorem applyChange_gauge (s : State) (a1 : Change) : (State.applyChange s a1).gauge = s.gauge := by
  cases a1
  all_goals
    simp only [State.applyChange]
    (repeat' split) <;> simp

end Sys2Proof.Machine
end

