-- ==== Sys2Proof/Laws/Gauge/Program.lean ====
section
/-! SUPPORT. The operations of Machine/Program.lean leave the gauge as it was. -/
namespace Sys2Proof.Machine

end Sys2Proof.Machine
end

