-- ==== Sys2Proof/Laws/Gauge/Control.lean ====
section
/-! SUPPORT. The operations of Machine/Control.lean leave the gauge as it was. -/
namespace Sys2Proof.Machine

@[simp] theorem rewriteCopy_gauge (s : State) (pa : Nat) : (State.rewriteCopy s pa).gauge = s.gauge := by
  simp [State.rewriteCopy]

@[simp] theorem cleanIssuer_gauge (s : State) (i : Issuer) (a n : Nat) : (State.cleanIssuer s i a n).gauge = s.gauge := by
  unfold State.cleanIssuer
  (repeat' split) <;> simp

theorem writeIssuer_snd (s : State) (i : Issuer) (a : Nat) (bs : List Byte) {st : Status} {t : State}
    (h : s.writeIssuer i a bs = (st, t)) : t.gauge = s.gauge := by
  have e : t = (s.writeIssuer i a bs).2 := by rw [h]
  subst e
  unfold State.writeIssuer
  split
  · dsimp only
    split <;> simp
  · split
    · rfl
    · split
      · split
        · next h => exact writePva_gauge _ _ _ _ h
        · rfl
      · rfl

@[simp] theorem writeIssuer_gauge (s : State) (i : Issuer) (a : Nat) (bs : List Byte) :
    (s.writeIssuer i a bs).2.gauge = s.gauge := writeIssuer_snd s i a bs rfl

theorem orSame_gauge (s : State) (o : Host.Outcome State Fault Refusal) (h : ∀ t, o = .next t → t.gauge = s.gauge) :
    (orSame s o).gauge = s.gauge := by
  unfold orSame
  split
  · exact h _ rfl
  · rfl

@[simp] theorem setQueue_gauge (s : State) (i : Issuer) (l : List CtrlReq) : (State.setQueue s i l).gauge = s.gauge := by
  simp [State.setQueue]

@[simp] theorem addResult_gauge (s : State) (x : Result) : (State.addResult s x).gauge = s.gauge := by
  simp [State.addResult]

@[simp] theorem enqueue_gauge (s : State) (i : Issuer) (r : CtrlReq) : (State.enqueue s i r).gauge = s.gauge := by
  simp [State.enqueue]

@[simp] theorem stage_gauge (s : State) (op : Nat) (cs : List Change) : (State.stage s op cs).gauge = s.gauge := by
  simp [State.stage]

@[simp] theorem settleCtl_gauge (s : State) (i : Issuer) (r : CtrlReq) (o : CtlOut) : (State.settleCtl s i r o).gauge = s.gauge := by
  unfold State.settleCtl
  (repeat' split) <;> simp

theorem control_gauge (s : State) (i : Issuer) (r : CtrlReq) (op sub : Nat)
    (go : State → State → Issuer → CtrlReq → CtlOut × State) (hg : ∀ f s i r, (go f s i r).2.gauge = s.gauge) :
    (s.control i r op sub go).gauge = s.gauge := by
  unfold State.control
  dsimp only
  (repeat' split) <;> simp [hg]

@[simp] theorem pureCtl_gauge (go : State → State → Issuer → CtrlReq → CtlOut) (f s : State) (i : Issuer) (r : CtrlReq) :
    (pureCtl go f s i r).2.gauge = s.gauge := rfl

end Sys2Proof.Machine
end

