-- ==== Sys2Proof/Laws/Gauge/ControlPool.lean ====
section
/-! SUPPORT. The operations of Machine/ControlPool.lean leave the gauge as it was. -/
namespace Sys2Proof.Machine

@[simp] theorem ctlPartCreate_gauge (f s : State) (i : Issuer) (r : CtrlReq) : (ctlPartCreate f s i r).2.gauge = s.gauge := by
  unfold ctlPartCreate
  dsimp only
  (repeat' split) <;> simp

end Sys2Proof.Machine
end

