-- ==== Sys2Proof/Laws/Gauge/ControlDevice.lean ====
section
/-! SUPPORT. The operations of Machine/ControlDevice.lean leave the gauge as it was. -/
namespace Sys2Proof.Machine

@[simp] theorem ctlRegionPin_gauge (f s : State) (_i : Issuer) (r : CtrlReq) : (ctlRegionPin f s _i r).2.gauge = s.gauge := by
  unfold ctlRegionPin
  dsimp only
  (repeat' split) <;> simp

@[simp] theorem ctlPublish_gauge (f s : State) (i : Issuer) (r : CtrlReq) : (ctlPublish f s i r).2.gauge = s.gauge := by
  unfold ctlPublish
  have k := cleanIssuer_gauge s (.owner (Fin.ofNat 64 (reqPart r))) (reqBits r 4 47 0) (8 * reqBits r 5 23 0)
  dsimp only
  refine ite_snd_same rfl (ite_snd_same k (ite_snd_same rfl (ite_snd_same rfl (ite_snd_same rfl (ite_snd_same rfl
    (ite_snd_same rfl (ite_snd_same rfl ?_)))))))
  generalize s.readIssuer (.owner (Fin.ofNat 64 (reqPart r))) (reqBits r 4 47 0) (8 * reqBits r 5 23 0) = list
  cases list with
  | ok bs =>
    dsimp only
    generalize (if (f.region (reqBits r 2 9 0)).frames < reqBits r 5 23 0 then some (f.region (reqBits r 2 9 0)).frames
      else badUpdate (f.region (reqBits r 2 9 0)) (updateList bs (reqBits r 5 23 0))) = bad
    cases bad with
    | some n => exact k
    | none => exact ite_snd_same k ((onRegion_gauge _ _ _).trans k)
  | wait => rfl
  | bad st => rfl

@[simp] theorem ctlRoleSwap_gauge (_f s : State) (_i : Issuer) (r : CtrlReq) : (ctlRoleSwap _f s _i r).2.gauge = s.gauge := by
  simp [ctlRoleSwap]

@[simp] theorem ctlFwStage_gauge (_f s : State) (_i : Issuer) (r : CtrlReq) : (ctlFwStage _f s _i r).2.gauge = s.gauge := by
  simp [ctlFwStage]

end Sys2Proof.Machine
end

