-- ==== Sys2Proof/Laws/Gauge/Background.lean ====
section
/-! SUPPORT. The operations of Machine/Background.lean leave the gauge as it was. -/
namespace Sys2Proof.Machine

@[simp] theorem bgProgLoad_gauge (f s : State) (i : Issuer) (r : CtrlReq) : (bgProgLoad f s i r).2.gauge = s.gauge := by
  unfold bgProgLoad
  dsimp only
  (repeat' split) <;> simp

@[simp] theorem giveReport_gauge (s : State) (i : Issuer) (a limit : Nat) (bs : List Byte) : (State.giveReport s i a limit bs).2.gauge = s.gauge := by
  unfold State.giveReport
  split
  · rfl
  · split
    · next h =>
      cases i <;> simp [writeIssuer_snd _ _ _ _ h]
    · next h => exact writeIssuer_snd _ _ _ _ h

@[simp] theorem bgAttest_gauge (_f s : State) (i : Issuer) (r : CtrlReq) : (bgAttest _f s i r).2.gauge = s.gauge := by
  unfold bgAttest
  (repeat' split) <;> simp

@[simp] theorem bgErrRead_gauge (_f s : State) (i : Issuer) (r : CtrlReq) : (bgErrRead _f s i r).2.gauge = s.gauge := by
  unfold bgErrRead
  dsimp only
  split
  · rfl
  · split <;> (next h => exact writeIssuer_snd _ _ _ _ h)

@[simp] theorem bgFwStage_gauge (_f s : State) (_i : Issuer) (_r : CtrlReq) : (bgFwStage _f s _i _r).2.gauge = s.gauge := by
  unfold bgFwStage
  (repeat' split) <;> simp

end Sys2Proof.Machine
end

