-- ==== Sys2Proof/Laws/Gauge/Journal.lean ====
section
/-! SUPPORT. The operations of Machine/Journal.lean leave the gauge as it was. -/
namespace Sys2Proof.Machine

@[simp] theorem onCopy_gauge (s : State) (h : Nat) (f : JournalCopy → JournalCopy) : (State.onCopy s h f).gauge = s.gauge := by
  simp [State.onCopy]

@[simp] theorem writeRecord_gauge (s : State) (r : Journal) : (State.writeRecord s r).gauge = s.gauge := by
  simp [State.writeRecord]

@[simp] theorem recopy_gauge (s : State) (h : Nat) : (State.recopy s h).gauge = s.gauge := by
  simp [State.recopy]

@[simp] theorem writeCheckpoint_gauge (s : State) (c : Checkpoint) : (State.writeCheckpoint s c).gauge = s.gauge := by
  simp [State.writeCheckpoint]

end Sys2Proof.Machine
end

