-- ==== Sys2Proof/Laws/Gauge/Security.lean ====
section
/-! SUPPORT. The operations of Machine/Security.lean leave the gauge as it was. -/
namespace Sys2Proof.Machine

@[simp] theorem sendDone_gauge (s : State) (p ep sid : Nat) (st : Status) : (State.sendDone s p ep sid st).gauge = s.gauge := by
  simp [State.sendDone]

end Sys2Proof.Machine
end

