-- ==== Sys2Proof/Laws/Gauge/Links.lean ====
section
/-! SUPPORT. The operations of Machine/Links.lean leave the gauge as it was. -/
namespace Sys2Proof.Machine

@[simp] theorem setLink_gauge (s : State) (l : Nat) (st : LState) : (State.setLink s l st).gauge = s.gauge := by
  simp [State.setLink]

@[simp] theorem touchFlood_gauge (s : State) : (State.touchFlood s).gauge = s.gauge := by
  simp [State.touchFlood]

@[simp] theorem dropLinkRoutes_gauge (s : State) (l : Nat) : (State.dropLinkRoutes s l).gauge = s.gauge := by
  simp [State.dropLinkRoutes]

@[simp] theorem linkDown_gauge (s : State) (l cause : Nat) : (State.linkDown s l cause).gauge = s.gauge := by
  simp [State.linkDown]

@[simp] theorem resend_gauge (s : State) (l : Nat) (t : Nat → Bool) : (State.resend s l t).gauge = s.gauge := by
  simp [State.resend]

@[simp] theorem acked_gauge (s : State) (l seq : Nat) : (State.acked s l seq).gauge = s.gauge := by
  simp [State.acked]

@[simp] theorem sendNak_gauge (s : State) (l : Nat) : (State.sendNak s l).gauge = s.gauge := by
  simp [State.sendNak]

@[simp] theorem returnCredit_gauge (s : State) (l vc units : Nat) : (State.returnCredit s l vc units).gauge = s.gauge := by
  simp [State.returnCredit]

@[simp] theorem police_gauge (s : State) (ld : Nat) (p : Packet) : (State.police s ld p).2.gauge = s.gauge := by
  unfold State.police
  dsimp only
  split
  · split <;> split <;> simp
  · split <;> simp
  · simp
  · simp

@[simp] theorem noteCtr_gauge (s : State) (p : Packet) (g : Nat) : (State.noteCtr s p g).gauge = s.gauge := by
  simp [State.noteCtr]

@[simp] theorem turnAway_gauge (s : State) (ld : Nat) (p : Packet) (op : Nat) (st : Status) (retry : Nat) : (State.turnAway s ld p op st retry).gauge = s.gauge := by
  simp [State.turnAway]

@[simp] theorem agentDoorbell_gauge (s : State) (ld : Nat) (p : Packet) : (State.agentDoorbell s ld p).gauge = s.gauge := by
  simp [State.agentDoorbell]

@[simp] theorem deliver_gauge (s : State) (ld : Nat) (p : Packet) : (State.deliver s ld p).gauge = s.gauge := by
  simp [State.deliver]

@[simp] theorem deliverFlagged_gauge (s : State) (p : Packet) : (State.deliverFlagged s p).gauge = s.gauge := by
  simp [State.deliverFlagged]

@[simp] theorem flagged_gauge (s : State) (p : Packet) : (State.flagged s p).gauge = s.gauge := by
  unfold State.flagged
  dsimp only
  (repeat' split) <;> simp

@[simp] theorem fencedResult_gauge (s : State) (ld : Nat) (p : Packet) : (State.fencedResult s ld p).gauge = s.gauge := by
  simp [State.fencedResult]

@[simp] theorem receive_gauge (s : State) (ld : Nat) (p : Packet) : (State.receive s ld p).gauge = s.gauge := by
  unfold State.receive
  dsimp only
  have h0 : (s.onFlow (flowOf p) (fun x => { x with last := s.now })).gauge = s.gauge := onFlow_gauge _ _ _
  generalize s.onFlow (flowOf p) (fun x => { x with last := s.now }) = u at h0 ⊢
  have h2 : (if p.cls = 0 then u.police ld p else (none, u)).2.gauge = s.gauge := by split <;> simp [h0]
  generalize (if p.cls = 0 then u.police ld p else (none, u)) = pol at h2 ⊢
  obtain ⟨o, t⟩ := pol
  replace h2 : t.gauge = s.gauge := h2
  have ta := fun op st n => (turnAway_gauge t ld p op st n).trans h2
  refine ite_same (ite_same ((turnAway_gauge _ _ _ _ _ _).trans h0) h0) ?_
  cases o with
  | some n => exact ta _ _ _
  | none =>
    dsimp only
    split
    · exact (originate_gauge _ _ _ _ _).trans h2
    · exact ite_same h2 (ite_same ((countNet_gauge _ _).trans h2) (ite_same (ta _ _ _) (ite_same ((flagged_gauge _ _).trans h2)
        (ite_same (ite_same ((fencedResult_gauge _ _ _).trans h2) (ite_same (ta _ _ _)
          ((enqueue_gauge _ _ _).trans ((deliver_gauge _ _ _).trans h2)))) (ite_same ((deliver_gauge _ _ _).trans h2) h2)))))

@[simp] theorem rankChecked_gauge (s : State) (ld : Nat) (p : Packet) : (State.rankChecked s ld p).gauge = s.gauge := by
  unfold State.rankChecked
  dsimp only
  have r := fun (st : Status) => ite_same (c := p.cls = 1) (rfl : s.gauge = s.gauge) (turnAway_gauge s ld p opErr st 0)
  exact ite_same (countNet_gauge _ _) (ite_same (r _) (ite_same (r _) (ite_same (r _) (ite_same (countNet_gauge _ _)
    (ite_same rfl (receive_gauge _ _ _))))))

@[simp] theorem cacheRank_gauge (s : State) (ld p rank : Nat) : (State.cacheRank s ld p rank).gauge = s.gauge := by
  simp [State.cacheRank]

theorem interface_elim (s : State) (ld : Nat) (p : Packet) :
    (s.interface ld p).elim s.gauge State.gauge = s.gauge := by
  unfold State.interface
  (repeat' split) <;> simp

theorem interface_gauge (s : State) (ld : Nat) (p : Packet) {t2 : State} (h : s.interface ld p = some t2) :
    t2.gauge = s.gauge := by
  have e := interface_elim s ld p
  rw [h] at e; exact e

@[simp] theorem sendMcAck_gauge (s : State) (w : McWait) : (State.sendMcAck s w).gauge = s.gauge := by
  simp [State.sendMcAck]

@[simp] theorem mcAnswer_gauge (s : State) (l : Nat) (w : McWait) (p : Packet) : (State.mcAnswer s l w p).gauge = s.gauge := by
  simp [State.mcAnswer]

@[simp] theorem route_gauge (s : State) (l : Nat) (p : Packet) : (State.route s l p).gauge = s.gauge := by
  unfold State.route
  dsimp only
  split
  · simp
  · split
    · split <;> simp
    · split
      · split
        · next h => simp [interface_gauge _ _ _ h]
        · simp
      · split
        · simp
        · split <;> simp

@[simp] theorem forward_gauge (s : State) (l : Nat) (e : Input) : (State.forward s l e).gauge = s.gauge := by
  unfold State.forward
  dsimp only
  split
  · split <;> simp
  · split
    · split
      · next h => simp [interface_gauge _ _ _ h]
      · rfl
    · split
      · split <;> simp
      · split <;> simp

@[simp] theorem startTraining_gauge (s : State) (l : Nat) : (State.startTraining s l).gauge = s.gauge := by
  simp [State.startTraining]

@[simp] theorem trainFailed_gauge (s : State) (l : Nat) : (State.trainFailed s l).gauge = s.gauge := by
  simp [State.trainFailed]

@[simp] theorem askRetrain_gauge (s : State) (l : Nat) (m : BitVec 8) : (State.askRetrain s l m).gauge = s.gauge := by
  simp [State.askRetrain]

@[simp] theorem failLink_gauge (s : State) (l cause : Nat) : (State.failLink s l cause).gauge = s.gauge := by
  simp [State.failLink]

end Sys2Proof.Machine
end

