-- ==== Sys2Proof/Laws/Gauge/Fabric.lean ====
section
/-! SUPPORT. The operations of Machine/Fabric.lean leave the gauge as it was. -/
namespace Sys2Proof.Machine

@[simp] theorem flagExpire_gauge (s : State) (f : FlowId) : (State.flagExpire s f).gauge = s.gauge := by
  unfold State.flagExpire
  dsimp only
  (repeat' split) <;> simp

@[simp] theorem sendFlood_gauge (s : State) (m : LinkStateMsg) (except_ : Option Nat) : (State.sendFlood s m except_).gauge = s.gauge := by
  simp [State.sendFlood]

@[simp] theorem flushEscape_gauge (s : State) : (State.flushEscape s).gauge = s.gauge := by
  simp [State.flushEscape]

@[simp] theorem loseLinkDie_gauge (s : State) (d : Nat) : (State.loseLinkDie s d).gauge = s.gauge := by
  simp [State.loseLinkDie]

end Sys2Proof.Machine
end

