-- ==== Sys2Proof/Laws/Gauge/Restart.lean ====
section
/-! SUPPORT. The operations of Machine/Restart.lean leave the gauge as it was. -/
namespace Sys2Proof.Machine

@[simp] theorem localAnswers_gauge (s : State) : (State.localAnswers s).gauge = s.gauge := by
  simp [State.localAnswers]

@[simp] theorem rimDark_gauge (s : State) : (State.rimDark s).gauge = s.gauge := by
  simp [State.rimDark]

@[simp] theorem applyFailing_gauge (s : State) : (State.applyFailing s).gauge = s.gauge := by
  simp [State.applyFailing]

@[simp] theorem flushBuffers_gauge (s : State) : (State.flushBuffers s).gauge = s.gauge := by
  simp [State.flushBuffers]

@[simp] theorem release_gauge (s : State) : (State.release s).gauge = s.gauge := by
  simp [State.release]

@[simp] theorem takeStaged_gauge (s : State) : (State.takeStaged s).gauge = s.gauge := by
  unfold State.takeStaged
  (repeat' split) <;> simp

@[simp] theorem authority_gauge (s : State) : (State.authority s).gauge = s.gauge := by
  simp [State.authority]

@[simp] theorem bootStakes_gauge (s : State) (f : StartFacts) : (State.bootStakes s f).gauge = s.gauge := by
  simp [State.bootStakes]

@[simp] theorem trainBridges_gauge (s : State) (ok : List Bool) : (State.trainBridges s ok).gauge = s.gauge := by
  simp [State.trainBridges]

@[simp] theorem testDie_gauge (s : State) (d : Nat) (ok : Bool) : (State.testDie s d ok).gauge = s.gauge := by
  simp [State.testDie]

@[simp] theorem selfTest_gauge (s : State) (f : StartFacts) : (State.selfTest s f).gauge = s.gauge := by
  simp [State.selfTest]

@[simp] theorem initMetadata_gauge (s : State) : (State.initMetadata s).gauge = s.gauge := by
  simp [State.initMetadata]

end Sys2Proof.Machine
end

