-- ==== Sys2Proof/Laws/Gauge/Power.lean ====
section
/-! SUPPORT. The operations of Machine/Power.lean leave the gauge as it was. -/
namespace Sys2Proof.Machine

@[simp] theorem supply_gauge (s : State) (kind d1 : Nat) : (State.supply s kind d1).gauge = s.gauge := by
  simp [State.supply]

@[simp] theorem thermal_gauge (s : State) (kind d1 : Nat) : (State.thermal s kind d1).gauge = s.gauge := by
  simp [State.thermal]

@[simp] theorem flushMeta_gauge (s : State) (h : Nat) : (State.flushMeta s h).gauge = s.gauge := by
  simp [State.flushMeta]

@[simp] theorem powerBack_gauge (s : State) : (State.powerBack s).gauge = s.gauge := by
  simp [State.powerBack]

@[simp] theorem learnAll_gauge (s : State) : (State.learnAll s).gauge = s.gauge := by
  simp [State.learnAll]

@[simp] theorem groupStep_gauge (s : State) (nonWeaver : Nat) : (State.groupStep s nonWeaver).gauge = s.gauge := by
  simp [State.groupStep]

@[simp] theorem onWeavers_gauge (s : State) (f : Nat → Weaver → Weaver) : (State.onWeavers s f).gauge = s.gauge := by
  simp [State.onWeavers]

end Sys2Proof.Machine
end

