-- ==== Sys2Proof/Laws/Gauge/Reset.lean ====
section
/-! SUPPORT. The operations of Machine/Reset.lean leave the gauge as it was. -/
namespace Sys2Proof.Machine

@[simp] theorem resendHeads_gauge (s : State) : (State.resendHeads s).gauge = s.gauge := by
  unfold State.resendHeads
  refine each_gauge _ _ _ (fun s ch => ?_)
  (repeat' split) <;> simp

@[simp] theorem rimNak_gauge (s : State) (tag : Nat) (st : Status) : (State.rimNak s tag st).gauge = s.gauge := by
  simp [State.rimNak]

@[simp] theorem pullToHost_gauge (s : State) (t : RimMsg → Bool) : (State.pullToHost s t).gauge = s.gauge := by
  unfold State.pullToHost
  split
  · next h => exact takeToHost_gauge _ _ h
  · rfl

@[simp] theorem pullToFabric_gauge (s : State) (t : RimMsg → Bool) : (State.pullToFabric s t).gauge = s.gauge := by
  unfold State.pullToFabric
  split
  · next h => exact takeToFabric_gauge _ _ h
  · rfl

@[simp] theorem takeResetReq_gauge (s : State) : (State.takeResetReq s).gauge = s.gauge := by
  simp [State.takeResetReq]

@[simp] theorem resetAccepted_gauge (s : State) (kind b : Nat) : (State.resetAccepted s kind b).gauge = s.gauge := by
  simp [State.resetAccepted]

@[simp] theorem resumeTimelines_gauge (s : State) : (State.resumeTimelines s).gauge = s.gauge := by
  simp [State.resumeTimelines]

end Sys2Proof.Machine
end

