-- ==== Sys2Proof/Laws/Gauge/Rim.lean ====
section
/-! SUPPORT. The operations of Machine/Rim.lean leave the gauge as it was. -/
namespace Sys2Proof.Machine

@[simp] theorem readAnswer_gauge (s : State) (tag : Nat) (st : Nat) (data : List Byte) (poison : Bool) : (State.readAnswer s tag st data poison).gauge = s.gauge := by
  simp [State.readAnswer]

@[simp] theorem writeAnswer_gauge (s : State) (tag : Nat) : (State.writeAnswer s tag).gauge = s.gauge := by
  simp [State.writeAnswer]

@[simp] theorem hostMem_gauge (s : State) (type : Nat) (rsvd : Bool) (q : HostReq) : (State.hostMem s type rsvd q).gauge = s.gauge := by
  simp [State.hostMem]

@[simp] theorem onRimGroup_gauge (s : State) (g : Nat) (f : RimGroup → RimGroup) : (State.onRimGroup s g f).gauge = s.gauge := by
  simp [State.onRimGroup]

@[simp] theorem rimLost_gauge (s : State) : (State.rimLost s).gauge = s.gauge := by
  simp [State.rimLost]

@[simp] theorem moveTraffic_gauge (s : State) : (State.moveTraffic s).gauge = s.gauge := by
  simp [State.moveTraffic]

@[simp] theorem groupDown_gauge (s : State) (g : Nat) : (State.groupDown s g).gauge = s.gauge := by
  simp [State.groupDown]

@[simp] theorem setLanes_gauge (s : State) (g : Nat) (m : BitVec 10) : (State.setLanes s g m).gauge = s.gauge := by
  simp [State.setLanes]

@[simp] theorem rimDrop_gauge (s : State) (atHost : Bool) (cause : Nat) : (State.rimDrop s atHost cause).gauge = s.gauge := by
  simp [State.rimDrop]

@[simp] theorem takeResult_gauge (s : State) (ws : List U64) : (State.takeResult s ws).gauge = s.gauge := by
  simp [State.takeResult]

@[simp] theorem hostNak_gauge (s : State) (type tag : Nat) (st : Status) (kept : List U64) : (State.hostNak s type tag st kept).gauge = s.gauge := by
  simp [State.hostNak]

@[simp] theorem countTxDone_gauge (s : State) (p : Nat) : (State.countTxDone s p).gauge = s.gauge := by
  simp [State.countTxDone]

@[simp] theorem timeSync_gauge (s : State) : (State.timeSync s).gauge = s.gauge := by
  simp [State.timeSync]

end Sys2Proof.Machine
end

