-- ==== Sys2Proof/Laws/Gauge/Counters.lean ====
section
/-! SUPPORT. The operations of Machine/Counters.lean leave the gauge as it was. -/
namespace Sys2Proof.Machine

@[simp] theorem copyShadows_gauge (s : State) (b : Nat) : (State.copyShadows s b).gauge = s.gauge := by
  simp [State.copyShadows]

theorem putSnap_gauge (s : State) (p at_ : Nat) (rec_ : List U64) {t2 : State} (h : State.putSnap s p at_ rec_ = some t2) : t2.gauge = s.gauge := by
  unfold State.putSnap at h
  split at h
  · cases h
  · next e => exact (writePva_gauge _ _ _ _ h).trans (writePva_gauge _ _ _ _ e)

@[simp] theorem writeSnap_gauge (s : State) (p b : Nat) (partial_ : Bool) : (State.writeSnap s p b partial_).gauge = s.gauge := by
  unfold State.writeSnap
  generalize s.snapRecord p b partial_ = rec_
  dsimp only
  split <;> split <;> (try split) <;>
    first | (simp; done) | (simp [putSnap_gauge _ _ _ _ (by assumption)]; done)

@[simp] theorem keepSnap_gauge (s : State) (b : Nat) (partial_ : Bool) : (State.keepSnap s b partial_).gauge = s.gauge := by
  simp [State.keepSnap]

end Sys2Proof.Machine
end

