-- ==== Sys2Proof/Laws/Gauge/Telemetry.lean ====
section
/-! SUPPORT. The operations of Machine/Telemetry.lean leave the gauge as it was. -/
namespace Sys2Proof.Machine

@[simp] theorem startKeep_gauge (s : State) (k : Nat) (digest : List U64) (svn : Nat) (forStage : Bool) : (State.startKeep s k digest svn forStage).gauge = s.gauge := by
  simp [State.startKeep]

@[simp] theorem stageChunks_gauge (s : State) (facts : ImageFacts) : (State.stageChunks s facts).gauge = s.gauge := by
  simp [State.stageChunks]

@[simp] theorem beginRecovery_gauge (s : State) (index : Nat) (words : List U64) : (State.beginRecovery s index words).gauge = s.gauge := by
  simp [State.beginRecovery]

end Sys2Proof.Machine
end

