-- ==== Sys2Proof/Laws/Gauge/HostRegs.lean ====
section
/-! SUPPORT. The operations of Machine/HostRegs.lean leave the gauge as it was. -/
namespace Sys2Proof.Machine

@[simp] theorem ctrlGo_gauge (s : State) : (State.ctrlGo s).gauge = s.gauge := by
  simp [State.ctrlGo]

end Sys2Proof.Machine
end

