-- ==== Sys2Proof/Laws/Gauge/HostMgmt.lean ====
section
/-! SUPPORT. The operations of Machine/HostMgmt.lean leave the gauge as it was. -/
namespace Sys2Proof.Machine

@[simp] theorem serve_gauge (s : State) (ch svc reqId : Nat) (o : Served) : (State.serve s ch svc reqId o).gauge = s.gauge := by
  simp [State.serve]

@[simp] theorem cfgStage_gauge (s : State) (reqId : Nat) (w0 w1 : U64) (key : List U64) : (State.cfgStage s reqId w0 w1 key).gauge = s.gauge := by
  simp [State.cfgStage]

@[simp] theorem withdraw_gauge (s : State) (reqId e : Nat) (force : Bool) : (State.withdraw s reqId e force).gauge = s.gauge := by
  unfold State.withdraw
  dsimp only
  (repeat' split) <;> simp

@[simp] theorem serviceMsg_gauge (s : State) (ch : Nat) (m : MbxMsg) : (State.serviceMsg s ch m).gauge = s.gauge := by
  simp [State.serviceMsg]

theorem consume_gauge (s : State) (ch : Nat) {a : MbxMsg} {t2 : State} (h : State.consume s ch = some (a, t2)) : t2.gauge = s.gauge := by
  simp only [State.consume, Option.map_eq_some_iff, Prod.mk.injEq] at h
  obtain ⟨⟨m, u⟩, hx, -, rfl⟩ := h
  simp [mbxTake_gauge _ _ hx]

@[simp] theorem serveHosts_gauge (s : State) : (State.serveHosts s).gauge = s.gauge := by
  unfold State.serveHosts
  split
  · rfl
  · refine each_gauge _ _ _ (fun s ch => each_gauge _ _ _ (fun s _ => ?_))
    split
    · next h => simp [consume_gauge _ _ h]
    · rfl

@[simp] theorem takeService_gauge (s : State) (ch svc reqId : Nat) : (State.takeService s ch svc reqId).gauge = s.gauge := by
  unfold State.takeService
  split
  · split
    · split
      · next h => exact consume_gauge _ _ h
      · rfl
    · rfl
  · rfl

@[simp] theorem cancelHosts_gauge (s : State) (x : HostExt) : (State.cancelHosts s x).gauge = s.gauge := by
  simp [State.cancelHosts]

@[simp] theorem cxlAnswer_gauge (s : State) (code : Nat) (ws : List U64) : (State.cxlAnswer s code ws).gauge = s.gauge := by
  simp [State.cxlAnswer]

end Sys2Proof.Machine
end

