-- ==== Sys2Proof/Laws/Gauge/Stakes.lean ====
section
/-! SUPPORT. The operations of Machine/Stakes.lean leave the gauge as it was. -/
namespace Sys2Proof.Machine

@[simp] theorem releaseStake_gauge (s : State) (k : Nat) : (State.releaseStake s k).gauge = s.gauge := by
  simp [State.releaseStake]

@[simp] theorem runImage_gauge (s : State) (k : Nat) (digest : List U64) (svn : Nat) : (State.runImage s k digest svn).gauge = s.gauge := by
  simp [State.runImage]

@[simp] theorem checkUpdate_gauge (s : State) : (State.checkUpdate s).gauge = s.gauge := by
  simp [State.checkUpdate]

@[simp] theorem raiseRollback_gauge (s : State) : (State.raiseRollback s).gauge = s.gauge := by
  simp [State.raiseRollback]

@[simp] theorem dropRequests_gauge (s : State) : (State.dropRequests s).gauge = s.gauge := by
  simp [State.dropRequests]

@[simp] theorem discardStaged_gauge (s : State) : (State.discardStaged s).gauge = s.gauge := by
  unfold State.discardStaged
  repeat' first
    | rfl
    | (simp; done)
    | (simp_all; done)
    | split
    | (refine (each_gauge _ _ _ ?_).trans ?_)
    | (refine (foldl_gauge _ _ _ ?_).trans ?_)
    | (refine (foldl_snd_gauge _ _ _ ?_).trans ?_)
    | (refine (foldl_fst_gauge _ _ _ ?_).trans ?_)
    | intro _
    | dsimp only

@[simp] theorem loseControl_gauge (s : State) : (State.loseControl s).gauge = s.gauge := by
  unfold State.loseControl
  repeat' first
    | rfl
    | (simp; done)
    | (simp_all; done)
    | split
    | (refine (each_gauge _ _ _ ?_).trans ?_)
    | (refine (foldl_gauge _ _ _ ?_).trans ?_)
    | (refine (foldl_snd_gauge _ _ _ ?_).trans ?_)
    | (refine (foldl_fst_gauge _ _ _ ?_).trans ?_)
    | intro _
    | dsimp only

@[simp] theorem grantOther_gauge (s : State) : (State.grantOther s).gauge = s.gauge := by
  simp [State.grantOther]

@[simp] theorem stakeStops_gauge (s : State) (k : Nat) : (State.stakeStops s k).gauge = s.gauge := by
  simp [State.stakeStops]

@[simp] theorem completeRecord_gauge (s : State) : (State.completeRecord s).gauge = s.gauge := by
  simp [State.completeRecord]

@[simp] theorem takeoverFails_gauge (s : State) : (State.takeoverFails s).gauge = s.gauge := by
  simp [State.takeoverFails]

@[simp] theorem swapResult_gauge (s : State) (tag : Option Nat) (st : Status) (rs : List Nat) : (State.swapResult s tag st rs).gauge = s.gauge := by
  unfold State.swapResult
  (repeat' split) <;> simp

@[simp] theorem dropHandover_gauge (s : State) (st : Status) : (State.dropHandover s st).gauge = s.gauge := by
  unfold State.dropHandover
  (repeat' split) <;> simp

end Sys2Proof.Machine
end

