-- ==== Sys2Proof/Laws/Gauge/Held.lean ====
section
/-! SUPPORT. Commands that leave the gauge as it was, and changes that keep the queue and the legal ranges. -/
namespace Sys2Proof.Machine

/-- The next state, where there is one, has the gauge of the old state. -/
def Held (s : State) (o : Host.Outcome State Fault Refusal) : Prop := ∀ t, o = .next t → t.gauge = s.gauge

@[simp] theorem held_next (s t : State) : Held s (.next t) ↔ t.gauge = s.gauge :=
  ⟨fun h => h t rfl, fun h u e => by cases e; exact h⟩
@[simp] theorem held_fault (s : State) (f : Fault) : Held s (.fault f) := fun _ e => by cases e
@[simp] theorem held_ite (s : State) (c : Prop) [Decidable c] (a b : Host.Outcome State Fault Refusal) :
    Held s (if c then a else b) ↔ if c then Held s a else Held s b := by split <;> rfl

@[simp] theorem held_ok_iff (s t : State) : Held s (ok t) ↔ t.gauge = s.gauge := held_next s t
theorem held_ok {s t : State} (h : t.gauge = s.gauge) : Held s (ok t) := (held_next s t).mpr h

/-- A choice between states of one gauge. -/
theorem either_gauge {s a b : State} (c : Prop) [Decidable c] (h : a.gauge = s.gauge) (k : b.gauge = s.gauge) :
    (if c then a else b).gauge = s.gauge := by split <;> assumption

/-- The state itself. -/
theorem held_self (s : State) : Held s (.next s) := (held_next s s).mpr rfl

/-- A choice that is held both ways is held. -/
theorem orSame_held (s : State) (o : Host.Outcome State Fault Refusal) (h : Held s o) : (orSame s o).gauge = s.gauge :=
  orSame_gauge s o h

@[simp] theorem execExtentDrainLimit_held (e : Nat) (s : State) : Held s (execExtentDrainLimit e s) := by
  unfold execExtentDrainLimit
  dsimp only
  split <;> simp

@[simp] theorem execExtentScrubbingEntry_held (e : Nat) (s : State) : Held s (execExtentScrubbingEntry e s) := by
  unfold execExtentScrubbingEntry
  dsimp only
  split <;> simp

@[simp] theorem execExtentFree_held (e : Nat) (s : State) : Held s (execExtentFree e s) := by
  unfold execExtentFree
  dsimp only
  split <;> simp

@[simp] theorem execRegionDrainLimit_held (r : Fin 1024) (s : State) : Held s (execRegionDrainLimit r s) := by
  unfold execRegionDrainLimit
  dsimp only
  split
  · simp
  · split
    · simp
    · refine (held_next _ _).mpr ((onRegion_gauge _ _ _).trans ((each_gauge _ _ _ fun s l => ?_).trans (by simp)))
      repeat' split
      all_goals simp

@[simp] theorem execStackFailed_held (st : StackId) (cause : StackCause) (s : State) : Held s (execStackFailed st cause s) := by
  unfold execStackFailed
  dsimp only
  split <;> simp

@[simp] theorem dueTransitions_gauge (s : State) : s.dueTransitions.gauge = s.gauge := by
  unfold State.dueTransitions
  repeat' first
    | rfl
    | (simp; done)
    | (refine orSame_held _ _ ?_)
    | (refine (each_gauge _ _ _ ?_).trans ?_)
    | (refine (certifyAll_gauge _ _).trans ?_)
    | intro _
    | dsimp only
    | split

/-- The queue is the same, and legal ranges are kept. -/
def Fair (s t : State) : Prop := t.pending = s.pending ∧ (s.Legal → t.Legal)

theorem Fair.refl (s : State) : Fair s s := ⟨rfl, id⟩
theorem Fair.trans {s t u : State} (h : Fair s t) (k : Fair t u) : Fair s u := ⟨k.1.trans h.1, fun l => k.2 (h.2 l)⟩

/-- A change that leaves the gauge as it was is fair. -/
theorem fair_of_gauge {s t : State} (h : t.gauge = s.gauge) : Fair s t := by
  simp only [State.gauge, PowerSt.dials, Prod.mk.injEq] at h
  obtain ⟨h1, -, h2, h3, h4, h5, h6, h7, h8, h9⟩ := h
  refine ⟨h1, fun l => ?_⟩
  simpa only [State.Legal, RoundSt.Legal, PowerSt.Legal, h2, h3, h4, h5, h6, h7, h8, h9] using l

/-- A change of the round's state that keeps its lengths legal is fair. -/
theorem onRnd_fair (s : State) (f : RoundSt → RoundSt) (h : s.rnd.Legal → (f s.rnd).Legal) : Fair s (s.onRnd f) :=
  ⟨rfl, fun l => ⟨h l.1, l.2⟩⟩

/-- A change of the power controller's state that keeps its actuators legal is fair. -/
theorem onPower_fair (s : State) (f : PowerSt → PowerSt) (h : s.power.Legal → (f s.power).Legal) : Fair s (s.onPower f) :=
  ⟨rfl, fun l => ⟨l.1, h l.2⟩⟩

/-- A change after one that leaves the gauge as it was. -/
theorem Fair.after {s t u : State} (h : t.gauge = s.gauge) (k : Fair t u) : Fair s u := (fair_of_gauge h).trans k
/-- A change before one that leaves the gauge as it was. -/
theorem Fair.before {s t u : State} (k : Fair s t) (h : u.gauge = t.gauge) : Fair s u := k.trans (fair_of_gauge h)

theorem ite_fair {s a b : State} (c : Prop) [Decidable c] (h : Fair s a) (k : Fair s b) : Fair s (if c then a else b) := by
  split <;> assumption

end Sys2Proof.Machine
end

