-- ==== Sys2Proof/Laws/Held/Coherence.lean ====
section
/-! SUPPORT. The commands of Machine/Coherence.lean that leave the gauge as it was. -/
namespace Sys2Proof.Machine

theorem execRdS_held (r : FabReq) (s : State) : Held s (execRdS r s) := by
  unfold execRdS
  repeat' first
    | rfl
    | (simp; done)
    | (simp_all; done)
    | (refine (held_next _ _).mpr ?_)
    | (refine held_ok ?_)
    | split
    | (refine (each_gauge _ _ _ fun _ _ => ?_).trans ?_)
    | (refine (foldl_gauge _ _ _ fun _ _ => ?_).trans ?_)
    | (refine control_gauge _ _ _ _ _ _ fun _ _ _ _ => ?_)
    | (refine tryIssue_gauge _ _ _ _ _ _ _ _ fun _ _ => ?_)
    | dsimp only

theorem execRdX_held (r : FabReq) (s : State) : Held s (execRdX r s) := by
  simp [execRdX]

theorem execUpg_held (r : FabReq) (s : State) : Held s (execUpg r s) := by
  simp [execUpg]

theorem execRdNc_held (r : FabReq) (s : State) : Held s (execRdNc r s) := by
  unfold execRdNc
  repeat' first
    | rfl
    | (simp; done)
    | (simp_all; done)
    | (refine (held_next _ _).mpr ?_)
    | (refine held_ok ?_)
    | split
    | (refine (each_gauge _ _ _ fun _ _ => ?_).trans ?_)
    | (refine (foldl_gauge _ _ _ fun _ _ => ?_).trans ?_)
    | (refine control_gauge _ _ _ _ _ _ fun _ _ _ _ => ?_)
    | (refine tryIssue_gauge _ _ _ _ _ _ _ _ fun _ _ => ?_)
    | dsimp only

theorem execWrNc_held (r : FabReq) (data : List Byte) (masks : Option (List U64)) (s : State) : Held s (execWrNc r data masks s) := by
  unfold execWrNc
  repeat' first
    | rfl
    | (simp; done)
    | (simp_all; done)
    | (refine (held_next _ _).mpr ?_)
    | (refine held_ok ?_)
    | split
    | (refine (each_gauge _ _ _ fun _ _ => ?_).trans ?_)
    | (refine (foldl_gauge _ _ _ fun _ _ => ?_).trans ?_)
    | (refine control_gauge _ _ _ _ _ _ fun _ _ _ _ => ?_)
    | (refine tryIssue_gauge _ _ _ _ _ _ _ _ fun _ _ => ?_)
    | dsimp only

theorem execAtom_held (r : FabReq) (op : AtomOp) (width8 : Bool) (operand compare : U64) (s : State) : Held s (execAtom r op width8 operand compare s) := by
  unfold execAtom
  repeat' first
    | rfl
    | (simp; done)
    | (simp_all; done)
    | (refine (held_next _ _).mpr ?_)
    | (refine held_ok ?_)
    | split
    | (refine (each_gauge _ _ _ fun _ _ => ?_).trans ?_)
    | (refine (foldl_gauge _ _ _ fun _ _ => ?_).trans ?_)
    | (refine control_gauge _ _ _ _ _ _ fun _ _ _ _ => ?_)
    | (refine tryIssue_gauge _ _ _ _ _ _ _ _ fun _ _ => ?_)
    | dsimp only

theorem execSelfRefreshExit_held (h : HalfId) (s : State) : Held s (execSelfRefreshExit h s) := by
  simp [execSelfRefreshExit]

theorem execFailoverResyncDone_held (d : DieId) (s : State) : Held s (execFailoverResyncDone d s) := by
  simp [execFailoverResyncDone]

theorem execPageRetireCopy_held (h : HalfId) (s : State) : Held s (execPageRetireCopy h s) := by
  unfold execPageRetireCopy
  (repeat' split) <;> simp

theorem execAckInv_held (p : PartId) (rank line : Nat) (s : State) : Held s (execAckInv p rank line s) := by
  simp [execAckInv]

theorem execFwdDone_held (p : PartId) (rank line : Nat) (data : Option (List Byte)) (poison : Bool) (s : State) : Held s (execFwdDone p rank line data poison s) := by
  unfold execFwdDone
  (repeat' split) <;> simp

theorem execFwdMiss_held (p : PartId) (rank line : Nat) (wbPending : Bool) (s : State) : Held s (execFwdMiss p rank line wbPending s) := by
  simp [execFwdMiss]

theorem execRecallData_held (p : PartId) (rank line : Nat) (data : Option (List Byte)) (poison : Bool) (s : State) : Held s (execRecallData p rank line data poison s) := by
  unfold execRecallData
  (repeat' split) <;> simp

theorem execWb_held (who : Requester) (line : Nat) (dirty keep : Bool) (data : List Byte) (poison : Bool) (s : State) : Held s (execWb who line dirty keep data poison s) := by
  simp [execWb]

theorem execEvict_held (p : PartId) (rank line : Nat) (s : State) : Held s (execEvict p rank line s) := by
  simp [execEvict]

theorem execProbeAck_held (_p : PartId) (_rank : Nat) (s : State) : Held s (execProbeAck _p _rank s) := by
  simp [execProbeAck]

theorem execSnoopProbe_held (line : Nat) (s : State) : Held s (execSnoopProbe line s) := by
  unfold execSnoopProbe
  repeat' first
    | rfl
    | (simp; done)
    | (refine (held_next _ _).mpr ?_)
    | (refine held_ok ?_)
    | split
    | (refine (each_gauge _ _ _ fun _ _ => ?_).trans ?_)
    | (refine (foldl_gauge _ _ _ fun _ _ => ?_).trans ?_)
    | dsimp only

theorem execTokenLapse_held (line : Nat) (s : State) : Held s (execTokenLapse line s) := by
  unfold execTokenLapse
  dsimp only
  (repeat' split) <;> simp

theorem execAgentDeadDeclare_held (p : PartId) (rank : Nat) (s : State) : Held s (execAgentDeadDeclare p rank s) := by
  simp [execAgentDeadDeclare]

theorem execRegionPublishComplete_held (r : Fin 1024) (s : State) : Held s (execRegionPublishComplete r s) := by
  unfold execRegionPublishComplete
  dsimp only
  (repeat' split) <;> simp

theorem execVersionRetire_held (r : Fin 1024) (v : Nat) (s : State) : Held s (execVersionRetire r v s) := by
  unfold execVersionRetire
  dsimp only
  (repeat' split) <;> simp

theorem execRegionInvalidate_held (r : Fin 1024) (s : State) : Held s (execRegionInvalidate r s) := by
  unfold execRegionInvalidate
  dsimp only
  (repeat' split) <;> simp

end Sys2Proof.Machine
end

