-- ==== Sys2Proof/Laws/Held/Extents.lean ====
section
/-! SUPPORT. The commands of Machine/Extents.lean that leave the gauge as it was. -/
namespace Sys2Proof.Machine

theorem execScrubBlockReadback_held (h : HalfId) (pass : Bool) (s : State) : Held s (execScrubBlockReadback h pass s) := by
  unfold execScrubBlockReadback
  dsimp only
  (repeat' split) <;> simp

theorem execSelfRefreshEntry_held (h : HalfId) (s : State) : Held s (execSelfRefreshEntry h s) := by
  simp [execSelfRefreshEntry]

theorem execPageWalk_held (walker : Fin 48) (p : PartId) (pva : Nat) (need : Rights) (src : WalkSrc) (s : State) : Held s (execPageWalk walker p pva need src s) := by
  unfold execPageWalk
  dsimp only
  (repeat' split) <;> simp

theorem execDataNc_held (p : PartId) (pva offset : Nat) (data : List Byte) (load : Nat) (s : State) : Held s (execDataNc p pva offset data load s) := by
  unfold execDataNc
  (repeat' split) <;> simp

theorem execMigrationReadFail_held (p : PartId) (pva : Nat) (st : Option Status) (s : State) : Held s (execMigrationReadFail p pva st s) := by
  unfold execMigrationReadFail
  (repeat' split) <;> simp

theorem execMigrationComplete_held (p : PartId) (pva : Nat) (s : State) : Held s (execMigrationComplete p pva s) := by
  unfold execMigrationComplete
  (repeat' split) <;> simp

end Sys2Proof.Machine
end

