-- ==== Sys2Proof/Laws/Held/Fabric.lean ====
section
/-! SUPPORT. The commands of Machine/Fabric.lean that leave the gauge as it was. -/
namespace Sys2Proof.Machine

theorem execMbxPut_held (p : PartId) (rank tag channel len : Nat) (words : List U64) (s : State) : Held s (execMbxPut p rank tag channel len words s) := by
  simp [execMbxPut]

theorem execFlowReset_held (f : FlowId) (pktCtr tag : Nat) (s : State) : Held s (execFlowReset f pktCtr tag s) := by
  simp [execFlowReset]

theorem execFlowCountNotice_held (f : FlowId) (epoch : Bool) (n : Nat) (s : State) : Held s (execFlowCountNotice f epoch n s) := by
  simp [execFlowCountNotice]

theorem execFlaggedRequestDeliver_held (f : FlowId) (s : State) : Held s (execFlaggedRequestDeliver f s) := by
  unfold execFlaggedRequestDeliver
  (repeat' split) <;> simp

theorem execFlagWaitExpiry_held (f : FlowId) (s : State) : Held s (execFlagWaitExpiry f s) := by
  unfold execFlagWaitExpiry
  dsimp only
  (repeat' split) <;> simp

theorem execFlowForget_held (f : FlowId) (s : State) : Held s (execFlowForget f s) := by
  simp [execFlowForget]

theorem execLinkState_held (l : LinkId) (m : LinkStateMsg) (s : State) : Held s (execLinkState l m s) := by
  simp [execLinkState]

theorem execLinkStateFlood_held (s : State) : Held s (execLinkStateFlood s) := by
  simp [execLinkStateFlood]

theorem execRouteTableInstall_held (s : State) : Held s (execRouteTableInstall s) := by
  simp [execRouteTableInstall]

theorem execOrientationBoundary_held (s : State) : Held s (execOrientationBoundary s) := by
  unfold execOrientationBoundary
  (repeat' split) <;> simp

theorem execEndpointUnreachable_held (ep : Nat) (s : State) : Held s (execEndpointUnreachable ep s) := by
  simp [execEndpointUnreachable]

theorem execMcInstall_held (origin group : Nat) (outs : List LinkId) (localDelivery : Bool) (s : State) : Held s (execMcInstall origin group outs localDelivery s) := by
  simp [execMcInstall]

theorem execMcAck_held (p : PartId) (group line : Nat) (mask : BitVec 256) (s : State) : Held s (execMcAck p group line mask s) := by
  simp [execMcAck]

theorem execMcAckTimeout_held (origin group line : Nat) (s : State) : Held s (execMcAckTimeout origin group line s) := by
  unfold execMcAckTimeout
  (repeat' split) <;> simp

theorem execRankMissFill_held (d : HalfId) (p : PartId) (rank : Nat) (s : State) : Held s (execRankMissFill d p rank s) := by
  simp [execRankMissFill]

theorem execTransportTimeout_held (tag : Nat) (s : State) : Held s (execTransportTimeout tag s) := by
  unfold execTransportTimeout
  (repeat' split) <;> simp

end Sys2Proof.Machine
end

