-- ==== Sys2Proof/Laws/Held/HostMgmt.lean ====
section
/-! SUPPORT. The commands of Machine/HostMgmt.lean that leave the gauge as it was. -/
namespace Sys2Proof.Machine

theorem execDcOffer_held (reqId extent pvaBase : Nat) (s : State) : Held s (execDcOffer reqId extent pvaBase s) := by
  simp [execDcOffer]

theorem execDcWithdraw_held (reqId extent : Nat) (force : Bool) (s : State) : Held s (execDcWithdraw reqId extent force s) := by
  simp [execDcWithdraw]

theorem execCfgStage_held (reqId : Nat) (w0 w1 : U64) (key : List U64) (s : State) : Held s (execCfgStage reqId w0 w1 key s) := by
  simp [execCfgStage]

theorem execHostExtentFree_held (entry : Fin 64) (s : State) : Held s (execHostExtentFree entry s) := by
  simp [execHostExtentFree]

theorem execIdentifyMemoryDevice_held (s : State) : Held s (execIdentifyMemoryDevice s) := by
  unfold execIdentifyMemoryDevice
  repeat' first
    | rfl
    | (simp; done)
    | (refine (held_next _ _).mpr ?_)
    | (refine held_ok ?_)
    | split
    | (refine (each_gauge _ _ _ fun _ _ => ?_).trans ?_)
    | (refine (foldl_gauge _ _ _ fun _ _ => ?_).trans ?_)
    | dsimp only

theorem execGetSupportedLogs_held (s : State) : Held s (execGetSupportedLogs s) := by
  unfold execGetSupportedLogs
  repeat' first
    | rfl
    | (simp; done)
    | (refine (held_next _ _).mpr ?_)
    | (refine held_ok ?_)
    | split
    | (refine (each_gauge _ _ _ fun _ _ => ?_).trans ?_)
    | (refine (foldl_gauge _ _ _ fun _ _ => ?_).trans ?_)
    | dsimp only

theorem execGetLog_held (s : State) : Held s (execGetLog s) := by
  unfold execGetLog
  repeat' first
    | rfl
    | (simp; done)
    | (refine (held_next _ _).mpr ?_)
    | (refine held_ok ?_)
    | split
    | (refine (each_gauge _ _ _ fun _ _ => ?_).trans ?_)
    | (refine (foldl_gauge _ _ _ fun _ _ => ?_).trans ?_)
    | dsimp only

theorem execGetHealthInfo_held (s : State) : Held s (execGetHealthInfo s) := by
  unfold execGetHealthInfo
  repeat' first
    | rfl
    | (simp; done)
    | (refine (held_next _ _).mpr ?_)
    | (refine held_ok ?_)
    | split
    | (refine (each_gauge _ _ _ fun _ _ => ?_).trans ?_)
    | (refine (foldl_gauge _ _ _ fun _ _ => ?_).trans ?_)
    | dsimp only

theorem execGetEventRecords_held (log : Nat) (s : State) : Held s (execGetEventRecords log s) := by
  unfold execGetEventRecords
  repeat' first
    | rfl
    | (simp; done)
    | (refine (held_next _ _).mpr ?_)
    | (refine held_ok ?_)
    | split
    | (refine (each_gauge _ _ _ fun _ _ => ?_).trans ?_)
    | (refine (foldl_gauge _ _ _ fun _ _ => ?_).trans ?_)
    | dsimp only

theorem execClearEventRecords_held (log n : Nat) (s : State) : Held s (execClearEventRecords log n s) := by
  unfold execClearEventRecords
  repeat' first
    | rfl
    | (simp; done)
    | (refine (held_next _ _).mpr ?_)
    | (refine held_ok ?_)
    | split
    | (refine (each_gauge _ _ _ fun _ _ => ?_).trans ?_)
    | (refine (foldl_gauge _ _ _ fun _ _ => ?_).trans ?_)
    | dsimp only

theorem execGetEventInterruptPolicy_held (s : State) : Held s (execGetEventInterruptPolicy s) := by
  unfold execGetEventInterruptPolicy
  repeat' first
    | rfl
    | (simp; done)
    | (refine (held_next _ _).mpr ?_)
    | (refine held_ok ?_)
    | split
    | (refine (each_gauge _ _ _ fun _ _ => ?_).trans ?_)
    | (refine (foldl_gauge _ _ _ fun _ _ => ?_).trans ?_)
    | dsimp only

theorem execSetEventInterruptPolicy_held (policy : U64) (s : State) : Held s (execSetEventInterruptPolicy policy s) := by
  unfold execSetEventInterruptPolicy
  repeat' first
    | rfl
    | (simp; done)
    | (refine (held_next _ _).mpr ?_)
    | (refine held_ok ?_)
    | split
    | (refine (each_gauge _ _ _ fun _ _ => ?_).trans ?_)
    | (refine (foldl_gauge _ _ _ fun _ _ => ?_).trans ?_)
    | dsimp only

theorem execUnsupportedMailboxCommand_held (_opcode : Nat) (s : State) : Held s (execUnsupportedMailboxCommand _opcode s) := by
  unfold execUnsupportedMailboxCommand
  repeat' first
    | rfl
    | (simp; done)
    | (refine (held_next _ _).mpr ?_)
    | (refine held_ok ?_)
    | split
    | (refine (each_gauge _ _ _ fun _ _ => ?_).trans ?_)
    | (refine (foldl_gauge _ _ _ fun _ _ => ?_).trans ?_)
    | dsimp only

theorem execGetDynamicCapacityConfiguration_held (_reqId : Nat) (s : State) : Held s (execGetDynamicCapacityConfiguration _reqId s) := by
  unfold execGetDynamicCapacityConfiguration
  repeat' first
    | rfl
    | (simp; done)
    | (refine (held_next _ _).mpr ?_)
    | (refine held_ok ?_)
    | split
    | (refine (each_gauge _ _ _ fun _ _ => ?_).trans ?_)
    | (refine (foldl_gauge _ _ _ fun _ _ => ?_).trans ?_)
    | dsimp only

theorem execGetDynamicCapacityExtentList_held (_reqId : Nat) (s : State) : Held s (execGetDynamicCapacityExtentList _reqId s) := by
  unfold execGetDynamicCapacityExtentList
  repeat' first
    | rfl
    | (simp; done)
    | (refine (held_next _ _).mpr ?_)
    | (refine held_ok ?_)
    | split
    | (refine (each_gauge _ _ _ fun _ _ => ?_).trans ?_)
    | (refine (foldl_gauge _ _ _ fun _ _ => ?_).trans ?_)
    | dsimp only

theorem execAddDynamicCapacityResponse_held (_reqId : Nat) (entry : Fin 64) (s : State) : Held s (execAddDynamicCapacityResponse _reqId entry s) := by
  unfold execAddDynamicCapacityResponse
  repeat' first
    | rfl
    | (simp; done)
    | (refine (held_next _ _).mpr ?_)
    | (refine held_ok ?_)
    | split
    | (refine (each_gauge _ _ _ fun _ _ => ?_).trans ?_)
    | (refine (foldl_gauge _ _ _ fun _ _ => ?_).trans ?_)
    | dsimp only

theorem execReleaseDynamicCapacity_held (_reqId : Nat) (entry : Fin 64) (s : State) : Held s (execReleaseDynamicCapacity _reqId entry s) := by
  unfold execReleaseDynamicCapacity
  repeat' first
    | rfl
    | (simp; done)
    | (refine (held_next _ _).mpr ?_)
    | (refine held_ok ?_)
    | split
    | (refine (each_gauge _ _ _ fun _ _ => ?_).trans ?_)
    | (refine (foldl_gauge _ _ _ fun _ _ => ?_).trans ?_)
    | dsimp only

end Sys2Proof.Machine
end

