-- ==== Sys2Proof/Laws/Held/Integrity.lean ====
section
/-! SUPPORT. The commands of Machine/Integrity.lean that leave the gauge as it was. -/
namespace Sys2Proof.Machine

theorem execMemReadDecode_held (pa : Nat) (err : SymErrs) (came : Option Nat) (src : LogSource) (who : LineUser) (s : State) : Held s (execMemReadDecode pa err came src who s) := by
  unfold execMemReadDecode
  dsimp only
  (repeat' split) <;> simp

theorem execVerifyRead_held (pa : Nat) (err : SymErrs) (s : State) : Held s (execVerifyRead pa err s) := by
  unfold execVerifyRead
  dsimp only
  (repeat' split) <;> simp

theorem execReconstruction_held (pa : Nat) (x : LineFault) (src : LogSource) (who : LineUser) (s : State) : Held s (execReconstruction pa x src who s) := by
  simp [execReconstruction]

theorem execCoalesceRelease_held (h : HalfId) (rand : Nat) (s : State) : Held s (execCoalesceRelease h rand s) := by
  simp [execCoalesceRelease]

theorem execParityDeltaUpdate_held (h : HalfId) (rand : Nat) (s : State) : Held s (execParityDeltaUpdate h rand s) := by
  simp [execParityDeltaUpdate]

theorem execRefreshDue_held (b : BankId) (s : State) : Held s (execRefreshDue b s) := by
  simp [execRefreshDue]

theorem execBankRefresh_held (b : BankId) (s : State) : Held s (execBankRefresh b s) := by
  simp [execBankRefresh]

theorem execRowCloseTimeout_held (b : BankId) (s : State) : Held s (execRowCloseTimeout b s) := by
  simp [execRowCloseTimeout]

theorem execRefreshRateSwitch_held (st : StackId) (temp : Nat) (s : State) : Held s (execRefreshRateSwitch st temp s) := by
  simp [execRefreshRateSwitch]

theorem execMetadataFlush_held (h : HalfId) (s : State) : Held s (execMetadataFlush h s) := by
  simp [execMetadataFlush]

theorem execWeaverFence_held (w : WeaverId) (cause : Nat) (s : State) : Held s (execWeaverFence w cause s) := by
  simp [execWeaverFence]

theorem execScratchError_held (w : WeaverId) (addr : Nat) (uncorrectable : Bool) (s : State) : Held s (execScratchError w addr uncorrectable s) := by
  simp [execScratchError]

theorem execRegisterParityError_held (w : WeaverId) (s : State) : Held s (execRegisterParityError w s) := by
  simp [execRegisterParityError]

theorem execWeaveDieFailed_held (d : DieId) (s : State) : Held s (execWeaveDieFailed d s) := by
  simp [execWeaveDieFailed]

theorem execFailoverTakeover_held (d : DieId) (s : State) : Held s (execFailoverTakeover d s) := by
  simp [execFailoverTakeover]

theorem execParityMismatch_held (path : Nat) (kind : PathKind) (x : Transfer) (tries : List (List (U32 × Bool))) (s : State) : Held s (execParityMismatch path kind x tries s) := by
  simp [execParityMismatch]

theorem execRebuildRand_held (h : HalfId) (badLines : List (Fin 4 × Fin 9)) (s : State) : Held s (execRebuildRand h badLines s) := by
  unfold execRebuildRand
  dsimp only
  (repeat' split) <;> simp

theorem execBankUnitMove_held (h : HalfId) (s : State) : Held s (execBankUnitMove h s) := by
  unfold execBankUnitMove
  dsimp only
  (repeat' split) <;> simp

end Sys2Proof.Machine
end

