-- ==== Sys2Proof/Laws/Held/Links.lean ====
section
/-! SUPPORT. The commands of Machine/Links.lean that leave the gauge as it was. -/
namespace Sys2Proof.Machine

theorem execLinkPacketRx_held (l : LinkId) (seq : Nat) (ack : Option Nat) (crcOk codewordOk : Bool) (pkt : Packet) (s : State) : Held s (execLinkPacketRx l seq ack crcOk codewordOk pkt s) := by
  unfold execLinkPacketRx
  (repeat' split) <;> simp

theorem execPacketForward_held (l : LinkId) (vc : Fin 8) (s : State) : Held s (execPacketForward l vc s) := by
  unfold execPacketForward
  (repeat' split) <;> simp

theorem execHopAgeDrop_held (l : LinkId) (vc : Fin 8) (s : State) : Held s (execHopAgeDrop l vc s) := by
  unfold execHopAgeDrop
  (repeat' split) <;> simp

theorem execIdle_held (x : CtrlBlock) (s : State) : Held s (execIdle x s) := by
  simp [execIdle]

theorem execAck_held (l : LinkId) (seq : Nat) (s : State) : Held s (execAck l seq s) := by
  simp [execAck]

theorem execNak_held (l : LinkId) (seq : Nat) (s : State) : Held s (execNak l seq s) := by
  simp [execNak]

theorem execCredit_held (l : LinkId) (vc : Fin 8) (units : Nat) (s : State) : Held s (execCredit l vc units s) := by
  simp [execCredit]

theorem execDelayReq_held (l : LinkId) (stamp : U64) (s : State) : Held s (execDelayReq l stamp s) := by
  unfold execDelayReq
  (repeat' split) <;> simp

theorem execDelayRsp_held (l : LinkId) (roundTripPs turnaroundPs : Nat) (s : State) : Held s (execDelayRsp l roundTripPs turnaroundPs s) := by
  simp [execDelayRsp]

theorem execRetrainReq_held (l : LinkId) (mask : BitVec 8) (s : State) : Held s (execRetrainReq l mask s) := by
  simp [execRetrainReq]

theorem execLinkDown_held (l : LinkId) (_cause : Nat) (s : State) : Held s (execLinkDown l _cause s) := by
  simp [execLinkDown]

theorem execTrainingBlock_held (l : LinkId) (b : TrainBlock) (s : State) : Held s (execTrainingBlock l b s) := by
  simp [execTrainingBlock]

theorem execLightDetect_held (l : LinkId) (lanes : BitVec 8) (s : State) : Held s (execLightDetect l lanes s) := by
  simp [execLightDetect]

theorem execTrainingStageTimeout_held (l : LinkId) (s : State) : Held s (execTrainingStageTimeout l s) := by
  simp [execTrainingStageTimeout]

theorem execTrainingComplete_held (l : LinkId) (s : State) : Held s (execTrainingComplete l s) := by
  simp [execTrainingComplete]

theorem execTrainingRetry_held (l : LinkId) (s : State) : Held s (execTrainingRetry l s) := by
  simp [execTrainingRetry]

theorem execLinkUp_held (l : LinkId) (s : State) : Held s (execLinkUp l s) := by
  simp [execLinkUp]

theorem execReplayTimeout_held (l : LinkId) (s : State) : Held s (execReplayTimeout l s) := by
  simp [execReplayTimeout]

theorem execNakResend_held (l : LinkId) (s : State) : Held s (execNakResend l s) := by
  simp [execNakResend]

theorem execLossOfLight_held (l : LinkId) (lanes : BitVec 8) (s : State) : Held s (execLossOfLight l lanes s) := by
  simp [execLossOfLight]

theorem execHeartbeatTimeout_held (l : LinkId) (s : State) : Held s (execHeartbeatTimeout l s) := by
  simp [execHeartbeatTimeout]

theorem execLaneFault_held (l : LinkId) (lane : Fin 8) (s : State) : Held s (execLaneFault l lane s) := by
  simp [execLaneFault]

theorem execFastRetrainDone_held (l : LinkId) (delayNs : Nat) (s : State) : Held s (execFastRetrainDone l delayNs s) := by
  simp [execFastRetrainDone]

theorem execRetrainTimeout_held (l : LinkId) (s : State) : Held s (execRetrainTimeout l s) := by
  simp [execRetrainTimeout]

theorem execLaneRestore_held (l : LinkId) (lane : Fin 8) (s : State) : Held s (execLaneRestore l lane s) := by
  simp [execLaneRestore]

theorem execHoldExpiry_held (l : LinkId) (s : State) : Held s (execHoldExpiry l s) := by
  simp [execHoldExpiry]

theorem execEngineFailed_held (oe : Fin 12) (s : State) : Held s (execEngineFailed oe s) := by
  simp [execEngineFailed]

end Sys2Proof.Machine
end

