-- ==== Sys2Proof/Laws/Held/Power.lean ====
section
/-! SUPPORT. The commands of Machine/Power.lean that leave the gauge as it was. -/
namespace Sys2Proof.Machine

theorem execFeedLost_held (b : Bool) (s : State) : Held s (execFeedLost b s) := by
  have h : ∀ x : PowerSt, (x.begin condSingle).dials = x.dials := fun x => by unfold PowerSt.begin; split <;> rfl
  cases b <;> simp only [execFeedLost, Bool.false_eq_true, if_false, if_true] <;> split <;>
    simp only [held_next, supply_gauge, held_self] <;> exact onPower_gauge _ _ (h _)

theorem execFeedRestored_held (b : Bool) (s : State) : Held s (execFeedRestored b s) := by
  cases b <;> simp only [execFeedRestored, Bool.false_eq_true, if_false, if_true] <;> split <;>
    simp only [held_next, supply_gauge, held_self] <;> refine onPower_gauge _ _ ?_ <;> split <;> rfl

theorem execSagWarn_held (busV10 : Nat) (s : State) : Held s (execSagWarn busV10 s) := by
  simp [execSagWarn]

theorem execSagClear_held (busV10 : Nat) (s : State) : Held s (execSagClear busV10 s) := by
  simp [execSagClear]

theorem execOvervolt_held (busV10 : Nat) (s : State) : Held s (execOvervolt busV10 s) := by
  simp [execOvervolt]

theorem execOvervoltClear_held (busV10 : Nat) (s : State) : Held s (execOvervoltClear busV10 s) := by
  simp [execOvervoltClear]

theorem execThrottle_held (sensor temp : Nat) (s : State) : Held s (execThrottle sensor temp s) := by
  have h : ∀ x : PowerSt, (x.begin condThrottle).dials = x.dials := fun x => by unfold PowerSt.begin; split <;> rfl
  have k : ∀ s : State, (s.onPower (fun x => x.begin condThrottle)).gauge = s.gauge := fun s => onPower_gauge _ _ (h _)
  have j : ∀ s : State, (s.onPower (fun x => x.read sensor temp)).gauge = s.gauge := fun s => onPower_gauge _ _ rfl
  unfold execThrottle
  dsimp only
  split
  · simp [j]
  · simp only [held_next]
    split <;> simp [j, k]

theorem execThrottleClear_held (sensor temp : Nat) (s : State) : Held s (execThrottleClear sensor temp s) := by
  unfold execThrottleClear
  repeat' first
    | rfl
    | (simp; done)
    | (refine (held_next _ _).mpr ?_)
    | (refine held_ok ?_)
    | split
    | (refine (each_gauge _ _ _ fun _ _ => ?_).trans ?_)
    | (refine (foldl_gauge _ _ _ fun _ _ => ?_).trans ?_)
    | dsimp only

theorem execTripCooldownEnd_held (s : State) : Held s (execTripCooldownEnd s) := by
  simp [execTripCooldownEnd]

theorem execCapHeldOver_held (s : State) : Held s (execCapHeldOver s) := by
  simp [execCapHeldOver]

theorem execGroupFallback_held (s : State) : Held s (execGroupFallback s) := by
  simp [execGroupFallback]

end Sys2Proof.Machine
end

