-- ==== Sys2Proof/Laws/Held/Queues.lean ====
section
/-! SUPPORT. The commands of Machine/Queues.lean that leave the gauge as it was. -/
namespace Sys2Proof.Machine

theorem execSqTailDoorbell_held (p : PartId) (q : Fin 64) (v : U64) (s : State) : Held s (execSqTailDoorbell p q v s) := by
  simp [execSqTailDoorbell]

theorem execCqHeadDoorbell_held (p : PartId) (q : Fin 64) (v : U64) (s : State) : Held s (execCqHeadDoorbell p q v s) := by
  simp [execCqHeadDoorbell]

theorem execSqResetDoorbell_held (p : PartId) (q : Fin 64) (v : U64) (s : State) : Held s (execSqResetDoorbell p q v s) := by
  simp [execSqResetDoorbell]

theorem execCqResetDoorbell_held (p : PartId) (q : Fin 64) (v : U64) (s : State) : Held s (execCqResetDoorbell p q v s) := by
  simp [execCqResetDoorbell]

theorem execCqResetApply_held (p : PartId) (q : Fin 64) (s : State) : Held s (execCqResetApply p q s) := by
  simp [execCqResetApply]

theorem execCqHeldRecordRetry_held (p : PartId) (q : Fin 64) (s : State) : Held s (execCqHeldRecordRetry p q s) := by
  simp [execCqHeldRecordRetry]

theorem execDescriptorFetch_held (p : PartId) (q : Fin 64) (s : State) : Held s (execDescriptorFetch p q s) := by
  simp [execDescriptorFetch]

theorem execTranslationPinComplete_held (p : PartId) (q : Fin 64) (s : State) : Held s (execTranslationPinComplete p q s) := by
  simp [execTranslationPinComplete]

theorem execAdmissionPoint_held (k : Fin 16) (s : State) : Held s (execAdmissionPoint k s) := by
  simp [execAdmissionPoint]

theorem execDequePop_held (w : WeaverId) (s : State) : Held s (execDequePop w s) := by
  unfold execDequePop
  dsimp only
  (repeat' split) <;> simp

theorem execSteal_held (w : WeaverId) (s : State) : Held s (execSteal w s) := by
  unfold execSteal
  dsimp only
  (repeat' split) <;> simp

theorem execBudgetStop_held (w : WeaverId) (s : State) : Held s (execBudgetStop w s) := by
  unfold execBudgetStop
  (repeat' split) <;> simp

end Sys2Proof.Machine
end

