-- ==== Sys2Proof/Laws/Held/Reset.lean ====
section
/-! SUPPORT. The commands of Machine/Reset.lean that leave the gauge as it was. -/
namespace Sys2Proof.Machine

theorem execPowerOn_held (s : State) : Held s (execPowerOn s) := by
  simp [execPowerOn]

theorem execHostIslandReset_held (s : State) : Held s (execHostIslandReset s) := by
  simp [execHostIslandReset]

theorem execHostIslandResetRelease_held (s : State) : Held s (execHostIslandResetRelease s) := by
  simp [execHostIslandResetRelease]

theorem execRimRetrain_held (_tag : Nat) (s : State) : Held s (execRimRetrain _tag s) := by
  simp [execRimRetrain]

theorem execSpineTrainingRetry_held (bridgesOk : List Bool) (s : State) : Held s (execSpineTrainingRetry bridgesOk s) := by
  simp [execSpineTrainingRetry]

theorem execEnterService_held (s : State) : Held s (execEnterService s) := by
  simp [execEnterService]

theorem execWarmQuiesceStart_held (s : State) : Held s (execWarmQuiesceStart s) := by
  unfold execWarmQuiesceStart
  (repeat' split) <;> simp

theorem execWarmQuiesceLimit_held (s : State) : Held s (execWarmQuiesceLimit s) := by
  unfold execWarmQuiesceLimit
  (repeat' split) <;> simp

end Sys2Proof.Machine
end

