-- ==== Sys2Proof/Laws/Held/Rim.lean ====
section
/-! SUPPORT. The commands of Machine/Rim.lean that leave the gauge as it was. -/
namespace Sys2Proof.Machine

theorem execRimMemRd_held (tag dpa : Nat) (rsvd : Bool) (s : State) : Held s (execRimMemRd tag dpa rsvd s) := by
  simp [execRimMemRd]

theorem execRimMemWr_held (tag dpa : Nat) (data : List Byte) (mask : Option U64) (rsvd : Bool) (s : State) : Held s (execRimMemWr tag dpa data mask rsvd s) := by
  simp [execRimMemWr]

theorem execHostReleaseTimer_held (tag : Nat) (s : State) : Held s (execHostReleaseTimer tag s) := by
  unfold execHostReleaseTimer
  (repeat' split) <;> simp

theorem execHostRequestHoldTimeout_held (tag : Nat) (s : State) : Held s (execHostRequestHoldTimeout tag s) := by
  unfold execHostRequestHoldTimeout
  (repeat' split) <;> simp

theorem execRimHealth_held (g : HalfId) (toHost : Bool) (lanes : BitVec 10) (s : State) : Held s (execRimHealth g toHost lanes s) := by
  simp [execRimHealth]

theorem execRimGroupDown_held (g : HalfId) (s : State) : Held s (execRimGroupDown g s) := by
  simp [execRimGroupDown]

theorem execRimMessageCrcFail_held (g : HalfId) (_atHost : Bool) (s : State) : Held s (execRimMessageCrcFail g _atHost s) := by
  simp [execRimMessageCrcFail]

theorem execRimLaneFault_held (g : HalfId) (lane : Fin 10) (s : State) : Held s (execRimLaneFault g lane s) := by
  simp [execRimLaneFault]

theorem execRimLaneRestore_held (g : HalfId) (lane : Fin 10) (s : State) : Held s (execRimLaneRestore g lane s) := by
  simp [execRimLaneRestore]

theorem execRimMessageDrop_held (atHost : Bool) (m : RimMsg) (s : State) : Held s (execRimMessageDrop atHost m s) := by
  unfold execRimMessageDrop
  (repeat' split) <;> simp

theorem execRimNak_held (toHost : Bool) (tag type : Nat) (st : Status) (s : State) : Held s (execRimNak toHost tag type st s) := by
  unfold execRimNak
  (repeat' split) <;> first | (simp; done) | (simp [takeToHost_gauge _ _ (by assumption)]; done)

theorem execRimMbxPut_held (m : RimMsg) (s : State) : Held s (execRimMbxPut m s) := by
  unfold execRimMbxPut
  (repeat' split) <;> simp

theorem execRimMbxAck_held (toHost : Bool) (channel tag : Nat) (consumed : Bool) (st : Status) (s : State) : Held s (execRimMbxAck toHost channel tag consumed st s) := by
  unfold execRimMbxAck
  dsimp only
  (repeat' split) <;> first | (simp; done) | skip
  all_goals
    next h _ => simp [mbxTake_gauge _ _ h]

theorem execMailboxDelivery_held (p : PartId) (s : State) : Held s (execMailboxDelivery p s) := by
  unfold execMailboxDelivery
  dsimp only
  (repeat' split) <;> first | (simp; done) | skip
  next h _ _ _ k =>
    obtain ⟨u, h1, h2⟩ := Option.bind_eq_some_iff.mp h
    simp [mbxTake_gauge _ _ k, writePva_gauge _ _ _ _ h2, writePva_gauge _ _ _ _ h1]

theorem execRimDoorbell_held (toHost : Bool) (head : RimHead) (addr : Nat) (v : U64) (s : State) : Held s (execRimDoorbell toHost head addr v s) := by
  unfold execRimDoorbell
  dsimp only
  (repeat' split) <;> simp

theorem execCtrlResult_held (s : State) : Held s (execCtrlResult s) := by
  unfold execCtrlResult
  (repeat' split) <;> first | (simp; done) | (simp [takeToHost_gauge _ _ (by assumption)]; done)

theorem execEvent_held (s : State) : Held s (execEvent s) := by
  unfold execEvent
  (repeat' split) <;> first | (simp; done) | (simp [takeToHost_gauge _ _ (by assumption)]; done)

theorem execTimeSync_held (head : RimHead) (s : State) : Held s (execTimeSync head s) := by
  unfold execTimeSync
  (repeat' split) <;> simp

theorem execTimeSyncPeriodic_held (s : State) : Held s (execTimeSyncPeriodic s) := by
  simp [execTimeSyncPeriodic]

end Sys2Proof.Machine
end

