-- ==== Sys2Proof/Laws/Held/Security.lean ====
section
/-! SUPPORT. The commands of Machine/Security.lean that leave the gauge as it was. -/
namespace Sys2Proof.Machine

theorem execSessionHello_held (p : PartId) (ep rank sid frag frags : Nat) (nonce : List U64) (s : State) : Held s (execSessionHello p ep rank sid frag frags nonce s) := by
  unfold execSessionHello
  dsimp only
  (repeat' split) <;> simp

theorem execSessionOffer_held (p : PartId) (s : State) : Held s (execSessionOffer p s) := by
  unfold execSessionOffer
  (repeat' split) <;> simp

theorem execSessionConfirm_held (p : PartId) (sid : Nat) (macOk : Bool) (ss : List U64) (s : State) : Held s (execSessionConfirm p sid macOk ss s) := by
  unfold execSessionConfirm
  (repeat' split) <;> simp

theorem execSessionConfirmLapse_held (p : PartId) (s : State) : Held s (execSessionConfirmLapse p s) := by
  unfold execSessionConfirmLapse
  (repeat' split) <;> simp

theorem execKeyGenerationAdvance_held (p : PartId) (s : State) : Held s (execKeyGenerationAdvance p s) := by
  unfold execKeyGenerationAdvance
  dsimp only
  (repeat' split) <;> simp

theorem execKeyGenerationDrop_held (p : PartId) (s : State) : Held s (execKeyGenerationDrop p s) := by
  unfold execKeyGenerationDrop
  (repeat' split) <;> simp

theorem execDebugUnlock_held (sigOk : Bool) (reach : List PartId) (s : State) : Held s (execDebugUnlock sigOk reach s) := by
  simp [execDebugUnlock]

theorem execDebugHalt_held (w : WeaverId) (s : State) : Held s (execDebugHalt w s) := by
  simp [execDebugHalt]

end Sys2Proof.Machine
end

