-- ==== Sys2Proof/Laws/Held/Stakes.lean ====
section
/-! SUPPORT. The commands of Machine/Stakes.lean that leave the gauge as it was. -/
namespace Sys2Proof.Machine

theorem execStakeHealthFail_held (k : HalfId) (missedWrites : Nat) (sramError secureFault : Bool) (s : State) : Held s (execStakeHealthFail k missedWrites sramError secureFault s) := by
  simp [execStakeHealthFail]

theorem execLinkDieFailed_held (d : HalfId) (s : State) : Held s (execLinkDieFailed d s) := by
  simp [execLinkDieFailed]

theorem execLeaseEnd_held (s : State) : Held s (execLeaseEnd s) := by
  simp [execLeaseEnd]

theorem execTakeoverComplete_held (facts : ImageFacts) (replayOk : Bool) (s : State) : Held s (execTakeoverComplete facts replayOk s) := by
  simp [execTakeoverComplete]

theorem execTakeoverFailed_held (s : State) : Held s (execTakeoverFailed s) := by
  simp [execTakeoverFailed]

theorem execHandoverReady_held (s : State) : Held s (execHandoverReady s) := by
  unfold execHandoverReady
  (repeat' split) <;> simp

theorem execHandoverBoundary_held (s : State) : Held s (execHandoverBoundary s) := by
  unfold execHandoverBoundary
  (repeat' split) <;> simp

theorem execHomeStakeReturn_held (s : State) : Held s (execHomeStakeReturn s) := by
  simp [execHomeStakeReturn]

theorem execHandoverFailed_held (facts : ImageFacts) (timedOut : Bool) (s : State) : Held s (execHandoverFailed facts timedOut s) := by
  unfold execHandoverFailed
  (repeat' split) <;> simp

theorem execSpineLoss_held (s : State) : Held s (execSpineLoss s) := by
  simp [execSpineLoss]

theorem execSpineReturn_held (s : State) : Held s (execSpineReturn s) := by
  simp [execSpineReturn]

theorem execSpineRejoin_held (s : State) : Held s (execSpineRejoin s) := by
  simp [execSpineRejoin]

theorem execKeepStoreWriteDone_held (k : HalfId) (readBackOk : Bool) (s : State) : Held s (execKeepStoreWriteDone k readBackOk s) := by
  unfold execKeepStoreWriteDone
  dsimp only
  (repeat' split) <;> simp

theorem execFwStageTimeout_held (s : State) : Held s (execFwStageTimeout s) := by
  unfold execFwStageTimeout
  (repeat' split) <;> simp

theorem execVerificationBootEnd_held (k : HalfId) (facts : ImageFacts) (s : State) : Held s (execVerificationBootEnd k facts s) := by
  simp [execVerificationBootEnd]

theorem execCheckpoint_held (margins : List (WeaverId × Nat)) (s : State) : Held s (execCheckpoint margins s) := by
  simp [execCheckpoint]

theorem execPersistentAreaWrite_held (s : State) : Held s (execPersistentAreaWrite s) := by
  simp [execPersistentAreaWrite]

end Sys2Proof.Machine
end

