-- ==== Sys2Proof/Laws/Held/Sync.lean ====
section
/-! SUPPORT. The commands of Machine/Sync.lean that leave the gauge as it was. -/
namespace Sys2Proof.Machine

theorem execWait_held (w : WeaverId) (f : Fields) (s : State) : Held s (execWait w f s) := by
  unfold execWait
  exact held_ok (tryIssue_gauge _ _ _ _ _ _ _ _ fun _ _ => poolWord_gauge _ _ _ _ _ _ _ fun _ _ => by simp)

theorem execYield_held (w : WeaverId) (f : Fields) (s : State) : Held s (execYield w f s) := by
  unfold execYield
  (try dsimp only)
  refine held_ok (tryIssue_gauge _ _ _ _ _ _ _ _ (fun s x => ?_))
  (try dsimp only)
  (repeat' split) <;> simp

theorem execPhase_held (w : WeaverId) (f : Fields) (s : State) : Held s (execPhase w f s) := by
  unfold execPhase
  (try dsimp only)
  refine held_ok (tryIssue_gauge _ _ _ _ _ _ _ _ (fun s x => ?_))
  (try dsimp only)
  (repeat' split) <;> simp

theorem execSendMailbox_held (w : WeaverId) (f : Fields) (s : State) : Held s (execSendMailbox w f s) := by
  unfold execSendMailbox
  repeat' first
    | rfl
    | (simp; done)
    | (simp_all; done)
    | (refine (held_next _ _).mpr ?_)
    | (refine held_ok ?_)
    | split
    | (refine (each_gauge _ _ _ fun _ _ => ?_).trans ?_)
    | (refine (foldl_gauge _ _ _ fun _ _ => ?_).trans ?_)
    | (refine control_gauge _ _ _ _ _ _ fun _ _ _ _ => ?_)
    | (refine tryIssue_gauge _ _ _ _ _ _ _ _ fun _ _ => ?_)
    | dsimp only

theorem execSendDoorbell_held (w : WeaverId) (f : Fields) (s : State) : Held s (execSendDoorbell w f s) := by
  unfold execSendDoorbell
  repeat' first
    | rfl
    | (simp; done)
    | (simp_all; done)
    | (refine (held_next _ _).mpr ?_)
    | (refine held_ok ?_)
    | split
    | (refine (each_gauge _ _ _ fun _ _ => ?_).trans ?_)
    | (refine (foldl_gauge _ _ _ fun _ _ => ?_).trans ?_)
    | (refine control_gauge _ _ _ _ _ _ fun _ _ _ _ => ?_)
    | (refine tryIssue_gauge _ _ _ _ _ _ _ _ fun _ _ => ?_)
    | dsimp only

theorem execCntrd_held (w : WeaverId) (f : Fields) (s : State) : Held s (execCntrd w f s) := by
  unfold execCntrd
  (try dsimp only)
  refine held_ok (tryIssue_gauge _ _ _ _ _ _ _ _ (fun s x => ?_))
  (try dsimp only)
  (repeat' split) <;> simp

theorem execTimeBudget_held (w : WeaverId) (f : Fields) (s : State) : Held s (execTimeBudget w f s) := by
  unfold execTimeBudget
  repeat' first
    | rfl
    | (simp; done)
    | (simp_all; done)
    | (refine (held_next _ _).mpr ?_)
    | (refine held_ok ?_)
    | split
    | (refine (each_gauge _ _ _ fun _ _ => ?_).trans ?_)
    | (refine (foldl_gauge _ _ _ fun _ _ => ?_).trans ?_)
    | (refine control_gauge _ _ _ _ _ _ fun _ _ _ _ => ?_)
    | (refine tryIssue_gauge _ _ _ _ _ _ _ _ fun _ _ => ?_)
    | dsimp only

theorem execTimeRound_held (w : WeaverId) (f : Fields) (s : State) : Held s (execTimeRound w f s) := by
  unfold execTimeRound
  repeat' first
    | rfl
    | (simp; done)
    | (simp_all; done)
    | (refine (held_next _ _).mpr ?_)
    | (refine held_ok ?_)
    | split
    | (refine (each_gauge _ _ _ fun _ _ => ?_).trans ?_)
    | (refine (foldl_gauge _ _ _ fun _ _ => ?_).trans ?_)
    | (refine control_gauge _ _ _ _ _ _ fun _ _ _ _ => ?_)
    | (refine tryIssue_gauge _ _ _ _ _ _ _ _ fun _ _ => ?_)
    | dsimp only

theorem execEndStroke_held (w : WeaverId) (f : Fields) (s : State) : Held s (execEndStroke w f s) := by
  unfold execEndStroke
  (try dsimp only)
  refine held_ok (tryIssue_gauge _ _ _ _ _ _ _ _ (fun s x => ?_))
  (try dsimp only)
  (repeat' split) <;> simp

theorem execWatchEvaluation_held (sid : Nat) (st : Status) (s : State) : Held s (execWatchEvaluation sid st s) := by
  unfold execWatchEvaluation
  (repeat' split) <;> simp

theorem execWatchTimeout_held (sid : Nat) (s : State) : Held s (execWatchTimeout sid s) := by
  unfold execWatchTimeout
  (repeat' split) <;> simp

theorem execSampleRecordWrite_held (w : WeaverId) (t : SampleTimes) (s : State) : Held s (execSampleRecordWrite w t s) := by
  unfold execSampleRecordWrite
  (repeat' split) <;> simp

end Sys2Proof.Machine
end

