-- ==== Sys2Proof/Laws/Gauge/Round.lean ====
section
/-! SUPPORT. The operations of Machine/Round.lean leave the gauge as it was. -/
namespace Sys2Proof.Machine

@[simp] theorem sendMarkers_gauge (s : State) : (State.sendMarkers s).gauge = s.gauge := by
  unfold State.sendMarkers
  dsimp only
  (repeat' split) <;> simp

@[simp] theorem sendClaims_gauge (s : State) : (State.sendClaims s).gauge = s.gauge := by
  simp [State.sendClaims]

@[simp] theorem ageRound_gauge (s : State) : (State.ageRound s).gauge = s.gauge := by
  unfold State.ageRound
  refine onRnd_gauge _ _ ?_ ?_ ?_ ?_
  all_goals
    dsimp only
    generalize (_ && _ : Bool) = b
    cases b <;> rfl

@[simp] theorem endRuns_gauge (s : State) : (State.endRuns s).gauge = s.gauge := by
  unfold State.endRuns
  repeat' first
    | rfl
    | (simp; done)
    | (simp_all; done)
    | split
    | (refine (each_gauge _ _ _ ?_).trans ?_)
    | (refine (foldl_gauge _ _ _ ?_).trans ?_)
    | (refine (foldl_snd_gauge _ _ _ ?_).trans ?_)
    | (refine (foldl_fst_gauge _ _ _ ?_).trans ?_)
    | intro _
    | dsimp only

@[simp] theorem countClock_gauge (s : State) : (State.countClock s).gauge = s.gauge := by
  simp [State.countClock]

@[simp] theorem shiftTimers_gauge (s : State) (d : Nat) : (State.shiftTimers s d).gauge = s.gauge := by
  simp [State.shiftTimers]

@[simp] theorem moveNamed_gauge (s : State) (n : Nat) : (State.moveNamed s n).gauge = s.gauge := by
  simp [State.moveNamed]

@[simp] theorem latchCounters_gauge (s : State) (before : Nat) : (State.latchCounters s before).gauge = s.gauge := by
  simp [State.latchCounters]

@[simp] theorem healthExchange_gauge (s : State) (m : BoundaryIn) : (State.healthExchange s m).gauge = s.gauge := by
  unfold State.healthExchange
  refine (each_gauge _ _ _ fun s d => ?_).trans ((each_gauge _ _ _ fun s n => orSame_held _ _ (by simp)).trans (each_gauge _ _ _ fun s n => ?_))
  · split <;> simp
  · split <;> simp

@[simp] theorem countCodewords_gauge (s : State) (m : BoundaryIn) : (State.countCodewords s m).gauge = s.gauge := by
  simp [State.countCodewords]

@[simp] theorem portFailover_gauge (s : State) : (State.portFailover s).gauge = s.gauge := by
  simp [State.portFailover]

@[simp] theorem countIdle_gauge (s : State) (h : Nat) : (State.countIdle s h).gauge = s.gauge := by
  simp [State.countIdle]

@[simp] theorem rebuildDone_gauge (s : State) (h : Nat) : (State.rebuildDone s h).gauge = s.gauge := by
  simp [State.rebuildDone]

@[simp] theorem retireFenced_gauge (s : State) : (State.retireFenced s).gauge = s.gauge := by
  simp [State.retireFenced]

theorem fireAll_gauge {α : Type} (s : State) (l : List α) (f : α → State → Host.Outcome State Fault Refusal)
    (h : ∀ a s, Held s (f a s)) : (s.fireAll l f).gauge = s.gauge := by
  unfold State.fireAll
  exact each_gauge _ _ _ fun s a => orSame_held _ _ (h a s)

@[simp] theorem fireTimers_gauge (s : State) : (State.fireTimers s).gauge = s.gauge := by
  unfold State.fireTimers
  dsimp only
  refine (orSame_held _ _ (execGroupFallback_held _)).trans ?_
  refine (orSame_held _ _ (execFwStageTimeout_held _)).trans ?_
  refine (fireAll_gauge _ _ _ fun _ _ => execEndpointUnreachable_held _ _).trans ?_
  refine (fireAll_gauge _ _ _ fun _ _ => execHoldExpiry_held _ _).trans ?_
  refine (fireAll_gauge _ _ _ fun _ _ => execKeyGenerationDrop_held _ _).trans ?_
  refine (fireAll_gauge _ _ _ fun _ _ => execSessionConfirmLapse_held _ _).trans ?_
  refine (fireAll_gauge _ _ _ fun _ _ => execHostRequestHoldTimeout_held _ _).trans ?_
  refine (fireAll_gauge _ _ _ fun _ _ => execRegionDrainLimit_held _ _).trans ?_
  refine (fireAll_gauge _ _ _ fun _ _ => execExtentDrainLimit_held _ _).trans ?_
  refine (fireAll_gauge _ _ _ fun _ _ => execTokenLapse_held _ _).trans ?_
  refine (fireAll_gauge _ _ _ fun _ _ => execSnoopProbe_held _ _).trans ?_
  refine (fireAll_gauge _ _ _ fun _ _ => execAgentDeadDeclare_held _ _ _).trans ?_
  refine (fireAll_gauge _ _ _ fun _ _ => execMcAckTimeout_held _ _ _ _).trans ?_
  refine (fireAll_gauge _ _ _ fun _ _ => execFlowForget_held _ _).trans ?_
  refine (fireAll_gauge _ _ _ fun _ _ => execFlagWaitExpiry_held _ _).trans ?_
  refine (fireAll_gauge _ _ _ fun _ _ => execWatchTimeout_held _ _).trans ?_
  refine (fireAll_gauge _ _ _ fun _ _ => execTransportTimeout_held _ _).trans ?_
  simp

theorem gauge_parts_links (s : State) (x : SMap Partition) (y : SMap Link) :
    State.gauge { s with parts := x, links := y } = s.gauge := rfl

@[simp] theorem takeEffect_gauge (s : State) : (State.takeEffect s).gauge = s.gauge := by
  unfold State.takeEffect
  dsimp only
  refine (gauge_parts_links _ _ _).trans ?_
  refine (retireFenced_gauge _).trans ((rebuildDone_gauge _ _).trans ((rebuildDone_gauge _ _).trans ?_))
  refine (each_gauge _ _ _ fun s d => by simp).trans ?_
  refine (portFailover_gauge _).trans ((applyFailing_gauge _).trans ((onCtl_gauge _ _).trans ?_))
  refine (each_gauge _ _ _ fun s d => by simp).trans ?_
  refine (orSame_held _ _ (execWarmQuiesceLimit_held _)).trans ?_
  refine (orSame_held _ _ (execWarmQuiesceStart_held _)).trans ?_
  refine (orSame_held _ _ (execOrientationBoundary_held _)).trans ?_
  refine (fireAll_gauge _ _ _ fun _ _ => execHostExtentFree_held _ _).trans ?_
  simp

@[simp] theorem onHeld_gauge (s : State) (f : Lease → Lease) : (State.onHeld s f).gauge = s.gauge := by
  simp [State.onHeld]

@[simp] theorem hoopExchange_gauge (s : State) : (State.hoopExchange s).gauge = s.gauge := by
  unfold State.hoopExchange
  (repeat' split) <;> simp

@[simp] theorem releaseIncoming_gauge (s : State) : (State.releaseIncoming s).gauge = s.gauge := by
  unfold State.releaseIncoming
  (repeat' split) <;> simp

@[simp] theorem startVerify_gauge (s : State) : (State.startVerify s).gauge = s.gauge := by
  simp [State.startVerify]

@[simp] theorem selfTestSlice_gauge (s : State) (k : Nat) (fail : Bool) : (State.selfTestSlice s k fail).gauge = s.gauge := by
  simp [State.selfTestSlice]

@[simp] theorem hoopStep_gauge (s : State) (m : BoundaryIn) : (State.hoopStep s m).gauge = s.gauge := by
  simp [State.hoopStep]

@[simp] theorem trafficStep_gauge (s : State) : (State.trafficStep s).gauge = s.gauge := by
  simp [State.trafficStep]

@[simp] theorem rebuildCredit_gauge (s : State) (h : Nat) : (State.rebuildCredit s h).gauge = s.gauge := by
  simp [State.rebuildCredit]

@[simp] theorem cqStep_gauge (s : State) : (State.cqStep s).gauge = s.gauge := by
  unfold State.cqStep
  refine each_gauge _ _ _ fun s p => each_gauge _ _ _ fun s q => ?_
  dsimp only
  exact (orSame_held _ _ (execCqHeldRecordRetry_held _ _ _)).trans (orSame_held _ _ (execCqResetApply_held _ _ _))

@[simp] theorem halfStep_gauge (s : State) : (State.halfStep s).gauge = s.gauge := by
  unfold State.halfStep
  dsimp only
  refine ite_same ?_ ((each_gauge _ _ _ fun s p => each_gauge _ _ _ fun s q => ite_same (by simp) rfl).trans ?_)
  all_goals
    simp only [cqStep_gauge, releaseHeld_gauge, rebuildCredit_gauge, startSlices_gauge, scrubSlice_gauge, serveUrgent_gauge]
    exact fireAll_gauge _ _ _ fun _ _ => execSelfRefreshEntry_held _ _

@[simp] theorem sqBoundary_gauge (s : State) (p q : Nat) : (State.sqBoundary s p q).gauge = s.gauge := by
  simp [State.sqBoundary]

@[simp] theorem partBoundary_gauge (s : State) (p : Nat) : (State.partBoundary s p).gauge = s.gauge := by
  simp [State.partBoundary]

@[simp] theorem countNoPath_gauge (s : State) : (State.countNoPath s).gauge = s.gauge := by
  simp [State.countNoPath]

@[simp] theorem beginRound_gauge (s : State) : (State.beginRound s).gauge = s.gauge := by
  simp [State.beginRound]

@[simp] theorem linkMargins_gauge (s : State) (m : BoundaryIn) : (State.linkMargins s m).gauge = s.gauge := by
  simp [State.linkMargins]

@[simp] theorem journalStep_gauge (s : State) : (State.journalStep s).gauge = s.gauge := by
  simp [State.journalStep]

end Sys2Proof.Machine
end

