-- ==== Sys2Proof/Laws/Gauge/Fair.lean ====
section
/-! SUPPORT. The operations that move the gauge keep the queue and the legal ranges. -/
namespace Sys2Proof.Machine

/-- The ranges at reset. -/
theorem rnd_fresh (n : Nat) : RoundSt.Legal { endpoint := n } := ⟨by simp, by simp, fun _ h => by cases h⟩

/-- A two-bit field. -/
theorem bits_le_three (w : U64) (lo : Nat) : bits w (lo + 1) lo ≤ 3 := by
  unfold bits
  have h : lo + 1 + 1 - lo = 2 := by omega
  rw [h]
  omega

theorem announceLength_fair (s : State) (code : Nat) (h : code ≤ 3) : Fair s (s.announceLength code) :=
  onRnd_fair _ _ fun l => ⟨l.1, l.2.1, fun e he => by cases he; exact h⟩

@[simp] theorem lengthResult_gauge (s : State) : s.lengthResult.gauge = s.gauge := by
  unfold State.lengthResult
  split <;> simp

theorem takeLength_fair (s : State) (code : Nat) (h : code ≤ 3) : Fair s (s.takeLength code) := by
  unfold State.takeLength
  split
  · exact Fair.refl s
  · exact (announceLength_fair s code h).before (lengthResult_gauge _)

theorem restarted_legal (x : PowerSt) : x.restarted.Legal := by
  simp [PowerSt.Legal, PowerSt.restarted]

theorem loseFabric_fair (s : State) : Fair s s.loseFabric := by
  have h : s.localAnswers.rimDark.applyFailing.gauge = s.gauge := by simp
  refine ⟨?_, fun _ => ⟨rnd_fresh _, restarted_legal _⟩⟩
  exact (fair_of_gauge h).1

theorem retainFabric_fair (s : State) : Fair s s.retainFabric := by
  have h : (s.localAnswers.rimDark.applyFailing.flushBuffers.each (List.range 4) State.dieBuffer).gauge = s.gauge := by simp
  unfold State.retainFabric
  dsimp only
  revert h
  generalize s.localAnswers.rimDark.applyFailing.flushBuffers.each (List.range 4) State.dieBuffer = t
  intro h
  refine ⟨?_, fun _ => ⟨rnd_fresh _, restarted_legal _⟩⟩
  exact (fair_of_gauge h).1

theorem takeCfg_fair (s : State) : Fair s s.takeCfg := by
  have h : s.takeStaged.gauge = s.gauge := by simp
  have k := bits_le_three s.takeStaged.rst.cfg.1 33
  unfold State.takeCfg
  refine Fair.after h ((Fair.after (onRst_gauge _ _) (onRnd_fair _ _ fun l => ?_)).before (onPower_gauge _ _ rfl))
  exact ⟨k, k, l.2.2⟩

/-- What a start does first leaves the gauge as it was. -/
theorem startControl_rest (s : State) (f : StartFacts) : Fair s
    (if !testOk f 0 && !testOk f 1 then s.onRst (fun r => { r with mode := .reset, phase := 0 })
    else if !s.leaseHeld then s.onRst (fun r => { r with mode := .recovery, phase := 2 })
    else if !f.persistentOk then s.onRst (fun r => { r with mode := .recovery, phase := 2 })
    else
      let s := (s.onRst (fun r => { r with phase := 3 })).onRnd (fun r => { r with counter := 0 })
      let s := s.trainBridges f.bridgesOk
      if s.auth.bridge0 || s.auth.bridge1 then s.onRst (fun r => { r with phase := 4 })
      else (s.onRst (fun r => { r with noSpine := true })).authority) := by
  have h : Fair s (((s.onRst (fun r => { r with phase := 3 })).onRnd (fun r => { r with counter := 0 })).trainBridges f.bridgesOk) :=
    (Fair.after (onRst_gauge s _) (onRnd_fair (s.onRst (fun r => { r with phase := 3 })) (fun r => { r with counter := 0 }) id)).before
      (trainBridges_gauge _ _)
  exact ite_fair _ (fair_of_gauge (by simp)) (ite_fair _ (fair_of_gauge (by simp)) (ite_fair _ (fair_of_gauge (by simp))
    (ite_fair _ (h.before (by simp)) (h.before (by simp)))))

theorem startControl_fair (s : State) (f : StartFacts) : Fair s (s.startControl f) := by
  unfold State.startControl
  have h : ∀ t : State, t.gauge = s.gauge → Fair s (State.bootStakes (if f.persistentOk then t.takeCfg else t) f) := fun t h =>
    (ite_fair _ (Fair.after h (takeCfg_fair t)) (fair_of_gauge h)).before (bootStakes_gauge _ _)
  refine Fair.trans (h _ ?_) (startControl_rest _ f)
  split <;> simp

theorem startFabric_fair (s : State) (f : StartFacts) (round : Nat) (jump : Bool) : Fair s (s.startFabric f round jump) := by
  unfold State.startFabric
  refine Fair.trans (t := s.each (f.litLinks.map (·.val)) (fun s l =>
    if (s.link l).st == .dark then (s.onLink l (fun x => { x with lit := 0xFF })).startTraining l else s)) ?_ ?_
  · apply fair_of_gauge
    refine each_gauge _ _ _ fun s l => ?_
    split <;> simp
  · refine (onRnd_fair _ _ ?_).before ((onRst_gauge _ _).trans ((onHost_gauge _ _).trans ((installRoutes_gauge _ _).trans (onLeases_gauge _ _))))
    exact id

theorem halves_gauge (s : State) (a b : HalfSt) : ({ s with half0 := a, half1 := b } : State).gauge = s.gauge := rfl

theorem startData_fair (s : State) (f : StartFacts) : Fair s (s.startData f) := by
  unfold State.startData
  dsimp only
  have h : (s.selfTest f).gauge = s.gauge := by simp
  refine Fair.after h (ite_fair _ ?_ (ite_fair _ ?_ ?_))
  · exact Fair.after (by simp) (startFabric_fair _ _ _ _)
  · exact fair_of_gauge (by simp)
  · exact Fair.after (halves_gauge _ _ _) (startFabric_fair _ _ _ _)

theorem start_fair (s : State) (f : StartFacts) : Fair s (s.start f) := by
  unfold State.start
  dsimp only
  have h : Fair s (if s.rst.phase < 4 then s.startControl f else s) := ite_fair _ (startControl_fair s f) (Fair.refl s)
  exact ite_fair _ (Fair.refl s) (ite_fair _ (h.trans (startData_fair _ f)) h)

theorem powerLost_fair (s : State) (code d0 d1 : Nat) : Fair s (s.powerLost code d0 d1) :=
  (loseFabric_fair s).before (onRst_gauge _ _)

theorem coldDue_fair (s : State) (kind : Nat) : Fair s (s.coldDue kind) := by
  unfold State.coldDue
  split
  · exact Fair.after (resetAccepted_gauge s kind 0) ((loseFabric_fair _).before (release_gauge _))
  · exact fair_of_gauge (by simp)

theorem recoverImage_fair (s : State) (facts : ImageFacts) : Fair s (s.recoverImage facts) := by
  unfold State.recoverImage
  dsimp only
  refine ite_fair _ (Fair.refl s) (ite_fair _ (fair_of_gauge (onAuth_gauge _ _)) ?_)
  exact Fair.trans (fair_of_gauge (by simp only [onStake_gauge, onAuth_gauge])) ((loseFabric_fair _).before (release_gauge _))

theorem openRound_fair (s : State) : Fair s s.openRound := by
  unfold State.openRound
  refine Fair.trans (t := if s.nextRound = s.now + 1 then s else (s.shiftTimers (s.nextRound - (s.now + 1))).moveNamed s.nextRound) ?_ ?_
  · exact ite_fair _ (Fair.refl s) (fair_of_gauge (by simp))
  · exact onRnd_fair _ _ fun l => ⟨l.1, l.1, l.2.2⟩

theorem actuate_legal (x : PowerSt) (p w : Nat) (h : x.Legal) : (x.actuate p w).Legal := by
  obtain ⟨h1, h2, h3, h4, h5⟩ := h
  unfold PowerSt.actuate
  (repeat' split) <;> refine ⟨?_, ?_, ?_, ?_, ?_⟩ <;> (try dsimp only) <;> omega

theorem nextCeiling_legal (x : PowerSt) (h : x.Legal) : x.nextCeiling.Legal := by
  obtain ⟨h1, h2, h3, h4, h5⟩ := h
  unfold PowerSt.nextCeiling
  cases x.fixed <;> cases x.boostEn <;> simp only [Bool.false_eq_true, if_true, if_false, Bool.true_and, Bool.false_and]
  all_goals
    (repeat' split) <;> refine ⟨?_, ?_, ?_, ?_, ?_⟩ <;> simp_all only [decide_eq_true_eq, Bool.and_eq_true] <;> first | omega | simp

theorem legal_of_dials {x y : PowerSt} (h : y.dials = x.dials) (l : x.Legal) : y.Legal := by
  simp only [PowerSt.dials, Prod.mk.injEq] at h
  obtain ⟨h5, h6, h7, h8, h9⟩ := h
  simpa only [PowerSt.Legal, h5, h6, h7, h8, h9] using l

@[simp] theorem note_dials (x : PowerSt) (now : Nat) (m : BoundaryIn) : (x.note now m).dials = x.dials := by
  unfold PowerSt.note
  dsimp only
  split <;> rfl
@[simp] theorem showAt_dials (x : PowerSt) (now : Nat) : (x.showAt now).dials = x.dials := by
  unfold PowerSt.showAt
  split <;> rfl
theorem read_dials (x : PowerSt) (n t : Nat) : (x.read n t).dials = x.dials := rfl
theorem takeAllot_dials (x : PowerSt) : x.takeAllot.dials = x.dials := by
  unfold PowerSt.takeAllot
  split <;> rfl
theorem countOver_dials (x : PowerSt) (p : Nat) : (x.countOver p).dials = x.dials := by
  unfold PowerSt.countOver
  dsimp only
  generalize (_ && _ : Bool) = b
  cases b <;> rfl

theorem reads_dials (temps : List (Nat × Nat)) (x : PowerSt) :
    (temps.foldl (fun (x : PowerSt) e => x.read e.1 e.2) x).dials = x.dials := by
  induction temps generalizing x with
  | nil => rfl
  | cons a l ih => rw [List.foldl_cons, ih, read_dials]

theorem step7_legal (x : PowerSt) (p w b : Nat) (temps : List (Nat × Nat)) (h : x.Legal) : (x.step7 p w b temps).Legal := by
  unfold PowerSt.step7
  refine actuate_legal _ _ _ (legal_of_dials (countOver_dials _ _) ?_)
  refine legal_of_dials ?_ h
  exact (takeAllot_dials _).trans (reads_dials temps { x with bus := b })

@[simp] theorem groupStep_gauge' (s : State) (n : Nat) : (s.groupStep n).gauge = s.gauge := by simp

theorem powerStep_fair (s : State) (m : BoundaryIn) (shorter : Bool) : Fair s (s.powerStep m shorter) := by
  unfold State.powerStep
  refine Fair.trans (onPower_fair s (fun x => ((x.note s.now m).step7 m.power m.weaverPower m.busV10 m.temps).showAt s.now) ?_) ?_
  · exact fun l => legal_of_dials (showAt_dials _ _) (step7_legal _ _ _ _ _ (legal_of_dials (note_dials _ _ _) l))
  · apply fair_of_gauge
    dsimp only
    split <;> simp

end Sys2Proof.Machine
end

