-- ==== Sys2Proof/Laws/Gauge/Scalar.lean ====
section
/-! SUPPORT. The operations of Machine/Scalar.lean leave the gauge as it was. -/
namespace Sys2Proof.Machine

@[simp] theorem alu_gauge (s : State) (w op : Nat) (f : Fields) (cost lat : Nat) (g : U64 → U64 → U64) : (State.alu s w op f cost lat g).gauge = s.gauge := by
  unfold State.alu
  refine tryIssue_gauge _ _ _ _ _ _ _ _ (fun s x => ?_)
  try dsimp only
  (repeat' split) <;> simp

@[simp] theorem cmp_gauge (s : State) (w op : Nat) (f : Fields) (g : U64 → U64 → Bool) : (State.cmp s w op f g).gauge = s.gauge := by
  unfold State.cmp
  refine tryIssue_gauge _ _ _ _ _ _ _ _ (fun s x => ?_)
  try dsimp only
  (repeat' split) <;> simp

end Sys2Proof.Machine
end

