-- ==== Sys2Proof/Laws/Gauge/Scratch.lean ====
section
/-! SUPPORT. The operations of Machine/Scratch.lean leave the gauge as it was. -/
namespace Sys2Proof.Machine

@[simp] theorem sload_gauge (s : State) (w op : Nat) (f : Fields) (dst n align : Nat) (put : Run → List Byte → Run) : (State.sload s w op f dst n align put).gauge = s.gauge := by
  unfold State.sload
  refine tryIssue_gauge _ _ _ _ _ _ _ _ (fun s x => ?_)
  try dsimp only
  (repeat' split) <;> simp

@[simp] theorem sloadG_gauge (s : State) (w op : Nat) (f : Fields) (n : Nat) (conv : Nat → U64) : (State.sloadG s w op f n conv).gauge = s.gauge := by
  simp [State.sloadG]

@[simp] theorem sstore_gauge (s : State) (w op : Nat) (f : Fields) (src n align : Nat) (whole : Bool) (bytes : Run → List Byte) : (State.sstore s w op f src n align whole bytes).gauge = s.gauge := by
  unfold State.sstore
  refine tryIssue_gauge _ _ _ _ _ _ _ _ (fun s x => ?_)
  try dsimp only
  (repeat' split) <;> simp

end Sys2Proof.Machine
end

