-- ==== Sys2Proof/Laws/Gauge/Vector.lean ====
section
/-! SUPPORT. The operations of Machine/Vector.lean leave the gauge as it was. -/
namespace Sys2Proof.Machine

@[simp] theorem vop_gauge (s : State) (w op : Nat) (f : Fields) (two : Bool) (cost lat : Nat) (g : Run → V512 × U64) : (State.vop s w op f two cost lat g).gauge = s.gauge := by
  unfold State.vop
  refine tryIssue_gauge _ _ _ _ _ _ _ _ (fun s x => ?_)
  try dsimp only
  (repeat' split) <;> simp

@[simp] theorem vpure_gauge (s : State) (w op : Nat) (f : Fields) (two : Bool) (cost lat : Nat) (g : Run → V512) : (State.vpure s w op f two cost lat g).gauge = s.gauge := by
  simp [State.vpure]

end Sys2Proof.Machine
end

