-- ==== Sys2Proof/Laws/Gauge/Tiles.lean ====
section
/-! SUPPORT. The operations of Machine/Tiles.lean leave the gauge as it was. -/
namespace Sys2Proof.Machine

@[simp] theorem arrayUse_gauge (s : State) (w p cycles : Nat) : (State.arrayUse s w p cycles).gauge = s.gauge := by
  simp [State.arrayUse]

@[simp] theorem tileOp_gauge (s : State) (w op : Nat) (f : Fields) (o : TileOp) (shape : Run → Tile) (scaled : Bool) : (State.tileOp s w op f o shape scaled).gauge = s.gauge := by
  unfold State.tileOp
  refine tryIssue_gauge _ _ _ _ _ _ _ _ (fun s x => ?_)
  try dsimp only
  (repeat' split) <;> simp

end Sys2Proof.Machine
end

