-- ==== Sys2Proof/Laws/Held/Background.lean ====
section
/-! SUPPORT. The commands of Machine/Background.lean that leave the gauge as it was. -/
namespace Sys2Proof.Machine

theorem execBackgroundInstructionDone_held (i : Issuer) (s : State) : Held s (execBackgroundInstructionDone i s) := by
  unfold execBackgroundInstructionDone
  dsimp only
  (repeat' split) <;> simp

theorem execControlResultReturn_held (i : Issuer) (s : State) : Held s (execControlResultReturn i s) := by
  unfold execControlResultReturn
  dsimp only
  (repeat' split) <;> simp

end Sys2Proof.Machine
end

