-- ==== Sys2Proof/Laws/Held/Bulk.lean ====
section
/-! SUPPORT. The commands of Machine/Bulk.lean that leave the gauge as it was. -/
namespace Sys2Proof.Machine

theorem execFill_held (w : WeaverId) (f : Fields) (s : State) : Held s (execFill w f s) := by
  simp [execFill]

theorem execCopy_held (w : WeaverId) (f : Fields) (s : State) : Held s (execCopy w f s) := by
  simp [execCopy]

theorem execCompare_held (w : WeaverId) (f : Fields) (s : State) : Held s (execCompare w f s) := by
  simp [execCompare]

theorem execReduce_held (w : WeaverId) (f : Fields) (s : State) : Held s (execReduce w f s) := by
  simp [execReduce]

theorem execChecksum_held (w : WeaverId) (f : Fields) (s : State) : Held s (execChecksum w f s) := by
  simp [execChecksum]

theorem execBulkSliceEnd_held (d : DieId) (ch : Fin 8) (s : State) : Held s (execBulkSliceEnd d ch s) := by
  unfold execBulkSliceEnd
  repeat' first
    | rfl
    | (simp; done)
    | (refine (held_next _ _).mpr ?_)
    | (refine held_ok ?_)
    | split
    | (refine (each_gauge _ _ _ fun _ _ => ?_).trans ?_)
    | (refine (foldl_gauge _ _ _ fun _ _ => ?_).trans ?_)
    | dsimp only

end Sys2Proof.Machine
end

