-- ==== Sys2Proof/Laws/Held/ControlDevice.lean ====
section
/-! SUPPORT. The commands of Machine/ControlDevice.lean that leave the gauge as it was. -/
namespace Sys2Proof.Machine

theorem execShapeSet_held (i : Issuer) (r : CtrlReq) (s : State) : Held s (execShapeSet i r s) := by
  unfold execShapeSet
  repeat' first
    | rfl
    | (simp; done)
    | (simp_all; done)
    | (refine (held_next _ _).mpr ?_)
    | (refine held_ok ?_)
    | split
    | (refine (each_gauge _ _ _ fun _ _ => ?_).trans ?_)
    | (refine (foldl_gauge _ _ _ fun _ _ => ?_).trans ?_)
    | (refine control_gauge _ _ _ _ _ _ fun _ _ _ _ => ?_)
    | (refine tryIssue_gauge _ _ _ _ _ _ _ _ fun _ _ => ?_)
    | dsimp only

theorem execPoliceSet_held (i : Issuer) (r : CtrlReq) (s : State) : Held s (execPoliceSet i r s) := by
  unfold execPoliceSet
  repeat' first
    | rfl
    | (simp; done)
    | (simp_all; done)
    | (refine (held_next _ _).mpr ?_)
    | (refine held_ok ?_)
    | split
    | (refine (each_gauge _ _ _ fun _ _ => ?_).trans ?_)
    | (refine (foldl_gauge _ _ _ fun _ _ => ?_).trans ?_)
    | (refine control_gauge _ _ _ _ _ _ fun _ _ _ _ => ?_)
    | (refine tryIssue_gauge _ _ _ _ _ _ _ _ fun _ _ => ?_)
    | dsimp only

theorem execRankBudget_held (i : Issuer) (r : CtrlReq) (s : State) : Held s (execRankBudget i r s) := by
  unfold execRankBudget
  repeat' first
    | rfl
    | (simp; done)
    | (simp_all; done)
    | (refine (held_next _ _).mpr ?_)
    | (refine held_ok ?_)
    | split
    | (refine (each_gauge _ _ _ fun _ _ => ?_).trans ?_)
    | (refine (foldl_gauge _ _ _ fun _ _ => ?_).trans ?_)
    | (refine control_gauge _ _ _ _ _ _ fun _ _ _ _ => ?_)
    | (refine tryIssue_gauge _ _ _ _ _ _ _ _ fun _ _ => ?_)
    | dsimp only

theorem execPwrCap_held (i : Issuer) (r : CtrlReq) (s : State) : Held s (execPwrCap i r s) := by
  unfold execPwrCap
  repeat' first
    | rfl
    | (simp; done)
    | (simp_all; done)
    | (refine (held_next _ _).mpr ?_)
    | (refine held_ok ?_)
    | split
    | (refine (each_gauge _ _ _ fun _ _ => ?_).trans ?_)
    | (refine (foldl_gauge _ _ _ fun _ _ => ?_).trans ?_)
    | (refine control_gauge _ _ _ _ _ _ fun _ _ _ _ => ?_)
    | (refine tryIssue_gauge _ _ _ _ _ _ _ _ fun _ _ => ?_)
    | dsimp only

theorem execPwrCapSagCap_held (i : Issuer) (r : CtrlReq) (s : State) : Held s (execPwrCapSagCap i r s) := by
  unfold execPwrCapSagCap
  repeat' first
    | rfl
    | (simp; done)
    | (simp_all; done)
    | (refine (held_next _ _).mpr ?_)
    | (refine held_ok ?_)
    | split
    | (refine (each_gauge _ _ _ fun _ _ => ?_).trans ?_)
    | (refine (foldl_gauge _ _ _ fun _ _ => ?_).trans ?_)
    | (refine control_gauge _ _ _ _ _ _ fun _ _ _ _ => ?_)
    | (refine tryIssue_gauge _ _ _ _ _ _ _ _ fun _ _ => ?_)
    | dsimp only

theorem execPwrCapSagWarn_held (i : Issuer) (r : CtrlReq) (s : State) : Held s (execPwrCapSagWarn i r s) := by
  unfold execPwrCapSagWarn
  repeat' first
    | rfl
    | (simp; done)
    | (simp_all; done)
    | (refine (held_next _ _).mpr ?_)
    | (refine held_ok ?_)
    | split
    | (refine (each_gauge _ _ _ fun _ _ => ?_).trans ?_)
    | (refine (foldl_gauge _ _ _ fun _ _ => ?_).trans ?_)
    | (refine control_gauge _ _ _ _ _ _ fun _ _ _ _ => ?_)
    | (refine tryIssue_gauge _ _ _ _ _ _ _ _ fun _ _ => ?_)
    | dsimp only

theorem execPwrMode_held (i : Issuer) (r : CtrlReq) (s : State) : Held s (execPwrMode i r s) := by
  unfold execPwrMode
  repeat' first
    | rfl
    | (simp; done)
    | (simp_all; done)
    | (refine (held_next _ _).mpr ?_)
    | (refine held_ok ?_)
    | split
    | (refine (each_gauge _ _ _ fun _ _ => ?_).trans ?_)
    | (refine (foldl_gauge _ _ _ fun _ _ => ?_).trans ?_)
    | (refine control_gauge _ _ _ _ _ _ fun _ _ _ _ => ?_)
    | (refine tryIssue_gauge _ _ _ _ _ _ _ _ fun _ _ => ?_)
    | dsimp only

theorem execOpPref_held (i : Issuer) (r : CtrlReq) (s : State) : Held s (execOpPref i r s) := by
  unfold execOpPref
  repeat' first
    | rfl
    | (simp; done)
    | (simp_all; done)
    | (refine (held_next _ _).mpr ?_)
    | (refine held_ok ?_)
    | split
    | (refine (each_gauge _ _ _ fun _ _ => ?_).trans ?_)
    | (refine (foldl_gauge _ _ _ fun _ _ => ?_).trans ?_)
    | (refine control_gauge _ _ _ _ _ _ fun _ _ _ _ => ?_)
    | (refine tryIssue_gauge _ _ _ _ _ _ _ _ fun _ _ => ?_)
    | dsimp only

theorem execCntSelectEvent_held (i : Issuer) (r : CtrlReq) (s : State) : Held s (execCntSelectEvent i r s) := by
  unfold execCntSelectEvent
  repeat' first
    | rfl
    | (simp; done)
    | (simp_all; done)
    | (refine (held_next _ _).mpr ?_)
    | (refine held_ok ?_)
    | split
    | (refine (each_gauge _ _ _ fun _ _ => ?_).trans ?_)
    | (refine (foldl_gauge _ _ _ fun _ _ => ?_).trans ?_)
    | (refine control_gauge _ _ _ _ _ _ fun _ _ _ _ => ?_)
    | (refine tryIssue_gauge _ _ _ _ _ _ _ _ fun _ _ => ?_)
    | dsimp only

theorem execCntSelectUserRead_held (i : Issuer) (r : CtrlReq) (s : State) : Held s (execCntSelectUserRead i r s) := by
  unfold execCntSelectUserRead
  repeat' first
    | rfl
    | (simp; done)
    | (simp_all; done)
    | (refine (held_next _ _).mpr ?_)
    | (refine held_ok ?_)
    | split
    | (refine (each_gauge _ _ _ fun _ _ => ?_).trans ?_)
    | (refine (foldl_gauge _ _ _ fun _ _ => ?_).trans ?_)
    | (refine control_gauge _ _ _ _ _ _ fun _ _ _ _ => ?_)
    | (refine tryIssue_gauge _ _ _ _ _ _ _ _ fun _ _ => ?_)
    | dsimp only

theorem execCntSnap_held (i : Issuer) (r : CtrlReq) (s : State) : Held s (execCntSnap i r s) := by
  unfold execCntSnap
  repeat' first
    | rfl
    | (simp; done)
    | (simp_all; done)
    | (refine (held_next _ _).mpr ?_)
    | (refine held_ok ?_)
    | split
    | (refine (each_gauge _ _ _ fun _ _ => ?_).trans ?_)
    | (refine (foldl_gauge _ _ _ fun _ _ => ?_).trans ?_)
    | (refine control_gauge _ _ _ _ _ _ fun _ _ _ _ => ?_)
    | (refine tryIssue_gauge _ _ _ _ _ _ _ _ fun _ _ => ?_)
    | dsimp only

theorem execRegionCreate_held (i : Issuer) (r : CtrlReq) (s : State) : Held s (execRegionCreate i r s) := by
  unfold execRegionCreate
  repeat' first
    | rfl
    | (simp; done)
    | (simp_all; done)
    | (refine (held_next _ _).mpr ?_)
    | (refine held_ok ?_)
    | split
    | (refine (each_gauge _ _ _ fun _ _ => ?_).trans ?_)
    | (refine (foldl_gauge _ _ _ fun _ _ => ?_).trans ?_)
    | (refine control_gauge _ _ _ _ _ _ fun _ _ _ _ => ?_)
    | (refine tryIssue_gauge _ _ _ _ _ _ _ _ fun _ _ => ?_)
    | dsimp only

theorem execRegionAccept_held (i : Issuer) (r : CtrlReq) (s : State) : Held s (execRegionAccept i r s) := by
  unfold execRegionAccept
  repeat' first
    | rfl
    | (simp; done)
    | (simp_all; done)
    | (refine (held_next _ _).mpr ?_)
    | (refine held_ok ?_)
    | split
    | (refine (each_gauge _ _ _ fun _ _ => ?_).trans ?_)
    | (refine (foldl_gauge _ _ _ fun _ _ => ?_).trans ?_)
    | (refine control_gauge _ _ _ _ _ _ fun _ _ _ _ => ?_)
    | (refine tryIssue_gauge _ _ _ _ _ _ _ _ fun _ _ => ?_)
    | dsimp only

theorem execRegionDestroy_held (i : Issuer) (r : CtrlReq) (s : State) : Held s (execRegionDestroy i r s) := by
  unfold execRegionDestroy
  repeat' first
    | rfl
    | (simp; done)
    | (simp_all; done)
    | (refine (held_next _ _).mpr ?_)
    | (refine held_ok ?_)
    | split
    | (refine (each_gauge _ _ _ fun _ _ => ?_).trans ?_)
    | (refine (foldl_gauge _ _ _ fun _ _ => ?_).trans ?_)
    | (refine control_gauge _ _ _ _ _ _ fun _ _ _ _ => ?_)
    | (refine tryIssue_gauge _ _ _ _ _ _ _ _ fun _ _ => ?_)
    | dsimp only

theorem execRegionPin_held (i : Issuer) (r : CtrlReq) (s : State) : Held s (execRegionPin i r s) := by
  unfold execRegionPin
  repeat' first
    | rfl
    | (simp; done)
    | (simp_all; done)
    | (refine (held_next _ _).mpr ?_)
    | (refine held_ok ?_)
    | split
    | (refine (each_gauge _ _ _ fun _ _ => ?_).trans ?_)
    | (refine (foldl_gauge _ _ _ fun _ _ => ?_).trans ?_)
    | (refine control_gauge _ _ _ _ _ _ fun _ _ _ _ => ?_)
    | (refine tryIssue_gauge _ _ _ _ _ _ _ _ fun _ _ => ?_)
    | dsimp only

theorem execRegionUnpin_held (i : Issuer) (r : CtrlReq) (s : State) : Held s (execRegionUnpin i r s) := by
  unfold execRegionUnpin
  repeat' first
    | rfl
    | (simp; done)
    | (simp_all; done)
    | (refine (held_next _ _).mpr ?_)
    | (refine held_ok ?_)
    | split
    | (refine (each_gauge _ _ _ fun _ _ => ?_).trans ?_)
    | (refine (foldl_gauge _ _ _ fun _ _ => ?_).trans ?_)
    | (refine control_gauge _ _ _ _ _ _ fun _ _ _ _ => ?_)
    | (refine tryIssue_gauge _ _ _ _ _ _ _ _ fun _ _ => ?_)
    | dsimp only

theorem execRegionPublish_held (i : Issuer) (r : CtrlReq) (s : State) : Held s (execRegionPublish i r s) := by
  unfold execRegionPublish
  repeat' first
    | rfl
    | (simp; done)
    | (simp_all; done)
    | (refine (held_next _ _).mpr ?_)
    | (refine held_ok ?_)
    | split
    | (refine (each_gauge _ _ _ fun _ _ => ?_).trans ?_)
    | (refine (foldl_gauge _ _ _ fun _ _ => ?_).trans ?_)
    | (refine control_gauge _ _ _ _ _ _ fun _ _ _ _ => ?_)
    | (refine tryIssue_gauge _ _ _ _ _ _ _ _ fun _ _ => ?_)
    | dsimp only

theorem execMbxBind_held (i : Issuer) (r : CtrlReq) (s : State) : Held s (execMbxBind i r s) := by
  unfold execMbxBind
  repeat' first
    | rfl
    | (simp; done)
    | (simp_all; done)
    | (refine (held_next _ _).mpr ?_)
    | (refine held_ok ?_)
    | split
    | (refine (each_gauge _ _ _ fun _ _ => ?_).trans ?_)
    | (refine (foldl_gauge _ _ _ fun _ _ => ?_).trans ?_)
    | (refine control_gauge _ _ _ _ _ _ fun _ _ _ _ => ?_)
    | (refine tryIssue_gauge _ _ _ _ _ _ _ _ fun _ _ => ?_)
    | dsimp only

theorem execMbxLock_held (i : Issuer) (r : CtrlReq) (s : State) : Held s (execMbxLock i r s) := by
  unfold execMbxLock
  repeat' first
    | rfl
    | (simp; done)
    | (simp_all; done)
    | (refine (held_next _ _).mpr ?_)
    | (refine held_ok ?_)
    | split
    | (refine (each_gauge _ _ _ fun _ _ => ?_).trans ?_)
    | (refine (foldl_gauge _ _ _ fun _ _ => ?_).trans ?_)
    | (refine control_gauge _ _ _ _ _ _ fun _ _ _ _ => ?_)
    | (refine tryIssue_gauge _ _ _ _ _ _ _ _ fun _ _ => ?_)
    | dsimp only

theorem execProgLoad_held (i : Issuer) (r : CtrlReq) (s : State) : Held s (execProgLoad i r s) := by
  unfold execProgLoad
  repeat' first
    | rfl
    | (simp; done)
    | (simp_all; done)
    | (refine (held_next _ _).mpr ?_)
    | (refine held_ok ?_)
    | split
    | (refine (each_gauge _ _ _ fun _ _ => ?_).trans ?_)
    | (refine (foldl_gauge _ _ _ fun _ _ => ?_).trans ?_)
    | (refine control_gauge _ _ _ _ _ _ fun _ _ _ _ => ?_)
    | (refine tryIssue_gauge _ _ _ _ _ _ _ _ fun _ _ => ?_)
    | dsimp only

theorem execProgUnload_held (i : Issuer) (r : CtrlReq) (s : State) : Held s (execProgUnload i r s) := by
  unfold execProgUnload
  repeat' first
    | rfl
    | (simp; done)
    | (simp_all; done)
    | (refine (held_next _ _).mpr ?_)
    | (refine held_ok ?_)
    | split
    | (refine (each_gauge _ _ _ fun _ _ => ?_).trans ?_)
    | (refine (foldl_gauge _ _ _ fun _ _ => ?_).trans ?_)
    | (refine control_gauge _ _ _ _ _ _ fun _ _ _ _ => ?_)
    | (refine tryIssue_gauge _ _ _ _ _ _ _ _ fun _ _ => ?_)
    | dsimp only

theorem execAttest_held (i : Issuer) (r : CtrlReq) (s : State) : Held s (execAttest i r s) := by
  unfold execAttest
  repeat' first
    | rfl
    | (simp; done)
    | (simp_all; done)
    | (refine (held_next _ _).mpr ?_)
    | (refine held_ok ?_)
    | split
    | (refine (each_gauge _ _ _ fun _ _ => ?_).trans ?_)
    | (refine (foldl_gauge _ _ _ fun _ _ => ?_).trans ?_)
    | (refine control_gauge _ _ _ _ _ _ fun _ _ _ _ => ?_)
    | (refine tryIssue_gauge _ _ _ _ _ _ _ _ fun _ _ => ?_)
    | dsimp only

theorem execRoleSwap_held (i : Issuer) (r : CtrlReq) (s : State) : Held s (execRoleSwap i r s) := by
  unfold execRoleSwap
  repeat' first
    | rfl
    | (simp; done)
    | (simp_all; done)
    | (refine (held_next _ _).mpr ?_)
    | (refine held_ok ?_)
    | split
    | (refine (each_gauge _ _ _ fun _ _ => ?_).trans ?_)
    | (refine (foldl_gauge _ _ _ fun _ _ => ?_).trans ?_)
    | (refine control_gauge _ _ _ _ _ _ fun _ _ _ _ => ?_)
    | (refine tryIssue_gauge _ _ _ _ _ _ _ _ fun _ _ => ?_)
    | dsimp only

theorem execFwStage_held (i : Issuer) (r : CtrlReq) (s : State) : Held s (execFwStage i r s) := by
  unfold execFwStage
  repeat' first
    | rfl
    | (simp; done)
    | (simp_all; done)
    | (refine (held_next _ _).mpr ?_)
    | (refine held_ok ?_)
    | split
    | (refine (each_gauge _ _ _ fun _ _ => ?_).trans ?_)
    | (refine (foldl_gauge _ _ _ fun _ _ => ?_).trans ?_)
    | (refine control_gauge _ _ _ _ _ _ fun _ _ _ _ => ?_)
    | (refine tryIssue_gauge _ _ _ _ _ _ _ _ fun _ _ => ?_)
    | dsimp only

theorem execMemTarget_held (i : Issuer) (r : CtrlReq) (s : State) : Held s (execMemTarget i r s) := by
  unfold execMemTarget
  repeat' first
    | rfl
    | (simp; done)
    | (simp_all; done)
    | (refine (held_next _ _).mpr ?_)
    | (refine held_ok ?_)
    | split
    | (refine (each_gauge _ _ _ fun _ _ => ?_).trans ?_)
    | (refine (foldl_gauge _ _ _ fun _ _ => ?_).trans ?_)
    | (refine control_gauge _ _ _ _ _ _ fun _ _ _ _ => ?_)
    | (refine tryIssue_gauge _ _ _ _ _ _ _ _ fun _ _ => ?_)
    | dsimp only

theorem execMemTargetRebuildShare_held (i : Issuer) (r : CtrlReq) (s : State) : Held s (execMemTargetRebuildShare i r s) := by
  unfold execMemTargetRebuildShare
  repeat' first
    | rfl
    | (simp; done)
    | (simp_all; done)
    | (refine (held_next _ _).mpr ?_)
    | (refine held_ok ?_)
    | split
    | (refine (each_gauge _ _ _ fun _ _ => ?_).trans ?_)
    | (refine (foldl_gauge _ _ _ fun _ _ => ?_).trans ?_)
    | (refine control_gauge _ _ _ _ _ _ fun _ _ _ _ => ?_)
    | (refine tryIssue_gauge _ _ _ _ _ _ _ _ fun _ _ => ?_)
    | dsimp only

theorem execMemRetire_held (i : Issuer) (r : CtrlReq) (s : State) : Held s (execMemRetire i r s) := by
  unfold execMemRetire
  repeat' first
    | rfl
    | (simp; done)
    | (simp_all; done)
    | (refine (held_next _ _).mpr ?_)
    | (refine held_ok ?_)
    | split
    | (refine (each_gauge _ _ _ fun _ _ => ?_).trans ?_)
    | (refine (foldl_gauge _ _ _ fun _ _ => ?_).trans ?_)
    | (refine control_gauge _ _ _ _ _ _ fun _ _ _ _ => ?_)
    | (refine tryIssue_gauge _ _ _ _ _ _ _ _ fun _ _ => ?_)
    | dsimp only

theorem execErrRead_held (i : Issuer) (r : CtrlReq) (s : State) : Held s (execErrRead i r s) := by
  unfold execErrRead
  repeat' first
    | rfl
    | (simp; done)
    | (simp_all; done)
    | (refine (held_next _ _).mpr ?_)
    | (refine held_ok ?_)
    | split
    | (refine (each_gauge _ _ _ fun _ _ => ?_).trans ?_)
    | (refine (foldl_gauge _ _ _ fun _ _ => ?_).trans ?_)
    | (refine control_gauge _ _ _ _ _ _ fun _ _ _ _ => ?_)
    | (refine tryIssue_gauge _ _ _ _ _ _ _ _ fun _ _ => ?_)
    | dsimp only

theorem execDevQuery_held (i : Issuer) (r : CtrlReq) (s : State) : Held s (execDevQuery i r s) := by
  unfold execDevQuery
  repeat' first
    | rfl
    | (simp; done)
    | (simp_all; done)
    | (refine (held_next _ _).mpr ?_)
    | (refine held_ok ?_)
    | split
    | (refine (each_gauge _ _ _ fun _ _ => ?_).trans ?_)
    | (refine (foldl_gauge _ _ _ fun _ _ => ?_).trans ?_)
    | (refine control_gauge _ _ _ _ _ _ fun _ _ _ _ => ?_)
    | (refine tryIssue_gauge _ _ _ _ _ _ _ _ fun _ _ => ?_)
    | dsimp only

theorem execCtrlFence_held (i : Issuer) (r : CtrlReq) (s : State) : Held s (execCtrlFence i r s) := by
  unfold execCtrlFence
  repeat' first
    | rfl
    | (simp; done)
    | (simp_all; done)
    | (refine (held_next _ _).mpr ?_)
    | (refine held_ok ?_)
    | split
    | (refine (each_gauge _ _ _ fun _ _ => ?_).trans ?_)
    | (refine (foldl_gauge _ _ _ fun _ _ => ?_).trans ?_)
    | (refine control_gauge _ _ _ _ _ _ fun _ _ _ _ => ?_)
    | (refine tryIssue_gauge _ _ _ _ _ _ _ _ fun _ _ => ?_)
    | dsimp only

end Sys2Proof.Machine
end

