-- ==== Sys2Proof/Laws/Held/ControlPool.lean ====
section
/-! SUPPORT. The commands of Machine/ControlPool.lean that leave the gauge as it was. -/
namespace Sys2Proof.Machine

theorem execPartCreate_held (i : Issuer) (r : CtrlReq) (s : State) : Held s (execPartCreate i r s) := by
  unfold execPartCreate
  repeat' first
    | rfl
    | (simp; done)
    | (simp_all; done)
    | (refine (held_next _ _).mpr ?_)
    | (refine held_ok ?_)
    | split
    | (refine (each_gauge _ _ _ fun _ _ => ?_).trans ?_)
    | (refine (foldl_gauge _ _ _ fun _ _ => ?_).trans ?_)
    | (refine control_gauge _ _ _ _ _ _ fun _ _ _ _ => ?_)
    | (refine tryIssue_gauge _ _ _ _ _ _ _ _ fun _ _ => ?_)
    | dsimp only

theorem execPartDestroy_held (i : Issuer) (r : CtrlReq) (s : State) : Held s (execPartDestroy i r s) := by
  unfold execPartDestroy
  repeat' first
    | rfl
    | (simp; done)
    | (simp_all; done)
    | (refine (held_next _ _).mpr ?_)
    | (refine held_ok ?_)
    | split
    | (refine (each_gauge _ _ _ fun _ _ => ?_).trans ?_)
    | (refine (foldl_gauge _ _ _ fun _ _ => ?_).trans ?_)
    | (refine control_gauge _ _ _ _ _ _ fun _ _ _ _ => ?_)
    | (refine tryIssue_gauge _ _ _ _ _ _ _ _ fun _ _ => ?_)
    | dsimp only

theorem execPartSetAffinity_held (i : Issuer) (r : CtrlReq) (s : State) : Held s (execPartSetAffinity i r s) := by
  unfold execPartSetAffinity
  repeat' first
    | rfl
    | (simp; done)
    | (simp_all; done)
    | (refine (held_next _ _).mpr ?_)
    | (refine held_ok ?_)
    | split
    | (refine (each_gauge _ _ _ fun _ _ => ?_).trans ?_)
    | (refine (foldl_gauge _ _ _ fun _ _ => ?_).trans ?_)
    | (refine control_gauge _ _ _ _ _ _ fun _ _ _ _ => ?_)
    | (refine tryIssue_gauge _ _ _ _ _ _ _ _ fun _ _ => ?_)
    | dsimp only

theorem execPartSetConsent_held (i : Issuer) (r : CtrlReq) (s : State) : Held s (execPartSetConsent i r s) := by
  unfold execPartSetConsent
  repeat' first
    | rfl
    | (simp; done)
    | (simp_all; done)
    | (refine (held_next _ _).mpr ?_)
    | (refine held_ok ?_)
    | split
    | (refine (each_gauge _ _ _ fun _ _ => ?_).trans ?_)
    | (refine (foldl_gauge _ _ _ fun _ _ => ?_).trans ?_)
    | (refine control_gauge _ _ _ _ _ _ fun _ _ _ _ => ?_)
    | (refine tryIssue_gauge _ _ _ _ _ _ _ _ fun _ _ => ?_)
    | dsimp only

theorem execExtGrant_held (i : Issuer) (r : CtrlReq) (s : State) : Held s (execExtGrant i r s) := by
  unfold execExtGrant
  repeat' first
    | rfl
    | (simp; done)
    | (simp_all; done)
    | (refine (held_next _ _).mpr ?_)
    | (refine held_ok ?_)
    | split
    | (refine (each_gauge _ _ _ fun _ _ => ?_).trans ?_)
    | (refine (foldl_gauge _ _ _ fun _ _ => ?_).trans ?_)
    | (refine control_gauge _ _ _ _ _ _ fun _ _ _ _ => ?_)
    | (refine tryIssue_gauge _ _ _ _ _ _ _ _ fun _ _ => ?_)
    | dsimp only

theorem execExtRevoke_held (i : Issuer) (r : CtrlReq) (s : State) : Held s (execExtRevoke i r s) := by
  unfold execExtRevoke
  repeat' first
    | rfl
    | (simp; done)
    | (simp_all; done)
    | (refine (held_next _ _).mpr ?_)
    | (refine held_ok ?_)
    | split
    | (refine (each_gauge _ _ _ fun _ _ => ?_).trans ?_)
    | (refine (foldl_gauge _ _ _ fun _ _ => ?_).trans ?_)
    | (refine control_gauge _ _ _ _ _ _ fun _ _ _ _ => ?_)
    | (refine tryIssue_gauge _ _ _ _ _ _ _ _ fun _ _ => ?_)
    | dsimp only

theorem execExtRetire_held (i : Issuer) (r : CtrlReq) (s : State) : Held s (execExtRetire i r s) := by
  unfold execExtRetire
  repeat' first
    | rfl
    | (simp; done)
    | (simp_all; done)
    | (refine (held_next _ _).mpr ?_)
    | (refine held_ok ?_)
    | split
    | (refine (each_gauge _ _ _ fun _ _ => ?_).trans ?_)
    | (refine (foldl_gauge _ _ _ fun _ _ => ?_).trans ?_)
    | (refine control_gauge _ _ _ _ _ _ fun _ _ _ _ => ?_)
    | (refine tryIssue_gauge _ _ _ _ _ _ _ _ fun _ _ => ?_)
    | dsimp only

theorem execExtQueryEntry_held (i : Issuer) (r : CtrlReq) (s : State) : Held s (execExtQueryEntry i r s) := by
  unfold execExtQueryEntry
  repeat' first
    | rfl
    | (simp; done)
    | (simp_all; done)
    | (refine (held_next _ _).mpr ?_)
    | (refine held_ok ?_)
    | split
    | (refine (each_gauge _ _ _ fun _ _ => ?_).trans ?_)
    | (refine (foldl_gauge _ _ _ fun _ _ => ?_).trans ?_)
    | (refine control_gauge _ _ _ _ _ _ fun _ _ _ _ => ?_)
    | (refine tryIssue_gauge _ _ _ _ _ _ _ _ fun _ _ => ?_)
    | dsimp only

theorem execExtQueryNext_held (i : Issuer) (r : CtrlReq) (s : State) : Held s (execExtQueryNext i r s) := by
  unfold execExtQueryNext
  repeat' first
    | rfl
    | (simp; done)
    | (simp_all; done)
    | (refine (held_next _ _).mpr ?_)
    | (refine held_ok ?_)
    | split
    | (refine (each_gauge _ _ _ fun _ _ => ?_).trans ?_)
    | (refine (foldl_gauge _ _ _ fun _ _ => ?_).trans ?_)
    | (refine control_gauge _ _ _ _ _ _ fun _ _ _ _ => ?_)
    | (refine tryIssue_gauge _ _ _ _ _ _ _ _ fun _ _ => ?_)
    | dsimp only

theorem execWinMap_held (i : Issuer) (r : CtrlReq) (s : State) : Held s (execWinMap i r s) := by
  unfold execWinMap
  repeat' first
    | rfl
    | (simp; done)
    | (simp_all; done)
    | (refine (held_next _ _).mpr ?_)
    | (refine held_ok ?_)
    | split
    | (refine (each_gauge _ _ _ fun _ _ => ?_).trans ?_)
    | (refine (foldl_gauge _ _ _ fun _ _ => ?_).trans ?_)
    | (refine control_gauge _ _ _ _ _ _ fun _ _ _ _ => ?_)
    | (refine tryIssue_gauge _ _ _ _ _ _ _ _ fun _ _ => ?_)
    | dsimp only

theorem execWinUnmap_held (i : Issuer) (r : CtrlReq) (s : State) : Held s (execWinUnmap i r s) := by
  unfold execWinUnmap
  repeat' first
    | rfl
    | (simp; done)
    | (simp_all; done)
    | (refine (held_next _ _).mpr ?_)
    | (refine held_ok ?_)
    | split
    | (refine (each_gauge _ _ _ fun _ _ => ?_).trans ?_)
    | (refine (foldl_gauge _ _ _ fun _ _ => ?_).trans ?_)
    | (refine control_gauge _ _ _ _ _ _ fun _ _ _ _ => ?_)
    | (refine tryIssue_gauge _ _ _ _ _ _ _ _ fun _ _ => ?_)
    | dsimp only

theorem execRankSet_held (i : Issuer) (r : CtrlReq) (s : State) : Held s (execRankSet i r s) := by
  unfold execRankSet
  repeat' first
    | rfl
    | (simp; done)
    | (simp_all; done)
    | (refine (held_next _ _).mpr ?_)
    | (refine held_ok ?_)
    | split
    | (refine (each_gauge _ _ _ fun _ _ => ?_).trans ?_)
    | (refine (foldl_gauge _ _ _ fun _ _ => ?_).trans ?_)
    | (refine control_gauge _ _ _ _ _ _ fun _ _ _ _ => ?_)
    | (refine tryIssue_gauge _ _ _ _ _ _ _ _ fun _ _ => ?_)
    | dsimp only

theorem execMcastSet_held (i : Issuer) (r : CtrlReq) (s : State) : Held s (execMcastSet i r s) := by
  unfold execMcastSet
  repeat' first
    | rfl
    | (simp; done)
    | (simp_all; done)
    | (refine (held_next _ _).mpr ?_)
    | (refine held_ok ?_)
    | split
    | (refine (each_gauge _ _ _ fun _ _ => ?_).trans ?_)
    | (refine (foldl_gauge _ _ _ fun _ _ => ?_).trans ?_)
    | (refine control_gauge _ _ _ _ _ _ fun _ _ _ _ => ?_)
    | (refine tryIssue_gauge _ _ _ _ _ _ _ _ fun _ _ => ?_)
    | dsimp only

theorem execKeyLoad_held (i : Issuer) (r : CtrlReq) (s : State) : Held s (execKeyLoad i r s) := by
  unfold execKeyLoad
  repeat' first
    | rfl
    | (simp; done)
    | (simp_all; done)
    | (refine (held_next _ _).mpr ?_)
    | (refine held_ok ?_)
    | split
    | (refine (each_gauge _ _ _ fun _ _ => ?_).trans ?_)
    | (refine (foldl_gauge _ _ _ fun _ _ => ?_).trans ?_)
    | (refine control_gauge _ _ _ _ _ _ fun _ _ _ _ => ?_)
    | (refine tryIssue_gauge _ _ _ _ _ _ _ _ fun _ _ => ?_)
    | dsimp only

theorem execXlateSync_held (i : Issuer) (r : CtrlReq) (s : State) : Held s (execXlateSync i r s) := by
  unfold execXlateSync
  repeat' first
    | rfl
    | (simp; done)
    | (simp_all; done)
    | (refine (held_next _ _).mpr ?_)
    | (refine held_ok ?_)
    | split
    | (refine (each_gauge _ _ _ fun _ _ => ?_).trans ?_)
    | (refine (foldl_gauge _ _ _ fun _ _ => ?_).trans ?_)
    | (refine control_gauge _ _ _ _ _ _ fun _ _ _ _ => ?_)
    | (refine tryIssue_gauge _ _ _ _ _ _ _ _ fun _ _ => ?_)
    | dsimp only

end Sys2Proof.Machine
end

