-- ==== Sys2Proof/Laws/Held/Counters.lean ====
section
/-! SUPPORT. The commands of Machine/Counters.lean that leave the gauge as it was. -/
namespace Sys2Proof.Machine

theorem execSnapshotRecordWrite_held (b : Nat) (s : State) : Held s (execSnapshotRecordWrite b s) := by
  simp [execSnapshotRecordWrite]

end Sys2Proof.Machine
end

