-- ==== Sys2Proof/Laws/Held/HostRegs.lean ====
section
/-! SUPPORT. The commands of Machine/HostRegs.lean that leave the gauge as it was. -/
namespace Sys2Proof.Machine

theorem execCtrlGo_held (s : State) : Held s (execCtrlGo s) := by
  unfold execCtrlGo
  repeat' first
    | rfl
    | (simp; done)
    | (refine (held_next _ _).mpr ?_)
    | (refine held_ok ?_)
    | split
    | (refine (each_gauge _ _ _ fun _ _ => ?_).trans ?_)
    | (refine (foldl_gauge _ _ _ fun _ _ => ?_).trans ?_)
    | dsimp only

theorem execCtrlResPop_held (s : State) : Held s (execCtrlResPop s) := by
  unfold execCtrlResPop
  repeat' first
    | rfl
    | (simp; done)
    | (refine (held_next _ _).mpr ?_)
    | (refine held_ok ?_)
    | split
    | (refine (each_gauge _ _ _ fun _ _ => ?_).trans ?_)
    | (refine (foldl_gauge _ _ _ fun _ _ => ?_).trans ?_)
    | dsimp only

theorem execEventPop_held (s : State) : Held s (execEventPop s) := by
  unfold execEventPop
  repeat' first
    | rfl
    | (simp; done)
    | (refine (held_next _ _).mpr ?_)
    | (refine held_ok ?_)
    | split
    | (refine (each_gauge _ _ _ fun _ _ => ?_).trans ?_)
    | (refine (foldl_gauge _ _ _ fun _ _ => ?_).trans ?_)
    | dsimp only

theorem execMbxPutRead_held (k : Fin 16) (s : State) : Held s (execMbxPutRead k s) := by
  unfold execMbxPutRead
  repeat' first
    | rfl
    | (simp; done)
    | (refine (held_next _ _).mpr ?_)
    | (refine held_ok ?_)
    | split
    | (refine (each_gauge _ _ _ fun _ _ => ?_).trans ?_)
    | (refine (foldl_gauge _ _ _ fun _ _ => ?_).trans ?_)
    | dsimp only

theorem execMbxAckTimeout_held (k : Fin 16) (s : State) : Held s (execMbxAckTimeout k s) := by
  unfold execMbxAckTimeout
  repeat' first
    | rfl
    | (simp; done)
    | (refine (held_next _ _).mpr ?_)
    | (refine held_ok ?_)
    | split
    | (refine (each_gauge _ _ _ fun _ _ => ?_).trans ?_)
    | (refine (foldl_gauge _ _ _ fun _ _ => ?_).trans ?_)
    | dsimp only

theorem execMbxPop_held (j : Fin 32) (s : State) : Held s (execMbxPop j s) := by
  unfold execMbxPop
  repeat' first
    | rfl
    | (simp; done)
    | (refine (held_next _ _).mpr ?_)
    | (refine held_ok ?_)
    | split
    | (refine (each_gauge _ _ _ fun _ _ => ?_).trans ?_)
    | (refine (foldl_gauge _ _ _ fun _ _ => ?_).trans ?_)
    | dsimp only

theorem execIntStatusWrite_held (v setSameCycle : U64) (s : State) : Held s (execIntStatusWrite v setSameCycle s) := by
  unfold execIntStatusWrite
  repeat' first
    | rfl
    | (simp; done)
    | (refine (held_next _ _).mpr ?_)
    | (refine held_ok ?_)
    | split
    | (refine (each_gauge _ _ _ fun _ _ => ?_).trans ?_)
    | (refine (foldl_gauge _ _ _ fun _ _ => ?_).trans ?_)
    | dsimp only

theorem execTelemReq_held (v : U64) (s : State) : Held s (execTelemReq v s) := by
  unfold execTelemReq
  repeat' first
    | rfl
    | (simp; done)
    | (refine (held_next _ _).mpr ?_)
    | (refine held_ok ?_)
    | split
    | (refine (each_gauge _ _ _ fun _ _ => ?_).trans ?_)
    | (refine (foldl_gauge _ _ _ fun _ _ => ?_).trans ?_)
    | dsimp only

theorem execAttestGo_held (s : State) : Held s (execAttestGo s) := by
  unfold execAttestGo
  repeat' first
    | rfl
    | (simp; done)
    | (refine (held_next _ _).mpr ?_)
    | (refine held_ok ?_)
    | split
    | (refine (each_gauge _ _ _ fun _ _ => ?_).trans ?_)
    | (refine (foldl_gauge _ _ _ fun _ _ => ?_).trans ?_)
    | dsimp only

theorem execFwGo_held (v : U64) (s : State) : Held s (execFwGo v s) := by
  unfold execFwGo
  repeat' first
    | rfl
    | (simp; done)
    | (refine (held_next _ _).mpr ?_)
    | (refine held_ok ?_)
    | split
    | (refine (each_gauge _ _ _ fun _ _ => ?_).trans ?_)
    | (refine (foldl_gauge _ _ _ fun _ _ => ?_).trans ?_)
    | dsimp only

theorem execHostDb_held (v : U64) (s : State) : Held s (execHostDb v s) := by
  unfold execHostDb
  repeat' first
    | rfl
    | (simp; done)
    | (refine (held_next _ _).mpr ?_)
    | (refine held_ok ?_)
    | split
    | (refine (each_gauge _ _ _ fun _ _ => ?_).trans ?_)
    | (refine (foldl_gauge _ _ _ fun _ _ => ?_).trans ?_)
    | dsimp only

theorem execResetCmd_held (v : U64) (s : State) : Held s (execResetCmd v s) := by
  unfold execResetCmd
  repeat' first
    | rfl
    | (simp; done)
    | (refine (held_next _ _).mpr ?_)
    | (refine held_ok ?_)
    | split
    | (refine (each_gauge _ _ _ fun _ _ => ?_).trans ?_)
    | (refine (foldl_gauge _ _ _ fun _ _ => ?_).trans ?_)
    | dsimp only

theorem execHostRegisterWrite_held (offset size : Nat) (v : U64) (s : State) : Held s (execHostRegisterWrite offset size v s) := by
  unfold execHostRegisterWrite
  repeat' first
    | rfl
    | (simp; done)
    | (refine (held_next _ _).mpr ?_)
    | (refine held_ok ?_)
    | split
    | (refine (each_gauge _ _ _ fun _ _ => ?_).trans ?_)
    | (refine (foldl_gauge _ _ _ fun _ _ => ?_).trans ?_)
    | dsimp only

end Sys2Proof.Machine
end

