-- ==== Sys2Proof/Laws/Held/Round.lean ====
section
/-! SUPPORT. The commands of Machine/Round.lean that leave the gauge as it was. -/
namespace Sys2Proof.Machine

theorem execRoundHoldover_held (s : State) : Held s (execRoundHoldover s) := by
  simp [execRoundHoldover]

theorem execElectionStart_held (s : State) : Held s (execElectionStart s) := by
  simp [execElectionStart]

theorem execRoundResync_held (counter : Nat) (s : State) : Held s (execRoundResync counter s) := by
  simp [execRoundResync]

theorem execRoundClaim_held (l : LinkId) (counter prio ep : Nat) (s : State) : Held s (execRoundClaim l counter prio ep s) := by
  simp [execRoundClaim]

theorem execMasterRecognised_held (s : State) : Held s (execMasterRecognised s) := by
  unfold execMasterRecognised
  (repeat' split) <;> simp

end Sys2Proof.Machine
end

