-- ==== Sys2Proof/Laws/Held/Moving.lean ====
section
/-! SUPPORT. The commands that may move the gauge keep the queue and the legal ranges. -/
namespace Sys2Proof.Machine

/-- The next state, where there is one, keeps the queue and the legal ranges. -/
def FairOut (s : State) (o : Host.Outcome State Fault Refusal) : Prop := ∀ t, o = .next t → Fair s t

theorem fair_next {s t : State} (h : Fair s t) : FairOut s (.next t) := fun _ e => by cases e; exact h
theorem fair_of_held {s : State} {o : Host.Outcome State Fault Refusal} (h : Held s o) : FairOut s o :=
  fun t e => fair_of_gauge (h t e)
theorem fair_either {s : State} (c : Prop) [Decidable c] {a b : Host.Outcome State Fault Refusal} (h : FairOut s a)
    (k : FairOut s b) : FairOut s (if c then a else b) := by split <;> assumption
theorem fair_same (s : State) : FairOut s (.next s) := fair_next (Fair.refl s)

theorem execLengthChangeEffect_fair (s : State) : FairOut s (execLengthChangeEffect s) := by
  unfold execLengthChangeEffect
  split
  · exact fair_same s
  · next code b e =>
    refine fair_either _ (fair_same s) (fair_next ⟨rfl, fun l => ?_⟩)
    exact ⟨⟨l.1.2.2 _ e, l.1.2.1, fun _ k => by cases k⟩, l.2⟩

/-- A choice that is fair both ways is fair. -/
theorem orSame_fair {s : State} {o : Host.Outcome State Fault Refusal} (h : FairOut s o) : Fair s (orSame s o) := by
  unfold orSame
  split
  · exact h _ rfl
  · exact Fair.refl s

theorem execRoundBoundary_fair (m : BoundaryIn) (s : State) : FairOut s (execRoundBoundary m s) := by
  unfold execRoundBoundary
  refine fair_either _ (fair_same s) (fair_either _ (fair_next ((loseFabric_fair s).before (release_gauge _))) ?_)
  dsimp only
  refine fair_next ((orSame_fair (execLengthChangeEffect_fair s)).trans ?_)
  generalize orSame s (execLengthChangeEffect s) = t
  have h1 : ((t.serveHosts.countCodewords m).healthExchange m).endRuns.learnAll.countClock.releaseAll.gauge = t.gauge := by simp
  have h2 := Fair.after h1 (openRound_fair _)
  have h3 : ∀ u : State, ((((u.latchCounters s.now).fireTimers.takeEffect).hoopStep m).trafficStep).gauge = u.gauge := by
    intro u; simp
  have h4 := h2.before (h3 _)
  refine Fair.trans (h4.trans (powerStep_fair _ m (decide (t.rnd.length ≠ t.rnd.running)))) (fair_of_gauge ?_)
  refine (orSame_held _ _ (execElectionStart_held _)).trans ((orSame_held _ _ (execRoundHoldover_held _)).trans ?_)
  simp

theorem execMarker_fair (l : LinkId) (boundary masterEp masterPrio hops : Nat) (pend : Option (Fin 4 × Nat)) (early : Bool)
    (offNs : Nat) (s : State) : FairOut s (execMarker l boundary masterEp masterPrio hops pend early offNs s) := by
  unfold execMarker
  dsimp only
  refine fair_either _ (fair_same s) ?_
  have h : ∀ (t : State) (g : RoundSt → RoundSt), t.gauge = s.gauge → (∀ x, (g x).counter = x.counter ∧ (g x).length = x.length ∧
      (g x).running = x.running ∧ (g x).pendLength = x.pendLength) → (if t.rnd.parent = some l.val then t.onRnd g else t).gauge = s.gauge := by
    intro t g e k
    split
    · exact (onRnd_gauge _ _ (k _).1 (k _).2.1 (k _).2.2.1 (k _).2.2.2).trans e
    · exact e
  have h1 := h _ (fun r => { r with steer := if early then -((min 16 offNs : Nat) : Int) else ((min 16 offNs : Nat) : Int) })
    (onRnd_gauge s (fun r =>
      let r := { r with
        hops := r.hops.put 0 l.val (hops + 1), markerAge := 0, held := false, master := some (r.master.getD masterEp)
        masterPrio := masterPrio }
      { r with parent := if r.parent.isSome && r.parentDown then r.parent else r.bestParent }) rfl rfl rfl rfl)
    fun _ => ⟨rfl, rfl, rfl, rfl⟩
  split
  · exact fair_next (fair_of_gauge h1)
  · next code b =>
    refine fair_next (Fair.after h1 (Fair.before ?_ (lengthResult_gauge _)))
    exact onRnd_fair _ _ fun l => ⟨l.1, l.2.1, fun e he => by cases he; exact Nat.le_of_lt_succ code.isLt⟩

/-- A control instruction is fair where its own part is. -/
theorem control_fair (s : State) (i : Issuer) (r : CtrlReq) (op sub : Nat)
    (go : State → State → Issuer → CtrlReq → CtlOut × State) (hg : ∀ f s, Fair s (go f s i r).2) :
    Fair s (s.control i r op sub go) := by
  unfold State.control
  dsimp only
  have h : (if (s.ctlQueue i).head? = some r then s else s.enqueue i r).gauge = s.gauge := either_gauge _ rfl (enqueue_gauge _ _ _)
  revert h
  generalize (if (s.ctlQueue i).head? = some r then s else s.enqueue i r) = t
  intro h
  refine ite_fair _ (Fair.refl s) (ite_fair _ (fair_of_gauge h) (Fair.after h ?_))
  split
  · split
    · exact hg _ _
    · exact Fair.refl t
  · split
    · exact (hg t.future t).before (by simp)
    · exact fair_of_gauge (by simp)

theorem reqBits_le_three (r : CtrlReq) (k lo : Nat) : reqBits r k (lo + 1) lo ≤ 3 := bits_le_three _ _

theorem ctlRoundSet_fair (f s : State) (i : Issuer) (r : CtrlReq) : Fair s (ctlRoundSet f s i r).2 := by
  have k := reqBits_le_three r 2 0
  have h : ∀ (c : Prop) [Decidable c] (a b : CtlOut × State), Fair s a.2 → Fair s b.2 → Fair s (if c then a else b).2 := by
    intro c _ a b x y
    split <;> assumption
  unfold ctlRoundSet
  refine h _ _ _ (Fair.refl s) (h _ _ _ ?_ ?_)
  · dsimp only
    refine ite_fair _ (announceLength_fair s _ k) (fair_of_gauge ?_)
    split <;> simp
  · split <;> exact Fair.refl s

theorem execRoundSet_fair (i : Issuer) (r : CtrlReq) (s : State) : FairOut s (execRoundSet i r s) := by
  exact fair_next ((control_fair s i r _ _ _ fun _ _ => ctlRoundSet_fair _ _ _ _).before (lengthResult_gauge _))

theorem execRoundCtrl_fair (m : RoundCtrl) (s : State) : FairOut s (execRoundCtrl m s) := by
  unfold execRoundCtrl
  split
  · exact fair_next (fair_of_gauge (by simp))
  · exact fair_next (fair_of_gauge (by simp))
  · exact fair_next (takeLength_fair _ _ (by omega))

theorem takeChunk_fair (s : State) (tag index : Nat) (words : List U64) (facts : ImageFacts) :
    Fair s (s.takeChunk tag index words facts) := by
  unfold State.takeChunk
  split
  · exact fair_of_gauge (by simp)
  · refine ite_fair _ (fair_of_gauge (by simp)) (ite_fair _ (Fair.after ?_ (recoverImage_fair _ _)) (fair_of_gauge ?_)) <;> simp

theorem execFwChunk_fair (head : RimHead) (index : Nat) (words : List U64) (facts : ImageFacts) (s : State) :
    FairOut s (execFwChunk head index words facts s) := by
  unfold execFwChunk
  refine fair_either _ (fair_same s) (fair_either _ (fair_next (fair_of_gauge (by simp)))
    (fair_either _ (fair_next (fair_of_gauge (by simp))) (fair_either _ (fair_next (fair_of_gauge (by simp)))
      (fair_either _ (fair_next (fair_of_gauge (by simp))) (fair_next ?_)))))
  exact Fair.after (by simp) (takeChunk_fair _ _ _ _ _)

theorem execOperatingPointChange_fair (s : State) : FairOut s (execOperatingPointChange s) := by
  unfold execOperatingPointChange
  refine fair_either _ (fair_same s) (fair_next ?_)
  refine Fair.trans (onPower_fair s (fun x => { x.nextCeiling with dutySum := 0, dutyRounds := 0, allFull := true, peak := 0 })
    fun l => nextCeiling_legal _ l) (fair_of_gauge ?_)
  simp

theorem execTrip_fair (sensor temp : Nat) (s : State) : FairOut s (execTrip sensor temp s) := by
  unfold execTrip
  exact fair_either _ (fair_next (fair_of_gauge (onPower_gauge _ _ rfl))) (fair_next ((powerLost_fair s _ _ _).before (onRst_gauge _ _)))

theorem execUndervoltReset_fair (busV10 : Nat) (s : State) : FairOut s (execUndervoltReset busV10 s) := by
  unfold execUndervoltReset
  have h : (s.onPower (fun x => { x with bus := busV10 })).gauge = s.gauge := onPower_gauge _ _ rfl
  exact fair_either _ (fair_next (fair_of_gauge h)) (fair_next (Fair.after h (powerLost_fair _ _ _ _)))

theorem execColdStart_fair (f : StartFacts) (s : State) : FairOut s (execColdStart f s) :=
  fair_either _ (fair_same s) (fair_next (start_fair s f))

theorem execWarmStart_fair (f : StartFacts) (s : State) : FairOut s (execWarmStart f s) :=
  fair_either _ (fair_next (start_fair s f)) (fair_same s)

theorem execDevResetN_fair (low : Bool) (s : State) : FairOut s (execDevResetN low s) := by
  unfold execDevResetN
  refine fair_either _ (fair_next ?_) (fair_next (fair_of_gauge (by simp)))
  exact (ite_fair _ (Fair.refl s) (loseFabric_fair s)).before (onRst_gauge _ _)

theorem execDeviceCold_fair (tag confirm : Nat) (s : State) : FairOut s (execDeviceCold tag confirm s) := by
  unfold execDeviceCold
  refine fair_either _ (fair_same s) (fair_either _ (fair_next (fair_of_gauge (by simp)))
    (fair_either _ (fair_next (fair_of_gauge (by simp))) (fair_next ?_)))
  exact Fair.after (takeResetReq_gauge s) (coldDue_fair _ _)

theorem execDeviceWarm_fair (tag confirm : Nat) (s : State) : FairOut s (execDeviceWarm tag confirm s) := by
  unfold execDeviceWarm
  refine fair_either _ (fair_same s) (fair_either _ (fair_next (fair_of_gauge (by simp)))
    (fair_either _ (fair_next ?_) (fair_either _ (fair_next (fair_of_gauge (by simp))) (fair_next (fair_of_gauge (by simp))))))
  exact Fair.after (takeResetReq_gauge s) (coldDue_fair _ _)

theorem execWarmResetEntry_fair (s : State) : FairOut s (execWarmResetEntry s) := by
  unfold execWarmResetEntry
  split
  · exact fair_same s
  · exact fair_either _ (fair_next ((retainFabric_fair s).before (release_gauge _))) (fair_same s)

end Sys2Proof.Machine
end

