-- ==== Sys2Proof/Laws/Held/Scalar.lean ====
section
/-! SUPPORT. The commands of Machine/Scalar.lean that leave the gauge as it was. -/
namespace Sys2Proof.Machine

theorem execAdd_held (w : WeaverId) (f : Fields) (s : State) : Held s (execAdd w f s) := by
  simp [execAdd]

theorem execSub_held (w : WeaverId) (f : Fields) (s : State) : Held s (execSub w f s) := by
  simp [execSub]

theorem execMul_held (w : WeaverId) (f : Fields) (s : State) : Held s (execMul w f s) := by
  simp [execMul]

theorem execDivu_held (w : WeaverId) (f : Fields) (s : State) : Held s (execDivu w f s) := by
  simp [execDivu]

theorem execRemu_held (w : WeaverId) (f : Fields) (s : State) : Held s (execRemu w f s) := by
  simp [execRemu]

theorem execAndOp_held (w : WeaverId) (f : Fields) (s : State) : Held s (execAndOp w f s) := by
  simp [execAndOp]

theorem execOrOp_held (w : WeaverId) (f : Fields) (s : State) : Held s (execOrOp w f s) := by
  simp [execOrOp]

theorem execXorOp_held (w : WeaverId) (f : Fields) (s : State) : Held s (execXorOp w f s) := by
  simp [execXorOp]

theorem execShl_held (w : WeaverId) (f : Fields) (s : State) : Held s (execShl w f s) := by
  simp [execShl]

theorem execShr_held (w : WeaverId) (f : Fields) (s : State) : Held s (execShr w f s) := by
  simp [execShr]

theorem execSra_held (w : WeaverId) (f : Fields) (s : State) : Held s (execSra w f s) := by
  simp [execSra]

theorem execMinOp_held (w : WeaverId) (f : Fields) (s : State) : Held s (execMinOp w f s) := by
  simp [execMinOp]

theorem execMaxOp_held (w : WeaverId) (f : Fields) (s : State) : Held s (execMaxOp w f s) := by
  simp [execMaxOp]

theorem execCmpeq_held (w : WeaverId) (f : Fields) (s : State) : Held s (execCmpeq w f s) := by
  simp [execCmpeq]

theorem execCmpne_held (w : WeaverId) (f : Fields) (s : State) : Held s (execCmpne w f s) := by
  simp [execCmpne]

theorem execCmplt_held (w : WeaverId) (f : Fields) (s : State) : Held s (execCmplt w f s) := by
  simp [execCmplt]

theorem execCmpltu_held (w : WeaverId) (f : Fields) (s : State) : Held s (execCmpltu w f s) := by
  simp [execCmpltu]

theorem execLi_held (w : WeaverId) (f : Fields) (s : State) : Held s (execLi w f s) := by
  unfold execLi
  (try dsimp only)
  refine held_ok (tryIssue_gauge _ _ _ _ _ _ _ _ (fun s x => ?_))
  (try dsimp only)
  (repeat' split) <;> simp

theorem execLix_held (w : WeaverId) (f : Fields) (s : State) : Held s (execLix w f s) := by
  unfold execLix
  (try dsimp only)
  refine held_ok (tryIssue_gauge _ _ _ _ _ _ _ _ (fun s x => ?_))
  (try dsimp only)
  (repeat' split) <;> simp

theorem execLdc_held (w : WeaverId) (f : Fields) (s : State) : Held s (execLdc w f s) := by
  unfold execLdc
  (try dsimp only)
  refine held_ok (tryIssue_gauge _ _ _ _ _ _ _ _ (fun s x => ?_))
  (try dsimp only)
  (repeat' split) <;> simp

theorem execPlog_held (w : WeaverId) (f : Fields) (s : State) : Held s (execPlog w f s) := by
  unfold execPlog
  (try dsimp only)
  refine held_ok (tryIssue_gauge _ _ _ _ _ _ _ _ (fun s x => ?_))
  (try dsimp only)
  (repeat' split) <;> simp

theorem execSel_held (w : WeaverId) (f : Fields) (s : State) : Held s (execSel w f s) := by
  unfold execSel
  (try dsimp only)
  refine held_ok (tryIssue_gauge _ _ _ _ _ _ _ _ (fun s x => ?_))
  (try dsimp only)
  (repeat' split) <;> simp

theorem execBr_held (w : WeaverId) (f : Fields) (s : State) : Held s (execBr w f s) := by
  unfold execBr
  (try dsimp only)
  refine held_ok (tryIssue_gauge _ _ _ _ _ _ _ _ (fun s x => ?_))
  (try dsimp only)
  (repeat' split) <;> simp

theorem execLoop_held (w : WeaverId) (f : Fields) (s : State) : Held s (execLoop w f s) := by
  unfold execLoop
  (try dsimp only)
  refine held_ok (tryIssue_gauge _ _ _ _ _ _ _ _ (fun s x => ?_))
  (try dsimp only)
  (repeat' split) <;> simp

end Sys2Proof.Machine
end

