-- ==== Sys2Proof/Laws/Held/Scratch.lean ====
section
/-! SUPPORT. The commands of Machine/Scratch.lean that leave the gauge as it was. -/
namespace Sys2Proof.Machine

theorem execLd8u_held (w : WeaverId) (f : Fields) (s : State) : Held s (execLd8u w f s) := by
  simp [execLd8u]

theorem execLd16u_held (w : WeaverId) (f : Fields) (s : State) : Held s (execLd16u w f s) := by
  simp [execLd16u]

theorem execLd32u_held (w : WeaverId) (f : Fields) (s : State) : Held s (execLd32u w f s) := by
  simp [execLd32u]

theorem execLd32s_held (w : WeaverId) (f : Fields) (s : State) : Held s (execLd32s w f s) := by
  simp [execLd32s]

theorem execLd64_held (w : WeaverId) (f : Fields) (s : State) : Held s (execLd64 w f s) := by
  simp [execLd64]

theorem execSt8_held (w : WeaverId) (f : Fields) (s : State) : Held s (execSt8 w f s) := by
  simp [execSt8]

theorem execSt16_held (w : WeaverId) (f : Fields) (s : State) : Held s (execSt16 w f s) := by
  simp [execSt16]

theorem execSt32_held (w : WeaverId) (f : Fields) (s : State) : Held s (execSt32 w f s) := by
  simp [execSt32]

theorem execSt64_held (w : WeaverId) (f : Fields) (s : State) : Held s (execSt64 w f s) := by
  simp [execSt64]

theorem execVld_held (w : WeaverId) (f : Fields) (s : State) : Held s (execVld w f s) := by
  simp [execVld]

theorem execVst_held (w : WeaverId) (f : Fields) (s : State) : Held s (execVst w f s) := by
  simp [execVst]

theorem execVldb_held (w : WeaverId) (f : Fields) (s : State) : Held s (execVldb w f s) := by
  simp [execVldb]

theorem execSclr_held (w : WeaverId) (f : Fields) (s : State) : Held s (execSclr w f s) := by
  unfold execSclr
  (try dsimp only)
  refine held_ok (tryIssue_gauge _ _ _ _ _ _ _ _ (fun s x => ?_))
  (try dsimp only)
  (repeat' split) <;> simp

theorem execSptest_held (w : WeaverId) (f : Fields) (s : State) : Held s (execSptest w f s) := by
  unfold execSptest
  (try dsimp only)
  refine held_ok (tryIssue_gauge _ _ _ _ _ _ _ _ (fun s x => ?_))
  (try dsimp only)
  (repeat' split) <;> simp

end Sys2Proof.Machine
end

