-- ==== Sys2Proof/Laws/Held/Telemetry.lean ====
section
/-! SUPPORT. The commands of Machine/Telemetry.lean that leave the gauge as it was. -/
namespace Sys2Proof.Machine

theorem execTelemetry_held (head : RimHead) (selector : Nat) (s : State) : Held s (execTelemetry head selector s) := by
  unfold execTelemetry
  repeat' first
    | rfl
    | (simp; done)
    | (simp_all; done)
    | (refine (held_next _ _).mpr ?_)
    | (refine held_ok ?_)
    | split
    | (refine (each_gauge _ _ _ fun _ _ => ?_).trans ?_)
    | (refine (foldl_gauge _ _ _ fun _ _ => ?_).trans ?_)
    | (refine control_gauge _ _ _ _ _ _ fun _ _ _ _ => ?_)
    | (refine tryIssue_gauge _ _ _ _ _ _ _ _ fun _ _ => ?_)
    | dsimp only

theorem execTelemetryData_held (s : State) : Held s (execTelemetryData s) := by
  unfold execTelemetryData
  (repeat' split) <;> first | (simp; done) | (simp [takeToHost_gauge _ _ (by assumption)]; done)

theorem execAttestReq_held (head : RimHead) (nonce : List U64) (s : State) : Held s (execAttestReq head nonce s) := by
  unfold execAttestReq
  repeat' first
    | rfl
    | (simp; done)
    | (simp_all; done)
    | (refine (held_next _ _).mpr ?_)
    | (refine held_ok ?_)
    | split
    | (refine (each_gauge _ _ _ fun _ _ => ?_).trans ?_)
    | (refine (foldl_gauge _ _ _ fun _ _ => ?_).trans ?_)
    | (refine control_gauge _ _ _ _ _ _ fun _ _ _ _ => ?_)
    | (refine tryIssue_gauge _ _ _ _ _ _ _ _ fun _ _ => ?_)
    | dsimp only

theorem execAttestResp_held (st : Status) (s : State) : Held s (execAttestResp st s) := by
  unfold execAttestResp
  (repeat' split) <;> first | (simp; done) | (simp [takeToHost_gauge _ _ (by assumption)]; done)

end Sys2Proof.Machine
end

