-- ==== Sys2Proof/Laws/Held/Tiles.lean ====
section
/-! SUPPORT. The commands of Machine/Tiles.lean that leave the gauge as it was. -/
namespace Sys2Proof.Machine

theorem execDot_held (w : WeaverId) (f : Fields) (s : State) : Held s (execDot w f s) := by
  unfold execDot
  (try dsimp only)
  refine held_ok (tryIssue_gauge _ _ _ _ _ _ _ _ (fun s x => ?_))
  (try dsimp only)
  (repeat' split) <;> simp

theorem execDotr_held (w : WeaverId) (f : Fields) (s : State) : Held s (execDotr w f s) := by
  simp [execDotr]

theorem execAxpyr_held (w : WeaverId) (f : Fields) (s : State) : Held s (execAxpyr w f s) := by
  simp [execAxpyr]

theorem execMma_held (w : WeaverId) (f : Fields) (s : State) : Held s (execMma w f s) := by
  simp [execMma]

theorem execSmx_held (w : WeaverId) (f : Fields) (s : State) : Held s (execSmx w f s) := by
  unfold execSmx
  (try dsimp only)
  refine held_ok (tryIssue_gauge _ _ _ _ _ _ _ _ (fun s x => ?_))
  (try dsimp only)
  (repeat' split) <;> simp

theorem execOscale_held (w : WeaverId) (f : Fields) (s : State) : Held s (execOscale w f s) := by
  unfold execOscale
  (try dsimp only)
  refine held_ok (tryIssue_gauge _ _ _ _ _ _ _ _ (fun s x => ?_))
  (try dsimp only)
  (repeat' split) <;> simp

end Sys2Proof.Machine
end

