-- ==== Sys2Proof/Laws/Held/Transfers.lean ====
section
/-! SUPPORT. The commands of Machine/Transfers.lean that leave the gauge as it was. -/
namespace Sys2Proof.Machine

theorem execStream_held (w : WeaverId) (f : Fields) (s : State) : Held s (execStream w f s) := by
  simp [execStream]

theorem execStreamw_held (w : WeaverId) (f : Fields) (s : State) : Held s (execStreamw w f s) := by
  simp [execStreamw]

theorem execGather_held (w : WeaverId) (f : Fields) (s : State) : Held s (execGather w f s) := by
  simp [execGather]

theorem execScatter_held (w : WeaverId) (f : Fields) (s : State) : Held s (execScatter w f s) := by
  simp [execScatter]

theorem execPld_held (w : WeaverId) (f : Fields) (s : State) : Held s (execPld w f s) := by
  unfold execPld
  exact held_ok (tryIssue_gauge _ _ _ _ _ _ _ _ fun _ _ => poolWord_gauge _ _ _ _ _ _ _ fun _ _ => by simp)

theorem execPst_held (w : WeaverId) (f : Fields) (s : State) : Held s (execPst w f s) := by
  unfold execPst
  exact held_ok (tryIssue_gauge _ _ _ _ _ _ _ _ fun _ _ => poolWord_gauge _ _ _ _ _ _ _ fun _ _ => by simp)

theorem execSwait_held (w : WeaverId) (f : Fields) (s : State) : Held s (execSwait w f s) := by
  unfold execSwait
  (try dsimp only)
  refine held_ok (tryIssue_gauge _ _ _ _ _ _ _ _ (fun s x => ?_))
  (try dsimp only)
  (repeat' split) <;> simp

theorem execAadd_held (w : WeaverId) (f : Fields) (s : State) : Held s (execAadd w f s) := by
  simp [execAadd]

theorem execAcas_held (w : WeaverId) (f : Fields) (s : State) : Held s (execAcas w f s) := by
  simp [execAcas]

theorem execAmax_held (w : WeaverId) (f : Fields) (s : State) : Held s (execAmax w f s) := by
  simp [execAmax]

theorem execAswap_held (w : WeaverId) (f : Fields) (s : State) : Held s (execAswap w f s) := by
  simp [execAswap]

theorem execFence_held (w : WeaverId) (f : Fields) (s : State) : Held s (execFence w f s) := by
  unfold execFence
  (try dsimp only)
  refine held_ok (tryIssue_gauge _ _ _ _ _ _ _ _ (fun s x => ?_))
  (try dsimp only)
  (repeat' split) <;> simp

theorem execFlag_held (w : WeaverId) (f : Fields) (s : State) : Held s (execFlag w f s) := by
  unfold execFlag
  exact held_ok (tryIssue_gauge _ _ _ _ _ _ _ _ fun _ _ => poolWord_gauge _ _ _ _ _ _ _ fun _ _ => by simp)

theorem execStreamLineLand_held (id cycle : Nat) (s : State) : Held s (execStreamLineLand id cycle s) := by
  unfold execStreamLineLand
  dsimp only
  (repeat' split) <;> simp

theorem execPoolResponse_held (id : Nat) (st : Status) (cycle : Nat) (s : State) : Held s (execPoolResponse id st cycle s) := by
  unfold execPoolResponse
  dsimp only
  (repeat' split) <;> simp

theorem execPoolWriteRefusal_held (id : Nat) (st : Status) (s : State) : Held s (execPoolWriteRefusal id st s) := by
  unfold execPoolWriteRefusal
  dsimp only
  (repeat' split) <;> simp

end Sys2Proof.Machine
end

