-- ==== Sys2Proof/Laws/Held/Vector.lean ====
section
/-! SUPPORT. The commands of Machine/Vector.lean that leave the gauge as it was. -/
namespace Sys2Proof.Machine

theorem execVadd_held (w : WeaverId) (f : Fields) (s : State) : Held s (execVadd w f s) := by
  simp [execVadd]

theorem execVsub_held (w : WeaverId) (f : Fields) (s : State) : Held s (execVsub w f s) := by
  simp [execVsub]

theorem execVmul_held (w : WeaverId) (f : Fields) (s : State) : Held s (execVmul w f s) := by
  simp [execVmul]

theorem execVfma_held (w : WeaverId) (f : Fields) (s : State) : Held s (execVfma w f s) := by
  simp [execVfma]

theorem execVmin_held (w : WeaverId) (f : Fields) (s : State) : Held s (execVmin w f s) := by
  simp [execVmin]

theorem execVmax_held (w : WeaverId) (f : Fields) (s : State) : Held s (execVmax w f s) := by
  simp [execVmax]

theorem execVabs_held (w : WeaverId) (f : Fields) (s : State) : Held s (execVabs w f s) := by
  simp [execVabs]

theorem execVexp2_held (w : WeaverId) (f : Fields) (s : State) : Held s (execVexp2 w f s) := by
  simp [execVexp2]

theorem execVrcp_held (w : WeaverId) (f : Fields) (s : State) : Held s (execVrcp w f s) := by
  simp [execVrcp]

theorem execVrsq_held (w : WeaverId) (f : Fields) (s : State) : Held s (execVrsq w f s) := by
  simp [execVrsq]

theorem execVand_held (w : WeaverId) (f : Fields) (s : State) : Held s (execVand w f s) := by
  simp [execVand]

theorem execVor_held (w : WeaverId) (f : Fields) (s : State) : Held s (execVor w f s) := by
  simp [execVor]

theorem execVxor_held (w : WeaverId) (f : Fields) (s : State) : Held s (execVxor w f s) := by
  simp [execVxor]

theorem execVshr_held (w : WeaverId) (f : Fields) (s : State) : Held s (execVshr w f s) := by
  simp [execVshr]

theorem execVcmplt_held (w : WeaverId) (f : Fields) (s : State) : Held s (execVcmplt w f s) := by
  simp [execVcmplt]

theorem execVsel_held (w : WeaverId) (f : Fields) (s : State) : Held s (execVsel w f s) := by
  simp [execVsel]

theorem execVsum_held (w : WeaverId) (f : Fields) (s : State) : Held s (execVsum w f s) := by
  unfold execVsum
  (try dsimp only)
  refine held_ok (tryIssue_gauge _ _ _ _ _ _ _ _ (fun s x => ?_))
  (try dsimp only)
  (repeat' split) <;> simp

theorem execVmaxr_held (w : WeaverId) (f : Fields) (s : State) : Held s (execVmaxr w f s) := by
  unfold execVmaxr
  (try dsimp only)
  refine held_ok (tryIssue_gauge _ _ _ _ _ _ _ _ (fun s x => ?_))
  (try dsimp only)
  (repeat' split) <;> simp

theorem execVbc_held (w : WeaverId) (f : Fields) (s : State) : Held s (execVbc w f s) := by
  unfold execVbc
  (try dsimp only)
  refine held_ok (tryIssue_gauge _ _ _ _ _ _ _ _ (fun s x => ?_))
  (try dsimp only)
  (repeat' split) <;> simp

theorem execVext_held (w : WeaverId) (f : Fields) (s : State) : Held s (execVext w f s) := by
  unfold execVext
  (try dsimp only)
  refine held_ok (tryIssue_gauge _ _ _ _ _ _ _ _ (fun s x => ?_))
  (try dsimp only)
  (repeat' split) <;> simp

theorem execVins_held (w : WeaverId) (f : Fields) (s : State) : Held s (execVins w f s) := by
  unfold execVins
  (try dsimp only)
  refine held_ok (tryIssue_gauge _ _ _ _ _ _ _ _ (fun s x => ?_))
  (try dsimp only)
  (repeat' split) <;> simp

theorem execVcvt_held (w : WeaverId) (f : Fields) (s : State) : Held s (execVcvt w f s) := by
  unfold execVcvt
  (try dsimp only)
  refine held_ok (tryIssue_gauge _ _ _ _ _ _ _ _ (fun s x => ?_))
  (try dsimp only)
  (repeat' split) <;> simp

theorem execVquant_held (w : WeaverId) (f : Fields) (s : State) : Held s (execVquant w f s) := by
  unfold execVquant
  (try dsimp only)
  refine held_ok (tryIssue_gauge _ _ _ _ _ _ _ _ (fun s x => ?_))
  (try dsimp only)
  (repeat' split) <;> simp

theorem execVdq_held (w : WeaverId) (f : Fields) (s : State) : Held s (execVdq w f s) := by
  unfold execVdq
  (try dsimp only)
  refine held_ok (tryIssue_gauge _ _ _ _ _ _ _ _ (fun s x => ?_))
  (try dsimp only)
  (repeat' split) <;> simp

end Sys2Proof.Machine
end

