-- ==== Sys2Proof/Laws/LineCode.lean ====
section
/-! SUPPORT. The poison mark meets what R188 asks of it, whatever the pattern that the spec does not give. -/
namespace Sys2Proof.Machine

/-- The pattern in use is one that R188 allows. -/
theorem poisonMark_ok : markOk poisonMark = true := by
  unfold poisonMark
  split
  · assumption
  · decide +kernel

theorem poisonMark_length : poisonMark.length = 8 := by
  have h := poisonMark_ok
  simp only [markOk, Bool.and_eq_true, decide_eq_true_eq] at h
  exact h.1.1

/-- A decoder of fewer symbols finds the same errors or none. -/
theorem findErrors_le {m n : Nat} (h : m ≤ n) (w : Nat) (syn : List Byte) :
    findErrors m w syn = none ∨ findErrors m w syn = findErrors n w syn := by
  unfold findErrors
  extract_lets x f ps omega_ slope
  clear_value x ps omega_ slope
  by_cases hc : (decide (m < x.len) || ps.length ≠ x.len) = true
  · left
    rw [if_pos (by simpa using hc)]
  · right
    have hn : ¬ (decide (n < x.len) || ps.length ≠ x.len) = true := by
      simp only [Bool.or_eq_true, decide_eq_true_eq, not_or] at hc ⊢
      exact ⟨by omega, hc.2⟩
    rw [if_neg hc, if_neg hn]

/-- What a decoder of more symbols rejects, one of fewer rejects. -/
theorem correct_none_of_le {m n slot line : Nat} {ss : List Byte} (h : m ≤ n) (hn : correct n slot line ss = none) :
    correct m slot line ss = none := by
  unfold correct at *
  rcases findErrors_le h 72 (syndromes slot line ss) with hm | hm <;> rw [hm]
  exact hn

theorem xorBytes_self : ∀ m : List Byte, xorBytes m m = List.replicate m.length 0
  | [] => rfl
  | x :: m => by
    have := xorBytes_self m
    simp_all [xorBytes, List.replicate_succ]

theorem xorBytes_zeros : ∀ m : List Byte, xorBytes (List.replicate m.length 0) m = m
  | [] => rfl
  | x :: m => by
    have := xorBytes_zeros m
    simp_all [xorBytes, List.replicate_succ]

/-- A marked line of zeros. -/
theorem storedSymbols_mark : storedSymbols 0 0 (List.replicate 64 0) true = zeroLineWith poisonMark := by
  have hc : lineCheck 0 0 (List.replicate 64 0) = List.replicate 8 0 := by decide +kernel
  have hl : lineSymbols (List.replicate 64 0) = List.replicate 64 0 := by decide +kernel
  have hz := xorBytes_zeros poisonMark
  rw [poisonMark_length] at hz
  simp only [storedSymbols, zeroLineWith, hc, hl, if_true, hz]

/-- The decoder recognises the mark. -/
theorem decodeLine_mark : decodeLine 0 0 (zeroLineWith poisonMark) = (.mark, List.replicate 64 0) := by
  have hk := poisonMark_ok
  simp only [markOk, Bool.and_eq_true, Option.isNone_iff_eq_none] at hk
  have hx := xorBytes_self poisonMark
  rw [poisonMark_length] at hx
  have hz : correct 1 0 0 (List.replicate 64 0 ++ List.replicate 8 0) = some (0, List.replicate 72 0) := by decide +kernel
  have hs : symbolBytes (List.replicate 72 0) = List.replicate 64 0 := by decide +kernel
  have ht : (zeroLineWith poisonMark).take 64 = List.replicate 64 0 := by simp [zeroLineWith]
  have hd : (zeroLineWith poisonMark).drop 64 = poisonMark := by simp [zeroLineWith]
  have h3 := correct_none_of_le (m := 3) (by decide) hk.1.2
  unfold decodeLine
  rw [h3, ht, hd, hx, hz, ← hs]

/-- A line of zeros that comes from the line beside the one asked for is uncorrectable. -/
theorem decodeLine_misread : decodeLine 0 0 (storedSymbols 0 1 (List.replicate 64 0) false) = (.ue, List.replicate 64 0) := by
  have hk := poisonMark_ok
  simp only [markOk, Bool.and_eq_true, List.all_eq_true] at hk
  have h0 := hk.2 0 (by decide)
  simp only [Nat.pow_zero, Nat.reduceDiv, zeroLineWith, Option.isNone_iff_eq_none] at h0
  have hl : lineSymbols (List.replicate 64 0) = List.replicate 64 0 := by decide +kernel
  have h3 : correct 3 0 0 (List.replicate 64 0 ++ lineCheck 0 1 (List.replicate 64 0)) = none := by decide +kernel
  have ht : (List.replicate 64 (0 : Byte) ++ lineCheck 0 1 (List.replicate 64 0)).take 64 = List.replicate 64 0 := by simp
  have hd : (List.replicate 64 (0 : Byte) ++ lineCheck 0 1 (List.replicate 64 0)).drop 64 =
      lineCheck 0 1 (List.replicate 64 0) := by simp
  have hst : storedSymbols 0 1 (List.replicate 64 0) false = List.replicate 64 0 ++ lineCheck 0 1 (List.replicate 64 0) := by
    simp only [storedSymbols, hl, Bool.false_eq_true, if_false]
  unfold decodeLine
  rw [hst, h3, ht, hd, h0]

/-- An empty error pattern. -/
theorem disturb_nil (ss : List Byte) : disturb ss [] = ss := by
  simp [disturb, List.zipIdx_map_fst]

end Sys2Proof.Machine
end

