-- ==== Sys2Proof/Laws/Memory.lean ====
section
/-! SUPPORT. What operations do to pool memory: sending leaves it as it was, and every memory operation keeps its canonical
form. -/
namespace Sys2Proof.Machine

/-! ### Sending does not touch pool memory -/

@[simp] theorem countPart_mem (s : State) (p k n : Nat) : (s.countPart p k n).mem = s.mem := (rfl)
@[simp] theorem countLink_mem (s : State) (l k n : Nat) : (s.countLink l k n).mem = s.mem := (rfl)
@[simp] theorem countNet_mem (s : State) (k : Nat) : (s.countNet k).mem = s.mem := (rfl)
@[simp] theorem countHost_mem (s : State) (k : Nat) : (s.countHost k).mem = s.mem := (rfl)
@[simp] theorem persistChange_mem (s : State) : s.persistChange.mem = s.mem := (rfl)
@[simp] theorem ite_mem (c : Prop) [Decidable c] (a b : State) : (if c then a else b).mem = if c then a.mem else b.mem := by
  split <;> rfl
@[simp] theorem each_mem {α : Type} (s : State) (l : List α) (f : State → α → State)
    (h : ∀ s a, (f s a).mem = s.mem) : (s.each l f).mem = s.mem := each_keeps State.mem h s l
@[simp] theorem foldl_mem {α : Type} (s : State) (l : List α) (f : State → α → State)
    (h : ∀ s a, (f s a).mem = s.mem) : (l.foldl f s).mem = s.mem := each_keeps State.mem h s l
@[simp] theorem ite_snd_mem {β : Type} (c : Prop) [Decidable c] (a b : β × State) :
    (if c then a else b).2.mem = if c then a.2.mem else b.2.mem := by
  split <;> rfl
@[simp] theorem foldl_snd_mem {α β : Type} (l : List α) (f : β × State → α → β × State) (x : β × State)
    (h : ∀ x a, (f x a).2.mem = x.2.mem) : (l.foldl f x).2.mem = x.2.mem := by
  induction l generalizing x with
  | nil => rfl
  | cons a l ih => rw [List.foldl_cons, ih, h]


@[simp] theorem setInt_mem (s : State) (i : Nat) : (State.setInt s i).mem = s.mem := by
  simp [State.setInt]

@[simp] theorem countOf_mem (s : State) (p k n : Nat) : (State.countOf s p k n).mem = s.mem := by
  simp [State.countOf]

@[simp] theorem ownerEvent_mem (s : State) (p code : Nat) (level : Bool) (n : Nat) : (State.ownerEvent s p code level n).mem = s.mem := by
  simp [State.ownerEvent]

@[simp] theorem opEvent_mem (s : State) (code : Nat) (e : OpEvt) (n : Nat) : (State.opEvent s code e n).mem = s.mem := by
  simp [State.opEvent]

@[simp] theorem countRead_mem (s : State) (p pa lines source priv : Nat) : (State.countRead s p pa lines source priv).mem = s.mem := by
  simp [State.countRead]

@[simp] theorem countWrite_mem (s : State) (p pa lines source priv : Nat) : (State.countWrite s p pa lines source priv).mem = s.mem := by
  simp [State.countWrite]



@[simp] theorem linkSend_mem (s : State) (l : Nat) (p : Packet) : (State.linkSend s l p).mem = s.mem := by
  simp [State.linkSend]

@[simp] theorem mcSend_mem (s : State) (p : Packet) (outs : List Nat) : (State.mcSend s p outs).2.mem = s.mem := by
  simp [State.mcSend]

@[simp] theorem launch_mem (s : State) (p : Packet) : (State.launch s p).mem = s.mem := by
  unfold State.launch
  (repeat' split) <;> simp

@[simp] theorem retryEgress_mem (s : State) : (State.retryEgress s).mem = s.mem := by
  simp [State.retryEgress]

@[simp] theorem launchFab_mem (s : State) (p : Packet) : (State.launchFab s p).mem = s.mem := by
  simp [State.launchFab]

@[simp] theorem onShaper_mem (s : State) (p ld : Nat) (f : Shaper → Shaper) : (State.onShaper s p ld f).mem = s.mem := by
  simp [State.onShaper]

@[simp] theorem stamp_mem (s : State) (p : Nat) (pkt : Packet) : (State.stamp s p pkt).2.mem = s.mem := by
  simp [State.stamp]

@[simp] theorem stampPeer_mem (s : State) (p : Nat) (pkt : Packet) : (State.stampPeer s p pkt).2.mem = s.mem := by
  unfold State.stampPeer
  (repeat' split) <;> simp

@[simp] theorem drainShaper_mem (s : State) (p ld : Nat) (a1 : Nat) : (State.drainShaper s p ld a1).mem = s.mem := by
  induction a1 generalizing s with
  | zero => rfl
  | succ n ih =>
    unfold State.drainShaper
    dsimp only
    (repeat' split) <;> simp [*]

@[simp] theorem originate_mem (s : State) (p ld : Nat) (pkt : Packet) (peer : Bool) : (State.originate s p ld pkt peer).mem = s.mem := by
  simp [State.originate]

@[simp] theorem onFlow_mem (s : State) (f : FlowId) (g : Flow → Flow) : (State.onFlow s f g).mem = s.mem := by
  simp [State.onFlow]

@[simp] theorem performed_mem (s : State) (ld : Nat) (q : Packet) : (State.performed s ld q).mem = s.mem := by
  simp [State.performed]

@[simp] theorem answered_mem (s : State) (ld : Nat) (reply : Packet) : (State.answered s ld reply).mem = s.mem := by
  unfold State.answered
  (repeat' split) <;> simp

@[simp] theorem sendReply_mem (s : State) (p ld : Nat) (reply : Packet) : (State.sendReply s p ld reply).mem = s.mem := by
  simp [State.sendReply]

@[simp] theorem takeSnoopSeq_mem (s : State) (p ep : Nat) : (State.takeSnoopSeq s p ep).2.mem = s.mem := by
  simp [State.takeSnoopSeq]

@[simp] theorem gotReq_mem (s : State) (id : Nat) (st : Status) (data : List Byte) (poison : Bool) :
    (s.gotReq id st data poison).mem = s.mem := (rfl)
@[simp] theorem ack_mem (s : State) (a : Ack) : (s.ack a).mem = s.mem := by
  cases a with
  | reply ld p pa pkt => exact sendReply_mem s p ld _
  | host tag => exact onHost_mem s _
  | stroke id old => rfl

/-! ### Canonical form -/

theorem pool_wf (m : PoolMem) : m.wf = true ↔ SMap.wf 0 m.array = true ∧ SMap.wf 0 m.parity = true ∧
    (∀ c ∈ m.coal, SMap.wf none c.bytes = true) ∧ ∀ d ∈ m.deltas, SMap.wf 0 d.bytes = true := by
  simp [PoolMem.wf, and_assoc]

/-- Pool memory at reset has the canonical form. -/
theorem reset_wf : State.reset.mem.wf = true := by decide

theorem store_wf {m : PoolMem} (pa : Nat) (bs : List Byte) (h : m.wf = true) : (m.store pa bs).wf = true := by
  rw [pool_wf] at h ⊢
  exact ⟨foldl_put_wf 0 _ _ _ h.1, h.2⟩

theorem storeParity_wf {m : PoolMem} (g r l : Nat) (bs : List Byte) (h : m.wf = true) : (m.storeParity g r l bs).wf = true := by
  rw [pool_wf] at h ⊢
  exact ⟨h.1, foldl_put_wf 0 _ _ _ h.2.1, h.2.2⟩

theorem foldl_wf {m : PoolMem} (ls : List Nat) (f : PoolMem → Nat → PoolMem) (hf : ∀ x l, x.wf = true → (f x l).wf = true)
    (h : m.wf = true) : (ls.foldl f m).wf = true := by
  induction ls generalizing m with
  | nil => exact h
  | cons a l ih => exact ih (hf _ a h)

theorem mark_wf {m : PoolMem} (pa : Nat) (h : m.wf = true) : (m.mark pa).wf = true := h

theorem unmark_wf {m : PoolMem} (pa : Nat) (h : m.wf = true) : (m.unmark pa).wf = true := by
  unfold PoolMem.unmark
  split <;> exact h

theorem delta_wf (xs : List (Nat × Byte)) {t : SMap Byte} (h : t.wf 0 = true) :
    SMap.wf 0 (xs.foldl (fun t x => t.mod 0 x.1 (· ^^^ x.2)) t) = true := by
  induction xs generalizing t with
  | nil => exact h
  | cons a l ih => exact ih (mod_wf 0 h)

theorem addDelta_wf {m : PoolMem} (g r e p : Nat) (xs : List (Nat × Byte)) (h : m.wf = true) :
    (m.addDelta g r e p xs).wf = true := by
  unfold PoolMem.addDelta
  split
  · exact h
  · rw [pool_wf] at h ⊢
    refine ⟨h.1, h.2.1, h.2.2.1, fun d hd => ?_⟩
    rcases List.mem_append.mp hd with hd | hd
    · exact h.2.2.2 d hd
    · rw [List.mem_singleton.mp hd]
      exact delta_wf xs rfl

/-- Dropping deltas, marks and intents. -/
theorem dropDeltas_wf {m : PoolMem} (t : Delta → Bool) (p q : List Nat) (x : List (Nat × Nat)) (h : m.wf = true) :
    ({ m with deltas := m.deltas.filter t, poison := p, parityPoison := q, intents := x } : PoolMem).wf = true := by
  rw [pool_wf] at h ⊢
  exact ⟨h.1, h.2.1, h.2.2.1, fun d hd => h.2.2.2 d (List.mem_of_mem_filter hd)⟩

/-- Dropping deltas, intents and logged atomics. -/
theorem closed_wf {m : PoolMem} (t : Delta → Bool) (x : List (Nat × Nat)) (y : List AtomLog) (h : m.wf = true) :
    ({ m with deltas := m.deltas.filter t, intents := x, atoms := y } : PoolMem).wf = true := by
  rw [pool_wf] at h ⊢
  exact ⟨h.1, h.2.1, h.2.2.1, fun d hd => h.2.2.2 d (List.mem_of_mem_filter hd)⟩

theorem parityRows_wf {m : PoolMem} (g r : Nat) (f : Nat → List Byte) (ls : List Nat) (h : m.wf = true) :
    (ls.foldl (fun x l => x.storeParity g r l (f l)) m).wf = true :=
  foldl_wf ls _ (fun _ _ k => storeParity_wf _ _ _ _ k) h

theorem storeParity_deltas (m : PoolMem) (g r l : Nat) (bs : List Byte) : (m.storeParity g r l bs).deltas = m.deltas := (rfl)

theorem parityRows_deltas (m : PoolMem) (g r : Nat) (f : Nat → List Byte) (ls : List Nat) :
    (ls.foldl (fun (x : PoolMem) l => x.storeParity g r l (f l)) m).deltas = m.deltas := by
  induction ls generalizing m with
  | nil => rfl
  | cons a l ih => exact ih _

theorem applyDeltas_wf {m : PoolMem} (g r : Nat) (h : m.wf = true) : (m.applyDeltas g r).wf = true := by
  unfold PoolMem.applyDeltas
  dsimp only
  split
  · rw [← parityRows_deltas m g r (m.parityBytes g r) (List.range 4)]
    exact closed_wf _ _ _ (parityRows_wf g r _ _ h)
  · exact closed_wf _ _ _ h

theorem openIntent_wf {m : PoolMem} (st r : Nat) (h : m.wf = true) : (m.openIntent st r).wf = true := by
  unfold PoolMem.openIntent
  split
  · exact h
  · dsimp only
    split
    · split
      · exact applyDeltas_wf _ _ h
      · exact h
    · exact h

theorem openIntents_wf {m : PoolMem} (ls : List Nat) (r : Nat) (h : m.wf = true) :
    (ls.foldl (fun (m : PoolMem) st => m.openIntent st r) m).wf = true :=
  foldl_wf ls _ (fun _ _ k => openIntent_wf _ _ k) h

/-- Putting bytes into the array. -/
theorem array_wf {m : PoolMem} (xs : List (Nat × Byte)) (h : m.wf = true) :
    ∀ a : SMap Byte, SMap.wf 0 a = true → ({ m with array := xs.foldl (fun a x => a.put 0 x.1 x.2) a } : PoolMem).wf = true := by
  intro a ha
  rw [pool_wf] at h ⊢
  exact ⟨foldl_put_wf 0 _ _ _ ha, h.2⟩

theorem writeRand_wf {s : State} (g r e p : Nat) (buf : SMap (Option Byte)) (h : s.mem.wf = true) :
    (s.writeRand g r e p buf).mem.wf = true := by
  unfold State.writeRand
  dsimp only
  have ha := ((pool_wf _).mp h).1
  split
  · have hs := (pool_wf _).mp h
    have kd : ∀ (xs : List (Nat × Byte)) (t : Delta → Bool) (x : List (Nat × Nat)) (y : List AtomLog) (p q : List Nat),
        ({ s.mem with
          array := xs.foldl (fun a x => a.put 0 x.1 x.2) s.mem.array, deltas := s.mem.deltas.filter t, intents := x, atoms := y,
          poison := p, parityPoison := q } : PoolMem).wf = true := by
      intro xs t x y p q
      rw [pool_wf]
      exact ⟨foldl_put_wf 0 _ _ _ hs.1, hs.2.1, hs.2.2.1, fun d hd => hs.2.2.2 d (List.mem_of_mem_filter hd)⟩
    split
    · exact kd _ _ _ _ _ _
    · exact foldl_wf _ _ (fun _ _ k => storeParity_wf _ _ _ _ k) (kd _ _ _ _ _ _)
  · dsimp only
    split
    · exact foldl_wf _ _ (fun _ _ k => unmark_wf _ k) (array_wf _ h _ ha)
    · exact addDelta_wf _ _ _ _ _ (foldl_wf _ _ (fun _ _ k => unmark_wf _ k) (array_wf _ (openIntents_wf _ _ h) _ ha))

theorem releaseRand_wf {s : State} (g r : Nat) (h : s.mem.wf = true) : (s.releaseRand g r).mem.wf = true := by
  unfold State.releaseRand
  split
  · exact h
  · next c _ =>
    dsimp only
    rw [each_mem _ _ _ fun s a => ack_mem s a]
    refine writeRand_wf _ _ _ _ _ ?_
    have k : ({ s.mem with coal := s.mem.coal.filter (fun x => !(x.half = g && x.rand = r)) } : PoolMem).wf = true := by
      rw [pool_wf] at h ⊢
      exact ⟨h.1, h.2.1, fun c hc => h.2.2.1 c (List.mem_of_mem_filter hc), h.2.2.2⟩
    split
    · exact k
    · rw [opEvent_mem]
      exact k

theorem releaseAll_wf {s : State} (h : s.mem.wf = true) : s.releaseAll.mem.wf = true :=
  each_inv (fun s => s.mem.wf = true) (fun _ _ k => releaseRand_wf _ _ k) h _

theorem releaseUrgent_wf {s : State} (h : s.mem.wf = true) : s.releaseUrgent.mem.wf = true :=
  each_inv (fun s => s.mem.wf = true) (fun _ _ k => releaseRand_wf _ _ k) h _

theorem drainLine_wf {s : State} (pa : Nat) (h : s.mem.wf = true) : (s.drainLine pa).mem.wf = true := by
  unfold State.drainLine
  dsimp only
  split
  · exact releaseRand_wf _ _ h
  · exact h

theorem drain_wf {s : State} (pa n : Nat) (h : s.mem.wf = true) : (s.drain pa n).mem.wf = true :=
  each_inv (fun s => s.mem.wf = true) (fun _ _ k => drainLine_wf _ k) h _

theorem useRow_mem (s : State) (pa src : Nat) (hint : Bool) : (s.useRow pa src hint).mem = s.mem := by
  unfold State.useRow State.useSlot State.refreshBank
  (repeat' split) <;> simp

theorem touch_mem (s : State) (pa : Nat) : (s.touch pa).mem = s.mem := by simp [State.touch]

/-- Bytes put into a buffered rand. -/
theorem puts_wf (xs : List ((Byte × Bool) × Nat)) {t : SMap (Option Byte)} (h : t.wf none = true) :
    SMap.wf none (xs.foldl (fun t x => if x.1.2 then t.put none x.2 (some x.1.1) else t) t) = true := by
  induction xs generalizing t with
  | nil => exact h
  | cons a l ih =>
    refine ih ?_
    dsimp only
    split
    · exact put_wf none h
    · exact h

theorem writeLine_wf {s : State} (pa : Nat) (bs : List Byte) (mask : List Bool) (acks : List Ack) (h : s.mem.wf = true) :
    (s.writeLine pa bs mask acks).mem.wf = true := by
  unfold State.writeLine
  dsimp only
  have k : ∀ (t : List Coal), (∀ c ∈ t, SMap.wf none c.bytes = true) → ({ s.mem with coal := t } : PoolMem).wf = true := by
    intro t ht
    rw [pool_wf] at h ⊢
    exact ⟨h.1, h.2.1, ht, h.2.2.2⟩
  have hc := ((pool_wf _).mp h).2.2.1
  have hmap : ∀ f : Coal → Coal, (∀ c, SMap.wf none c.bytes = true → SMap.wf none (f c).bytes = true) →
      ∀ c ∈ s.mem.coal.map f, SMap.wf none c.bytes = true := by
    intro f hf c hc'
    obtain ⟨d, hd, rfl⟩ := List.mem_map.mp hc'
    exact hf d (hc d hd)
  have happ : ∀ x : Coal, SMap.wf none x.bytes = true → ∀ c ∈ s.mem.coal ++ [x], SMap.wf none c.bytes = true := by
    intro x hx c hc'
    rcases List.mem_append.mp hc' with hd | hd
    · exact hc c hd
    · rw [List.mem_singleton.mp hd]
      exact hx
  split
  · split
    · split
      · refine releaseRand_wf _ _ (k _ (hmap _ fun c h => ?_))
        split
        · exact puts_wf _ h
        · exact h
      · refine k _ (hmap _ fun c h => ?_)
        split
        · exact puts_wf _ h
        · exact h
    · refine k _ (hmap _ fun c h => ?_)
      split
      · exact puts_wf _ h
      · exact h
  · split
    · split
      · exact releaseRand_wf _ _ (k _ (happ _ (puts_wf _ rfl)))
      · exact k _ (happ _ (puts_wf _ rfl))
    · exact k _ (happ _ (puts_wf _ rfl))

theorem writePool_wf {s : State} (pa : Nat) (bs : List Byte) (h : s.mem.wf = true) : (s.writePool pa bs).mem.wf = true :=
  each_inv (fun s => s.mem.wf = true) (fun _ _ k => writeLine_wf _ _ _ _ k) h _

theorem writePoisoned_wf {s : State} (pa : Nat) (bs : List Byte) (h : s.mem.wf = true) : (s.writePoisoned pa bs).mem.wf = true :=
  mark_wf _ (releaseRand_wf _ _ (writeLine_wf _ _ _ _ h))

theorem zeroRands_wf {s : State} (g lo hi : Nat) (h : s.mem.wf = true) : (s.zeroRands g lo hi).mem.wf = true := by
  rw [pool_wf] at h
  rw [pool_wf]
  unfold State.zeroRands
  dsimp only
  exact ⟨dropIf_wf 0 _ h.1, dropIf_wf 0 _ h.2.1, fun c hc => h.2.2.1 c (List.mem_of_mem_filter hc),
    fun d hd => h.2.2.2 d (List.mem_of_mem_filter hd)⟩

theorem rewriteParity_wf {s : State} (g r : Nat) (h : s.mem.wf = true) : (s.rewriteParity g r).mem.wf = true := by
  unfold State.rewriteParity
  split
  · exact h
  · exact foldl_wf _ _ (fun _ _ k => storeParity_wf _ _ _ _ k) (dropDeltas_wf _ _ _ _ h)

end Sys2Proof.Machine
end

