-- ==== Sys2Proof/WellFormed.lean ====
section
/-! DEFINITION. Well-formed commands: which operands the interfaces of the S48 can carry. A check for each kind of
operand whose Lean type admits more than its field's width. -/
namespace Sys2Proof

/-- A control request has 32 words (R296). -/
def CtrlReq.wf (r : CtrlReq) : Bool := r.words.length == 32

/-- The fields of a packet header keep their widths, and the payload is whole 64 B units (R384, R385, R386). -/
def Packet.wf (p : Packet) : Bool :=
  decide (p.cls < 4) && decide (p.opcode < 256) && decide (p.status < 256) && decide (p.load < 16) &&
  decide (p.units < 32) && decide (p.opflags < 8) && decide (p.keyId < 16) && decide (p.part < 256) &&
  decide (p.tag < 65536) && decide (p.srcEp < 2 ^ 24) && decide (p.dstEp < 2 ^ 24) && decide (p.srcRank < 65536) &&
  decide (p.pktCtr < 2 ^ 32) && decide (p.seq < 65536) && decide (p.aux < 65536) && decide (p.word2 < 2 ^ 64) &&
  (!p.lenOk || p.payload.length == 64 * p.units)

/-- A pool line is 64 B, and an address of a line has 52 bits (R24). -/
def lineWf (data : List Byte) : Bool := data.length == 64

/-- An optional line is a line. -/
def optLineWf (data : Option (List Byte)) : Bool := data.all lineWf

/-- A pool address is a 52-bit number (R24). -/
def paWf (pa : Nat) : Bool := decide (pa < 2 ^ 52)

/-- A line in error differs from the stored one in each symbol at most once, and there by something (R179). -/
def SymErrs.wf (err : SymErrs) : Bool := decide (err.map (·.1)).Nodup && err.all (fun e => e.2 ≠ 0)

/-- A partition virtual address is a 48-bit number (R102). -/
def pvaWf (pva : Nat) : Bool := decide (pva < 2 ^ 48)

/-- A rank is a 16-bit number (R402). -/
def rankWf (rank : Nat) : Bool := decide (rank < 65536)

/-- A requester's rank is one (R218). -/
def Requester.wf : Requester → Bool
  | .agent _ rank => rankWf rank
  | .buffer _ => true

/-- A fabric request asks for at most 16 lines (R223) and carries a 16-bit tag and sequence number (R384). -/
def FabReq.wf (r : FabReq) : Bool :=
  r.who.wf && decide (r.tag < 65536) && decide (r.seq < 65536) && decide (r.units ≤ 16) && decide (r.rdUnits ≤ 16) &&
  decide (r.window < 4096) && decide (r.offset < 2 ^ 52)

/-- A rim message's fields keep their widths and its payload has LEN words (R443, R445). -/
def RimMsg.wf (m : RimMsg) : Bool :=
  decide (m.type < 256) && decide (m.status < 256) && decide (m.channel < 256) && decide (m.tag < 65536) &&
  decide (m.len < 256) && m.payload.length == m.len

/-- A boundary's measurements name each sensor once. -/
def BoundaryIn.wf (m : BoundaryIn) : Bool := decide ((m.temps.map (·.1)).Nodup)

/-- A sample's stage times are 16-bit numbers and its cause and load 4-bit numbers (R548). -/
def SampleTimes.wf (t : SampleTimes) : Bool :=
  [t.fetch, t.decode, t.issue, t.wb, t.req, t.done, t.stall].all (fun x => decide (x < 65536)) &&
  decide (t.cause < 16) && decide (t.load < 16)

/-- An image's SVN is a number of 0 to 64 (R463) and its digest has 256 bits. -/
def ImageFacts.wf (f : ImageFacts) : Bool := decide (f.svn ≤ 64) && decide (f.digest.length ≤ 4)

/-- A start names two stakes, two images, two bridges and four weave dies. -/
def StartFacts.wf (f : StartFacts) : Bool :=
  f.stakeSelfTest.length == 2 && f.images.length == 2 && f.images.all ImageFacts.wf && f.bridgesOk.length == 2 &&
  f.diesOk.length == 4

/-- The fields of a training block keep their widths (R371). -/
def TrainBlock.wf (b : TrainBlock) : Bool :=
  decide (b.majorMax < 256) && decide (b.majorMin < 256) && decide (b.minor < 256) && decide (b.deviceClass < 16) &&
  decide (b.endpoint < 2 ^ 24) && decide (b.link < 64) && decide (b.vcUnits < 65536)

/-- A flow's endpoints have 24 bits, its partition 8 and its class 2 (R407). -/
def FlowId.wf (f : FlowId) : Bool :=
  decide (f.src < 2 ^ 24) && decide (f.dst < 2 ^ 24) && decide (f.part < 256) && decide (f.cls < 4)

/-- A link-state message keeps its endpoint widths (R399). -/
def LinkStateMsg.wf (m : LinkStateMsg) : Bool :=
  decide (m.origin < 2 ^ 20) && decide (m.neighbours.length ≤ 48) && decide (m.agents.length ≤ 48)

/-- A ROUND_CTRL delivery names an endpoint, or a length code of 0 to 3 (R310, R529). -/
def RoundCtrl.wf : RoundCtrl → Bool
  | .report ep limit demand => decide (ep < 2 ^ 24) && decide (limit < 2048) && decide (demand < 65536)
  | .allotment watts => decide (watts < 65536)
  | .lengthChange _ => true

/-- A Blurik instruction's fields are bit vectors, so every value is one the word can carry (R249). -/
def Fields.wf (_ : Fields) : Bool := true

/-- A well-formed command: every operand is one its interface can carry. -/
def Instr.wf : Instr → Bool
  | .roundBoundary m => m.wf
  | .lengthChangeEffect => true
  | .marker _ boundary ep prio hops _ _ _ =>
    decide (boundary < 2 ^ 64) && decide (ep < 2 ^ 20) && decide (prio < 256) && decide (hops < 256)
  | .roundClaim _ counter prio ep => decide (counter < 2 ^ 64) && decide (prio < 256) && decide (ep < 2 ^ 20)
  | .masterRecognised => true
  | .roundHoldover => true
  | .electionStart => true
  | .roundResync _ => true
  | .sqTailDoorbell _ _ _ => true
  | .cqHeadDoorbell _ _ _ => true
  | .sqResetDoorbell _ _ _ => true
  | .cqResetDoorbell _ _ _ => true
  | .cqResetApply _ _ => true
  | .descriptorFetch _ _ => true
  | .translationPinComplete _ _ => true
  | .admissionPoint _ => true
  | .dequePop _ => true
  | .steal _ => true
  | .budgetStop _ => true
  | .cqHeldRecordRetry _ _ => true
  | .streamLineLand _ _ => true
  | .poolResponse _ _ _ => true
  | .poolWriteRefusal _ _ => true
  | .watchEvaluation _ _ => true
  | .watchTimeout _ => true
  | .add _ f => f.wf
  | .sub _ f => f.wf
  | .mul _ f => f.wf
  | .divu _ f => f.wf
  | .remu _ f => f.wf
  | .andOp _ f => f.wf
  | .orOp _ f => f.wf
  | .xorOp _ f => f.wf
  | .shl _ f => f.wf
  | .shr _ f => f.wf
  | .sra _ f => f.wf
  | .minOp _ f => f.wf
  | .maxOp _ f => f.wf
  | .li _ f => f.wf
  | .lix _ f => f.wf
  | .ldc _ f => f.wf
  | .cmpeq _ f => f.wf
  | .cmpne _ f => f.wf
  | .cmplt _ f => f.wf
  | .cmpltu _ f => f.wf
  | .plog _ f => f.wf
  | .sel _ f => f.wf
  | .br _ f => f.wf
  | .loop _ f => f.wf
  | .ld8u _ f => f.wf
  | .ld16u _ f => f.wf
  | .ld32u _ f => f.wf
  | .ld32s _ f => f.wf
  | .ld64 _ f => f.wf
  | .st8 _ f => f.wf
  | .st16 _ f => f.wf
  | .st32 _ f => f.wf
  | .st64 _ f => f.wf
  | .vld _ f => f.wf
  | .vst _ f => f.wf
  | .vldb _ f => f.wf
  | .sclr _ f => f.wf
  | .sptest _ f => f.wf
  | .stream _ f => f.wf
  | .streamw _ f => f.wf
  | .gather _ f => f.wf
  | .scatter _ f => f.wf
  | .pld _ f => f.wf
  | .pst _ f => f.wf
  | .swait _ f => f.wf
  | .vadd _ f => f.wf
  | .vsub _ f => f.wf
  | .vmul _ f => f.wf
  | .vfma _ f => f.wf
  | .vmin _ f => f.wf
  | .vmax _ f => f.wf
  | .vabs _ f => f.wf
  | .vexp2 _ f => f.wf
  | .vrcp _ f => f.wf
  | .vrsq _ f => f.wf
  | .vand _ f => f.wf
  | .vor _ f => f.wf
  | .vxor _ f => f.wf
  | .vshr _ f => f.wf
  | .vcmplt _ f => f.wf
  | .vsel _ f => f.wf
  | .vsum _ f => f.wf
  | .vmaxr _ f => f.wf
  | .vbc _ f => f.wf
  | .vext _ f => f.wf
  | .vins _ f => f.wf
  | .vcvt _ f => f.wf
  | .vquant _ f => f.wf
  | .vdq _ f => f.wf
  | .dot _ f => f.wf
  | .dotr _ f => f.wf
  | .axpyr _ f => f.wf
  | .mma _ f => f.wf
  | .smx _ f => f.wf
  | .oscale _ f => f.wf
  | .fill _ f => f.wf
  | .copy _ f => f.wf
  | .compare _ f => f.wf
  | .reduce _ f => f.wf
  | .checksum _ f => f.wf
  | .aadd _ f => f.wf
  | .acas _ f => f.wf
  | .amax _ f => f.wf
  | .aswap _ f => f.wf
  | .fence _ f => f.wf
  | .flag _ f => f.wf
  | .wait _ f => f.wf
  | .yield _ f => f.wf
  | .phase _ f => f.wf
  | .sendMailbox _ f => f.wf
  | .sendDoorbell _ f => f.wf
  | .cntrd _ f => f.wf
  | .timeBudget _ f => f.wf
  | .timeRound _ f => f.wf
  | .endStroke _ f => f.wf
  | .sampleRecordWrite _ t => t.wf
  | .bulkSliceEnd _ _ => true
  | .partCreate _ r => r.wf
  | .partDestroy _ r => r.wf
  | .partSetAffinity _ r => r.wf
  | .partSetConsent _ r => r.wf
  | .extGrant _ r => r.wf
  | .extRevoke _ r => r.wf
  | .extRetire _ r => r.wf
  | .extQueryEntry _ r => r.wf
  | .extQueryNext _ r => r.wf
  | .winMap _ r => r.wf
  | .winUnmap _ r => r.wf
  | .rankSet _ r => r.wf
  | .mcastSet _ r => r.wf
  | .keyLoad _ r => r.wf
  | .shapeSet _ r => r.wf
  | .policeSet _ r => r.wf
  | .rankBudget _ r => r.wf
  | .pwrCap _ r => r.wf
  | .pwrCapSagCap _ r => r.wf
  | .pwrCapSagWarn _ r => r.wf
  | .pwrMode _ r => r.wf
  | .opPref _ r => r.wf
  | .cntSelectEvent _ r => r.wf
  | .cntSelectUserRead _ r => r.wf
  | .cntSnap _ r => r.wf
  | .regionCreate _ r => r.wf
  | .regionAccept _ r => r.wf
  | .regionDestroy _ r => r.wf
  | .regionPin _ r => r.wf
  | .regionUnpin _ r => r.wf
  | .regionPublish _ r => r.wf
  | .mbxBind _ r => r.wf
  | .mbxLock _ r => r.wf
  | .roundSet _ r => r.wf
  | .progLoad _ r => r.wf
  | .progUnload _ r => r.wf
  | .attest _ r => r.wf
  | .roleSwap _ r => r.wf
  | .fwStage _ r => r.wf
  | .xlateSync _ r => r.wf
  | .memTarget _ r => r.wf
  | .memTargetRebuildShare _ r => r.wf
  | .memRetire _ r => r.wf
  | .errRead _ r => r.wf
  | .devQuery _ r => r.wf
  | .ctrlFence _ r => r.wf
  | .backgroundInstructionDone _ => true
  | .controlResultReturn _ => true
  | .pageWalk _ _ pva _ _ => pvaWf pva
  | .dataNc _ pva _ _ _ => pvaWf pva
  | .migrationReadFail _ pva _ => pvaWf pva
  | .migrationComplete _ pva => pvaWf pva
  | .extentDrainLimit _ => true
  | .extentScrubbingEntry _ => true
  | .scrubBlockReadback _ _ => true
  | .extentFree _ => true
  | .memReadDecode pa err came _ _ => paWf pa && err.wf && came.all paWf
  | .verifyRead pa err => paWf pa && err.wf
  | .reconstruction pa x _ _ => paWf pa && x.err.wf && decide x.badUnits.Nodup
  | .coalesceRelease _ _ => true
  | .parityDeltaUpdate _ _ => true
  | .refreshDue _ => true
  | .bankRefresh _ => true
  | .rowCloseTimeout _ => true
  | .refreshRateSwitch _ _ => true
  | .weaveDieFailed _ => true
  | .failoverTakeover _ => true
  | .failoverResyncDone _ => true
  | .selfRefreshEntry _ => true
  | .selfRefreshExit _ => true
  | .metadataFlush _ => true
  | .parityMismatch path _ x tries => decide (path < 65536) && decide (tries.length ≤ 4) && paWf x.pa
  | .stackFailed _ _ => true
  | .rebuildRand _ _ => true
  | .pageRetireCopy _ => true
  | .bankUnitMove _ => true
  | .scratchError _ _ _ => true
  | .registerParityError _ => true
  | .weaverFence _ _ => true
  | .rdS r => r.wf
  | .rdX r => r.wf
  | .upg r => r.wf
  | .rdNc r => r.wf
  | .wrNc r _ _ => r.wf
  | .atom r _ _ _ _ => r.wf
  | .ackInv _ rank _ => rankWf rank
  | .fwdDone _ rank _ data _ => rankWf rank && optLineWf data
  | .fwdMiss _ rank _ _ => rankWf rank
  | .recallData _ rank _ data _ => rankWf rank && optLineWf data
  | .wb who _ _ _ data _ => who.wf && lineWf data
  | .evict _ rank _ => rankWf rank
  | .probeAck _ rank => rankWf rank
  | .mcAck _ _ _ _ => true
  | .mcAckTimeout _ _ _ => true
  | .snoopProbe _ => true
  | .agentDeadDeclare _ rank => rankWf rank
  | .tokenLapse _ => true
  | .regionPublishComplete _ => true
  | .versionRetire _ _ => true
  | .regionDrainLimit _ => true
  | .regionInvalidate _ => true
  | .linkPacketRx _ _ _ _ _ pkt => pkt.wf
  | .packetForward _ _ => true
  | .hopAgeDrop _ _ => true
  | .idle x => x.bytes.length == 16
  | .ack _ _ => true
  | .nak _ _ => true
  | .credit _ _ _ => true
  | .delayReq _ _ => true
  | .delayRsp _ _ _ => true
  | .retrainReq _ _ => true
  | .linkDown _ _ => true
  | .trainingBlock _ b => b.wf
  | .lightDetect _ _ => true
  | .trainingStageTimeout _ => true
  | .trainingComplete _ => true
  | .trainingRetry _ => true
  | .linkUp _ => true
  | .replayTimeout _ => true
  | .nakResend _ => true
  | .lossOfLight _ _ => true
  | .heartbeatTimeout _ => true
  | .laneFault _ _ => true
  | .fastRetrainDone _ _ => true
  | .retrainTimeout _ => true
  | .laneRestore _ _ => true
  | .holdExpiry _ => true
  | .engineFailed _ => true
  | .sessionHello _ ep rank _ _ _ _ => decide (ep < 2 ^ 24) && rankWf rank
  | .sessionConfirm _ _ _ _ => true
  | .sessionConfirmLapse _ => true
  | .mbxPut _ rank tag _ _ _ => rankWf rank && decide (tag < 65536)
  | .flowReset f _ tag => f.wf && decide (tag < 65536)
  | .linkState _ m => m.wf
  | .linkStateFlood => true
  | .mcInstall _ _ _ _ => true
  | .roundCtrl m => m.wf
  | .flowCountNotice f _ _ => f.wf
  | .flaggedRequestDeliver f => f.wf
  | .flagWaitExpiry f => f.wf
  | .flowForget f => f.wf
  | .linkDieFailed _ => true
  | .routeTableInstall => true
  | .orientationBoundary => true
  | .endpointUnreachable ep => decide (ep < 2 ^ 24)
  | .rankMissFill _ _ rank => rankWf rank
  | .transportTimeout tag => decide (tag < 65536)
  | .rimMemRd tag _ _ => decide (tag < 65536)
  | .rimMemWr tag _ data _ _ => decide (tag < 65536) && lineWf data
  | .hostReleaseTimer tag => decide (tag < 65536)
  | .hostRequestHoldTimeout tag => decide (tag < 65536)
  | .rimMbxPut m => m.wf
  | .rimMbxAck _ _ tag _ _ => decide (tag < 65536)
  | .rimDoorbell _ head _ _ => decide (head.tag < 65536)
  | .ctrlResult => true
  | .attestReq head _ => decide (head.tag < 65536)
  | .attestResp _ => true
  | .fwChunk head _ _ facts => decide (head.tag < 65536) && facts.wf
  | .telemetry head _ => decide (head.tag < 65536)
  | .telemetryData => true
  | .event => true
  | .timeSync head => decide (head.tag < 65536)
  | .timeSyncPeriodic => true
  | .rimHealth _ _ _ => true
  | .rimNak _ tag _ _ => decide (tag < 65536)
  | .rimMessageDrop _ m => m.wf
  | .rimMessageCrcFail _ _ => true
  | .rimGroupDown _ => true
  | .rimLaneFault _ _ => true
  | .rimLaneRestore _ _ => true
  | .mbxAckTimeout _ => true
  | .mailboxDelivery _ => true
  | .ctrlGo => true
  | .ctrlResPop => true
  | .eventPop => true
  | .mbxPutRead _ => true
  | .mbxPop _ => true
  | .intStatusWrite _ _ => true
  | .telemReq _ => true
  | .attestGo => true
  | .fwGo _ => true
  | .hostDb _ => true
  | .hostRegisterWrite _ _ _ => true
  | .identifyMemoryDevice => true
  | .getSupportedLogs => true
  | .getLog => true
  | .getEventRecords _ => true
  | .clearEventRecords _ _ => true
  | .getEventInterruptPolicy => true
  | .setEventInterruptPolicy _ => true
  | .getHealthInfo => true
  | .getDynamicCapacityConfiguration _ => true
  | .getDynamicCapacityExtentList _ => true
  | .addDynamicCapacityResponse _ _ => true
  | .releaseDynamicCapacity _ _ => true
  | .dcOffer _ _ _ => true
  | .dcWithdraw _ _ _ => true
  | .cfgStage _ _ _ _ => true
  | .hostExtentFree _ => true
  | .keyGenerationAdvance _ => true
  | .keyGenerationDrop _ => true
  | .debugUnlock _ _ => true
  | .debugHalt _ => true
  | .stakeHealthFail _ _ _ _ => true
  | .leaseEnd => true
  | .takeoverComplete facts _ => facts.wf
  | .takeoverFailed => true
  | .handoverReady => true
  | .handoverBoundary => true
  | .homeStakeReturn => true
  | .spineLoss => true
  | .spineReturn => true
  | .spineRejoin => true
  | .keepStoreWriteDone _ _ => true
  | .fwStageTimeout => true
  | .checkpoint _ => true
  | .persistentAreaWrite => true
  | .feedLost _ => true
  | .feedRestored _ => true
  | .sagWarn _ => true
  | .sagClear _ => true
  | .undervoltReset _ => true
  | .overvolt _ => true
  | .capHeldOver => true
  | .groupFallback => true
  | .operatingPointChange => true
  | .throttle _ _ => true
  | .throttleClear _ _ => true
  | .trip _ _ => true
  | .snapshotRecordWrite _ => true
  | .powerOn => true
  | .devResetN _ => true
  | .hostIslandReset => true
  | .rimRetrain tag => decide (tag < 65536)
  | .deviceWarm tag _ => decide (tag < 65536)
  | .deviceCold tag _ => decide (tag < 65536)
  | .coldStart f => f.wf
  | .spineTrainingRetry _ => true
  | .enterService => true
  | .warmQuiesceStart => true
  | .warmQuiesceLimit => true
  | .warmResetEntry => true
  | .warmStart f => f.wf
  | .tripCooldownEnd => true
  | .overvoltClear _ => true
  | .handoverFailed facts _ => facts.wf
  | .verificationBootEnd _ facts => facts.wf
  | .sessionOffer _ => true
  | .resetCmd _ => true
  | .hostIslandResetRelease => true
  | .unsupportedMailboxCommand _ => true

end Sys2Proof
end

