-- ==== Sys2Proof/Tests/Slice0.lean ====
section
/-! SUPPORT. Tests: ill-formed commands refused, single steps with values worked out by hand from the spec, and for each
statement with hypotheses a state and operands that meet them. -/
open Sys2Proof Sys2Proof.Machine
namespace Sys2Proof.Tests

set_option Elab.async false
/-! ### Well-formedness refuses what an interface cannot carry -/

/-- R296: a request of 31 words. -/
theorem test_wf_control_request : (Instr.partCreate .stake { words := List.replicate 31 0 }).wf = false := by decide
/-- R384: an opcode of 9 bits. -/
theorem test_wf_packet_opcode : (Instr.linkPacketRx 0 0 none true true { opcode := 256 }).wf = false := by decide
/-- R385: a source endpoint of 25 bits. -/
theorem test_wf_packet_endpoint : (Instr.linkPacketRx 0 0 none true true { srcEp := 2 ^ 24 }).wf = false := by decide
/-- R384: a packet of one unit whose length is right, with 63 bytes of payload. -/
theorem test_wf_packet_payload :
    (Instr.linkPacketRx 0 0 none true true { units := 1, payload := List.replicate 63 0 }).wf = false := by decide
/-- R3: a line of 63 bytes. -/
theorem test_wf_line : (Instr.wb (.agent 0 0) 0 0 false (List.replicate 63 0) 0).wf = false := by decide
/-- An owner's answer with a short line. -/
theorem test_wf_optional_line : (Instr.recallData 0 0 0 (some []) false).wf = false := by decide
/-- R24: a pool address of 53 bits. -/
theorem test_wf_pool_address : (Instr.verifyRead (2 ^ 52) []).wf = false := by decide
/-- R102: a virtual address of 49 bits. -/
theorem test_wf_virtual_address : (Instr.migrationComplete 0 (2 ^ 48)).wf = false := by decide
/-- R402: a rank of 17 bits. -/
theorem test_wf_rank : (Instr.probeAck 0 65536).wf = false := by decide
/-- R218: a requester whose rank has 17 bits. -/
theorem test_wf_requester : (Requester.agent 0 65536).wf = false := by decide
/-- R223: a request for 17 lines. -/
theorem test_wf_fabric_request_units : (Instr.rdNc { units := 17 }).wf = false := by decide
/-- R120: a request to window 4,096. -/
theorem test_wf_fabric_request_window : (Instr.rdS { window := 4096 }).wf = false := by decide
/-- R384: a request with a tag of 17 bits. -/
theorem test_wf_fabric_request_tag : (Instr.rdX { tag := 65536 }).wf = false := by decide
/-- R416: a request with a sequence number of 17 bits. -/
theorem test_wf_fabric_request_seq : (Instr.upg { seq := 65536 }).wf = false := by decide
/-- R445: a rim message of 2 words that carries one. -/
theorem test_wf_rim_payload : (Instr.rimMbxPut { len := 2, payload := [0] }).wf = false := by decide
/-- R445: a rim message type of 9 bits. -/
theorem test_wf_rim_type : (Instr.rimMessageDrop true { type := 256 }).wf = false := by decide
/-- R530: a boundary that reads one sensor twice. -/
theorem test_wf_boundary : (Instr.roundBoundary { temps := [(0, 50), (0, 51)] }).wf = false := by decide
/-- R548: a stage time of 17 bits. -/
theorem test_wf_sample : (Instr.sampleRecordWrite 0 { done := 65536 }).wf = false := by decide
/-- R548: a stall cause of 5 bits. -/
theorem test_wf_sample_cause : (Instr.sampleRecordWrite 0 { cause := 16 }).wf = false := by decide
/-- R463: an image with 65 rollback fuses. -/
theorem test_wf_image : (Instr.fwChunk {} 0 [] { svn := 65 }).wf = false := by decide
/-- R463: an image digest of five words. -/
theorem test_wf_image_digest : ({ digest := [0, 0, 0, 0, 0] } : ImageFacts).wf = false := by decide
/-- R559: a start that names three weave dies. -/
theorem test_wf_start : (Instr.coldStart { diesOk := [true, true, true] }).wf = false := by decide
/-- R16: a start that names one stake. -/
theorem test_wf_start_stakes : (Instr.warmStart { stakeSelfTest := [true] }).wf = false := by decide
/-- R371: a training block from link 64. -/
theorem test_wf_training : (Instr.trainingBlock 0 { link := 64 }).wf = false := by decide
/-- R407: a flow of partition 256. -/
theorem test_wf_flow : (Instr.flowForget { part := 256 }).wf = false := by decide
/-- R399: a state with 49 neighbours. -/
theorem test_wf_link_state : (Instr.linkState 0 { neighbours := List.replicate 49 (0, 0) }).wf = false := by decide
/-- R529: an allotment of 65,536 W. -/
theorem test_wf_round_control : (Instr.roundCtrl (.allotment 65536)).wf = false := by decide
/-- R529: a report of an endpoint of 25 bits. -/
theorem test_wf_round_report : (Instr.roundCtrl (.report (2 ^ 24) 0 0)).wf = false := by decide
/-- R43: a marker of a 21-bit endpoint. -/
theorem test_wf_marker : (Instr.marker 0 0 (2 ^ 20) 0 0 none false 0).wf = false := by decide
/-- R43: a claim of priority 256. -/
theorem test_wf_claim : (Instr.roundClaim 0 0 256 0).wf = false := by decide
/-- R195, R196: a parity mismatch of a transfer sent five times. -/
theorem test_wf_parity : (Instr.parityMismatch 0 (.dieLink 0 true) {} (List.replicate 5 [])).wf = false := by decide
/-- R24: a parity mismatch of a write to an address of 53 bits. -/
theorem test_wf_parity_write : (Instr.parityMismatch 0 (.dieLink 0 true) { pa := 2 ^ 52 } []).wf = false := by decide
/-- R179: a line with two errors in one symbol. -/
theorem test_wf_symbols : (Instr.verifyRead 0 [(3, 1), (3, 2)]).wf = false := by decide
/-- R179: an error that changes nothing. -/
theorem test_wf_symbol_zero : (Instr.memReadDecode 0 [(3, 0)] none 0 {}).wf = false := by decide
/-- R185: a unit that is bad twice. -/
theorem test_wf_units : (Instr.reconstruction 0 { badUnits := [1, 1] } 0 {}).wf = false := by decide
/-- R365: a control block of 15 bytes. -/
theorem test_wf_block : (Instr.idle ⟨0, List.replicate 15 0⟩).wf = false := by decide
/-- R469: a session start from a 25-bit endpoint. -/
theorem test_wf_session : (Instr.sessionHello 0 (2 ^ 24) 0 0 0 1 []).wf = false := by decide
/-- R401: an endpoint of 25 bits. -/
theorem test_wf_endpoint : (Instr.endpointUnreachable (2 ^ 24)).wf = false := by decide
/-- R415: a tag of 17 bits. -/
theorem test_wf_tag : (Instr.transportTimeout 65536).wf = false := by decide
/-- A well-formed command of each kind is taken. -/
theorem test_wf_taken : (Instr.partCreate .stake { words := List.replicate 32 0 }).wf = true ∧
    (Instr.linkPacketRx 0 0 none true true { units := 1, payload := List.replicate 64 0 }).wf = true ∧
    (Instr.rdNc { units := 16, window := 4095 }).wf = true ∧ (Instr.coldStart {}).wf = true ∧
    (Instr.parityMismatch 65535 (.dieLink 0 true) {} (List.replicate 4 [])).wf = true ∧
    (Instr.idle ⟨0, List.replicate 16 0⟩).wf = true ∧ (Instr.memReadDecode 0 [(3, 1), (71, 255)] (some 64) 9 ⟨0, true⟩).wf = true := by decide

/-! ### Blurik instructions: single steps -/

/-- A run that stands at an instruction word, followed by words `tail`, with registers g1 to g5 and 4 KiB of scratch. -/
def runAt (op : Nat) (f : Fields) (g : SMap U64 := [(1, 5), (2, 7), (3, 9)]) (tail : List U64 := [0, 0]) : Run :=
  { s := { sid := 1, budget := 1000, img := { code := encWord op f :: tail, consts := [11, 22], scratchKib := 4 },
           ranges := [{ pva := 0x1000, r := true, w := true, a := true, len := 128 }],
           pages := [{ len := 128, pa := 0x4000 }] }
    g := g }

/-- A device in SERVICE at round 10: both hoop halves hold lease epoch 1 with stake 0 as its holder, which is active. -/
def svc : State := { ({} : State) with
  rst := { mode := .service, phase := 9 }
  rnd := { counter := 10 }
  auth := { stake0 := { st := .active }, stake1 := { st := .shadow }, lease0 := { epoch := 1, st := .valid, expiry := 14 },
            lease1 := { epoch := 1, st := .valid, expiry := 14 } } }

/-- That device with a run on weaver 3, and partition 0 in place. -/
def on3 (x : Run) : State := { svc with weavers := [(3, { run := some x })], parts := [(0, { live := true })] }

/-- The state after a command. -/
def go (c : Instr) (s : State) : State :=
  match exec c s with
  | .next t => t
  | _ => {}

/-- The run of weaver 3. -/
def run3 (s : State) : Run := (s.weaver 3).run.getD {}

/-- Register g of weaver 3 after a command, and the word it goes on at and its cycles. -/
def gAfter (c : Instr) (x : Run) (i : Nat) : U64 × Nat × Nat :=
  let y := run3 (go c (on3 x))
  (y.gr i, y.pc, y.cyc)

/-- D = g4, S1 = g1, S2 = g2. -/
def f412 : Fields := { dst := 4, src1 := 1, src2 := 2 }

/-- R264: 5 + 7, in one cycle. -/
theorem test_add : gAfter (.add 3 f412) (runAt 0 f412) 4 = (12, 1, 1) := by decide
/-- R264: addition is modulo 2^64, and a source may be the destination. -/
theorem test_add_wraps : gAfter (.add 3 { dst := 1, src1 := 1, src2 := 1 })
    (runAt 0 { dst := 1, src1 := 1, src2 := 1 } [(1, 0x8000000000000001)]) 1 = (2, 1, 1) := by decide
/-- R249: with ISEL the second source is IMM, sign-extended: 5 − (−1). -/
theorem test_sub_immediate : gAfter (.sub 3 { dst := 4, src1 := 1, isel := true, imm := 0xFFFFFFFF })
    (runAt 1 { dst := 4, src1 := 1, isel := true, imm := 0xFFFFFFFF }) 4 = (6, 1, 1) := by decide
/-- R264: the low 64 bits of a product. -/
theorem test_mul : gAfter (.mul 3 f412) (runAt 2 f412 [(1, 0x100000001), (2, 0x100000000)]) 4 = (0x100000000, 1, 1) := by decide
/-- R264: the quotient of a zero divisor is all ones; 20 cycles. -/
theorem test_divu_by_zero : gAfter (.divu 3 f412) (runAt 3 f412 [(1, 5)]) 4 = (0xFFFFFFFFFFFFFFFF, 1, 20) := by decide
/-- R264: the remainder of a zero divisor is gS1. -/
theorem test_remu_by_zero : gAfter (.remu 3 f412) (runAt 4 f412 [(1, 5)]) 4 = (5, 1, 20) := by decide
/-- R264: 0b0101 AND 0b0111. -/
theorem test_and : (gAfter (.andOp 3 f412) (runAt 5 f412) 4).1 = 5 := by decide
/-- R264: 0b0101 OR 0b1010. -/
theorem test_or : (gAfter (.orOp 3 f412) (runAt 6 f412 [(1, 5), (2, 10)]) 4).1 = 15 := by decide
/-- R264: 0b0101 XOR 0b0111. -/
theorem test_xor : (gAfter (.xorOp 3 f412) (runAt 7 f412) 4).1 = 2 := by decide
/-- R264: the shift count is S2 [5:0], so 65 shifts by 1. -/
theorem test_shl : (gAfter (.shl 3 f412) (runAt 8 f412 [(1, 5), (2, 65)]) 4).1 = 10 := by decide
/-- R264: a logical shift brings zeros in. -/
theorem test_shr : (gAfter (.shr 3 f412) (runAt 9 f412 [(1, 0x8000000000000000), (2, 63)]) 4).1 = 1 := by decide
/-- R264: an arithmetic shift brings the sign in. -/
theorem test_sra : (gAfter (.sra 3 f412) (runAt 0x0A f412 [(1, 0x8000000000000000), (2, 63)]) 4).1 = 0xFFFFFFFFFFFFFFFF := by decide
/-- R264: the signed minimum of −1 and 7. -/
theorem test_min : (gAfter (.minOp 3 f412) (runAt 0x0B f412 [(1, 0xFFFFFFFFFFFFFFFF), (2, 7)]) 4).1 = 0xFFFFFFFFFFFFFFFF := by decide
/-- R264: the signed maximum of −1 and 7. -/
theorem test_max : (gAfter (.maxOp 3 f412) (runAt 0x0C f412 [(1, 0xFFFFFFFFFFFFFFFF), (2, 7)]) 4).1 = 7 := by decide
/-- R264: IMM −2. -/
theorem test_li : gAfter (.li 3 { dst := 4, imm := 0xFFFFFFFE }) (runAt 0x0D { dst := 4, imm := 0xFFFFFFFE }) 4 =
    (0xFFFFFFFFFFFFFFFE, 1, 1) := by decide
/-- R252, R264: the extension word; the run goes on after it. -/
theorem test_lix : gAfter (.lix 3 { dst := 4 }) (runAt 0x0E { dst := 4 } [] [0x123456789ABCDEF0, 0]) 4 =
    (0x123456789ABCDEF0, 2, 2) := by decide
/-- R264: constant word 1, and RANGE at the number of constants. -/
theorem test_ldc : gAfter (.ldc 3 { dst := 4, src1 := 1, imm := 1 }) (runAt 0x0F { dst := 4, src1 := 1, imm := 1 } []) 4 = (22, 1, 2) ∧
    ((go (.ldc 3 { dst := 4, imm := 2 }) (on3 (runAt 0x0F { dst := 4, imm := 2 }))).weaver 3).run = none := by decide
/-- R250: g0 is never written. -/
theorem test_g0 : (gAfter (.add 3 { dst := 0, src1 := 1, src2 := 2 }) (runAt 0 { dst := 0, src1 := 1, src2 := 2 }) 0).1 = 0 := by decide
/-- R251: with its guard false an instruction costs 1 cycle and has no effect. -/
theorem test_guard_false : gAfter (.divu 3 { f412 with guard := 9 }) (runAt 3 { f412 with guard := 9 }) 4 = (0, 1, 1) := by decide

/-- Predicate p3 of weaver 3 after a command. -/
def pAfter (c : Instr) (x : Run) : Bool := (run3 (go c (on3 x))).pr 3

/-- p3 from g1 and g2. -/
def f312 : Fields := { dst := 3, src1 := 1, src2 := 2 }
/-- R264: equal and unequal. -/
theorem test_cmpeq : pAfter (.cmpeq 3 f312) (runAt 0x10 f312 [(1, 5), (2, 5)]) = true ∧ pAfter (.cmpeq 3 f312) (runAt 0x10 f312) = false := by
  decide
/-- R264. -/
theorem test_cmpne : pAfter (.cmpne 3 f312) (runAt 0x11 f312) = true := by decide
/-- R264: −1 is less than 7 as a signed number. -/
theorem test_cmplt : pAfter (.cmplt 3 f312) (runAt 0x12 f312 [(1, 0xFFFFFFFFFFFFFFFF), (2, 7)]) = true := by decide
/-- R264: and not less as an unsigned one. -/
theorem test_cmpltu : pAfter (.cmpltu 3 f312) (runAt 0x13 f312 [(1, 0xFFFFFFFFFFFFFFFF), (2, 7)]) = false := by decide
/-- R264: gS1 where the predicate is set, gS2 where not. -/
theorem test_sel : (gAfter (.sel 3 { f412 with imm := 1 }) { runAt 0x15 { f412 with imm := 1 } with p := [(1, true)] } 4).1 = 5 ∧
    (gAfter (.sel 3 { f412 with imm := 2 }) { runAt 0x15 { f412 with imm := 2 } with p := [(1, true)] } 4).1 = 7 := by decide
/-- R264: PLOG's operation 0 is AND: p3 of p1 = 1 and p2 = 0. -/
theorem test_plog : pAfter (.plog 3 { f312 with imm := 0 }) { runAt 0x14 { f312 with imm := 0 } with p := [(1, true)] } = false ∧
    pAfter (.plog 3 { f312 with imm := 1 }) { runAt 0x14 { f312 with imm := 1 } with p := [(1, true)] } = true := by decide
/-- R266: 2 words ahead, with one bubble cycle. -/
theorem test_br : gAfter (.br 3 { imm := 2 }) (runAt 0x16 { imm := 2 }) 4 = (0, 2, 2) := by decide
/-- R265: a count of 0 skips a body of 1 word, and a count of 2 enters it with 2 iterations left. -/
theorem test_loop : (gAfter (.loop 3 { src1 := 1, imm := 1 }) (runAt 0x17 { src1 := 1, imm := 1 } []) 1).2 = (2, 1) ∧
    (run3 (go (.loop 3 { src1 := 1, imm := 1 }) (on3 (runAt 0x17 { src1 := 1, imm := 1 } [(1, 2)])))).loops =
      [{ first := 1, last := 2, left := 2 }] := by decide
/-- R265: the word at the end of a body with an iteration left goes back to the body's first word. -/
theorem test_loop_back : (run3 (go (.add 3 {}) (on3 { runAt 0 {} with loops := [{ first := 0, last := 1, left := 2 }] }))).pc = 0 := by
  decide

/-- R267: the lowest byte first, and the sign of 32 bits. -/
theorem test_ld32s : (gAfter (.ld32s 3 { dst := 4, src1 := 1, imm := 4 })
    { runAt 0x23 { dst := 4, src1 := 1, imm := 4 } [(1, 8)] with scratch := [(12, 0x01), (15, 0x80)] } 4).1 = 0xFFFFFFFF80000001 := by decide
/-- R267: the same bytes, zero-extended. -/
theorem test_ld32u : (gAfter (.ld32u 3 { dst := 4, src1 := 1, imm := 4 })
    { runAt 0x22 { dst := 4, src1 := 1, imm := 4 } [(1, 8)] with scratch := [(12, 0x01), (15, 0x80)] } 4).1 = 0x80000001 := by decide
/-- R267. -/
theorem test_ld8u : (gAfter (.ld8u 3 { dst := 4 }) { runAt 0x20 { dst := 4 } with scratch := [(0, 0xFF), (1, 1)] } 4).1 = 0xFF := by decide
/-- R259: an odd address is misaligned for 2 bytes, and the stroke ends. -/
theorem test_ld16u_misaligned : ((go (.ld16u 3 { dst := 4, imm := 1 }) (on3 (runAt 0x21 { dst := 4, imm := 1 }))).weaver 3).run = none := by
  decide
/-- R259: 8 bytes at the last word of 4 KiB are within the scratch. -/
theorem test_ld64_top : (gAfter (.ld64 3 { dst := 4, imm := 4088 }) { runAt 0x24 { dst := 4, imm := 4088 } with scratch := [(4095, 1)] } 4).1 =
    0x0100000000000000 := by decide
/-- R267: the low 16 bits of gS2, lowest byte first. -/
theorem test_st16 : (run3 (go (.st16 3 { src1 := 1, src2 := 2 }) (on3 (runAt 0x26 { src1 := 1, src2 := 2 } [(1, 2), (2, 0x12345)])))).scratch =
    [(2, 0x45), (3, 0x23)] := by decide
/-- R267: a store of zeros leaves zeros, which the table does not list. -/
theorem test_st8 : (run3 (go (.st8 3 { src1 := 1, src2 := 2 }) (on3 { runAt 0x25 { src1 := 1, src2 := 2 } [(2, 0x100)] with
    scratch := [(0, 9), (1, 8)] }))).scratch = [(1, 8)] := by decide
/-- R267. -/
theorem test_st32_st64 : (run3 (go (.st32 3 { src1 := 1, src2 := 2 }) (on3 (runAt 0x27 { src1 := 1, src2 := 2 } [(1, 4), (2, 0x0807060504030201)])))).scratch =
    [(4, 1), (5, 2), (6, 3), (7, 4)] ∧
    (run3 (go (.st64 3 { src1 := 1, src2 := 2 }) (on3 (runAt 0x28 { src1 := 1, src2 := 2 } [(1, 8), (2, 0x0800000000000001)])))).scratch =
    [(8, 1), (15, 8)] := by decide
/-- R268: SCLR of line 1 zeroes its bytes and clears its poison bit, and no other. -/
theorem test_sclr : let y := run3 (go (.sclr 3 { src1 := 1, src2 := 2 }) (on3 { runAt 0x2C { src1 := 1, src2 := 2 } [(1, 64), (2, 64)] with
    scratch := [(63, 1), (64, 2), (127, 3), (128, 4)], poison := [0, 1] }))
    (y.scratch, y.poison, y.cyc) = ([(63, 1), (128, 4)], [0], 2) := by decide
/-- R268. -/
theorem test_sptest : pAfter (.sptest 3 { dst := 3, imm := 64 }) { runAt 0x2D { dst := 3, imm := 64 } with poison := [1] } = true := by decide

/-- v4 of weaver 3 after a command. -/
def vAfter (c : Instr) (x : Run) : V512 := (run3 (go c (on3 x))).vr 4

/-- R273: 1.0 + 1.0 = 2.0 in lane 0 of FP32, and 0 + 0 elsewhere. -/
theorem test_vadd : vAfter (.vadd 3 f412) { runAt 0x40 f412 with v := [(1, 0x3F800000), (2, 0x3F800000)] } = 0x40000000 := by decide +kernel
/-- R273: 1.5 − 0.5 = 1.0. -/
theorem test_vsub : vAfter (.vsub 3 f412) { runAt 0x41 f412 with v := [(1, 0x3FC00000), (2, 0x3F000000)] } = 0x3F800000 := by decide +kernel
/-- R273: 3.0 × −2.0 = −6.0. -/
theorem test_vmul : vAfter (.vmul 3 f412) { runAt 0x42 f412 with v := [(1, 0x40400000), (2, 0xC0000000)] } &&& 0xFFFFFFFF = 0xC0C00000 := by decide +kernel
/-- R273: 2.0 × 3.0 + 1.0 = 7.0. -/
theorem test_vfma : vAfter (.vfma 3 f412) { runAt 0x43 f412 with v := [(1, 0x40000000), (2, 0x40400000), (4, 0x3F800000)] } = 0x40E00000 := by
  decide +kernel
/-- R273: bitwise over 512 bits. -/
theorem test_vxor : vAfter (.vxor 3 f412) { runAt 0x4C f412 with v := [(1, 1 <<< 511), (2, 1)] } = (1 <<< 511) + 1 := by decide +kernel
/-- R273: the absolute value of −2.0. -/
theorem test_vabs : 
    vAfter (.vabs 3 { dst := 4, src1 := 1 }) { runAt 0x46 { dst := 4, src1 := 1 } with v := [(1, 0xC0000000)] } = 0x40000000 := by decide +kernel
/-- R273: 0.5 is the reciprocal of 2.0 in BF16, and 2.0 that of 0.5. -/
theorem test_vrcp : vAfter (.vrcp 3 { dst := 4, src1 := 1, fmt := 1 }) { runAt 0x48 { dst := 4, src1 := 1, fmt := 1 } with v := [(1, 0x40003F00)] } &&&
    0xFFFFFFFF = 0x3F004000 := by decide +kernel
/-- R274: lane 1 of FP32. -/
theorem test_vext : (gAfter (.vext 3 { dst := 4, src1 := 1, imm := 1 }) { runAt 0x53 { dst := 4, src1 := 1, imm := 1 } with
    v := [(1, 0x400000003F800000)] } 4).1 = 0x40000000 := by decide +kernel
/-- R274: lane 16 of 16 is out of range, and the stroke ends. -/
theorem test_vins_range : ((go (.vins 3 { dst := 4, src1 := 1, imm := 16 }) (on3 (runAt 0x54 { dst := 4, src1 := 1, imm := 16 }))).weaver 3).run =
    none := by decide +kernel

/-- R258, R270: a misaligned pool word ends the stroke with RANGE, and one past the range's length with PERM; both leave the
weaver. -/
theorem test_pld_checks : (runAt 0x32 {}).s.wordFault 0 4 8 needR = some .range ∧ (runAt 0x32 {}).s.wordFault 0 128 8 needR = some .perm ∧
    (runAt 0x32 {}).s.wordFault 0 120 8 needR = none ∧ (runAt 0x32 {}).s.wordFault 1 0 8 needR = some .perm := by decide
/-- R269, R270: PLD of offset 8 asks the home for the word at 0x4008, and g4 waits for it. -/
theorem test_pld : let t := go (.pld 3 { dst := 4, src1 := 1 }) (on3 (runAt 0x32 { dst := 4, src1 := 1 } [(1, 8)]))
    ((run3 t).wait, t.poolReqs.map (fun q => (q.pa, q.len, q.kind))) = ([4], [(0x4008, 8, .load 4)]) := by decide
/-- R291: PHASE 5 leaves its mark for the boundary. -/
theorem test_phase : ((go (.phase 3 { imm := 5 }) (on3 (runAt 0xA8 { imm := 5 }))).part 0).phaseInstr = some (5, 3) := by decide
/-- R294: what is left of a budget of 1,000 at cycle 40, and the round. -/
theorem test_time : (gAfter (.timeBudget 3 { dst := 4 }) { runAt 0xAB { dst := 4 } with cyc := 40 } 4).1 = 960 ∧
    (gAfter (.timeRound 3 { dst := 4, imm := 1 }) (runAt 0xAB { dst := 4, imm := 1 }) 4).1 = 10 := by decide
/-- R295: END leaves the weaver; in partition 0 a record is due with g1 as its RESULT. -/
theorem test_end : let t := go (.endStroke 3 {}) (on3 (runAt 0xAC {}))
    ((t.weaver 3).run, (t.cq 0 0).due.map (fun r => (r.status, r.result))) = (none, [(0, 5)]) := by decide
/-- R290: YIELD suspends the stroke; it is offered from the next boundary, at its start word. -/
theorem test_yield : let t := go (.yield 3 { imm := 1 }) (on3 (runAt 0xA7 { imm := 1 }))
    ((t.weaver 3).run, (t.part 0).suspended.map (fun k => (k.s.start, k.s.run, k.offer))) = (none, [(1, 1, some (11, 0))]) := by decide

/-! ### Witnesses: Blurik statements -/

/-- Weaver 3 of `on3 x` issues the instruction at cycle t, its operands pass `ok`, and its next word lies in the code. -/
def Stands (op : Nat) (f : Fields) (uses : List Nat) (wait : State → Run → Option Nat) (len : Nat) (x : Run) (t : Nat) (good : Bool) : Bool :=
  (on3 x).canIssue 3 op f x && guardTrue f x && issueCycle (on3 x) f uses wait x == some t && decide (t < x.s.budget) && good &&
  decide ((loopStep x.loops (x.pc + len)).2 < x.s.img.code.length)

/-- What `Stands` says meets `Issues` and the room of a next word. -/
theorem stands_issues {op f uses wait len x t good} (h : Stands op f uses wait len x t good = true) :
    Issues (on3 x) 3 op f uses wait x t ∧ good = true ∧ x.room len := by
  simp only [Stands, Bool.and_eq_true, decide_eq_true_eq, beq_iff_eq] at h
  exact ⟨⟨rfl, h.1.1.1.1.1, h.1.1.1.1.2, h.1.1.1.2, h.1.1.2⟩, h.1.2, h.2⟩

/-- Every arithmetic instruction, comparison and load of a constant issues at cycle 0; a waiting source delays the issue to its
cycle, up to the last one of the budget; LDC at the last constant and past it. -/
theorem witness_scalar_instructions :
    (∀ op ∈ List.range 13, Stands op f412 [4, 1, 2] noWait 1 (runAt op f412) 0 true = true) ∧
    Stands 2 f412 [4, 1, 2] noWait 1 { runAt 2 f412 with rdy := [(2, 999)] } 999 true = true ∧
    (∀ op ∈ [0x10, 0x11, 0x12, 0x13], Stands op f312 [preg 3, 1, 2] noWait 1 (runAt op f312) 0 true = true) ∧
    Stands 0x14 f312 [preg 3, preg 1, preg 2] noWait 1 (runAt 0x14 f312) 0 true = true ∧
    Stands 0x15 f412 [4, 1, 2, preg 0] noWait 1 (runAt 0x15 f412) 0 true = true ∧
    Stands 0x0D { dst := 4 } [4] noWait 1 (runAt 0x0D { dst := 4 }) 0 true = true ∧
    Stands 0x0E { dst := 4 } [4] noWait 2 (runAt 0x0E { dst := 4 }) 0 true = true ∧
    (let f : Fields := { dst := 4, src1 := 6, imm := 1 }
     let x := runAt 0x0F f
     Stands 0x0F f [4, 6] noWait 1 x 0 (decide ((x.s1 f + f.imm.signExtend 64).toNat < x.s.img.consts.length)) = true) ∧
    (let f : Fields := { dst := 4, src1 := 6, imm := 2 }
     let x := runAt 0x0F f
     Stands 0x0F f [4, 6] noWait 1 x 0 (decide (x.s.img.consts.length ≤ (x.s1 f + f.imm.signExtend 64).toNat)) = true) := by decide

/-- Registers 0 and 1 as destinations of a write. -/
theorem witness_register_writes : ((1 : Nat) ≠ 0) ∧ (2 : Nat) ≠ 1 ∧ 9 % 8 ≠ (2 : Nat) % 8 := by decide

/-- BR to the last word; LOOP of a count of 0, of 1, of 16,777,215 and of one more. -/
theorem witness_branch_and_loop :
    (let f : Fields := { imm := 2 }; let x := runAt 0x16 f
     Stands 0x16 f [] noWait 1 x 0 (decide (x.pc + immBits f 12 0 < x.s.img.code.length)) = true) ∧
    (let f : Fields := { src1 := 1, imm := 1 }
     let x := fun (n : U64) => runAt 0x17 f [(1, n)]
     Stands 0x17 f [1] noWait 2 (x 0) 0 (decide (((x 0).s1 f).toNat = 0)) = true ∧
     Stands 0x17 f [1] noWait 1 (x 1) 0 (decide (1 ≤ ((x 1).s1 f).toNat)) = true ∧
     Stands 0x17 f [1] noWait 1 (x 16777215) 0 (decide (((x 16777215).s1 f).toNat ≤ 16777215)) = true ∧
     Stands 0x17 f [1] noWait 1 (x 16777216) 0 (decide (16777215 < ((x 16777216).s1 f).toNat)) = true) := by decide

/-- A load at the top of the scratch, one past it, and one on a poison line; a store at the top and past it. -/
theorem witness_scratch_accesses :
    (∀ e ∈ [(0x20, 1), (0x21, 2), (0x22, 4), (0x23, 4), (0x24, 8)],
      let f : Fields := { dst := 4, src1 := 1 }
      let x := runAt e.1 f [(1, BitVec.ofNat 64 (4096 - e.2))]
      let y := runAt e.1 f [(1, 4096)]
      Stands e.1 f [4, 1] (scratchWait f e.2 e.2) 1 x 0 (x.inScratch (saddr x f) e.2 e.2 && !x.poisoned (saddr x f) e.2) = true ∧
      Stands e.1 f [4, 1] (scratchWait f e.2 e.2) 1 y 0 (!y.inScratch (saddr y f) e.2 e.2) = true ∧
      Stands e.1 f [4, 1] (scratchWait f e.2 e.2) 1 { x with poison := [63] } 0 (({ x with poison := [63] } : Run).poisoned (saddr x f) e.2) = true) ∧
    (∀ e ∈ [(0x25, 1), (0x26, 2), (0x27, 4), (0x28, 8)],
      let f : Fields := { src2 := 2, src1 := 1 }
      let x := runAt e.1 f [(1, BitVec.ofNat 64 (4096 - e.2))]
      let y := runAt e.1 f [(1, 4096)]
      Stands e.1 f [2, 1] (scratchWait f e.2 e.2) 1 x 0 (x.inScratch (saddr x f) e.2 e.2) = true ∧
      Stands e.1 f [2, 1] (scratchWait f e.2 e.2) 1 y 0 (!y.inScratch (saddr y f) e.2 e.2) = true) := by decide

/-- The last vector of the scratch for VLD and VST in FP32 and FP6, its last element for VLDB, the last line for SCLR, the last
byte for SPTEST. -/
theorem witness_scratch_vectors :
    (∀ e ∈ [(0, 64, 64, 4032), (5, 48, 16, 4048)],
      let f : Fields := { fmt := BitVec.ofNat 4 e.1, dst := 4, src1 := 1 }
      let g : Fields := { fmt := BitVec.ofNat 4 e.1, src2 := 4, src1 := 1 }
      let x := runAt 0x29 f [(1, BitVec.ofNat 64 e.2.2.2)]
      let y := runAt 0x2A g [(1, BitVec.ofNat 64 e.2.2.2)]
      Stands 0x29 f [vreg 4, 1] (scratchWait f e.2.1 e.2.2.1) 1 x 0 (x.inScratch (saddr x f) e.2.1 e.2.2.1 && !x.poisoned (saddr x f) e.2.1) = true ∧
      Stands 0x2A g [vreg 4, 1] (scratchWait g e.2.1 e.2.2.1) 1 y 0 (y.inScratch (saddr y g) e.2.1 e.2.2.1) = true) ∧
    (let f : Fields := { dst := 4, src1 := 1 }; let x := runAt 0x2B f [(1, 4092)]
     Stands 0x2B f [vreg 4, 1] (scratchWait f 4 4) 1 x 0 (x.inScratch (saddr x f) 4 4 && !x.poisoned (saddr x f) 4) = true) ∧
    (let f : Fields := { src1 := 1, src2 := 2 }; let x := runAt 0x2C f [(1, 4032), (2, 64)]
     Stands 0x2C f [1, 2] (fun _ x => x.landed (x.s1 f).toNat (x.gr f.src2.toNat).toNat) 1 x 0
       (decide ((x.s1 f).toNat % 64 = 0 ∧ (x.gr 2).toNat % 64 = 0 ∧ (x.s1 f).toNat + (x.gr 2).toNat ≤ x.size ∧ (x.s1 f).toNat < x.size)) = true) ∧
    (let f : Fields := { dst := 3, src1 := 1 }; let x := runAt 0x2D f [(1, 4095)]
     Stands 0x2D f [preg 3, 1] (scratchWait f 1 1) 1 x 0 (x.inScratch (saddr x f) 1 1) = true) := by decide

/-- Every lane-wise instruction issues; a lane at the last index and one at the lane count; a conversion with a part. -/
theorem witness_vector_lanes_and_moves :
    (∀ op ∈ List.range 16, Stands (0x40 + op) f412 [vreg 4, vreg 1, vreg 2] noWait 1 (runAt (0x40 + op) f412) 0 true = true) ∧
    (∀ op ∈ [0x50, 0x51], Stands op { dst := 4, src1 := 1 } [4, vreg 1] noWait 1 (runAt op { dst := 4, src1 := 1 }) 0 true = true) ∧
    (let f : Fields := { dst := 4, src1 := 1, imm := 15 }; let x := runAt 0x53 f
     Stands 0x53 f [4, vreg 1] noWait 1 x 0 (decide (15 < (elems 0 (x.vr 1)).length)) = true) ∧
    (let f : Fields := { dst := 4, src1 := 1, imm := 16 }; let x := runAt 0x53 f
     Stands 0x53 f [4, vreg 1] noWait 1 x 0 (decide ((elems 0 (x.vr 1)).length ≤ 16)) = true) ∧
    laneCount 0 = 16 ∧ fmtOf 1 ≠ .none ∧ cvtPart (laneCount 1) (laneCount 0) 1 ≠ none ∧
    (let f : Fields := { dst := 4, src1 := 1, imm := 0x11 }; let x := runAt 0x55 f
     Stands 0x55 f [vreg 4, vreg 1] noWait 1 x 0 (!x.s.trapOvf) = true) := by decide +kernel

/-- A count of 0; 32 values of FP32 zero, quantised to FP8 in one block with its scale, and dequantised. -/
theorem witness_vector_blocks :
    (∀ op ∈ [0x56, 0x57], Stands op { dst := 3, src1 := 1, src2 := 2 } [3, 1, 2] noWait 1 (runAt op { dst := 3, src1 := 1, src2 := 2 }) 0
      (immBits { dst := 3, src1 := 1, src2 := 2 } 31 8 == 0) = true) ∧
    (let f : Fields := { fmt := 3, dst := 3, src1 := 1, src2 := 2, imm := 0x2000 }
     let x := runAt 0x56 f [(1, 0), (2, 1024), (3, 2048)]
     let qin := [(0, packedBytes 0 32)]; let qout := [(2048, packedBytes 3 32), (1024, 1)]
     immBits f 31 8 = 32 ∧ 32 % blockSize (immBits f 4 4 == 1) = 0 ∧
     Stands 0x56 f [3, 1, 2] (fun _ x => if quantBad x qin qout then some 0 else landedAll x (qin ++ qout)) 1 x 0
       (!quantBad x qin qout && !x.poisoned 0 (packedBytes 0 32) && !(quantBlocks 3 (immMode 0 0) false
         (chunks 32 1 ((unpackBits 32 32 (ofBytes (x.sbytes 0 128))).map (valueOf 0))) x.rng).2.2.2) = true) ∧
    (let f : Fields := { dst := 3, src1 := 1, src2 := 2, imm := 0x2003 }
     let x := runAt 0x57 f [(1, 0), (2, 1024), (3, 2048)]
     let din := [(0, packedBytes 3 32), (1024, 1)]; let dout := [(2048, packedBytes 0 32)]
     Stands 0x57 f [3, 1, 2] (fun _ x => if quantBad x din dout then some 0 else landedAll x (din ++ dout)) 1 x 0
       (!quantBad x din dout && !x.poisoned 0 (packedBytes 3 32) && !x.poisoned 1024 1 && !(dequantBlocks 3 0 (immMode 0 0) false
         ((chunks 32 1 (unpackBits 8 32 (ofBytes (x.sbytes 0 32)))).zip ((x.sbytes 1024 1).map (·.toNat))) x.rng).2.2) = true) := by
  decide +kernel

/-- DOT; a DOTR of one row of 16 INT8 values and an AXPYR of one; an MMA of one output; a scaled DOTR of 32 FP8 values with its
extension word; SMX of one score at gD = 1 and gD = 28; OSCALE of the last value of the scratch. -/
theorem witness_array_and_softmax_instructions :
    Stands 0x60 f412 [4, vreg 1, vreg 2] noWait 1 (runAt 0x60 f412) 0 true = true ∧
    (∀ e ∈ [(0x61, TileOp.dotr), (0x62, TileOp.axpyr)],
      let f : Fields := { fmt := 10, dst := 3, src1 := 1, src2 := 2 }
      let x := runAt e.1 f [(1, 0), (2, 64), (3, 128)]
      let o := e.2
      Stands e.1 f [3, 1, 2] (fun _ x => if (rowTile f x).bad o x.size then some 0 else
        landedAll x ((rowTile f x).ins o ++ [((rowTile f x).c, (rowTile f x).cBytes o)])) 1 x 0
        (!(rowTile f x).bad o x.size && !((rowTile f x).ins o).any (fun r => x.poisoned r.1 r.2) && !(rowTile f x).nanScale o x) = true) ∧
    (let f : Fields := { fmt := 10, dst := 3, src1 := 1, src2 := 2 }
     let x := runAt 0x63 f [(1, 0), (2, 64), (3, 128)]
     Stands 0x63 f [3, 1, 2] (fun _ x => if (mmaTile f x).bad .mma x.size then some 0 else
       landedAll x ((mmaTile f x).ins .mma ++ [((mmaTile f x).c, (mmaTile f x).cBytes .mma)])) 1 x 0
       (!(mmaTile f x).bad .mma x.size && !((mmaTile f x).ins .mma).any (fun r => x.poisoned r.1 r.2) && !(mmaTile f x).nanScale .mma x) = true) ∧
    (let f : Fields := { fmt := 3, dst := 3, src1 := 1, src2 := 2, imm := 0x101000 }
     let x := runAt 0x61 f [(1, 0), (2, 64), (3, 128)] [BitVec.ofNat 64 (512 + 576 * 2 ^ 18), 0]
     Stands 0x61 f [3, 1, 2] (fun _ x => if (rowTile f x).bad .dotr x.size then some 0 else
       landedAll x ((rowTile f x).ins .dotr ++ [((rowTile f x).c, (rowTile f x).cBytes .dotr)])) 2 x 0
       (!(rowTile f x).bad .dotr x.size && !((rowTile f x).ins .dotr).any (fun r => x.poisoned r.1 r.2) && !(rowTile f x).nanScale .dotr x) = true) ∧
    (∀ d ∈ [1, 28],
      let f : Fields := { dst := BitVec.ofNat 5 d, src1 := 5, src2 := 6 }
      let x := runAt 0x64 f [(5, 4092), (6, 4088)]
      Stands 0x64 f [d, d + 1, d + 2, d + 3, 5, 6]
        (fun _ x => if x.size < (x.s1 f).toNat + 4 * 1 ∨ x.size < (x.gr 6).toNat + packedBytes 0 1 then some 0 else
          landedAll x [((x.s1 f).toNat, 4 * 1), ((x.gr 6).toNat, packedBytes 0 1)]) 1 x 0
        (decide ((x.s1 f).toNat + 4 * 1 ≤ x.size ∧ (x.gr 6).toNat + packedBytes 0 1 ≤ x.size) && !x.poisoned 4092 4 &&
          !(unpackBits 32 1 (ofBytes (x.sbytes 4092 4))).any (fun v => (fp32.value v).isNan)) = true) ∧
    (let f : Fields := { dst := 3, src1 := 1 }
     let x := runAt 0x65 f [(1, 0x3F800000), (3, 4092)]
     Stands 0x65 f [3, 1] (fun _ x => if x.size < (x.gd f).toNat + 4 then some 0 else x.landed (x.gd f).toNat 4) 1 x 0
       (decide ((x.gd f).toNat + 4 ≤ x.size) && !x.poisoned 4092 4) = true) := by decide +kernel

/-- A stream of the range's last line and one past the range; a GATHER of one element by an index in clean and in poison scratch, and
with a reserved element size; a pool word at the range's end, past it, and misaligned, for every instruction that asks for one. -/
theorem witness_pool_streams_and_words :
    (∀ e ∈ [(0x2E, true), (0x2F, false)],
      let f : Fields := { dst := 3, src1 := 1, src2 := 2 }
      let x := runAt e.1 f [(1, 64), (2, 64), (3, 0)]
      let y := runAt e.1 f [(1, 64), (2, 65), (3, 0)]
      let wait := fun (s : State) (x : Run) => match streamFault x f (if e.2 then needR else needW) with
        | some _ => some 0
        | none => both (both (x.tagIdle (immTag f)) (if e.2 then some 0 else x.landed (x.gd f).toNat (x.gr 2).toNat)) (poolWait s x)
      Stands e.1 f [3, 1, 2] wait 1 x 0 (streamFault x f (if e.2 then needR else needW)).isNone = true ∧
      Stands e.1 f [3, 1, 2] wait 1 y 0 (streamFault y f (if e.2 then needR else needW) == some .perm) = true) ∧
    (∀ e ∈ [(0x30, true), (0x31, false)],
      let f : Fields := { dst := 3, src1 := 1, src2 := 2 }
      let g : Fields := { f with imm := 0x700 }
      let x := runAt e.1 f [(1, 4092), (2, 1), (3, 0)]
      let y := runAt e.1 g [(1, 4092), (2, 1), (3, 0)]
      let wait := fun (f : Fields) (s : State) (x : Run) => match gatherFault x f with
        | some _ => some 0
        | none => both (both (both (x.tagIdle (immTag f)) (x.landed (x.s1 f).toNat (4 * (x.gr 2).toNat)))
            (if e.2 then some 0 else x.landed (x.gd f).toNat ((x.gr 2).toNat * elemSize f))) (poolWait s x)
      Stands e.1 f [3, 1, 2] (wait f) 1 x 0 ((gatherFault x f).isNone && !x.poisoned 4092 4) = true ∧
      Stands e.1 f [3, 1, 2] (wait f) 1 { x with poison := [63] } 0 ((gatherFault x f).isNone && ({ x with poison := [63] } : Run).poisoned 4092 4) = true ∧
      Stands e.1 g [3, 1, 2] (wait g) 1 y 0 (gatherFault y g == some .range) = true) ∧
    (∀ op ∈ [0x32, 0x33, 0xA0, 0xA1, 0xA2, 0xA3, 0xA5, 0xA6],
      let f : Fields := if op = 0x32 then { dst := 3, src1 := 1 } else if op = 0x33 ∨ op = 0xA5 then { src1 := 1, src2 := 2 } else { dst := 3, src1 := 1, src2 := 2 }
      let need := if op = 0x32 ∨ op = 0xA6 then needR else if op = 0x33 ∨ op = 0xA5 then needW else needA
      let n := if op = 0x32 ∨ op = 0x33 ∨ op = 0xA5 then 8 else atomWidth false
      let uses := if op = 0x32 then [3, 1] else if op = 0x33 ∨ op = 0xA5 then [1, 2] else [3, 1, 2]
      let wait := fun (s : State) (x : Run) => if op = 0xA5 then (if (x.s.wordFault 0 (x.s1 f).toNat 8 needW).isSome then some 0 else fenced s x) else poolWait s x
      let x := fun (o : Nat) => runAt op f [(1, BitVec.ofNat 64 o)]
      Stands op f uses wait 1 (x (128 - n)) 0 ((x 0).s.wordFault 0 (128 - n) n need).isNone = true ∧
      Stands op f uses wait 1 (x 128) 0 ((x 0).s.wordFault 0 128 n need == some .perm) = true ∧
      Stands op f uses wait 1 (x 2) 0 ((x 0).s.wordFault 0 2 n need == some .range) = true) := by decide +kernel

/-- SWAIT of every tag; FENCE, PHASE, YIELD and END; CNTRD of counter 63 with the owner's grant; TIME of both kinds; a bulk launch from the
last block of the scratch; a message of 64 words from the scratch, and a doorbell. -/
theorem witness_stroke_state_and_services :
    Stands 0x34 { imm := 0xFFFF } [] (fun _ x => ((List.range 16).filter (fun t => (0xFFFF : U32).getLsbD t)).foldl (fun t g => both t (x.tagIdle g)) (some 0)) 1
      (runAt 0x34 { imm := 0xFFFF }) 0 true = true ∧
    Stands 0xA4 {} [] fenced 1 (runAt 0xA4 {}) 0 true = true ∧
    Stands 0xA8 { imm := 15 } [] noWait 1 (runAt 0xA8 { imm := 15 }) 0 true = true ∧
    (∃ s : State, Issues s 3 0xAA { dst := 4, imm := 63 } [4] noWait (runAt 0xAA { dst := 4, imm := 63 }) 0 ∧
      (s.part 0).userRead = true ∧ counterDefined 63 = true) ∧
    Stands 0xAB { dst := 4 } [4] noWait 1 (runAt 0xAB { dst := 4 }) 0 (immBits { dst := 4 } 0 0 == 0) = true ∧
    Stands 0xAB { dst := 4, imm := 1 } [4] noWait 1 (runAt 0xAB { dst := 4, imm := 1 }) 0 (immBits { dst := 4, imm := 1 } 0 0 == 1) = true ∧
    (∀ op ∈ [0x80, 0x81, 0x82, 0x83, 0x84],
      let x := runAt op f412 [(1, 4064)]
      Stands op f412 [4, 1, 2] (fun _ x => if x.inScratch (x.s1 f412).toNat 32 32 then x.landed (x.s1 f412).toNat 32 else some 0) 1 x 0
        (x.inScratch 4064 32 32 && !x.poisoned 4064 32) = true) ∧
    (let x := runAt 0xA9 f412 [(1, 3584), (2, 64)]
     immBits f412 31 31 = 0 ∧ Stands 0xA9 f412 [4, 1, 2] (fun _ x => if decide ((x.gr 2).toNat ≤ 64) && (x.gr 2).toNat != 0 &&
       x.inScratch (x.s1 f412).toNat (8 * (x.gr 2).toNat) 8 then x.landed (x.s1 f412).toNat (8 * (x.gr 2).toNat) else some 0) 1 x 0
       (x.inScratch 3584 512 8 && !x.poisoned 3584 512) = true) ∧
    (let f : Fields := { dst := 4, src2 := 2, imm := 0x80000000 }
     immBits f 31 31 = 1 ∧ Stands 0xA9 f [4, 2] noWait 1 (runAt 0xA9 f) 0 true = true) ∧
    Stands 0xA7 { imm := 1 } [] noWait 1 (runAt 0xA7 { imm := 1 }) 0 true = true ∧
    Stands 0xAC {} [1] noWait 1 (runAt 0xAC {}) 0 true = true := by
  refine ⟨by decide, by decide, by decide, ⟨(on3 (runAt 0xAA { dst := 4, imm := 63 })).onPart 0 (fun x => { x with userRead := true }), ?_⟩, ?_⟩
  · unfold Issues; decide
  · decide

/-! ### Witnesses: the round, queues, admission, answers -/

/-- A partition 0 whose pages of PVA 0 to 2 MiB lie at pool addresses 0 to 2 MiB, in its root extent 0 of block 0; its tables lie at
0, 0x1000 and 0x2000, its queue table at 0x8000. CQ 0 has 16 slots at 0x10000, SQ 0 16 descriptors at 0x20000. -/
def mapped : State := { svc with
  parts := [(0, { live := true, root := some 0, winCount := 16, grpCount := 16, qtable := 0x8000, affinity := BitVec.allOnes 768
                  share := 16, progs := [(0, { img := some { code := [0xAC00000000000000], scratchKib := 1 } })]
                  sqs := [(0, { read := true, enable := true, base := 0x20000, log2 := 4 })]
                  cqs := [(0, { read := true, usable := true, base := 0x10000, log2 := 4 })] }),
            (1, { live := true, host := true })]
  extents := [(0, { st := .active, root := true, blocks := [{ cert := true }], initialBlocks := 1 })]
  mem := { array := [(0, 0x0F), (3, 0x04), (0x1000, 0x0F), (0x1003, 0x08), (0x2000, 0x1F)] } }

/-- R108 to R111: the walk of those tables. -/
theorem test_page_walk : mapped.walk 0 0x123456 { r := true, w := true } = .pa 0x123456 0 0x200000 ∧
    mapped.walk 0 0x200000 { r := true } = .fault 0 2 ∧ mapped.walk 1 0 { r := true } = .fault 5 4 := by decide +kernel

/-- The device counts from phase 3 on; no reset is due. -/
theorem witness_boundary_opens_the_next_round : svc.counts = true ∧ svc.rnd.join = none ∧
    svc.rst.due.any (fun x => x.1 == 3 && decide (x.2 ≤ max (svc.rnd.counter + 1) (svc.rnd.join.getD 0))) = false ∧
    ({ svc with rnd := { counter := 10, join := some 99 }, rst := { mode := .start, phase := 3 } } : State).counts = true := by decide

/-- A boundary, an idle block and a reset answer next states. -/
theorem witness_counter_moves_at_boundaries : (∃ t, exec (.roundBoundary {}) State.reset = .next t) ∧
    (∃ t, exec .electionStart svc = .next t) := ⟨⟨_, rfl⟩, ⟨_, rfl⟩⟩

/-- R39: a boundary in SERVICE opens round 11. -/
theorem test_round_boundary : (go (.roundBoundary {}) svc).rnd.counter = 11 := by decide +kernel

/-- A device with link 5 UP, not the master, and the round state `r`. -/
def linked (r : RoundSt) : State := { svc with rnd := { r with counter := 10, endpoint := 1 }, links := [(5, { st := .up }), (6, { st := .probation })] }

/-- A change announced for the next boundary and one for the boundary after; markers of the counter before, at and after; claims that win
and lose; a claim that stands 8 and 7 rounds; gaps of 15, 16, 63 and 64 rounds; a counter just past the next. -/
theorem witness_round_domain :
    (let s := linked { pendLength := some (2, 11) }
     s.counts = true ∧ s.rnd.pendLength = some (2, 11) ∧ 11 ≤ max (s.rnd.counter + 1) (s.rnd.join.getD 0)) ∧
    (let s := linked { pendLength := some (2, 12) }; max (s.rnd.counter + 1) (s.rnd.join.getD 0) < 12) ∧
    (let s := linked { master := some 9 }
     s.counts = true ∧ (s.link 5).trainedUp = true ∧ (s.link 6).trainedUp = true ∧ (s.rnd.master == some s.rnd.endpoint || 9 == s.rnd.endpoint) = false ∧
     (∀ b ∈ [9, 10, 11], b ≤ s.rnd.counter + 1 ∧ s.rnd.counter ≤ b + 1) ∧ (s.link 7).trainedUp = false ∧ s.rnd.master = some 9 ∧ (9 : Nat) ≠ 8 ∧
     9 ≠ s.rnd.endpoint ∧ s.rnd.best.all (fun b => b.ep = 9 || ({ ep := 9 } : Claim).beats b) = true) ∧
    (let s := linked { best := some { counter := 10, prio := 200, ep := 2 } }
     s.rnd.best.all (fun b => b.ep = 9 || ({ counter := 10, prio := 199, ep := 9 } : Claim).beats b) = false ∧
     s.rnd.best.all (fun b => b.ep = 9 || ({ counter := 10, prio := 201, ep := 9 } : Claim).beats b) = true) ∧
    (let s := linked { best := some { ep := 9 }, bestAge := 8 }
     s.rnd.best = some { ep := 9 } ∧ 8 ≤ s.rnd.bestAge ∧ s.rnd.master ≠ some 9) ∧
    (let s := linked { best := some { ep := 9 }, bestAge := 7 }; s.rnd.bestAge < 8) ∧
    (let s := linked { markerAge := 16 }; s.isMaster = false ∧ s.rnd.held = false ∧ 16 ≤ s.rnd.markerAge) ∧
    (let s := linked { markerAge := 15 }; s.rnd.markerAge < 16) ∧
    (let s := linked { markerAge := 64 }; s.isMaster = false ∧ s.rnd.electing = false ∧ 64 ≤ s.rnd.markerAge) ∧
    (let s := linked { markerAge := 63 }
     s.rnd.markerAge < 64 ∧ max (s.rnd.counter + 1) (s.rnd.join.getD 0) < 12 ∧ 11 ≤ s.rnd.counter + 1) := by decide

/-- R47: a marker heard 40 ns late from the parent steers the boundary by 16 ns. -/
theorem test_marker : let t := go (.marker 5 10 9 128 3 none false 40) (linked { master := some 9 })
    (t.rnd.hops, t.rnd.parent, t.rnd.steer) = ([(5, 4)], some 5, 16) := by decide +kernel

/-- Changes SQ 0 or CQ 0 of the mapped partition. -/
def withSq (f : Sq → Sq) : State := mapped.onSq 0 0 f
/-- Changes CQ 0 of the mapped partition. -/
def withCq (f : Cq → Cq) : State := mapped.onCq 0 0 f

/-- A tail a whole ring ahead and one past it; a disabled and a halted SQ; a value of 65,535 and one of 65,536. A CQ head at the write
position and past it, a CQ that is not usable; a reset that waits for its boundary and reads a descriptor that passes, and one that fails. -/
theorem witness_queue_doorbells :
    (let x := mapped.sq 0 0
     (mapped.part 0).live = true ∧ x.read = true ∧ x.halted = false ∧ x.enable = true ∧ (16 + 65536 - x.head % 65536) % 65536 ≤ 2 ^ x.log2 ∧
     2 ^ x.log2 < (17 + 65536 - x.head % 65536) % 65536) ∧
    ((withSq (fun x => { x with enable := false })).sq 0 0).enable = false ∧ ((withSq (fun x => { x with halted := true })).sq 0 0).halted = true ∧
    (0xFFFF : U64).toNat < 65536 ∧ 65536 ≤ (0x10000 : U64).toNat ∧ (1 : U64) ≠ 0 ∧
    (let c := (withCq (fun c => { c with wpos := 5 })).cq 0 0
     (5 + 65536 - c.head % 65536) % 65536 ≤ c.wpos - c.head ∧ c.wpos - c.head < (6 + 65536 - c.head % 65536) % 65536 ∧ c.read = true ∧ c.usable = true) ∧
    ((withCq (fun c => { c with usable := false })).cq 0 0).usable = false ∧
    (let s := { withCq (fun c => { c with resetting := true, resetRound := 9 }) with
       mem := { array := mapped.mem.array ++ [(0x8402, 0x01), (0x8406, 0x14)] } }
     (s.cq 0 0).resetting = true ∧ (s.cq 0 0).resetRound < s.rnd.counter ∧
     s.readPva 0 (s.qdescPva 0 0 false) 16 = .ok (toBytes 16 0x0014000000010000) ∧
     (s.cleanPva 0 (s.qdescPva 0 0 false) 16).cqResetFault 0 0 (qdescOf false (toBytes 16 0x0014000000010000)) = none) ∧
    (let s := { withCq (fun c => { c with resetting := true, resetRound := 9 }) with
       mem := { array := mapped.mem.array ++ [(0x8402, 0x01), (0x8406, 0x13)] } }
     s.readPva 0 (s.qdescPva 0 0 false) 16 = .ok (toBytes 16 0x0013000000010000) ∧
     (s.cleanPva 0 (s.qdescPva 0 0 false) 16).cqResetFault 0 0 (qdescOf false (toBytes 16 0x0013000000010000)) = some .range) ∧
    (mapped.cq 0 0).resetting = false ∧ (mapped.cq 0 0).headWait = none := by decide +kernel

/-- The 128 bytes of a descriptor: HANDLE 0 with a budget of 100, and no range. -/
def desc100 : List Byte := toBytes 128 (100 * 2 ^ 16)

/-- A tail one past the head, with a descriptor of a budget of 100 and one of a handle that names no program; an empty queue; admission
points 0 and 15, of a device in SERVICE and in RECOVERY. A weaver with one stroke in its deque; one whose neighbour has one; one that may
try again at the next cycle; a run at its budget, and one cycle before it. -/
theorem witness_admission_pops_and_steals :
    (let s := { (withSq (fun x => { x with tail := 1 })) with mem := { array := mapped.mem.array ++ [(0x20002, 100)] } }
     let x := s.sq 0 0
     let d := strokeOf 0 0 desc100
     (s.part 0).live = true ∧ x.read = true ∧ x.reread = false ∧ x.halted = false ∧ x.enable = true ∧ x.fetched < 64 ∧ x.tail < 65536 ∧
     x.waiting.length < (x.tail + 65536 - x.head % 65536) % 65536 ∧
     s.readPva 0 (x.base + 128 * ((x.head + x.waiting.length) % 2 ^ x.log2)) 128 = .ok desc100 ∧ bits (BitVec.ofNat 64 (dfield desc100 0 8)) 55 54 = 0 ∧
     (let v := s.cleanPva 0 (x.base + 128 * ((x.head + x.waiting.length) % 2 ^ x.log2)) 128
      (v.cq 0 d.cq).read = true ∧ v.firstChecks 0 desc100 d = none)) ∧
    (let s := { (withSq (fun x => { x with tail := 1 })) with mem := { array := mapped.mem.array ++ [(0x20000, 1), (0x20002, 100)] } }
     let bs := toBytes 128 (1 + 100 * 2 ^ 16)
     let d := strokeOf 0 0 bs
     let v := s.cleanPva 0 0x20000 128
     s.readPva 0 0x20000 128 = .ok bs ∧ v.firstChecks 0 bs d = some .range ∧ (v.admitRec 0 0 d false .range (admitDetail none 0)).isSome = true) ∧
    ((mapped.sq 0 0).tail + 65536 - (mapped.sq 0 0).head % 65536) % 65536 ≤ (mapped.sq 0 0).waiting.length ∧
    mapped.rnd.point ≤ (15 : Fin 16).val ∧ (0 : Fin 16).val < ({ svc with rnd := { point := 1 } } : State).rnd.point ∧
    (15 : Fin 16).val ≠ 0 ∧ ({ mapped with rst := { mode := .recovery } } : State).rst.mode ≠ .service ∧
    (let k : Stroke := { sid := 5, budget := 100 }
     let s := { mapped with weavers := [(3, { deque := [k] })] }
     let two := { mapped with weavers := [(3, { deque := [k, k] })] }
     let scan := fun (s : State) => [1, 2, 3].findSome? (fun c => ((s.stealScope 2 c).filter (fun v => !(s.takenBelow 2).contains v)).findSome? (fun v =>
       (s.stealable 2 c v).map (fun k => (c, v, k))))
     (s.weaver 3).st = .active ∧ (s.weaver 3).run = none ∧ 3 ∉ s.auth.halted ∧ (s.weaver 3).deque = k :: [] ∧
     (s.weaver 2).deque = [] ∧ (s.weaver 2).retryAt ≤ s.elapsedNow 2 ∧ (scan mapped).isNone = true ∧ (scan s).isNone = true ∧
     scan { two with auth := { two.auth with halted := [0, 1] } } = some (1, 3, k)) ∧
    (let s := { mapped with weavers := [(3, { retryAt := mapped.elapsedNow 3 + 1 })] }; s.elapsedNow 3 < (s.weaver 3).retryAt) ∧
    (let r := { runAt 0 {} with cyc := 1000 }
     ((on3 r).weaver 3).run = some r ∧ ((on3 r).weaver 3).st = .active ∧ r.s.budget ≤ r.cyc) ∧
    (let r := { runAt 0 {} with cyc := 999 }; ((on3 r).weaver 3).run = some r ∧ r.cyc < r.s.budget) := by decide +kernel

/-- R88, R90: the lowest thief of the same die takes the stroke at the back and pays 8 cycles of its round; the front is its owner's. -/
theorem test_steal : let t := go (.steal 0) { mapped with weavers := [(3, { deque := [{ sid := 4 }, { sid := 5, budget := 100 }] })] }
    ((t.weaver 0).run.map (·.s.sid), (t.weaver 0).elapsed, (t.weaver 3).deque.map (·.sid)) = (some 5, mapped.elapsedNow 0 + 8, [4]) := by
  decide +kernel

/-- A request of the run on weaver 3. -/
def asked (k : PoolKind) (got : Option (Status × List Byte × Bool)) : State :=
  { on3 (runAt 0 {}) with poolReqs := [{ id := 7, sid := 1, weaver := 3, pa := 0x4000, len := 8, kind := k, got := got, stage := .issued }] }
/-- That request. -/
def q7 (k : PoolKind) (got : Option (Status × List Byte × Bool)) : PoolReq :=
  { id := 7, sid := 1, weaver := 3, pa := 0x4000, len := 8, kind := k, got := got, stage := .issued }
/-- A stroke suspended on the word at 0x4000 for it to equal 5, until boundary `n`. -/
def watching (n : Nat) (word : Byte) : State := { mapped with
  parts := [(0, { live := true, suspended := [{ s := { sid := 9 }, watch := some (0x4000, true, 0, 5), fires := n }] })]
  mem := { array := [(0x4000, word)] } }

/-- Answers with data, with an error, and none; a watch whose word is 5, is 4, is poisoned, one at its boundary and one before it; a FILL of
a slice in half 0 and in a failed half, and a channel without a slice. -/
theorem witness_answers_land :
    (∀ got ∈ [some (Status.ok, [1, 2], false), some (.range, [], false), none],
      let s := ((asked (.line 0 2) got).advance 7).serveReq 7
      s.poolReq 7 = some (q7 (.line 0 2) got) ∧ s.runOf (q7 (.line 0 2) got) = some (runAt 0 {})) ∧
    (∀ k ∈ [PoolKind.load 4, .store [1], .atom 4 .add true 1 0], ∀ got ∈ [some (Status.ok, [1, 2], false), some (.ok, [1, 2], true), some (.perm, [], false), none],
      let s := ((asked k got).advance 7).serveReq 7
      s.poolReq 7 = some (q7 k got) ∧ s.runOf (q7 k got) = some (runAt 0 {})) ∧
    ((asked (.atom 4 .add true 1 0) (some (.ok, [1], false))).ackedReq (q7 (.atom 4 .add true 1 0) (some (.ok, [1], false))) 5).runOf
      (q7 (.atom 4 .add true 1 0) (some (.ok, [1], false))) = some { runAt 0 {} with ackAt := 5 } ∧
    (q7 (.store []) none).kind.writes = true ∧ (q7 (.load 4) none).kind.writes = false ∧
    (∀ e ∈ [(5, true), (4, false)], let s := watching 11 e.1
      (s.suspendedOf 9).isSome = true ∧ s.rnd.counter < 11 ∧ s.asleepHalf (homeHalf 0x4000) = false ∧ s.heldAway 0x4000 1 = false ∧
      (s.readPool 0x4000 8).2 = false ∧ waitCond 0 (ofBytes (s.readPool 0x4000 8).1) ((5 : U64).toNat % 256 ^ 8) = e.2) ∧
    (({ watching 11 5 with mem := { poison := [0x100] } } : State).readPool 0x4000 8).2 = true ∧ 10 ≤ (watching 10 5).rnd.counter ∧
    (let o : BulkOp := { len := 128, slice := 128, dst := [{ len := 128, pa := 0x4000 }] }
     let s := { mapped with dies := [(0, { channels := [(0, some o)] })] }
     (s.die 0).channels.look none 0 = some o ∧ o.slice ≠ 0 ∧ (s.die 0).failed = none ∧
     (let pas := (lineCuts o.dst (2 * (o.slice / 64 + 2) + o.src.length + o.dst.length) o.done o.slice).map (·.2.1)
      let u := s.each pas State.touch
      pas = [0x4000, 0x4040] ∧ pas.any (fun a => u.halfDead (homeHalf a)) = false ∧ pas.any (u.cutOff 0) = false ∧
      pas.any (fun a => u.asleepHalf (homeHalf a)) = false ∧
      u.sliceBlocks [] (lineCuts o.dst (2 * (o.slice / 64 + 2) + o.src.length + o.dst.length) o.done o.slice) = [] ∧
      (let d := { s with dies := [(0, { ok := false, channels := [(0, some o)] }), (1, { ok := false })] }
       (pas.any (fun a => (d.each pas State.touch).halfDead (homeHalf a)) = true)))) ∧
    ({} : BulkOp).slice = 0 := by decide +kernel

/-- R94, R282: a FILL writes its pattern, lowest byte first. -/
theorem test_bulk_fill : let o : BulkOp := { len := 16, slice := 16, pattern := 0x0807060504030201, dst := [{ len := 16, pa := 0x4000 }] }
    ((go (.bulkSliceEnd 0 0) { mapped with dies := [(0, { channels := [(0, some o)] })] }).readPool 0x4008 8).1 = [1, 2, 3, 4, 5, 6, 7, 8] := by
  decide +kernel
/-- R284: a far atomic's old value lands in gD, and the request is gone. -/
theorem test_pool_response : let t := go (.poolResponse 7 .ok 50) (asked (.load 4) (some (.ok, [1, 2, 0, 0, 0, 0, 0, 0], false)))
    ((run3 t).gr 4, t.poolReqs) = (0x201, []) := by decide +kernel

/-! ### Witnesses: control instructions -/

/-- A request of class 0b110 for partition p, tag 77, with operand words by number. -/
def req (op sub p : Nat) (ws : SMap U64 := []) : CtrlReq :=
  { words := BitVec.ofNat 64 (op * 2 ^ 56 + sub) :: BitVec.ofNat 64 (77 + p * 2 ^ 32) :: (nums 2 30).map (fun i => ws.look 0 i) }

/-- The stake serves a request that arrives in s, it passes the common checks, and `good` holds of the state at its effect and of
its own. -/
def Serves (s : State) (i : Issuer) (r : CtrlReq) (op sub : Nat) (good : State → State → Bool) : Bool :=
  let u := s.arrive i r
  reqIs r op sub && s.leaseHeld && (u.ctlQueue i).head? == some r && u.stakeRuns && !u.blockedIssuer i && u.passTurn i &&
  u.commonStatus u.future i r == .ok && good u.future u

/-- What `Serves` says meets the hypotheses of `Settles`. -/
theorem serves_settles {s : State} {i : Issuer} {r : CtrlReq} {op sub : Nat} {good : State → State → Bool}
    (h : Serves s i r op sub good = true) : reqIs r op sub = true ∧ s.leaseHeld = true ∧ (s.arrive i r).serving i r ∧
      (s.arrive i r).commonStatus (s.arrive i r).future i r = .ok ∧ good (s.arrive i r).future (s.arrive i r) = true := by
  simp only [Serves, Bool.and_eq_true, beq_iff_eq, Bool.not_eq_true'] at h
  obtain ⟨⟨⟨⟨⟨⟨⟨h1, h2⟩, h3⟩, h4⟩, h5⟩, h6⟩, h7⟩, h8⟩ := h
  refine ⟨h1, h2, ⟨?_, h3, h4, h5, h6⟩, h7, h8⟩
  have e : ∀ t : State, ∀ l, (t.setQueue i l).leaseHeld = t.leaseHeld := fun t l => by cases i <;> rfl
  unfold State.arrive State.enqueue
  split
  · exact h2
  · split
    · rw [e]; exact h2
    · exact h2

/-- Requests of the operator and of the owner of partition 0 that carry no operands. -/
theorem witness_requests_settle : Serves mapped .operator (req 0xDF 0 0) 0xDF 0 (fun _ _ => true) = true ∧
    Serves mapped (.owner 0) (req 0xDF 0 0) 0xDF 0 (fun _ _ => true) = true ∧ Serves mapped .stake (req 0xD4 1 0) 0xD4 1 (fun _ _ => true) = true := by
  decide +kernel

/-- R297, R313: CTRL.FENCE of the operator gives a result with OK and its tag. -/
theorem test_ctrl_fence : (go (.ctrlFence .operator (req 0xDF 0 0)) mapped).ctl.results = [{ issuer := .operator, status := 0, opcode := 0xDF, tag := 77 }] := by
  decide +kernel
/-- R57, R303: EXT.GRANT stages its change, and its result waits for boundary 11. -/
theorem test_ext_grant : let t := go (.extGrant .operator (req 0xC3 0 0 [(2, 5), (3, 2)])) mapped
    (t.ctl.staged, t.ctl.results.map (fun x => (x.effect, x.ready))) = ([.extGrant 5 0 2 0], [(11, false)]) := by decide +kernel

/-- Requests with a wrong class, a reserved bit, an unknown variant, another partition, an operator's instruction, a partition that is
being destroyed, and one that a fenced half refuses; one behind another in its queue. -/
theorem witness_common_control_checks :
    (let r : CtrlReq := { words := 0 :: (req 0xDF 0 0).words.drop 1 }
     reqIs r 0xDF 0 = true ∧ bits (r.words.getD 0 0) 63 61 ≠ 6 ∧ (mapped.arrive .operator r).commonStatus (mapped.arrive .operator r).future .operator r = .unsupported) ∧
    (let r : CtrlReq := { words := (req 0xDF 0 0).words.set 0 0xDF00000100000000 }
     bits (r.words.getD 0 0) 63 61 = 6 ∧ bits (r.words.getD 0 0) 55 32 ≠ 0) ∧
    (let r := req 0xDF 1 0; bits (r.words.getD 0 0) 63 61 = 6 ∧ reqReserved r = false ∧ ctlSubs (reqOp r) ≤ reqSub r) ∧
    (∀ r ∈ [req 0xDF 0 1, req 0xC3 0 0, req 0xDF 0 0], bits (r.words.getD 0 0) 63 61 = 6 ∧ reqReserved r = false ∧ reqSub r < ctlSubs (reqOp r) ∧
      operReserved r (ctlDef (reqOp r) (reqSub r) false (reqBits r 2 10 0)) = false ∧ mapped.reqFenced r = false) ∧
    reqPart (req 0xDF 0 1) ≠ 0 ∧ reqOp (req 0xC3 0 0) = 0xC3 ∧
    ((mapped.onPart 0 (fun x => { x with destroyed := some 9 })).dying 0) = true ∧
    (let s : State := { mapped with auth := { mapped.auth with lease0 := { mapped.auth.lease0 with fenced := true }, lease1 := { mapped.auth.lease1 with fenced := true } } }
     s.reqFenced (req 0xDF 0 0) = true) ∧
    (let s := mapped.setQueue .operator [req 0xDE 0 0]
     s.leaseHeld = true ∧ ((s.arrive .operator (req 0xDF 0 0)).ctlQueue .operator).head? ≠ some (req 0xDF 0 0)) ∧
    State.reset.leaseHeld = false := by decide +kernel

/-- A new partition 2, one that exists, and one with fields of different numbers; a partition without hosted extents and one with; a grant of
one block, of none, and of an extent in use; a revocation of an extent that is not the root, and of one that is FREE; the last block and the
one past it; queries of the operator and of owner 0. -/
theorem witness_partitions_and_extents :
    Serves { mapped with parts := mapped.parts.take 1 } .operator (req 0xC0 0 2 [(2, 0x102)]) 0xC0 0 (fun f _ => decide (reqBits (req 0xC0 0 2 [(2, 0x102)]) 2 5 0 = 2) &&
      !f.createConflict (req 0xC0 0 2 [(2, 0x102)]) && decide (reqBits (req 0xC0 0 2 [(2, 0x102)]) 2 8 8 = 1)) = true ∧
    Serves mapped .operator (req 0xC0 0 0 [(2, 0x100)]) 0xC0 0 (fun f _ => f.createConflict (req 0xC0 0 0 [(2, 0x100)])) = true ∧
    Serves mapped .operator (req 0xC0 0 2 [(2, 0x103)]) 0xC0 0 (fun _ _ => decide (reqBits (req 0xC0 0 2 [(2, 0x103)]) 2 5 0 ≠ 2)) = true ∧
    Serves mapped .operator (req 0xC1 0 0) 0xC1 0 (fun f _ => !f.extents.any (fun e => e.2.st == .active && e.2.holder == 0 && e.2.hosted)) = true ∧
    Serves mapped .operator (req 0xC2 0 0) 0xC2 0 (fun _ _ => true) = true ∧ Serves mapped (.owner 0) (req 0xC2 1 0) 0xC2 1 (fun _ _ => true) = true ∧
    Serves mapped .operator (req 0xC3 0 0 [(2, 5), (3, 1)]) 0xC3 0 (fun f _ => (f.extent 5).st == .free && decide (1 ≤ (f.pool 0).free)) = true ∧
    Serves mapped .operator (req 0xC3 0 0 [(3, 1)]) 0xC3 0 (fun f _ => (f.extent 0).st != .free) = true ∧
    Serves mapped .operator (req 0xC3 0 0 [(2, 5)]) 0xC3 0 (fun f _ => (f.extent 5).st == .free && reqBits (req 0xC3 0 0 [(2, 5)]) 3 18 0 == 0) = true ∧
    (let s := { mapped with extents := mapped.extents ++ [(3, { st := .active, holder := 1 })] }
     Serves s .operator (req 0xC4 0 0 [(2, 3)]) 0xC4 0 (fun f _ => (f.extent 3).st == .active && !(f.extent 3).hosted && !(f.extent 3).root && (f.extent 3).region.isNone) = true ∧
     Serves s .operator (req 0xC4 0 0 [(2, 4)]) 0xC4 0 (fun f _ => (f.extent 4).st != .active) = true) ∧
    Serves mapped .operator (req 0xC5 0 0 [(2, 753663)]) 0xC5 0 (fun f _ => (f.pool (blockHalf 753663)).blockState 753663 != .retired &&
      !decide (753663 ∈ (f.pool (blockHalf 753663)).marked)) = true ∧
    Serves mapped .operator (req 0xC5 0 0 [(2, 753664)]) 0xC5 0 (fun _ _ => decide (753664 ≤ reqBits (req 0xC5 0 0 [(2, 753664)]) 2 19 0)) = true ∧
    Serves mapped .operator (req 0xC6 0 0) 0xC6 0 (fun _ _ => true) = true ∧ Serves mapped .operator (req 0xC6 1 0) 0xC6 1 (fun _ _ => true) = true ∧
    Serves mapped (.owner 0) (req 0xC6 0 0) 0xC6 0 (fun _ u => (u.extent 0).st == .active && (u.extent 0).holder == 0) = true ∧
    Serves mapped (.owner 1) (req 0xC6 0 1) 0xC6 0 (fun _ u => (u.extent 0).holder != 1) = true ∧
    Serves mapped (.owner 0) (req 0xC6 1 0) 0xC6 1 (fun _ _ => true) = true := by decide +kernel

/-- A HOST-less partition whose owner key is 1,184 zero bytes in metadata, read by the stake: every coefficient is below the modulus. -/
theorem witness_partition_with_owner_key :
    mapped.readIssuer .stake metaOff 1184 = .ok (List.replicate 1184 0) ∧ ekValid (List.replicate 1184 0) = true := by decide +kernel

/-- Windows 0 and 15 of 16, window 16, one of another partition and one of a misaligned base; the last rank; groups 0 and 16; a key that unwraps, one no
newer, one without a session. -/
theorem witness_windows_ranks_groups_and_keys :
    (∀ w ∈ [0, 15], Serves mapped (.owner 0) (req 0xC7 0 0 [(2, BitVec.ofNat 64 w), (3, 3), (5, 0x1000)]) 0xC7 0 (fun f _ =>
      decide ((f.part 0).winFirst ≤ w ∧ w < (f.part 0).winFirst + (f.part 0).winCount)) = true) ∧
    Serves mapped (.owner 0) (req 0xC7 0 0 [(2, 16)]) 0xC7 0 (fun f _ => !decide (16 < (f.part 0).winFirst + (f.part 0).winCount)) = true ∧
    Serves mapped (.owner 0) (req 0xC7 0 0 [(3, 0x103)]) 0xC7 0 (fun _ _ => bits (reqWord (req 0xC7 0 0 [(3, 0x103)]) 3) 13 8 != 0) = true ∧
    Serves mapped (.owner 0) (req 0xC7 0 0 [(3, 3), (4, 0x800)]) 0xC7 0 (fun _ _ => reqBits (req 0xC7 0 0 [(3, 3), (4, 0x800)]) 4 47 0 % 4096 != 0) = true ∧
    Serves mapped (.owner 0) (req 0xC7 1 0 [(2, 15)]) 0xC7 1 (fun _ _ => true) = true ∧
    Serves mapped (.owner 0) (req 0xC8 0 0 [(2, 0x3FFF)]) 0xC8 0 (fun _ _ => true) = true ∧
    Serves mapped (.owner 0) (req 0xC9 0 0 [(2, 0x10000)]) 0xC9 0 (fun f _ => decide (0 < (f.part 0).grpFirst + (f.part 0).grpCount)) = true ∧
    Serves mapped (.owner 0) (req 0xC9 0 0 [(2, 16)]) 0xC9 0 (fun f _ => !decide (16 < (f.part 0).grpFirst + (f.part 0).grpCount)) = true ∧
    Serves mapped (.owner 0) (req 0xCA 0 0) 0xCA 0 (fun _ u => (u.part 0).ss.isNone) = true ∧
    Serves mapped (.owner 0) (req 0xDA 0 0) 0xDA 0 (fun _ _ => true) = true := by decide +kernel

/-- Every setting at the bounds of its range: a rate of 128 and of none, depths and committed bursts at their least, equal pairs; caps of 0, 315,
320 and 1,800 W, warnings of 82 and 96 half volts; weights 7 and 15. -/
theorem witness_traffic_and_power_settings :
    (let ok := fun (r : CtrlReq) => decide (128 ≤ reqBits r 2 31 0) && (reqBits r 2 31 0 == 0xFFFFFFFF || decide (reqBits r 2 31 0 ≤ reqBits r 3 31 0)) &&
       decide (2 * (1072 + reqBits r 4 7 0) ≤ reqBits r 3 31 0)
     (∀ r ∈ [req 0xCB 0 0 [(2, 128), (3, 2144)], req 0xCB 0 0 [(2, 0xFFFFFFFF), (3, 2654), (4, 255)]],
       Serves mapped .operator r 0xCB 0 (fun _ _ => ok r) = true) ∧
     (∀ r ∈ [req 0xCB 0 0 [(2, 127), (3, 2144)], req 0xCB 0 0 [(2, 128), (3, 2143)]], Serves mapped .operator r 0xCB 0 (fun _ _ => !ok r) = true)) ∧
    (let ok := fun (r : CtrlReq) => let a := reqBits r 2 31 0; let b := reqBits r 3 31 0; let c := reqBits r 4 31 0; let d := reqBits r 5 31 0
       decide (a ≤ b) && decide (c ≤ d) && decide (128 ≤ a) && (a == 0xFFFFFFFF || decide (a ≤ c)) &&
         (b == 0xFFFFFFFF || (decide (b ≤ d) && decide (2144 ≤ d)))
     (∀ r ∈ [req 0xCB 1 0 [(2, 128), (3, 128), (4, 2144), (5, 2144)], req 0xCB 1 0 [(2, 0xFFFFFFFF), (3, 0xFFFFFFFF)]],
       Serves mapped .operator r 0xCB 1 (fun _ _ => ok r) = true) ∧
     (∀ r ∈ [req 0xCB 1 0 [(2, 128), (3, 128), (4, 2144), (5, 2143)], req 0xCB 1 0 [(2, 129), (3, 128), (4, 2144), (5, 2144)]],
       Serves mapped .operator r 0xCB 1 (fun _ _ => !ok r) = true)) ∧
    (let ok := fun (r : CtrlReq) => decide (reqBits r 2 13 0 ≤ reqBits r 2 29 16) && decide (2176 ≤ reqBits r 3 31 0)
     Serves mapped .operator (req 0xCB 2 0 [(2, 0x50005), (3, 2176)]) 0xCB 2 (fun _ _ => ok (req 0xCB 2 0 [(2, 0x50005), (3, 2176)])) = true ∧
     (∀ r ∈ [req 0xCB 2 0 [(3, 2175)], req 0xCB 2 0 [(2, 0x40005), (3, 2176)]], Serves mapped .operator r 0xCB 2 (fun _ _ => !ok r) = true)) ∧
    (∀ v ∈ ([0, 315, 320, 1800] : List Nat), v % 5 = 0 ∧ v ≤ 1800 ∧
      Serves mapped .operator (req 0xCC 0 0 [(2, BitVec.ofNat 64 v)]) 0xCC 0 (fun _ _ => reqBits (req 0xCC 0 0 [(2, BitVec.ofNat 64 v)]) 2 15 0 == v) = true) ∧
    (∀ v ∈ ([321, 1801, 1805] : List Nat), ¬ (v % 5 = 0 ∧ v ≤ 1800) ∧
      Serves mapped .operator (req 0xCC 0 0 [(2, BitVec.ofNat 64 v)]) 0xCC 0 (fun _ _ => reqBits (req 0xCC 0 0 [(2, BitVec.ofNat 64 v)]) 2 15 0 == v) = true) ∧
    (∀ v ∈ ([315, 320, 1800, 1805] : List Nat),
      Serves mapped .operator (req 0xCC 1 0 [(2, BitVec.ofNat 64 v)]) 0xCC 1 (fun _ _ => reqBits (req 0xCC 1 0 [(2, BitVec.ofNat 64 v)]) 2 15 0 == v) = true) ∧
    (∀ v ∈ ([81, 82, 96, 97] : List Nat),
      Serves mapped .operator (req 0xCC 2 0 [(2, BitVec.ofNat 64 v)]) 0xCC 2 (fun _ _ => reqBits (req 0xCC 2 0 [(2, BitVec.ofNat 64 v)]) 2 15 0 == v) = true) ∧
    Serves mapped .operator (req 0xCD 0 0 [(2, 7)]) 0xCD 0 (fun _ _ => true) = true ∧
    (∀ v ∈ ([0x70, 0x80, 0xE0, 0xF0] : List Nat),
      Serves mapped (.owner 0) (req 0xCE 0 0 [(2, BitVec.ofNat 64 v)]) 0xCE 0 (fun _ _ => reqBits (req 0xCE 0 0 [(2, BitVec.ofNat 64 v)]) 2 7 4 * 16 == v) = true) := by
  decide +kernel

/-- R308: a cap below 320 W acts as 320 W; a cap that is no multiple of 5 W gives RANGE. -/
theorem test_pwr_cap : (go (.pwrCap .operator (req 0xCC 0 0 [(2, 315)])) mapped).ctl.staged = [.cap 320 315] ∧
    (go (.pwrCap .operator (req 0xCC 0 0 [(2, 321)])) mapped).ctl.results.map (·.status) = [1] := by decide +kernel

/-- The last counter that an owner may select and one below, an odd one whose even one is chained; a ring of the largest size; the operator's
last counter; a boundary two rounds ahead and one. ROUND.SET of a priority, of a length while a change is pending, and by the master. -/
theorem witness_counter_selection_queries_and_round_set :
    (let r := req 0xCF 0 0 [(2, 62 + 0x001 * 2 ^ 16)]
     Serves mapped (.owner 0) r 0xCF 0 (fun f _ => decide (48 ≤ reqBits r 2 10 0 ∧ reqBits r 2 10 0 ≤ 63) && selectFits true r && decide (reqBits r 2 10 0 % 2 = 0) &&
       reqWord r 3 == 0 && reqWord r 4 == 0 && reqWord r 5 == 0 && !(f.part 0).chained 62) = true) ∧
    (let r := req 0xCF 0 0 [(2, 47 + 0x001 * 2 ^ 16)]; Serves mapped (.owner 0) r 0xCF 0 (fun _ _ => decide (reqBits r 2 10 0 < 48)) = true) ∧
    (let s := mapped.onPart 0 (fun x => { x with sel := [(62, 1 + 0x001 + 2 ^ 12)] })
     let r := req 0xCF 0 0 [(2, 63 + 0x001 * 2 ^ 16)]
     Serves s (.owner 0) r 0xCF 0 (fun f _ => selectFits true r && (f.part 0).chained 62 && reqWord r 3 == 0 && reqWord r 4 == 0 && reqWord r 5 == 0 &&
       !bit (reqWord r 2) 28) = true) ∧
    (let r := req 0xCF 0 0 [(2, 0x7FE), (3, 64), (4, 12)]
     Serves mapped (.owner 0) r 0xCF 0 (fun _ _ => decide (reqBits r 2 10 0 = 0x7FE ∧ reqBits r 3 47 0 % 64 = 0 ∧ 1 ≤ reqBits r 4 3 0 ∧ reqBits r 4 3 0 ≤ 12)) = true) ∧
    (let r := req 0xCF 0 0 [(2, 126 + 0x102 * 2 ^ 16)]
     Serves mapped .operator r 0xCF 0 (fun _ _ => decide (reqBits r 2 10 0 ≤ 127) && selectFits false r) = true) ∧
    Serves mapped (.owner 0) (req 0xCF 1 0 [(2, 1)]) 0xCF 1 (fun _ _ => true) = true ∧
    Serves mapped (.owner 0) (req 0xD0 0 0 [(2, 12)]) 0xD0 0 (fun f u => decide (u.rnd.counter + 2 ≤ 12 ∧ 12 ∉ (f.part 0).snaps)) = true ∧
    Serves mapped .operator (req 0xD0 0 0 [(2, 12)]) 0xD0 0 (fun f u => decide (u.rnd.counter + 2 ≤ 12 ∧ 12 ∉ f.cnt.snaps)) = true ∧
    Serves mapped .operator (req 0xD0 0 0 [(2, 11)]) 0xD0 0 (fun _ u => decide (11 < u.rnd.counter + 2)) = true ∧
    Serves mapped .operator (req 0xDE 0 0) 0xDE 0 (fun _ _ => true) = true ∧ Serves mapped (.owner 0) (req 0xDE 0 0) 0xDE 0 (fun _ _ => true) = true ∧
    Serves mapped (.owner 0) (req 0xDF 0 0) 0xDF 0 (fun _ _ => true) = true ∧
    Serves mapped .operator (req 0xD5 0 0 [(2, 0x1050000)]) 0xD5 0 (fun _ _ => bit (reqWord (req 0xD5 0 0 [(2, 0x1050000)]) 2) 24) = true ∧
    Serves { mapped with rnd := { counter := 10, pendLength := some (2, 300) } } .operator (req 0xD5 0 0 [(2, 0x102)]) 0xD5 0 (fun _ u => u.rnd.pendLength.isSome) = true ∧
    Serves mapped .operator (req 0xD5 0 0 [(2, 0x102)]) 0xD5 0 (fun _ u => u.isMaster && !u.rnd.lengthBusy && u.rnd.pendLength.isNone &&
      decide (reqBits (req 0xD5 0 0 [(2, 0x102)]) 2 1 0 ≠ u.rnd.length)) = true := by decide +kernel

/-- R41: the master, at round 10, announces boundary 266. -/
theorem test_round_set : (go (.roundSet .operator (req 0xD5 0 0 [(2, 0x102)])) mapped).rnd.pendLength = some (2, 266) := by decide +kernel

/-- Region 4 of partition 0 with its one extent of 512 frames, offered to partition 1, at version 3. -/
def regioned : State := { mapped with
  extents := mapped.extents ++ [(3, { st := .active, blocks := [{ block := 1, cert := true }], region := some 4 }),
    (5, { st := .active, blocks := [{ block := 2, cert := true }] })]
  regions := [(4, { valid := true, offer := 2, version := 3, pinVersion := 3, frames := 512, exts := [3], versions := [{ num := 3 }] })] }

/-- A creation from extent 5 and from one that partition 0 does not hold; acceptances by the offered partition and by another; destructions by the
home, by another and of no region; a pin by the home with the record at 0x4000, and by one that may not; an unpin of a held pin and of one that
is not; a publish of no update, expecting version 3, and expecting another. -/
theorem witness_region_instructions :
    (let r := req 0xD1 0 0 [(2, 5), (3, 0)]
     Serves regioned (.owner 0) r 0xD1 0 (fun f _ => match regionExts r with
       | some es => es.all (fun e => (f.extent e).st == .active && (f.extent e).holder == 0) && !es.any (fun e => (f.extent e).root || (f.extent e).hosted || (f.extent e).region.isSome) &&
           decide es.Nodup && !es.any (fun e => (f.extent e).half ≠ (f.extent (es.headD 0)).half) && decide (f.framesOf es ≤ 2 ^ 24) &&
           decide ((f.regions.filter (fun y => y.2.valid && y.2.half == (f.extent (es.headD 0)).half)).foldl (fun m y => m + y.2.frames) 0 + f.framesOf es ≤ 2 ^ 26) &&
           (List.range 1024).find? (fun j => !(f.region j).valid) == some 0
       | none => false) = true) ∧
    (let r := req 0xD1 0 1 [(2, 5), (3, 0)]
     Serves regioned (.owner 1) r 0xD1 0 (fun f _ => match regionExts r with
       | some es => !es.all (fun e => (f.extent e).st == .active && (f.extent e).holder == 1)
       | none => false) = true) ∧
    Serves regioned (.owner 1) (req 0xD1 1 1 [(2, 4)]) 0xD1 1 (fun f _ => (f.region 4).valid && (f.region 4).destroying.isNone && (f.region 4).offer.getLsbD 1) = true ∧
    Serves regioned (.owner 0) (req 0xD1 1 0 [(2, 4)]) 0xD1 1 (fun f _ => (f.region 4).valid && (f.region 4).destroying.isNone && !(f.region 4).offer.getLsbD 0) = true ∧
    Serves regioned (.owner 0) (req 0xD1 2 0 [(2, 4)]) 0xD1 2 (fun f _ => (f.region 4).valid && (f.region 4).destroying.isNone && (f.region 4).home == 0) = true ∧
    Serves regioned (.owner 1) (req 0xD1 2 1 [(2, 4)]) 0xD1 2 (fun f _ => (f.region 4).valid && (f.region 4).destroying.isNone && (f.region 4).home != 1) = true ∧
    Serves regioned (.owner 0) (req 0xD1 2 0 [(2, 1023)]) 0xD1 2 (fun f _ => !(f.region 1023).valid) = true ∧
    Serves regioned (.owner 0) (req 0xD2 0 0 [(2, 4), (3, 0x4000)]) 0xD2 0 (fun f u => (f.region 4).valid && (f.region 4).destroying.isNone && (f.region 4).home == 0 &&
      (List.range 64).find? (fun j => !((f.part 0).pins.look {} j).held) == some 0 &&
      !(u.rangePieces 0 0x4000 64 { w := true }).any (fun y => match y.out with | .blocked _ => true | _ => false) && u.pvaStatus 0 0x4000 64 { w := true } == .ok) = true ∧
    Serves regioned (.owner 1) (req 0xD2 0 1 [(2, 4), (3, 0x4000)]) 0xD2 0 (fun f _ => (f.region 4).valid && (f.region 4).destroying.isNone && (f.region 4).home != 1 &&
      !(f.region 4).readers.getLsbD 1) = true ∧
    (let s := regioned.onPart 0 (fun x => { x with pins := [(63, { gen := 5, region := 4, held := true })] })
     Serves s (.owner 0) (req 0xD2 1 0 [(2, 63 + 5 * 64)]) 0xD2 1 (fun f u => ((f.part 0).pins.look {} 63).held && ((f.part 0).pins.look {} 63).gen == 5 && !u.spineGone) = true ∧
     Serves s (.owner 0) (req 0xD2 1 0 [(2, 62)]) 0xD2 1 (fun f _ => !((f.part 0).pins.look {} 62).held) = true) ∧
    Serves regioned (.owner 0) (req 0xD3 0 0 [(2, 4), (3, 3), (4, 0x4000), (6, 0x1FFFFFF)]) 0xD3 0 (fun f u =>
      u.readIssuer (.owner 0) 0x4000 0 == .ok [] && (f.region 4).valid && (f.region 4).home == 0 && (f.region 4).version == 3 && decide ((f.region 4).versions.length < 16) &&
      badUpdate (f.region 4) (updateList [] 0) == none) = true ∧
    Serves regioned (.owner 0) (req 0xD3 0 0 [(2, 4), (3, 2), (4, 0x4000), (6, 0x1FFFFFF)]) 0xD3 0 (fun f u =>
      u.readIssuer (.owner 0) 0x4000 0 == .ok [] && (f.region 4).valid && (f.region 4).version != 2) = true := by decide +kernel

/-- The last channel, locked and not; a program slot that is empty and one that is loaded; the other stake passed and failed; the last port and its
bounds; both ends of REBUILD_SHARE; the last page, the last stack, and KIND 3; 1, 64, 0 and 65 records. -/
theorem witness_mailbox_program_and_memory_instructions :
    Serves mapped .stake (req 0xD4 0 0 [(2, 127), (3, 3), (4, 127)]) 0xD4 0 (fun f _ => !f.ctl.locked) = true ∧
    Serves { mapped with ctl := { mapped.ctl with locked := true } } .stake (req 0xD4 0 0 [(2, 127), (3, 3), (4, 127)]) 0xD4 0 (fun f _ => f.ctl.locked) = true ∧
    Serves mapped .stake (req 0xD4 1 0) 0xD4 1 (fun _ _ => true) = true ∧
    Serves mapped (.owner 0) (req 0xD6 0 0 [(2, 255), (4, 128)]) 0xD6 0 (fun f u => ((f.part 0).progs.look {} 255).img.isNone && u.ctl.background.isEmpty) = true ∧
    Serves mapped (.owner 0) (req 0xD6 0 0 [(4, 128)]) 0xD6 0 (fun f _ => ((f.part 0).progs.look {} 0).img.isSome) = true ∧
    Serves mapped (.owner 0) (req 0xD6 1 0) 0xD6 1 (fun f _ => ((f.part 0).progs.look {} 0).img.isSome && ((f.part 0).progs.look {} 0).gen == 0) = true ∧
    Serves mapped (.owner 0) (req 0xD6 1 0 [(2, 1)]) 0xD6 1 (fun f _ => ((f.part 0).progs.look {} 1).img.isNone) = true ∧
    Serves mapped (.owner 0) (req 0xD7 0 0) 0xD7 0 (fun _ _ => true) = true ∧
    Serves (mapped.onAuth (fun a => { a with stake1 := { st := .shadow, passDone := true } })) .operator (req 0xD8 0 0) 0xD8 0 (fun _ u =>
      (u.stake 1).st != .failed && (u.stake 1).passDone && u.auth.handover.isNone && u.auth.staging.isNone && u.auth.writing.isNone && (u.lease u.activeHalf).holder == 0) = true ∧
    Serves (mapped.onAuth (fun a => { a with stake1 := { st := .failed } })) .operator (req 0xD8 0 0) 0xD8 0 (fun _ u => (u.stake 1).st == .failed) = true ∧
    Serves mapped .operator (req 0xD8 0 0) 0xD8 0 (fun _ u => (u.stake 1).st != .failed && !(u.stake 1).passDone) = true ∧
    Serves mapped .operator (req 0xD9 0 0 [(2, 8192), (3, 8)]) 0xD9 0 (fun _ u => u.auth.staging.isNone) = true ∧
    Serves (mapped.onAuth (fun a => { a with staging := some (1, 1, []) })) .operator (req 0xD9 0 0 [(2, 8192), (3, 8)]) 0xD9 0 (fun _ u => u.auth.staging.isSome) = true ∧
    (∀ e ∈ ([(54, 10), (54, 1000), (55, 10), (54, 9), (54, 1001)] : List (Nat × Nat)), let r := req 0xDB 0 0 [(2, BitVec.ofNat 64 (e.1 + e.2 * 65536))]
      Serves mapped .operator r 0xDB 0 (fun _ _ => reqBits r 2 5 0 == e.1 && reqBits r 2 31 16 == e.2) = true) ∧
    (∀ v ∈ ([1, 100] : List Nat), Serves mapped .operator (req 0xDB 1 0 [(2, BitVec.ofNat 64 (1 + v * 256))]) 0xDB 1 (fun _ _ => true) = true) ∧
    (let pa := paEnd - 4096; let r := req 0xDC 0 0 [(3, BitVec.ofNat 64 pa)]
     Serves mapped .operator r 0xDC 0 (fun f _ => reqBits r 3 51 0 == pa && decide (pa % 4096 = 0 ∧ pa < paEnd ∧ (halfOff pa < metaOff ∨ metaOff + 0x4000000 ≤ halfOff pa)) &&
       (f.half (homeHalf pa)).pages.isEmpty && (f.half (homeHalf pa)).copies.isEmpty) = true) ∧
    (let r := req 0xDC 0 0 [(2, 2), (4, 19)]
     Serves mapped .operator r 0xDC 0 (fun f _ => reqBits r 2 1 0 == 2 && !(f.stack 19).failed && (f.half 1).failing.isEmpty && (f.half 1).moving.isNone) = true) ∧
    Serves mapped .operator (req 0xDC 0 0 [(2, 3)]) 0xDC 0 (fun _ _ => true) = true ∧
    (∀ v ∈ ([1, 64, 0, 65] : List Nat), let r := req 0xDD 0 0 [(4, BitVec.ofNat 64 v)]; Serves mapped .operator r 0xDD 0 (fun _ _ => reqBits r 4 6 0 == v) = true) := by
  decide +kernel

/-- A background PROG.LOAD whose image is refused, and one that waits; a result that may leave to the stake, the operator and an owner with its
request open. -/
theorem witness_background_work_and_results :
    (let b : Background := { issuer := .owner 0, req := req 0xD6 0 0 [(2, 255), (3, 0x4000), (4, 128)], op := 0xD6 }
     let s := { mapped with ctl := { mapped.ctl with background := [b] } }
     s.leaseHeld = true ∧ s.ctl.background.find? (fun b => b.issuer = .owner 0 && !b.done) = some b ∧
     (match bgProgLoad s.future s (.owner 0) b.req with | (.fail _ _, _) => true | _ => false) = true) ∧
    (∀ i ∈ [Issuer.stake, .operator, .owner 0],
      let r : Result := { issuer := i, opcode := 0xDF, tag := 77 }
      let s := { mapped with ctl := { mapped.ctl with results := [r] }, net := { mapped.net with ni := [{ cls := 2, opcode := 0xC0, part := 0, tag := 5, payload := toBytes 64 (77 * 2 ^ 64) }] } }
      s.leaseHeld = true ∧ s.ctl.results.find? (s.mayLeave i) = some r) := by decide +kernel

/-! ### Witnesses: translation, stored data, failures -/

/-- A migration of the page at PVA 0x200000 into frame 8 of extent 0, of which all is asked for. -/
def migrating (f : Migration → Migration) : State := { mapped with
  migrations := [f { pva := 0x200000, running := true, entryPa := 0x2008, entry := 0x20000003F, ext := 0, left := 4096, asked := 4096 }]
  mem := { array := mapped.mem.array ++ [(0x2008, 0x3F), (0x200C, 0x02)] }
  rst := { mode := .service, timeout := 4 }
  net := { mapped.net with out := [{ pva := 0x200000, resends := 2 }, { pva := 0x300000, resends := 3 }] } }

/-- An extent 6 of block 9 that is DRAINING since round 2, or 0, or is SCRUBBING. -/
def ending (f : Extent → Extent) : State := { mapped with extents := mapped.extents ++ [(6, f { st := .draining, since := 2, blocks := [{ block := 9 }] })] }

/-- Walks that find their page, find none, and meet a line that an agent owns; a page whose remote source is migrated; a piece that lands and one that has;
the last byte landed with the leaf as it was and changed; the last resend; the drain limit at D + 8 and before, the scrub at D + 10, the end. -/
theorem witness_walks_migrations_and_extents :
    (mapped.die 0).ok = true ∧ (mapped.part 0).live = true ∧
    (∀ src ∈ [WalkSrc.stroke 0 2, .fabric 0], mapped.walksOn src 0x3000 0 = true ∧ mapped.walksOn src 0x3000 1 = false) ∧ mapped.walk 0 0x3000 { r := true } = .pa 0x3000 0 0x200000 ∧
    mapped.walk 0 0x200000 { r := true } = .fault 0 2 ∧
    ({ mapped with dir := [(0x2000 / 64, { st := .x })] } : State).walk 0 0x3000 { r := true } = .blocked 0x2000 ∧
    (let s := { mapped with
       mem := { array := mapped.mem.array ++ [(0x2008, 0x3F), (0x200C, 0x08), (0x9000, 1), (0x9001, 9)] }
       parts := [(0, { mapped.part 0 with remoteBase := 0x9000, peerKeys := [(0, { ep := 9, loaded := true })] })]
       extents := [(0, { st := .active, root := true, blocks := (List.range 2).map (fun b => { block := b, cert := true }) })] }
     s.walk 0 0x200000 { r := true } = .migrate 0x2008 0x80000003F 0 0x200000 ∧
     (((s.onWalker 0 (fun _ => { part := 0, pva := 0x200000, out := some (.migrate 0x2008 0x80000003F 0 0x200000) })).noteWalk 0 0 0x200000
       (.migrate 0x2008 0x80000003F 0 0x200000)).startMigration 0 0x200000 0x2008 0x80000003F 0 0x200000).isSome = true) ∧
    (∃ k : Fin 48, (({ mapped with dies := [(0, { ok := false })] } : State).die (k.val / 12)).ok = false) ∧
    (let s := migrating id
     (s.migrations.find? (fun m => m.part = 0 && m.pva = 0x200000 && m.running)).isSome = true ∧ 3072 ∉ ([] : List Nat) ∧ 3072 % 1024 = 0 ∧ 3072 < 4096) ∧
    (let s := migrating (fun m => { m with left := 0 })
     s.heldAway 0x2008 8 = false ∧ s.readWord 0x2008 = (BitVec.ofNat 64 0x20000003F, false) ∧ 0x20000003F < 2 ^ 64) ∧
    (let s := migrating (fun m => { m with left := 0, entry := 1 }); (s.readWord 0x2008).1.toNat ≠ 1) ∧
    (let s := migrating id; (s.net.out.find? (fun q => q.part = 0 && q.pva = 0x200000 && !q.failed)).any (fun q => decide (q.resends < 3) &&
       decide (q.sent + s.rst.timeout ≤ s.rnd.counter)) = true) ∧
    (let s := { migrating id with rst := { mode := .service, timeout := 11 } }
     (s.net.out.find? (fun q => q.part = 0 && q.pva = 0x200000 && !q.failed)).any (fun q => decide (s.rnd.counter < q.sent + s.rst.timeout)) = true) ∧
    (let x := (ending id).extent 6; x.st = .draining ∧ x.swept = false ∧ x.since + 8 ≤ (ending id).rnd.counter) ∧
    (let s := ending (fun x => { x with since := 3 }); s.rnd.counter < (s.extent 6).since + 8) ∧
    (let s := ending (fun x => { x with since := 0, swept := true }); (s.extent 6).since + 10 ≤ s.rnd.counter ∧ (s.extent 6).swept = true) ∧
    (let s := ending (fun x => { x with since := 1, swept := true }); s.rnd.counter < (s.extent 6).since + 10) ∧
    (let s := ending (fun x => { x with st := .scrubbing }); (s.extent 6).st = .scrubbing ∧ (s.extent 6).undone = []) ∧
    (let s := ending (fun x => { x with st := .scrubbing, undone := [9] }); (s.extent 6).undone ≠ []) := by decide +kernel

/-- R130: the migration's end clears RB and REMOTE of its leaf. -/
theorem test_migration_complete : let t := go (.migrationComplete 0 0x200000) (migrating (fun m => { m with left := 0 }))
    ((t.readWord 0x2008).1, t.migrations) = (0x20000001F, []) := by decide +kernel
/-- R141: at D + 10 the extent is SCRUBBING with its block to be scrubbed. -/
theorem test_scrubbing_entry : let t := go (.extentScrubbingEntry 6) (ending (fun x => { x with since := 0, swept := true }))
    ((t.extent 6).st, (t.extent 6).undone) = (.scrubbing, [9]) := by decide +kernel

/-- Half 0 with a block in scrub. -/
def scrubbing (f : ScrubCur → ScrubCur) (e : List (Nat × Extent) := []) : State :=
  { mapped with pool0 := { cur := some (f { block := 9, done := 8 }) }, extents := mapped.extents ++ e }

/-- A block written whole, a CLEAN one, one that failed once, one granted to an extent, one of which an eighth is not written. The last line of the pool and the
first byte past it; a line that awaits its verify read with its record; reconstructions that succeed and fail. -/
theorem witness_pool_line_reads_and_scrub :
    (let s := scrubbing id; (s.pool 0).cur = some { block := 9, done := 8 } ∧ 8 ≤ 8) ∧
    ((scrubbing (fun c => { c with rewrite := true })).pool 0).cur = some { block := 9, done := 8, rewrite := true } ∧
    (let s := scrubbing (fun c => { c with failed := true }) [(7, { st := .active, blocks := [{ block := 9 }] })]
     (s.pool 0).cur = some { block := 9, done := 8, failed := true } ∧ (s.extentsOf 9).filter (fun e => (s.extent e).st == .active || (s.extent e).st == .draining) = [7]) ∧
    ((scrubbing (fun c => { c with done := 7 })).pool 0).cur = some { block := 9, done := 7 } ∧
    (let pa := paEnd - 1
     pa < paEnd ∧ paEnd ≤ pa + 1 ∧ mapped.rst.mode.runs = true ∧ mapped.halfDead (homeHalf pa) = false ∧ mapped.unitLost pa = false) ∧
    (let dec := fun (s : State) (err : SymErrs) (came : Option Nat) =>
       let u := (s.drainLine 0x4000).takeTurn 0x4000 0 (s.sourcePort 0x4000 0) false false
       ((u.decoded 0x4000 (u.returned (came.getD 0x4000) err)).1, u.rst.mode)
     dec mapped [] none = (.clean, .service) ∧ dec mapped [(3, 7)] none = (.ce 1, .service) ∧ dec mapped [(3, 7), (4, 1), (71, 9)] none = (.ce 3, .service) ∧
     dec mapped [(3, 7), (70, 1)] none = (.ce 2, .service)) ∧
    ({ mapped with rst := { mode := .test } } : State).rst.mode.runs = true ∧
    (∀ e ∈ [(([] : SymErrs), true, true), ([(3, 7)], false, false)],
     let s := mapped.onHalf 0 (fun x => { x with verify := [0x4000 / 64], log := { pa := 0x4000, seq := 1, type := 1 } ::
       (if e.2.1 then [{ pa := 0x4000, seq := 2, type := 7 }] else []) })
     let v := s.onHalf 0 (fun x => { x with verify := setDel x.verify (0x4000 / 64) })
     s.mapPa 0x4000 / 64 ∈ (s.half 0).verify ∧ decide ((v.decoded 0x4000 (v.returned 0x4000 e.1)).1 = .clean) = e.2.2 ∧
     ((v.half 0).log.reverse.find? (fun r => r.pa = 0x4000 && (r.type == 0x01 || r.type == 0x02))).isSome = true ∧
     (v.half 0).log.any (fun r => r.pa = 0x4000 && r.type == 0x07) = e.2.1) ∧
    mapped.mapPa 0x4000 / 64 ∉ (mapped.half 0).verify ∧
    (let a := mapped.mapPa 0x4000
     let v0 := (mapped.releaseRand (homeHalf a) (randOf a)).onMem (fun m => m.applyDeltas (homeHalf a) (randOf a))
     let u := v0.countUe 0x4000
     mapped.rst.mode = .service ∧ mapped.halfDead (homeHalf a) = false ∧ a / 64 ∉ mapped.mem.poison ∧ u.rst.mode = .service ∧
     unitOf a ∉ v0.lostUnits (homeHalf a) (randOf a) ∧
     u.canReconstruct (homeHalf a) (randOf a) (unitOf a) (a / 64 % 4) [] = true ∧
     u.canReconstruct (homeHalf a) (randOf a) (unitOf a) (a / 64 % 4) [(unitOf a + 1) % 8] = false) ∧
    ({ mapped with mem := { mapped.mem with poison := [0x100] } } : State).mapPa 0x4000 / 64 = 0x100 := by decide +kernel

/-- R188: a marked line of zeros at address 0 is read as marked. -/
theorem reads_mark (u : State) (hm : u.mapPa 0 = 0) (hs : u.mem.stored 0 64 = List.replicate 64 0)
    (hp : (0 : Nat) ∈ u.mem.poison) : (u.decoded 0 (u.returned 0 [])).1 = .mark := by
  have hr : randOf 0 = 0 := by decide
  simp only [State.decoded, State.returned, Nat.zero_div, Nat.zero_mul, Nat.zero_mod, hm, hs, hp, hr, decide_true, disturb_nil,
    storedSymbols_mark, decodeLine_mark]

/-- R180: a line of zeros that comes from address 64 for a read of address 0 is uncorrectable. -/
theorem reads_other (u : State) (hm : u.mapPa 0 = 0) (hn : u.mapPa 64 = 64) (hs : u.mem.stored 64 64 = List.replicate 64 0)
    (hp : (1 : Nat) ∉ u.mem.poison) : (u.decoded 0 (u.returned 64 [])).1 = .ue := by
  have hr : randOf 0 = 0 := by decide
  have hq : randOf 64 = 0 := by decide
  simp only [State.decoded, State.returned, Nat.zero_div, Nat.zero_mul, Nat.zero_mod, Nat.reduceDiv, Nat.reduceMul, Nat.reduceMod,
    hm, hn, hs, hp, hr, hq, decide_false, disturb_nil, decodeLine_misread]

/-- A marked line and a line from another address, in SERVICE and in TEST. -/
theorem witness_marked_and_misdirected_lines :
    (let s := { mapped with mem := { array := [], poison := [0] } }
     let u := (s.drainLine 0).takeTurn 0 0 (s.sourcePort 0 0) false false
     (u.decoded 0 (u.returned 0 [])).1 = .mark ∧ u.rst.mode = .service ∧ (u.decoded 0 (u.returned 64 [])).1 = .ue ∧ s.unitLost 0 = false) ∧
    (let s := { mapped with mem := { array := [], poison := [0] }, rst := { mode := .test } }
     let u := (s.drainLine 0).takeTurn 0 0 (s.sourcePort 0 0) false false
     (u.decoded 0 (u.returned 0 [])).1 = .mark ∧ u.rst.mode = .test ∧ (u.decoded 0 (u.returned 64 [])).1 = .ue ∧ s.rst.mode.runs = true) :=
  ⟨⟨reads_mark _ (by decide +kernel) (by decide +kernel) (by decide +kernel), by decide +kernel,
    reads_other _ (by decide +kernel) (by decide +kernel) (by decide +kernel) (by decide +kernel), by decide +kernel⟩,
   ⟨reads_mark _ (by decide +kernel) (by decide +kernel) (by decide +kernel), by decide +kernel,
    reads_other _ (by decide +kernel) (by decide +kernel) (by decide +kernel) (by decide +kernel), by decide +kernel⟩⟩

/-- R24: the first address past the pool stops the machine. -/
theorem test_unbacked : exec (.memReadDecode 0x018000000000 [] none 0 {}) mapped = .fault (.unbackedAddress 0x018000000000) ∧
    (go (.memReadDecode 0x017FFFFFFFFF [] none 0 {}) mapped).half1.log = [] := ⟨rfl, by decide +kernel⟩
/-- R147: the first failed read-back scrubs the block again, with a record of type 0x08. -/
theorem test_scrub_readback : let t := go (.scrubBlockReadback 0 false) (scrubbing id)
    ((t.pool 0).cur, (t.half 0).log.map (·.type)) = (some { block := 9, done := 0, failed := true }, [8]) := by decide +kernel
/-- R145: a block that reads back is certified at the next boundary. -/
theorem test_scrub_certifies : ((go (.scrubBlockReadback 0 true) (scrubbing id)).pool 0).certNow = [(9, false)] := by decide +kernel

/-- A bank that is postponed 7 and 8 times, or not; a half asleep; temperatures at and beside the switch; 999 and 1,000 rounds without a touch; rounds at
and before 50 µs; a full and a nearly full metadata buffer. -/
theorem witness_rows_refresh_and_self_refresh :
    (let b : BankId := {}
     let s := fun n => mapped.onBank b (fun x => { x with postponed := n })
     (mapped.half (bankHalf b)).refresh ≠ .asleep ∧ 0 < ((s 7).bankSt b).postponed ∧ ((s 7).bankSt b).postponed < 8 ∧ ((s 7).bankSt b).row = none ∧
     8 ≤ ((s 8).bankSt b).postponed ∧ ((s 0).bankSt b).postponed = 0 ∧ (s 7).bankQueued b = false ∧
     ((s 7).bankSt b).due ≤ (s 7).cnt.clock / 17 + 100 * (s 7).rnd.micros ∧
     (let t := mapped.onBank b (fun x => { x with due := 10 ^ 6 }); t.cnt.clock / 17 + 100 * t.rnd.micros < (t.bankSt b).due)) ∧
    ((mapped.onHalf 0 (fun x => { x with refresh := .asleep })).half 0).refresh = .asleep ∧ (83 : Nat) < 85 ∧ (85 : Nat) < 86 ∧
    (let s := { (mapped.onHalf 1 (fun x => { x with idle := 1000 })) with pool1 := { sweep := 376832 } }
     (s.pool 1).anyDirty = false ∧ 1000 ≤ (s.half 1).idle ∧ (s.half 1).touched = false ∧ (s.half 1).refresh = .active ∧ (s.half 1).rebuilding = false ∧ (s.half 1).moving = none ∧ (s.half 1).copies = [] ∧
     s.dir.any (fun e => homeHalf (e.1 * 64) = 1 && e.2.st == .busy) = false ∧
     s.stacksBusy 1 = false) ∧
    (mapped.half 1).idle < 1000 ∧
    (let s := { (mapped.onHalf 0 (fun x => { x with refresh := .waking, wakeFrom := 10 })) with rnd := { counter := 35 } }
     (s.half 0).refresh = .waking ∧ 50 < (s.rnd.counter - (s.half 0).wakeFrom + 1) * s.rnd.micros) ∧
    (let s := { (mapped.onHalf 0 (fun x => { x with refresh := .waking, wakeFrom := 10 })) with rnd := { counter := 34 } }
     (s.rnd.counter - (s.half 0).wakeFrom + 1) * s.rnd.micros ≤ 50) ∧
    (let s := mapped.onHalf 0 (fun x => { x with refresh := .asleep, metaBuf := 3145728 })
     (s.half 0).refresh = .asleep ∧ 3145728 ≤ (s.half 0).metaBuf) := by decide +kernel

/-- R172: a due refresh of a bank at the single rate moves its due time on by 3.9 µs. -/
theorem test_refresh_due : ((go (.refreshDue {}) mapped).bankSt {}) = { postponed := 1, due := 390 } := by decide +kernel
/-- R173: 86 °C doubles the stack's rate. -/
theorem test_refresh_rate : ((go (.refreshRateSwitch 3 86) mapped).stack 3).hot = true ∧ ((go (.refreshRateSwitch 3 85) mapped).stack 3).hot = false := by
  decide +kernel

/-- Weaver 3 idle, with a run, with three and two lines in error, and three and two register errors; dies that work, have failed and are declared; transfers
saved and exhausted; stacks silent twice and once; rebuilds at the credit of a rand and below; a copy, and a bank at its last unit. -/
theorem witness_failed_weavers_dies_paths_and_stacks :
    ((mapped.weaver 3).st = .active ∧ (mapped.weaver 3).run = none ∧ (mapped.weaver 3).deque = [] ∧ mapped.poolReqs = []) ∧
    (∀ n ∈ [2, 3], let s := { mapped with weavers := [(3, { ueLines := (List.range n).map (fun k => (k + 5, 9)) })] }
      (((s.weaver 3).ueLines.filter (fun u => u.1 ≠ 0 && decide (s.rnd.counter < u.2 + 4096))) ++ [(0, s.rnd.counter)]).length = n + 1) ∧
    (let s := on3 (runAt 0 {})
     (s.weaver 3).st = .active ∧ (s.weaver 3).run ≠ none) ∧
    (let s := { mapped with weavers := [(3, { st := .retired })] }; (s.weaver 3).st ≠ .active) ∧
    ((mapped.die 1).ok = true ∧ (mapped.die 1).failed = none) ∧
    (let s := { mapped with dies := [(1, { failed := some 9 })] }; (s.die 1).ok = true ∧ (s.die 1).failed = some 9 ∧ 9 < s.rnd.counter) ∧
    (let s := { mapped with dies := [(1, { ok := false, failed := some 9, resync := true })] }; (s.die 1).ok = false ∧ (s.die 1).resync = true) ∧
    (mapped.die 1).resync = false ∧ (dieStacks 1).any (fun n => (mapped.stack n).resync) = false ∧
    (let fails := fun (tries : List (List (U32 × Bool))) => ((tries.take 4).takeWhile (fun t => !t.all wordOk)).length
     fails [] = 0 ∧ fails [[(1, true)], [(1, false)]] ∈ [0, 1] ∧ fails [[(1, true)], [(1, false)]] + fails [[(1, false)], [(1, true)]] = 1 ∧
     fails (List.replicate 4 [(1, true)]) + fails (List.replicate 4 [(1, false)]) = 4) ∧
    ((mapped.stack 19).failed = false ∧ (mapped.stack 19).missP < 2) ∧
    (let s := mapped.onStack 19 (fun x => { x with missP := 2, missS := 2 }); 2 ≤ (s.stack 19).missP ∧ 2 ≤ (s.stack 19).missS) ∧
    ((mapped.onStack 19 (fun x => { x with failed := true })).stack 19).failed = true ∧
    (let s := (mapped.onStack 0 (fun x => { x with failed := true })).onHalf 0 (fun y => { y with failed := [0], rebuilding := true, credit := 100, holdsCh6 := true })
     (s.half 0).rebuilding = true ∧ 100 ≤ (s.half 0).credit ∧ (s.half 0).holdsCh6 = true ∧ (s.half 0).moving = none ∧ (s.half 0).cursor < randCount ∧
     s.skipRands 0 64 0 < randCount ∧ (s.toRebuild 0 (rebuildRandAt (s.skipRands 0 64 0))).isSome = true) ∧
    (mapped.half 0).rebuilding = false ∧
    (let s := mapped.onHalf 0 (fun y => { y with copies := [{ page := 0x5000, repl := 3 }] }); (s.half 0).copies = { page := 0x5000, repl := 3 } :: []) ∧
    (mapped.half 0).copies = [] ∧ (mapped.half 0).moving = none ∧ 131072 ≤ skipSlots {} 16 131072 ∧ skipSlots {} 16 0 + 1 < 131072 := by decide +kernel

/-- R345: the fourth register parity error within 4,096 rounds fences the weaver with cause 4. -/
theorem test_register_parity : let s := on3 (runAt 0 {})
    let t := go (.registerParityError 3) (s.onWeaver 3 (fun x => { x with regErrs := [1, 2, 3] }))
    ((t.weaver 3).st, (t.weaver 3).cause, (t.weaver 3).run) = (.fenced, 4, none) := by decide +kernel

/-! ### Witnesses: coherence and links -/

/-- The mapped partition with window 2 over its first page for ranks 0 to 7, rank 3 at endpoint 0x33, and rank 4 dead. -/
def fabric : State := { mapped with
  parts := [(0, { mapped.part 0 with ranks := [(3, { ep := 0x33, valid := true, farAtomic := true }), (4, { ep := 0x34, valid := true, dead := true })] }),
            (1, { live := true, host := true })]
  windows := [(2, { valid := true, rd := true, wr := true, at_ := true, rankHi := 7, pvaBase := 0x3000, len := 0x1000 })] }

/-- A request of rank 3 through window 2. -/
def ask (n : Nat := 1) (off : Nat := 0) (rank : Nat := 3) : FabReq := { who := .agent 0 rank, ep := 0x30 + rank, window := 2, offset := off, rdUnits := n }

/-- The fabric's line 0xC0 is BUSY with a snoop of opcode `op` in round `r` to rank 3. -/
def busy (op : Nat) (r : Nat := 10) : State := { fabric with
  dir := [(0xC0, { st := .busy, pend := some { op := op, round := r, await := [(.agent 0 3, 0)] } })] }

/-- The region 0 whose frame 0 of extent 7 is published. -/
def published : State := { fabric with
  extents := fabric.extents ++ [(7, { st := .active, holder := 0, region := some 0, blocks := [{ block := 4, cert := true }] })]
  regions := [(0, { valid := true, exts := [7], frames := 512, versions := [{ num := 1 }], table := [(0, { born := some 1 })] })] }

/-- The fabric with a slice without a free credit whose line 0xFF is BUSY; with the page at line 0xC0 in a copy to its replacement; with a
table line that rank 5 owns; with the extent that its page lies in DRAINING. -/
def spent : State := { fabric with
  dies := [(fabric.sliceOf 0xFF, { tokens := List.range 4096 })], dir := [(0xFF, { st := .busy, pend := some { op := opSnpInv, await := [(.agent 0 5, 0)] } })] }
def copying : State := fabric.onHalf 0 (fun x => { x with copies := [{ page := 0x3000, repl := 5 }] })
def tableAway : State := { fabric with dir := [(0x2000 / 64, { st := .x, ptrs := [.agent 0 5] })] }
def leaving : State := { fabric with
  extents := fabric.extents ++ [(7, { st := .draining, holder := 0, lastHolder := 0, lhValid := true, blocks := [{ block := 4, cert := true }] })]
  mem := { array := [(0, 0x0F), (3, 0x04), (0x1000, 0x0F), (0x1003, 0x08), (0x2000, 0x1F), (0x2001, 0x70)] } }

/-- Line 0xFF served, held by its port, and without a credit. -/
theorem witness_coherent_requests :
    (let r := ask 1 0xFC0
     let c := fun (s : State) => s.fabCheck r 0 3 .rdX
     let u := (c fabric).2
     let v := u.onNet (fun n => { n with verPins := n.verPins ++ u.verPinsOf r [0xFF] })
     AgentOp.rdX.formOk r = true ∧ AgentOp.rdX.bytes r ≠ 0 ∧ (c fabric).1 = .ok [0xFF] ∧
     (v.halfDead (homeHalf (0xFF * 64)) = false ∧ v.asleepHalf (homeHalf (0xFF * 64)) = false) ∧ [0xFF].any (fun k => v.portHeld (k * 64)) = false ∧
     v.creditless r .rdX 0xFF = false ∧ ([0xFF].foldl (fun s k => s.takeTurn (k * 64) 0 r.link.val false r.hint) v).linesRefuse r [0xFF] = false ∧
     (c spent).1 = .ok [0xFF] ∧ (c spent).2.creditless r .rdX 0xFF = true ∧ (c copying).1 = .ok [0xFF] ∧ (c copying).2.portHeld (0xFF * 64) = true ∧
     (c tableAway).1 = .wait ∧ (c leaving).1 = .bad .revoked 0) ∧
    (fabric.fabCheck (ask 1 0x1000) 0 3 .rdS).1 = .bad .range 0 ∧ AgentOp.rdS.formOk (ask 1 32) = false ∧ AgentOp.rdS.formOk (ask 2) = false ∧
    (fabric.fabCheck (ask 1 0 8) 0 8 .upg).1 = .bad .perm 0 ∧ (fabric.fabCheck (ask 1 0 4) 0 4 .rdS).1 = .bad .deadAgent 0 ∧
    (AgentOp.rdNc.formOk (ask 16) = true ∧ AgentOp.rdNc.bytes (ask 16) ≠ 0) ∧ AgentOp.rdNc.formOk (ask 17) = false ∧
    (AgentOp.rdNc.formOk (ask 0) = true ∧ (ask 0).rdUnits = 0) ∧
    (fabric.fabCheck (ask 16 0xC00) 0 3 .rdNc).1 = .ok (0xF0 :: (List.range 15).map (· + 0xF1)) ∧
    (let s := { fabric with windows := [(2, { fabric.window 2 with db := true })] }; (s.fabCheck (ask 1) 0 3 .rdNc).1 = .zeros ∧ (ask 1).rdUnits ≠ 0) ∧
    (let o := AgentOp.wrNc (toBytes 1024 0) none
     o.formOk (ask 0 0xC00) = true ∧ o.bytes (ask 0 0xC00) ≠ 0 ∧ (fabric.fabCheck (ask 0 0xC00) 0 3 o).1 = .ok (0xF0 :: (List.range 15).map (· + 0xF1))) ∧
    ((AgentOp.wrNc (toBytes 63 0) none).formOk (ask 0) = false ∧ (AgentOp.wrNc [] none).formOk (ask 0) = true) ∧
    (let o := AgentOp.atom .add true 1 0
     (fabric.rank 0 3).farAtomic = true ∧ o.formOk (ask 0 0xFF8) = true ∧ (fabric.fabCheck (ask 0 0xFF8) 0 3 o).1 = .ok [0xFF] ∧ o.formOk (ask 0 0xFFC) = false) ∧
    ((fabric.rank 0 5).farAtomic = false ∧ (fabric.rank 0 5).dead = false) ∧
    published.linesRefuse (ask 1) [0x20000] = true := by decide +kernel

/-- Lines in U, in S with and without OVF, and in X; owners that ask again and that do not; three and four pointers. -/
theorem witness_directory_conflicts :
    (fabric.dirEnt 0xC0).st = .u ∧
    (let e : DirEnt := { st := .s, ptrs := [.agent 0 3, .agent 0 4, .agent 0 5] }
     let s := { fabric with dir := [(0xC0, e)] }
     (s.dirEnt 0xC0).st = .s ∧ (s.dirEnt 0xC0).ovf = false ∧ s.kindWrites (.rdNc [] [] false) = false ∧ s.kindWrites (.wrNc [] [] none .ok) = true ∧
     e.ptrs.filter (· ≠ (ask 1).who) = [.agent 0 4, .agent 0 5] ∧ Requester.agent 0 6 ∉ e.ptrs ∧ e.ptrs.length < 4) ∧
    ((({ st := .s, ptrs := [.agent 0 3, .agent 0 4, .agent 0 5, .agent 0 7] } : DirEnt)).ptrs.length = 4 ∧ (PendKind.rdS ≠ .rdX ∧ PendKind.rdS ≠ .upg)) ∧
    (let s := { fabric with dir := [(0xC0, { st := .s, ovf := true })] }; (s.dirEnt 0xC0).st = .s ∧ (s.dirEnt 0xC0).ovf = true) ∧
    (let s := { fabric with dir := [(0xC0, { st := .x, ptrs := [.agent 0 4] })] }
     (s.dirEnt 0xC0).st = .x ∧ (s.dirEnt 0xC0).ptrs.head? = some (.agent 0 4) ∧ Requester.agent 0 4 ≠ (ask 1).who) := by decide +kernel

/-- A snoop to rank 3 awaited by each opcode; the owner of a line, a line that is free, two sharers. -/
theorem witness_atomics_snoops_and_write_backs :
    ((5 : Nat) < 2 ^ 32 ∧ 2 ^ 32 - 1 < 2 ^ 32 ∧ fabric.frameRefuses 0 0x3000 = false ∧ (fabric.fetchLine 0x3000).1.2 = false) ∧
    (let s := { fabric with mem := { fabric.mem with poison := [0xC0] } }; s.frameRefuses 0 0x3000 = false ∧ (s.fetchLine 0x3000).1.2 = true ∧ s.mem.atoms = []) ∧
    (let k : AtomLog := { who := .agent 0 3, tag := 9, stack := (fabric.slotOf 0x3000).1, rand := randOf (fabric.mapPa 0x3000), old := [1] }
     let s := { fabric with mem := { fabric.mem with atoms := [k] } }
     s.frameRefuses 0 0x3000 = false ∧ s.mem.atoms.find? (fun x => x.who = .agent 0 3 && x.tag = 9 && x.stack = (s.slotOf 0x3000).1 &&
       x.rand = randOf (s.mapPa 0x3000)) = some k) ∧
    published.frameRefuses 0 0x800FFF = true ∧
    (∀ op ∈ [opSnpInv, opSnpFwdS, opSnpFwdX, opSnpRecall, opSnpClean], (busy op).awaits 0xC0 (.agent 0 3) = true ∧ (busy op).pendOp 0xC0 = op) ∧
    fabric.awaits 0xC0 (.agent 0 3) = false ∧ ((busy opSnpFwdS).dirEnt 0xC0).pend.all (fun q => q.owner.isNone) = true ∧
    (({ busy opSnpFwdS with dir := [(0xC0, { st := .busy, pend := some { op := opSnpFwdS, owner := some (.agent 0 3) } })] } : State).dirEnt 0xC0).pend.all
      (fun q => q.owner.isNone) = false ∧
    ({ fabric with net := { fabric.net with lateData := [(.agent 0 3, 0xC0)] } } : State).sweptLine (.agent 0 3) 0xC0 = true ∧
    (let s := { fabric with dir := [(0xC0, { st := .x, ptrs := [.agent 0 3] })] }
     (s.rank 0 3).dead = false ∧ (s.dirEnt 0xC0).st = .x ∧ (s.dirEnt 0xC0).ptrs.head? = some (.agent 0 3)) ∧
    (fabric.rank 0 4).dead = true ∧ (fabric.dirEnt 0xC0).st = .u ∧ fabric.sweptLine (.agent 0 3) 0xC0 = false ∧
    (let s := { fabric with dir := [(0xC0, { st := .s, ptrs := [.agent 0 3, .agent 0 5] })] }
     (s.dirEnt 0xC0).st = .s ∧ Requester.agent 0 3 ∈ (s.dirEnt 0xC0).ptrs ∧ Requester.agent 0 6 ∉ (s.dirEnt 0xC0).ptrs) := by decide +kernel

/-- R236: the write-back of the owner frees the line and puts its bytes into memory. -/
theorem test_write_back : let t := go (.wb (.agent 0 3) 0xC0 true false (toBytes 64 0xAB) false) { fabric with dir := [(0xC0, { st := .x, ptrs := [.agent 0 3] })] }
    ((t.dirEnt 0xC0).st, (t.readWord 0x3000).1) = (.u, 0xAB) := by decide +kernel
/-- R223: EVICT of the last pointer frees the line. -/
theorem test_evict : ((go (.evict 0 3 0xC0) { fabric with dir := [(0xC0, { st := .s, ptrs := [.agent 0 3] })] }).dirEnt 0xC0).st = .u := by decide +kernel

/-- Snoops 4 and 3 rounds old, and 20; an endpoint without a path for 16 rounds and 15; a line held 4 rounds for its token and 3. Publishes that may end
and may not; versions below PIN_VERSION and at it; a region from D + 8 on. -/
theorem witness_probes_dead_agents_and_versions :
    (((busy opSnpInv 6).dirEnt 0xC0).pend.isSome = true ∧ (busy opSnpInv 6).rnd.counter - 6 = 4 ∧ (busy opSnpInv 7).rnd.counter - 7 < 4 ∧
     (fabric.dirEnt 0xC0).pend = none) ∧
    (let s := { busy opSnpInv 6 with rnd := { counter := 26 } }
     (s.rank 0 3).valid = true ∧ (s.rank 0 3).dead = false ∧ s.snoopOverdue 0 3 = true) ∧
    (let s := { busy opSnpInv 6 with rnd := { counter := 25 } }; s.snoopOverdue 0 3 = false ∧ s.net.noPath.look 0 0x33 < 16) ∧
    (let s := { fabric with net := { fabric.net with noPath := [(0x33, 16)] } }; 16 ≤ s.net.noPath.look 0 (s.rank 0 3).ep) ∧
    (fabric.rank 0 4).dead = true ∧
    (∀ f ∈ [6, 7], let s := { fabric with dir := [(0xC0, { tokens := [{ token := 1 }], heldFrom := some f })] }
     (s.dirEnt 0xC0).tokens = [{ token := 1 }] ∧ (s.dirEnt 0xC0).heldFrom = some f ∧ (f + 4 ≤ s.rnd.counter ↔ f = 6) ∧ (s.dirEnt 0xC0).st ≠ .busy) ∧
    (({ fabric with dir := [(0xC0, { st := .busy, tokens := [{ token := 1 }], heldFrom := some 6 })] } : State).dirEnt 0xC0).st = .busy ∧
    (let s := { fabric with regions := [(0, { valid := true, publishing := [(3, 5, 9, 1)] })] }
     (s.region 0).publishing = (3, 5, 9, 1) :: [] ∧ 9 ≠ 0 ∧ 9 < s.rnd.counter ∧
     s.dir.any (fun e => e.2.pend.any (fun q => q.kind == .publish 0) || e.2.waiting.any (fun w => w.2 == .publish 0)) = false) ∧
    (fabric.region 0).publishing = [] ∧
    (let s := { fabric with regions := [(0, { valid := true, pinVersion := 2, versions := [{ num := 1 }, { num := 2 }] })] }
     (s.region 0).versions.find? (fun y => y.num = 1) = some { num := 1 } ∧ 1 < (s.region 0).pinVersion ∧ (s.region 0).pinVersion ≤ 2 ∧
     s.net.verPins.any (fun q => q.2 = (0, 1) && s.outstanding q.1) = false) ∧
    (let s := { fabric with net := { fabric.net with verPins := [(ask 1, 0, 1)], parked := [{ req := ask 1, op := .rdS, pva := 0x3000 }] } }
     s.net.verPins.any (fun q => q.2 = (0, 1) && s.outstanding q.1) = true) ∧
    (let s := { fabric with regions := [(0, { valid := true, destroying := some 2 })] }
     (s.region 0).destroying = some 2 ∧ (s.region 0).valid = true ∧ 2 + 8 ≤ s.rnd.counter) ∧ (fabric.region 0).destroying = none := by decide +kernel

/-- Link 5 with the record x. -/
def onL (x : Link) : State := { fabric with links := [(5, x)] }

/-- A link UP, in PROBATION and dark; the expected SEQ and the one after; NAKs outstanding or not; a packet that has waited 8 rounds and 7. -/
theorem witness_link_packets_and_control_blocks :
    (∀ st ∈ [LState.up, .probation, .paused], ((onL { st := st, expect := 65535 }).link 5).trainedUp = true ∧ ((onL { st := st, expect := 65535 }).link 5).expect = 65535) ∧
    ((65535 : Nat) ≠ 0 ∧ ((onL { st := .up }).link 5).naking = false ∧ ((onL { st := .up, naking := true }).link 5).naking = true) ∧
    ((onL {}).link 5).trainedUp = false ∧
    (∀ r ∈ [2, 3], let e : Input := { vc := 7, round := r }
     (onL { st := .up, inputs := [e] }).oldest 5 (7 : Fin 8).val = some e ∧ (e.round + 8 ≤ (onL { st := .up, inputs := [e] }).rnd.counter ↔ r = 2)) ∧
    (onL { st := .up }).oldest 5 0 = none ∧ ((onL { st := .up }).link 5).st ≠ .paused ∧
    blockOk (List.replicate 14 0 ++ toBytes 2 (crc16 (List.replicate 14 0)).toNat) = true ∧ blockOk (List.replicate 16 0) = false ∧
    ((onL { st := .training }).link 5).st = .training := by decide +kernel

/-- A good training block, and one with a bad CRC; lights on three and four lanes; samples 63 and 64; rounds of probation 3 and 4. -/
theorem witness_link_training :
    (let x := (onL {}).link 5; x.st = .dark ∧ x.slow = false ∧ 4 ≤ litCount 0xF0 ∧ litCount 0x70 < 4) ∧
    (let x := (onL { st := .training, stage := 2, lit := 0x0F }).link 5
     let b : TrainBlock := { laneMask := 0x0F, endpoint := 9, vcUnits := 17 }
     x.st = .training ∧ x.trained = false ∧ x.stage ≠ 5 ∧ b.crcOk = true ∧ b.majorMin ≤ 1 ∧ 1 ≤ b.majorMax ∧ b.rsvd = false ∧ 17 ≤ b.vcUnits ∧
     4 ≤ litCount (x.lit &&& b.laneMask) ∧ b.confirm = false ∧ x.confirmed = false ∧ ({ b with crcOk := false } : TrainBlock).crcOk = false) ∧
    (∀ n ∈ [63, 64], let x := (onL { st := .training, stage := 5, samples := List.replicate n 8 }).link 5
     x.st = .training ∧ x.stage = 5 ∧ (x.samples.length = 64 ↔ n = 64)) ∧
    (let x := (onL { st := .paused }).link 5; x.st = .paused ∧ x.samples.length < 64) ∧ ((onL { st := .up }).link 5).st = .up ∧
    (∀ n ∈ [3, 4], let x := (onL { st := .probation, clean := n }).link 5; x.st = .probation ∧ (4 ≤ x.clean ↔ n = 4)) := by decide +kernel

/-- Stages under way; a link in its slow retries at 65,536 rounds; an eighth declaration within 4,096 rounds; a link in HOLD. -/
theorem witness_link_loss_and_hold :
    (let x := (onL { st := .training, stage := 3 }).link 5; x.st = .training ∧ x.trained = false) ∧
    (let s := { onL { slow := true, lit := 0x0F, holdFrom := 1 } with rnd := { counter := 65537 } }
     let x := s.link 5
     x.st = .dark ∧ x.slow = true ∧ x.holdFrom + 65536 ≤ s.rnd.counter ∧ 4 ≤ litCount x.lit) ∧ (fabric.rnd.counter < ((onL {}).link 5).holdFrom + 65536) ∧
    ((onL { st := .paused }).link 5).st = .paused ∧ ((onL {}).link 5).trainedUp = false ∧
    (let s := onL { st := .up, downs := List.replicate 7 9 }
     let x := s.link 5
     x.trainedUp = true ∧ 8 ≤ (x.downs.filter (fun r => decide (s.rnd.counter < r + 4096))).length + 1) ∧
    (let s := { onL { st := .hold, holdFrom := 1 } with rnd := { counter := 65537 } }
     (s.link 5).st = .hold ∧ (s.link 5).holdFrom + 65536 ≤ s.rnd.counter) := by decide +kernel

/-- R370, R372: light starts a training of stage 1 upward; four clean rounds bring a link UP. -/
theorem test_link_up : ((go (.lightDetect 5 0xFF) (onL {})).link 5).st = .training ∧ ((go (.linkUp 5) (onL { st := .probation, clean := 4 })).link 5).st = .up ∧
    ((go (.linkUp 5) (onL { st := .probation, clean := 3 })).link 5).st = .probation := by decide +kernel
/-- R376, R377: the eighth declaration within 4,096 rounds puts a link in HOLD. -/
theorem test_link_hold : ((go (.heartbeatTimeout 5) (onL { st := .up, downs := List.replicate 7 9 })).link 5).st = .hold ∧
    ((go (.heartbeatTimeout 5) (onL { st := .up, downs := List.replicate 6 9 })).link 5).st = .dark := by decide +kernel

/-- A packet to send again; a lane whose loss leaves four and one whose loss leaves three; retrains asked for and done; a lane clean for 4,096 rounds. -/
theorem witness_lanes_and_retraining :
    (let x := (onL { st := .up, replay := [(3, {}, 1)], naking := true }).link 5
     x.st = .up ∧ x.replay ≠ [] ∧ x.trainedUp = true ∧ x.naking = true) ∧ ((onL {}).link 5).replay = [] ∧ ((onL {}).link 5).naking = false ∧
    (∀ v ∈ ([0x1F, 0x0F] : List Nat), let x := (onL { st := .up, lanes := BitVec.ofNat 8 v }).link 5
     x.st = .up ∧ x.lanes.getLsbD (0 : Fin 8).val = true ∧ (4 ≤ litCount (x.lanes &&& ~~~((1 : BitVec 8) <<< (0 : Fin 8).val)) ↔ v = 0x1F)) ∧
    ((onL {}).link 5).trainedUp = false ∧ 4 ≤ litCount 0x0F ∧ litCount 0x07 < 4 ∧
    (let x := (onL { st := .paused, lanes := 0x0F, newMask := 0x0F }).link 5; x.st = .paused ∧ x.prob = false ∧ x.lanes = x.newMask) ∧
    (let x := (onL { st := .up, removed := 0x80, laneClean := [(7, 4096)] }).link 5
     x.st = .up ∧ x.removed.getLsbD (7 : Fin 8).val = true ∧ 4096 ≤ x.laneClean.look 0 (7 : Fin 8).val ∧ x.widened = 0) ∧
    ((onL {}).link 5).laneClean.look 0 (0 : Fin 8).val < 4096 := by decide +kernel

/-! ### Witnesses: the fabric and the rim -/

/-- Partition 0 with a session attempt y. -/
def attempt (y : Session) : State := { mapped with parts := [(0, { mapped.part 0 with session := some y })] }

/-- Three and four starts within 1,024 rounds; an attempt with one of two fragments and with both; a CONFIRM due at 256 rounds and before; a generation
whose counter passed 2^31, and a previous one whose boundary is now and next. -/
theorem witness_sessions_and_key_generations :
    (∀ n ∈ [3, 4], let s := { mapped with parts := [(0, { mapped.part 0 with starts := List.replicate n 9 })] }
     (s.part 0).live = true ∧ s.leaseHeld = true ∧ (s.part 0).session = none ∧ ((s.recentStarts 0).length < 4 ↔ n = 3)) ∧
    ((mapped.part 2).live = false ∧ State.reset.leaseHeld = false) ∧
    (let s := attempt { sid := 5, ep := 9, frags := 1, total := 2 }
     let y : Session := { sid := 5, ep := 9, frags := 1, total := 2 }
     (s.part 0).session = some y ∧ (s.part 0).live = true ∧ s.leaseHeld = true ∧ y.sid = 5 ∧ y.sid ≠ 6 ∧ y.offer = none ∧ 1 = y.frags ∧ 1 < y.total) ∧
    (let y : Session := { sid := 5, frags := 2, total := 2 }; ((attempt y).part 0).session = some y ∧ y.offer = none ∧ y.total ≤ y.frags) ∧
    (∀ r ∈ [10, 11], let s := { attempt { sid := 5, offer := some r } with rnd := { counter := 266 } }
     (s.part 0).session.map (·.offer) = some (some r) ∧ (s.part 0).session.map (·.ss) = some none ∧ (r + 256 ≤ s.rnd.counter ↔ r = 10)) ∧
    (let s := { mapped with parts := [(0, { mapped.part 0 with gen := some 0xFFFFFFFF, ctrHigh := true })] }
     (s.part 0).gen = some 0xFFFFFFFF ∧ (s.part 0).ctrHigh = true) ∧ (mapped.part 0).ctrHigh = false ∧
    (∀ d ∈ [10, 11], let s := { mapped with parts := [(0, { mapped.part 0 with prevGen := true, dropAt := some d })] }
     (s.part 0).dropAt = some d ∧ (d ≤ s.rnd.counter ↔ d = 10)) := by decide +kernel

/-- R474: a generation advances, modulo 2^32, and the one before it stays. -/
theorem test_key_generation : let t := go (.keyGenerationAdvance 0) { mapped with parts := [(0, { mapped.part 0 with gen := some 0xFFFFFFFF, ctrHigh := true })] }
    ((t.part 0).gen, (t.part 0).prevGen) = (some 0, true) := by decide +kernel

/-- A flow x of partition 0. -/
def flowing (x : Flow) : State := { mapped with net := { mapped.net with flows := [x] } }

/-- Flows with a parked request whose count is reached and is not; that wait one round less than the limit and the limit; silent for 1,024 rounds and
1,023; a notice of a count. -/
theorem witness_agent_puts_and_flows :
    ((mapped.part 0).live = true ∧ (mapped.part 2).live = false) ∧
    (∀ n ∈ [4, 5], let x := (flowing { cur := n, park := some ({ aux := 5 }, 3) }).flow {}
     x.park = some ({ aux := 5 }, 3) ∧ (({ aux := 5 } : Packet).aux ≤ x.cur ↔ n = 5)) ∧
    (∀ k ∈ [0, 1], let s := { flowing { cur := 4, park := some ({ aux := 5 }, 3), waitFrom := some (3 + k) } with rnd := { counter := 3 + mapped.rst.flagWait } }
     (s.flow {}).waitFrom = some (3 + k) ∧ (3 + k + s.rst.flagWait ≤ s.rnd.counter ↔ k = 0)) ∧
    (∀ r ∈ [1, 2], let s := { flowing { last := r } with rnd := { counter := 1025 } }; ((s.flow {}).last + 1024 ≤ s.rnd.counter ↔ r = 1)) ∧
    (let s := { mapped with net := { mapped.net with notices := [({}, false, 1)] } }
     ((s.net.notices.filter (fun e => e.1 = {} && e.2.1 = false)).take 1).length = 1) := by decide +kernel

/-- R413: a flow silent for 1,024 rounds is forgotten. -/
theorem test_flow_forget : (go (.flowForget {}) { flowing { last := 1 } with rnd := { counter := 1025 } }).net.flows = [] := by decide +kernel

/-- The fabric changed by f in its fabric state. -/
def netted (f : NetSt → NetSt) : State := { fabric with net := f fabric.net }

/-- A state that is new and one already known; a table that is stale; orientations at their boundary and before; an endpoint silent for 16 rounds and 15; a full tree
table; a combined answer after 4 rounds and 3. -/
theorem witness_routes_and_combined_answers :
    (fabric.rnd.endpoint ≠ 9 ∧ fabric.net.db.look {} 9 ≠ { origin := 9 } ∧ (netted (fun n => { n with db := [(9, { origin := 9 })] })).net.db.look {} 9 = { origin := 9 }) ∧
    (∀ f ∈ [10, 11], let s := { netted (fun n => { n with db := [(0, fabric.myLinkState)], flooded := f }) with rnd := { counter := 4106 } }
     (s.net.flooded + 4096 ≤ s.rnd.counter ↔ f = 10)) ∧
    (let s := netted (fun n => { n with stale := true }); s.net.stale = true ∧ s.leaseHeld = true ∧ s.lowestEp = s.net.root) ∧
    (let s := netted (fun n => { n with stale := true, root := 7, db := [(0, fabric.myLinkState)] }); s.net.stale = true ∧ s.lowestEp ≠ s.net.root ∧ s.net.orient = none) ∧
    fabric.net.stale = false ∧
    (∀ b ∈ [10, 11], let s := netted (fun n => { n with orient := some (7, b) }); s.net.orient = some (7, b) ∧ (b ≤ s.rnd.counter ↔ b = 10)) ∧
    (∀ k ∈ [15, 16], let s := netted (fun n => { n with noPath := [(0x33, k)] }); (16 ≤ s.net.noPath.look 0 0x33 ↔ k = 16)) ∧
    (fabric.net.mc.filter (fun e => !(e.1 = 1 && e.2.1 = 2))).length < 16384 ∧
    (∀ r ∈ [6, 7], let s := netted (fun n => { n with mcWait := [{ origin := 1, group := 2, line := 3, round := r }] })
     (s.net.mcWait.find? (fun w => w.origin = 1 && w.group = 2 && w.line = 3)).map (·.round) = some r ∧ (r + 4 ≤ s.rnd.counter ↔ r = 6)) := by decide +kernel

/-- A tree table of 16,384 entries has no room. -/
theorem witness_full_tree_table : 16384 ≤ ((netted (fun n => { n with mc := List.replicate 16384 (1, 1, [], true) })).net.mc.filter
    (fun e => !(e.1 = 1 && e.2.1 = 2))).length := by
  have h : (List.replicate 16384 ((1, 1, [], true) : Nat × Nat × List LinkId × Bool)).filter (fun e => !(e.1 = 1 && e.2.1 = 2)) = List.replicate 16384 (1, 1, [], true) := by
    rw [List.filter_replicate]; rfl
  show 16384 ≤ ((List.replicate 16384 ((1, 1, [], true) : Nat × Nat × List LinkId × Bool)).filter _).length
  rw [h, List.length_replicate]

/-- An invalidation whose awaited member is in the mask; a master with no change announced; a packet that waits for its rank entry; a read at its time limit and
before; link dies that work and fail. -/
theorem witness_requests_of_the_fabric_and_link_dies :
    (let s := { busy opSnpInv with groups := [(2, { valid := true, base := 0, mask := 8 })] }
     let mine := (s.groupRanks 0 (s.group 2)).filter (fun r => s.awaits 0xC0 (agentOf 0 r))
     s.pendOp 0xC0 = opSnpInv ∧ mine = [3] ∧ mine.all (fun r => (8 : BitVec 256).getLsbD (r - (s.group 2).base)) = true) ∧
    fabric.pendOp 0xC0 ≠ opSnpInv ∧ (fabric.isMaster = true ∧ fabric.rnd.pendLength = none ∧ (3 : Fin 4).val ≠ fabric.rnd.length) ∧
    ({ fabric with rnd := { pendLength := some (1, 99) } } : State).rnd.pendLength ≠ none ∧
    (let s := netted (fun n => { n with missQ := [(0, 0, 3, {})] })
     s.net.missQ.filter (fun e => e.1 = 0 && e.2.1 = 0 && e.2.2.1 = 3) ≠ [] ∧ fabric.net.missQ.filter (fun e => e.1 = 0 && e.2.1 = 0 && e.2.2.1 = 3) = []) ∧
    (∀ k ∈ [0, 1], let s := { netted (fun n => { n with out := [{ tag := 5, sent := 1 + k }] }) with rnd := { counter := 1 + fabric.rst.timeout } }
     (s.net.out.find? (fun q => q.tag = 5)).map (·.sent) = some (1 + k) ∧ (1 + k + s.rst.timeout ≤ s.rnd.counter ↔ k = 0)) ∧
    (fabric.ldWorks (0 : HalfId).val = true ∧ (netted (fun n => { n with ldFailing := [1] })).ldWorks (1 : HalfId).val = false) := by
  decide +kernel

/-- The mapped device with a host whose rim is up, and an accepted host extent of one block at DPA 0. -/
def hosted (f : HostSt → HostSt := id) : State := { mapped with
  host := f { mapped.host with up := true, group0 := { up := true, lanes := 0x1F }, group1 := { lanes := 0x3F, health := 3 }
                               exts := [(0, { st := 2, blocks := 1, pva := 0x400000 })] } }

/-- A rim below phase 2 and at phases 2, 4 and 5; the last byte line of the extent, the first past it and a misaligned one; a device that quiesces; answers past their
release; a request held 256 rounds and 255. -/
theorem witness_rim_requests :
    (let s := { mapped with host := { mapped.host with up := true } }; s.host.up = true ∧ s.rimPhase < 2) ∧
    ((hosted id).host.up = true ∧ (hosted id).rimPhase = 4 ∧ (0x1FFFC0 : Nat) % 64 = 0 ∧ (hosted id).hostExtAt 0x1FFFC0 (· == 2) ≠ none ∧
     (hosted id).hostExtAt 0x200000 (· == 2) = none ∧ (0x20 : Nat) % 64 ≠ 0 ∧ (hosted id).rst.limited = false) ∧
    (let s := { hosted id with rst := { mode := .start } }; s.rimPhase = 2) ∧
    (let s := { hosted id with rst := { mode := .service, limited := true } }; s.rst.limited = true ∧ s.rimPhase = 4) ∧
    (let q : HostReq := { tag := 7, since := 9, answer := some (0, [], false) }
     let s := hosted (fun h => { h with reqs := [q] })
     s.host.reqs.find? (fun q => q.tag = 7 && q.answer.isSome) = some q ∧ (s.now - q.since - 1) * s.rnd.micros * 1000 ≤ s.hostRelease) ∧
    (∀ r ∈ [10, 11], let s := { hosted (fun h => { h with reqs := [{ tag := 7, since := r }] }) with rnd := { counter := 266 } }
     (s.host.reqs.find? (fun q => q.tag = 7 && q.answer.isNone)).map (·.since) = some r ∧ (r + 256 ≤ s.now ↔ r = 10)) := by decide +kernel

/-- Exchanges with four, five and six lanes; the third and the fourth to the host; messages sent seven times and eight; a group of five lanes and of six; a lane that may
come back, and one too soon. -/
theorem witness_rim_lane_groups :
    (hosted id).rst.mode ≠ .off ∧ (hosted id).rst.mode ≠ .reset ∧ (hosted id).ldWorks 0 = true ∧
    ({ hosted id with net := { ld1 := false } } : State).ldWorks 1 = false ∧ lanes10 0x00F < 5 ∧ 5 ≤ lanes10 0x01F ∧
    ((hosted id).rimGroup 0).up = true ∧ (0x3F : BitVec 10) ≠ ((hosted id).rimGroup 0).lanes ∧
    (0x3F : BitVec 10) = ((hosted id).rimGroup 1).lanes ∧ ((hosted id).rimGroup 1).up = false ∧ 3 ≤ ((hosted id).rimGroup 1).health ∧
    ((hosted (fun h => { h with group1 := { health := 2 } })).rimGroup 1).health < 3 ∧
    (∀ n ∈ [6, 7], (((hosted (fun h => { h with group1 := { sends := n } })).rimGroup 1).sends < 7 ↔ n = 6)) ∧
    (((hosted id).rimGroup 1).lanes.getLsbD (5 : Fin 10).val = true ∧ 6 ≤ lanes10 ((hosted id).rimGroup 1).lanes) ∧
    (((hosted id).rimGroup 0).lanes.getLsbD (4 : Fin 10).val = true ∧ lanes10 ((hosted id).rimGroup 0).lanes = 5) ∧
    (((hosted id).rimGroup 0).lanes.getLsbD (9 : Fin 10).val = false ∧ ((hosted id).rimGroup 0).widened = 0 ∧ 4 ≤ lanes10 ((hosted id).rimGroup 0).lanes) ∧
    (let x := (hosted (fun h => { h with group0 := { widened := 5 } })).rimGroup 0; x.widened ≠ 0 ∧ (hosted id).now + 1 < x.widened + 65536) := by decide +kernel

/-- R441, R446: a read beyond the extent is refused with RANGE; R448: a dark rim answers with poison. -/
theorem test_rim_mem_rd : (go (.rimMemRd 7 0x200000 false) (hosted id)).host.toHost.map (fun m => (m.type, m.tag, m.status, m.addr)) = [(rtRimNak, 7, Status.range.code, rtMemRd)] ∧
    (go (.rimMemRd 7 0 false) { mapped with host := { mapped.host with up := true } }).out = [.hostData 7 Status.poison.code (List.replicate 64 0) true] := by decide +kernel
/-- R443: the fourth exchange to the host makes the group usable. -/
theorem test_rim_health : ((go (.rimHealth 1 true 0x3F) (hosted id)).rimGroup 1).up = true := by decide +kernel

/-- Channel 80 with a message and one behind it, channel 64 full, channel 0 with a message; no put in flight and one in flight. -/
theorem witness_mailboxes_and_doorbells :
    ((hosted id).host.up = true ∧ (hosted id).host.mbxWait.look false 0 = false ∧ (hosted (fun h => { h with mbxWait := [(15, true)] })).host.mbxWait.look false 15 = true) ∧
    (let s := hosted (fun h => { h with channels := [(80, [{}])], bindings := [(80, 64 * 256 + idHost + 1)] })
     (s.host.toFabric.filter (fun m => m.type = rtMbxAck && m.channel = 80)).length < (s.channel 80).length ∧
     (s.pullToFabric (fun x => x.type = rtMbxAck && x.channel = 80 && x.addr = 1)).binding 80 = some (64, idHost) ∧ s.channel 80 = {} :: []) ∧
    (hosted id).channel 111 = [] ∧
    (let m : RimMsg := { type := rtMbxPut, channel := 64, len := 64 }
     m.dir = false ∧ m.rsvd = false ∧ m.len ≤ 64 ∧ 4 ≤ ((hosted id).pullToFabric (fun x => x.type = rtMbxPut && x.channel = 64)).rimPhase) ∧
    (let s := { hosted id with rst := { mode := .start } }; 2 ≤ s.rimPhase ∧ s.rimPhase < 4) ∧
    (let s := hosted (fun h => { h with channels := [(0, [{ len := 2 }])] })
     s.channel 0 = { len := 2 } :: [] ∧ (s.part 0).live = true ∧ s.readPva 0 ((s.part 0).qtable + 0x808) 8 = .ok (toBytes 8 0) ∧
     ((s.part 0).rxProd + 2 ^ 64 - ofBytes (toBytes 8 0)) % 2 ^ 64 < 3 ∧
     (let c := s.cleanPva 0 ((s.part 0).qtable + 0x808) 8
      ((c.writePva 0 ((s.part 0).qtable + 0x840) (toBytes 8 2 ++ toBytes 8 c.now)).bind (fun s1 => s1.writePva 0 ((s.part 0).qtable + 0x800) (toBytes 8 1))).map
        (·.channel 0) = some [{ len := 2 }])) ∧
    ((hosted id).hostPart = some 1 ∧ ((hosted id).doorbell 1 0 1).1 = .ok ∧ ((hosted id).doorbell 1 0x7F8 0).1 = .ok) ∧
    (let s : State := { hosted id with parts := mapped.parts.take 1 }; s.hostPart = none) ∧
    (0x10FFF : U64).toNat < 2 ^ 32 ∧ bits 0x10FFF 15 12 = 0 := by decide +kernel

/-- R449: a pop tells the fabric side once, and no message leaves an empty channel. -/
theorem test_mbx_pop : (go (.mbxPop 0) (hosted (fun h => { h with channels := [(80, [{}])] }))).host.toFabric = [{ type := rtMbxAck, channel := 80, addr := 1 }] ∧
    (go (.mbxPop 0) (hosted id)).host.toFabric = [] := by decide +kernel

/-- A message of every kind on its way to the host; queues with 127, 128, 255 and 256 entries; messages that are dropped for each cause; rounds 1,024 and 10. -/
theorem witness_rim_answers :
    (∀ ty ∈ [rtCtrlResult, rtAttestResp, rtTelemetry, rtEvent], takeMsg (fun m => m.type = ty) (hosted (fun h => { h with toHost := [{ type := ty }] })).host.toHost =
      some ({ type := ty }, [])) ∧
    (∀ n ∈ [127, 128], (hosted (fun h => { h with results := List.replicate n [] })).host.results.length = n) ∧
    (∀ n ∈ [255, 256], (hosted (fun h => { h with events := List.replicate n {} })).host.events.length = n) ∧
    (let m : RimMsg := { type := rtRimNak, tag := 7, addr := rtMemRd, status := Status.range.code }
     takeMsg (fun m => m.type = rtRimNak && m.tag = 7 && m.addr = rtMemRd && m.status = Status.range.code) [m] = some (m, [])) ∧
    (dropCause { type := 0 } = some 0 ∧ dropCause { type := 17 } = some 0 ∧ dropCause { type := 6, dir := true } = some 1 ∧
     dropCause { type := rtMemRd, len := 1 } = some 2 ∧ dropCause { type := rtMbxPut, len := 1 } = none) ∧
    ({ hosted id with rnd := { counter := 1024 } } : State).now % 1024 = 0 ∧ (hosted id).now % 1024 ≠ 0 := by decide +kernel

/-- 63 and 64 requests outstanding; a dark rim; operands at the ends of their ranges; chunks of an image with and without staging. -/
theorem witness_host_requests :
    (∀ n ∈ [63, 64], ((hosted (fun h => { h with outstanding := n })).host.outstanding < 64 ↔ n = 63)) ∧
    (let s := { mapped with host := { mapped.host with up := true } }; s.host.outstanding < 64 ∧ s.rimPhase < 2) ∧ (hosted id).rimPhase = 4 ∧
    ((0xFFFF : U64).toNat < 65536 ∧ (∀ v ∈ ([0x8000000000, 0x100000000] : List Nat), (BitVec.ofNat 64 v).toNat < 2 ^ 40 ∧ 1 ≤ bits (BitVec.ofNat 64 v) 39 32 ∧ bits (BitVec.ofNat 64 v) 39 32 ≤ 128) ∧
     bits (0x8100000000 : U64) 39 32 = 129 ∧ bits (0x10 : U64) 31 4 ≠ 0 ∧ bits (0 : U64) 3 0 = 0 ∧ 3 < bits (4 : U64) 3 0 ∧ bits (3 : U64) 3 0 ≤ 3) ∧
    ((hosted id).telemetryData 0x104 = none ∧ ((hosted id).telemetryData 0x400).isSome = true ∧ (hosted id).leaseHeld = true) ∧
    (let s := hosted id; s.rimPhase = 4 ∧ s.rst.mode = .service ∧ s.auth.staging = none) ∧
    (let s := { hosted id with auth := { svc.auth with staging := some (1020, 1, []) } }
     s.auth.staging = some (1020, 1, []) ∧ 0 < 1 ∧ 1024 * 0 + 8 * (List.replicate 128 (0 : U64)).length ≤ 1020 + 7) ∧
    (let s := { hosted id with rst := { mode := .start } }; s.rimPhase = 2) ∧
    (let s := { hosted id with auth := {} }; s.rimPhase = 5) := by decide +kernel

/-! ### Witnesses: host registers and services, authority, power, resets and starts -/

/-- Values with and without a reserved bit, offsets at both ends of their ranges, and a device with the host-side die down. -/
theorem witness_host_registers :
    (hosted id).host.up = true ∧ (0xFFF : U64).toNat < 4096 ∧ 4096 ≤ (0x1000 : U64).toNat ∧ (0xFF : U64).toNat < 256 ∧ (31 : Nat) < 32 ∧
    (0x9C00 : Nat) % 8 = 0 ∧ 0xFFF8 % 8 = 0 ∧ 0xFFF8 < 0x10000 ∧ 0x10000 ≤ 0x10000 ∧ (4 : Nat) % 8 ≠ 0 ∧ (1 : Nat) ≠ 4 ∧ (1 : Nat) ≠ 8 ∧
    (hosted (fun h => { h with up := false })).host.up = false := by decide +kernel

/-- R453: a flag written as 1 clears but for one that is set in the same cycle; R10: a write with a reserved bit has no effect. -/
theorem test_int_status : (go (.intStatusWrite 3 1) (hosted (fun h => { h with intStatus := 7 }))).host.intStatus = 5 ∧
    (go (.intStatusWrite 0x1001 0) (hosted (fun h => { h with intStatus := 7 }))).host.intStatus = 7 ∧
    (go (.hostRegisterWrite 0x18 8 0x1001) (hosted id)).host.intEnable = 0 := by decide +kernel

/-- SERVICE and START; logs 3, 4 and 5; entries offered, accepted and free. -/
theorem witness_cxl_mailbox_commands :
    ((hosted id).host.up = true ∧ (hosted id).rst.mode = .service ∧ (hosted id).leaseHeld = true ∧ ({ hosted id with auth := {} } : State).leaseHeld = false ∧
     ({ hosted id with rst := {} } : State).rst.mode ≠ .service) ∧
    (let s := hosted (fun h => { h with bindings := [(64, idHost * 256 + 128 + 1)], exts := [(0, { st := 2, blocks := 1 }), (1, { st := 1, blocks := 1 })] })
     s.putStatus idHost 64 0 3 = .ok ∧ (s.future.host.exts.look {} 1).st = 1 ∧ (s.future.host.exts.look {} 0).st ≠ 1 ∧
     (s.future.host.exts.look {} 0).st = 2 ∧ (s.future.host.exts.look {} 63).st = 0) := by decide +kernel

/-- Extents that may be offered, and each that may not; the last extent number; an offered entry; a release eight rounds old and seven; a good record of settings and one
with a reserved bit. -/
theorem witness_host_services :
    (let s := { hosted id with extents := mapped.extents ++ [(8, ({ st := .active, holder := 1, certified := 1, blocks := [{ block := 3, cert := true }] } : Extent))] }
     let f := s.future
     s.leaseHeld = true ∧ (f.extent 8).st = .active ∧ f.hostPart = some 1 ∧ (f.extent 8).holder = 1 ∧ (f.extent 8).root = false ∧
     (f.extent 8).hosted = false ∧ (f.extent 8).region = none ∧ (f.extent 8).blocks.length ≤ (f.extent 8).certified ∧
     (List.range 64).find? (fun i => (f.host.exts.look ({} : HostExt) i).st = 0) = some 1 ∧
     freeDpa (f.hostEntries.map (fun (y : Nat × HostExt) => (y.2.dpa / 0x200000, y.2.blocks))) 1 = some 1 ∧
     f.hostEntries.foldl (fun (n : Nat) (y : Nat × HostExt) => n + y.2.blocks) 0 + 1 ≤ 32768 ∧ (f.extent 0).st = .active ∧ f.hostPart ≠ some (f.extent 0).holder ∧
     (f.extent 16383).st ≠ .active ∧ (0x200001 : Nat) % 0x200000 ≠ 0) ∧
    (let s := { hosted id with extents := [(8, { st := .active, holder := 1, blocks := [{ block := 3 }] }), (9, { st := .active, holder := 1, root := true })] }
     (s.future.extent 8).certified < (s.future.extent 8).blocks.length ∧ (s.future.extent 9).root = true) ∧
    (let s := hosted (fun h => { h with exts := [(5, { st := 1, blocks := 1, ext := 8 })] })
     (s.takeService 64 0x02 4).future.hostEntries.find? (fun x => x.2.ext = 8 && (x.2.st = 1 || x.2.st = 2)) = some (5, { st := 1, blocks := 1, ext := 8 })) ∧
    (bits (0xFFFF : U64) 63 16 = 0 ∧ bits (0x0012000247464353 : U64) 31 0 = 0x47464353 ∧ bits (0x0012000247464353 : U64) 49 43 = 64 ∧
     4 ≤ bits (0x0012000247464353 : U64) 63 50 ∧ bits (0x10000 : U64) 63 16 ≠ 0) ∧
    ({ hosted id with auth := {} } : State).leaseHeld = false ∧
    (∀ d ∈ [2, 3], let s := hosted (fun h => { h with exts := [(5, { st := 3, since := d })] })
     (s.host.exts.look {} 5).st = 3 ∧ ((s.host.exts.look {} 5).since + 8 ≤ s.now ↔ d = 2)) := by decide +kernel

/-- A tag for the owner, for the operator and for neither; rings with room; a snapshot of round 8 at rounds 10 and 9, named by the operator and by a partition; a
partition that consents to debug and one that does not. -/
theorem witness_samples_snapshots_and_debug :
    ((mapped.weaver 3).tagged = none ∧
     (∀ o ∈ [true, false], ({ mapped with weavers := [(3, { tagged := some { owner := o, oper := !o } })] }.weaver 3).tagged = some { owner := o, oper := !o }) ∧
     (mapped.part 0).sampler = none) ∧
    (let s := { mapped with parts := [(0, { mapped.part 0 with sampler := some (1, 0x30000, 4) })] }
     (s.part 0).sampler = some (1, 0x30000, 4) ∧ (s.writePva 0 0x30000 (List.replicate 64 0)).isSome = true ∧ s.writePva 0 0x600000 [0] = none) ∧
    ((9 : Nat) < 8 + 2 ∧ mapped.now = 8 + 2 ∧ mapped.spineGone = false) ∧
    (let s := { mapped with cnt := { mapped.cnt with snaps := [8] } }
     8 ∈ s.cnt.snaps ∧ List.filter (fun (e : Nat × Partition) => decide (8 ∈ e.2.snaps)) s.parts = []) ∧
    (∀ r ∈ [none, some (0x30000, 4)], let x : Partition := { mapped.part 0 with snaps := [8], snapRing := r }
     let s := { mapped with parts := [(0, x)] }
     8 ∉ s.cnt.snaps ∧ List.filter (fun (e : Nat × Partition) => decide (8 ∈ e.2.snaps)) s.parts = [(0, x)] ∧ (s.part 0).snapRing = r) ∧
    mapped.leaseHeld = true ∧
    (let s := { on3 (runAt 0 {}) with auth := { svc.auth with unlocked := true } }
     s.auth.unlocked = true ∧ (s.weaver 2).run = none ∧ (s.weaver 3).run = some (runAt 0 {}) ∧ (s.part 0).dbg = false) ∧
    (({ mapped with parts := [(0, { mapped.part 0 with dbg := true })] } : State).part 0).dbg = true ∧ mapped.auth.unlocked = false := by decide +kernel

/-- The lease of the first half x, of the second the same, with stakes k0 and k1. -/
def leased (x : Lease) (k0 k1 : Stake) (c : CtlSt := {}) : State := { svc with auth := { stake0 := k0, stake1 := k1, lease0 := x, lease1 := x }, ctl := c }

/-- An active stake with one missed watchdog write and two; a holder that has failed with the other fit and failed; a pending lease with a replay behind and level; images
that pass and do not. -/
theorem witness_leases :
    ((svc.stake 0).st = .active ∧ (svc.stake 1).st ≠ .active ∧ (1 : Nat) < 2 ∧ svc.leaseHeld = true ∧ (svc.lease svc.activeHalf).holder = 0) ∧
    (leased { epoch := 1, st := .none } { st := .active } {}).leaseHeld = false ∧
    (let s := leased { epoch := 1, st := .valid } { st := .failed } {}
     s.rst.mode = .service ∧ (s.lease s.activeHalf).epoch ≠ 0 ∧ (s.lease s.activeHalf).st = .valid ∧ (s.stake 0).st = .failed ∧
     (s.stake 1).st ≠ .failed ∧ s.spineGone = false) ∧
    (let s := leased { epoch := 1, st := .valid } { st := .failed } { st := .failed }; (s.stake 0).st = .failed ∧ (s.stake 1).st = .failed) ∧
    (({ svc with rst := {} } : State).rst.mode ≠ .service) ∧
    (∀ n ∈ [5, 6], let s := leased { epoch := 2, st := .pending } { st := .booting } {} { applied := n, copy0 := { ring := [{ round := 5 }] } }
     (s.lease s.activeHalf).st = .pending ∧ imageStatus (s.stake 0) {} = .ok ∧ (s.ctl.applied ≤ s.lastJournalled ↔ n = 5) ∧ s.spineGone = false ∧ (s.stake 1).st ≠ .failed) ∧
    imageStatus {} { sigOk := false } ≠ .ok ∧ imageStatus { rollback := 1 } {} ≠ .ok ∧ (svc.lease svc.activeHalf).st ≠ .pending := by decide +kernel

/-- A handover whose stake boots, is SHADOW, and is neither; its boundary now and next; the home stake that may return. -/
theorem witness_handovers :
    (∀ st ∈ [StakeState.booting, .shadow, .standby], let t := leased { epoch := 1, st := .valid } { st := .active } { st := st }
     let s := { t with auth := { t.auth with handover := some (1, some 7) } }
     s.auth.handover = some (1, some 7) ∧ (s.stake 1).st = st ∧ (s.lease s.activeHalf).st = .valid) ∧
    (∀ b ∈ [10, 11], let s := leased { epoch := 1, st := .handover, handover := b } { st := .active } { st := .shadow }
     (s.lease s.activeHalf).st = .handover ∧ ((s.lease s.activeHalf).handover ≤ s.now ↔ b = 10)) ∧
    svc.auth.handover = none ∧
    (let s := leased { epoch := 1, st := .valid, holder := 1 } { passDone := true } { st := .active }
     let l := s.lease s.activeHalf
     l.st = .valid ∧ l.holder ≠ s.rst.homeHalf ∧ (s.stake s.rst.homeHalf).st = .standby ∧ (s.stake s.rst.homeHalf).passDone = true ∧
     (s.stake s.rst.homeHalf).keep = .valid ∧ (s.stake s.rst.homeHalf).keepDigest = s.holderStake.runDigest ∧ s.spineGone = false ∧
     s.auth.staging = none ∧ s.auth.writing = none) ∧
    (svc.lease svc.activeHalf).holder = svc.rst.homeHalf := by decide +kernel

/-- R505: at its boundary the next epoch goes to the incoming stake. -/
theorem test_handover : let t := leased { epoch := 1, st := .handover, handover := 10 } { st := .active } { st := .shadow }
    let u := go .handoverBoundary { t with auth := { t.auth with handover := some (1, none) } }
    (u.leaseEpoch, u.holderStake.st, (u.lease u.activeHalf).holder, (u.stake 0).st) = (2, .active, 1, .standby) := by decide +kernel

/-- Bridges gone, one back, and a spine lost already; a keep store being written, paused or not. -/
theorem witness_spine_keep_stores_and_checkpoints :
    (let s := { svc with auth := { svc.auth with bridge0 := false, bridge1 := false } }
     s.auth.bridge0 = false ∧ s.auth.bridge1 = false ∧ s.spineGone = false ∧ s.auth.handover = none) ∧
    (let s := { svc with auth := { svc.auth with bridge1 := false, weaveLost := [1] } }
     s.auth.bridge1 = false ∧ (1 : HalfId).val ∈ s.auth.weaveLost ∧ (s.die 2).ok = true ∧ (s.die 3).ok = true ∧ s.spineGone = false ∧ s.auth.handover = none ∧
     s.spinePath = false) ∧ svc.spinePath = true ∧ svc.auth.weaveLost = [] ∧ svc.auth.bridge0 = true ∧
    (∀ c ∈ [true, false], let s := { svc with auth := { svc.auth with lease1 := { svc.auth.lease1 with spineLost := true }, copied := c } }
     s.spineGone = true ∧ s.auth.copied = c) ∧
    (∀ p ∈ [true, false], let s := { svc with auth := { svc.auth with writing := some (1, [5], 2, true), keepPaused := p } }
     s.auth.writing = some ((1 : HalfId).val, [5], 2, true) ∧ s.auth.keepPaused = p ∧ s.auth.stagedImage = none ∧ s.auth.updating = false) ∧ svc.auth.writing = none := by decide +kernel

/-- A staging area 65,536 rounds old and one round less; a stake that verifies an image; a round of a checkpoint and one that is none; margins 16 and 15. -/
theorem witness_staging_and_checkpoints :
    (∀ r ∈ [1, 2], let b : Background := { op := 0xD9, started := r }
     let s := { svc with ctl := { background := [b] }, rnd := { counter := 65537 } }
     s.ctl.background.find? (fun b => b.op = 0xD9 && !b.done) = some b ∧ s.staged = false ∧ (b.started + 65536 ≤ s.now ↔ r = 1)) ∧
    ((leased {} { st := .verifying } {}).stake 0).st = .verifying ∧ imageStatus { st := .verifying } {} = .ok ∧ imageStatus {} { bodyOk := false } ≠ .ok ∧
    (∀ u ∈ [true, false], let s := { svc with rnd := { counter := 4096 }, auth := { svc.auth with updateDone := u } }
     s.leaseHeld = true ∧ s.now % 4096 = 0 ∧ s.checkpointed = false ∧ s.auth.updateDone = u ∧ s.auth.stake0.runSvn = s.auth.stake1.runSvn ∧
     (s.weaver 3).st = .active) ∧
    ({ svc with rnd := { counter := 4096 }, ctl := { copy0 := { slot0 := some { round := 4096 } } } } : State).checkpointed = true ∧
    (∀ a ∈ [0, 1], let x : Weaver := { low := true, age := a, fmax := 1 }; x.low = true ∧ (x.age < x.fmax ↔ a = 0)) ∧ svc.now % 4096 ≠ 0 ∧ svc.auth.keepPaused = false := by
  decide +kernel

/-- R512: a second low margin takes one step of the clock from the weaver. -/
theorem test_checkpoint : let s := { svc with rnd := { counter := 4096 }, weavers := [(3, { low := true, fmax := 4 })] }
    (((go (.checkpoint [(3, 15)]) s).weaver 3).age, ((go (.checkpoint [(3, 16)]) s).weaver 3).age) = (1, 0) := by decide +kernel

/-- The device with the power state x. -/
def powered (x : PowerSt) : State := { svc with power := x }

/-- Feeds present and lost; a bus at its thresholds and one step beside them; 64 rounds above the cap and 63; 16 without an allotment and 15. -/
theorem witness_supply_conditions :
    ((powered {}).power.feedA = true ∧ (powered { feedA := false }).power.feedA = false ∧ (powered { feedB := false }).power.feedB = false) ∧
    ((439 : Nat) < 5 * ({} : PowerSt).sagWarn ∧ 5 * ({} : PowerSt).sagWarn ≤ 440 ∧ ({} : PowerSt).holds condSag = false ∧
     (({} : PowerSt).setCond condSag).holds condSag = true ∧ 5 * ({} : PowerSt).sagWarn + 10 ≤ 450 ∧ 449 < 5 * ({} : PowerSt).sagWarn + 10) ∧
    ((379 : Nat) < 380 ∧ 610 < 611 ∧ ({} : PowerSt).holds condOvervolt = false) ∧
    (∀ n ∈ [63, 64], let x : PowerSt := { overRounds := n }; x.holds condHeldOver = false ∧ (64 ≤ x.overRounds ↔ n = 64)) ∧
    (∀ n ∈ [15, 16], let x : PowerSt := { learned := true, group := 1, allotAge := n }
     x.learned = true ∧ x.group ≠ 0 ∧ x.holds condFallback = false ∧ (16 ≤ x.allotAge ↔ n = 16)) := by decide +kernel

/-- R515: below 38.0 V the fabric side is off, at 38.0 V it is not. -/
theorem test_undervolt : (go (.undervoltReset 379) svc).rst.mode = .off ∧ (go (.undervoltReset 380) svc).rst.mode = .service := by decide +kernel

/-- A sensor below its threshold, newly at it, and at it before; a state that throttles with no sensor hot; a stage that is off; rounds of an evaluation; duty below three
quarters and at it. -/
theorem witness_temperatures_and_operating_points :
    ((8 : Nat) ≤ 40 % 32 ∧ (94 : Nat) < 95 ∧ ({} : PowerSt).sensors.look 0 40 < 95 ∧ 95 ≤ ({ sensors := [(40, 95)] } : PowerSt).sensors.look 0 40) ∧
    (let s := powered (({} : PowerSt).begin condThrottle)
     (s.onPower (fun x => { x with sensors := x.sensors.put 0 40 94, hottest := max x.hottest 94 })).power.hot = false ∧ s.power.holds condThrottle = true) ∧
    ({ svc with rst := { stageOff := true, mode := .off, held := true } } : State).rst.stageOff = true ∧ svc.rst.stageOff = false ∧
    (let s := { powered { dutyRounds := 64 } with rnd := { counter := 64 } }
     s.now % 64 = 0 ∧ s.power.dutyRounds ≠ 0 ∧ List.all s.weavers (fun (e : Nat × Weaver) => !e.2.ageOut) = true) ∧ svc.now % 64 ≠ 0 ∧
    (∀ d ∈ [767, 768], let x : PowerSt := { dutyRounds := 64, dutySum := d }
     x.fixed = false ∧ x.boostEn = true ∧ x.allFull = true ∧ x.peak * 100 ≤ x.eff * 95 ∧ (x.dutySum < 12 * x.dutyRounds ↔ d = 767)) ∧
    ({ fixed := true } : PowerSt).fixed = true ∧ ({} : PowerSt).ceiling = 7 ∧ ({ ceiling := 6 } : PowerSt).ceiling < 7 := by decide +kernel

/-- Powers one above the cap, at it, 19 and 20 below it; each actuator at its ends. -/
theorem witness_power_controller :
    (({} : PowerSt).eff < 1601 ∧ 1 < ({} : PowerSt).duty ∧ 1 < (({} : PowerSt).actuate 1601 1000).duty) ∧
    (({ duty := 1 } : PowerSt).duty ≤ 1 ∧ ({ idle := 14 } : PowerSt).idle < 15 ∧ 15 ≤ ({ idle := 15 } : PowerSt).idle ∧ ({ memM := 1 } : PowerSt).memM ≤ 1 ∧
     1 < ({ memM := 2 } : PowerSt).memM) ∧
    ((1580 : Nat) + 20 ≤ ({} : PowerSt).eff ∧ ({ memM := 15 } : PowerSt).memM < 16 ∧ 16 ≤ ({} : PowerSt).memM ∧ 0 < ({ idle := 1 } : PowerSt).idle ∧
     ({} : PowerSt).idle = 0 ∧ ({ duty := 15 } : PowerSt).duty < 16 ∧ 16 ≤ ({} : PowerSt).duty) ∧
    (1600 : Nat) ≤ ({} : PowerSt).eff ∧ ({} : PowerSt).eff < 1581 + 20 := by decide +kernel

/-- R524: 201 W above the cap with 1,600 W in the weavers at full duty takes three steps of duty; 20 W below it memory comes back first. -/
theorem test_actuate : (({} : PowerSt).actuate 1801 1600).duty = 13 ∧ (({ memM := 9 } : PowerSt).actuate 1580 1000).memM = 10 := by decide

/-- The device in a mode. -/
def inMode (m : Mode) (f : ResetSt → ResetSt := id) : State := { hosted id with rst := f { mode := m } }

/-- A device off, with DEV_RESET_N held and not; in reset; a host-side die down with a message in a channel of the host; each ground on which a reset is refused. -/
theorem witness_resets :
    (∀ h ∈ [true, false], let s := inMode .off (fun r => { r with held := h }); s.rst.mode = .off ∧ s.rst.stageOff = false ∧ s.rst.held = h) ∧
    (inMode .service).rst.mode ≠ .off ∧ (inMode .reset).rst.mode = .reset ∧ (inMode .reset).rst.stageOff = false ∧
    (let s := hosted (fun h => { h with up := false, channels := [(80, [{}])], bindings := [(80, 64 * 256 + idHost + 1)] })
     s.host.up = false ∧ s.channel 80 = {} :: [] ∧ s.binding 80 = some (64, idHost)) ∧
    ((0 : Nat) ≠ 0x52535431 ∧ 2 ≤ (inMode .service).rimPhase ∧ (inMode .service).leaseHeld = true ∧ (inMode .service).updateBusy = false ∧
     (inMode .service).rst.warm = none ∧ (inMode .service).rst.due = none) ∧
    (inMode .service (fun r => { r with warm := some 3 })).rst.warm ≠ none ∧
    ((inMode .service (fun r => { r with phase := 9 })).keepWriting = false ∧ 3 ≤ (inMode .service (fun r => { r with phase := 9 })).rst.phase) ∧
    ({ hosted id with auth := { svc.auth with writing := some (1, [], 0, false) } } : State).keepWriting = true ∧ mapped.rimPhase < 2 := by decide +kernel

/-- R563: a wrong CONFIRM is refused, a right one starts the warm reset at the next boundary. -/
theorem test_device_warm : (go (.deviceWarm 4 0) (inMode .service)).rst.due = none ∧
    (go (.deviceWarm 4 0x52535431) (inMode .service)).rst.due = some (2, 11) := by decide +kernel

/-- Starts that find two good stakes, none that passes its test, none whose image passes, no persistent area, no bridge; a start that holds for one; phases 9 and 8; a quiesce due and
not; its limit at W + 8 and before; its entry at W + 9 and before. -/
theorem witness_starts_and_warm_resets :
    (let s : State := {}
     s.rst.mode = .start ∧ s.rst.held = false ∧ s.rst.noSpine = false ∧ s.rst.phase < 4 ∧ s.stakeBoots {} 0 = true ∧ s.stakeBoots {} 1 = true ∧
     s.leaseHeld = false ∧ s.rst.retained = false ∧ (s.die 0).ok = true ∧ (s.die 3).ok = true ∧
     (let f : StartFacts := { images := [{ bodyOk := false }, { magicOk := false }] }; testOk f 0 = true ∧ s.stakeBoots f 0 = false ∧ s.stakeBoots f 1 = false) ∧
     (let f : StartFacts := { stakeSelfTest := [false, false] }; testOk f 0 = false ∧ testOk f 1 = false) ∧
     (let f : StartFacts := { persistentOk := false }; f.persistentOk = false) ∧
     (let f : StartFacts := { bridgesOk := [false, false] }; f.persistentOk = true ∧ f.bridgesOk = [false, false]) ∧
     (let f : StartFacts := {}; f.persistentOk = true ∧ f.bridgesOk = [true, true] ∧ f.badWeavers = [] ∧ f.badStacks = [] ∧ f.goodLinks = [] ∧ f.badLinks = [] ∧
       f.litLinks = [] ∧ f.replayOk = true)) ∧
    (inMode .start (fun r => { r with retained := true })).rst.retained = true ∧ (inMode .service).rst.mode ≠ .start ∧
    (inMode .start (fun r => { r with noSpine := true, phase := 3 })).rst.noSpine = true ∧
    (inMode .start (fun r => { r with phase := 9 })).rst.phase = 9 ∧ (inMode .start (fun r => { r with phase := 8 })).rst.phase ≠ 9 ∧
    (∀ w ∈ [10, 11], let s := inMode .service (fun r => { r with due := some (2, w) })
     s.rst.due = some (2, w) ∧ (w ≤ s.now ↔ w = 10) ∧ (s.part 0).suspended = [] ∧ (s.part 0).moved = []) ∧
    (∀ w ∈ [2, 3], let s := inMode .service (fun r => { r with warm := some w })
     s.rst.warm = some w ∧ s.rst.limited = false ∧ (w + 8 ≤ s.now ↔ w = 2)) ∧
    (∀ w ∈ [1, 2], let s := inMode .service (fun r => { r with warm := some w, limited := true })
     s.rst.limited = true ∧ (w + 10 ≤ s.now + 1 ↔ w = 1)) ∧ (inMode .service).rst.warm = none := by decide +kernel

/-- R554, R562: from reset a start without faults comes to phase 9 with lease epoch 1, and the device enters SERVICE. -/
theorem test_cold_start : let t := go (.coldStart {}) {}
    (t.rst.phase, t.leaseEpoch, t.leaseHeld, (go .enterService t).rst.mode) = (9, 1, true, .service) := by decide +kernel

/-- The reset state is legal, and with a command in front a step runs it and takes it off. -/
theorem witness_steps_keep_legal_ranges : State.reset.Legal ∧ (∃ t, step { State.reset with pending := [.electionStart] } = .next t ∧ t.pending = []) ∧
    (∃ t, exec .electionStart State.reset = .next t) := 
  ⟨by unfold State.Legal RoundSt.Legal PowerSt.Legal; decide, ⟨_, rfl, rfl⟩, ⟨_, rfl⟩⟩

/-- With no command waiting the block idles (log entry 2). -/
theorem test_idle : step State.reset = .next State.reset := rfl

/-- The last unit and line of a rand. -/
theorem witness_pool_array_and_parity : (7 : Nat) < 8 ∧ (3 : Nat) < 4 ∧ mapped.mem.wf = true ∧ 8 ∉ mapped.lostUnits 0 5 := by decide

/-- Bytes stored read back, and the byte before them stays (R24). -/
theorem test_store : let m := mapped.mem.store 0x1000 [5, 0, 7]
    (m.stored 0xFFF 5, m.wf) = ([0, 5, 0, 7, 0x08], true) := by decide

/-- The conditions of an effective cap: a single feed at 50.0 V caps at 1,800 W, and a sag cap of 600 W is lower. -/
theorem test_effective_cap : ((({} : PowerSt).setCond condSag).step7 0 0 500 []).eff = 600 ∧ (({ cap := 100 } : PowerSt).step7 0 0 500 []).eff = 320 := by decide +kernel

end Sys2Proof.Tests
end

/-! ### The all-zero word (R254) -/

namespace Sys2Proof.Machine

/-- ADD is an arithmetic instruction of 1 issue cycle and latency 1 (R264). -/
theorem exec_add (w : WeaverId) (f : Fields) (s : State) : exec (.add w f) s = ok (s.alu w.val 0x00 f 1 1 (fun a b => a + b)) := rfl

/-- R264: an instruction that writes gD from gS1 and source 2, where it issues. -/
theorem alu_goes {s : State} {w op : Nat} {f : Fields} {cost lat : Nat} {g : U64 → U64 → U64} {x : Run} {t : Nat}
    (h : Issues s w op f (f.dst.toNat :: f.src1.toNat :: use2 f) noWait x t) (hr : x.room 1) :
    Goes (ok (s.alu w op f cost lat g)) (fun u =>
      (u.weaver w).run = some (x.next ((x.at_ t).putG f.dst.toNat (g ((x.at_ t).s1 f) ((x.at_ t).s2 f)) lat) t cost 1) ∧
      OnlyRun s u w) :=
  issue_put (put := fun y => y.putG f.dst.toNat (g ((x.at_ t).s1 f) ((x.at_ t).s2 f)) lat) h hr (fun _ => rfl) rfl
    (putG_plain _ _ _ _)

/-- R250: g0 discards what is written to it, and no result of it is waited for. -/
@[simp] theorem putG_zero (x : Run) (v : U64) (lat : Nat) : x.putG 0 v lat = x := if_pos rfl

/-- Settles O58: g0 discards the sum (`putG_zero`), so of the ADD that the zero word encodes only its cycle remains. -/
theorem zeroWordHasNoEffect : Obligations.zero_word_has_no_effect := by
  refine ⟨by decide, fun w s x t hissue _ hroom => ?_⟩
  have hadd := alu_goes (cost := 1) (lat := 1) (g := fun a b => a + b) hissue hroom
  have hg0 : ({} : Fields).dst.toNat = 0 := rfl
  rw [exec_add]
  simpa only [hg0, putG_zero, id_eq] using hadd

/-- A run at the first of two all-zero words, with one cycle of its budget of 1,000 left. -/
def zeroWordRun : Run := { s := { budget := 1000, img := { code := [0, 0] } }, cyc := 999 }

/-- The zero word issues from `zeroWordRun` at cycle 999, and a word follows it in the code. -/
theorem zeroWordRun_issues :
    Issues { weavers := [(3, { run := some zeroWordRun })] } 3 0x00 {} [0, 0, 0] noWait zeroWordRun 999 ∧ zeroWordRun.room 1 := by
  unfold Issues Run.room
  decide

/-- On weaver 3 it takes `zeroWordRun` to the next word at cycle 1,000 and changes nothing else of the run. -/
theorem witness_zeroWordHasNoEffect :
    Goes (exec (.add 3 {}) { weavers := [(3, { run := some zeroWordRun })] }) (fun u =>
      (u.weaver 3).run = some { zeroWordRun with cyc := 1000, pc := 1 }) := by
  obtain ⟨hissue, hroom⟩ := zeroWordRun_issues
  obtain ⟨u, hgo, hrun, -⟩ := zeroWordHasNoEffect.2 3 _ _ _ hissue trivial hroom
  exact ⟨u, hgo, hrun⟩

end Sys2Proof.Machine

/-! ### Session starts (R471) -/

namespace Sys2Proof.Machine

theorem exec_sessionHello (p : PartId) (ep rank sid frag frags : Nat) (nonce : List U64) (s : State) :
    exec (.sessionHello p ep rank sid frag frags nonce) s = execSessionHello p ep rank sid frag frags nonce s := rfl

section SessionHello
variable {p : PartId} {s : State}

/-- R390, R471: nobody answers a HELLO for a partition that does not exist. -/
theorem sessionHello_absent (ep rank sid frag frags : Nat) (nonce : List U64) (hlive : (s.part p.val).live = false) :
    exec (.sessionHello p ep rank sid frag frags nonce) s = .next s := by
  simp [exec_sessionHello, execSessionHello, hlive]

/-- R471: a partition has one session start outstanding, so any fragment of another start is refused. -/
theorem sessionHello_of_other {y : Session} {ep rank sid : Nat} (frag frags : Nat) (nonce : List U64)
    (hlive : (s.part p.val).live = true) (hlease : s.leaseHeld = true) (hy : (s.part p.val).session = some y)
    (hother : y.sid ≠ sid ∨ y.ep ≠ ep ∨ y.rank ≠ rank) :
    exec (.sessionHello p ep rank sid frag frags nonce) s = .next (s.sendDone p.val ep sid .busyRetry) := by
  obtain hsid | hep | hrank := hother
  · simp [exec_sessionHello, execSessionHello, hlive, hlease, hy, hsid]
  · simp [exec_sessionHello, execSessionHello, hlive, hlease, hy, hep]
  · simp [exec_sessionHello, execSessionHello, hlive, hlease, hy, hrank]

/-- R471: with none outstanding, the number of recent starts alone decides whether a first fragment starts a session. -/
theorem sessionHello_first (ep rank sid frags : Nat) (nonce : List U64)
    (hlive : (s.part p.val).live = true) (hlease : s.leaseHeld = true) (hnone : (s.part p.val).session = none) :
    exec (.sessionHello p ep rank sid 0 frags nonce) s =
      if 4 ≤ (s.recentStarts p.val).length then .next (s.sendDone p.val ep sid .busyRetry)
      else .next (s.onPart p.val (fun x => { x with
        starts := s.recentStarts p.val ++ [s.now]
        session := some { sid := sid, ep := ep, rank := rank, frags := 1, total := frags, helloRound := s.now, nonce := nonce } })) := by
  simp [exec_sessionHello, execSessionHello, hlive, hlease, hnone]

end SessionHello

/-- Settles O59: an outstanding start decides first (`sessionHello_of_other`), then the count of recent starts (`sessionHello_first`). -/
theorem sessionStartLimits : Obligations.session_start_limits := by
  intro p ep rank sid frags nonce s
  refine ⟨fun hlive hlease => ⟨?outstanding, ?tooMany, ?taken⟩, ?absent⟩
  case outstanding => exact fun y hy hother frag => sessionHello_of_other frag frags nonce hlive hlease hy hother
  case tooMany => exact fun hnone hmany => (sessionHello_first ep rank sid frags nonce hlive hlease hnone).trans (if_pos hmany)
  case taken =>
    exact fun hnone hfew => (sessionHello_first ep rank sid frags nonce hlive hlease hnone).trans (if_neg (Nat.not_le.mpr hfew))
  case absent => exact fun hlive frag => sessionHello_absent ep rank sid frag frags nonce hlive

/-- Round n, half 0's lease valid; partition 0 started sessions in rounds 9, 10, 11 and 12, and y is its outstanding start. -/
def fourStarts (n : Nat) (y : Option Session) : State :=
  { rnd := { counter := n }
    auth := { lease0 := { st := .valid } }
    parts := [(0, { live := true, starts := [9, 10, 11, 12], session := y })] }

/-- In round 1,032 the four starts are recent and a fifth is refused; one round on the first has left the window and the start
is taken. Another agent's HELLO is refused while a start is outstanding, and one for partition 1 is dropped. -/
theorem witness_sessionStartLimits :
    (let s := fourStarts 1032 none
     exec (.sessionHello 0 7 2 5 0 2 [1]) s = .next (s.sendDone 0 7 5 .busyRetry)) ∧
    (let s := fourStarts 1033 none
     exec (.sessionHello 0 7 2 5 0 2 [1]) s = .next (s.onPart 0 (fun x => { x with
      starts := [10, 11, 12, 1033]
      session := some { sid := 5, ep := 7, rank := 2, frags := 1, total := 2, helloRound := 1033, nonce := [1] } }))) ∧
    (let s := fourStarts 5000 (some { sid := 5, ep := 7, rank := 2, frags := 1, total := 2 })
     exec (.sessionHello 0 8 2 5 1 2 [1]) s = .next (s.sendDone 0 8 5 .busyRetry) ∧
     exec (.sessionHello 1 7 2 5 0 2 [1]) s = .next s) := by
  obtain ⟨hfifth, -⟩ := sessionStartLimits 0 7 2 5 2 [1] (fourStarts 1032 none)
  obtain ⟨hfourth, -⟩ := sessionStartLimits 0 7 2 5 2 [1] (fourStarts 1033 none)
  obtain ⟨hagent, -⟩ := sessionStartLimits 0 8 2 5 2 [1] (fourStarts 5000 (some { sid := 5, ep := 7, rank := 2, frags := 1, total := 2 }))
  obtain ⟨-, hgone⟩ := sessionStartLimits 1 7 2 5 2 [1] (fourStarts 5000 (some { sid := 5, ep := 7, rank := 2, frags := 1, total := 2 }))
  exact ⟨(hfifth rfl rfl).2.1 rfl (by decide), (hfourth rfl rfl).2.2 rfl (by decide),
    (hagent rfl rfl).1 _ rfl (by decide) 1, hgone rfl 0⟩

end Sys2Proof.Machine

/-! ### The effective cap (R519) -/

namespace Sys2Proof.Machine

section EffectiveCap
variable (x : PowerSt) (p w bus : Nat) (temps : List (Nat × Nat))

/-! #### The terms, as lists: an absent one is the empty list -/

theorem foldl_min_toList (a : Nat) (b : Option Nat) : b.toList.foldl min a = minTerm a b := by
  cases b <;> rfl

theorem capTerm_eq : x.capTerm = if x.learned ∧ x.allotAge < 16 then x.allot.getD x.cap else x.cap := by
  simp [PowerSt.capTerm]

theorem feedCap_toList : x.feedCap.toList = if x.holds condSingle then [36 * x.bus / 50 * 5] else [] :=
  apply_ite Option.toList _ _ _

theorem sagLimit_toList : x.sagLimit.toList = if x.holds condSag then [x.sagCap] else [] :=
  apply_ite Option.toList _ _ _

/-- R519: the effective cap is the least of the terms present, and at least 320 W. -/
theorem effective_eq_foldl :
    x.effective = max 320 ((x.feedCap.toList ++ x.sagLimit.toList ++ x.thermalCap.toList).foldl min x.capTerm) := by
  simp only [List.foldl_append, foldl_min_toList, PowerSt.effective, PowerSt.otherTerms]

/-! #### What the parts of step 7 leave unchanged -/

/-- Ending a condition leaves the others as they are (R517). -/
theorem holds_clearCond_ne {i j : Nat} (h : i ≠ j) : (x.clearCond i).holds j = x.holds j := by
  have hbit : ((1 : BitVec 8) <<< i).getLsbD j = false := by
    change (BitVec.twoPow 8 i).getLsbD j = false
    simp [BitVec.getLsbD_twoPow, h]
  simpa only [PowerSt.holds, PowerSt.clearCond, BitVec.getLsbD_and, BitVec.getLsbD_not, hbit, Bool.not_false,
    Bool.and_true, Bool.and_eq_left_iff_imp, decide_eq_true_eq] using BitVec.lt_of_getLsbD

/-- CAP_HELD_OVER is neither of the conditions that R519 reads. -/
theorem clearHeldOver_effective : (x.clearCond condHeldOver).effective = x.effective := by
  have hsingle : (x.clearCond condHeldOver).holds condSingle = x.holds condSingle := holds_clearCond_ne x (by decide)
  have hsag : (x.clearCond condHeldOver).holds condSag = x.holds condSag := holds_clearCond_ne x (by decide)
  simp only [PowerSt.effective, PowerSt.otherTerms, PowerSt.feedCap, PowerSt.sagLimit, hsingle, hsag]
  rfl

theorem reads_bus : (temps.foldl (fun (x : PowerSt) e => x.read e.1 e.2) x).bus = x.bus := by
  induction temps generalizing x with
  | nil => rfl
  | cons e temps ih => exact ih (x.read e.1 e.2)

theorem takeAllot_bus : x.takeAllot.bus = x.bus := by
  unfold PowerSt.takeAllot
  split <;> rfl

/-- R525: counting a round above the cap moves nothing but the count and CAP_HELD_OVER. -/
theorem countOver_cases : ∃ n, x.countOver p = { x with overRounds := n } ∨
    x.countOver p = ({ x with overRounds := n } : PowerSt).clearCond condHeldOver :=
  ⟨_, (ite_eq_or_eq _ _ _).symm⟩

/-- R524: the actuators are the duty, the idle count and the memory scale; nothing else moves. -/
theorem actuate_cases : ∃ d i m, x.actuate p w = { x with duty := d, idle := i, memM := m } := by
  unfold PowerSt.actuate
  (repeat' split) <;> exact ⟨_, _, _, rfl⟩

theorem countOver_bus : (x.countOver p).bus = x.bus := by
  obtain ⟨n, h | h⟩ := countOver_cases x p
  · rw [h]
  · rw [h]
    rfl

theorem actuate_bus : (x.actuate p w).bus = x.bus := by
  obtain ⟨d, i, m, h⟩ := actuate_cases x p w
  rw [h]

variable {x} in
theorem countOver_keeps_eff (h : x.eff = x.effective) : (x.countOver p).eff = (x.countOver p).effective := by
  obtain ⟨n, hn | hn⟩ := countOver_cases x p
  · rw [hn]
    exact h
  · rw [hn]
    exact h.trans (clearHeldOver_effective { x with overRounds := n }).symm

variable {x} in
theorem actuate_keeps_eff (h : x.eff = x.effective) : (x.actuate p w).eff = (x.actuate p w).effective := by
  obtain ⟨d, i, m, hx⟩ := actuate_cases x p w
  rw [hx]
  exact h

/-! #### Step 7 -/

/-- The cap is formed before the actuator moves, and it is still that of the state step 7 ends in. -/
theorem step7_eff : (x.step7 p w bus temps).eff = (x.step7 p w bus temps).effective :=
  actuate_keeps_eff p w (countOver_keeps_eff p rfl)

theorem step7_bus : (x.step7 p w bus temps).bus = bus := by
  unfold PowerSt.step7
  rw [actuate_bus, countOver_bus]
  exact (takeAllot_bus _).trans (reads_bus _ temps)

end EffectiveCap

/-- Settles O60: the cap step 7 leaves is that of its own terms (`step7_eff`), the feed cap at the bus voltage just measured
(`step7_bus`), and their least is the fold over the terms present (`effective_eq_foldl`). -/
theorem effectiveCap : Obligations.effective_cap := by
  intro x p w bus temps y first others
  have hothers : y.feedCap.toList ++ y.sagLimit.toList ++ y.thermalCap.toList = others := by
    rw [feedCap_toList, sagLimit_toList, step7_bus]
  calc y.eff
    _ = y.effective := step7_eff x p w bus temps
    _ = max 320 ((y.feedCap.toList ++ y.sagLimit.toList ++ y.thermalCap.toList).foldl min y.capTerm) := effective_eq_foldl y
    _ = max 320 (others.foldl min first) := by rw [hothers, capTerm_eq]

/-- LEARNED mode under a CAP of 1,700 W, with an allotment of 900 W that came the given number of rounds ago. -/
def allotted (age : Nat) : PowerSt := { cap := 1700, learned := true, allot := some 900, allotAge := age }

/-- The allotment counts up to its 15th round and CAP after that; at 44.0 V with one feed the feed cap of 1,580 W is the least,
and sensor 0 at 105 °C after a round of 1,500 W, or of 300 W, brings the thermal cap of 1,460 W, or the floor. -/
theorem witness_effectiveCap :
    ((allotted 14).step7 1000 500 500 []).eff = 900 ∧
    ((allotted 15).step7 1000 500 500 []).eff = 1700 ∧
    (((allotted 15).setCond condSingle).step7 1000 500 440 []).eff = 1580 ∧
    (((allotted 15).setCond condSingle).step7 1500 500 440 [(0, 105)]).eff = 1460 ∧
    (((allotted 15).setCond condSingle).step7 300 100 440 [(0, 105)]).eff = 320 :=
  ⟨(effectiveCap _ _ _ _ _).trans (by decide), (effectiveCap _ _ _ _ _).trans (by decide),
    (effectiveCap _ _ _ _ _).trans (by decide), (effectiveCap _ _ _ _ _).trans (by decide),
    (effectiveCap _ _ _ _ _).trans (by decide)⟩

end Sys2Proof.Machine
/-! ### What every command does to the queue, the counter and the legal ranges -/

namespace Sys2Proof.Machine

/-- The commands that may move the gauge: those of the round, of the operating points, and the resets and starts. -/
def movesGauge : Instr → Bool
  | .roundBoundary _ | .lengthChangeEffect | .marker .. | .roundSet .. | .roundCtrl _ | .operatingPointChange | .fwChunk .. | .trip ..
  | .undervoltReset _ | .devResetN _ | .deviceCold .. | .deviceWarm .. | .coldStart _ | .warmResetEntry | .warmStart _ => true
  | _ => false

/-- Each of the other commands leaves the gauge as it was: the lemma about its meaning says so. -/
theorem exec_held : ∀ c : Instr, movesGauge c = false → ∀ s, Held s (exec c s)
  | .roundClaim a b d e, _, s => execRoundClaim_held a b d e s | .masterRecognised, _, s => execMasterRecognised_held s
  | .roundHoldover, _, s => execRoundHoldover_held s | .electionStart, _, s => execElectionStart_held s
  | .roundResync a, _, s => execRoundResync_held a s | .sqTailDoorbell a b d, _, s => execSqTailDoorbell_held a b d s
  | .cqHeadDoorbell a b d, _, s => execCqHeadDoorbell_held a b d s | .sqResetDoorbell a b d, _, s => execSqResetDoorbell_held a b d s
  | .cqResetDoorbell a b d, _, s => execCqResetDoorbell_held a b d s | .cqResetApply a b, _, s => execCqResetApply_held a b s
  | .descriptorFetch a b, _, s => execDescriptorFetch_held a b s | .translationPinComplete a b, _, s => execTranslationPinComplete_held a b s
  | .admissionPoint a, _, s => execAdmissionPoint_held a s | .dequePop a, _, s => execDequePop_held a s | .steal a, _, s => execSteal_held a s
  | .budgetStop a, _, s => execBudgetStop_held a s | .cqHeldRecordRetry a b, _, s => execCqHeldRecordRetry_held a b s
  | .streamLineLand a b, _, s => execStreamLineLand_held a b s | .poolResponse a b d, _, s => execPoolResponse_held a b d s
  | .poolWriteRefusal a b, _, s => execPoolWriteRefusal_held a b s | .watchEvaluation a b, _, s => execWatchEvaluation_held a b s
  | .watchTimeout a, _, s => execWatchTimeout_held a s | .add a b, _, s => execAdd_held a b s | .sub a b, _, s => execSub_held a b s
  | .mul a b, _, s => execMul_held a b s | .divu a b, _, s => execDivu_held a b s | .remu a b, _, s => execRemu_held a b s
  | .andOp a b, _, s => execAndOp_held a b s | .orOp a b, _, s => execOrOp_held a b s | .xorOp a b, _, s => execXorOp_held a b s
  | .shl a b, _, s => execShl_held a b s | .shr a b, _, s => execShr_held a b s | .sra a b, _, s => execSra_held a b s
  | .minOp a b, _, s => execMinOp_held a b s | .maxOp a b, _, s => execMaxOp_held a b s | .li a b, _, s => execLi_held a b s
  | .lix a b, _, s => execLix_held a b s | .ldc a b, _, s => execLdc_held a b s | .cmpeq a b, _, s => execCmpeq_held a b s
  | .cmpne a b, _, s => execCmpne_held a b s | .cmplt a b, _, s => execCmplt_held a b s | .cmpltu a b, _, s => execCmpltu_held a b s
  | .plog a b, _, s => execPlog_held a b s | .sel a b, _, s => execSel_held a b s | .br a b, _, s => execBr_held a b s
  | .loop a b, _, s => execLoop_held a b s | .ld8u a b, _, s => execLd8u_held a b s | .ld16u a b, _, s => execLd16u_held a b s
  | .ld32u a b, _, s => execLd32u_held a b s | .ld32s a b, _, s => execLd32s_held a b s | .ld64 a b, _, s => execLd64_held a b s
  | .st8 a b, _, s => execSt8_held a b s | .st16 a b, _, s => execSt16_held a b s | .st32 a b, _, s => execSt32_held a b s
  | .st64 a b, _, s => execSt64_held a b s | .vld a b, _, s => execVld_held a b s | .vst a b, _, s => execVst_held a b s
  | .vldb a b, _, s => execVldb_held a b s | .sclr a b, _, s => execSclr_held a b s | .sptest a b, _, s => execSptest_held a b s
  | .stream a b, _, s => execStream_held a b s | .streamw a b, _, s => execStreamw_held a b s | .gather a b, _, s => execGather_held a b s
  | .scatter a b, _, s => execScatter_held a b s | .pld a b, _, s => execPld_held a b s | .pst a b, _, s => execPst_held a b s
  | .swait a b, _, s => execSwait_held a b s | .vadd a b, _, s => execVadd_held a b s | .vsub a b, _, s => execVsub_held a b s
  | .vmul a b, _, s => execVmul_held a b s | .vfma a b, _, s => execVfma_held a b s | .vmin a b, _, s => execVmin_held a b s
  | .vmax a b, _, s => execVmax_held a b s | .vabs a b, _, s => execVabs_held a b s | .vexp2 a b, _, s => execVexp2_held a b s
  | .vrcp a b, _, s => execVrcp_held a b s | .vrsq a b, _, s => execVrsq_held a b s | .vand a b, _, s => execVand_held a b s
  | .vor a b, _, s => execVor_held a b s | .vxor a b, _, s => execVxor_held a b s | .vshr a b, _, s => execVshr_held a b s
  | .vcmplt a b, _, s => execVcmplt_held a b s | .vsel a b, _, s => execVsel_held a b s | .vsum a b, _, s => execVsum_held a b s
  | .vmaxr a b, _, s => execVmaxr_held a b s | .vbc a b, _, s => execVbc_held a b s | .vext a b, _, s => execVext_held a b s
  | .vins a b, _, s => execVins_held a b s | .vcvt a b, _, s => execVcvt_held a b s | .vquant a b, _, s => execVquant_held a b s
  | .vdq a b, _, s => execVdq_held a b s | .dot a b, _, s => execDot_held a b s | .dotr a b, _, s => execDotr_held a b s
  | .axpyr a b, _, s => execAxpyr_held a b s | .mma a b, _, s => execMma_held a b s | .smx a b, _, s => execSmx_held a b s
  | .oscale a b, _, s => execOscale_held a b s | .fill a b, _, s => execFill_held a b s | .copy a b, _, s => execCopy_held a b s
  | .compare a b, _, s => execCompare_held a b s | .reduce a b, _, s => execReduce_held a b s | .checksum a b, _, s => execChecksum_held a b s
  | .aadd a b, _, s => execAadd_held a b s | .acas a b, _, s => execAcas_held a b s | .amax a b, _, s => execAmax_held a b s
  | .aswap a b, _, s => execAswap_held a b s | .fence a b, _, s => execFence_held a b s | .flag a b, _, s => execFlag_held a b s
  | .wait a b, _, s => execWait_held a b s | .yield a b, _, s => execYield_held a b s | .phase a b, _, s => execPhase_held a b s
  | .sendMailbox a b, _, s => execSendMailbox_held a b s | .sendDoorbell a b, _, s => execSendDoorbell_held a b s
  | .cntrd a b, _, s => execCntrd_held a b s | .timeBudget a b, _, s => execTimeBudget_held a b s | .timeRound a b, _, s => execTimeRound_held a b s
  | .endStroke a b, _, s => execEndStroke_held a b s | .sampleRecordWrite a b, _, s => execSampleRecordWrite_held a b s
  | .bulkSliceEnd a b, _, s => execBulkSliceEnd_held a b s | .partCreate a b, _, s => execPartCreate_held a b s
  | .partDestroy a b, _, s => execPartDestroy_held a b s | .partSetAffinity a b, _, s => execPartSetAffinity_held a b s
  | .partSetConsent a b, _, s => execPartSetConsent_held a b s | .extGrant a b, _, s => execExtGrant_held a b s
  | .extRevoke a b, _, s => execExtRevoke_held a b s | .extRetire a b, _, s => execExtRetire_held a b s
  | .extQueryEntry a b, _, s => execExtQueryEntry_held a b s | .extQueryNext a b, _, s => execExtQueryNext_held a b s
  | .winMap a b, _, s => execWinMap_held a b s | .winUnmap a b, _, s => execWinUnmap_held a b s | .rankSet a b, _, s => execRankSet_held a b s
  | .mcastSet a b, _, s => execMcastSet_held a b s | .keyLoad a b, _, s => execKeyLoad_held a b s | .shapeSet a b, _, s => execShapeSet_held a b s
  | .policeSet a b, _, s => execPoliceSet_held a b s | .rankBudget a b, _, s => execRankBudget_held a b s | .pwrCap a b, _, s => execPwrCap_held a b s
  | .pwrCapSagCap a b, _, s => execPwrCapSagCap_held a b s | .pwrCapSagWarn a b, _, s => execPwrCapSagWarn_held a b s
  | .pwrMode a b, _, s => execPwrMode_held a b s | .opPref a b, _, s => execOpPref_held a b s
  | .cntSelectEvent a b, _, s => execCntSelectEvent_held a b s | .cntSelectUserRead a b, _, s => execCntSelectUserRead_held a b s
  | .cntSnap a b, _, s => execCntSnap_held a b s | .regionCreate a b, _, s => execRegionCreate_held a b s
  | .regionAccept a b, _, s => execRegionAccept_held a b s | .regionDestroy a b, _, s => execRegionDestroy_held a b s
  | .regionPin a b, _, s => execRegionPin_held a b s | .regionUnpin a b, _, s => execRegionUnpin_held a b s
  | .regionPublish a b, _, s => execRegionPublish_held a b s | .mbxBind a b, _, s => execMbxBind_held a b s
  | .mbxLock a b, _, s => execMbxLock_held a b s | .progLoad a b, _, s => execProgLoad_held a b s | .progUnload a b, _, s => execProgUnload_held a b s
  | .attest a b, _, s => execAttest_held a b s | .roleSwap a b, _, s => execRoleSwap_held a b s | .fwStage a b, _, s => execFwStage_held a b s
  | .xlateSync a b, _, s => execXlateSync_held a b s | .memTarget a b, _, s => execMemTarget_held a b s
  | .memTargetRebuildShare a b, _, s => execMemTargetRebuildShare_held a b s | .memRetire a b, _, s => execMemRetire_held a b s
  | .errRead a b, _, s => execErrRead_held a b s | .devQuery a b, _, s => execDevQuery_held a b s | .ctrlFence a b, _, s => execCtrlFence_held a b s
  | .backgroundInstructionDone a, _, s => execBackgroundInstructionDone_held a s | .controlResultReturn a, _, s => execControlResultReturn_held a s
  | .pageWalk a b d e g, _, s => execPageWalk_held a b d e g s | .dataNc a b d e g, _, s => execDataNc_held a b d e g s
  | .migrationReadFail a b d, _, s => execMigrationReadFail_held a b d s | .migrationComplete a b, _, s => execMigrationComplete_held a b s
  | .extentDrainLimit a, _, s => execExtentDrainLimit_held a s | .extentScrubbingEntry a, _, s => execExtentScrubbingEntry_held a s
  | .scrubBlockReadback a b, _, s => execScrubBlockReadback_held a b s | .extentFree a, _, s => execExtentFree_held a s
  | .memReadDecode a b d e g, _, s => execMemReadDecode_held a b d e g s | .verifyRead a b, _, s => execVerifyRead_held a b s
  | .reconstruction a b d e, _, s => execReconstruction_held a b d e s | .coalesceRelease a b, _, s => execCoalesceRelease_held a b s
  | .parityDeltaUpdate a b, _, s => execParityDeltaUpdate_held a b s | .refreshDue a, _, s => execRefreshDue_held a s
  | .bankRefresh a, _, s => execBankRefresh_held a s | .rowCloseTimeout a, _, s => execRowCloseTimeout_held a s
  | .refreshRateSwitch a b, _, s => execRefreshRateSwitch_held a b s | .weaveDieFailed a, _, s => execWeaveDieFailed_held a s
  | .failoverTakeover a, _, s => execFailoverTakeover_held a s | .failoverResyncDone a, _, s => execFailoverResyncDone_held a s
  | .selfRefreshEntry a, _, s => execSelfRefreshEntry_held a s | .selfRefreshExit a, _, s => execSelfRefreshExit_held a s
  | .metadataFlush a, _, s => execMetadataFlush_held a s | .parityMismatch a b d e, _, s => execParityMismatch_held a b d e s
  | .stackFailed a b, _, s => execStackFailed_held a b s | .rebuildRand a b, _, s => execRebuildRand_held a b s
  | .pageRetireCopy a, _, s => execPageRetireCopy_held a s | .bankUnitMove a, _, s => execBankUnitMove_held a s
  | .scratchError a b d, _, s => execScratchError_held a b d s | .registerParityError a, _, s => execRegisterParityError_held a s
  | .weaverFence a b, _, s => execWeaverFence_held a b s | .rdS a, _, s => execRdS_held a s | .rdX a, _, s => execRdX_held a s
  | .upg a, _, s => execUpg_held a s | .rdNc a, _, s => execRdNc_held a s | .wrNc a b d, _, s => execWrNc_held a b d s
  | .atom a b d e g, _, s => execAtom_held a b d e g s | .ackInv a b d, _, s => execAckInv_held a b d s
  | .fwdDone a b d e g, _, s => execFwdDone_held a b d e g s | .fwdMiss a b d e, _, s => execFwdMiss_held a b d e s
  | .recallData a b d e g, _, s => execRecallData_held a b d e g s | .wb a b d e g h, _, s => execWb_held a b d e g h s
  | .evict a b d, _, s => execEvict_held a b d s | .probeAck a b, _, s => execProbeAck_held a b s | .mcAck a b d e, _, s => execMcAck_held a b d e s
  | .mcAckTimeout a b d, _, s => execMcAckTimeout_held a b d s | .snoopProbe a, _, s => execSnoopProbe_held a s
  | .agentDeadDeclare a b, _, s => execAgentDeadDeclare_held a b s | .tokenLapse a, _, s => execTokenLapse_held a s
  | .regionPublishComplete a, _, s => execRegionPublishComplete_held a s | .versionRetire a b, _, s => execVersionRetire_held a b s
  | .regionDrainLimit a, _, s => execRegionDrainLimit_held a s | .regionInvalidate a, _, s => execRegionInvalidate_held a s
  | .linkPacketRx a b d e g h, _, s => execLinkPacketRx_held a b d e g h s | .packetForward a b, _, s => execPacketForward_held a b s
  | .hopAgeDrop a b, _, s => execHopAgeDrop_held a b s | .idle a, _, s => execIdle_held a s | .ack a b, _, s => execAck_held a b s
  | .nak a b, _, s => execNak_held a b s | .credit a b d, _, s => execCredit_held a b d s | .delayReq a b, _, s => execDelayReq_held a b s
  | .delayRsp a b d, _, s => execDelayRsp_held a b d s | .retrainReq a b, _, s => execRetrainReq_held a b s
  | .linkDown a b, _, s => execLinkDown_held a b s | .trainingBlock a b, _, s => execTrainingBlock_held a b s
  | .lightDetect a b, _, s => execLightDetect_held a b s | .trainingStageTimeout a, _, s => execTrainingStageTimeout_held a s
  | .trainingComplete a, _, s => execTrainingComplete_held a s | .trainingRetry a, _, s => execTrainingRetry_held a s
  | .linkUp a, _, s => execLinkUp_held a s | .replayTimeout a, _, s => execReplayTimeout_held a s | .nakResend a, _, s => execNakResend_held a s
  | .lossOfLight a b, _, s => execLossOfLight_held a b s | .heartbeatTimeout a, _, s => execHeartbeatTimeout_held a s
  | .laneFault a b, _, s => execLaneFault_held a b s | .fastRetrainDone a b, _, s => execFastRetrainDone_held a b s
  | .retrainTimeout a, _, s => execRetrainTimeout_held a s | .laneRestore a b, _, s => execLaneRestore_held a b s
  | .holdExpiry a, _, s => execHoldExpiry_held a s | .engineFailed a, _, s => execEngineFailed_held a s
  | .sessionHello a b d e g h i, _, s => execSessionHello_held a b d e g h i s | .sessionConfirm a b d e, _, s => execSessionConfirm_held a b d e s
  | .sessionConfirmLapse a, _, s => execSessionConfirmLapse_held a s | .mbxPut a b d e g h, _, s => execMbxPut_held a b d e g h s
  | .flowReset a b d, _, s => execFlowReset_held a b d s | .linkState a b, _, s => execLinkState_held a b s
  | .linkStateFlood, _, s => execLinkStateFlood_held s | .mcInstall a b d e, _, s => execMcInstall_held a b d e s
  | .flowCountNotice a b d, _, s => execFlowCountNotice_held a b d s | .flaggedRequestDeliver a, _, s => execFlaggedRequestDeliver_held a s
  | .flagWaitExpiry a, _, s => execFlagWaitExpiry_held a s | .flowForget a, _, s => execFlowForget_held a s
  | .linkDieFailed a, _, s => execLinkDieFailed_held a s | .routeTableInstall, _, s => execRouteTableInstall_held s
  | .orientationBoundary, _, s => execOrientationBoundary_held s | .endpointUnreachable a, _, s => execEndpointUnreachable_held a s
  | .rankMissFill a b d, _, s => execRankMissFill_held a b d s | .transportTimeout a, _, s => execTransportTimeout_held a s
  | .rimMemRd a b d, _, s => execRimMemRd_held a b d s | .rimMemWr a b d e g, _, s => execRimMemWr_held a b d e g s
  | .hostReleaseTimer a, _, s => execHostReleaseTimer_held a s | .hostRequestHoldTimeout a, _, s => execHostRequestHoldTimeout_held a s
  | .rimMbxPut a, _, s => execRimMbxPut_held a s | .rimMbxAck a b d e g, _, s => execRimMbxAck_held a b d e g s
  | .rimDoorbell a b d e, _, s => execRimDoorbell_held a b d e s | .ctrlResult, _, s => execCtrlResult_held s
  | .attestReq a b, _, s => execAttestReq_held a b s | .attestResp a, _, s => execAttestResp_held a s
  | .telemetry a b, _, s => execTelemetry_held a b s | .telemetryData, _, s => execTelemetryData_held s | .event, _, s => execEvent_held s
  | .timeSync a, _, s => execTimeSync_held a s | .timeSyncPeriodic, _, s => execTimeSyncPeriodic_held s
  | .rimHealth a b d, _, s => execRimHealth_held a b d s | .rimNak a b d e, _, s => execRimNak_held a b d e s
  | .rimMessageDrop a b, _, s => execRimMessageDrop_held a b s | .rimMessageCrcFail a b, _, s => execRimMessageCrcFail_held a b s
  | .rimGroupDown a, _, s => execRimGroupDown_held a s | .rimLaneFault a b, _, s => execRimLaneFault_held a b s
  | .rimLaneRestore a b, _, s => execRimLaneRestore_held a b s | .mbxAckTimeout a, _, s => execMbxAckTimeout_held a s
  | .mailboxDelivery a, _, s => execMailboxDelivery_held a s | .ctrlGo, _, s => execCtrlGo_held s | .ctrlResPop, _, s => execCtrlResPop_held s
  | .eventPop, _, s => execEventPop_held s | .mbxPutRead a, _, s => execMbxPutRead_held a s | .mbxPop a, _, s => execMbxPop_held a s
  | .intStatusWrite a b, _, s => execIntStatusWrite_held a b s | .telemReq a, _, s => execTelemReq_held a s | .attestGo, _, s => execAttestGo_held s
  | .fwGo a, _, s => execFwGo_held a s | .hostDb a, _, s => execHostDb_held a s | .hostRegisterWrite a b d, _, s => execHostRegisterWrite_held a b d s
  | .identifyMemoryDevice, _, s => execIdentifyMemoryDevice_held s | .getSupportedLogs, _, s => execGetSupportedLogs_held s
  | .getLog, _, s => execGetLog_held s | .getEventRecords a, _, s => execGetEventRecords_held a s
  | .clearEventRecords a b, _, s => execClearEventRecords_held a b s | .getEventInterruptPolicy, _, s => execGetEventInterruptPolicy_held s
  | .setEventInterruptPolicy a, _, s => execSetEventInterruptPolicy_held a s | .getHealthInfo, _, s => execGetHealthInfo_held s
  | .getDynamicCapacityConfiguration a, _, s => execGetDynamicCapacityConfiguration_held a s
  | .getDynamicCapacityExtentList a, _, s => execGetDynamicCapacityExtentList_held a s
  | .addDynamicCapacityResponse a b, _, s => execAddDynamicCapacityResponse_held a b s
  | .releaseDynamicCapacity a b, _, s => execReleaseDynamicCapacity_held a b s | .dcOffer a b d, _, s => execDcOffer_held a b d s
  | .dcWithdraw a b d, _, s => execDcWithdraw_held a b d s | .cfgStage a b d e, _, s => execCfgStage_held a b d e s
  | .hostExtentFree a, _, s => execHostExtentFree_held a s | .keyGenerationAdvance a, _, s => execKeyGenerationAdvance_held a s
  | .keyGenerationDrop a, _, s => execKeyGenerationDrop_held a s | .debugUnlock a b, _, s => execDebugUnlock_held a b s
  | .debugHalt a, _, s => execDebugHalt_held a s | .stakeHealthFail a b d e, _, s => execStakeHealthFail_held a b d e s
  | .leaseEnd, _, s => execLeaseEnd_held s | .takeoverComplete a b, _, s => execTakeoverComplete_held a b s
  | .takeoverFailed, _, s => execTakeoverFailed_held s | .handoverReady, _, s => execHandoverReady_held s
  | .handoverBoundary, _, s => execHandoverBoundary_held s | .homeStakeReturn, _, s => execHomeStakeReturn_held s
  | .spineLoss, _, s => execSpineLoss_held s | .spineReturn, _, s => execSpineReturn_held s | .spineRejoin, _, s => execSpineRejoin_held s
  | .keepStoreWriteDone a b, _, s => execKeepStoreWriteDone_held a b s | .fwStageTimeout, _, s => execFwStageTimeout_held s
  | .checkpoint a, _, s => execCheckpoint_held a s | .persistentAreaWrite, _, s => execPersistentAreaWrite_held s
  | .feedLost a, _, s => execFeedLost_held a s | .feedRestored a, _, s => execFeedRestored_held a s | .sagWarn a, _, s => execSagWarn_held a s
  | .sagClear a, _, s => execSagClear_held a s | .overvolt a, _, s => execOvervolt_held a s | .capHeldOver, _, s => execCapHeldOver_held s
  | .groupFallback, _, s => execGroupFallback_held s | .throttle a b, _, s => execThrottle_held a b s
  | .throttleClear a b, _, s => execThrottleClear_held a b s | .snapshotRecordWrite a, _, s => execSnapshotRecordWrite_held a s
  | .powerOn, _, s => execPowerOn_held s | .hostIslandReset, _, s => execHostIslandReset_held s | .rimRetrain a, _, s => execRimRetrain_held a s
  | .spineTrainingRetry a, _, s => execSpineTrainingRetry_held a s | .enterService, _, s => execEnterService_held s
  | .warmQuiesceStart, _, s => execWarmQuiesceStart_held s | .warmQuiesceLimit, _, s => execWarmQuiesceLimit_held s
  | .tripCooldownEnd, _, s => execTripCooldownEnd_held s | .overvoltClear a, _, s => execOvervoltClear_held a s
  | .handoverFailed a b, _, s => execHandoverFailed_held a b s | .verificationBootEnd a b, _, s => execVerificationBootEnd_held a b s
  | .sessionOffer a, _, s => execSessionOffer_held a s | .resetCmd a, _, s => execResetCmd_held a s
  | .hostIslandResetRelease, _, s => execHostIslandResetRelease_held s | .unsupportedMailboxCommand a, _, s => execUnsupportedMailboxCommand_held a s

/-- Every command leaves the queue and keeps the legal ranges. -/
theorem exec_fair (c : Instr) (s : State) : FairOut s (exec c s) := by
  cases c with
  | roundBoundary m => exact execRoundBoundary_fair m s
  | lengthChangeEffect => exact execLengthChangeEffect_fair s
  | marker l boundary ep prio hops pend early off => exact execMarker_fair l boundary ep prio hops pend early off s
  | roundSet i r => exact execRoundSet_fair i r s
  | roundCtrl m => exact execRoundCtrl_fair m s
  | operatingPointChange => exact execOperatingPointChange_fair s
  | fwChunk head index words facts => exact execFwChunk_fair head index words facts s
  | trip sensor temp => exact execTrip_fair sensor temp s
  | undervoltReset bus => exact execUndervoltReset_fair bus s
  | devResetN low => exact execDevResetN_fair low s
  | deviceCold tag confirm => exact execDeviceCold_fair tag confirm s
  | deviceWarm tag confirm => exact execDeviceWarm_fair tag confirm s
  | coldStart f => exact execColdStart_fair f s
  | warmResetEntry => exact execWarmResetEntry_fair s
  | warmStart f => exact execWarmStart_fair f s
  | _ => exact fair_of_held (exec_held _ rfl s)

/-- Settles O56: every command is fair. -/
theorem commandsLeaveTheQueue : Obligations.commands_leave_the_queue :=
  fun c s t h => (exec_fair c s t h).1

theorem step_nil {s : State} (h : s.pending = []) : step s = .next s := by
  simp [step, h]

theorem step_cons {s : State} {c : Instr} {q : List Instr} (h : s.pending = c :: q) : step s = exec c { s with pending := q } := by
  simp [step, h]

/-- Settles O57: a step idles, or is the front command, which is fair, on the state with the rest of the queue. -/
theorem stepsKeepLegalRanges : Obligations.steps_keep_legal_ranges := by
  intro s t hlegal hstep
  cases hq : s.pending with
  | nil =>
    rw [step_nil hq, Host.Outcome.next.injEq] at hstep
    subst hstep
    exact ⟨hlegal, hq⟩
  | cons c q =>
    rw [step_cons hq] at hstep
    obtain ⟨hqueue, hkeeps⟩ := exec_fair c _ t hstep
    exact ⟨hkeeps hlegal, hqueue⟩

/-- Settles O1. -/
theorem stepRunsFrontCommand : Obligations.step_runs_front_command :=
  fun _ _ _ => step_cons rfl

/-- Settles O55. -/
theorem resetAndIdle : Obligations.reset_and_idle := by
  have hlegal : State.reset.Legal := ⟨rnd_fresh _, by simp [PowerSt.Legal, State.reset]⟩
  exact ⟨⟨rfl, rfl, rfl, rfl, rfl, rfl, rfl, rfl, rfl, rfl, hlegal⟩, fun _ => step_nil⟩

/-! #### The counter (R39) -/

theorem counter_of_gauge {s t : State} (h : t.gauge = s.gauge) : t.rnd.counter = s.rnd.counter :=
  congrArg (fun g => g.2.1) h

/-- The next state, where there is one, has the counter of the old state. -/
def Still (s : State) (o : Host.Outcome State Fault Refusal) : Prop := ∀ t, o = .next t → t.rnd.counter = s.rnd.counter

theorem still_next {s t : State} (h : t.rnd.counter = s.rnd.counter) : Still s (.next t) := fun _ e => by cases e; exact h
theorem still_of_held {s : State} {o : Host.Outcome State Fault Refusal} (h : Held s o) : Still s o :=
  fun t e => counter_of_gauge (h t e)

@[simp] theorem lengthResult_counter (s : State) : s.lengthResult.rnd.counter = s.rnd.counter := counter_of_gauge (lengthResult_gauge s)

theorem execLengthChangeEffect_still (s : State) : Still s (execLengthChangeEffect s) := by
  unfold execLengthChangeEffect
  split
  · exact still_next rfl
  · split <;> exact still_next rfl

theorem execMarker_still (l : LinkId) (boundary ep prio hops : Nat) (pend : Option (Fin 4 × Nat)) (early : Bool) (off : Nat)
    (s : State) : Still s (execMarker l boundary ep prio hops pend early off s) := by
  unfold execMarker
  dsimp only
  split
  · exact still_next rfl
  · cases pend <;> refine still_next ?_ <;> split <;> simp

/-- A control instruction leaves the counter where its own part does. -/
theorem control_counter (s : State) (i : Issuer) (r : CtrlReq) (op sub : Nat) (go : State → State → Issuer → CtrlReq → CtlOut × State)
    (hgo : ∀ f s, (go f s i r).2.rnd.counter = s.rnd.counter) : (s.control i r op sub go).rnd.counter = s.rnd.counter := by
  have harrive : (if (s.ctlQueue i).head? = some r then s else s.enqueue i r).rnd.counter = s.rnd.counter :=
    counter_of_gauge (either_gauge _ rfl (enqueue_gauge _ _ _))
  unfold State.control
  dsimp only
  revert harrive
  generalize (if (s.ctlQueue i).head? = some r then s else s.enqueue i r) = t
  intro harrive
  have hserved : ∀ o : CtlOut × State, o.2.rnd.counter = t.rnd.counter → ∀ u : State, u.gauge = o.2.gauge → u.rnd.counter = s.rnd.counter :=
    fun o ho u hu => (counter_of_gauge hu).trans (ho.trans harrive)
  split
  · rfl
  split
  · exact harrive
  have hown : (match t.commonStatus t.future i r with
    | .ok => go t.future t i r
    | st => (.fail st [], t)).2.rnd.counter = t.rnd.counter := by
    split
    · exact hgo _ _
    · rfl
  split
  · exact hown.trans harrive
  · exact hserved _ hown _ (by simp <;> rfl)

theorem ctlRoundSet_counter (f s : State) (i : Issuer) (r : CtrlReq) : (ctlRoundSet f s i r).2.rnd.counter = s.rnd.counter := by
  unfold ctlRoundSet
  dsimp only
  split
  · rfl
  split
  · dsimp only
    split
    · rfl
    · split
      · exact counter_of_gauge (by simp)
      · rfl
  · split <;> rfl

theorem execRoundSet_still (i : Issuer) (r : CtrlReq) (s : State) : Still s (execRoundSet i r s) :=
  still_next ((lengthResult_counter _).trans (control_counter s i r _ _ _ fun f s => ctlRoundSet_counter f s i r))

theorem execRoundCtrl_still (m : RoundCtrl) (s : State) : Still s (execRoundCtrl m s) := by
  cases m with
  | report | allotment => exact still_next rfl
  | lengthChange code =>
    refine still_next ?_
    unfold State.takeLength
    split
    · rfl
    · exact lengthResult_counter _

theorem execOperatingPointChange_still (s : State) : Still s (execOperatingPointChange s) := by
  unfold execOperatingPointChange
  split
  · exact still_next rfl
  · refine still_next (counter_of_gauge (s := s.onPower (fun x =>
      { x.nextCeiling with dutySum := 0, dutyRounds := 0, allFull := true, peak := 0 })) ?_)
    simp

/-- Settles O13: the commands that leave the gauge leave the counter; of the others, five move other parts of it. -/
theorem counterMovesAtBoundaries : Obligations.counter_moves_at_boundaries := by
  intro c s t h
  cases c with
  | lengthChangeEffect => exact .inl (execLengthChangeEffect_still s t h)
  | marker l boundary ep prio hops pend early off => exact .inl (execMarker_still l boundary ep prio hops pend early off s t h)
  | roundSet i r => exact .inl (execRoundSet_still i r s t h)
  | roundCtrl m => exact .inl (execRoundCtrl_still m s t h)
  | operatingPointChange => exact .inl (execOperatingPointChange_still s t h)
  | roundBoundary | coldStart | warmStart | warmResetEntry | devResetN | deviceCold | deviceWarm | trip | undervoltReset | fwChunk => simp
  | _ => exact .inl (still_of_held (exec_held _ rfl s) t h)

end Sys2Proof.Machine

/-! ### Registers and scalar instructions (R250, R257, R264 to R266) -/

namespace Sys2Proof.Machine

section Registers
variable (x : Run) (d lat : Nat)

theorem putG_gr_self (a : U64) : (x.putG d a lat).gr d = if d = 0 then 0 else a := by
  unfold Run.putG Run.setGr Run.gr
  split <;> simp

theorem putG_gr_ne (a : U64) {k : Nat} (hk : k ≠ d) : (x.putG d a lat).gr k = x.gr k := by
  unfold Run.putG Run.setGr
  split
  · rfl
  · simp [Run.gr, hk]

theorem putG_ready (a : U64) (hd : d ≠ 0) : (x.putG d a lat).rdy.look 0 d = x.cyc + lat := by
  simp [Run.putG, hd]

/-- A write to a general register leaves the vector registers, the predicates and the scratch. -/
theorem putG_rest (a : U64) : (x.putG d a lat).v = x.v ∧ (x.putG d a lat).p = x.p ∧ (x.putG d a lat).scratch = x.scratch := by
  unfold Run.putG Run.setGr
  split <;> exact ⟨rfl, rfl, rfl⟩

end Registers

/-- Settles O2. -/
theorem registerWrites : Obligations.register_writes := by
  intro x d lat a v b
  obtain ⟨hv, hp, hscratch⟩ := putG_rest x d lat a
  refine ⟨putG_gr_self x d lat a, fun k hk => putG_gr_ne x d lat a hk, putG_ready x d lat a, hv, hp, hscratch,
    ?_, fun k hk => ?_, ?_, rfl, rfl, rfl, ?_, fun k hk => ?_, ?_, rfl, rfl, rfl⟩
  · simp [Run.putV, Run.vr, Run.setVr]
  · simp [Run.putV, Run.vr, Run.setVr, hk]
  · simp [Run.putV]
  · simp [Run.putP, Run.pr, Run.setPr]
  · simp [Run.putP, Run.pr, Run.setPr, hk]
  · simp [Run.putP]

section Rows
variable {c : Instr} {w op : Nat} {f : Fields} {uses : List Nat} {ready : State → Run → Option Nat} {skip cost len lat : Nat}
  {good : Run → Prop} {s : State} {x : Run} {t : Nat}

/-- An instruction that, where `good` holds of its operands, changes its run as `g` says from them and retires. -/
theorem runsAs_of_body {body : State → Run → State} (g : Run → Run → Run)
    (hexec : ∀ s, exec c s = ok (s.tryIssue w op f skip uses ready body))
    (hbody : ∀ u x t, good x → body u (x.at_ t) = (u.onRun w (g (x.at_ t))).retire w cost len)
    (hplain : ∀ x, Plain (g x x) x) : RunsAs c w op f uses ready len cost good (fun x => g x x) := by
  intro s x t hissue hgood hroom
  rw [hexec]
  exact issue_put (put := g (x.at_ t)) hissue hroom (fun u => hbody u x t hgood) rfl (hplain _)

/-- An instruction whose body, where `good` holds, is `after`. -/
theorem issuesTo_of_body {body after : State → Run → State} {good : State → Run → Prop}
    (hexec : ∀ s, exec c s = ok (s.tryIssue w op f skip uses ready body))
    (hbody : ∀ s u x, good s x → body u x = after u x) : IssuesTo c w op f uses ready good after := by
  intro s x t hissue hgood
  rw [hexec]
  exact issue_to hissue fun u => hbody s u _ hgood

/-- The wait may be read in any form that agrees with it. -/
theorem RunsAs.wait {ready' : State → Run → Option Nat} {put : Run → Run} (h : RunsAs c w op f uses ready len cost good put)
    (hready : ∀ s x, ready s x = ready' s x) : RunsAs c w op f uses ready' len cost good put := by
  have heq : ready = ready' := funext fun s => funext fun x => hready s x
  exact heq ▸ h

/-- R264: an instruction that writes gD from gS1 and source 2. -/
theorem alu_runsAs (g : U64 → U64 → U64) (hexec : ∀ s, exec c s = ok (s.alu w op f cost lat g)) :
    RunsAs c w op f (f.dst.toNat :: f.src1.toNat :: use2 f) noWait 1 cost good
      (fun x => x.putG f.dst.toNat (g (x.s1 f) (x.s2 f)) lat) :=
  runsAs_of_body (fun x y => y.putG f.dst.toNat (g (x.s1 f) (x.s2 f)) lat) hexec (fun _ _ _ _ => rfl) fun _ => putG_plain _ _ _ _

/-- R264: an instruction that writes pD from gS1 and source 2. -/
theorem cmp_runsAs (g : U64 → U64 → Bool) (hexec : ∀ s, exec c s = ok (s.cmp w op f g)) :
    RunsAs c w op f (preg f.dst.toNat :: f.src1.toNat :: use2 f) noWait 1 1 good
      (fun x => x.putP f.dst.toNat (g (x.s1 f) (x.s2 f)) 1) :=
  runsAs_of_body (fun x y => y.putP f.dst.toNat (g (x.s1 f) (x.s2 f)) 1) hexec (fun _ _ _ _ => rfl) fun _ => putP_plain _ _ _ _

end Rows

section Scalar
variable (w : WeaverId) (f : Fields)

/-- R264: PLOG combines two predicates. -/
theorem plog_runsAs : RunsAs (.plog w f) w.val 0x14 f [preg f.dst.toNat, preg f.src1.toNat, preg f.src2.toNat] noWait 1 1 (fun _ => True)
    (fun x => x.putP f.dst.toNat (plogOp f (x.pr f.src1.toNat) (x.pr f.src2.toNat)) 1) :=
  runsAs_of_body (fun x y => y.putP f.dst.toNat (plogOp f (x.pr f.src1.toNat) (x.pr f.src2.toNat)) 1) (fun _ => rfl) (fun _ _ _ _ => rfl)
    fun _ => putP_plain _ _ _ _

/-- R264: SEL picks gS1 or gS2 by a predicate. -/
theorem sel_runsAs : RunsAs (.sel w f) w.val 0x15 f [f.dst.toNat, f.src1.toNat, f.src2.toNat, preg (immBits f 2 0)] noWait 1 1
    (fun _ => True) (fun x => x.putG f.dst.toNat (if x.pr (immBits f 2 0) then x.s1 f else x.gr f.src2.toNat) 1) :=
  runsAs_of_body (fun x y => y.putG f.dst.toNat (if x.pr (immBits f 2 0) then x.s1 f else x.gr f.src2.toNat) 1) (fun _ => rfl) (fun _ _ _ _ => rfl)
    fun _ => putG_plain _ _ _ _

theorem li_runsAs : RunsAs (.li w f) w.val 0x0D f [f.dst.toNat] noWait 1 1 (fun _ => True)
    (fun x => x.putG f.dst.toNat (f.imm.signExtend 64) 1) :=
  runsAs_of_body (fun _ y => y.putG f.dst.toNat (simm f) 1) (fun _ => rfl) (fun _ _ _ _ => rfl) fun _ => putG_plain _ _ _ _

/-- R252: LIX reads the extension word and goes on after it. -/
theorem lix_runsAs : RunsAs (.lix w f) w.val 0x0E f [f.dst.toNat] noWait 2 2 (fun _ => True)
    (fun x => x.putG f.dst.toNat (x.s.img.code.getD (x.pc + 1) 0) 1) :=
  runsAs_of_body (fun x y => y.putG f.dst.toNat (x.s.img.code.getD (x.pc + 1) 0) 1) (fun _ => rfl) (fun _ _ _ _ => rfl) fun _ => putG_plain _ _ _ _

/-- R264: LDC within the constants. -/
theorem ldc_runsAs : RunsAs (.ldc w f) w.val 0x0F f [f.dst.toNat, f.src1.toNat] noWait 1 2
    (fun x => (x.s1 f + f.imm.signExtend 64).toNat < x.s.img.consts.length)
    (fun x => x.putG f.dst.toNat (x.s.img.consts.getD (x.s1 f + f.imm.signExtend 64).toNat 0) 3) := by
  refine runsAs_of_body (fun x y => y.putG f.dst.toNat (x.s.img.consts.getD (x.s1 f + simm f).toNat 0) 3) (fun _ => rfl)
    (fun u x t hin => ?_) fun _ => putG_plain _ _ _ _
  replace hin : ((x.at_ t).s1 f + simm f).toNat < (x.at_ t).s.img.consts.length := hin
  simp only [List.getD_eq_getElem?_getD, List.getElem?_eq_getElem hin, Option.getD_some]

/-- R264: LDC past the constants. -/
theorem ldc_range : IssuesTo (.ldc w f) w.val 0x0F f [f.dst.toNat, f.src1.toNat] noWait
    (fun _ x => x.s.img.consts.length ≤ (x.s1 f + f.imm.signExtend 64).toNat) (fun u _ => u.faultRun w.val .range) := by
  refine issuesTo_of_body (fun _ => rfl) fun s u x hout => ?_
  replace hout : x.s.img.consts.length ≤ (x.s1 f + simm f).toNat := hout
  simp only [List.getElem?_eq_none hout]

end Scalar

/-- Settles O3: every row follows from `alu_runsAs`, `cmp_runsAs` or its own lemma. -/
theorem scalarInstructions : Obligations.scalar_instructions := by
  refine ⟨fun w f => ?arithmetic, fun w f => ?predicates, fun w f => ⟨li_runsAs w f, lix_runsAs w f, ldc_runsAs w f, ldc_range w f⟩⟩
  case arithmetic =>
    exact ⟨alu_runsAs (fun a b => a + b) fun _ => rfl, alu_runsAs (fun a b => a - b) fun _ => rfl, alu_runsAs (fun a b => a * b) fun _ => rfl,
      alu_runsAs (fun a b => if b = 0 then BitVec.allOnes 64 else a / b) fun _ => rfl,
      alu_runsAs (fun a b => if b = 0 then a else a % b) fun _ => rfl, alu_runsAs (fun a b => a &&& b) fun _ => rfl,
      alu_runsAs (fun a b => a ||| b) fun _ => rfl, alu_runsAs (fun a b => a ^^^ b) fun _ => rfl,
      alu_runsAs (fun a b => a <<< (b.toNat % 64)) fun _ => rfl, alu_runsAs (fun a b => a >>> (b.toNat % 64)) fun _ => rfl,
      alu_runsAs (fun a b => a.sshiftRight (b.toNat % 64)) fun _ => rfl, alu_runsAs (fun a b => if a.slt b then a else b) fun _ => rfl,
      alu_runsAs (fun a b => if b.slt a then a else b) fun _ => rfl⟩
  case predicates =>
    exact ⟨cmp_runsAs (fun a b => a == b) fun _ => rfl, cmp_runsAs (fun a b => a != b) fun _ => rfl, cmp_runsAs (fun a b => a.slt b) fun _ => rfl,
      cmp_runsAs (fun a b => a.ult b) fun _ => rfl, plog_runsAs w f, sel_runsAs w f⟩

/-! #### Branches and loops (R265, R266) -/

/-- A run that stands at a word of its code goes on there. -/
theorem pastEnd_of_lt {s : State} {w : Nat} {x : Run} (h : (s.weaver w).run = some x) (hpc : x.pc < x.s.img.code.length) :
    s.pastEnd w = s := by
  simp [State.pastEnd, h, Nat.not_le.mpr hpc]

section Branch
variable {w : WeaverId} {f : Fields} {s : State} {x : Run} {t : Nat}

/-- A branch to a word of the code. -/
theorem br_goes (hissue : Issues s w.val 0x16 f [] noWait x t) (hpc : x.pc + immBits f 12 0 < x.s.img.code.length) :
    Goes (exec (.br w f) s) (fun u => (u.weaver w.val).run = some { x with
      cyc := t + 2, lastIssued := x.pc, loops := loopLeave x.loops (x.pc + immBits f 12 0), pc := x.pc + immBits f 12 0 } ∧
      OnlyRun s u w.val) := by
  obtain ⟨u, hrun, honly, hexec⟩ := issue_to (skip := 1) (body := fun s x => (s.spend w.val 1 0 1 0).jumpTo w.val (x.pc + immBits f 12 0))
    (after := fun s x => (s.spend w.val 1 0 1 0).jumpTo w.val (x.pc + immBits f 12 0)) hissue fun _ => rfl
  refine ⟨_, hexec, ?_⟩
  have hjump := onRun_run (spend_run hrun 1 0 1 0) (fun y =>
    { y with lastIssued := y.pc, loops := loopLeave y.loops (x.pc + immBits f 12 0), pc := x.pc + immBits f 12 0 })
  have hgo := pastEnd_of_lt hjump hpc
  unfold State.jumpTo
  rw [show (x.at_ t).pc = x.pc from rfl, hgo]
  exact ⟨hjump, (honly.trans (spend_only u _ _ _ _ _)).trans (onRun_only _ _ _)⟩

/-- What LOOP makes of the state and run at its issue (R265). -/
theorem loop_issues (hissue : Issues s w.val 0x17 f [f.src1.toNat] noWait x t) :
    ∃ u : State, (u.weaver w.val).run = some (x.at_ t) ∧ OnlyRun s u w.val ∧ exec (.loop w f) s = .next (
      if 16777215 < (x.s1 f).toNat then u.faultRun w.val .range
      else if (x.s1 f).toNat = 0 then (u.spend w.val 1 0 0 0).goTo w.val (x.pc + 1 + immBits f 12 0)
      else ((u.spend w.val 1 0 0 0).onRun w.val (fun y => { y with
        lastIssued := y.pc, pc := y.pc + 1
        loops := { first := x.pc + 1, last := x.pc + 1 + immBits f 12 0, left := (x.s1 f).toNat } :: y.loops })).pastEnd w.val) :=
  issue_to (after := fun u x => if 16777215 < (x.s1 f).toNat then u.faultRun w.val .range
      else if (x.s1 f).toNat = 0 then (u.spend w.val 1 0 0 0).goTo w.val (x.pc + 1 + immBits f 12 0)
      else ((u.spend w.val 1 0 0 0).onRun w.val (fun y => { y with
        lastIssued := y.pc, pc := y.pc + 1
        loops := { first := x.pc + 1, last := x.pc + 1 + immBits f 12 0, left := (x.s1 f).toNat } :: y.loops })).pastEnd w.val)
    hissue fun _ => rfl

end Branch

/-- Settles O4: `br_goes`, and the three counts of LOOP. -/
theorem branchAndLoop : Obligations.branch_and_loop := by
  intro w f s x t
  refine ⟨br_goes, fun hissue hzero hroom => ?skip, fun hissue hpos hle hpc => ?enter, fun hissue hbig => ?range⟩
  case skip =>
    obtain ⟨u, hrun, honly, hexec⟩ := loop_issues hissue
    refine ⟨_, hexec, ?_⟩
    rw [if_neg (by omega), if_pos hzero, Nat.add_assoc x.pc]
    obtain ⟨hgo, hkeep⟩ := goTo_goes (pc := x.pc + (1 + immBits f 12 0)) (spend_run hrun 1 0 0 0) hroom
    exact ⟨hgo, (honly.trans (spend_only u _ _ _ _ _)).trans hkeep⟩
  case enter =>
    obtain ⟨u, hrun, honly, hexec⟩ := loop_issues hissue
    refine ⟨_, hexec, ?_⟩
    rw [if_neg (by omega), if_neg (by omega)]
    have henter := onRun_run (spend_run hrun 1 0 0 0) (fun y => { y with
        lastIssued := y.pc, pc := y.pc + 1
        loops := { first := x.pc + 1, last := x.pc + 1 + immBits f 12 0, left := (x.s1 f).toNat } :: y.loops })
    rw [pastEnd_of_lt henter hpc]
    exact ⟨henter, (honly.trans (spend_only u _ _ _ _ _)).trans (onRun_only _ _ _)⟩
  case range =>
    obtain ⟨u, hrun, honly, hexec⟩ := loop_issues hissue
    rw [if_pos hbig] at hexec
    exact ⟨u, hrun, honly, hexec⟩

end Sys2Proof.Machine

/-! ### Bytes in tables (R24, R155, R267) -/

namespace Sys2Proof.Machine

theorem nums_succ (a n : Nat) : nums a (n + 1) = a :: nums (a + 1) n := by
  simp only [nums, List.range_succ_eq_map, List.map_cons, List.map_map, Nat.add_zero]
  congr 1
  exact List.map_congr_left fun i _ => by simp only [Function.comp_apply]; omega

/-- Bytes put at consecutive keys are read there, and every other key is as it was. -/
theorem look_putBytes (bs : List Byte) (m : SMap Byte) (a k : Nat) :
    ((bs.zip (nums a bs.length)).foldl (fun m e => m.put 0 e.2 e.1) m).look 0 k =
      if a ≤ k ∧ k < a + bs.length then bs.getD (k - a) 0 else m.look 0 k := by
  induction bs generalizing m a with
  | nil => simp
  | cons b bs ih =>
    rw [List.length_cons, nums_succ, List.zip_cons_cons, List.foldl_cons, ih, look_put]
    rcases Nat.lt_trichotomy k a with hlt | heq | hgt
    · simp [show ¬ a + 1 ≤ k by omega, show ¬ a ≤ k by omega, show k ≠ a by omega]
    · subst heq
      simp
    · have hsub : k - a = k - (a + 1) + 1 := by omega
      simp only [hsub, List.getD_cons_succ, show k ≠ a by omega, if_false]
      congr 1
      simp only [eq_iff_iff]
      omega

/-- A byte list is read back where each of its bytes is. -/
theorem nums_map_eq {bs : List Byte} {g : Nat → Byte} {a : Nat}
    (h : ∀ k, a ≤ k → k < a + bs.length → g k = bs.getD (k - a) 0) : (nums a bs.length).map g = bs := by
  apply List.ext_getElem
  · simp [nums]
  · intro i h1 h2
    simp only [nums, List.map_map, List.getElem_map, List.getElem_range, Function.comp_apply]
    rw [h (a + i) (by omega) (by omega), Nat.add_sub_cancel_left, List.getD_eq_getElem?_getD, List.getElem?_eq_getElem h2,
      Option.getD_some]

end Sys2Proof.Machine

/-! ### Scratch (R259, R262, R267, R268) -/

namespace Sys2Proof.Machine

theorem sput_scratch (x : Run) (a : Nat) (bs : List Byte) (k : Nat) :
    (x.sput a bs).scratch.look 0 k = if a ≤ k ∧ k < a + bs.length then bs.getD (k - a) 0 else x.scratch.look 0 k :=
  look_putBytes bs x.scratch a k

theorem sbytes_sput (x : Run) (a : Nat) (bs : List Byte) : (x.sput a bs).sbytes a bs.length = bs :=
  nums_map_eq fun k h1 h2 => by rw [sput_scratch, if_pos ⟨h1, h2⟩]

section ScratchRows
variable {c : Instr} {w op : Nat} {f : Fields}

/-- R267: a load of a general register, within the scratch, outside it and on poison. -/
theorem sloadG_rows {n : Nat} (conv : Nat → U64) (hexec : ∀ s, exec c s = ok (s.sloadG w op f n conv)) :
    RunsAs c w op f [f.dst.toNat, f.src1.toNat] (scratchWait f n n) 1 1
      (fun x => x.inScratch (saddr x f) n n = true ∧ x.poisoned (saddr x f) n = false)
      (fun x => x.putG f.dst.toNat (conv (ofBytes (x.sbytes (saddr x f) n))) 3) ∧
    IssuesTo c w op f [f.dst.toNat, f.src1.toNat] (scratchWait f n n)
      (fun _ x => x.inScratch (saddr x f) n n = false) (fun u _ => u.faultRun w .range) ∧
    IssuesTo c w op f [f.dst.toNat, f.src1.toNat] (scratchWait f n n)
      (fun _ x => x.inScratch (saddr x f) n n = true ∧ x.poisoned (saddr x f) n = true) (fun u _ => u.faultRun w .poison) := by
  refine ⟨fun s x t hissue hok hroom => ?_, fun s x t hissue hout => ?_, fun s x t hissue hok => ?_⟩ <;> rw [hexec]
  · exact sload_goes hissue hok.1 hok.2 hroom (putG_plain _ _ _ _)
  · exact sload_range hissue hout
  · exact sload_poison hissue hok.1 hok.2

/-- R267: a store of a general register, within the scratch and outside it. -/
theorem sstore_rows {n : Nat} (hexec : ∀ s, exec c s = ok (s.sstore w op f f.src2.toNat n n false (fun x => toBytes n (x.gr f.src2.toNat).toNat))) :
    RunsAs c w op f [f.src2.toNat, f.src1.toNat] (scratchWait f n n) 1 1 (fun x => x.inScratch (saddr x f) n n = true)
      (fun x => x.sput (saddr x f) (toBytes n (x.gr f.src2.toNat).toNat)) ∧
    IssuesTo c w op f [f.src2.toNat, f.src1.toNat] (scratchWait f n n)
      (fun _ x => x.inScratch (saddr x f) n n = false) (fun u _ => u.faultRun w .range) := by
  refine ⟨fun s x t hissue hok hroom => ?_, fun s x t hissue hout => ?_⟩ <;> rw [hexec]
  · exact sstore_goes hissue hok hroom
  · exact sstore_range hissue hout

end ScratchRows

/-- Settles O5. -/
theorem scratchAccesses : Obligations.scratch_accesses := by
  refine ⟨fun w f => ?loads, fun w f => ?stores, fun x a bs => ?bytes⟩
  case loads =>
    exact ⟨sloadG_rows (BitVec.ofNat 64) fun _ => rfl, sloadG_rows (BitVec.ofNat 64) fun _ => rfl, sloadG_rows (BitVec.ofNat 64) fun _ => rfl,
      sloadG_rows (fun n => (BitVec.ofNat 32 n).signExtend 64) fun _ => rfl, sloadG_rows (BitVec.ofNat 64) fun _ => rfl⟩
  case stores => exact ⟨sstore_rows fun _ => rfl, sstore_rows fun _ => rfl, sstore_rows fun _ => rfl, sstore_rows fun _ => rfl⟩
  case bytes =>
    exact ⟨sbytes_sput x a bs, fun k hk => by rw [sput_scratch, if_neg (by omega)], rfl, rfl, rfl, rfl⟩

section ScratchVectors
variable (w : WeaverId) (f : Fields)

/-- R267: the checks of SCLR on its address and length. -/
theorem sclr_inside {a n size : Nat} (ha : a % 64 = 0) (hn : n % 64 = 0) (hend : a + n ≤ size) (hlt : a < size) :
    (a % 64 != 0 || n % 64 != 0 || decide (size < a + n) || (n == 0 && decide (size ≤ a))) = false := by
  simp [ha, hn, Nat.not_lt.mpr hend, Nat.not_le.mpr hlt]

/-- R267: SCLR zeroes its lines and clears their poison bits. -/
theorem sclr_goes {s : State} {x : Run} {t : Nat}
    (hissue : Issues s w.val 0x2C f [f.src1.toNat, f.src2.toNat] (fun _ x => x.landed (x.s1 f).toNat (x.gr f.src2.toNat).toNat) x t)
    (ha : (x.s1 f).toNat % 64 = 0) (hn : (x.gr f.src2.toNat).toNat % 64 = 0)
    (hend : (x.s1 f).toNat + (x.gr f.src2.toNat).toNat ≤ x.size) (hlt : (x.s1 f).toNat < x.size) (hroom : x.room 1) :
    Goes (exec (.sclr w f) s) (fun u => (u.weaver w.val).run = some (x.next { (x.at_ t).unpoison (x.s1 f).toNat (x.gr f.src2.toNat).toNat with
      scratch := x.scratch.dropIf (fun k => decide ((x.s1 f).toNat ≤ k) && decide (k < (x.s1 f).toNat + (x.gr f.src2.toNat).toNat)) }
      t (1 + ceilDiv (x.gr f.src2.toNat).toNat 256) 1) ∧ OnlyRun s u w.val) := by
  have hbad := sclr_inside ha hn hend hlt
  refine issue_put (put := fun y => { y.unpoison (x.s1 f).toNat (x.gr f.src2.toNat).toNat with
      scratch := y.scratch.dropIf (fun k => decide ((x.s1 f).toNat ≤ k) && decide (k < (x.s1 f).toNat + (x.gr f.src2.toNat).toNat)) })
    (hissue.wait ?_) hroom (fun u => ?_) rfl ⟨rfl, rfl, rfl, rfl⟩
  · simp only [hbad, Bool.false_eq_true, if_false]
  · exact if_neg (Bool.eq_false_iff.mp hbad)

/-- R267, R268: SPTEST reads the poison bit and never faults on it. -/
theorem sptest_runsAs : RunsAs (.sptest w f) w.val 0x2D f [preg f.dst.toNat, f.src1.toNat] (scratchWait f 1 1) 1 1
    (fun x => x.inScratch (saddr x f) 1 1 = true) (fun x => x.putP f.dst.toNat (x.poisoned (saddr x f) 1) 1) := by
  refine runsAs_of_body (fun x y => y.putP f.dst.toNat (x.poisoned (saddr x f) 1) 1) (fun _ => rfl) (fun u x t hin => ?_)
    fun _ => putP_plain _ _ _ _
  replace hin : (x.at_ t).inScratch (saddr (x.at_ t) f) 1 1 = true := hin
  simp only [hin, Bool.not_true, Bool.false_eq_true, if_false]

end ScratchVectors

/-- Settles O6: the vector forms of the loads and the stores, `sclr_goes` and `sptest_runsAs`. -/
theorem scratchVectors : Obligations.scratch_vectors := by
  intro w f
  refine ⟨fun s x t hissue hok hroom => ?load, fun s x t hissue hok hroom => ?store, fun s x t hissue hok hroom => ?broadcast,
    fun s x t hissue hclear hroom => ?clear, sptest_runsAs w f⟩
  case load => exact sload_goes hissue hok.1 hok.2 hroom (putV_plain _ _ _ _)
  case store =>
    have hgo := sstore_goes (whole := !isFp6 f.fmt.toNat) (bytes := fun x => bytesOfVec f.fmt.toNat (x.vr f.src2.toNat)) hissue hok hroom
    have hexec : exec (.vst w f) s = ok (s.sstore w.val 0x2A f (vreg f.src2.toNat) (if isFp6 f.fmt.toNat then 48 else 64)
      (if isFp6 f.fmt.toNat then 16 else 64) (!isFp6 f.fmt.toNat) (fun x => bytesOfVec f.fmt.toNat (x.vr f.src2.toNat))) := rfl
    rw [hexec]
    cases hfp6 : isFp6 f.fmt.toNat <;> simp only [hfp6] at hgo ⊢ <;> exact hgo
  case broadcast => exact sload_goes hissue hok.1 hok.2 hroom (putV_plain _ _ _ _)
  case clear =>
    obtain ⟨ha, hn, hend, hlt⟩ := hclear
    obtain ⟨u, hexec, hrun, honly⟩ := sclr_goes w f hissue ha hn hend hlt hroom
    exact ⟨u, hexec, _, hrun, rfl, rfl, rfl, rfl, rfl, rfl, honly⟩

end Sys2Proof.Machine

/-! ### Parity (R155, R156, R185, R187, R208) -/

namespace Sys2Proof.Machine

/-! #### XOR of byte lists -/

theorem xorBytes_length {a b : List Byte} {n : Nat} (ha : a.length = n) (hb : b.length = n) : (xorBytes a b).length = n := by
  simp [xorBytes, ha, hb]

theorem xorBytes_getD {a b : List Byte} {n i : Nat} (ha : a.length = n) (hb : b.length = n) (hi : i < n) :
    (xorBytes a b).getD i 0 = a.getD i 0 ^^^ b.getD i 0 := by
  simp [xorBytes, List.getD_eq_getElem?_getD, ha, hb, hi]

section XorFold
variable {n : Nat} (line : Nat → List Byte) (hline : ∀ v, (line v).length = n)
include hline

theorem xorFold_length (us : List Nat) {a : List Byte} (ha : a.length = n) : (us.foldl (fun a v => xorBytes a (line v)) a).length = n := by
  induction us generalizing a with
  | nil => exact ha
  | cons u us ih => exact ih (xorBytes_length ha (hline u))

theorem xorFold_getD (us : List Nat) {a : List Byte} {i : Nat} (ha : a.length = n) (hi : i < n) :
    (us.foldl (fun a v => xorBytes a (line v)) a).getD i 0 = us.foldl (fun b v => b ^^^ (line v).getD i 0) (a.getD i 0) := by
  induction us generalizing a with
  | nil => rfl
  | cons u us ih => rw [List.foldl_cons, List.foldl_cons, ih (xorBytes_length ha (hline u)), xorBytes_getD ha (hline u) hi]

end XorFold

/-- A sum of bytes from a start is the start and the sum from 0. -/
theorem foldl_xor_start (g : Nat → Byte) (us : List Nat) (b : Byte) :
    us.foldl (fun b v => b ^^^ g v) b = b ^^^ us.foldl (fun b v => b ^^^ g v) 0 := by
  have hzero (c : Byte) : 0 ^^^ c = c := BitVec.zero_xor
  induction us generalizing b with
  | nil => exact (BitVec.xor_zero).symm
  | cons u us ih => rw [List.foldl_cons, List.foldl_cons, ih, ih (0 ^^^ g u), hzero, BitVec.xor_assoc]

/-- A unit may be added before all the others. -/
theorem foldl_xor_others (g : Nat → Byte) {us : List Nat} {u : Nat} (hnodup : us.Nodup) (hmem : u ∈ us) (b : Byte) :
    us.foldl (fun b v => b ^^^ g v) b = (us.filter (· ≠ u)).foldl (fun b v => b ^^^ g v) (b ^^^ g u) := by
  induction us generalizing b with
  | nil => cases hmem
  | cons v us ih =>
    obtain ⟨hnot, hnodup⟩ := List.nodup_cons.mp hnodup
    by_cases hv : v = u
    · subst hv
      have hself : us.filter (· ≠ v) = us := List.filter_eq_self.mpr fun a ha => by
        simpa using fun h : a = v => hnot (h ▸ ha)
      rw [List.filter_cons_of_neg (by simp), hself, List.foldl_cons]
    · have hu : u ∈ us := (List.mem_cons.mp hmem).resolve_left (Ne.symm hv)
      rw [List.filter_cons_of_pos (by simpa using hv), List.foldl_cons, List.foldl_cons, ih hnodup hu, BitVec.xor_assoc,
        BitVec.xor_comm (g v), ← BitVec.xor_assoc]

/-- Every unit summed, with all but one added again, gives that one. -/
theorem foldl_xor_recovers (g : Nat → Byte) {us : List Nat} {u : Nat} (hnodup : us.Nodup) (hmem : u ∈ us) :
    (us.filter (· ≠ u)).foldl (fun b v => b ^^^ g v) (us.foldl (fun b v => b ^^^ g v) 0) = g u := by
  rw [foldl_xor_others g hnodup hmem, foldl_xor_start _ _ (0 ^^^ g u), foldl_xor_start, BitVec.xor_assoc, BitVec.xor_self,
    BitVec.xor_zero]
  exact BitVec.zero_xor

/-- The lines of all units summed, with all but one added again, give that one (R185). -/
theorem xorFold_recovers {n : Nat} (line : Nat → List Byte) (hline : ∀ v, (line v).length = n) {us : List Nat} {u : Nat}
    (hnodup : us.Nodup) (hmem : u ∈ us) :
    (us.filter (· ≠ u)).foldl (fun a v => xorBytes a (line v))
      (us.foldl (fun a v => xorBytes a (line v)) (List.replicate n 0)) = line u := by
  have hzeros : (List.replicate n (0 : Byte)).length = n := List.length_replicate
  have hall := xorFold_length line hline us hzeros
  have hothers := xorFold_length line hline (us.filter (· ≠ u)) hall
  apply List.ext_getElem (hothers.trans (hline u).symm)
  intro i h1 h2
  have hi : i < n := hline u ▸ h2
  have hget : ∀ bs : List Byte, ∀ h : i < bs.length, bs[i] = bs.getD i 0 := fun bs h => by
    rw [List.getD_eq_getElem?_getD, List.getElem?_eq_getElem h, Option.getD_some]
  have hstart : (List.replicate n (0 : Byte)).getD i 0 = 0 := by simp [List.getD_eq_getElem?_getD, hi]
  rw [hget _ h1, hget _ h2, xorFold_getD line hline _ hall hi, xorFold_getD line hline us hzeros hi, hstart]
  exact foldl_xor_recovers (fun v => (line v).getD i 0) hnodup hmem

/-! #### The array -/

theorem store_look (m : PoolMem) (pa a : Nat) (bs : List Byte) :
    (m.store pa bs).array.look 0 a = if pa ≤ a ∧ a < pa + bs.length then bs.getD (a - pa) 0 else m.array.look 0 a :=
  look_putBytes bs m.array pa a

theorem store_stored (m : PoolMem) (pa : Nat) (bs : List Byte) : (m.store pa bs).stored pa bs.length = bs :=
  nums_map_eq fun k h1 h2 => by rw [store_look, if_pos ⟨h1, h2⟩]

theorem unitLine_length (m : PoolMem) (h r u l : Nat) : (m.unitLine h r u l).length = 64 := by
  simp [PoolMem.unitLine, PoolMem.stored, nums]

/-! #### The parity unit -/

theorem storeParity_look (m : PoolMem) (h r l k : Nat) (bs : List Byte) :
    (m.storeParity h r l bs).parity.look 0 k =
      if parityKey h r (l * 64) ≤ k ∧ k < parityKey h r (l * 64) + bs.length then bs.getD (k - parityKey h r (l * 64)) 0
      else m.parity.look 0 k :=
  look_putBytes bs m.parity _ k

/-- The parity lines of a rand, written one after the other. -/
theorem storeParity_fold_look {h r : Nat} {line : Nat → List Byte} (hline : ∀ l, (line l).length = 64) (n : Nat) (m : PoolMem)
    {l o : Nat} (hl : l < n) (ho : l * 64 ≤ o ∧ o < l * 64 + 64) :
    ((List.range n).foldl (fun x l => x.storeParity h r l (line l)) m).parity.look 0 (parityKey h r o) = (line l).getD (o - l * 64) 0 := by
  induction n with
  | zero => omega
  | succ n ih =>
    rw [List.range_succ, List.foldl_append, List.foldl_cons, List.foldl_nil, storeParity_look, hline]
    unfold parityKey at ih ⊢
    by_cases heq : l = n
    · subst heq
      rw [if_pos (by omega)]
      congr 1
      omega
    · rw [if_neg (by omega)]
      exact ih (by omega)

theorem storeParity_fold_array {h r : Nat} (line : Nat → List Byte) (ls : List Nat) (m : PoolMem) :
    (ls.foldl (fun x l => x.storeParity h r l (line l)) m).array = m.array := by
  induction ls generalizing m with
  | nil => rfl
  | cons l ls ih => exact ih _

theorem storeParity_fold_deltas {h r : Nat} (line : Nat → List Byte) (ls : List Nat) (m : PoolMem) :
    (ls.foldl (fun x l => x.storeParity h r l (line l)) m).deltas = m.deltas := by
  induction ls generalizing m with
  | nil => rfl
  | cons l ls ih => exact ih _

/-- With no delta on its way to a rand, its parity lines are what the parity unit holds (R170). -/
theorem parityBytes_of_no_delta {m : PoolMem} {h r : Nat} (hnone : ∀ d ∈ m.deltas, ¬ (d.half = h ∧ d.rand = r)) (l : Nat) :
    m.parityBytes h r l = (nums (l * 64) 64).map (fun o => m.parity.look 0 (parityKey h r o)) := by
  have hfold : ∀ (ds : List Delta) (o : Nat) (b : Byte), (∀ d ∈ ds, ¬ (d.half = h ∧ d.rand = r)) →
      ds.foldl (fun b d => if d.half = h && d.rand = r then b ^^^ d.bytes.look 0 o else b) b = b := by
    intro ds o b hds
    induction ds with
    | nil => rfl
    | cons d ds ih =>
      rw [List.foldl_cons, if_neg (by simpa using hds d List.mem_cons_self)]
      exact ih fun d hd => hds d (List.mem_cons_of_mem _ hd)
  exact List.map_congr_left fun o _ => hfold _ _ _ hnone

/-- The memory in which no delta and no write intent of a rand is open. -/
def PoolMem.closedRand (m : PoolMem) (h r : Nat) : PoolMem :=
  { m with
    deltas := m.deltas.filter (fun d => !(d.half = h && d.rand = r))
    intents := m.intents.filter (fun x => !(x.1 / 10 = h && x.2 = r)) }

/-- The parity of a rand is made from its eight units alone (R156). -/
theorem reconstruct_parity (m : PoolMem) (h r l : Nat) : m.reconstruct h r 8 l =
    (List.range 8).foldl (fun a v => xorBytes a (m.unitLine h r v l)) (List.replicate 64 0) := rfl

theorem rewriteParity_mem {s : State} {h r : Nat} (hthere : 8 ∉ s.lostUnits h r) : (s.rewriteParity h r).mem =
    (List.range 4).foldl (fun x l => x.storeParity h r l (s.mem.reconstruct h r 8 l)) (s.mem.closedRand h r) := by
  have hsame : ∀ l, (s.mem.closedRand h r).reconstruct h r 8 l = s.mem.reconstruct h r 8 l := fun l => by
    simp only [reconstruct_parity]
    rfl
  unfold State.rewriteParity
  rw [if_neg hthere]
  show (List.range 4).foldl (fun (x : PoolMem) l => x.storeParity h r l ((s.mem.closedRand h r).reconstruct h r 8 l)) (s.mem.closedRand h r) = _
  simp only [hsame]

/-- What rewriting the parity of a rand leaves of the array, and makes of its parity lines (R208). -/
theorem rewriteParity_lines {s : State} {h r l : Nat} (hthere : 8 ∉ s.lostUnits h r) (hl : l < 4) :
    (s.rewriteParity h r).mem.array = s.mem.array ∧ (s.rewriteParity h r).mem.parityBytes h r l = s.mem.reconstruct h r 8 l := by
  have hlen : ∀ l, (s.mem.reconstruct h r 8 l).length = 64 := fun l => by
    rw [reconstruct_parity]
    exact xorFold_length _ (fun v => unitLine_length _ _ _ _ _) _ List.length_replicate
  rw [rewriteParity_mem hthere]
  refine ⟨storeParity_fold_array _ _ _, ?_⟩
  rw [parityBytes_of_no_delta]
  · have hback := nums_map_eq (bs := s.mem.reconstruct h r 8 l) (a := l * 64)
      fun o h1 h2 => storeParity_fold_look (h := h) (r := r) hlen 4 (s.mem.closedRand h r) hl ⟨h1, by rwa [hlen] at h2⟩
    rwa [hlen] at hback
  · rw [storeParity_fold_deltas]
    intro d hd hrand
    simp [PoolMem.closedRand, hrand] at hd

/-- Settles O54. -/
theorem poolArrayAndParity : Obligations.pool_array_and_parity := by
  refine ⟨fun m pa a bs => ⟨store_look m pa a bs, store_stored m pa bs, store_wf pa bs⟩, fun s h r u l hu hl hthere => ?_⟩
  obtain ⟨harray, hparity⟩ := rewriteParity_lines hthere hl
  have hunit : ∀ v, (s.rewriteParity h r).mem.unitLine h r v l = s.mem.unitLine h r v l := fun v => by
    simp only [PoolMem.unitLine, PoolMem.stored, harray]
  refine ⟨?_, hunit u⟩
  rw [hunit u]
  unfold PoolMem.reconstruct
  rw [if_neg (by omega), hparity]
  simp only [hunit]
  exact xorFold_recovers (fun v => s.mem.unitLine h r v l) (fun v => unitLine_length _ _ _ _ _) (by decide)
    (u := u) (by simp; omega)

end Sys2Proof.Machine

/-! ### Vector instructions (R272 to R275, R320 to R336) -/

namespace Sys2Proof.Machine

/-- An instruction that leaves its run as `z` before it retires. -/
theorem issue_retires {s : State} {w op : Nat} {f : Fields} {skip : Nat} {uses : List Nat} {ready : State → Run → Option Nat}
    {x : Run} {t cost len : Nat} {body : State → Run → State} {z : Run} (hissue : Issues s w op f uses ready x t) (hroom : x.room len)
    (hbody : ∀ u, (u.weaver w).run = some (x.at_ t) → OnlyRun s u w →
      ∃ v, body u (x.at_ t) = v.retire w cost len ∧ (v.weaver w).run = some z ∧ OnlyRun u v w)
    (hplain : Plain z (x.at_ t)) :
    Goes (ok (s.tryIssue w op f skip uses ready body)) (fun u => (u.weaver w).run = some (x.next z t cost len) ∧ OnlyRun s u w) := by
  obtain ⟨u, hgo, hrun, honly⟩ := tryIssue_goes hissue body (skip := skip)
  obtain ⟨v, hv, hz, hkeep⟩ := hbody u hrun honly
  obtain ⟨hcyc, hpc, hloops, himg⟩ := hplain
  obtain ⟨hend, hlast⟩ := retire_goes (cost := cost) hz hcyc hpc hloops himg hroom
  exact ⟨_, rfl, by rw [hgo, hv]; exact ⟨hend, (honly.trans hkeep).trans hlast⟩⟩

section VectorRows
variable {c : Instr} {w op : Nat} {f : Fields} {cost lat : Nat}

/-- R273, R325: a lane-wise instruction that may take draws. -/
theorem vop_runsAs (two : Bool) (g : Run → V512 × U64) (hexec : ∀ s, exec c s = ok (s.vop w op f two cost lat g)) :
    RunsAs c w op f ([vreg f.dst.toNat, vreg f.src1.toNat] ++ if two then [vreg f.src2.toNat] else []) noWait 1 cost (fun _ => True)
      (fun x => { x.putV f.dst.toNat (g x).1 lat with rng := (g x).2 }) :=
  fun s _ _ hissue _ hroom => (hexec s).symm ▸ vop_goes hissue hroom

/-- R273: a lane-wise instruction that rounds nothing. -/
theorem vpure_runsAs (two : Bool) (g : Run → V512) (hexec : ∀ s, exec c s = ok (s.vpure w op f two cost lat g)) :
    RunsAs c w op f ([vreg f.dst.toNat, vreg f.src1.toNat] ++ if two then [vreg f.src2.toNat] else []) noWait 1 cost (fun _ => True)
      (fun x => x.putV f.dst.toNat (g x) lat) :=
  fun s _ _ hissue _ hroom => (hexec s).symm ▸ vpure_goes hissue hroom

end VectorRows

section VectorMoves
variable (w : WeaverId) (f : Fields)

theorem vsum_runsAs : RunsAs (.vsum w f) w.val 0x50 f [f.dst.toNat, vreg f.src1.toNat] noWait 1 1 (fun _ => True)
    (fun x => x.putG f.dst.toNat (vsumOf f.fmt.toNat (x.vr f.src1.toNat)) 6) :=
  runsAs_of_body (fun x y => y.putG f.dst.toNat (vsumOf f.fmt.toNat (x.vr f.src1.toNat)) 6) (fun _ => rfl) (fun _ _ _ _ => rfl)
    fun _ => putG_plain _ _ _ _

theorem vmaxr_runsAs : RunsAs (.vmaxr w f) w.val 0x51 f [f.dst.toNat, vreg f.src1.toNat] noWait 1 1 (fun _ => True)
    (fun x => x.putG f.dst.toNat (vmaxOf f.fmt.toNat (x.vr f.src1.toNat)) 6) :=
  runsAs_of_body (fun x y => y.putG f.dst.toNat (vmaxOf f.fmt.toNat (x.vr f.src1.toNat)) 6) (fun _ => rfl) (fun _ _ _ _ => rfl)
    fun _ => putG_plain _ _ _ _

/-- R272: VBC puts the low lane bits of gS1 into every lane. -/
theorem vbc_runsAs : RunsAs (.vbc w f) w.val 0x52 f [vreg f.dst.toNat, f.src1.toNat] noWait 1 1 (fun _ => True)
    (fun x => x.putV f.dst.toNat (ofLanes f.fmt.toNat
      (List.replicate (laneCount f.fmt.toNat) ((x.s1 f).toNat % 2 ^ elemBits f.fmt.toNat))) 2) :=
  runsAs_of_body (fun x y => y.putV f.dst.toNat (ofLanes f.fmt.toNat
      (List.replicate (laneCount f.fmt.toNat) ((x.s1 f).toNat % 2 ^ elemBits f.fmt.toNat))) 2) (fun _ => rfl) (fun _ _ _ _ => rfl)
    fun _ => putV_plain _ _ _ _

/-- R273: VEXT of a lane that is there. -/
theorem vext_runsAs : RunsAs (.vext w f) w.val 0x53 f [f.dst.toNat, vreg f.src1.toNat] noWait 1 1
    (fun x => immBits f 6 0 < (elems f.fmt.toNat (x.vr f.src1.toNat)).length)
    (fun x => x.putG f.dst.toNat (BitVec.ofNat 64 ((elems f.fmt.toNat (x.vr f.src1.toNat)).getD (immBits f 6 0) 0)) 2) := by
  refine runsAs_of_body
    (fun x y => y.putG f.dst.toNat (BitVec.ofNat 64 ((elems f.fmt.toNat (x.vr f.src1.toNat)).getD (immBits f 6 0) 0)) 2)
    (fun _ => rfl) (fun u x t hlane => ?_) fun _ => putG_plain _ _ _ _
  replace hlane : immBits f 6 0 < (elems f.fmt.toNat ((x.at_ t).vr f.src1.toNat)).length := hlane
  simp only [List.getD_eq_getElem?_getD, List.getElem?_eq_getElem hlane, Option.getD_some]

theorem vext_range : IssuesTo (.vext w f) w.val 0x53 f [f.dst.toNat, vreg f.src1.toNat] noWait
    (fun _ x => (elems f.fmt.toNat (x.vr f.src1.toNat)).length ≤ immBits f 6 0) (fun u _ => u.faultRun w.val .range) :=
  issuesTo_of_body (fun _ => rfl) fun _ _ _ hlane => by simp only [List.getElem?_eq_none hlane]

/-- R273: VINS into a lane that is there. -/
theorem vins_runsAs : RunsAs (.vins w f) w.val 0x54 f [vreg f.dst.toNat, f.src1.toNat] noWait 1 1
    (fun _ => immBits f 6 0 < laneCount f.fmt.toNat)
    (fun x => x.putV f.dst.toNat (setLane f.fmt.toNat (immBits f 6 0) ((x.s1 f).toNat % 2 ^ elemBits f.fmt.toNat) (x.vr f.dst.toNat)) 2) :=
  runsAs_of_body (fun x y => y.putV f.dst.toNat
      (setLane f.fmt.toNat (immBits f 6 0) ((x.s1 f).toNat % 2 ^ elemBits f.fmt.toNat) (x.vr f.dst.toNat)) 2) (fun _ => rfl)
    (fun _ _ _ hlane => if_neg (Nat.not_le.mpr hlane)) fun _ => putV_plain _ _ _ _

theorem vins_range : IssuesTo (.vins w f) w.val 0x54 f [vreg f.dst.toNat, f.src1.toNat] noWait
    (fun _ _ => laneCount f.fmt.toNat ≤ immBits f 6 0) (fun u _ => u.faultRun w.val .range) :=
  issuesTo_of_body (fun _ => rfl) fun _ _ _ hlane => if_pos hlane

/-- What VCVT converts its source to, by its part index (R274). -/
def cvtRun (f : Fields) (x : Run) (k : Nat × Nat × Nat) : V512 × U64 × Bool :=
  vcvtOf (immBits f 3 0) f.fmt.toNat (immMode (immBits f 9 8) x.s.roundMode) k.1 k.2.1 k.2.2 x.rng (x.vr f.src1.toNat) (x.vr f.dst.toNat)

/-- R274, R327: VCVT between defined formats by a part index in range, where no overflow traps. -/
theorem vcvt_runsAs {k : Nat × Nat × Nat} (hfmt : fmtOf (immBits f 3 0) ≠ .none)
    (hpart : cvtPart (laneCount (immBits f 3 0)) (laneCount f.fmt.toNat) (immBits f 6 4) = some k) :
    RunsAs (.vcvt w f) w.val 0x55 f [vreg f.dst.toNat, vreg f.src1.toNat] noWait 1 1
      (fun x => ¬((cvtRun f x k).2.2 = true ∧ x.s.trapOvf = true))
      (fun x => { x.putV f.dst.toNat (cvtRun f x k).1 4 with rng := (cvtRun f x k).2.1 }) := by
  intro s x t hissue htrap hroom
  refine issue_retires hissue hroom (fun u hrun _ => ?_) ⟨rfl, rfl, rfl, rfl⟩
  refine ⟨(u.onRun w.val (fun y => { y with rng := (cvtRun f (x.at_ t) k).2.1 })).onRun w.val
    (fun y => y.putV f.dst.toNat (cvtRun f (x.at_ t) k).1 4), ?_, onRun_run (onRun_run hrun _) _,
    (onRun_only _ _ _).trans (onRun_only _ _ _)⟩
  replace htrap : ¬ ((cvtRun f (x.at_ t) k).2.2 && (x.at_ t).s.trapOvf) = true := by
    rw [Bool.and_eq_true]
    exact htrap
  rw [if_neg hfmt, hpart]
  exact if_neg htrap

end VectorMoves

/-- Settles O7. -/
theorem vectorLanesAndMoves : Obligations.vector_lanes_and_moves := by
  refine ⟨fun w f => ?lanes, fun w f => ⟨vsum_runsAs w f, vmaxr_runsAs w f, vbc_runsAs w f, vext_runsAs w f, vext_range w f, vins_runsAs w f,
    vins_range w f, fun k hfmt hpart => vcvt_runsAs w f hfmt hpart⟩⟩
  let c := f.fmt.toNat
  let a := fun (x : Run) => x.vr f.src1.toNat
  let b := fun (x : Run) => x.vr f.src2.toNat
  let d := fun (x : Run) => x.vr f.dst.toNat
  exact ⟨vop_runsAs true (fun x => vbin c x.s.roundMode x.rng Val.add (· + ·) (a x) (b x)) fun _ => rfl,
    vop_runsAs true (fun x => vbin c x.s.roundMode x.rng (fun p q => p.add q.neg) (· - ·) (a x) (b x)) fun _ => rfl,
    vop_runsAs true (fun x => vbin c x.s.roundMode x.rng Val.mul (· * ·) (a x) (b x)) fun _ => rfl,
    vop_runsAs true (fun x => vfmaLanes c x.s.roundMode x.rng (a x) (b x) (d x)) fun _ => rfl,
    vpure_runsAs true (fun x => vpick c pickMin min (a x) (b x)) fun _ => rfl,
    vpure_runsAs true (fun x => vpick c pickMax max (a x) (b x)) fun _ => rfl,
    vpure_runsAs false (fun x => ofLanes c ((lanes c (a x)).map (absLane c))) fun _ => rfl,
    vpure_runsAs false (fun x => vmapF c FloatFmt.exp2 (a x)) fun _ => rfl,
    vpure_runsAs false (fun x => vmapF c FloatFmt.rcp (a x)) fun _ => rfl,
    vpure_runsAs false (fun x => vmapF c FloatFmt.rsq (a x)) fun _ => rfl,
    vpure_runsAs true (fun x => a x &&& b x) fun _ => rfl,
    vpure_runsAs true (fun x => a x ||| b x) fun _ => rfl,
    vpure_runsAs true (fun x => a x ^^^ b x) fun _ => rfl,
    vpure_runsAs false (fun x => ofLanes c ((lanes c (a x)).map (· / 2 ^ immBits f 4 0))) fun _ => rfl,
    vpure_runsAs true (fun x => ofLanes c
      (List.zipWith (fun p q => if laneLt c p q then 2 ^ laneBits c - 1 else 0) (lanes c (a x)) (lanes c (b x)))) fun _ => rfl,
    vpure_runsAs true (fun x => (a x &&& d x) ||| (b x &&& ~~~ d x)) fun _ => rfl⟩

/-! #### Block formats (R275, R331, R332) -/

section Blocks
variable {w : WeaverId} {f : Fields}

/-- R275: a count of 0 passes the checks of a block instruction. -/
theorem blockCheck_zero (b : Nat) (bad : Bool) : (0 % b != 0 || (0 != 0 && bad)) = false := by simp

theorem blockCheck_whole {n b : Nat} (hb : n % b = 0) {bad : Bool} (hbad : bad = false) : (n % b != 0 || (n != 0 && bad)) = false := by
  simp [hb, hbad]

/-- R275: VQUANT of a count of 0 waits for nothing and writes nothing. -/
theorem vquant_of_zero (hn : immBits f 31 8 = 0) :
    RunsAs (.vquant w f) w.val 0x56 f [f.dst.toNat, f.src1.toNat, f.src2.toNat] noWait 1 8 (fun _ => True) id := by
  intro s x t hissue _ hroom
  refine issue_retires (hissue.wait ?_) hroom (fun u hrun _ => ⟨u, ?_, hrun, OnlyRun.refl u _⟩) (Plain.refl _)
  · exact if_pos (by simp [quantN, hn])
  · have hq : quantN f = 0 := hn
    simp only [hq, blockCheck_zero, Bool.false_eq_true, if_false, if_true]

/-- R275: VDQ of a count of 0 waits for nothing and writes nothing. -/
theorem vdq_of_zero (hn : immBits f 31 8 = 0) :
    RunsAs (.vdq w f) w.val 0x57 f [f.dst.toNat, f.src1.toNat, f.src2.toNat] noWait 1 8 (fun _ => True) id := by
  intro s x t hissue _ hroom
  refine issue_retires (hissue.wait ?_) hroom (fun u hrun _ => ⟨u, ?_, hrun, OnlyRun.refl u _⟩) (Plain.refl _)
  · exact if_pos (by simp [quantN, hn])
  · have hq : quantN f = 0 := hn
    simp only [hq, blockCheck_zero, Bool.false_eq_true, if_false, if_true]

end Blocks

/-- The wait of a block instruction of whole blocks. -/
theorem blockWait {n b : Nat} (hb : n % b = 0) (hn : n ≠ 0) (bad : Bool) (t : Option Nat) :
    (if (n % b != 0 || (n != 0 && bad)) || n = 0 then some 0 else t) = if bad then some 0 else t := by
  simp [hb, hn]

/-- Settles O8: the checks of the two instructions pass in their order. -/
theorem vectorBlocks : Obligations.vector_blocks := by
  intro w f
  refine ⟨fun hn => ⟨vquant_of_zero hn, vdq_of_zero hn⟩, fun hb hn =>
    ⟨fun s x t hissue hgood hroom => ?quant, fun s x t hissue hgood hroom => ?dequant⟩⟩
  case quant =>
    obtain ⟨hbad, hclean, htrap⟩ := hgood
    have hcheck := blockCheck_whole hb hbad
    have hpoison : ¬ ([((x.s1 f).toNat, packedBytes (immBits f 3 0) (immBits f 31 8))].any (fun r => x.poisoned r.1 r.2)) = true := by
      simp [hclean]
    exact issue_retires (hissue.wait (blockWait hb hn _ _)) hroom (fun u hrun _ => ⟨_, (if_neg (Bool.eq_false_iff.mp hcheck)).trans
      ((if_neg hn).trans ((if_neg hpoison).trans (if_neg (Bool.eq_false_iff.mp htrap)))), onRun_run hrun _, onRun_only _ _ _⟩)
      ⟨rfl, rfl, rfl, rfl⟩
  case dequant =>
    obtain ⟨hbad, hclean, hscales, htrap⟩ := hgood
    have hcheck := blockCheck_whole hb hbad
    have hpoison : ¬ ([((x.s1 f).toNat, packedBytes (immBits f 3 0) (immBits f 31 8)),
        ((x.gr f.src2.toNat).toNat, immBits f 31 8 / blockSize (immBits f 4 4 == 1))].any (fun r => x.poisoned r.1 r.2)) = true := by
      simp [hclean, hscales]
    exact issue_retires (hissue.wait (blockWait hb hn _ _)) hroom (fun u hrun _ => ⟨_, (if_neg (Bool.eq_false_iff.mp hcheck)).trans
      ((if_neg hn).trans ((if_neg hpoison).trans (if_neg (Bool.eq_false_iff.mp htrap)))), onRun_run hrun _, onRun_only _ _ _⟩)
      ⟨rfl, rfl, rfl, rfl⟩

end Sys2Proof.Machine

/-! ### Array instructions, softmax and scaling (R263, R276 to R280) -/

namespace Sys2Proof.Machine

/-- An instruction that only changes its run leaves the power controller. -/
theorem OnlyRun.power {s u : State} {w : Nat} (h : OnlyRun s u w) : u.power = s.power := by
  have hbare := congrArg State.power h.2.2.2
  exact hbare

theorem Goes.imp {o : Host.Outcome State Fault Refusal} {p q : State → Prop} (h : Goes o p) (hpq : ∀ u, p u → q u) : Goes o q := by
  obtain ⟨u, ho, hp⟩ := h
  exact ⟨u, ho, hpq u hp⟩

/-- R276: what DOT adds to gD. -/
def dotValue (f : Fields) (x : Run) : U64 :=
  BitVec.ofNat 64 (accAdd (isIntG f.fmt.toNat) ((x.gd f).toNat % 2 ^ 32)
    (dotSum (0x200 + f.fmt.toNat) f.fmt.toNat (elems f.fmt.toNat (x.vr f.src1.toNat)) (elems f.fmt.toNat (x.vr f.src2.toNat))))

/-- R263, R276: DOT writes gD, in 1 cycle, and marks the stroke at a lower duty. -/
theorem dot_goes {w : WeaverId} {f : Fields} {s : State} {x : Run} {t : Nat}
    (hissue : Issues s w.val 0x60 f [f.dst.toNat, vreg f.src1.toNat, vreg f.src2.toNat] noWait x t) (hroom : x.room 1) :
    Goes (exec (.dot w f) s) (fun u => (u.weaver w.val).run = some (x.next { (x.at_ t).putG f.dst.toNat (dotValue f x) 4 with
      slowed := ((x.at_ t).putG f.dst.toNat (dotValue f x) 4).slowed || decide (s.power.duty < 16) } t 1 1) ∧ OnlyRun s u w.val) := by
  refine issue_retires hissue hroom (fun u hrun honly => ?_) (putG_plain (x.at_ t) _ _ _)
  obtain ⟨hslow, hkeep⟩ := arrayUse_run (p := x.s.part) (cycles := 1) (onRun_run hrun (fun y => y.putG f.dst.toNat (dotValue f x) 4))
  refine ⟨_, rfl, ?_, (onRun_only u _ _).trans hkeep⟩
  rw [← honly.power]
  exact hslow

/-- A write to a general register leaves the mark of a slowed stroke. -/
theorem putG_slowed (x : Run) (d lat : Nat) (a : U64) : (x.putG d a lat).slowed = x.slowed := by
  unfold Run.putG Run.setGr
  split <;> rfl

/-- R263, R276, R277: a tile within its regions, on no poison line and with no NaN scale, writes its C. -/
theorem tile_goes {c : Instr} {w op : Nat} {f : Fields} {o : TileOp} {shape : Run → Tile} {scaled : Bool} {s : State} {x : Run} {t : Nat}
    (hexec : ∀ s, exec c s = ok (s.tileOp w op f o shape scaled)) (hshape : ∀ y n, shape (Run.at_ y n) = shape y)
    (hissue : Issues s w op f [f.dst.toNat, f.src1.toNat, f.src2.toNat] (fun _ x => if (shape x).bad o x.size then some 0 else
      landedAll x ((shape x).ins o ++ [((shape x).c, (shape x).cBytes o)])) x t)
    (hbad : (shape x).bad o x.size = false) (hclean : ((shape x).ins o).any (fun r => x.poisoned r.1 r.2) = false)
    (hnan : (shape x).nanScale o x = false) (hroom : x.room (if scaled then 2 else 1)) :
    Goes (exec c s) (fun u => ∃ y, (u.weaver w).run = some y ∧
      y.scratch = (x.sput (shape x).c ((shape x).result o x)).scratch ∧ y.g = x.g ∧ y.v = x.v ∧ y.p = x.p ∧
      y.slowed = (x.slowed || decide (s.power.duty < 16)) ∧
      y.cyc = t + dutyCost s.power.duty 12 (ceilDiv ((shape x).m * (shape x).n * (shape x).kg) (groupG (shape x).fmt) +
        (if (shape x).scaled then ceilDiv (shape x).sbBytes 8 else 0)) ∧ OnlyRun s u w) := by
  have hat := hshape x t
  rw [hexec]
  unfold State.tileOp
  refine Goes.imp (issue_retires (z := { (x.at_ t).sput (shape x).c ((shape x).result o x) with slowed := x.slowed || decide (s.power.duty < 16) })
    (cost := dutyCost s.power.duty 12 (ceilDiv ((shape x).m * (shape x).n * (shape x).kg) (groupG (shape x).fmt) +
      (if (shape x).scaled then ceilDiv (shape x).sbBytes 8 else 0))) hissue hroom (fun u hrun honly => ?_) ⟨rfl, rfl, rfl, rfl⟩)
    fun u ⟨hrun, honly⟩ => ⟨_, hrun, rfl, rfl, rfl, rfl, rfl, rfl, honly⟩
  have hput := onRun_run hrun (fun y => y.sput (shape x).c ((shape x).result o x))
  obtain ⟨hslow, hkeep⟩ := arrayUse_run (p := x.s.part) (cycles := dutyCost s.power.duty 12 (ceilDiv ((shape x).m * (shape x).n * (shape x).kg)
    (groupG (shape x).fmt) + (if (shape x).scaled then ceilDiv (shape x).sbBytes 8 else 0))) hput
  refine ⟨_, ?_, ?_, (onRun_only u _ _).trans hkeep⟩
  · dsimp only
    rw [hat]
    refine (if_neg (Bool.eq_false_iff.mp hbad)).trans ((if_neg (Bool.eq_false_iff.mp hclean)).trans ((if_neg (Bool.eq_false_iff.mp hnan)).trans ?_))
    rw [honly.power]
    rfl
  · rw [hslow, ← honly.power]
    rfl

/-- R279, R280: one online-softmax step on N scores. -/
theorem smx_inside {x : Run} {f : Fields} {d n m : Nat} (hlow : 1 ≤ d) (hhigh : d ≤ 28)
    (hin : (x.s1 f).toNat + 4 * n ≤ x.size ∧ (x.gr f.src2.toNat).toNat + m ≤ x.size) :
    (d = 0 || decide (28 < d) || decide (x.size < (x.s1 f).toNat + 4 * n) || decide (x.size < (x.gr f.src2.toNat).toNat + m)) = false := by
  obtain ⟨hscores, hweights⟩ := hin
  simp [show d ≠ 0 by omega, Nat.not_lt.mpr hhigh, Nat.not_lt.mpr hscores, Nat.not_lt.mpr hweights]

/-- What SMX writes leaves the place of its run. -/
theorem smx_plain (y : Run) (a d lat : Nat) (bs : List Byte) (m l k g : U64) :
    Plain { (((y.sput a bs).putG d m lat).putG (d + 1) l lat).putG (d + 2) k lat with rng := g } y := by
  have hputs := (putG_plain (((y.sput a bs).putG d m lat).putG (d + 1) l lat) (d + 2) k lat).trans
    ((putG_plain ((y.sput a bs).putG d m lat) (d + 1) l lat).trans ((putG_plain (y.sput a bs) d m lat).trans (sput_plain y a bs)))
  exact hputs

/-- Settles O9: `dot_goes`, `tile_goes`, and the checks of SMX and OSCALE in their order. -/
theorem arrayAndSoftmaxInstructions : Obligations.array_and_softmax_instructions := by
  refine ⟨fun w f => ⟨fun s x t hissue hroom => ?dot, ?dotr, ?axpyr, ?mma⟩, fun w f => ⟨fun hlow hhigh s x t hissue hgood hroom => ?smx,
    fun s x t hissue hgood hroom => ?oscale⟩⟩
  case dot =>
    refine (dot_goes hissue hroom).imp fun u ⟨hrun, honly⟩ => ?_
    obtain ⟨hv, hp, hscratch⟩ := putG_rest (x.at_ t) f.dst.toNat 4 (dotValue f x)
    refine ⟨_, hrun, ?_, fun k hk => putG_gr_ne (x.at_ t) _ _ _ hk, hv, hp, hscratch, rfl, ?_, honly⟩
    · refine (putG_gr_self (x.at_ t) _ _ _).trans ?_
      simp only [BitVec.toNat_eq]
      rfl
    · exact congrArg (· || decide (s.power.duty < 16)) (putG_slowed (x.at_ t) _ _ _)
  case dotr => exact fun s x t hissue hbad hclean hnan hroom => tile_goes (fun _ => rfl) (fun _ _ => rfl) hissue hbad hclean hnan hroom
  case axpyr => exact fun s x t hissue hbad hclean hnan hroom => tile_goes (fun _ => rfl) (fun _ _ => rfl) hissue hbad hclean hnan hroom
  case mma => exact fun s x t hissue hbad hclean hnan hroom => tile_goes (fun _ => rfl) (fun _ _ => rfl) hissue hbad hclean hnan hroom
  case smx =>
    obtain ⟨hin, hclean, hnan⟩ := hgood
    have hcheck := smx_inside (x := x) hlow hhigh hin
    refine issue_retires (hissue.wait ?_) hroom (fun u hrun _ => ⟨_, (if_neg (Bool.eq_false_iff.mp hcheck)).trans
      ((if_neg (Bool.eq_false_iff.mp hclean)).trans (if_neg (Bool.eq_false_iff.mp hnan))), onRun_run hrun _, onRun_only _ _ _⟩) ?_
    · exact (if_neg (Bool.eq_false_iff.mp hcheck)).trans (if_neg (by omega)).symm
    · exact smx_plain _ _ _ _ _ _ _ _ _
  case oscale =>
    obtain ⟨hin, hclean⟩ := hgood
    have hbad : ¬ (decide (x.size < (x.gd f).toNat + 4 * (immBits f 11 0 + 1))) = true := by simpa using hin
    refine issue_retires (hissue.wait ?_) hroom (fun u hrun _ => ⟨_, (if_neg hbad).trans (if_neg (Bool.eq_false_iff.mp hclean)), onRun_run hrun _,
      onRun_only _ _ _⟩) ⟨rfl, rfl, rfl, rfl⟩
    simp only [decide_eq_true_eq]

end Sys2Proof.Machine

/-! ### Pool streams, pool words and services (R258, R269, R270, R281 to R295) -/

namespace Sys2Proof.Machine

section PoolRows
variable {c : Instr} {w op : Nat} {f : Fields}

/-- R269, R270: a STREAM or STREAMW that passes its checks transfers and retires; one that fails ends the stroke. -/
theorem stream_rows (read : Bool) {need : Range → Bool} (hneed : (if read then needR else needW) = need)
    (hexec : ∀ s, exec c s = ok (s.streamOp w op f read)) :
    let n := fun (x : Run) => (x.gr f.src2.toNat).toNat
    let wait := fun (s : State) (x : Run) => match streamFault x f need with
      | some _ => some 0
      | none => both (both (x.tagIdle (immTag f)) (if read then some 0 else x.landed (x.gd f).toNat (n x))) (poolWait s x)
    IssuesTo c w op f [f.dst.toNat, f.src1.toNat, f.src2.toNat] wait (fun _ x => streamFault x f need = none)
      (fun u x => (u.transfer w read (immBits f 7 7 == 1) (immRange f) (immTag f) (transferFuel (n x)) (x.gd f).toNat (x.s1 f).toNat
        (n x)).retire w 2 1) ∧
    ∀ st, IssuesTo c w op f [f.dst.toNat, f.src1.toNat, f.src2.toNat] wait (fun _ x => streamFault x f need = some st)
      (fun u _ => u.faultRun w st) := by
  subst hneed
  unfold State.streamOp at hexec
  refine ⟨issuesTo_of_body hexec fun _ u x hpass => ?_, fun st => issuesTo_of_body hexec fun _ u x hfail => ?_⟩
  · dsimp only
    rw [hpass]
  · dsimp only
    rw [hfail]

/-- R269: a GATHER or SCATTER transfers its elements in order, unless its checks or the poison of its list end the stroke. -/
theorem gather_rows (read : Bool) (hexec : ∀ s, exec c s = ok (s.gatherOp w op f read)) :
    let n := fun (x : Run) => (x.gr f.src2.toNat).toNat
    let wait := fun (s : State) (x : Run) => match gatherFault x f with
      | some _ => some 0
      | none => both (both (both (x.tagIdle (immTag f)) (x.landed (x.s1 f).toNat (4 * n x)))
          (if read then some 0 else x.landed (x.gd f).toNat (n x * elemSize f))) (poolWait s x)
    IssuesTo c w op f [f.dst.toNat, f.src1.toNat, f.src2.toNat] wait
      (fun _ x => gatherFault x f = none ∧ x.poisoned (x.s1 f).toNat (4 * n x) = false) (fun u x => u.elements w f read x (n x) 0) ∧
    IssuesTo c w op f [f.dst.toNat, f.src1.toNat, f.src2.toNat] wait
      (fun _ x => gatherFault x f = none ∧ x.poisoned (x.s1 f).toNat (4 * n x) = true) (fun u _ => u.faultRun w .poison) ∧
    ∀ st, IssuesTo c w op f [f.dst.toNat, f.src1.toNat, f.src2.toNat] wait (fun _ x => gatherFault x f = some st)
      (fun u _ => u.faultRun w st) := by
  unfold State.gatherOp at hexec
  refine ⟨issuesTo_of_body hexec fun _ u x hpass => ?_, issuesTo_of_body hexec fun _ u x hpoison => ?_,
    fun st => issuesTo_of_body hexec fun _ u x hfail => ?_⟩
  · dsimp only
    rw [hpass.1]
    exact if_neg (Bool.eq_false_iff.mp hpass.2)
  · dsimp only
    rw [hpoison.1]
    exact if_pos hpoison.2
  · dsimp only
    rw [hfail]

/-- R258: an instruction on a pool word goes on with its translated address, or ends the stroke with the word's fault. -/
theorem poolWord_rows {uses : List Nat} {wait : State → Run → Option Nat} {n : Nat} {need : Range → Bool} (k : Run → State → Nat → State)
    (hexec : ∀ s, exec c s = ok (s.tryIssue w op f 1 uses wait (fun s x => s.poolWord w f x n need (k x)))) :
    IssuesTo c w op f uses wait (fun _ x => x.s.wordFault (immRange f) (x.s1 f).toNat n need = none)
      (fun u x => k x (u.weaverXlate w (immRange f) (x.s1 f).toNat) (x.s.poolPa (immRange f) (x.s1 f).toNat)) ∧
    ∀ st, IssuesTo c w op f uses wait (fun _ x => x.s.wordFault (immRange f) (x.s1 f).toNat n need = some st) (fun u _ => u.faultRun w st) := by
  refine ⟨issuesTo_of_body hexec fun _ u x hpass => ?_, fun st => issuesTo_of_body hexec fun _ u x hfail => ?_⟩
  · unfold State.poolWord
    dsimp only
    rw [hpass]
  · unfold State.poolWord
    dsimp only
    rw [hfail]

/-- R284: what an atomic requests, with gD awaiting the old value. -/
def atomGo (w : Nat) (f : Fields) (a : AtomOp) (x : Run) (u : State) (pa : Nat) : State :=
  (((u.ownerEvent x.s.part 0x007 false 1).onRun w (fun y => y.awaitG f.dst.toNat)).request w x pa (atomWidth (immBits f 3 3 == 1))
    (.atom f.dst.toNat a (immBits f 3 3 == 1) (x.gr f.src2.toNat) (x.gd f))).2.retire w 1 1

theorem atomic_rows (a : AtomOp) (hexec : ∀ s, exec c s = ok (s.atomicOp w op f a)) :
    IssuesTo c w op f [f.dst.toNat, f.src1.toNat, f.src2.toNat] poolWait
      (fun _ x => x.s.wordFault (immRange f) (x.s1 f).toNat (atomWidth (immBits f 3 3 == 1)) needA = none)
      (fun u x => atomGo w f a x (u.weaverXlate w (immRange f) (x.s1 f).toNat) (x.s.poolPa (immRange f) (x.s1 f).toNat)) ∧
    ∀ st, IssuesTo c w op f [f.dst.toNat, f.src1.toNat, f.src2.toNat] poolWait
      (fun _ x => x.s.wordFault (immRange f) (x.s1 f).toNat (atomWidth (immBits f 3 3 == 1)) needA = some st) (fun u _ => u.faultRun w st) :=
  poolWord_rows (atomGo w f a) hexec

end PoolRows

/-- Settles O10: the streams, the gathers, and the pool words with what each requests. -/
theorem poolStreamsAndWords : Obligations.pool_streams_and_words := by
  refine ⟨fun w f => ⟨stream_rows true rfl fun _ => rfl, stream_rows false rfl fun _ => rfl, gather_rows true fun _ => rfl,
    gather_rows false fun _ => rfl⟩, fun w f => ⟨?pld, ?pst, atomic_rows .add fun _ => rfl, atomic_rows .cas fun _ => rfl,
    atomic_rows .max fun _ => rfl, atomic_rows .swap fun _ => rfl, ?flag, ?wait⟩⟩
  case pld =>
    exact poolWord_rows (fun x u pa =>
      ((u.onRun w.val (fun y => y.awaitG f.dst.toNat)).request w.val x pa 8 (.load f.dst.toNat)).2.retire w.val 1 1) fun _ => rfl
  case pst =>
    exact poolWord_rows (fun x u pa =>
      (u.request w.val x pa 8 (.store (toBytes 8 (x.gr f.src2.toNat).toNat))).2.retire w.val 1 1) fun _ => rfl
  case flag =>
    exact poolWord_rows (fun x u pa =>
      (u.request w.val x pa 8 (.store (toBytes 8 (x.gr f.src2.toNat).toNat))).2.retire w.val 1 1) fun _ => rfl
  case wait =>
    exact poolWord_rows (fun x u pa =>
      ((u.onRun w.val (fun y => { y with waiting := true })).request w.val x pa (atomWidth (immBits f 5 5 == 1))
        (.waitRead f.dst.toNat (immBits f 5 5 == 1) (immBits f 4 3) (x.gr f.src2.toNat) (immBits f 18 6) (immBits f 31 19))).2) fun _ => rfl

end Sys2Proof.Machine

/-! ### The state of a stroke, and services (R269, R281 to R295, R457) -/

namespace Sys2Proof.Machine

section Services
variable {c : Instr} {w op : Nat} {f : Fields}

/-- An instruction that only waits retires after its wait. -/
theorem idle_runsAs {uses : List Nat} {ready : State → Run → Option Nat}
    (hexec : ∀ s, exec c s = ok (s.tryIssue w op f 1 uses ready (fun s _ => s.retire w 1 1))) :
    RunsAs c w op f uses ready 1 1 (fun _ => True) id := by
  intro s x t hissue _ hroom
  rw [hexec]
  exact issue_retires hissue hroom (fun u hrun _ => ⟨u, rfl, hrun, OnlyRun.refl u w⟩) (Plain.refl _)

/-- R281, R283: a bulk launch whose block lies in aligned clean scratch answers its status in gD. -/
theorem bulk_issuesTo (k : BulkKind) (hexec : ∀ s, exec c s = ok (s.bulkInstr w op f k)) :
    IssuesTo c w op f [f.dst.toNat, f.src1.toNat, f.src2.toNat]
      (fun _ x => if x.inScratch (x.s1 f).toNat 32 32 then x.landed (x.s1 f).toNat 32 else some 0)
      (fun _ x => x.inScratch (x.s1 f).toNat 32 32 = true ∧ x.poisoned (x.s1 f).toNat 32 = false)
      (fun u x =>
        let r := u.bulkLaunch w x.s k (bulkBlock (x.sbytes (x.s1 f).toNat 32)) (x.gr f.src2.toNat)
        (r.2.onRun w (fun y => y.putG f.dst.toNat (BitVec.ofNat 64 r.1.code) 6)).retire w 4 1) := by
  unfold State.bulkInstr at hexec
  refine issuesTo_of_body hexec fun _ u x hblock => ?_
  obtain ⟨hin, hclean⟩ := hblock
  exact (if_neg (by simp [hin])).trans (if_neg (Bool.eq_false_iff.mp hclean))

end Services

section Stroke
variable {w : WeaverId} {f : Fields} {s : State} {x : Run} {t : Nat}

/-- What an instruction that only changes its run leaves of the partitions. -/
theorem OnlyRun.part_steady {u : State} {w : Nat} (h : OnlyRun s u w) (p : Nat) : (u.part p).steady = (s.part p).steady := h.2.2.1 p

/-- R291: PHASE leaves its mark with the partition. -/
theorem phase_goes (hissue : Issues s w.val 0xA8 f [] noWait x t) (hroom : x.room 1) :
    Goes (exec (.phase w f) s) (fun u => (u.weaver w.val).run = some (x.next (x.at_ t) t 1 1) ∧
      (u.part x.s.part).phaseInstr = some (immBits f 3 0, w.val) ∧ u.mem = s.mem) := by
  obtain ⟨u, hgo, hrun, honly⟩ := tryIssue_goes hissue (skip := 1) fun s x =>
    (s.onPart x.s.part (fun p => { p with phaseInstr := some (immBits f 3 0, w.val) })).retire w.val 1 1
  obtain ⟨hend, hkeep⟩ := retire_goes (s := u.onPart x.s.part (fun p => { p with phaseInstr := some (immBits f 3 0, w.val) }))
    (cost := 1) hrun rfl rfl rfl rfl hroom
  refine ⟨_, congrArg Host.Outcome.next hgo, hend, ?_, ?_⟩
  · have hphase := congrArg Partition.phaseInstr (hkeep.part_steady x.s.part)
    refine hphase.trans ?_
    simp [Partition.steady]
  · have hlast := congrArg State.mem hkeep.2.2.2
    have hfirst := congrArg State.mem honly.2.2.2
    exact hlast.trans hfirst

/-- R293: CNTRD of a defined counter with the owner's grant. -/
theorem cntrd_goes (hissue : Issues s w.val 0xAA f [f.dst.toNat] noWait x t) (hgrant : (s.part x.s.part).userRead = true)
    (hdefined : counterDefined (immBits f 9 0) = true) (hroom : x.room 1) :
    Goes (exec (.cntrd w f) s) (fun u => (u.weaver w.val).run = some (x.next ((x.at_ t).putG f.dst.toNat
      (BitVec.ofNat 64 ((s.part x.s.part).roundCopy.look 0 (immBits f 9 0))) 8) t 8 1) ∧ OnlyRun s u w.val) := by
  refine issue_retires hissue hroom (fun u hrun honly => ?_) (putG_plain (x.at_ t) _ _ _)
  have huser : (u.part x.s.part).userRead = (s.part x.s.part).userRead := by
    have hsteady := congrArg Partition.userRead (honly.part_steady x.s.part)
    exact hsteady
  have hcopy : (u.part x.s.part).roundCopy = (s.part x.s.part).roundCopy := by
    have hsteady := congrArg Partition.roundCopy (honly.part_steady x.s.part)
    exact hsteady
  refine ⟨u.onRun w.val (fun y => y.putG f.dst.toNat (BitVec.ofNat 64 ((u.part x.s.part).roundCopy.look 0 (immBits f 9 0))) 8), ?_, ?_,
    onRun_only u _ _⟩
  · exact (if_neg (by rw [show (x.at_ t).s = x.s from rfl, huser, hgrant]; simp)).trans (if_neg (by simp [hdefined]))
  · rw [← hcopy]
    exact onRun_run hrun _

/-- R294: TIME of the budget reads the cycles left. -/
theorem timeBudget_runsAs (hbit : immBits f 0 0 = 0) : RunsAs (.timeBudget w f) w.val 0xAB f [f.dst.toNat] noWait 1 1 (fun _ => True)
    (fun x => x.putG f.dst.toNat (BitVec.ofNat 64 (x.s.budget - x.cyc)) 1) :=
  runsAs_of_body (skip := 1) (fun x y => y.putG f.dst.toNat (BitVec.ofNat 64 (x.s.budget - x.cyc)) 1)
    (fun _ => if_neg (by omega)) (fun _ _ _ _ => rfl) fun _ => putG_plain _ _ _ _

/-- R294: TIME of the round reads the round. -/
theorem timeRound_goes (hbit : immBits f 0 0 = 1) (hissue : Issues s w.val 0xAB f [f.dst.toNat] noWait x t) (hroom : x.room 1) :
    Goes (exec (.timeRound w f) s) (fun u => (u.weaver w.val).run = some (x.next ((x.at_ t).putG f.dst.toNat
      (BitVec.ofNat 64 s.rnd.counter) 1) t 1 1) ∧ OnlyRun s u w.val) := by
  have hexec : exec (.timeRound w f) s = ok (s.tryIssue w.val 0xAB f 1 [f.dst.toNat] noWait (fun s _ =>
    (s.onRun w.val (fun y => y.putG f.dst.toNat (BitVec.ofNat 64 s.now) 1)).retire w.val 1 1)) := if_neg (by omega)
  rw [hexec]
  refine issue_retires hissue hroom (fun u hrun honly => ⟨_, rfl, ?_, onRun_only u _ _⟩) (putG_plain (x.at_ t) _ _ _)
  have hnow : u.rnd = s.rnd := by
    have hbare := congrArg State.rnd honly.2.2.2
    exact hbare
  rw [← hnow]
  exact onRun_run hrun _

end Stroke

section Send
variable {w : WeaverId} {f : Fields}

/-- R292: the wait of a SEND, where its count is one that reads scratch. -/
theorem sendMailbox_issuesTo (hbit : immBits f 31 31 = 0) :
    IssuesTo (.sendMailbox w f) w.val 0xA9 f [f.dst.toNat, f.src1.toNat, f.src2.toNat]
      (fun _ x => if decide ((x.gr f.src2.toNat).toNat ≤ 64) && (x.gr f.src2.toNat).toNat != 0 &&
          x.inScratch (x.s1 f).toNat (8 * (x.gr f.src2.toNat).toNat) 8 then x.landed (x.s1 f).toNat (8 * (x.gr f.src2.toNat).toNat) else some 0)
      (fun _ x => 1 ≤ (x.gr f.src2.toNat).toNat ∧ (x.gr f.src2.toNat).toNat ≤ 64 ∧
        x.inScratch (x.s1 f).toNat (8 * (x.gr f.src2.toNat).toNat) 8 = true ∧
        x.poisoned (x.s1 f).toNat (8 * (x.gr f.src2.toNat).toNat) = false)
      (fun u x =>
        let r := u.mbxPut (idPart x.s.part) (immBits f 6 0) x.s.part (x.gr f.src2.toNat).toNat
          (bytesWords (x.gr f.src2.toNat).toNat (x.sbytes (x.s1 f).toNat (8 * (x.gr f.src2.toNat).toNat)))
        (r.2.onRun w.val (fun y => y.putG f.dst.toNat (BitVec.ofNat 64 r.1.code) 8)).retire w.val (4 + (x.gr f.src2.toNat).toNat) 1) := by
  refine issuesTo_of_body (skip := 1) (fun _ => if_neg (by omega)) fun _ u x hmsg => ?_
  obtain ⟨hpos, hle, hin, hclean⟩ := hmsg
  simp [hle, hin, hclean, show (x.gr f.src2.toNat).toNat ≠ 0 by omega]

/-- R69, R292: a doorbell SEND writes the low 16 bits of its register. -/
theorem sendDoorbell_issuesTo (hbit : immBits f 31 31 = 1) :
    IssuesTo (.sendDoorbell w f) w.val 0xA9 f [f.dst.toNat, f.src2.toNat] noWait (fun _ _ => True)
      (fun u x =>
        let r := u.doorbell x.s.part (immBits f 11 0) (BitVec.ofNat 64 ((x.gr f.src2.toNat).toNat % 65536))
        (r.2.onRun w.val (fun y => y.putG f.dst.toNat (BitVec.ofNat 64 r.1.code) 8)).retire w.val 5 1) :=
  issuesTo_of_body (skip := 1) (fun _ => if_neg (by omega)) fun _ _ _ _ => rfl

end Send

/-- Settles O11. -/
theorem strokeStateAndServices : Obligations.stroke_state_and_services :=
  ⟨fun _ _ => ⟨idle_runsAs fun _ => rfl, idle_runsAs fun _ => rfl, fun _ _ _ => phase_goes, fun _ _ _ => cntrd_goes, timeBudget_runsAs,
      fun hbit _ _ _ => timeRound_goes hbit⟩,
    fun _ _ => ⟨bulk_issuesTo .fill fun _ => rfl, bulk_issuesTo .copy fun _ => rfl, bulk_issuesTo .compare fun _ => rfl,
      bulk_issuesTo .reduce fun _ => rfl, bulk_issuesTo .checksum fun _ => rfl, sendMailbox_issuesTo, sendDoorbell_issuesTo,
      issuesTo_of_body (fun _ => rfl) fun _ _ _ _ => rfl, issuesTo_of_body (fun _ => rfl) fun _ _ _ _ => rfl⟩⟩

end Sys2Proof.Machine

/-! ### Control requests: arrival, turn and common checks (R59, R296, R299 to R303) -/

namespace Sys2Proof.Machine

section Control
variable {s : State} {i : Issuer} {r : CtrlReq} {op sub : Nat} {go : State → State → Issuer → CtrlReq → CtlOut × State}

/-- The arrival of a request leaves the lease. -/
theorem arrive_leaseHeld : (s.arrive i r).leaseHeld = s.leaseHeld := by
  unfold State.arrive State.enqueue
  (repeat' split) <;> rfl

/-- What a control instruction does with a request that the stake serves now (R301 to R303). -/
def State.serveCtl (u : State) (i : Issuer) (r : CtrlReq) (go : State → State → Issuer → CtrlReq → CtlOut × State) : State :=
  let o : CtlOut × State := match u.commonStatus u.future i r with
    | .ok => go u.future u i r
    | st => (.fail st [], u)
  match o.1 with
  | .wait => o.2
  | x => (o.2.served u i r).settleCtl i r x

/-- The test of the turn in `State.control` says `State.serving`. -/
theorem not_serving_iff {u : State} (hlease : u.leaseHeld = true) :
    ((u.ctlQueue i).head? ≠ some r || !u.stakeRuns || u.blockedIssuer i || !u.passTurn i) = true ↔ ¬ u.serving i r := by
  unfold State.serving
  simp only [Bool.or_eq_true, decide_eq_true_eq, Bool.not_eq_true', hlease, true_and, not_and, Bool.eq_false_iff]
  tauto

/-- A control instruction of another request, or without the lease, changes nothing. -/
theorem control_of_not (h : s.leaseHeld = false ∨ reqIs r op sub = false) : s.control i r op sub go = s := by
  unfold State.control
  exact if_pos (by simpa using h)

/-- R301, R302: a request that cannot be served yet stands in its queue. -/
theorem control_of_waiting (hlease : s.leaseHeld = true) (his : reqIs r op sub = true) (hnot : ¬ (s.arrive i r).serving i r) :
    s.control i r op sub go = s.arrive i r := by
  unfold State.control
  rw [if_neg (by simp [hlease, his])]
  exact if_pos ((not_serving_iff (arrive_leaseHeld.trans hlease)).mpr hnot)

theorem control_of_serving (hlease : s.leaseHeld = true) (his : reqIs r op sub = true) (hserving : (s.arrive i r).serving i r) :
    s.control i r op sub go = (s.arrive i r).serveCtl i r go := by
  unfold State.control
  rw [if_neg (by simp [hlease, his])]
  exact if_neg (fun h => (not_serving_iff (arrive_leaseHeld.trans hlease)).mp h hserving)

theorem serveCtl_of_fail {u : State} {st : Status} (hst : u.commonStatus u.future i r = st) (hbad : st ≠ .ok) :
    u.serveCtl i r go = (u.served u i r).addResult (resultOf i r st []) := by
  unfold State.serveCtl
  rw [hst]
  cases st <;> first | contradiction | rfl

end Control

/-- What every control instruction does before its own checks (R301 to R303). -/
theorem control_rows {c : Instr} {op sub : Nat} {i : Issuer} {r : CtrlReq} (go : State → State → Issuer → CtrlReq → CtlOut × State)
    (hexec : ∀ s, exec c s = .next (s.control i r op sub go)) :
    (∀ st, st ≠ .ok → ∀ s : State, reqIs r op sub = true → s.leaseHeld = true → (s.arrive i r).serving i r →
      (s.arrive i r).commonStatus (s.arrive i r).future i r = st →
      exec c s = .next (((s.arrive i r).served (s.arrive i r) i r).addResult (resultOf i r st []))) ∧
    (∀ s : State, s.leaseHeld = true → reqIs r op sub = true → ¬ (s.arrive i r).serving i r → exec c s = .next (s.arrive i r)) ∧
    (∀ s : State, s.leaseHeld = false ∨ reqIs r op sub = false → exec c s = .next s) := by
  refine ⟨fun st hbad s his hlease hserving hst => ?_, fun s hlease his hnot => ?_, fun s hnot => ?_⟩ <;> rw [hexec]
  · rw [control_of_serving hlease his hserving, serveCtl_of_fail hst hbad]
  · rw [control_of_waiting hlease his hnot]
  · rw [control_of_not hnot]

/-! #### What the common checks answer -/

/-- R299: the opcodes that no owner may issue. -/
theorem ctlDef_own_false {op : Nat} (hop : op ∈ [0xC0, 0xC1, 0xC3, 0xC4, 0xC5, 0xCB, 0xCC, 0xCD, 0xD4, 0xD5, 0xD8, 0xD9, 0xDB, 0xDC, 0xDD])
    (sub n : Nat) : (ctlDef op sub false n).own = false := by
  simp only [List.mem_cons, List.not_mem_nil, or_false] at hop
  rcases hop with rfl | rfl | rfl | rfl | rfl | rfl | rfl | rfl | rfl | rfl | rfl | rfl | rfl | rfl | rfl <;>
    rcases sub with _ | _ | sub <;> rfl

/-- R299: the opcodes that an owner may issue. -/
theorem ctlDef_own_true {op : Nat}
    (hop : op ∈ [0xC6, 0xC7, 0xC8, 0xC9, 0xCA, 0xCE, 0xCF, 0xD0, 0xD1, 0xD2, 0xD3, 0xD6, 0xD7, 0xDA, 0xDE, 0xDF]) (sub n : Nat) :
    (ctlDef op sub false n).own = true := by
  simp only [List.mem_cons, List.not_mem_nil, or_false] at hop
  rcases hop with rfl | rfl | rfl | rfl | rfl | rfl | rfl | rfl | rfl | rfl | rfl | rfl | rfl | rfl | rfl | rfl <;>
    rcases sub with _ | _ | sub <;> rfl

section CommonStatus
variable {s : State} {r : CtrlReq} (f : State) (i : Issuer)

theorem commonStatus_class (hclass : reqClass r ≠ 6) : s.commonStatus f i r = .unsupported := if_pos hclass

theorem commonStatus_reserved (hclass : reqClass r = 6) (hbits : bits (r.words.getD 0 0) 55 32 ≠ 0) :
    s.commonStatus f i r = .rsvdNonzero := by
  replace hbits : reqBits r 0 55 32 ≠ 0 := hbits
  have hres : reqReserved r = true := by simp [reqReserved, hbits]
  simp [State.commonStatus, hclass, hres]

theorem commonStatus_variant (hclass : reqClass r = 6) (hres : reqReserved r = false) (hsub : ctlSubs (reqOp r) ≤ reqSub r) :
    s.commonStatus f i r = .unsupported := by
  simp [State.commonStatus, hclass, hres, Nat.not_lt.mpr hsub]

/-- R301: an owner's request with a known variant, no reserved bit and no fence. -/
theorem commonStatus_owner {p : PartId} (hclass : reqClass r = 6) (hres : reqReserved r = false) (hsub : reqSub r < ctlSubs (reqOp r))
    (hoper : operReserved r (ctlDef (reqOp r) (reqSub r) false (reqBits r 2 10 0)) = false) (hfence : s.reqFenced r = false) :
    s.commonStatus f (.owner p) r =
      if !((ctlDef (reqOp r) (reqSub r) false (reqBits r 2 10 0)).own && decide (reqPart r = p.val)) then .perm
      else if s.dying p.val then .revoked else if !(f.part (reqPart r)).live then .range else .ok := by
  simp [State.commonStatus, hclass, hres, hsub, hoper, hfence]

theorem commonStatus_fenced (hclass : reqClass r = 6) (hres : reqReserved r = false) (hsub : reqSub r < ctlSubs (reqOp r))
    (hoper : operReserved r (ctlDef (reqOp r) (reqSub r) true (reqBits r 2 10 0)) = false) (hfence : s.reqFenced r = true) :
    s.commonStatus f .stake r = .fenced := by
  simp [State.commonStatus, hclass, hres, hsub, hoper, hfence]

end CommonStatus

/-- Settles O19: every control instruction is `State.control` (`control_rows`), and each common check answers in its turn. -/
theorem commonControlChecks : Obligations.common_control_checks := by
  refine ⟨fun i r => ?rows, fun s f i p r => ⟨commonStatus_class f i, commonStatus_reserved f i, commonStatus_variant f i,
    fun hclass hres hsub hoper hfence => ?owner, commonStatus_fenced f⟩⟩
  case rows => exact ⟨control_rows ctlPartCreate fun _ => rfl, control_rows (pureCtl ctlPartDestroy) fun _ => rfl,
      control_rows (pureCtl ctlAffinity) fun _ => rfl, control_rows (pureCtl ctlConsent) fun _ => rfl,
      control_rows (pureCtl ctlExtGrant) fun _ => rfl, control_rows (pureCtl ctlExtRevoke) fun _ => rfl,
      control_rows (pureCtl ctlExtRetire) fun _ => rfl, control_rows (pureCtl ctlQueryEntry) fun _ => rfl,
      control_rows (pureCtl ctlQueryNext) fun _ => rfl, control_rows (pureCtl ctlWinMap) fun _ => rfl,
      control_rows (pureCtl ctlWinUnmap) fun _ => rfl, control_rows (pureCtl ctlRankSet) fun _ => rfl,
      control_rows (pureCtl ctlMcastSet) fun _ => rfl, control_rows (pureCtl ctlKeyLoad) fun _ => rfl,
      control_rows (pureCtl ctlShape) fun _ => rfl, control_rows (pureCtl ctlPolice) fun _ => rfl,
      control_rows (pureCtl ctlBudget) fun _ => rfl, control_rows (pureCtl ctlCap) fun _ => rfl,
      control_rows (pureCtl ctlSagCap) fun _ => rfl, control_rows (pureCtl ctlSagWarn) fun _ => rfl,
      control_rows (pureCtl ctlMode) fun _ => rfl, control_rows (pureCtl ctlPref) fun _ => rfl,
      control_rows (pureCtl ctlSelect) fun _ => rfl, control_rows (pureCtl ctlUserRead) fun _ => rfl,
      control_rows (pureCtl ctlSnap) fun _ => rfl, control_rows (pureCtl ctlRegionCreate) fun _ => rfl,
      control_rows (pureCtl ctlRegionAccept) fun _ => rfl, control_rows (pureCtl ctlRegionDestroy) fun _ => rfl,
      control_rows ctlRegionPin fun _ => rfl, control_rows (pureCtl ctlRegionUnpin) fun _ => rfl, control_rows ctlPublish fun _ => rfl,
      control_rows (pureCtl ctlBind) fun _ => rfl, control_rows (pureCtl ctlLock) fun _ => rfl,
      control_rows (pureCtl ctlProgLoad) fun _ => rfl, control_rows (pureCtl ctlProgUnload) fun _ => rfl,
      control_rows (pureCtl ctlAttest) fun _ => rfl, control_rows ctlRoleSwap fun _ => rfl, control_rows ctlFwStage fun _ => rfl,
      control_rows (pureCtl ctlSync) fun _ => rfl, control_rows (pureCtl ctlTarget) fun _ => rfl,
      control_rows (pureCtl ctlShare) fun _ => rfl, control_rows (pureCtl ctlMemRetire) fun _ => rfl,
      control_rows (pureCtl ctlErrRead) fun _ => rfl, control_rows (pureCtl ctlDevQuery) fun _ => rfl,
      control_rows (pureCtl ctlFence) fun _ => rfl⟩
  case owner =>
    rw [commonStatus_owner f hclass hres hsub hoper hfence]
    refine ⟨fun hpart => by simp [hpart], fun hop => by simp [ctlDef_own_false hop], fun hpart hop hdying => ?_⟩
    simp [ctlDef_own_true hop, hpart, hdying]

end Sys2Proof.Machine

/-! ### Control requests: the outcome of a served request (R57, R301, R303) -/

namespace Sys2Proof.Machine

section Settle
variable {c : Instr} {op sub : Nat} {i : Issuer} {r : CtrlReq} {ok : State → State → Prop} {o : State → State → CtlOut}

/-- A request that passes the common checks, and whose own checks do not wait, settles with what they answer. -/
theorem serveCtl_of_ok {u t : State} {go : State → State → Issuer → CtrlReq → CtlOut × State} {x : CtlOut}
    (hok : u.commonStatus u.future i r = .ok) (hgo : go u.future u i r = (x, t)) (hx : x ≠ .wait) :
    u.serveCtl i r go = (t.served u i r).settleCtl i r x := by
  unfold State.serveCtl
  simp only [hok, hgo]

theorem settles_of_go {goState : State → State → State} (go : State → State → Issuer → CtrlReq → CtlOut × State)
    (hexec : ∀ s, exec c s = .next (s.control i r op sub go)) (hgo : ∀ f u, ok f u → go f u i r = (o f u, goState f u))
    (hwait : ∀ f u, o f u ≠ .wait := by exact fun _ _ => nofun) : Settles c op sub i r ok o goState := by
  intro s his hlease hserving hst hok
  rw [hexec, control_of_serving hlease his hserving, serveCtl_of_ok hst (hgo _ _ hok) (hwait _ _)]

theorem settles_of_pure (ctl : State → State → Issuer → CtrlReq → CtlOut)
    (hexec : ∀ s, exec c s = .next (s.control i r op sub (pureCtl ctl))) (hctl : ∀ f u, ok f u → ctl f u i r = o f u)
    (hwait : ∀ f u, o f u ≠ .wait := by exact fun _ _ => nofun) : Settles c op sub i r ok o :=
  settles_of_go (pureCtl ctl) hexec (fun f u h => congrArg (·, u) (hctl f u h)) hwait

end Settle

/-! #### What a served request changes -/

/-- Counting an operator event changes the counters alone. -/
theorem opEvent_eq (s : State) (e : Nat) (x : OpEvt) (n : Nat) : s.opEvent e x n = { s with cnt := (s.opEvent e x n).cnt } := by
  unfold State.opEvent
  split <;> rfl

theorem opEvent_ctl (s : State) (e : Nat) (x : OpEvt) (n : Nat) : (s.opEvent e x n).ctl = s.ctl := by rw [opEvent_eq]

theorem served_ctl (t u : State) (i : Issuer) (r : CtrlReq) : (t.served u i r).ctl =
    { (t.setQueue i ((u.ctlQueue i).drop 1)).ctl with executed := t.ctl.executed + 1, turn := u.passKey i } := by
  unfold State.served
  rw [opEvent_ctl]
  cases i <;> rfl

/-- A served request changes control state and counters alone. -/
theorem served_eq (t u : State) (i : Issuer) (r : CtrlReq) :
    t.served u i r = { t with ctl := (t.served u i r).ctl, cnt := (t.served u i r).cnt } := by
  unfold State.served
  rw [opEvent_eq]
  rfl

theorem served_now (t u : State) (i : Issuer) (r : CtrlReq) : (t.served u i r).now = t.rnd.counter := by
  rw [served_eq]; rfl

/-- The queue of an issuer reads back, whatever else of the control state is counted. -/
theorem ctlQueue_served (u : State) (i : Issuer) (r : CtrlReq) : (u.served u i r).ctlQueue i = (u.ctlQueue i).drop 1 := by
  cases i <;> simp [State.ctlQueue, served_ctl, State.setQueue]

/-- A change of a journalled object, other than the end of a pin, is journalled under its own number. -/
theorem entryOf_of_delta {s : State} {op : Nat} {c : Change} {d : Nat × Nat} (hd : c.delta = some d)
    (hpin : ∀ p k, c ≠ .regionUnpin p k) : s.entryOf op c = some { kind := d.1, op := op, index := d.2, body := c.named } := by
  unfold State.entryOf
  rw [hd]
  cases c <;> first | exact absurd rfl (hpin _ _) | rfl

/-- Settles O18: what `State.served` and each outcome of `State.settleCtl` change. -/
theorem requestsSettle : Obligations.requests_settle := by
  intro u i r st cs rs t x
  have hnow : t.now = u.rnd.counter := served_now u u i r
  have hctl := served_ctl u u i r
  refine ⟨⟨ctlQueue_served u i r, ?_, ?_, ?_, served_eq u u i r⟩, rfl, rfl, ?stage, ?background,
    fun c d hd hpin => entryOf_of_delta hd hpin, ?_, rfl, rfl, rfl⟩
  case stage => rw [← hnow]; rfl
  case background => rw [← hnow]; rfl
  · show (u.served u i r).ctl.executed = _
    rw [hctl]
  · show (u.served u i r).ctl.results = _
    rw [hctl]; cases i <;> rfl
  · show (u.served u i r).ctl.staged = _
    rw [hctl]; cases i <;> rfl
  · show (r.words.getD 1 0).toNat / 2 ^ 0 % 2 ^ 32 = _
    rw [Nat.pow_zero, Nat.div_one]

end Sys2Proof.Machine

/-! ### Partition and extent instructions (R132 to R138, R152, R304 to R306, R473) -/

namespace Sys2Proof.Machine

/-- Settles O20: each instruction is `State.control` with its own checks, evaluated where each check passes or fails. -/
theorem partitionsAndExtents : Obligations.partitions_and_extents := by
  intro i r p e h n b x fits
  refine ⟨settles_of_go ctlPartCreate (fun _ => rfl) ?host, fun ek => settles_of_go ctlPartCreate (fun _ => rfl) ?create,
    settles_of_go ctlPartCreate (fun _ => rfl) ?number, settles_of_go ctlPartCreate (fun _ => rfl) ?conflict,
    settles_of_pure ctlPartDestroy (fun _ => rfl) ?destroy, settles_of_pure ctlAffinity (fun _ => rfl) fun _ _ _ => rfl,
    settles_of_pure ctlConsent (fun _ => rfl) fun _ _ _ => rfl, settles_of_pure ctlExtGrant (fun _ => rfl) ?grant,
    settles_of_pure ctlExtGrant (fun _ => rfl) ?taken, settles_of_pure ctlExtGrant (fun _ => rfl) ?size,
    settles_of_pure ctlExtRevoke (fun _ => rfl) ?revoke, settles_of_pure ctlExtRevoke (fun _ => rfl) ?inactive,
    settles_of_pure ctlExtRetire (fun _ => rfl) ?retire, settles_of_pure ctlExtRetire (fun _ => rfl) ?block,
    settles_of_pure ctlQueryEntry (fun _ => rfl) fun _ _ _ => rfl, fun q => ⟨settles_of_pure ctlQueryEntry (fun _ => rfl) ?entry,
      settles_of_pure ctlQueryEntry (fun _ => rfl) ?other, settles_of_pure ctlQueryNext (fun _ => rfl) fun _ _ _ => rfl⟩,
    settles_of_pure ctlQueryNext (fun _ => rfl) fun _ _ _ => rfl⟩
  case host =>
    rintro f u ⟨hp, hconflict, ⟨hwin, hgrp, hq, hremote⟩, hhost⟩
    simp [ctlPartCreate, hp, p, hconflict, hhost, hq, hremote, Nat.not_lt.mpr hwin, Nat.not_lt.mpr hgrp, x]
  case create =>
    rintro f u ⟨hp, hconflict, ⟨hwin, hgrp, hq, hremote⟩, hhost, hread, hvalid⟩
    simp [ctlPartCreate, hp, p, hconflict, hhost, hq, hremote, Nat.not_lt.mpr hwin, Nat.not_lt.mpr hgrp, hread, hvalid, x]
  case number =>
    intro f u hp
    exact if_pos hp
  case conflict =>
    rintro f u ⟨hp, hconflict⟩
    simp [ctlPartCreate, hp, p, hconflict]
  case destroy =>
    intro f u hfree
    exact if_neg (by simp only [p] at hfree; simp [hfree])
  case grant =>
    rintro f u ⟨hst, hn, hfree⟩
    simp only [e, h, n] at hst hn hfree
    simp [ctlExtGrant, e, h, n, p, hst, hn, Nat.not_lt.mpr hfree]
  case taken =>
    intro f u hst
    exact if_pos hst
  case size =>
    rintro f u ⟨hst, hn⟩
    simp only [e, n, h] at hst hn
    simp [ctlExtGrant, hst, hn]
  case revoke =>
    rintro f u ⟨hst, hhosted, hroot, hregion⟩
    simp only [e] at hst hhosted hroot hregion
    simp [ctlExtRevoke, e, hst, hhosted, hroot, hregion]
  case inactive =>
    intro f u hbad
    exact if_pos (by rcases hbad with hbad | hbad <;> simp [e] at hbad <;> simp [hbad])
  case retire =>
    rintro f u ⟨hb, hstate, hmarked⟩
    simp only [b] at hb hstate hmarked
    simp [ctlExtRetire, b, Nat.not_le.mpr hb, hstate, hmarked]
  case block =>
    intro f u hb
    exact if_pos hb
  case entry =>
    rintro f u ⟨hst, hholder⟩
    simp only [e] at hst hholder
    simp [ctlQueryEntry, e, hst, hholder]
  case other =>
    intro f u hholder
    simp only [e] at hholder
    simp [ctlQueryEntry, hholder]

end Sys2Proof.Machine

/-! ### Windows, ranks, groups and keys; traffic and power settings (R118 to R121, R307, R308, R402, R404, R422, R478, R522, R523) -/

namespace Sys2Proof.Machine

/-- R121: the range check of a window or group. -/
theorem inRange_iff {k first count : Nat} : inRange k first count = true ↔ first ≤ k ∧ k < first + count := by
  simp [inRange]

theorem inRange_false_iff {k first count : Nat} : inRange k first count = false ↔ ¬ (first ≤ k ∧ k < first + count) := by
  rw [← inRange_iff, Bool.not_eq_true]

/-- Settles O21: each instruction is `State.control` with its own checks, evaluated where each check passes or fails. -/
theorem windowsRanksGroupsAndKeys : Obligations.windows_ranks_groups_and_keys := by
  intro i r p w e x mine group secret old
  refine ⟨settles_of_pure ctlWinMap (fun _ => rfl) ?map, settles_of_pure ctlWinMap (fun _ => rfl) ?mapPerm,
    settles_of_pure ctlWinMap (fun _ => rfl) ?mapRange, settles_of_pure ctlWinUnmap (fun _ => rfl) ?unmap,
    settles_of_pure ctlWinUnmap (fun _ => rfl) ?unmapPerm, settles_of_pure ctlRankSet (fun _ => rfl) fun _ _ _ => rfl,
    settles_of_pure ctlMcastSet (fun _ => rfl) ?group, settles_of_pure ctlMcastSet (fun _ => rfl) ?groupPerm,
    fun ts => ⟨settles_of_pure ctlKeyLoad (fun _ => rfl) ?key, settles_of_pure ctlKeyLoad (fun _ => rfl) ?stale⟩,
    settles_of_pure ctlKeyLoad (fun _ => rfl) ?unwrap, settles_of_pure ctlSync (fun _ => rfl) fun _ _ _ => rfl⟩
  case map =>
    rintro f u ⟨hmine, hpart, hbase, hlen, hend, hdb⟩
    have hin := inRange_iff.mpr hmine
    have hdoor : (x.db && (decide (x.pvaBase ≠ 0) || decide (x.len ≠ 4096))) = false := by
      cases hx : x.db with
      | false => rfl
      | true => simp [hdb hx]
    have hperm : (!inRange w (f.part p).winFirst (f.part p).winCount || decide (x.part ≠ p)) = false := by simp [hin, hpart]
    have hrange : (decide (x.pvaBase % 4096 ≠ 0) || decide (x.len % 4096 ≠ 0) || decide (2 ^ 48 < x.pvaBase + x.len) ||
        x.db && (decide (x.pvaBase ≠ 0) || decide (x.len ≠ 4096))) = false := by
      rw [hdoor]; simp [hbase, hlen]; omega
    exact (if_neg (ne_true_of_eq_false hperm)).trans (if_neg (ne_true_of_eq_false hrange))
  case mapPerm =>
    intro f u hbad
    refine if_pos ?_
    rw [Bool.or_eq_true, Bool.not_eq_true', inRange_false_iff, decide_eq_true_eq]
    exact hbad
  case mapRange =>
    rintro f u ⟨hmine, hpart, hbad⟩
    have hperm : (!inRange w (f.part p).winFirst (f.part p).winCount || decide (x.part ≠ p)) = false := by
      simp [inRange_iff.mpr hmine, hpart]
    refine (if_neg (ne_true_of_eq_false hperm)).trans (if_pos ?_)
    simp only [Bool.or_eq_true, decide_eq_true_eq]
    exact .inl (.inl hbad)
  case unmap =>
    intro f u hmine
    exact if_neg (by rw [inRange_iff.mpr hmine]; decide)
  case unmapPerm =>
    intro f u hbad
    exact if_pos (by rw [inRange_false_iff.mpr hbad]; rfl)
  case group =>
    intro f u hmine
    exact if_neg (by rw [inRange_iff.mpr hmine]; decide)
  case groupPerm =>
    intro f u hbad
    exact if_pos (by rw [inRange_false_iff.mpr hbad]; rfl)
  case key =>
    rintro f u ⟨hkey, hnew⟩
    simp only [secret, p, old] at hkey hnew
    simp only [ctlKeyLoad, hkey, p]
    exact if_neg (by simpa using hnew)
  case stale =>
    rintro f u ⟨hkey, hloaded, hseq⟩
    simp only [secret, p, old] at hkey hloaded hseq
    simp [ctlKeyLoad, hkey, hloaded, hseq]
  case unwrap =>
    intro f u hkey
    simp only [secret, p] at hkey
    simp only [ctlKeyLoad, hkey]

/-- An own check that answers with a setting where a condition holds, and else with RANGE. -/
theorem settles_and_fails {c : Instr} {op sub : Nat} {i : Issuer} {r : CtrlReq} (ctl : State → State → Issuer → CtrlReq → CtlOut)
    {bad : Bool} {good : Prop} {cs : List Change} {rs : List Nat} (hexec : ∀ s, exec c s = .next (s.control i r op sub (pureCtl ctl)))
    (hctl : ∀ f u, ctl f u i r = if bad then .fail .range [] else .stage cs rs) (hbad : bad = true ↔ ¬ good) :
    Settles c op sub i r (fun _ _ => good) (fun _ _ => .stage cs rs) ∧ FailsWith c op sub i r (fun _ _ => ¬ good) .range :=
  ⟨settles_of_pure ctl hexec fun f u h => (hctl f u).trans (if_neg fun hb => hbad.mp hb h),
    settles_of_pure ctl hexec fun f u h => (hctl f u).trans (if_pos (hbad.mpr h))⟩

/-- Settles O22: each setting is staged within its ranges and refused outside (`settles_and_fails`). -/
theorem trafficAndPowerSettings : Obligations.traffic_and_power_settings := by
  intro i r p a b c d free v shapeOk policeOk budgetOk capOk sagCapOk sagWarnOk prefOk
  obtain ⟨hshape, hnoShape⟩ : Settles (.shapeSet i r) 0xCB 0 i r (fun _ _ => shapeOk) _ ∧ _ :=
    settles_and_fails ctlShape (fun _ => rfl) (fun _ _ => rfl) (by
      simp only [Bool.or_eq_true, Bool.and_eq_true, decide_eq_true_eq]
      simp only [shapeOk, unlimited, free, a, b]; omega)
  obtain ⟨hpolice, hnoPolice⟩ : Settles (.policeSet i r) 0xCB 1 i r (fun _ _ => policeOk) _ ∧ _ :=
    settles_and_fails ctlPolice (fun _ => rfl) (fun _ _ => rfl) (by
      simp only [Bool.or_eq_true, Bool.and_eq_true, decide_eq_true_eq]
      simp only [policeOk, unlimited, free, a, b, c, d]; omega)
  obtain ⟨hbudget, hnoBudget⟩ : Settles (.rankBudget i r) 0xCB 2 i r (fun _ _ => budgetOk) _ ∧ _ :=
    settles_and_fails ctlBudget (fun _ => rfl) (fun _ _ => rfl) (by
      simp only [Bool.or_eq_true, decide_eq_true_eq, budgetOk, b]; omega)
  obtain ⟨hcap, hnoCap⟩ : Settles (.pwrCap i r) 0xCC 0 i r (fun _ _ => capOk) _ ∧ _ :=
    settles_and_fails ctlCap (fun _ => rfl) (fun _ _ => rfl) (by
      simp only [Bool.or_eq_true, decide_eq_true_eq, capOk, v]; omega)
  obtain ⟨hsagCap, hnoSagCap⟩ : Settles (.pwrCapSagCap i r) 0xCC 1 i r (fun _ _ => sagCapOk) _ ∧ _ :=
    settles_and_fails ctlSagCap (fun _ => rfl) (fun _ _ => rfl) (by
      simp only [Bool.or_eq_true, decide_eq_true_eq, sagCapOk, v]; omega)
  obtain ⟨hsagWarn, hnoSagWarn⟩ : Settles (.pwrCapSagWarn i r) 0xCC 2 i r (fun _ _ => sagWarnOk) _ ∧ _ :=
    settles_and_fails ctlSagWarn (fun _ => rfl) (fun _ _ => rfl) (by
      simp only [Bool.or_eq_true, decide_eq_true_eq, sagWarnOk, v]; omega)
  obtain ⟨hpref, hnoPref⟩ : Settles (.opPref i r) 0xCE 0 i r (fun _ _ => prefOk) _ ∧ _ :=
    settles_and_fails ctlPref (fun _ => rfl) (fun _ _ => rfl) (by
      have hlt : reqBits r 2 7 4 < 16 := Nat.mod_lt _ (by decide)
      simp only [Bool.and_eq_true, decide_eq_true_eq, prefOk]; omega)
  exact ⟨hshape, hnoShape, hpolice, hnoPolice, hbudget, hnoBudget, hcap, hnoCap, hsagCap, hnoSagCap, hsagWarn, hnoSagWarn,
    settles_of_pure ctlMode (fun _ => rfl) fun _ _ _ => rfl, hpref, hnoPref⟩

end Sys2Proof.Machine

/-! ### Counter selection, queries and ROUND.SET (R41, R309, R310, R313, R538 to R547) -/

namespace Sys2Proof.Machine

section RoundSet
variable (s : State) (i : Issuer) (r : CtrlReq)

/-- The arrival of a request changes control state alone. -/
theorem arrive_eq : s.arrive i r = { s with ctl := (s.arrive i r).ctl } := by
  unfold State.arrive State.enqueue
  (repeat' split) <;> rfl

theorem arrive_rnd : (s.arrive i r).rnd = s.rnd := by rw [arrive_eq]

theorem arrive_staged : (s.arrive i r).ctl.staged = s.ctl.staged := by
  unfold State.arrive State.enqueue
  (repeat' split) <;> cases i <;> rfl

/-- The outcome of an instruction changes control state alone. -/
theorem settleCtl_eq (o : CtlOut) : s.settleCtl i r o = { s with ctl := (s.settleCtl i r o).ctl } := by
  cases o <;> rfl

theorem lengthResult_eq : s.lengthResult = { s with ctl := s.lengthResult.ctl } := by
  unfold State.lengthResult
  split <;> rfl

theorem lengthResult_staged : s.lengthResult.ctl.staged = s.ctl.staged := by
  unfold State.lengthResult
  split <;> rfl

theorem served_staged (u : State) : (s.served u i r).ctl.staged = s.ctl.staged := by
  rw [served_ctl]; cases i <;> rfl

/-- Whether this device is its own master rests on the round and the links. -/
theorem isMaster_arrive : (s.arrive i r).isMaster = s.isMaster := by rw [arrive_eq]; rfl

end RoundSet

/-- The change of priority that a ROUND.SET asks for. -/
def prioChange (r : CtrlReq) : List Change := if bit (reqWord r 2) 24 then [.priority (reqBits r 2 23 16)] else []

section RoundSetRows
variable {s : State} {i : Issuer} {r : CtrlReq} (f : State)

theorem ctlRoundSet_prio (hlen : bit (reqWord r 2) 8 = false) (hprio : bit (reqWord r 2) 24 = true) :
    ctlRoundSet f s i r = (.stage (prioChange r) [s.rnd.counter + 1], s) := by
  simp [ctlRoundSet, prioChange, hlen, hprio, State.now]

theorem ctlRoundSet_busy (hlen : bit (reqWord r 2) 8 = true) (hcode : reqBits r 2 1 0 ≠ s.rnd.length)
    (hbusy : s.rnd.lengthBusy = true ∨ s.rnd.pendLength ≠ none) : ctlRoundSet f s i r = (.fail .busyRetry [], s) := by
  simp only [ne_eq, ← Option.isSome_iff_ne_none] at hbusy
  simp [ctlRoundSet, hlen, hcode, hbusy]

theorem ctlRoundSet_master (hlen : bit (reqWord r 2) 8 = true) (hcode : reqBits r 2 1 0 ≠ s.rnd.length)
    (hbusy : s.rnd.lengthBusy = false) (hpend : s.rnd.pendLength = none) (hmaster : s.isMaster = true) :
    ctlRoundSet f s i r = (.hold (prioChange r), s.announceLength (reqBits r 2 1 0)) := by
  simp [ctlRoundSet, prioChange, hlen, hcode, hbusy, hpend, hmaster]

end RoundSetRows

/-- Where the stake serves a ROUND.SET that passes the common checks, its own checks decide. -/
theorem exec_roundSet {s t : State} {i : Issuer} {r : CtrlReq} {x : CtlOut} (his : reqIs r 0xD5 0 = true) (hlease : s.leaseHeld = true)
    (hserving : (s.arrive i r).serving i r) (hok : (s.arrive i r).commonStatus (s.arrive i r).future i r = .ok)
    (hgo : ctlRoundSet (s.arrive i r).future (s.arrive i r) i r = (x, t)) (hx : x ≠ .wait) :
    exec (.roundSet i r) s = .next ((t.served (s.arrive i r) i r).settleCtl i r x).lengthResult := by
  show Host.Outcome.next (s.control i r 0xD5 0 ctlRoundSet).lengthResult = _
  rw [control_of_serving hlease his hserving, serveCtl_of_ok hok hgo hx]

/-- R41, R310: what the announcement of a length changes. -/
theorem announced_length (u : State) (i : Issuer) (r : CtrlReq) (cs : List Change) (code : Nat) :
    let t := (((u.announceLength code).served u i r).settleCtl i r (.hold cs)).lengthResult
    t.rnd = { u.rnd with pendLength := some (code, u.rnd.counter + 256), lengthBusy := true } ∧
      t.ctl.staged = u.ctl.staged ++ cs ∧ t = { u with rnd := t.rnd, ctl := t.ctl, cnt := t.cnt } := by
  refine ⟨?_, ?_, ?_⟩
  · rw [lengthResult_eq, settleCtl_eq, served_eq]; rfl
  · rw [lengthResult_staged]
    exact congrArg (· ++ cs) (served_staged _ i r u)
  · rw [lengthResult_eq, settleCtl_eq, served_eq]; rfl

theorem reqBits_of_zero {r : CtrlReq} {k : Nat} (h : reqWord r k = 0) (hi lo : Nat) : reqBits r k hi lo = 0 := by
  simp [reqBits, h, bits]

/-- Settles O23: each selection and query is `State.control` with its own checks; ROUND.SET by the three lemmas on `ctlRoundSet`. -/
theorem counterSelectionQueriesAndRoundSet : Obligations.counter_selection_queries_and_round_set := by
  refine ⟨fun i q r => ?select, fun i r s => ⟨fun hlease => ?noLease, fun his hlease hserving hok => ⟨fun hlen hprio => ?prio,
    fun hlen hcode hbusy => ?busy, fun hlen hcode hbusy hpend hmaster => ?master⟩⟩⟩
  case noLease =>
    show Host.Outcome.next (s.control i r 0xD5 0 ctlRoundSet).lengthResult = _
    rw [control_of_not (.inl hlease)]
  case prio =>
    rw [exec_roundSet his hlease hserving hok (ctlRoundSet_prio _ hlen hprio) nofun, arrive_rnd]; rfl
  case busy =>
    rw [← arrive_rnd s i r] at hcode hbusy
    exact exec_roundSet his hlease hserving hok (ctlRoundSet_busy _ hlen hcode hbusy) nofun
  case master =>
    have hset := exec_roundSet his hlease hserving hok (ctlRoundSet_master _ hlen (by rwa [arrive_rnd]) (by rwa [arrive_rnd])
      (by rwa [arrive_rnd]) (by rwa [isMaster_arrive])) nofun
    obtain ⟨hrnd, hstaged, hrest⟩ := announced_length (s.arrive i r) i r (prioChange r) (reqBits r 2 1 0)
    refine ⟨_, hset, by rw [hrnd, arrive_rnd], by rw [hstaged, arrive_staged]; rfl, hrest.trans ?_⟩
    rw [arrive_eq s i r]
  case select =>
    intro n chain level ev o b zero
    refine ⟨settles_of_pure ctlSelect (fun _ => rfl) ?event, settles_of_pure ctlSelect (fun _ => rfl) ?unknown,
      settles_of_pure ctlSelect (fun _ => rfl) ?partner, settles_of_pure ctlSelect (fun _ => rfl) ?ring,
      settles_of_pure ctlSelect (fun _ => rfl) ?operator, settles_of_pure ctlUserRead (fun _ => rfl) fun _ _ _ => rfl,
      settles_of_pure ctlSnap (fun _ => rfl) ?snapOwner, settles_of_pure ctlSnap (fun _ => rfl) ?snapOperator,
      settles_of_pure ctlSnap (fun _ => rfl) ?early, settles_of_pure ctlDevQuery (fun _ => rfl) fun _ _ _ => rfl,
      settles_of_pure ctlDevQuery (fun _ => rfl) fun _ _ _ => rfl, settles_of_pure ctlFence (fun _ => rfl) fun _ _ _ => rfl⟩
    case event =>
      rintro f u ⟨hlo, hhi, ⟨h3, h4, h5⟩, hfits, hchain, hpartner⟩
      have hring : (n == 0x7FE || n == 0x7FF) = false := by simp; omega
      have hodd : (chain && n % 2 == 1) = false := by
        cases hc : chain with
        | false => rfl
        | true => simp [hchain hc]
      have hfree : (n % 2 == 1 && (f.part q.val).chained (n - 1)) = false := by
        simpa using hpartner
      simp only [n, chain] at hlo hhi hring hodd hfree
      simp [ctlSelect, o, n, ev, level, chain, hlo, hhi, hring, h3, h4, h5, hfits, hodd, hfree, reqBits_of_zero]
    case unknown =>
      intro f u hn
      have hknown : (n == 0x7FE || n == 0x7FF || decide (48 ≤ n) && decide (n ≤ 63)) = false := by simp; omega
      exact if_pos (congrArg (!·) hknown)
    case partner =>
      rintro f u ⟨hlo, hhi, ⟨h3, h4, h5⟩, hfits, hchain, hodd, hpartner⟩
      have hring : (n == 0x7FE || n == 0x7FF) = false := by simp; omega
      simp only [n, chain] at hlo hhi hring hchain hodd hpartner
      simp [ctlSelect, o, hlo, hhi, hring, h3, h4, h5, hfits, hchain, hodd, hpartner]
    case ring =>
      rintro f u ⟨hn, halign, hmin, hmax⟩
      simp only [n] at hn
      simp [ctlSelect, o, n, hn, halign, hmin, hmax]
    case operator =>
      rintro f u ⟨hn, hfits, hchain, hpartner⟩
      have hring : (n == 0x7FE || n == 0x7FF) = false := by simp; omega
      have hodd : (chain && n % 2 == 1) = false := by
        cases hc : chain with
        | false => rfl
        | true => simp [hchain hc]
      have hfree : (n % 2 == 1 && (f.cnt.sel.look (0, false, 0, 0, 0) (n - 1)).2.1) = false := by
        simpa using hpartner
      simp only [n, chain] at hn hring hodd hfree
      simp [ctlSelect, n, ev, level, chain, hn, hring, hfits, hodd, hfree]
    case snapOwner =>
      rintro f u ⟨hb, hnew⟩
      exact (if_neg (Nat.not_lt.mpr hb)).trans (if_neg hnew)
    case snapOperator =>
      rintro f u ⟨hb, hnew⟩
      exact (if_neg (Nat.not_lt.mpr hb)).trans (if_neg hnew)
    case early =>
      intro f u hb
      exact if_pos hb

end Sys2Proof.Machine

/-! ### Region, mailbox, program and memory instructions (R66, R203 to R205, R237 to R248, R311 to R315, R456, R506, R511) -/

namespace Sys2Proof.Machine

/-- R247: what it means for a region to be open. -/
theorem open_iff {x : Region} : x.open_ = true ↔ x.valid = true ∧ x.destroying = none := by simp [Region.open_]

/-- Settles O24: each instruction is `State.control` with its own checks, evaluated where each check passes or fails. -/
theorem regionInstructions : Obligations.region_instructions := by
  intro i r p g isOpen k n index
  refine ⟨fun es id => ⟨settles_of_pure ctlRegionCreate (fun _ => rfl) ?create, settles_of_pure ctlRegionCreate (fun _ => rfl) ?notHeld⟩,
    settles_of_pure ctlRegionAccept (fun _ => rfl) ?accept, settles_of_pure ctlRegionAccept (fun _ => rfl) ?notOffered,
    settles_of_pure ctlRegionDestroy (fun _ => rfl) ?destroy, settles_of_pure ctlRegionDestroy (fun _ => rfl) ?closed,
    settles_of_pure ctlRegionDestroy (fun _ => rfl) ?notHome, fun slot => settles_of_go ctlRegionPin (fun _ => rfl) ?pin,
    settles_of_go ctlRegionPin (fun _ => rfl) ?notReader, settles_of_pure ctlRegionUnpin (fun _ => rfl) ?unpin,
    settles_of_pure ctlRegionUnpin (fun _ => rfl) ?notHeldPin, fun bs => settles_of_go ctlPublish (fun _ => rfl) ?publish,
    settles_of_go ctlPublish (fun _ => rfl) ?stale⟩
  case create =>
    rintro f u ⟨hes, hheld, hbusy, hnodup, hhalf, hframes, huse, hid⟩
    simp only [p] at hheld
    simp only [ctlRegionCreate, hes, hheld, hbusy, hhalf, hid, hnodup, decide_true, decide_eq_false (Nat.not_lt.mpr hframes),
      decide_eq_false (Nat.not_lt.mpr huse), Bool.not_true, Bool.or_false, Bool.false_eq_true, if_false, p]
  case notHeld =>
    rintro f u ⟨hes, hheld⟩
    simp only [ctlRegionCreate, hes]
    exact if_pos (by rw [hheld]; rfl)
  case accept =>
    rintro f u ⟨hopen, hoffer⟩
    have hopen' := open_iff.mpr hopen
    exact (if_neg (by rw [hopen']; decide)).trans (if_neg (by rw [hoffer]; decide))
  case notOffered =>
    rintro f u ⟨hopen, hoffer⟩
    have hopen' := open_iff.mpr hopen
    exact (if_neg (by rw [hopen']; decide)).trans (if_pos (by rw [hoffer]; rfl))
  case destroy =>
    rintro f u ⟨hopen, hhome⟩
    have hopen' := open_iff.mpr hopen
    exact (if_neg (by rw [hopen']; decide)).trans (if_neg (not_not.mpr hhome))
  case closed =>
    intro f u hclosed
    have hclosed' := mt open_iff.mp hclosed
    exact if_pos (by rw [Bool.not_eq_true'] ; exact Bool.eq_false_iff.mpr hclosed')
  case notHome =>
    rintro f u ⟨hopen, hhome⟩
    have hopen' := open_iff.mpr hopen
    exact (if_neg (by rw [hopen']; decide)).trans (if_pos hhome)
  case pin =>
    rintro f u ⟨hopen, hright, hslot, hblocked, hstatus⟩
    have hopen' := open_iff.mpr hopen
    have hmay : (decide ((f.region g).home ≠ p) && !(f.region g).readers.getLsbD p) = false := by
      rcases hright with hright | hright <;> simp [hright]
    simp only [g, p] at hopen' hmay hslot hblocked hstatus
    simp only [ctlRegionPin, hopen', hmay, hslot, hstatus, Bool.not_true, Bool.false_eq_true, if_false, g, p]
    exact if_neg (ne_true_of_eq_false hblocked)
  case notReader =>
    rintro f u ⟨hopen, hhome, hreader⟩
    have hopen' := open_iff.mpr hopen
    refine (if_neg (by rw [hopen']; decide)).trans (if_pos ?_)
    simp [g, p] at hhome hreader
    simp [hhome, hreader]
  case unpin =>
    rintro f u ⟨hheld, hgen, hspine⟩
    simp only [p, k] at hheld hgen
    simp [ctlRegionUnpin, State.regionFenced, hheld, hgen, hspine, p, k]
  case notHeldPin =>
    intro f u hheld
    exact if_pos (by simp only [p, k] at hheld; simp [hheld])
  case publish =>
    rintro f u ⟨hread, hrsvd, hopen, hhome, hversion, hlen, hmax, hsize, hlist, hindex⟩
    have hopen' := open_iff.mpr hopen
    obtain ⟨hvalid, -⟩ := hopen
    have hlive : (decide (index ≠ 0x1FFFFFF) && !liveAfter (f.region g) (updateList bs n) index) = false := by
      rcases hindex with hindex | hindex <;> simp [hindex]
    have hroom := Nat.not_le.mpr hlen
    have hfits := Nat.not_lt.mpr hsize
    simp only [g, p, n, index] at *
    simp only [ctlPublish, hread, hrsvd, hopen', hvalid, hhome, hversion, hroom, hmax, hfits, hlist, hlive]
    simp
  case stale =>
    rintro f u ⟨hopen, hhome, hversion⟩
    have hopen' := open_iff.mpr hopen
    obtain ⟨hvalid, -⟩ := hopen
    refine if_pos ?_
    simp only [g, p] at hopen' hvalid hhome hversion
    simp [hopen', hvalid, hhome, hversion]

end Sys2Proof.Machine

/-! ### Mailbox, program, retirement, role and memory instructions (R66, R203 to R205, R310 to R315, R456, R506, R511) -/

namespace Sys2Proof.Machine

/-- Settles O25: each instruction is `State.control` with its own checks, evaluated where each check passes or fails. -/
theorem mailboxProgramAndMemoryInstructions : Obligations.mailbox_program_and_memory_instructions := by
  intro i r p slot who tx rx pa st other
  refine ⟨settles_of_pure ctlBind (fun _ => rfl) ?bind, settles_of_pure ctlBind (fun _ => rfl) ?locked,
    settles_of_pure ctlLock (fun _ => rfl) fun _ _ _ => rfl, settles_of_pure ctlProgLoad (fun _ => rfl) ?load,
    settles_of_pure ctlProgLoad (fun _ => rfl) ?taken, settles_of_pure ctlProgUnload (fun _ => rfl) ?unload,
    settles_of_pure ctlProgUnload (fun _ => rfl) ?empty, settles_of_pure ctlAttest (fun _ => rfl) fun _ _ _ => rfl,
    settles_of_go ctlRoleSwap (fun _ => rfl) ?swap, settles_of_go ctlRoleSwap (fun _ => rfl) fun _ _ h => if_pos h,
    settles_of_go ctlRoleSwap (fun _ => rfl) ?notPassed, settles_of_go ctlFwStage (fun _ => rfl) ?firmware,
    settles_of_go ctlFwStage (fun _ => rfl) ?staging, settles_of_pure ctlTarget (fun _ => rfl) ?target,
    settles_of_pure ctlTarget (fun _ => rfl) ?badTarget, settles_of_pure ctlShare (fun _ => rfl) ?share,
    settles_of_pure ctlMemRetire (fun _ => rfl) ?page, settles_of_pure ctlMemRetire (fun _ => rfl) ?stack,
    settles_of_pure ctlMemRetire (fun _ => rfl) ?kind, settles_of_pure ctlErrRead (fun _ => rfl) ?errors,
    settles_of_pure ctlErrRead (fun _ => rfl) ?badCount⟩
  case bind =>
    rintro f u ⟨hlocked, htx, hrx⟩
    simp only [who, tx, rx] at htx hrx
    simp [ctlBind, hlocked, tx, rx]
    omega
  case locked =>
    intro f u hlocked
    exact if_pos hlocked
  case load =>
    rintro f u ⟨himg, hloading⟩
    refine if_neg ?_
    simp only [p, slot] at himg hloading
    rw [himg, hloading]
    decide
  case taken =>
    intro f u himg
    exact if_pos (Bool.or_eq_true_iff.mpr (.inl (Option.isSome_iff_ne_none.mpr himg)))
  case unload =>
    rintro f u ⟨himg, hgen⟩
    simp only [p, slot] at himg hgen
    simp [ctlProgUnload, himg, hgen, p, slot]
  case empty =>
    intro f u himg
    exact if_pos (by simp only [p, slot] at himg; simp [himg])
  case swap =>
    rintro f u ⟨hst, hpass, hhandover, hstaging, hwriting⟩
    simp only [other] at hst hpass
    simp [ctlRoleSwap, State.updateBusy, hst, hpass, hhandover, hstaging, hwriting, other]
  case notPassed =>
    rintro f u ⟨hst, hpass⟩
    simp only [other] at hst hpass
    simp [ctlRoleSwap, hst, hpass]
  case firmware =>
    intro f u hstaging
    exact if_neg (by rw [hstaging]; decide)
  case staging =>
    intro f u hstaging
    exact if_pos (Option.isSome_iff_ne_none.mpr hstaging)
  case target =>
    rintro f u ⟨hport, hlo, hhi⟩
    exact if_neg (by simp; omega)
  case badTarget =>
    intro f u hbad
    exact if_pos (by simp; omega)
  case share =>
    rintro f u ⟨hlo, hhi⟩
    exact if_neg (by simp; omega)
  case page =>
    rintro f u ⟨hkind, halign, hend, hmeta, hroom, hpages, hcopies⟩
    have hrange : (decide (pa % 4096 ≠ 0) || decide (paEnd ≤ pa) ||
        (decide (metaOff ≤ halfOff pa) && decide (halfOff pa < metaOff + 0x4000000)) ||
        decide (16384 ≤ (f.half (homeHalf pa)).pages.length + (f.half (homeHalf pa)).copies.length)) = false := by
      simp [halign, hend, hroom]
      omega
    simp only [ctlMemRetire, hkind]
    refine (if_neg (ne_true_of_eq_false hrange)).trans (if_neg ?_)
    simp only [pa] at hpages hcopies
    rw [hpages, hcopies]
    decide
  case stack =>
    rintro f u ⟨hkind, hst, hfailed, hfailing, hmoving⟩
    simp only [st] at hst hfailed hfailing hmoving
    simp [ctlMemRetire, hkind, Nat.not_lt.mpr hst, hfailed, hfailing, hmoving, st]
  case kind =>
    intro f u hkind
    simp only [ctlMemRetire, hkind]
  case errors =>
    rintro f u ⟨hlo, hhi⟩
    exact if_neg (by simp; omega)
  case badCount =>
    intro f u hbad
    exact if_pos (by simpa using hbad)

end Sys2Proof.Machine

/-! ### Background instructions end and results leave (R57, R297, R298, R303, R314) -/

namespace Sys2Proof.Machine

/-- The work of a background instruction that has ended: its outcome settles once it is marked done (R303). -/
def State.endBackground (t : State) (i : Issuer) (b : Background) : CtlOut → State
  | .wait => t
  | x => (t.onCtl (fun c => { c with
      background := c.background.map (fun y => if y.issuer = i then { y with done := true } else y) })).settleCtl i b.req x

theorem exec_backgroundDone {i : Issuer} {s t : State} {b : Background} {x : CtlOut} (hlease : s.leaseHeld = true)
    (hfind : s.ctl.background.find? (fun b => b.issuer = i && !b.done) = some b)
    (hgo : (if b.op = 0xD6 then bgProgLoad s.future s i b.req else if b.op = 0xD7 then bgAttest s.future s i b.req
      else if b.op = 0xDD then bgErrRead s.future s i b.req else bgFwStage s.future s i b.req) = (x, t)) :
    exec (.backgroundInstructionDone i) s = .next (t.endBackground i b x) := by
  show execBackgroundInstructionDone i s = _
  unfold execBackgroundInstructionDone
  rw [if_neg (by rw [hlease]; decide)]
  simp only [hfind, hgo]
  cases x <;> rfl

/-- What each work's outcome comes to (R303). -/
theorem backgroundDone_rows {i : Issuer} {s : State} {b : Background} {op : Nat}
    {go : State → State → Issuer → CtrlReq → CtlOut × State} (hlease : s.leaseHeld = true)
    (hfind : s.ctl.background.find? (fun b => b.issuer = i && !b.done) = some b)
    (hgo : b.op = op → (if b.op = 0xD6 then bgProgLoad s.future s i b.req else if b.op = 0xD7 then bgAttest s.future s i b.req
      else if b.op = 0xDD then bgErrRead s.future s i b.req else bgFwStage s.future s i b.req) = go s.future s i b.req)
    (hop : b.op = op) {x : CtlOut} {t : State} (hx : go s.future s i b.req = (x, t)) :
    exec (.backgroundInstructionDone i) s = .next (t.endBackground i b x) :=
  exec_backgroundDone hlease hfind ((hgo hop).trans hx)

/-- The state in which the result r of issuer i has left. -/
def State.resultLeft (s : State) (i : Issuer) (r : Result) : State := s.onCtl (fun c => { c with
  results := c.results.erase r
  sent := if r.effect ≠ 0 then c.sent ++ [r] else c.sent
  background := c.background.filter (fun b => !(b.issuer = i && b.done && reqTag b.req = r.tag && b.op = r.opcode)) })

/-- The packet that answers an owner's control request (R297, R298). -/
def ctlReply (s : State) (p : PartId) (r : Result) (q : Packet) : Packet :=
  { cls := 3, opcode := 0xC1, part := p.val, tag := q.tag, srcEp := s.rnd.endpoint, dstEp := q.srcEp, units := 1, payload := wordBytes r.words }

section Return
variable {s : State} {r : Result} (hlease : s.leaseHeld = true)
include hlease

theorem exec_resultReturn_stake (hfind : s.ctl.results.find? (s.mayLeave .stake) = some r) :
    exec (.controlResultReturn .stake) s = .next (s.resultLeft .stake r) := by
  refine (if_neg (by rw [hlease]; decide)).trans ?_
  simp only [hfind]
  rfl

theorem exec_resultReturn_operator (hfind : s.ctl.results.find? (s.mayLeave .operator) = some r) :
    exec (.controlResultReturn .operator) s =
      .next ((s.resultLeft .operator r).toHost { type := rtCtrlResult, dir := true, len := 8, payload := r.words }) := by
  refine (if_neg (by rw [hlease]; decide)).trans ?_
  simp only [hfind]
  rfl

theorem exec_resultReturn_owner {p : PartId} {q : Packet} (hfind : s.ctl.results.find? (s.mayLeave (.owner p)) = some r)
    (hq : s.requestOf p.val r.tag = some q) : exec (.controlResultReturn (.owner p)) s =
      .next ((s.resultLeft (.owner p) r).sendReply p.val ((s.resultLeft (.owner p) r).flowHome q.srcEp p.val) (ctlReply s p r q)) := by
  have hq' : (s.resultLeft (.owner p) r).requestOf p.val r.tag = some q := hq
  refine (if_neg (by rw [hlease]; decide)).trans ?_
  unfold State.resultLeft at hq' ⊢
  simp only [hfind, hq']
  rfl

end Return

/-- Settles O26: the end of background work by `exec_backgroundDone`, the return of a result by the three lemmas on it. -/
theorem backgroundWorkAndResults : Obligations.background_work_and_results := by
  refine ⟨?work, fun i s r hlease hfind => ⟨?stake, ?operator, ?owner, ?may⟩⟩
  case work =>
    intro i s b hlease hfind mark row
    have hrow : ∀ op go, (b.op = op → (if b.op = 0xD6 then bgProgLoad s.future s i b.req
        else if b.op = 0xD7 then bgAttest s.future s i b.req else if b.op = 0xDD then bgErrRead s.future s i b.req
        else bgFwStage s.future s i b.req) = go s.future s i b.req) → row op go := fun op go hgo hop =>
      ⟨fun _ _ _ h => backgroundDone_rows hlease hfind hgo hop h, fun _ _ h => backgroundDone_rows hlease hfind hgo hop h,
        fun _ _ _ h => backgroundDone_rows hlease hfind hgo hop h, fun _ h => backgroundDone_rows hlease hfind hgo hop h⟩
    exact ⟨hrow 0xD6 bgProgLoad fun hop => by simp [hop], hrow 0xD7 bgAttest fun hop => by simp [hop],
      hrow 0xDD bgErrRead fun hop => by simp [hop], hrow 0xD9 bgFwStage fun hop => by simp [hop]⟩
  case stake =>
    rintro rfl
    exact exec_resultReturn_stake hlease hfind
  case operator =>
    rintro rfl
    exact exec_resultReturn_operator hlease hfind
  case owner =>
    rintro p q rfl hq
    exact exec_resultReturn_owner hlease hfind hq
  case may =>
    intro x hx
    simp only [State.mayLeave, Bool.and_eq_true, beq_iff_eq, decide_eq_true_eq] at hx
    obtain ⟨⟨⟨hi, hready⟩, hround⟩, -⟩ := hx
    exact ⟨hready, hi, hround⟩

end Sys2Proof.Machine

/-! ### Length change, markers, claims, master, holdover and resynchronisation (R40 to R50, R55) -/

namespace Sys2Proof.Machine

/-! #### The announced length change (R41) -/

theorem exec_lengthChange_due {s : State} {code b : Nat} (hcounts : s.counts = true) (hpend : s.rnd.pendLength = some (code, b))
    (hdue : b ≤ s.nextRound) : exec .lengthChangeEffect s = .next { s with
      rnd := { s.rnd with length := code, pendLength := none, lengthBusy := false }
      ctl := { s.ctl with deltas := s.ctl.deltas ++ [{ kind := 0x0D, op := 0xD5 }] }
      parts := s.parts.mapAll {} (fun _ (x : Partition) => x.rescale s.rnd.length code) } := by
  show execLengthChangeEffect s = _
  unfold execLengthChangeEffect
  simp only [hpend]
  exact if_neg (by simp [hcounts, Nat.not_lt.mpr hdue])

theorem exec_lengthChange_early {s : State} {code b : Nat} (hpend : s.rnd.pendLength = some (code, b)) (hearly : s.nextRound < b) :
    exec .lengthChangeEffect s = .next s := by
  show execLengthChangeEffect s = _
  unfold execLengthChangeEffect
  simp only [hpend]
  exact if_pos (by simp [hearly])

/-! #### Markers (R46, R47, R49) -/

/-- The round's state after a marker of this domain on link l, but for the steering. -/
def RoundSt.marked (r : RoundSt) (l ep prio hops : Nat) : RoundSt :=
  let x := { r with
    hops := r.hops.put 0 l (hops + 1), markerAge := 0, held := false, master := some (r.master.getD ep), masterPrio := prio }
  { x with parent := if x.parent.isSome && x.parentDown then x.parent else x.bestParent }

/-- What a marker from the parent adds: the steering of the next boundary by at most 16 ns (R47). -/
def RoundSt.steered (r : RoundSt) (l : Nat) (early : Bool) (off : Nat) : RoundSt :=
  if r.parent = some l then { r with steer := if early then -((min 16 off : Nat) : Int) else ((min 16 off : Nat) : Int) } else r

/-- The device takes the marker: it counts, the link is trained, and the marker is of this domain and of this boundary. -/
def State.takesMarker (s : State) (l b ep : Nat) : Prop :=
  s.counts = true ∧ (s.link l).trainedUp = true ∧ (s.rnd.master == some s.rnd.endpoint || ep == s.rnd.endpoint) = false ∧
    (s.rnd.master = none ∨ s.rnd.master = some ep) ∧ b ≤ s.rnd.counter + 1 ∧ s.rnd.counter ≤ b + 1

section Marker
variable {s : State} {l : LinkId} {b ep prio hops off : Nat} {early : Bool}

theorem exec_marker_of_takes (h : s.takesMarker l.val b ep) (pend : Option (Fin 4 × Nat)) :
    exec (.marker l b ep prio hops pend early off) s =
      let t := s.onRnd (fun r => (r.marked l.val ep prio hops).steered l.val early off)
      .next (match pend with
        | none => t
        | some (code, e) => (t.onRnd (fun r => { r with pendLength := some (code.val, e), lengthBusy := true })).lengthResult) := by
  obtain ⟨hcounts, hup, hown, hmaster, hlo, hhi⟩ := h
  have hforeign : s.rnd.master.any (fun m => m ≠ ep) = false := by rcases hmaster with h | h <;> simp [h]
  show execMarker l b ep prio hops pend early off s = _
  unfold execMarker
  simp only [hcounts, hup, hown, hforeign]
  have hearly : ¬ s.now + 1 < b := Nat.not_lt.mpr hlo
  have hlate : ¬ b + 1 < s.now := Nat.not_lt.mpr hhi
  refine (if_neg (by simp [hearly, hlate])).trans ?_
  have hsteer : (if (s.onRnd (fun r => r.marked l.val ep prio hops)).rnd.parent = some l.val then
      (s.onRnd (fun r => r.marked l.val ep prio hops)).onRnd (fun r => { r with
        steer := if early then -((min 16 off : Nat) : Int) else ((min 16 off : Nat) : Int) })
      else s.onRnd (fun r => r.marked l.val ep prio hops)) =
      s.onRnd (fun r => (r.marked l.val ep prio hops).steered l.val early off) := by
    by_cases hparent : (s.rnd.marked l.val ep prio hops).parent = some l.val
    · exact (if_pos hparent).trans (congrArg (fun r => { s with rnd := r }) (if_pos hparent).symm)
    · exact (if_neg hparent).trans (congrArg (fun r => { s with rnd := r }) (if_neg hparent).symm)
  cases pend with
  | none => exact congrArg Host.Outcome.next hsteer
  | some e => exact congrArg (fun t : State => Host.Outcome.next
      (t.onRnd (fun r => { r with pendLength := some (e.1.val, e.2), lengthBusy := true })).lengthResult) hsteer

/-- A marker changes nothing of the counter and of what it does not name. -/
theorem marked_steered (r : RoundSt) (l ep prio hops off : Nat) (early : Bool) (hmaster : r.master = none ∨ r.master = some ep) :
    let t := (r.marked l ep prio hops).steered l early off
    t.hops = r.hops.put 0 l (hops + 1) ∧ t.markerAge = 0 ∧ t.held = false ∧ t.master = some ep ∧ t.masterPrio = prio ∧ t.counter = r.counter ∧
      (t.parent = some l → t.steer = if early then -((min 16 off : Nat) : Int) else ((min 16 off : Nat) : Int)) ∧
      (t.parent ≠ some l → t.steer = r.steer) := by
  have hep : r.master.getD ep = ep := by rcases hmaster with h | h <;> simp [h]
  intro t
  by_cases hparent : (r.marked l ep prio hops).parent = some l
  · have ht : t = { r.marked l ep prio hops with steer := if early then -((min 16 off : Nat) : Int) else ((min 16 off : Nat) : Int) } :=
      if_pos hparent
    rw [ht]
    exact ⟨rfl, rfl, rfl, congrArg some hep, rfl, rfl, fun _ => rfl, fun h => absurd hparent h⟩
  · have ht : t = r.marked l ep prio hops := if_neg hparent
    rw [ht]
    exact ⟨rfl, rfl, rfl, congrArg some hep, rfl, rfl, fun h => absurd h hparent, fun _ => rfl⟩

end Marker

/-! #### Claims (R43, R44) -/

/-- What leaves on each of some links is in the trace, and the rest of the state stays. -/
theorem each_emit (f : Nat → Out) (ls : List Nat) (s : State) :
    ∃ os, s.each ls (fun s k => s.emit (f k)) = { s with out := os } ∧ (∀ o ∈ s.out, o ∈ os) ∧ ∀ k ∈ ls, f k ∈ os := by
  induction ls generalizing s with
  | nil => exact ⟨s.out, rfl, fun _ h => h, nofun⟩
  | cons l ls ih =>
    obtain ⟨os, heq, hold, hnew⟩ := ih (s.emit (f l))
    refine ⟨os, heq, fun o ho => hold o (List.mem_cons_of_mem _ ho), fun k hk => ?_⟩
    rcases List.mem_cons.mp hk with rfl | hk
    · exact hold _ List.mem_cons_self
    · exact hnew k hk

theorem mem_trainedLinks {s : State} {k : Nat} : k ∈ s.trainedLinks ↔ k < 48 ∧ (s.link k).trainedUp = true := by
  simp [State.trainedLinks]

section Claim
variable {s : State} {l : LinkId} {counter prio ep : Nat}

/-- The state in which a claim has been heard (R43). -/
def State.heardClaim (s : State) (prio : Nat) : State :=
  { s with rnd := { s.rnd with nonzeroAge := if prio = 0 then s.rnd.nonzeroAge else 0 } }

theorem exec_roundClaim (hcounts : s.counts = true) (hup : (s.link l.val).trainedUp = true) (hep : ep ≠ s.rnd.endpoint) :
    let c : Claim := { counter := counter, prio := prio, ep := ep }
    exec (.roundClaim l counter prio ep) s =
      if s.rnd.best.all (fun b => b.ep = ep || c.beats b) then
        .next (((s.heardClaim prio).onRnd (fun r => { r with
          best := some c, bestAge := if s.rnd.best.any (fun b => b.ep = ep) then r.bestAge else 0 })).each
            (s.trainedLinks.filter (· ≠ l.val)) (fun s k => s.emit (.claim k c)))
      else .next (s.heardClaim prio) := by
  have hheard : (if prio = 0 then s else s.onRnd (fun r => { r with nonzeroAge := 0 })) = s.heardClaim prio := by
    unfold State.heardClaim
    split <;> rfl
  show execRoundClaim l counter prio ep s = _
  unfold execRoundClaim
  refine (if_neg (by simp [hcounts, hup, hep])).trans ?_
  rw [hheard]
  rfl

/-- R43: between claims of one counter, priority decides, then the lower endpoint. -/
theorem beats_iff {c d : Claim} (h : d.counter = c.counter) : c.beats d = true ↔ d.prio < c.prio ∨ (d.prio = c.prio ∧ c.ep < d.ep) := by
  unfold Claim.beats
  rw [if_neg (by omega), if_neg (by omega)]
  split <;> simp only [decide_eq_true_eq] <;> omega

end Claim

/-! #### The master, holdover, elections and resynchronisation (R44, R49, R50) -/

section Master
variable {s : State} (hcounts : s.counts = true)

theorem exec_masterRecognised_early {c : Claim} (hbest : s.rnd.best = some c) (hage : s.rnd.bestAge < 8) :
    exec .masterRecognised s = .next s := by
  show execMasterRecognised s = _
  unfold execMasterRecognised
  simp only [hbest]
  exact if_pos (by simp [hage])

theorem exec_roundHoldover_early (hage : s.rnd.markerAge < 16) : exec .roundHoldover s = .next s :=
  if_pos (by simp [hage])

theorem exec_electionStart_early (hage : s.rnd.markerAge < 64) : exec .electionStart s = .next s :=
  if_pos (by simp [hage])

theorem sat8_eq (n : Nat) : sat8 n = min 255 (n + 1) := by unfold sat8; split <;> omega

include hcounts

theorem exec_masterRecognised {c : Claim} (hbest : s.rnd.best = some c) (hage : 8 ≤ s.rnd.bestAge)
    (hnew : s.rnd.master ≠ some c.ep ∨ s.rnd.electing = true) :
    exec .masterRecognised s = .next (s.onRnd (fun r => { r with
      master := some c.ep, masterPrio := c.prio, electing := false, markerAge := 0
      hops := if r.master != some c.ep then [] else r.hops, parent := if r.master != some c.ep then none else r.parent })) := by
  show execMasterRecognised s = _
  unfold execMasterRecognised
  simp only [hbest]
  refine if_neg ?_
  rcases hnew with h | h <;> simp [hcounts, h, Nat.not_lt.mpr hage]

theorem exec_roundHoldover (hmaster : s.isMaster = false) (hheld : s.rnd.held = false) (hage : 16 ≤ s.rnd.markerAge) :
    exec .roundHoldover s = .next ((s.onRnd (fun r => { r with
      held := true, holdover := true, holdoverCount := sat8 r.holdoverCount })).event evHoldover s.now 0) :=
  if_neg (by simp [hcounts, hmaster, hheld, hage])

theorem exec_electionStart (hmaster : s.isMaster = false) (helect : s.rnd.electing = false) (hage : 64 ≤ s.rnd.markerAge) :
    exec .electionStart s = .next (s.onRnd (fun r => { r with
      electing := true, bestAge := 0, best := if r.claims then some r.ownClaim else none })) :=
  if_neg (by simp [hcounts, hmaster, helect, hage])

theorem exec_roundResync {n : Nat} (hn : s.nextRound < n) : exec (.roundResync n) s = .next (s.onRnd (fun r => { r with
      join := some n, lengthened := true, resync := true, resyncCount := sat8 r.resyncCount })) :=
  if_neg (by simp [hcounts, hn])

end Master

theorem exec_roundResync_old {s : State} {n : Nat} (hn : n ≤ s.nextRound) : exec (.roundResync n) s = .next s :=
  if_pos (by simp [hn])

/-- Settles O14: one lemma per command of the round's domain, each with the case in which it does nothing. -/
theorem roundDomain : Obligations.round_domain := by
  refine ⟨fun s code b hcounts hpend => ⟨fun hdue => exec_lengthChange_due hcounts hpend hdue,
    fun hearly => exec_lengthChange_early hpend hearly⟩, fun l b ep prio hops off early s => ⟨fun hcounts hup hown hmaster hlo hhi => ?marker, ?ignored⟩,
    fun l counter prio ep s => ?claim,
    fun s hcounts => ⟨fun c hbest hage hnew => ?recognised, fun c => exec_masterRecognised_early, fun hmaster hheld hage => ?holdover,
      exec_roundHoldover_early, fun hmaster helect hage => ?election, exec_electionStart_early, fun n hn => ?resync, fun n hn => ?old⟩⟩
  case marker =>
    have htakes : s.takesMarker l.val b ep := ⟨hcounts, hup, hown, hmaster, hlo, hhi⟩
    obtain ⟨hhops, hage, hheld, hm, hprio, hcounter, hsteer, hkeep⟩ := marked_steered s.rnd l.val ep prio hops off early hmaster
    refine ⟨⟨_, exec_marker_of_takes htakes none, ?_⟩, fun code e => ⟨_, exec_marker_of_takes htakes (some (code, e)), ?_⟩⟩
    · exact ⟨(congrArg (SMap.look 0 · l.val) hhops).trans (look_put_self 0 _ _ _),
        fun k hk => (congrArg (SMap.look 0 · k) hhops).trans (look_put_ne 0 _ _ hk), hage, hheld, hm, hprio, hcounter, hsteer, hkeep, rfl⟩
    · dsimp only
      rw [lengthResult_eq]
      exact ⟨rfl, (congrArg (SMap.look 0 · l.val) hhops).trans (look_put_self 0 _ _ _), hage, rfl⟩
  case ignored =>
    intro hno pend
    refine if_pos ?_
    rcases hno with h | h | ⟨other, h, hne⟩
    · simp only [h, Bool.or_true, Bool.true_or]
    · simp [h]
    · simp [h, hne]
  case claim =>
    intro c age hcounts hup hep
    refine ⟨fun hbeats => ?_, fun hloses => (exec_roundClaim hcounts hup hep).trans (if_neg (ne_true_of_eq_false hloses)),
      fun b hb => beats_iff hb⟩
    obtain ⟨os, heq, -, hout⟩ := each_emit (fun k => .claim k c) (s.trainedLinks.filter (· ≠ l.val)) ((s.heardClaim prio).onRnd
      (fun r => { r with best := some c, bestAge := if s.rnd.best.any (fun b => b.ep = ep) then r.bestAge else 0 }))
    refine ⟨_, (exec_roundClaim hcounts hup hep).trans (if_pos hbeats), ?_⟩
    rw [heq]
    exact ⟨rfl, fun k hk hne hkup => hout k (List.mem_filter.mpr ⟨mem_trainedLinks.mpr ⟨hk, hkup⟩, decide_eq_true hne⟩), rfl⟩
  case recognised =>
    exact ⟨_, exec_masterRecognised hcounts hbest hage hnew, rfl, rfl, rfl, rfl, rfl⟩
  case holdover =>
    rw [exec_roundHoldover hcounts hmaster hheld hage, ← sat8_eq]
    rfl
  case election =>
    refine ⟨_, exec_electionStart hcounts hmaster helect hage, rfl, rfl, ?_, rfl⟩
    simp [RoundSt.claims, RoundSt.ownClaim]
  case resync =>
    rw [exec_roundResync hcounts hn, ← sat8_eq]
    rfl
  case old =>
    exact exec_roundResync_old (hn.trans (Nat.le_max_left _ _))

end Sys2Proof.Machine

/-! ### Doorbells of submission and completion queues (R67 to R71, R98) -/

namespace Sys2Proof.Machine

/-! #### The doorbell block (R69) -/

/-- The number of a queue in its doorbell block. -/
theorem doorbell_index {base : Nat} (q : Fin 64) (hbase : base % 0x200 = 0) : (base + 8 * q.val) % 0x200 / 8 = q.val := by
  have hq := q.isLt
  omega

section Doorbell
variable {s : State} {p : Nat} {q : Fin 64} {v : U64}

theorem doorbell_wide {off : Nat} (hoff : off % 8 = 0) (hblock : off < 0x800) (hv : 65536 ≤ v.toNat) :
    s.doorbell p off v = (.rsvdNonzero, s) :=
  (if_neg (by simp [hoff]; omega)).trans (if_pos hv)

theorem doorbell_sqTail (hv : v.toNat < 65536) : s.doorbell p (8 * q.val) v = (.ok, s.sqTailDoorbell p q.val v.toNat) := by
  have hq := q.isLt
  refine (if_neg (by simp; omega)).trans ((if_neg (Nat.not_le.mpr hv)).trans ((if_pos (by omega)).trans ?_))
  rw [show 8 * q.val % 0x200 / 8 = q.val by omega]

theorem doorbell_cqHead (hv : v.toNat < 65536) : s.doorbell p (0x200 + 8 * q.val) v = (.ok, s.cqHeadDoorbell p q.val v.toNat) := by
  have hq := q.isLt
  refine (if_neg (by simp; omega)).trans ((if_neg (Nat.not_le.mpr hv)).trans ((if_neg (by omega)).trans ((if_pos (by omega)).trans ?_)))
  rw [doorbell_index q (by decide)]

theorem doorbell_sqReset (hv : v.toNat < 65536) : s.doorbell p (0x400 + 8 * q.val) v = (.ok, s.sqReset p q.val) := by
  have hq := q.isLt
  refine (if_neg (by simp; omega)).trans ((if_neg (Nat.not_le.mpr hv)).trans ((if_neg (by omega)).trans ((if_neg (by omega)).trans
    ((if_pos (by omega)).trans ?_))))
  rw [doorbell_index q (by decide)]

theorem doorbell_cqReset (hv : v.toNat < 65536) : s.doorbell p (0x600 + 8 * q.val) v = (.ok, s.cqReset p q.val) := by
  have hq := q.isLt
  refine (if_neg (by simp; omega)).trans ((if_neg (Nat.not_le.mpr hv)).trans ((if_neg (by omega)).trans ((if_neg (by omega)).trans
    ((if_neg (by omega)).trans ?_))))
  rw [doorbell_index q (by decide)]

end Doorbell

/-- A doorbell command of a live partition is a write to its doorbell block; of another it does nothing. -/
theorem doorbell_live {s : State} {p off : Nat} {v : U64} {st : Status} {t : State} (hlive : (s.part p).live = true)
    (h : s.doorbell p off v = (st, t)) :
    (if (s.part p).live then Host.Outcome.next (s.doorbell p off v).2 else .next s : Host.Outcome State Fault Refusal) = .next t := by
  rw [if_pos hlive, h]

theorem doorbell_wide_next {s : State} {p off : Nat} {v : U64} (hoff : off % 8 = 0) (hblock : off < 0x800) (hv : 65536 ≤ v.toNat) :
    (if (s.part p).live then Host.Outcome.next (s.doorbell p off v).2 else .next s : Host.Outcome State Fault Refusal) = .next s := by
  rw [doorbell_wide hoff hblock hv, ite_self]

/-! #### What each doorbell does to its queue (R70, R71) -/

section Queue
variable {s : State} {p q : Nat} {v : U64}

theorem sqTailDoorbell_of_read {n : Nat} (hread : (s.sq p q).read = true) : s.sqTailDoorbell p q n = s.sqTail p q n := if_pos hread

theorem useCq_of_read (hread : (s.cq p q).read = true) : s.useCq p q = (true, s) := if_pos hread

theorem cqHeadDoorbell_of_read {n : Nat} (hread : (s.cq p q).read = true) : s.cqHeadDoorbell p q n = s.cqHead p q n := by
  unfold State.cqHeadDoorbell
  rw [useCq_of_read hread]
  rfl

theorem cqHead_of_usable {n : Nat} (husable : (s.cq p q).usable = true) : s.cqHead p q n =
    let ahead := (n + 65536 - (s.cq p q).head % 65536) % 65536
    if (s.cq p q).wpos - (s.cq p q).head < ahead then s.queueEvent p q 0 .range (BitVec.ofNat 64 n)
    else s.onCq p q (fun c => { c with head := c.head + ahead }) :=
  if_neg (by simp [husable])

end Queue

section CqReset
variable {s : State} {p q : Nat} {bs : List Byte} (hread : s.readPva p (s.qdescPva p q false) 16 = .ok bs)
include hread

/-- R71: a CQ reset whose descriptor passes its checks. -/
theorem cqResetApply_of_ok (hfault : (s.cleanPva p (s.qdescPva p q false) 16).cqResetFault p q (qdescOf false bs) = none) :
    s.cqResetApply p q = ((((s.cleanPva p (s.qdescPva p q false) 16).onCq p q (fun c => { c with
      resetting := false, wpos := 0, head := 0, event := none })).setCqDesc p q (qdescOf false bs)).flush p q) := by
  unfold State.cqResetApply
  simp only [hread, hfault]

/-- R71: a CQ reset whose descriptor fails is refused by a queue event. -/
theorem cqResetApply_of_fault {st : Status}
    (hfault : (s.cleanPva p (s.qdescPva p q false) 16).cqResetFault p q (qdescOf false bs) = some st) :
    s.cqResetApply p q = (((s.cleanPva p (s.qdescPva p q false) 16).onCq p q (fun c => { c with
      resetting := false })).flush p q).queueEvent p q 0 st 0 := by
  unfold State.cqResetApply
  simp only [hread, hfault]

end CqReset

/-- Settles O15: each doorbell command is its effect on the queue (`doorbell_…`), evaluated in each state of the queue. -/
theorem queueDoorbells : Obligations.queue_doorbells := by
  refine ⟨fun p q v s hlive => ?sq, fun p q v s => ?cq⟩
  case sq =>
    intro x ahead
    have htail : v.toNat < 65536 → x.read = true → exec (.sqTailDoorbell p q v) s = .next (s.sqTail p.val q.val v.toNat) :=
      fun hv hread => (doorbell_live hlive (doorbell_sqTail hv)).trans (congrArg _ (sqTailDoorbell_of_read hread))
    have hwide : 65536 ≤ v.toNat → exec (.sqTailDoorbell p q v) s = .next s :=
      fun hv => doorbell_wide_next (by omega) (by omega) hv
    refine ⟨fun hv hread hhalted henable hfit => ?_, fun hv hread hhalted henable hfull => ?_, fun hread hhalted henable hv => ?_,
      fun hread hhalted => ?_, hwide, fun hv => doorbell_live hlive (doorbell_sqReset hv),
      fun hv => doorbell_wide_next (by omega) (by omega) hv⟩
    · rw [htail hv hread]
      exact congrArg _ ((if_neg (by simp [x] at hhalted; simp [hhalted])).trans ((if_neg (by simp [x] at henable; simp [henable])).trans
        (if_neg (Nat.not_lt.mpr hfit))))
    · rw [htail hv hread]
      refine congrArg _ ((if_neg (by simp [x] at hhalted; simp [hhalted])).trans ((if_neg (by simp [x] at henable; simp [henable])).trans
        ((if_pos hfull).trans ?_)))
      rw [BitVec.ofNat_toNat, BitVec.setWidth_eq]
    · rw [htail hv hread]
      exact congrArg _ ((if_neg (by simp [x] at hhalted; simp [hhalted])).trans (if_pos (by simp [x] at henable; simp [henable])))
    · rcases Nat.lt_or_ge v.toNat 65536 with hv | hv
      · rw [htail hv hread]
        exact congrArg _ (if_pos hhalted)
      · exact hwide hv
  case cq =>
    intro c n
    have hhead : (s.part p.val).live = true → v.toNat < 65536 → c.read = true →
        exec (.cqHeadDoorbell p q v) s = .next (s.cqHead p.val q.val v.toNat) :=
      fun hlive hv hread => (doorbell_live hlive (doorbell_cqHead hv)).trans (congrArg _ (cqHeadDoorbell_of_read hread))
    refine ⟨fun hlive hv hread husable hn => ?_, fun hlive hv hread husable hn => ?_, fun hlive hv hread husable => ?_,
      fun hlive hv => ⟨doorbell_live hlive (doorbell_cqReset hv), useCq_of_read⟩, fun hv => doorbell_wide_next (by omega) (by omega) hv,
      fun bs hreset hround hread => ?_, fun hreset => if_neg (by simp [c] at hreset; simp [hreset]), fun hwait => ?_⟩
    · rw [hhead hlive hv hread, cqHead_of_usable husable]
      exact congrArg _ (if_neg (Nat.not_lt.mpr hn))
    · rw [hhead hlive hv hread, cqHead_of_usable husable, BitVec.ofNat_toNat, BitVec.setWidth_eq]
      exact congrArg _ (if_pos hn)
    · rw [hhead hlive hv hread]
      exact congrArg _ (if_pos (by simp [c] at husable; simp [husable]))
    · have hexec : exec (.cqResetApply p q) s = .next (s.cqResetApply p.val q.val) :=
        if_pos (by simp [c] at hreset hround; simp [hreset, hround, State.now])
      rw [hexec]
      exact ⟨fun hfault => congrArg _ (cqResetApply_of_ok hread hfault), fun st hfault => congrArg _ (cqResetApply_of_fault hread hfault)⟩
    · show Host.Outcome.next ((if (s.cq p.val q.val).headWait.isSome then (s.useCq p.val q.val).2 else s).flush p.val q.val) = _
      rw [if_neg (by simp [c] at hwait; simp [hwait])]

end Sys2Proof.Machine

/-! ### The round's state and the snapshots named, through the work that a boundary does before it opens the round, and through released rands -/

namespace Sys2Proof.Machine

/-- What counts rounds, and the snapshots that the operator has named. -/
def State.aside (s : State) : RoundSt × List Nat := (s.rnd, s.cnt.snaps)

@[simp] theorem onPart_aside (s : State) (p : Nat) (f : Partition → Partition) : (s.onPart p f).aside = s.aside := rfl

@[simp] theorem onExtent_aside (s : State) (p : Nat) (f : Extent → Extent) : (s.onExtent p f).aside = s.aside := rfl

@[simp] theorem onDie_aside (s : State) (p : Nat) (f : DieSt → DieSt) : (s.onDie p f).aside = s.aside := rfl

@[simp] theorem onStack_aside (s : State) (p : Nat) (f : StackSt → StackSt) : (s.onStack p f).aside = s.aside := rfl

@[simp] theorem onBank_aside (s : State) (p : BankId) (f : Bank → Bank) : (s.onBank p f).aside = s.aside := rfl

@[simp] theorem onDir_aside (s : State) (p : Nat) (f : DirEnt → DirEnt) : (s.onDir p f).aside = s.aside := rfl

@[simp] theorem onRegion_aside (s : State) (p : Nat) (f : Region → Region) : (s.onRegion p f).aside = s.aside := rfl

@[simp] theorem onWeaver_aside (s : State) (p : Nat) (f : Weaver → Weaver) : (s.onWeaver p f).aside = s.aside := rfl

@[simp] theorem onWalker_aside (s : State) (p : Nat) (f : Walker → Walker) : (s.onWalker p f).aside = s.aside := rfl

@[simp] theorem onLink_aside (s : State) (p : Nat) (f : Link → Link) : (s.onLink p f).aside = s.aside := rfl

@[simp] theorem onMem_aside (s : State) (f : PoolMem → PoolMem) : (s.onMem f).aside = s.aside := rfl

@[simp] theorem onCtl_aside (s : State) (f : CtlSt → CtlSt) : (s.onCtl f).aside = s.aside := rfl

@[simp] theorem onAuth_aside (s : State) (f : AuthSt → AuthSt) : (s.onAuth f).aside = s.aside := rfl

@[simp] theorem onNet_aside (s : State) (f : NetSt → NetSt) : (s.onNet f).aside = s.aside := rfl

@[simp] theorem onHost_aside (s : State) (f : HostSt → HostSt) : (s.onHost f).aside = s.aside := rfl

@[simp] theorem onPower_aside (s : State) (f : PowerSt → PowerSt) : (s.onPower f).aside = s.aside := rfl

@[simp] theorem onRst_aside (s : State) (f : ResetSt → ResetSt) : (s.onRst f).aside = s.aside := rfl

@[simp] theorem emit_aside (s : State) (o : Out) : (s.emit o).aside = s.aside := rfl

@[simp] theorem setMem_aside (s : State) (m : PoolMem) : State.aside { s with mem := m } = s.aside := rfl

@[simp] theorem setDirUse_aside (s : State) (n : Nat) : State.aside { s with dirUse := n } = s.aside := rfl

@[simp] theorem setParts_aside (s : State) (m : SMap Partition) : State.aside { s with parts := m } = s.aside := rfl

@[simp] theorem setPoolReqs_aside (s : State) (l : List PoolReq) : State.aside { s with poolReqs := l } = s.aside := rfl

@[simp] theorem setWeavers_aside (s : State) (m : SMap Weaver) : State.aside { s with weavers := m } = s.aside := rfl

@[simp] theorem addClock_aside (s : State) (n : Nat) : (s.onCnt fun c => { c with clock := c.clock + n }).aside = s.aside := rfl

@[simp] theorem takeFree_aside (s : State) : s.takeFree.2.aside = s.aside := rfl

@[simp] theorem takeId_aside (s : State) : s.takeId.2.aside = s.aside := rfl

@[simp] theorem onPool_aside (s : State) (h : Nat) (f : BlockPool → BlockPool) : (s.onPool h f).aside = s.aside := by
  unfold State.onPool
  split <;> rfl

@[simp] theorem onHalf_aside (s : State) (h : Nat) (f : HalfSt → HalfSt) : (s.onHalf h f).aside = s.aside := by
  unfold State.onHalf
  split <;> rfl

@[simp] theorem ite_aside (c : Prop) [Decidable c] (a b : State) : (if c then a else b).aside = if c then a.aside else b.aside := by
  split <;> rfl

@[simp] theorem ite_snd_aside {β : Type} (c : Prop) [Decidable c] (a b : β × State) :
    (if c then a else b).2.aside = if c then a.2.aside else b.2.aside := by
  split <;> rfl

@[simp] theorem ite_fst_aside {β : Type} (c : Prop) [Decidable c] (a b : State × β) :
    (if c then a else b).1.aside = if c then a.1.aside else b.1.aside := by
  split <;> rfl

@[simp] theorem each_aside {α : Type} (s : State) (l : List α) (f : State → α → State)
    (h : ∀ s a, (f s a).aside = s.aside) : (s.each l f).aside = s.aside := each_keeps State.aside h s l

@[simp] theorem foldl_aside {α : Type} (s : State) (l : List α) (f : State → α → State)
    (h : ∀ s a, (f s a).aside = s.aside) : (l.foldl f s).aside = s.aside := each_keeps State.aside h s l

@[simp] theorem foldl_snd_aside {α β : Type} (l : List α) (f : β × State → α → β × State) (x : β × State)
    (h : ∀ x a, (f x a).2.aside = x.2.aside) : (l.foldl f x).2.aside = x.2.aside := by
  induction l generalizing x with
  | nil => rfl
  | cons a l ih => rw [List.foldl_cons, ih, h]

/-- A fold of changes that may fail. -/
theorem foldl_option_aside {α β : Type} (l : List α) (f : Option (State × β) → α → Option (State × β))
    (h : ∀ x a y, f x a = some y → ∃ z, x = some z ∧ y.1.aside = z.1.aside) :
    ∀ x y, l.foldl f x = some y → ∃ z, x = some z ∧ y.1.aside = z.1.aside := by
  induction l with
  | nil => exact fun x y hy => ⟨y, hy, rfl⟩
  | cons a l ih =>
    intro x y hy
    obtain ⟨z, hz, hyz⟩ := ih _ _ hy
    obtain ⟨w, hw, hzw⟩ := h _ _ _ hz
    exact ⟨w, hw, hyz.trans hzw⟩

@[simp] theorem countLink_aside (s : State) (l k n : Nat) : (s.countLink l k n).aside = s.aside := rfl

@[simp] theorem countNet_aside (s : State) (k : Nat) : (s.countNet k).aside = s.aside := rfl

@[simp] theorem persistChange_aside (s : State) : s.persistChange.aside = s.aside := rfl

@[simp] theorem countOf_aside (s : State) (p k n : Nat) : (State.countOf s p k n).aside = s.aside := by
  simp [State.countOf]

@[simp] theorem ownerEvent_aside (s : State) (p code : Nat) (level : Bool) (n : Nat) : (State.ownerEvent s p code level n).aside = s.aside := by
  simp [State.ownerEvent]

@[simp] theorem opEvent_aside (s : State) (code : Nat) (e : OpEvt) (n : Nat) : (State.opEvent s code e n).aside = s.aside := by
  unfold State.opEvent
  split <;> rfl

@[simp] theorem countRead_aside (s : State) (p pa lines source priv : Nat) : (State.countRead s p pa lines source priv).aside = s.aside := by
  simp [State.countRead]

@[simp] theorem countWrite_aside (s : State) (p pa lines source priv : Nat) : (State.countWrite s p pa lines source priv).aside = s.aside := by
  simp [State.countWrite]

@[simp] theorem linkSend_aside (s : State) (l : Nat) (p : Packet) : (State.linkSend s l p).aside = s.aside := by
  simp [State.linkSend]

@[simp] theorem mcSend_aside (s : State) (p : Packet) (outs : List Nat) : (State.mcSend s p outs).2.aside = s.aside := by
  simp [State.mcSend]

@[simp] theorem launch_aside (s : State) (p : Packet) : (State.launch s p).aside = s.aside := by
  unfold State.launch
  (repeat' split) <;> simp

@[simp] theorem onShaper_aside (s : State) (p ld : Nat) (f : Shaper → Shaper) : (State.onShaper s p ld f).aside = s.aside := by
  simp [State.onShaper]

@[simp] theorem stamp_aside (s : State) (p : Nat) (pkt : Packet) : (State.stamp s p pkt).2.aside = s.aside := by
  simp [State.stamp]

@[simp] theorem stampPeer_aside (s : State) (p : Nat) (pkt : Packet) : (State.stampPeer s p pkt).2.aside = s.aside := by
  unfold State.stampPeer
  (repeat' split) <;> simp

@[simp] theorem originate_aside (s : State) (p ld : Nat) (pkt : Packet) (peer : Bool) : (State.originate s p ld pkt peer).aside = s.aside := by
  simp [State.originate]

@[simp] theorem onFlow_aside (s : State) (f : FlowId) (g : Flow → Flow) : (State.onFlow s f g).aside = s.aside := by
  simp [State.onFlow]

@[simp] theorem performed_aside (s : State) (ld : Nat) (q : Packet) : (State.performed s ld q).aside = s.aside := by
  simp [State.performed]

@[simp] theorem answered_aside (s : State) (ld : Nat) (reply : Packet) : (State.answered s ld reply).aside = s.aside := by
  unfold State.answered
  (repeat' split) <;> simp

@[simp] theorem sendReply_aside (s : State) (p ld : Nat) (reply : Packet) : (State.sendReply s p ld reply).aside = s.aside := by
  simp [State.sendReply]

@[simp] theorem takeSnoopSeq_aside (s : State) (p ep : Nat) : (State.takeSnoopSeq s p ep).2.aside = s.aside := by
  simp [State.takeSnoopSeq]

@[simp] theorem writeRand_aside (s : State) (h r enter port : Nat) (buf : SMap (Option Byte)) : (State.writeRand s h r enter port buf).aside = s.aside := by
  unfold State.writeRand
  dsimp only
  split <;> rfl

@[simp] theorem gotReq_aside (s : State) (id : Nat) (st : Status) (data : List Byte) (poison : Bool) : (State.gotReq s id st data poison).aside = s.aside :=
  rfl

@[simp] theorem ackHost_aside (s : State) (tag : Nat) : (State.ackHost s tag).aside = s.aside := by
  simp [State.ackHost]

@[simp] theorem ack_aside (s : State) (a1 : Ack) : (State.ack s a1).aside = s.aside := by
  cases a1 <;> simp [State.ack]

@[simp] theorem releaseRand_aside (s : State) (h r : Nat) : (State.releaseRand s h r).aside = s.aside := by
  unfold State.releaseRand
  (repeat' split) <;> simp

@[simp] theorem releaseAll_aside (s : State) : (State.releaseAll s).aside = s.aside := by
  simp [State.releaseAll]

@[simp] theorem releaseUrgent_aside (s : State) : (State.releaseUrgent s).aside = s.aside := by
  simp [State.releaseUrgent]

@[simp] theorem drainLine_aside (s : State) (pa : Nat) : (State.drainLine s pa).aside = s.aside := by
  simp [State.drainLine]

@[simp] theorem metaWrite_aside (s : State) (h n : Nat) : (State.metaWrite s h n).aside = s.aside := by
  simp [State.metaWrite]

@[simp] theorem writeLine_aside (s : State) (pa : Nat) (bs : List Byte) (mask : List Bool) (acks : List Ack) (port : Nat) : (State.writeLine s pa bs mask acks port).aside = s.aside := by
  unfold State.writeLine
  dsimp only
  (repeat' split) <;> simp only [setMem_aside, releaseRand_aside]

@[simp] theorem writePoisoned_aside (s : State) (pa : Nat) (bs : List Byte) : (State.writePoisoned s pa bs).aside = s.aside := by
  simp [State.writePoisoned]

@[simp] theorem answer_aside (s : State) (r : FabReq) (op : Nat) (st : Status) (word2 : Nat) (data : List Byte) (poison : Bool) (served : Option Nat) : (State.answer s r op st word2 data poison served).aside = s.aside := by
  unfold State.answer
  split
  · rfl
  · dsimp only
    rw [sendReply_aside]
    simp only [ite_aside, ownerEvent_aside, ite_self]

@[simp] theorem refuse_aside (s : State) (r : FabReq) (st : Status) (retry : Nat) : (State.refuse s r st retry).aside = s.aside := by
  simp [State.refuse]

@[simp] theorem snoop_aside (s : State) (line : Nat) (q : Pend) (p rank seq : Nat) : (State.snoop s line q p rank seq).aside = s.aside := by
  simp [State.snoop]

@[simp] theorem snoopGroup_aside (s : State) (line : Nat) (q : Pend) (p g seq : Nat) : (State.snoopGroup s line q p g seq).aside = s.aside := by
  simp [State.snoopGroup]

@[simp] theorem bufferSnoop_aside (s : State) (d line op : Nat) : (State.bufferSnoop s d line op).aside = s.aside := by
  simp [State.bufferSnoop]

@[simp] theorem beginBusy_aside (s : State) (line : Nat) (q : Pend) (targets : List Requester) (ovf : Bool) : (State.beginBusy s line q targets ovf).aside = s.aside := by
  unfold State.beginBusy
  dsimp only
  rw [each_aside]
  · rw [each_aside]
    · simp
    · intro s p
      rw [each_aside]
      intro s g
      rw [each_aside]
      · simp
      · intro s w
        cases w with
        | buffer d => rfl
        | agent x k => dsimp only; split <;> simp
  · intro s w
    cases w with
    | buffer d => simp
    | agent p k => dsimp only; (repeat' split) <;> simp

@[simp] theorem setLine_aside (s : State) (line : Nat) (st : DirState) (ptrs : List Requester) : (State.setLine s line st ptrs).aside = s.aside := by
  simp [State.setLine]

@[simp] theorem fetchLine_aside (s : State) (pa : Nat) : (State.fetchLine s pa).2.aside = s.aside := by
  simp [State.fetchLine]

@[simp] theorem doAtom_aside (s : State) (p pa : Nat) (who : Requester) (tag port : Nat) (op : AtomOp) (w8 : Bool) (operand compare : U64) (mk : List Byte → List Ack) : (State.doAtom s p pa who tag port op w8 operand compare mk).2.2.aside = s.aside := by
  unfold State.doAtom
  dsimp only
  (repeat' split) <;> simp

@[simp] theorem localAtom_aside (s : State) (d : Nat) (q : PoolReq) : (State.localAtom s d q).aside = s.aside := by
  unfold State.localAtom
  (repeat' split) <;> simp

@[simp] theorem serveStroke_aside (s : State) (q : PoolReq) : (State.serveStroke s q).aside = s.aside := by
  unfold State.serveStroke
  (repeat' split) <;> simp

@[simp] theorem serveHost_aside (s : State) (tag pa : Nat) : (State.serveHost s tag pa).aside = s.aside := by
  unfold State.serveHost
  (repeat' split) <;> simp

@[simp] theorem afterNc_aside (s : State) (line : Nat) (st : DirState) (keep : Option Requester) : (State.afterNc s line st keep).aside = s.aside := by
  unfold State.afterNc
  (repeat' split) <;> simp

@[simp] theorem afterWrite_aside (s : State) (line : Nat) (keep : Option Requester) : (State.afterWrite s line keep).aside = s.aside := by
  simp [State.afterWrite]

@[simp] theorem applyRdS_aside (s : State) (line : Nat) (r : FabReq) (fwd : Bool) (keep : Option Requester) : (State.applyRdS s line r fwd keep).aside = s.aside := by
  simp [State.applyRdS]

@[simp] theorem bufferSpill_aside (s : State) (d : DieId) : (State.bufferSpill s d).aside = s.aside := by
  unfold State.bufferSpill
  (repeat' split) <;> simp

@[simp] theorem applyRdX_aside (s : State) (line : Nat) (r : FabReq) (fwd : Bool) : (State.applyRdX s line r fwd).aside = s.aside := by
  unfold State.applyRdX
  dsimp only
  (repeat' split) <;> simp

@[simp] theorem applyUpg_aside (s : State) (line : Nat) (r : FabReq) : (State.applyUpg s line r).aside = s.aside := by
  simp [State.applyUpg]

@[simp] theorem applyRdNc_aside (s : State) (line : Nat) (r : FabReq) (rest : List Nat) (data : List Byte) (poison : Bool) (keep : Option Requester) : (State.applyRdNc s line r rest data poison keep).1.aside = s.aside := by
  unfold State.applyRdNc
  (repeat' split) <;> simp

@[simp] theorem applyWrNc_aside (s : State) (line : Nat) (r : FabReq) (rest : List Nat) (data : List Byte) (masks : Option (List U64)) (st : Status) (keep : Option Requester) : (State.applyWrNc s line r rest data masks st keep).1.aside = s.aside := by
  unfold State.applyWrNc
  (repeat' split) <;> simp

@[simp] theorem applyAtom_aside (s : State) (line : Nat) (r : FabReq) (op : AtomOp) (w8 : Bool) (operand compare : U64) (keep : Option Requester) : (State.applyAtom s line r op w8 operand compare keep).aside = s.aside := by
  unfold State.applyAtom
  dsimp only
  (repeat' split) <;> simp

@[simp] theorem applyStroke_aside (s : State) (line : Nat) (k : PendKind) (id : Nat) (keep : Option Requester) : (State.applyStroke s line k id keep).aside = s.aside := by
  unfold State.applyStroke
  dsimp only
  (repeat' split) <;> simp

@[simp] theorem applyHost_aside (s : State) (line : Nat) (k : PendKind) (tag : Nat) (keep : Option Requester) : (State.applyHost s line k tag keep).aside = s.aside := by
  simp [State.applyHost]

@[simp] theorem applyTrim_aside (s : State) (line home : Nat) : (State.applyTrim s line home).aside = s.aside := by
  simp [State.applyTrim]

@[simp] theorem applyDevice_aside (s : State) (line a : Nat) (bs : List Byte) (keep : Option Requester) : (State.applyDevice s line a bs keep).aside = s.aside := by
  simp [State.applyDevice]

@[simp] theorem applyReq_aside (s : State) (line : Nat) (r : FabReq) (k : PendKind) (fwd : Bool) (keep : Option Requester) : (State.applyReq s line r k fwd keep).1.aside = s.aside := by
  unfold State.applyReq
  (repeat' split) <;> simp

@[simp] theorem finish_aside (s : State) (line : Nat) : (State.finish s line).1.aside = s.aside := by
  unfold State.finish
  split <;> simp

@[simp] theorem drive_aside  (a1 : Nat) (a2 : State) (a3 : Nat) (a4 : FabReq) (a5 : PendKind) : (State.drive  a1 a2 a3 a4 a5).aside = a2.aside := by
  induction a1 generalizing a2 a3 a4 a5 with
  | zero => rfl
  | succ n ih =>
    unfold State.drive
    dsimp only
    split
    · simp
    · split
      · split
        · next h => have := applyReq_aside a2 a3 a4 (a2.upgOr a3 a4 a5) false none; rw [h] at this; exact this
        · next h => have := applyReq_aside a2 a3 a4 (a2.upgOr a3 a4 a5) false none; rw [h] at this; rw [ih]; exact this
      · next op targets owner ovf _ =>
        split
        · split
          · next h => have := finish_aside (a2.beginBusy a3 { kind := a2.upgOr a3 a4 a5, req := a4, op := op, owner := owner } targets ovf) a3; rw [h] at this; simpa using this
          · next h => have := finish_aside (a2.beginBusy a3 { kind := a2.upgOr a3 a4 a5, req := a4, op := op, owner := owner } targets ovf) a3; rw [h] at this; rw [ih]; simpa using this
        · simp

@[simp] theorem run_aside (s : State) (line : Nat) (r : FabReq) (k : PendKind) : (State.run s line r k).aside = s.aside := by
  simp [State.run]

@[simp] theorem dropToken_aside (s : State) (line : Nat) (t : Token) : (State.dropToken s line t).aside = s.aside := by
  simp [State.dropToken]

@[simp] theorem atomServe_aside (s : State) (line : Nat) (r : FabReq) (op : AtomOp) (w8 : Bool) (operand compare : U64) : (State.atomServe s line r op w8 operand compare).aside = s.aside := by
  simp [State.atomServe]

@[simp] theorem atomRetry_aside (s : State) (line : Nat) (id : Nat) (d : DieId) : (State.atomRetry s line id d).aside = s.aside := by
  unfold State.atomRetry
  (repeat' split) <;> simp

@[simp] theorem settle_aside  (a1 : Nat) (a2 : State) (a3 : Nat) : (State.settle  a1 a2 a3).aside = a2.aside := by
  induction a1 generalizing a2 a3 with
  | zero => rfl
  | succ n ih =>
    unfold State.settle
    dsimp only
    (repeat' split) <;> simp [*]

@[simp] theorem settleLine_aside (s : State) (line : Nat) : (State.settleLine s line).aside = s.aside := by
  simp [State.settleLine]

@[simp] theorem access_aside (s : State) (line : Nat) (r : FabReq) (k : PendKind) : (State.access s line r k).aside = s.aside := by
  simp [State.access]

@[simp] theorem useLine_aside (s : State) (part line : Nat) : (State.useLine s part line).aside = s.aside := by
  unfold State.useLine
  dsimp only
  (repeat' split) <;> simp

@[simp] theorem hitLine_aside (s : State) (part line : Nat) : (State.hitLine s part line).aside = s.aside := by
  simp [State.hitLine]

@[simp] theorem ncAccess_aside (s : State) (part line : Nat) (r : FabReq) (k : PendKind) : (State.ncAccess s part line r k).aside = s.aside := by
  simp [State.ncAccess]

@[simp] theorem deviceWrite_aside (s : State) (pa : Nat) (bs : List Byte) : (State.deviceWrite s pa bs).aside = s.aside := by
  simp [State.deviceWrite]

theorem writePva_aside (s : State) (p pva : Nat) (bs : List Byte) {t2 : State} (h : State.writePva s p pva bs = some t2) :
    t2.aside = s.aside := by
  unfold State.writePva at h
  split at h
  · cases h
  · simp only [Option.map_eq_some_iff] at h
    obtain ⟨x, hx, rfl⟩ := h
    obtain ⟨z, hz, e⟩ := foldl_option_aside _ _ (fun x a y hy => by
      cases x with
      | none => simp at hy
      | some x =>
        refine ⟨x, rfl, ?_⟩
        simp only [Option.bind_some] at hy
        split at hy
        · cases hy
        · cases hy; simp) _ _ hx
    cases hz; exact e

@[simp] theorem toHost_aside (s : State) (m : RimMsg) : (State.toHost s m).aside = s.aside := by
  simp [State.toHost]

@[simp] theorem event_aside (s : State) (code d0 d1 : Nat) : (State.event s code d0 d1).aside = s.aside := by
  simp [State.event]

@[simp] theorem mbxPut_aside (s : State) (sender ch part len : Nat) (words : List U64) : (State.mbxPut s sender ch part len words).2.aside = s.aside := by
  unfold State.mbxPut
  (repeat' split) <;> simp

theorem mbxTake_aside (s : State) (ch : Nat) {a : MbxMsg} {t2 : State} (h : State.mbxTake s ch = some (a, t2)) : t2.aside = s.aside := by
  unfold State.mbxTake at h
  split at h
  · cases h
  · simp only [Option.some.injEq, Prod.mk.injEq] at h; rw [← h.2]; simp

@[simp] theorem pinBy_aside (s : State) (x : PinPage) (n : Int) : (State.pinBy s x n).aside = s.aside := by
  unfold State.pinBy
  dsimp only
  (repeat' split) <;> simp

@[simp] theorem unpinAll_aside (s : State) (xs : List PinPage) : (State.unpinAll s xs).aside = s.aside := by
  simp [State.unpinAll]

@[simp] theorem onSq_aside (s : State) (p q : Nat) (f : Sq → Sq) : (State.onSq s p q f).aside = s.aside := by
  simp [State.onSq]

@[simp] theorem onCq_aside (s : State) (p q : Nat) (f : Cq → Cq) : (State.onCq s p q f).aside = s.aside := by
  simp [State.onCq]

theorem writeRec_aside (s : State) (p q : Nat) (r : DueRec) {t2 : State} (h : State.writeRec s p q r = some t2) : t2.aside = s.aside := by
  simp only [State.writeRec, Option.map_eq_some_iff] at h
  obtain ⟨x, hx, rfl⟩ := h
  simp [writePva_aside _ _ _ _ hx]

@[simp] theorem countRec_aside (s : State) (p : Nat) (r : DueRec) : (State.countRec s p r).aside = s.aside := by
  simp [State.countRec]

@[simp] theorem flushCq_aside (s : State) (p q : Nat) (a1 : Nat) : (State.flushCq s p q a1).aside = s.aside := by
  induction a1 generalizing s with
  | zero => rfl
  | succ n ih =>
    unfold State.flushCq
    dsimp only
    split
    · rfl
    · split
      · rfl
      · split
        · rfl
        · split
          · rfl
          · next h => have := writeRec_aside _ _ _ _ h; split <;> simp [ih, this]

@[simp] theorem flush_aside (s : State) (p q : Nat) : (State.flush s p q).aside = s.aside := by
  simp [State.flush]

@[simp] theorem postRec_aside (s : State) (p q : Nat) (r : DueRec) : (State.postRec s p q r).aside = s.aside := by
  simp [State.postRec]

@[simp] theorem cachePin_aside (s : State) (k : Stroke) (n : Int) : (State.cachePin s k n).aside = s.aside :=
  each_aside _ _ _ fun _ _ => rfl

@[simp] theorem dropReads_aside (s : State) (sid : Nat) : (State.dropReads s sid).aside = s.aside := by
  simp [State.dropReads]

@[simp] theorem complete_aside (s : State) (k : Stroke) (st : Status) (cycles detail : Nat) (result : U64) : (State.complete s k st cycles detail result).aside = s.aside := by
  simp [State.complete]

@[simp] theorem leaveRun_aside (s : State) (w cycles : Nat) : (State.leaveRun s w cycles).aside = s.aside := by
  simp [State.leaveRun]

@[simp] theorem endRun_aside (s : State) (w : Nat) (st : Status) (detail : Nat) (result : U64) : (State.endRun s w st detail result).aside = s.aside := by
  unfold State.endRun
  (repeat' split) <;> simp

@[simp] theorem dropBridge_aside (s : State) (b : Nat) : (State.dropBridge s b).aside = s.aside := by
  simp [State.dropBridge]

@[simp] theorem declareDie_aside (s : State) (d : Nat) : (State.declareDie s d).aside = s.aside := by
  unfold State.declareDie
  split
  · rfl
  · exact (dropBridge_aside _ _).trans (each_aside _ _ _ fun _ _ => rfl)

@[simp] theorem stage_aside (s : State) (op : Nat) (cs : List Change) : (State.stage s op cs).aside = s.aside := by
  simp [State.stage]

@[simp] theorem learnAll_aside (s : State) : (State.learnAll s).aside = s.aside := by
  unfold State.learnAll
  dsimp only
  rw [setParts_aside]
  split
  · exact each_aside _ _ _ fun _ _ => rfl
  · rfl

@[simp] theorem serve_aside (s : State) (ch svc reqId : Nat) (o : Served) : (State.serve s ch svc reqId o).aside = s.aside := by
  simp [State.serve]

@[simp] theorem cfgStage_aside (s : State) (reqId : Nat) (w0 w1 : U64) (key : List U64) : (State.cfgStage s reqId w0 w1 key).aside = s.aside := by
  simp [State.cfgStage]

@[simp] theorem withdraw_aside (s : State) (reqId e : Nat) (force : Bool) : (State.withdraw s reqId e force).aside = s.aside := by
  unfold State.withdraw
  dsimp only
  (repeat' split) <;> simp

@[simp] theorem serviceMsg_aside (s : State) (ch : Nat) (m : MbxMsg) : (State.serviceMsg s ch m).aside = s.aside := by
  simp [State.serviceMsg]

theorem consume_aside (s : State) (ch : Nat) {a : MbxMsg} {t2 : State} (h : State.consume s ch = some (a, t2)) : t2.aside = s.aside := by
  simp only [State.consume, Option.map_eq_some_iff, Prod.mk.injEq] at h
  obtain ⟨⟨m, u⟩, hx, -, rfl⟩ := h
  simp [mbxTake_aside _ _ hx]

@[simp] theorem serveHosts_aside (s : State) : (State.serveHosts s).aside = s.aside := by
  unfold State.serveHosts
  split
  · rfl
  · refine each_aside _ _ _ (fun s ch => each_aside _ _ _ (fun s _ => ?_))
    split
    · next h => simp [consume_aside _ _ h]
    · rfl

@[simp] theorem endRuns_aside (s : State) : (State.endRuns s).aside = s.aside := by
  unfold State.endRuns
  refine each_aside _ _ _ fun s w => ?_
  split <;> simp

@[simp] theorem countClock_aside (s : State) : (State.countClock s).aside = s.aside := by
  unfold State.countClock
  dsimp only
  rw [setWeavers_aside]
  split <;> rfl

/-- A command that may do nothing keeps the round's state where its effect does. -/
theorem orSame_either_aside {s t : State} {c : Prop} [Decidable c] (h : t.aside = s.aside) :
    (orSame s (if c then .next s else .next t)).aside = s.aside := by
  split
  · rfl
  · exact h

theorem orSame_stackFailed_aside (s : State) (n : StackId) (cause : StackCause) : (orSame s (execStackFailed n cause s)).aside = s.aside :=
  orSame_either_aside (onHalf_aside _ _ _)

@[simp] theorem healthExchange_aside (s : State) (m : BoundaryIn) : (State.healthExchange s m).aside = s.aside := by
  unfold State.healthExchange
  refine (each_aside _ _ _ fun s d => ?_).trans ((each_aside _ _ _ fun s n => orSame_stackFailed_aside s _ _).trans (each_aside _ _ _ fun s n => ?_))
  · split <;> simp
  · split <;> simp

@[simp] theorem countCodewords_aside (s : State) (m : BoundaryIn) : (State.countCodewords s m).aside = s.aside :=
  each_aside _ _ _ fun _ _ => rfl

theorem rnd_of_aside {s t : State} (h : t.aside = s.aside) : t.rnd = s.rnd := congrArg Prod.fst h

theorem snaps_of_aside {s t : State} (h : t.aside = s.aside) : t.cnt.snaps = s.cnt.snaps := congrArg Prod.snd h

end Sys2Proof.Machine

/-! ### A round boundary opens the next round (R39, R41, R50, R55) -/

namespace Sys2Proof.Machine

/-- The queue and what a boundary does to the counter and the lengths of the round: the gauge without the actuators. -/
def State.roundView (s : State) : List Instr × Nat × Nat × Nat × Option (Nat × Nat) :=
  (s.pending, s.rnd.counter, s.rnd.length, s.rnd.running, s.rnd.pendLength)

theorem roundView_of_gauge {s t : State} (h : t.gauge = s.gauge) : t.roundView = s.roundView := by
  unfold State.gauge at h
  unfold State.roundView
  simp only [Prod.mk.injEq] at h ⊢
  obtain ⟨hpending, hcounter, hlength, hrunning, hpend, -⟩ := h
  exact ⟨hpending, hcounter, hlength, hrunning, hpend⟩

theorem pending_of_gauge {s t : State} (h : t.gauge = s.gauge) : t.pending = s.pending := congrArg Prod.fst h

theorem powerStep_roundView (s : State) (m : BoundaryIn) (shorter : Bool) : (s.powerStep m shorter).roundView = s.roundView := by
  unfold State.powerStep
  have hgroup : ∀ (u : State) (x : PowerSt → PowerSt) (n : Nat), ((u.onPower x).groupStep n).roundView = u.roundView :=
    fun u x n => roundView_of_gauge (s := u.onPower x) (groupStep_gauge _ _)
  dsimp only
  split
  · exact (roundView_of_gauge (dropUnfit_gauge _)).trans (hgroup _ _ _)
  · exact hgroup _ _ _

/-- Step 1: the counter takes the boundary's number, and the round has the length in force (R39, R40, R50). -/
theorem openRound_roundView (s : State) :
    s.openRound.roundView = (s.pending, s.nextRound, s.rnd.length, s.rnd.length, s.rnd.pendLength) := by
  have hmoved : ∀ u : State, u.gauge = s.gauge →
      (u.onRnd (fun r => { r with counter := s.nextRound, join := none, lengthened := false, running := r.length, steer := 0 })).roundView =
        (s.pending, s.nextRound, s.rnd.length, s.rnd.length, s.rnd.pendLength) := by
    intro u hu
    have hclock := roundView_of_gauge hu
    simp only [State.roundView, Prod.mk.injEq] at hclock
    obtain ⟨hpending, -, hlength, -, hpend⟩ := hclock
    simp [State.roundView, hpending, hlength, hpend]
  unfold State.openRound
  dsimp only
  split
  · exact hmoved _ rfl
  · exact hmoved _ ((moveNamed_gauge _ _).trans (shiftTimers_gauge _ _))

/-- What the device does at a boundary before the counter moves leaves the round's state and the queue. -/
theorem stepZero_rnd (s : State) (m : BoundaryIn) :
    ((s.serveHosts.countCodewords m).healthExchange m).endRuns.learnAll.countClock.releaseAll.rnd = s.rnd :=
  rnd_of_aside (by simp)

theorem stepZero_gauge (s : State) (m : BoundaryIn) :
    ((s.serveHosts.countCodewords m).healthExchange m).endRuns.learnAll.countClock.releaseAll.gauge = s.gauge := by simp

/-- Steps 1 to 10 after the opening leave the queue, the counter and the lengths. -/
theorem stepsAfter_roundView (s : State) (before : Nat) (m : BoundaryIn) (shorter : Bool) :
    let t := ((((((s.latchCounters before).fireTimers.takeEffect.hoopStep m).trafficStep.powerStep m shorter).halfStep.beginRound).linkMargins m)
      ).journalStep.sendMarkers.sendClaims.ageRound
    (orSame (orSame t (execRoundHoldover t)) (execElectionStart (orSame t (execRoundHoldover t)))).roundView = s.roundView := by
  intro t
  have hbefore : ((s.latchCounters before).fireTimers.takeEffect.hoopStep m).trafficStep.gauge = s.gauge := by simp
  have hafter : t.gauge = (((s.latchCounters before).fireTimers.takeEffect.hoopStep m).trafficStep.powerStep m shorter).gauge := by simp [t]
  have hend := (orSame_held _ _ (execElectionStart_held _)).trans (orSame_held t _ (execRoundHoldover_held t))
  exact (roundView_of_gauge (hend.trans hafter)).trans ((powerStep_roundView _ _ _).trans (roundView_of_gauge hbefore))

/-- The state in which an announced length change that is due has taken effect (R41). -/
theorem lengthChange_due {s : State} {code b : Nat} (hcounts : s.counts = true) (hpend : s.rnd.pendLength = some (code, b))
    (hdue : b ≤ s.nextRound) : (orSame s (execLengthChangeEffect s)).rnd = { s.rnd with length := code, pendLength := none, lengthBusy := false } ∧
      (orSame s (execLengthChangeEffect s)).pending = s.pending := by
  have h : execLengthChangeEffect s = _ := exec_lengthChange_due hcounts hpend hdue
  rw [h]
  exact ⟨rfl, rfl⟩

theorem lengthChange_not_due {s : State} (h : ∀ code b, s.rnd.pendLength = some (code, b) → s.nextRound < b) :
    orSame s (execLengthChangeEffect s) = s := by
  cases hpend : s.rnd.pendLength with
  | none =>
    unfold execLengthChangeEffect
    simp only [hpend]
    rfl
  | some e =>
    have hsame : execLengthChangeEffect s = .next s := exec_lengthChange_early hpend (h e.1 e.2 hpend)
    rw [hsame]
    rfl

/-- What a boundary opens rests on the queue and the round's state. -/
theorem opened_congr {s t : State} (hrnd : t.rnd = s.rnd) (hpending : t.pending = s.pending) :
    (t.pending, t.nextRound, t.rnd.length, t.rnd.length, t.rnd.pendLength) =
      (s.pending, s.nextRound, s.rnd.length, s.rnd.length, s.rnd.pendLength) := by
  unfold State.nextRound State.now
  rw [hrnd, hpending]

/-- A boundary that no cold reset takes opens the round that follows the state after a length change that is due. -/
theorem exec_roundBoundary_roundView {s : State} (m : BoundaryIn) (hcounts : s.counts = true)
    (hreset : s.rst.due.any (fun x => x.1 == 3 && decide (x.2 ≤ s.nextRound)) = false) :
    let u := orSame s (execLengthChangeEffect s)
    Goes (exec (.roundBoundary m) s) (fun t => t.roundView = (u.pending, u.nextRound, u.rnd.length, u.rnd.length, u.rnd.pendLength)) := by
  have hexec : exec (.roundBoundary m) s = _ :=
    (if_neg (by rw [hcounts]; decide)).trans (if_neg (ne_true_of_eq_false hreset))
  dsimp only at hexec ⊢
  generalize orSame s (execLengthChangeEffect s) = u at hexec ⊢
  refine ⟨_, hexec, ?_⟩
  have hpending : ((u.serveHosts.countCodewords m).healthExchange m).endRuns.learnAll.countClock.releaseAll.pending = u.pending :=
    pending_of_gauge (stepZero_gauge u m)
  exact (stepsAfter_roundView _ _ _ _).trans ((openRound_roundView _).trans (opened_congr (stepZero_rnd u m) hpending))

/-- Settles O12: the clock of the next round (`exec_roundBoundary_roundView`), with or without a length change that is due. -/
theorem boundaryOpensTheNextRound : Obligations.boundary_opens_the_next_round := by
  intro m s hcounts hreset
  obtain ⟨t, hnext, hclock⟩ := exec_roundBoundary_roundView m hcounts hreset
  refine ⟨t, hnext, ?_⟩
  simp only [State.roundView, Prod.mk.injEq] at hclock
  obtain ⟨hpending, hcounter, hlength, hrunning, hpend⟩ := hclock
  by_cases hchange : ∃ code b, s.rnd.pendLength = some (code, b) ∧ b ≤ s.nextRound
  · obtain ⟨code, b, hp, hdue⟩ := hchange
    obtain ⟨hrnd, hq⟩ := lengthChange_due hcounts hp hdue
    have hnow : t.rnd.counter = s.nextRound := by rw [hcounter, State.nextRound, State.now, hrnd]; rfl
    rw [hrnd] at hlength hrunning hpend
    refine ⟨fun hj => ?_, fun n hj => ?_, fun code' b' hp' _ => ?_, fun hlate => ?_, hrunning.trans hlength.symm, hpending.trans hq⟩
    · rw [hnow, State.nextRound, hj]; exact Nat.max_eq_left (Nat.zero_le _)
    · rw [hnow, State.nextRound, hj]; rfl
    · rw [hp] at hp'; cases hp'; exact ⟨hlength, hpend⟩
    · exact absurd hdue (Nat.not_le.mpr (hlate code b hp))
  · have hsame := lengthChange_not_due (s := s) fun code b hp => Nat.not_le.mp fun hb => hchange ⟨code, b, hp, hb⟩
    rw [hsame] at hpending hcounter hlength hrunning hpend
    refine ⟨fun hj => ?_, fun n hj => ?_, fun code' b' hp' hdue => ?_, fun _ => ⟨hlength, hpend⟩, hrunning.trans hlength.symm, hpending⟩
    · rw [hcounter, State.nextRound, hj]; exact Nat.max_eq_left (Nat.zero_le _)
    · rw [hcounter, State.nextRound, hj]; rfl
    · exact absurd ⟨code', b', hp', hdue⟩ hchange

end Sys2Proof.Machine

/-! ### Descriptors, admission, pops, steals and the budget stop (R76 to R90, R351 to R353) -/

namespace Sys2Proof.Machine

/-! #### Fetch and translation (R76 to R78) -/

section Fetch
variable {s : State} {p : PartId} {q : Fin 64}

theorem exec_descriptorFetch (hlive : (s.part p.val).live = true) (hread : (s.sq p.val q.val).read = true)
    (hreread : (s.sq p.val q.val).reread = false) : exec (.descriptorFetch p q) s = .next (s.fetch p.val q.val 64) := by
  show execDescriptorFetch p q s = _
  unfold execDescriptorFetch
  simp only [hreread, hlive, hread, Bool.false_eq_true, if_false, Bool.and_self, if_true]

/-- A fetch with no descriptor left to read does nothing (R70, R76). -/
theorem fetch_none {p q n : Nat}
    (hnone : ((s.sq p q).tail + 65536 - (s.sq p q).head % 65536) % 65536 ≤ (s.sq p q).waiting.length) : s.fetch p q (n + 1) = s := by
  rw [State.fetch]
  exact if_pos (by simp [hnone])

/-- The PVA of the descriptor that an SQ fetches next (R68, R76). -/
def State.fetchPva (s : State) (p q : Nat) : Nat :=
  (s.sq p q).base + 128 * (((s.sq p q).head + (s.sq p q).waiting.length) % 2 ^ (s.sq p q).log2)

/-- The SQ may fetch: it is enabled, not halted, has fetched fewer than 64 descriptors and has one pending. -/
def State.mayFetch (s : State) (p q : Nat) : Prop :=
  (s.sq p q).halted = false ∧ (s.sq p q).enable = true ∧ (s.sq p q).fetched < 64 ∧
    (s.sq p q).waiting.length < ((s.sq p q).tail + 65536 - (s.sq p q).head % 65536) % 65536

section Read
variable {p q n : Nat} {bs : List Byte} (hmay : s.mayFetch p q) (hread : s.readPva p (s.fetchPva p q) 128 = .ok bs)
  (hcq : bits (BitVec.ofNat 64 (dfield bs 0 8)) 55 54 = 0)
  (hused : ((s.cleanPva p (s.fetchPva p q) 128).cq p (strokeOf p q bs).cq).read = true)
include hmay hread hcq hused

/-- A fetched descriptor that passes the first checks joins the strokes in translation (R76). -/
theorem fetch_passes (hpass : (s.cleanPva p (s.fetchPva p q) 128).firstChecks p bs (strokeOf p q bs) = none) :
    s.fetch p q (n + 1) =
      let v := s.cleanPva p (s.fetchPva p q) 128
      let img := (v.imageOf p (strokeOf p q bs).handle).getD {}
      ((v.takeId.2).onSq p q (fun y => { y with
        waiting := y.waiting ++ [({ strokeOf p q bs with sid := v.nextId, img := img, start := img.entry }, .translating)]
        fetched := y.fetched + 1 })).fetch p q n := by
  obtain ⟨hhalted, henable, hfetched, hpending⟩ := hmay
  have hgo : ((s.sq p q).halted || !(s.sq p q).enable || decide (64 ≤ (s.sq p q).fetched) ||
      decide (((s.sq p q).tail + 65536 - (s.sq p q).head % 65536) % 65536 ≤ (s.sq p q).waiting.length)) = false := by
    simp [hhalted, henable, hfetched, hpending]
  unfold State.fetchPva at *
  rw [State.fetch]
  refine (if_neg (ne_true_of_eq_false hgo)).trans ?_
  simp only [hread, hcq, bne_self_eq_false, State.nameCq, useCq_of_read hused, Bool.false_eq_true, if_false, Bool.not_true, hpass]
  rfl

/-- One that fails them is decided with its record (R76). -/
theorem fetch_fails {st : Status} {b : Bool} {u : State}
    (hfail : (s.cleanPva p (s.fetchPva p q) 128).firstChecks p bs (strokeOf p q bs) = some st)
    (hrec : (s.cleanPva p (s.fetchPva p q) 128).admitRec p q (strokeOf p q bs) false st (admitDetail none 0) = some (b, u)) :
    s.fetch p q (n + 1) = (u.onSq p q (fun y => { y with fetched := y.fetched + 1 })).fetch p q n := by
  obtain ⟨hhalted, henable, hfetched, hpending⟩ := hmay
  have hgo : ((s.sq p q).halted || !(s.sq p q).enable || decide (64 ≤ (s.sq p q).fetched) ||
      decide (((s.sq p q).tail + 65536 - (s.sq p q).head % 65536) % 65536 ≤ (s.sq p q).waiting.length)) = false := by
    simp [hhalted, henable, hfetched, hpending]
  unfold State.fetchPva at *
  rw [State.fetch]
  refine (if_neg (ne_true_of_eq_false hgo)).trans ?_
  simp only [hread, hcq, bne_self_eq_false, State.nameCq, useCq_of_read hused, Bool.false_eq_true, if_false, Bool.not_true, hfail, hrec]

end Read

end Fetch

/-! #### Admission points (R80, R82, R169) -/

section Admission
variable {s : State} {k : Fin 16}

theorem exec_admissionPoint (hpoint : s.rnd.point ≤ k.val) : exec (.admissionPoint k) s = .next (s.admitAll k.val).releaseUrgent :=
  if_pos hpoint

/-- Out of SERVICE, a later admission point than the first only counts (R80, R554). -/
theorem admitAll_closed {pt : Nat} (hpt : pt ≠ 0) (hclosed : s.rst.mode ≠ .service ∨ s.rst.warm ≠ none) :
    s.admitAll pt = { s with rnd := { s.rnd with point := pt + 1 } } := by
  have hadmits : s.admits = false := by
    unfold State.admits
    rcases hclosed with h | h
    · simp [h]
    · rw [Option.isNone_eq_false_iff.mpr (Option.isSome_iff_ne_none.mpr h), Bool.and_false]
  unfold State.admitAll
  simp only [hpt, if_false, hadmits, Bool.false_eq_true]
  rfl

end Admission

/-! #### Pops, steals and the budget stop (R86, R88 to R90, R351) -/

section Weaver
variable {s : State} {w : WeaverId}

/-- The weaver is active, without a run, and not halted by the debug path. -/
def State.idleWeaver (s : State) (w : Nat) : Prop := (s.weaver w).st = .active ∧ (s.weaver w).run = none ∧ w ∉ s.auth.halted

theorem exec_dequePop {k : Stroke} {rest : List Stroke} (hidle : s.idleWeaver w.val) (hdeque : (s.weaver w.val).deque = k :: rest) :
    exec (.dequePop w) s =
      .next ((s.onWeaver w.val (fun x => { x with deque := rest, elapsed := s.elapsedNow w.val + 1 })).startRun w.val k 0) := by
  obtain ⟨hst, hrun, hhalted⟩ := hidle
  refine (if_neg (by simp [hst, hrun, hhalted])).trans ?_
  simp only [hdeque]

theorem exec_dequePop_none (hno : (s.weaver w.val).st ≠ .active ∨ (s.weaver w.val).run ≠ none ∨ (s.weaver w.val).deque = []) :
    exec (.dequePop w) s = .next s := by
  show execDequePop w s = _
  unfold execDequePop
  dsimp only
  split
  · rfl
  · next hgo =>
    simp only [Bool.or_eq_true, not_or, bne_iff_ne, ne_eq, not_not, Bool.not_eq_true, Option.isSome_eq_false_iff,
      Option.isNone_iff_eq_none] at hgo
    obtain ⟨⟨hst, hrun⟩, -⟩ := hgo
    rcases hno with h | h | h
    · exact absurd hst h
    · exact absurd hrun h
    · simp only [h]

/-- R88: what it takes to try a steal. -/
theorem thief_iff : s.thief w.val = true ↔
    s.idleWeaver w.val ∧ (s.weaver w.val).deque = [] ∧ (s.weaver w.val).retryAt ≤ s.elapsedNow w.val := by
  simp only [State.thief, State.idleWeaver, Bool.and_eq_true, beq_iff_eq, Option.isNone_iff_eq_none, List.isEmpty_iff, Bool.not_eq_true',
    decide_eq_false_iff_not, decide_eq_true_eq]
  tauto

theorem exec_steal_nothing (hthief : s.thief w.val = true) (hscan : s.stealHit w.val (s.takenBelow w.val) = none) :
    exec (.steal w) s = .next (s.onWeaver w.val (fun x => { x with retryAt := s.elapsedNow w.val + 64 })) := by
  refine (if_neg (by rw [hthief]; decide)).trans ?_
  simp only [hscan]

theorem stealCost_eq (c : Nat) : stealCost c = if c = 1 then 8 else if c = 2 then 24 else 96 := by
  unfold stealCost
  split <;> simp_all

theorem exec_steal {c v : Nat} {k : Stroke} (hthief : s.thief w.val = true)
    (hscan : s.stealHit w.val (s.takenBelow w.val) = some (c, v, k)) :
    exec (.steal w) s = .next (
      let s := (s.onWeaver v (fun x => { x with deque := x.deque.dropLast })).onWeaver w.val
        (fun x => { x with elapsed := s.elapsedNow w.val })
      let s := (s.ownerEvent k.part 0x002 false 1).ownerEvent k.part 0x002 true (stealCost c)
      (if c = 3 then s.opEvent 0x10C { part := some k.part } else s).startRun w.val k (stealCost c)) := by
  refine (if_neg (by rw [hthief]; decide)).trans ?_
  simp only [hscan]

theorem exec_budgetStop {r : Run} (hrun : (s.weaver w.val).run = some r) (hst : (s.weaver w.val).st = .active)
    (hspent : r.s.budget ≤ r.cyc) : exec (.budgetStop w) s = .next (s.endRun w.val .overrun r.pc 0) := by
  show execBudgetStop w s = _
  unfold execBudgetStop
  simp only [hrun]
  exact if_pos (by simp [hst, hspent])

theorem exec_budgetStop_left {r : Run} (hrun : (s.weaver w.val).run = some r) (hleft : r.cyc < r.s.budget) :
    exec (.budgetStop w) s = .next s := by
  show execBudgetStop w s = _
  unfold execBudgetStop
  simp only [hrun]
  exact if_neg (by simp [hleft])

end Weaver

/-- Settles O16: one lemma per command and case of fetch, translation, admission, pop, steal and budget stop. -/
theorem admissionPopsAndSteals : Obligations.admission_pops_and_steals := by
  refine ⟨fun p q k s => ?queue, fun w s => ?weaver⟩
  case queue =>
    intro x pos pva
    refine ⟨fun hlive hread hreread => ⟨exec_descriptorFetch hlive hread hreread, fun hnone => ?_⟩, ?_, rfl,
      fun hpoint => ⟨exec_admissionPoint hpoint, ⟨_, exec_admissionPoint hpoint, ?_⟩, fun hk hclosed => ?_⟩, fun hpast => ?_⟩
    · rw [exec_descriptorFetch hlive hread hreread, fetch_none hnone]
    · intro n bs hhalted henable hfetched hpending hread hcq d v hused
      have hmay : s.mayFetch p.val q.val := ⟨hhalted, henable, hfetched, hpending⟩
      exact ⟨fetch_passes hmay hread hcq hused, fun st b u => fetch_fails hmay hread hcq hused⟩
    · exact congrArg RoundSt.point (rnd_of_aside (releaseUrgent_aside _))
    · rw [exec_admissionPoint hpoint, admitAll_closed hk hclosed]
    · exact if_neg (Nat.not_le.mpr hpast)
  case weaver =>
    intro x t idle taken scan
    refine ⟨fun k rest => exec_dequePop, exec_dequePop_none, fun hidle hdeque hretry hscan => ?_,
      fun c v k hidle hdeque hretry hscan => ?_, fun hno => ?_, fun r => exec_budgetStop, fun r => exec_budgetStop_left⟩
    · exact exec_steal_nothing (thief_iff.mpr ⟨hidle, hdeque, hretry⟩) hscan
    · rw [exec_steal (thief_iff.mpr ⟨hidle, hdeque, hretry⟩) hscan, stealCost_eq]
    · refine if_pos ?_
      rw [Bool.not_eq_true', Bool.eq_false_iff]
      intro hthief
      obtain ⟨⟨hst, hrun, -⟩, hdeque, hretry⟩ := thief_iff.mp hthief
      rcases hno with h | h | h | h
      · exact h hst
      · exact h hrun
      · exact h hdeque
      · exact absurd hretry (Nat.not_le.mpr h)

end Sys2Proof.Machine

/-! ### Answers of the pool (R166, R260 to R262, R269 to R271, R284 to R288) -/

namespace Sys2Proof.Machine

/-! #### Requests and their runs -/

section Requests
variable {s : State} {id : Nat} {q : PoolReq}

theorem poolReq_id (h : s.poolReq id = some q) : q.id = id := by
  simpa using List.find?_some h

theorem advance_of_issued (hreq : s.poolReq id = some q) (hissued : q.stage = .issued) : s.advance id = s := by
  unfold State.advance
  simp only [hreq, hissued]
  exact if_neg nofun

end Requests

section Landing
variable {s : State} {q : PoolReq} {x : Run}

theorem runOf_run (h : s.runOf q = some x) : (s.weaver q.weaver).run = some x := by
  unfold State.runOf at h
  split at h
  · next y hy =>
    split at h
    · rw [hy, h]
    · cases h
  · cases h

/-- A line that lands in the scratch of a running stroke (R262, R271). -/
theorem land_of_run {sa tag cycle : Nat} {bs : List Byte} {poison : Bool} (hrun : s.runOf q = some x) :
    s.land q sa tag cycle bs poison = (s.dropReq q.id).onRun q.weaver (fun x => x.landBytes q.id sa tag cycle bs poison) := by
  have hdrop : (s.dropReq q.id).runOf q = some x := hrun
  unfold State.land
  simp only [hdrop]

/-- Bytes that land leave the registers. -/
theorem landBytes_registers (x : Run) (id sa tag cycle : Nat) (bs : List Byte) (poison : Bool) :
    (x.landBytes id sa tag cycle bs poison).g = x.g ∧ (x.landBytes id sa tag cycle bs poison).v = x.v := ⟨rfl, rfl⟩

end Landing

/-! #### The commands, once the scheduler has issued the request -/

section Answers
variable {s u : State} {id cycle : Nat} {q : PoolReq} {bs : List Byte} {poison : Bool} (hu : (s.advance id).serveReq id = u)

/-- A request that has been issued needs no further issue (R166). -/
theorem serveReq_of_issued {r : PoolReq} (hreq : s.poolReq id = some r) (hissued : r.stage = .issued) :
    (s.advance id).serveReq id = s := by
  rw [advance_of_issued hreq hissued, State.serveReq, State.serveTo]
  simp only [hreq]
  exact if_pos (by simp [hissued])

include hu

section Line
variable {sa tag : Nat} (hreq : u.poolReq id = some q) (hkind : q.kind = .line sa tag)
include hreq hkind

theorem exec_streamLineLand (hgot : q.got = some (.ok, bs, poison)) :
    exec (.streamLineLand id cycle) s = .next (u.land q sa tag cycle bs poison) := by
  show execStreamLineLand id cycle s = _
  unfold execStreamLineLand
  simp only [hu, hreq, hkind, hgot]

theorem exec_streamLineLand_fail {st : Status} {x : Run} (hgot : q.got = some (st, bs, poison)) (hst : st ≠ .ok)
    (hrun : u.runOf q = some x) : exec (.streamLineLand id cycle) s = .next ((u.dropReq id).failRun q.weaver st q.word cycle) := by
  show execStreamLineLand id cycle s = _
  unfold execStreamLineLand
  simp only [hu, hreq, hkind, hgot]
  cases st <;> first | contradiction | simp only [hrun]

theorem exec_streamLineLand_early (hgot : q.got = none) : exec (.streamLineLand id cycle) s = .next u := by
  show execStreamLineLand id cycle s = _
  unfold execStreamLineLand
  simp only [hu, hreq, hkind, hgot]

end Line

omit hu in
/-- What a line's landing changes: the run of its stroke and its request. -/
theorem land_effect {sa tag : Nat} {x : Run} (hid : q.id = id) (hrun : u.runOf q = some x) :
    let t := u.land q sa tag cycle bs poison
    (t.weaver q.weaver).run = some (x.landBytes id sa tag cycle bs poison) ∧
      t = { u with weavers := t.weavers, poolReqs := u.poolReqs.filter (fun r => r.id ≠ id) } ∧
      ∀ w, w ≠ q.weaver → t.weaver w = u.weaver w := by
  have hw : ((u.dropReq id).weaver q.weaver).run = some x := runOf_run hrun
  rw [land_of_run hrun, hid]
  refine ⟨?_, rfl, fun w hne => ?_⟩
  · simp [State.onRun, hw]
  · exact weaver_onWeaver_ne _ _ hne

/-- What an answer in gD leaves the run (R260, R284). -/
def Run.answeredIn (x : Run) (reg cycle : Nat) (bs : List Byte) : Run :=
  { x.setGr reg (BitVec.ofNat 64 (ofBytes bs)) with wait := setDel x.wait reg, rdy := x.rdy.put 0 reg cycle }

section Response
variable {st : Status} (hreq : u.poolReq id = some q)
include hreq

section Load
variable {reg : Nat} {x : Run} (hkind : q.kind = .load reg) (hrun : u.runOf q = some x)
include hkind hrun

theorem exec_poolResponse_load (hgot : q.got = some (.ok, bs, false)) : exec (.poolResponse id .ok cycle) s =
    .next ((u.dropReq id).onRun q.weaver (fun x => x.answeredIn reg cycle bs)) := by
  show execPoolResponse id .ok cycle s = _
  unfold execPoolResponse
  simp only [hu, hreq, hgot, hkind, hrun, Option.getD_some, answerStatus, if_true, ne_eq, not_true_eq_false, if_false, Bool.false_eq_true]
  rfl

theorem exec_poolResponse_load_poison (hgot : q.got = some (.ok, bs, true)) :
    exec (.poolResponse id .ok cycle) s = .next ((u.dropReq id).failRun q.weaver .poison q.word cycle) := by
  show execPoolResponse id .ok cycle s = _
  unfold execPoolResponse
  simp only [hu, hreq, hgot, hkind, hrun, Option.getD_some, answerStatus, if_true, ne_eq, not_true_eq_false, if_false]

theorem exec_poolResponse_load_error (hgot : q.got = none) (hst : st ≠ .ok) :
    exec (.poolResponse id st cycle) s = .next ((u.dropReq id).failRun q.weaver st q.word cycle) := by
  show execPoolResponse id st cycle s = _
  unfold execPoolResponse
  simp only [hu, hreq, hgot, hkind, hrun, Option.getD_none, answerStatus, hst, if_false, ne_eq, not_false_eq_true, if_true]
  cases st <;> first | contradiction | rfl

end Load

theorem exec_poolResponse_store {data : List Byte} (hkind : q.kind = .store data) (hgot : q.got = some (.ok, bs, poison)) :
    exec (.poolResponse id .ok cycle) s = .next (u.ackedReq q cycle) := by
  show execPoolResponse id .ok cycle s = _
  unfold execPoolResponse
  simp only [hu, hreq, hgot, hkind, Option.getD_some, answerStatus, if_true, ne_eq, not_true_eq_false, if_false]

theorem exec_poolResponse_atom {reg : Nat} {op : AtomOp} {w8 : Bool} {a b : U64} {x : Run} (hkind : q.kind = .atom reg op w8 a b)
    (hgot : q.got = some (.ok, bs, poison)) (hreg : reg ≠ 0) (hrun : (u.ackedReq q cycle).runOf q = some x) :
    exec (.poolResponse id .ok cycle) s = .next ((u.ackedReq q cycle).onRun q.weaver (fun x => x.answeredIn reg cycle bs)) := by
  show execPoolResponse id .ok cycle s = _
  unfold execPoolResponse
  simp only [hu, hreq, hgot, hkind, hrun, Option.getD_some, answerStatus, if_true, ne_eq, not_true_eq_false, if_false, hreg]
  rfl

theorem exec_poolResponse_early (hgot : q.got = none) : exec (.poolResponse id .ok cycle) s = .next u := by
  show execPoolResponse id .ok cycle s = _
  unfold execPoolResponse
  simp only [hu, hreq, hgot]

theorem exec_poolWriteRefusal (hwrites : q.kind.writes = true) (hgot : q.got = some (st, bs, poison)) (hst : st ≠ .ok) :
    exec (.poolWriteRefusal id st) s = .next (u.refuseReq q st 0) := by
  show execPoolWriteRefusal id st s = _
  unfold execPoolWriteRefusal
  simp only [hu, hreq, hgot]
  exact if_pos (by simp [hwrites, hst])

theorem exec_poolWriteRefusal_read (hwrites : q.kind.writes = false) : exec (.poolWriteRefusal id st) s = .next u := by
  show execPoolWriteRefusal id st s = _
  unfold execPoolWriteRefusal
  simp only [hu, hreq, hwrites, Bool.false_and, Bool.false_eq_true, if_false]
  split <;> rfl

end Response

end Answers

/-! #### Watches (R287, R288) -/

section Watch
variable {s : State} {sid p : Nat} {k : Suspended} {pa cond : Nat} {w8 : Bool} {cmp : U64}
  (hsid : s.suspendedOf sid = some (p, k)) (hwatch : k.watch = some (pa, w8, cond, cmp))
include hsid hwatch

theorem exec_watchEvaluation_error {st : Status} (hfires : s.now < k.fires) (hawake : s.asleepHalf (homeHalf pa) = false)
    (hst : st ≠ .ok) : exec (.watchEvaluation sid st) s = .next (s.offer p sid 0 st (s.rnd.counter, s.rnd.point)) := by
  show execWatchEvaluation sid st s = _
  unfold execWatchEvaluation
  simp only [hsid, hwatch]
  exact (if_neg (by simp [hfires, hawake])).trans (if_pos hst)

/-- A watched word that is read decides: poison, its condition met, or not (R288). -/
theorem exec_watchEvaluation_read (hfires : s.now < k.fires) (hawake : s.asleepHalf (homeHalf pa) = false)
    (hheld : s.heldAway pa 1 = false) :
    exec (.watchEvaluation sid .ok) s =
      if (s.readPool pa (atomWidth w8)).2 then .next (s.offer p sid 0 .poison (s.rnd.counter, s.rnd.point))
      else if waitCond cond (ofBytes (s.readPool pa (atomWidth w8)).1) (cmp.toNat % 256 ^ atomWidth w8) then
        .next (s.offer p sid (BitVec.ofNat 64 (ofBytes (s.readPool pa (atomWidth w8)).1)) .ok (s.rnd.counter, s.rnd.point))
      else .next s := by
  show execWatchEvaluation sid .ok s = _
  unfold execWatchEvaluation
  simp only [hsid, hwatch]
  refine (if_neg (by simp [hfires, hawake])).trans ((if_neg (not_not.mpr rfl)).trans ((if_neg (by rw [hheld]; decide)).trans ?_))
  rfl

theorem exec_watchEvaluation_late {st : Status} (hfires : k.fires ≤ s.now) : exec (.watchEvaluation sid st) s = .next s := by
  show execWatchEvaluation sid st s = _
  unfold execWatchEvaluation
  simp only [hsid, hwatch]
  exact if_pos (by simp [hfires])

theorem exec_watchTimeout (hfires : k.fires ≤ s.now) :
    exec (.watchTimeout sid) s = .next (s.offer p sid 0 .timeout (s.rnd.counter, 0)) := by
  show execWatchTimeout sid s = _
  unfold execWatchTimeout
  simp only [hsid, hwatch]
  exact if_pos (by simp [hfires])

theorem exec_watchTimeout_early (hfires : s.now < k.fires) : exec (.watchTimeout sid) s = .next s := by
  show execWatchTimeout sid s = _
  unfold execWatchTimeout
  simp only [hsid, hwatch]
  exact if_neg (by simp [hfires])

end Watch

/-! #### Slices of bulk operations (R94, R95, R282) -/

section Slice
variable {s : State} {d ch : Nat} {o : BulkOp} {src dst : List (Nat × Nat × Nat)}

theorem runSlice_fill (hkind : o.kind = .fill) : s.runSlice d ch o src dst = (s.opEvent 0x10D { part := some o.part }).bulkWrite d ch o none dst
    ((nums o.done o.slice).map (fun j => BitVec.ofNat 8 (o.pattern.toNat / 256 ^ (j % 8)))) := by
  unfold State.runSlice
  simp only [hkind]
  rfl

theorem runSlice_copy (hkind : o.kind = .copy) (hclean : (s.readCuts src).2 = none) : s.runSlice d ch o src dst =
    ((s.countRead o.part (pageAt o.src o.done) src.length 1 3).opEvent 0x10D { part := some o.part }).bulkWrite d ch o none dst
      ((s.readCuts src).1.take o.slice) := by
  unfold State.runSlice
  simp only [hkind, BulkKind.readsSrc, BulkKind.readsDst, if_true, Bool.false_eq_true, if_false, hclean, minOpt]

/-- Line cuts that a slice may have (R94). -/
def BulkOp.sliceFuel (o : BulkOp) : Nat := 2 * (o.slice / 64 + 2) + o.src.length + o.dst.length

/-- The source lines of a slice (R94, R282). -/
def BulkOp.sliceSrc (o : BulkOp) : List (Nat × Nat × Nat) :=
  if o.kind.readsSrc then lineCuts o.src o.sliceFuel o.done o.slice else []

/-- The destination lines of a slice; CHECKSUM writes its digest with the last one (R94, R282). -/
def BulkOp.sliceDst (o : BulkOp) : List (Nat × Nat × Nat) :=
  if o.kind = .checksum then (if o.op = 1 ∧ o.len ≤ o.done + o.slice then lineCuts o.dst 4 0 32 else [])
  else lineCuts o.dst o.sliceFuel o.done o.slice

/-- The pool addresses of a slice. -/
def BulkOp.slicePas (o : BulkOp) : List Nat := (o.sliceSrc ++ o.sliceDst).map (·.2.1)

end Slice

section SliceEnd
variable {s : State} {d : DieId} {ch : Fin 8} {o : BulkOp} (hop : (s.die d.val).channels.look none ch.val = some o)
include hop

theorem exec_bulkSliceEnd_idle (hslice : o.slice = 0) : exec (.bulkSliceEnd d ch) s = .next s := by
  show execBulkSliceEnd d ch s = _
  unfold execBulkSliceEnd
  simp only [hop]
  exact if_pos (by simp [hslice])

variable (hslice : o.slice ≠ 0) (hdie : (s.die d.val).failed = none)
include hslice hdie

/-- A slice in progress ends by the halves that it uses (R94). -/
theorem exec_bulkSliceEnd : exec (.bulkSliceEnd d ch) s =
    let u := s.each o.slicePas State.touch
    let reads := o.sliceSrc ++ (if o.kind.readsDst then o.sliceDst else [])
    let blocks := u.sliceBlocks reads (if o.kind.writes o.op then o.sliceDst else [])
    if o.slicePas.any (fun a => u.halfDead (homeHalf a)) then .next (u.bulkDone d.val ch.val o .deadAgent 0)
    else if o.slicePas.any (u.cutOff (d.val / 2)) then .next (u.bulkDone d.val ch.val o .fenced 0)
    else if o.slicePas.any (fun a => u.asleepHalf (homeHalf a)) then .next u
    else if blocks.isEmpty then .next ((u.sliceReads reads).runSlice d.val ch.val o o.sliceSrc o.sliceDst)
    else .next (u.each blocks (fun s l => if l.2 then
        (if (s.dirEnt l.1).st == .busy then s else s.access l.1 {} .evict)
      else s.cleanLine (l.1 * 64))) := by
  have hdst : (if o.kind = .checksum then (if (decide (o.op = 1) && decide (o.len ≤ o.done + o.slice)) = true then lineCuts o.dst 4 0 32 else [])
      else lineCuts o.dst o.sliceFuel o.done o.slice) = o.sliceDst := by
    simp only [BulkOp.sliceDst, Bool.and_eq_true, decide_eq_true_eq]
  show execBulkSliceEnd d ch s = _
  unfold execBulkSliceEnd
  simp only [hop]
  refine (if_neg (by simp [hslice, hdie])).trans ?_
  unfold BulkOp.slicePas
  rw [← hdst]
  rfl

end SliceEnd

/-- Settles O17: one lemma per command and kind of request, once the scheduler has issued it. -/
theorem answersLand : Obligations.answers_land := by
  refine ⟨fun id cycle sa tag s q x bs poison => ?line, fun id cycle st s q bs poison => ?response,
    fun sid p st s k pa cond w8 cmp hsid hwatch => ?watch, fun d ch s o hop => ?slice⟩
  case line =>
    intro u
    refine ⟨fun r => serveReq_of_issued, fun hreq hkind hrun => ⟨fun hgot => ?_, fun st hgot hst => ?_, fun hgot => ?_,
      fun b sa' tag' => landBytes_registers _ _ _ _ _ _ _⟩⟩
    · exact ⟨_, exec_streamLineLand rfl hreq hkind hgot, land_effect (poolReq_id hreq) hrun⟩
    · exact exec_streamLineLand_fail rfl hreq hkind hgot hst hrun
    · exact exec_streamLineLand_early rfl hreq hkind hgot
  case response =>
    intro u hreq
    exact ⟨fun reg x hkind hgot hrun => exec_poolResponse_load rfl hreq hkind hrun hgot,
      fun reg x hkind hgot hrun => exec_poolResponse_load_poison rfl hreq hkind hrun hgot,
      fun reg x hkind hgot hst hrun => exec_poolResponse_load_error rfl hreq hkind hrun hgot hst,
      fun data hkind hgot => exec_poolResponse_store rfl hreq hkind hgot,
      fun reg op w8 a b x hkind hgot hreg hrun => exec_poolResponse_atom rfl hreq hkind hgot hreg hrun,
      fun hgot => exec_poolResponse_early rfl hreq hgot,
      fun hwrites hgot hst => exec_poolWriteRefusal rfl hreq hwrites hgot hst,
      fun hwrites => exec_poolWriteRefusal_read rfl hreq hwrites⟩
  case watch =>
    intro n v
    refine ⟨fun hfires hawake hheld => ?_, fun hfires => ⟨exec_watchEvaluation_late hsid hwatch hfires, exec_watchTimeout hsid hwatch hfires⟩,
      exec_watchTimeout_early hsid hwatch⟩
    have hread := exec_watchEvaluation_read hsid hwatch hfires hawake hheld
    refine ⟨fun hpoison => ?_, fun hclean hcond => ?_, fun hclean hcond => ?_, exec_watchEvaluation_error hsid hwatch hfires hawake⟩
    · exact hread.trans (if_pos hpoison)
    · exact hread.trans ((if_neg (ne_true_of_eq_false hclean)).trans (if_pos hcond))
    · exact hread.trans ((if_neg (ne_true_of_eq_false hclean)).trans (if_neg (ne_true_of_eq_false hcond)))
  case slice =>
    intro fuel src dst pas u
    refine ⟨fun hslice hdie hdead hcut hasleep hblocks => ?_, fun hslice hdie hdead => ?_, exec_bulkSliceEnd_idle hop,
      fun hkind t => runSlice_fill hkind, fun hkind t => runSlice_copy hkind⟩
    · exact (exec_bulkSliceEnd hop hslice hdie).trans ((if_neg (ne_true_of_eq_false hdead)).trans ((if_neg (ne_true_of_eq_false hcut)).trans
        ((if_neg (ne_true_of_eq_false hasleep)).trans (if_pos (List.isEmpty_iff.mpr hblocks)))))
    · exact (exec_bulkSliceEnd hop hslice hdie).trans (if_pos hdead)

end Sys2Proof.Machine

/-! ### Page walks, migration and the extent timeline (R111 to R116, R126 to R142, R433) -/

namespace Sys2Proof.Machine

/-! #### Page walks (R111 to R116) -/

section PageWalk
variable {k : Fin 48} {p : PartId} {pva : Nat} {need : Rights} {src : WalkSrc} {s : State}

/-- The state in which a walker has finished its walk: its reads are done, and the die's walk cache holds what it fetched (R116). -/
def State.walked (s : State) (k p pva : Nat) (o : WalkOut) : State :=
  (s.onWalker k (fun _ => { part := p, pva := pva, out := some o })).noteWalk (k / 12) p pva o

/-- What the end of a walk leads to (R111, R116, R126, R177). -/
def State.afterWalk (u : State) (p pva : Nat) (src : WalkSrc) (o : WalkOut) : State :=
  match o with
  | .pa pa _ _ => (match src with | .fabric ld => (u.touch pa).fillFab ld.val p pva o | _ => u.touch pa)
  | .migrate epa e ext page => (u.startMigration p pva epa e ext page).getD u
  | .blocked pa => (u.touch pa).cleanLine pa
  | _ => u

theorem exec_pageWalk (hdie : (s.die (k.val / 12)).ok = true) (hlive : (s.part p.val).live = true)
    (hsrc : s.walksOn src pva (k.val / 12) = true) : exec (.pageWalk k p pva need src) s =
      .next ((s.walked k.val p.val pva (s.walk p.val pva need)).afterWalk p.val pva src (s.walk p.val pva need)) := by
  refine (if_neg (by simp [hdie, hlive, hsrc])).trans ?_
  unfold State.walked State.afterWalk
  cases s.walk p.val pva need with
  | pa a e n => cases src <;> rfl
  | _ => rfl

/-- A walk that a die does not take changes nothing (R114, R115). -/
theorem exec_pageWalk_not (hno : (s.die (k.val / 12)).ok = false ∨ (s.part p.val).live = false ∨ s.walksOn src pva (k.val / 12) = false) :
    exec (.pageWalk k p pva need src) s = .next s :=
  if_pos (by rcases hno with h | h | h <;> simp [h])

/-- The block-list entry of a page that was found stands first in its die's walk cache (R116). -/
theorem fillWalk_block (s : State) (d p pva pa e n : Nat) : ∃ c rest, ((s.fillWalk d p pva (.pa pa e n)).die d).blockCache = c :: rest ∧
    c.part = p ∧ c.ext = e ∧ c.pa = blockPa (paBlock pa) := by
  unfold State.fillWalk
  dsimp only
  rw [die_onDie_self]
  exact ⟨_, _, rfl, rfl, rfl, rfl⟩

end PageWalk

/-! #### Migrations (R127, R129, R130, R433) -/

section Migration
variable {p : PartId} {pva offset load : Nat} {data : List Byte} {s : State} {m : Migration}
  (hm : s.migrations.find? (fun m => m.part = p.val && m.pva = pva && m.running) = some m)

include hm in
theorem exec_dataNc (hnew : offset ∉ m.landed) (halign : offset % 1024 = 0) (hasked : offset < m.asked) (hlen : data.length = 1024) :
    let dest := s.framePa m.ext (m.entry / 2 ^ 26 % 2 ^ 28 + offset / 4096) + offset % 4096
    exec (.dataNc p pva offset data load) s = .next (((((s.each (nums (dest / 64) 16) (fun s l => s.touch (l * 64))).deviceWrite dest
      data).onNet (fun n => { n with out := n.out.filter (fun q => !(q.part = p.val && q.pva = pva && q.off = offset)) })).onMigration
        p.val pva (fun m => { m with
          landed := m.landed ++ [offset], left := m.left - 1024, maxLoad := max m.maxLoad (load % 16) })).askPeer p.val pva 64) := by
  intro dest
  show execDataNc p pva offset data load s = _
  unfold execDataNc
  simp only [hm]
  exact if_neg (by simp [hnew, halign, hasked, hlen])

include hm in
theorem exec_dataNc_again (hno : offset ∈ m.landed ∨ data.length ≠ 1024) : exec (.dataNc p pva offset data load) s = .next s := by
  show execDataNc p pva offset data load s = _
  unfold execDataNc
  simp only [hm]
  exact if_pos (by rcases hno with h | h <;> simp [h])

section Complete
include hm

theorem exec_migrationComplete_open (hleft : m.left ≠ 0) : exec (.migrationComplete p pva) s = .next s := by
  show execMigrationComplete p pva s = _
  unfold execMigrationComplete
  simp only [hm]
  exact if_pos hleft

variable (hleft : m.left = 0) (hheld : s.heldAway m.entryPa 8 = false)
include hleft hheld

theorem exec_migrationComplete_same (hword : s.readWord m.entryPa = (BitVec.ofNat 64 m.entry, false)) (hentry : m.entry < 2 ^ 64) :
    exec (.migrationComplete p pva) s = .next (((s.deviceWrite m.entryPa (toBytes 8
      (m.entry % 2 ^ 55 - (if m.entry / 32 % 2 = 1 then 32 else 0)))).endMigration m).retryHosts) := by
  show execMigrationComplete p pva s = _
  unfold execMigrationComplete
  simp only [hm, hleft, hheld, hword, ne_eq, not_true_eq_false, if_false, Bool.false_eq_true, BitVec.toNat_ofNat,
    Nat.mod_eq_of_lt hentry, beq_self_eq_true, Bool.not_false, Bool.and_self, if_true]

theorem exec_migrationComplete_changed (hword : (s.readWord m.entryPa).1.toNat ≠ m.entry) :
    exec (.migrationComplete p pva) s = .next (s.endMigration m).retryHosts := by
  show execMigrationComplete p pva s = _
  unfold execMigrationComplete
  simp only [hm, hleft, hheld, ne_eq, not_true_eq_false, if_false, Bool.false_eq_true, beq_eq_false_iff_ne.mpr hword, Bool.false_and]

end Complete

section ReadFail
variable {q : OutReq} {st : Option Status} (hq : s.net.out.find? (fun q => q.part = p.val && q.pva = pva && !q.failed) = some q)

include hq in
theorem exec_migrationReadFail (hfail : st ≠ none ∨ q.sent + s.rst.timeout ≤ s.now) :
    exec (.migrationReadFail p pva st) s = .next (s.readFailed q st) := by
  show execMigrationReadFail p pva st s = _
  unfold execMigrationReadFail
  simp only [hq]
  refine congrArg _ (if_pos ?_)
  rcases hfail with h | h
  · simp [Option.isSome_iff_ne_none, h]
  · simp [h]

include hq in
theorem exec_migrationReadFail_early (hst : st = none) (hearly : s.now < q.sent + s.rst.timeout) :
    exec (.migrationReadFail p pva st) s = .next s := by
  show execMigrationReadFail p pva st s = _
  unfold execMigrationReadFail
  simp only [hq]
  exact congrArg _ (if_neg (by simp [hst, hearly]))

variable (hleft : q.resends < 3) (hpart : q.part = p.val) (hpva : q.pva = pva)
include hm hleft hpart hpva

/-- A read that the peer refused waits for its timeout (R129). -/
theorem readFailed_refused (x : Status) : s.readFailed q (some x) = s.onNet (fun n => { n with out := n.out.map (fun y =>
    if y.tag = q.tag then { y with why := some x, failed := true } else y) }) := by
  rw [← hpart, ← hpva] at hm
  unfold State.readFailed
  simp only [hm]
  exact if_pos (by simp [hleft])

/-- A read that failed in its transport is sent again (R129). -/
theorem readFailed_timeout : s.readFailed q none = (s.onNet (fun n => { n with out := n.out.map (fun x =>
    if x.tag = q.tag then { x with sent := s.rnd.counter, resends := x.resends + 1, failed := false } else x) })).originate
      q.part q.ld q.pkt true := by
  rw [← hpart, ← hpva] at hm
  unfold State.readFailed
  simp only [hm]
  exact (if_neg (by simp)).trans (if_pos hleft)

end ReadFail

end Migration

/-! #### The extent timeline (R135, R138, R141, R142) -/

section Timeline
variable {e : Nat} {s : State}

theorem exec_extentDrainLimit (hst : (s.extent e).st = .draining) (hswept : (s.extent e).swept = false)
    (hdue : (s.extent e).since + 8 ≤ s.now) :
    let bs := (s.extent e).blocks.map (·.block)
    exec (.extentDrainLimit e) s = .next ((((s.cancelBulk (fun o => o.uses e) .revoked).cancelWork bs (fun _ => true)).sweepBlocks bs).onExtent e
      (fun x => { x with pins := 0, swept := true })) :=
  if_neg (by simp [hst, hswept, hdue])

theorem exec_extentDrainLimit_not (hno : (s.extent e).st ≠ .draining ∨ (s.extent e).swept = true ∨ s.now < (s.extent e).since + 8) :
    exec (.extentDrainLimit e) s = .next s :=
  if_pos (by rcases hno with h | h | h <;> simp [h])

theorem exec_extentScrubbing (hst : (s.extent e).st = .draining) (hswept : (s.extent e).swept = true)
    (hdue : (s.extent e).since + 10 ≤ s.now) : Goes (exec (.extentScrubbingEntry e) s) (fun t =>
      t.extent e = { s.extent e with
        st := .scrubbing, stateRound := s.rnd.counter, certified := 0, root := false, region := none
        undone := (((s.extent e).blocks.filter (fun b => !b.lost)).map (·.block)).filter
          (fun b => (t.pool (s.extent e).half).blockState b != .retired) } ∧
      (∀ k, k ≠ e → t.extent k = s.extent k) ∧ t = { s with extents := t.extents, pool0 := t.pool0, pool1 := t.pool1 }) := by
  refine ⟨_, if_neg (by simp [hst, hswept, hdue]), ?_, fun k hk => ?_, ?_⟩
  · dsimp only
    rw [extent_onExtent_self, extent_onPool', State.now, onPool_rnd]
    rfl
  · rw [extent_onExtent_ne _ _ hk, extent_onPool']
  · dsimp only [State.onExtent, State.onPool]
    split <;> rfl

theorem exec_extentScrubbing_not (hno : (s.extent e).st ≠ .draining ∨ (s.extent e).swept = false ∨ s.now < (s.extent e).since + 10) :
    exec (.extentScrubbingEntry e) s = .next s :=
  if_pos (by rcases hno with h | h | h <;> simp [h])

theorem exec_extentFree (hst : (s.extent e).st = .scrubbing) (hundone : (s.extent e).undone = []) :
    Goes (exec (.extentFree e) s) (fun t => t.extent e = { s.extent e with st := .free, stateRound := s.rnd.counter } ∧
      (∀ k, k ≠ e → t.extent k = s.extent k) ∧ t = { s with extents := t.extents }) :=
  ⟨_, if_neg (by simp [hst, hundone]), extent_onExtent_self _ _ _, fun _ hk => extent_onExtent_ne _ _ hk, rfl⟩

theorem exec_extentFree_not (hno : (s.extent e).st ≠ .scrubbing ∨ (s.extent e).undone ≠ []) : exec (.extentFree e) s = .next s :=
  if_pos (by rcases hno with h | h <;> simp [h])

end Timeline

/-- Settles O27: a walk ends by its outcome, a migration by its pieces, an extent by its timeline. -/
theorem walksMigrationsAndExtents : Obligations.walks_migrations_and_extents := by
  refine ⟨fun k p pva need src s => ?walk, fun p pva offset load data s m hm => ?migration, fun e s => ?extent⟩
  case walk =>
    intro d o u
    refine ⟨fun hdie hlive hsrc => ?_, exec_pageWalk_not, fun h i hsrc => ?_, fun ld hsrc => ?_⟩
    · have hexec : exec (.pageWalk k p pva need src) s = .next (u.afterWalk p.val pva src o) := exec_pageWalk hdie hlive hsrc
      refine ⟨fun pa e n ho => ⟨?_, fun ld hld => ?_, fun hno => ?_⟩, fun epa e x page v ho hv => ?_, fun pa ho => ?_, fun c l ho => ?_⟩
      · have hu : u = (State.readFetches (s.onWalker k.val (fun _ => { part := p.val, pva := pva, out := some o })) p.val pva).fillWalk d
            p.val pva (.pa pa e n) := by rw [← ho]; rfl
        rw [hu]
        exact fillWalk_block _ _ _ _ _ _ _
      · rw [hexec, ho, hld]; rfl
      · rw [hexec, ho]
        cases src with
        | fabric ld => exact absurd rfl (hno ld)
        | stroke h i => rfl
        | host h => rfl
      · rw [hexec, ho]
        exact congrArg (fun y => Host.Outcome.next (Option.getD y u)) hv
      · rw [hexec, ho]; rfl
      · rw [hexec, ho]; rfl
    · rw [hsrc]; exact beq_iff_eq
    · rw [hsrc]; exact beq_iff_eq
  case migration =>
    intro dest
    refine ⟨exec_dataNc hm, exec_dataNc_again hm, fun hleft hheld => ⟨exec_migrationComplete_same hm hleft hheld,
      exec_migrationComplete_changed hm hleft hheld⟩, exec_migrationComplete_open hm, fun q st hq => ⟨exec_migrationReadFail hq,
      exec_migrationReadFail_early hq, fun hleft hpart hpva => ⟨readFailed_refused hm hleft hpart hpva, readFailed_timeout hm hleft hpart hpva⟩⟩⟩
  case extent =>
    intro x bs
    exact ⟨exec_extentDrainLimit, exec_extentDrainLimit_not, exec_extentScrubbing, exec_extentScrubbing_not, exec_extentFree,
      exec_extentFree_not⟩

end Sys2Proof.Machine

/-! ### Reads of lines, reconstruction and scrub read-back; refresh and self-refresh (R146 to R193) -/

namespace Sys2Proof.Machine

/-! #### Scrub read-back (R146, R147) -/

/-- A change of a half's block pool changes that pool alone. -/
theorem goes_onPool (s : State) (h : Nat) (f : BlockPool → BlockPool) :
    let t := s.onPool h f
    t.pool h = f (s.pool h) ∧ t = { s with pool0 := t.pool0, pool1 := t.pool1 } := by
  refine ⟨pool_onPool_self _ _ _, ?_⟩
  unfold State.onPool
  split <;> rfl

/-- Where a line lies depends on the halves alone (R155, R203, R204, R208). -/
theorem lineWord_of_halves {s t : State} (h0 : t.half0 = s.half0) (h1 : t.half1 = s.half1) (pa : Nat) : t.lineWord pa = s.lineWord pa := by
  have hhalf : t.half = s.half := funext fun k => by simp only [State.half, h0, h1]
  have hmap : t.mapPa = s.mapPa := funext fun _ => by simp only [State.mapPa, hhalf]
  have hmoved : t.bankMoved = s.bankMoved := funext₃ fun _ _ _ => by simp only [State.bankMoved, hhalf]
  have hspare : t.spareTaken = s.spareTaken := funext₂ fun _ _ => by simp only [State.spareTaken, hmoved]
  have hrebuilt : t.rebuilt = s.rebuilt := funext₂ fun _ _ => by simp only [State.rebuilt, hspare, hhalf]
  have hunit : t.unitAt = s.unitAt := funext₃ fun _ _ _ => by simp only [State.unitAt, hmoved, hrebuilt, hhalf]
  simp only [State.lineWord, hmap, hunit]

section ScrubReadback
variable {h : HalfId} {s : State} {c : ScrubCur} (hcur : (s.pool h.val).cur = some c)
include hcur

theorem exec_scrubBlockReadback_open (hdone : c.done < 8) (pass : Bool) : exec (.scrubBlockReadback h pass) s = .next s := by
  show execScrubBlockReadback h pass s = _
  unfold execScrubBlockReadback
  simp only [hcur]
  exact if_pos hdone

variable (hdone : 8 ≤ c.done)
include hdone

theorem exec_scrubBlockReadback_pass : exec (.scrubBlockReadback h true) s = .next (s.onPool h.val (fun q =>
    if c.rewrite then { q with cur := none, certAt := q.certAt.put 0 c.block (s.now + 1) }
    else { q with cur := none, certNow := q.certNow ++ [(c.block, c.granted)] })) := by
  show execScrubBlockReadback h true s = _
  unfold execScrubBlockReadback
  simp only [hcur]
  exact if_neg (Nat.not_lt.mpr hdone)

theorem exec_scrubBlockReadback_first (hfailed : c.failed = false) : exec (.scrubBlockReadback h false) s = .next
    ((s.onPool h.val (fun q => { q with cur := some { c with done := 0, failed := true } })).logErr h.val
      { type := 0x08, source := 5, write := true, pa := blockPa c.block, loc := s.lineWord (blockPa c.block) }) := by
  show execScrubBlockReadback h false s = _
  unfold execScrubBlockReadback
  simp only [hcur]
  refine (if_neg (Nat.not_lt.mpr hdone)).trans ((if_neg (by simp)).trans (if_pos ?_))
  simp [hfailed]

/-- The state in which a block that failed twice is retired, with its record, and done for the extents that released it (R147). -/
def State.blockRetired (s : State) (h b : Nat) : State :=
  ((s.persistChange.onPool h (fun q => { q.setBlock b .retired with
    cur := none, marked := q.marked.filter (· ≠ b) })).logErr h
      { type := 0x0E, source := 5, write := true, pa := blockPa b, loc := s.lineWord (blockPa b) }).scrubDone b false

variable (hfailed : c.failed = true)
include hfailed

theorem exec_scrubBlockReadback_unheld (hlive : (s.extentsOf c.block).filter (fun e => (s.extent e).inForce) = []) :
    exec (.scrubBlockReadback h false) s = .next (s.blockRetired h.val c.block) := by
  show execScrubBlockReadback h false s = _
  unfold execScrubBlockReadback
  simp only [hcur, hlive, Nat.not_lt.mpr hdone, hfailed, Bool.not_true, Bool.false_eq_true, if_false]
  rw [lineWord_of_halves (s := s) (by simp [State.persistChange]) (by simp [State.persistChange])]
  rfl

theorem exec_scrubBlockReadback_held {e : Nat} {rest : List Nat}
    (hlive : (s.extentsOf c.block).filter (fun e => (s.extent e).inForce) = e :: rest) :
    exec (.scrubBlockReadback h false) s = .next ((s.blockRetired h.val c.block).substitute h.val e c.block) := by
  show execScrubBlockReadback h false s = _
  unfold execScrubBlockReadback
  simp only [hcur, hlive, Nat.not_lt.mpr hdone, hfailed, Bool.not_true, Bool.false_eq_true, if_false]
  rw [lineWord_of_halves (s := s) (by simp [State.persistChange]) (by simp [State.persistChange])]
  rfl

end ScrubReadback

/-! #### Reads of a line (R166, R179 to R184, R188, R192, R193) -/

section LineRead
variable {pa : Nat} {err : SymErrs} {came : Option Nat} {src : LogSource} {p : PartId} {w : Bool} {s : State}

theorem unbacked_faults (hpa : paEnd ≤ pa) (bad : List (Fin 9)) :
    exec (.memReadDecode pa err came src ⟨p, w⟩) s = .fault (.unbackedAddress pa) ∧
    exec (.verifyRead pa err) s = .fault (.unbackedAddress pa) ∧
    exec (.reconstruction pa ⟨err, bad⟩ src ⟨p, w⟩) s = .fault (.unbackedAddress pa) :=
  ⟨if_pos hpa, if_pos hpa, if_pos hpa⟩

/-- What a decoded read leads to, by the outcome of the line code (R182, R183, R188, R192, R193). -/
def State.afterDecode (u : State) (pa : Nat) (src : LogSource) (p : PartId) (w : Bool) (syn : U64) (d : LineOut × List Byte) : State :=
  match d.1 with
  | .clean => u.emit (.lineRead pa src.val (some (d.2, false)))
  | .ce n => ((u.logErr (homeHalf pa) (u.lineRec 0x01 pa src p.val n 0 syn w)).writeBack pa d.2).emit (.lineRead pa src.val (some (d.2, false)))
  | .mark => if u.rst.mode = .service then u.emit (.lineRead pa src.val (some (d.2, true))) else u.busErr pa src p syn w
  | .ue => if u.rst.mode = .test then (u.countUe pa).busErr pa src p syn w else u

theorem exec_memReadDecode (hpa : pa < paEnd) (hruns : s.rst.mode.runs = true) (halive : s.halfDead (homeHalf pa) = false)
    (hunit : s.unitLost pa = false) :
    let u := (s.drainLine pa).takeTurn pa src.val (s.sourcePort pa src) w false
    let ss := u.returned (came.getD pa) err
    exec (.memReadDecode pa err came src ⟨p, w⟩) s = .next (u.afterDecode pa src p w (u.syndromeOf pa ss) (u.decoded pa ss)) := by
  intro u ss
  show execMemReadDecode pa err came src ⟨p, w⟩ s = _
  unfold execMemReadDecode State.afterDecode
  rw [if_neg (Nat.not_le.mpr hpa), if_neg (by simp [hruns, halive, hunit])]
  simp only [u, ss]
  cases hd : (State.decoded _ _ _).1 with
  | clean => rfl
  | ce n => rfl
  | mark => exact (apply_ite Host.Outcome.next _ _ _).symm
  | ue => exact (apply_ite Host.Outcome.next _ _ _).symm

theorem exec_verifyRead_not (hpa : pa < paEnd) (hno : s.mapPa (pa / 64 * 64) / 64 ∉ (s.half (homeHalf (s.mapPa (pa / 64 * 64)))).verify) :
    exec (.verifyRead pa err) s = .next s :=
  (if_neg (Nat.not_le.mpr hpa)).trans (if_pos (by simp [hno]))

section Verify
variable (hpa : pa < paEnd) (hdue : s.mapPa (pa / 64 * 64) / 64 ∈ (s.half (homeHalf (s.mapPa (pa / 64 * 64)))).verify)
include hpa hdue

/-- The state in which the verify read of a line is no longer due (R184). -/
def State.verified (s : State) (a : Nat) : State := s.onHalf (homeHalf a) (fun x => { x with verify := setDel x.verify (a / 64) })

theorem exec_verifyRead_clean {v : State} (hv : v = s.verified (s.mapPa (pa / 64 * 64)))
    (hclean : (v.decoded pa (v.returned pa err)).1 = .clean) : exec (.verifyRead pa err) s = .next v := by
  subst hv
  exact (if_neg (Nat.not_le.mpr hpa)).trans ((if_neg (by simp [hdue])).trans (if_pos hclean))

/-- An error at the verify read (R184): the line's record is HARD, with a HARD_LINE record the first time. -/
theorem exec_verifyRead_error {v : State} (hv : v = s.verified (s.mapPa (pa / 64 * 64))) {y : LogRec}
    (hbad : (v.decoded pa (v.returned pa err)).1 ≠ .clean)
    (hrec : (v.half (homeHalf (s.mapPa (pa / 64 * 64)))).log.reverse.find?
      (fun r => r.pa = pa / 64 * 64 && (r.type == 0x01 || r.type == 0x02)) = some y) :
    let k := homeHalf (s.mapPa (pa / 64 * 64))
    let z := v.onHalf k (fun x => { x with log := x.log.map (fun r => if r.seq = y.seq then { r with hard := true } else r) })
    exec (.verifyRead pa err) s = .next (if (v.half k).log.any (fun r => r.pa = pa / 64 * 64 && r.type == 0x07) then z
      else z.logErr k { z.lineRec 0x07 pa 8 0 0 0 (z.syndromeOf pa (v.returned pa err)) false with hard := true }) := by
  subst hv
  refine (if_neg (Nat.not_le.mpr hpa)).trans ((if_neg (by simp [hdue])).trans ((if_neg hbad).trans ?_))
  unfold State.verified at hrec
  simp only [hrec]
  rfl

end Verify

end LineRead

/-! #### Reconstruction (R169, R170, R185 to R189) -/

section Reconstruct
variable {pa : Nat} {err : SymErrs} {badUnits : List (Fin 9)} {src : LogSource} {p : PartId} {w : Bool} {s : State}

/-- The state in which the writes held for a rand have drained and its parity has taken their deltas (R169, R170). -/
def State.drained (s : State) (h r : Nat) : State := (s.releaseRand h r).onMem (fun m => m.applyDeltas h r)

/-- The state in which an uncorrectable line, but one of a lost unit, has been counted (R186, R206). -/
def State.ueCounted (v : State) (lost : Bool) (pa : Nat) : State := if lost then v else v.countUe pa

theorem exec_reconstruction_marked (hpa : pa < paEnd) (hmark : s.mapPa (pa / 64 * 64) / 64 ∈ s.mem.poison) :
    exec (.reconstruction pa ⟨err, badUnits⟩ src ⟨p, w⟩) s = .next s :=
  (if_neg (Nat.not_le.mpr hpa)).trans (if_pos (by simp [hmark]))

variable {a k r u l : Nat} {bad : List Nat} {v0 v : State} {lost : Bool} {syn : U64}
  (ha : a = s.mapPa (pa / 64 * 64)) (hk : k = homeHalf a) (hr : r = randOf a) (hu : u = unitOf a) (hl : l = a / 64 % 4)
  (hb : bad = badUnits.map (·.val)) (hv0 : v0 = s.drained k r) (hlost : lost = decide (u ∈ v0.lostUnits k r))
  (hv : v = v0.ueCounted lost pa) (hsyn : syn = if lost then 0 else v0.syndromeOf pa (v0.returned pa err))
  (hpa : pa < paEnd) (hmode : s.rst.mode = .service) (halive : s.halfDead k = false) (hclean : a / 64 ∉ s.mem.poison)
include ha hk hr hu hl hb hv0 hlost hv hsyn hpa hmode halive hclean

theorem exec_reconstruction_restored (hcan : v.canReconstruct k r u l bad = true) :
    let x := (v.ownerEvent p.val 0x00D false 1).opEvent 0x105 { source := some src.val, pa := some pa, part := some p.val }
    let bs := x.mem.reconstruct k r u l
    exec (.reconstruction pa ⟨err, badUnits⟩ src ⟨p, w⟩) s = .next ((if lost then x
      else (x.logErr k (x.lineRec 0x02 pa src p.val 0 0 syn w)).writeBack pa bs).emit (.lineRead pa src.val (some (bs, false)))) := by
  subst ha hk hr hu hl hb hv0 hlost hv hsyn
  refine (if_neg (Nat.not_le.mpr hpa)).trans ((if_neg ?_).trans (if_pos hcan))
  simp [hmode, Mode.runs, halive, hclean]

theorem exec_reconstruction_poisoned (hcan : v.canReconstruct k r u l bad = false) (hservice : v.rst.mode = .service) :
    let x := v.poisonLines k r l (u :: bad)
    exec (.reconstruction pa ⟨err, badUnits⟩ src ⟨p, w⟩) s = .next ((x.logErr k
      (x.lineRec 0x03 pa src p.val 0 Status.poison.code syn w)).emit (.lineRead pa src.val (some (List.replicate 64 0, true)))) := by
  subst ha hk hr hu hl hb hv0 hlost hv hsyn
  refine (if_neg (Nat.not_le.mpr hpa)).trans ((if_neg ?_).trans ((if_neg (Bool.eq_false_iff.mp hcan)).trans (if_pos hservice)))
  simp [hmode, Mode.runs, halive, hclean]

end Reconstruct

/-- Settles O28: a line is read, decoded and where needed reconstructed or poisoned; a scrubbed block is read back. -/
theorem poolLineReadsAndScrub : Obligations.pool_line_reads_and_scrub := by
  refine ⟨fun h s c hcur => ⟨fun hdone hrw => ?again, fun hdone hrw => ?clean, exec_scrubBlockReadback_first hcur, fun hdone hfailed => ?second,
    exec_scrubBlockReadback_open hcur⟩, fun pa err came src p w s => ?read, fun pa err badUnits src p w h rand s => ?reconstruct⟩
  case again =>
    have hp := goes_onPool s h.val (fun q => { q with cur := none, certNow := q.certNow ++ [(c.block, c.granted)] })
    exact ⟨_, (exec_scrubBlockReadback_pass hcur hdone).trans (by simp only [hrw, Bool.false_eq_true, if_false]), hp⟩
  case clean =>
    have hp := goes_onPool s h.val (fun q => { q with cur := none, certAt := q.certAt.put 0 c.block (s.now + 1) })
    exact ⟨_, (exec_scrubBlockReadback_pass hcur hdone).trans (by simp only [hrw, if_true]), hp⟩
  case second =>
    intro live u
    exact ⟨fun hlive => exec_scrubBlockReadback_unheld hcur hdone hfailed hlive,
      fun e rest hlive => exec_scrubBlockReadback_held hcur hdone hfailed hlive⟩
  case read =>
    intro a line u ss syn d
    refine ⟨fun hpa hruns halive hunit => ?_, fun hpa hdue => ?_, fun hno hpa => exec_verifyRead_not hpa hno, unbacked_faults⟩
    · have hexec : exec (.memReadDecode pa err came src ⟨p, w⟩) s = .next (u.afterDecode pa src p w syn d) :=
        exec_memReadDecode hpa hruns halive hunit
      unfold State.afterDecode at hexec
      refine ⟨fun hd => hexec.trans ?_, fun n hd => hexec.trans ?_, fun hd hm => hexec.trans ?_, fun hd hm => hexec.trans ?_,
        fun hd hm => hexec.trans ?_, fun hd hm => hexec.trans ?_⟩
      · simp only [hd]
      · simp only [hd]
      · simp only [hd, hm, if_true]
      · simp only [hd, hm, if_false]
      · simp only [hd, hm, if_true]
      · simp only [hd, hm, if_false]
    · intro v ds known
      refine ⟨exec_verifyRead_clean hpa hdue rfl, fun y hbad hrec => ?_⟩
      intro z
      have hexec := exec_verifyRead_error hpa hdue (v := v) rfl hbad hrec
      exact ⟨fun hk => hexec.trans (congrArg _ (if_pos hk)), fun hk => hexec.trans (congrArg _ (if_neg (Bool.eq_false_iff.mp hk)))⟩
  case reconstruct =>
    intro a k r u l bad v0 lost v syn
    exact ⟨fun hpa hmode halive hclean =>
      ⟨exec_reconstruction_restored rfl rfl rfl rfl rfl rfl rfl rfl rfl rfl hpa hmode halive hclean,
        exec_reconstruction_poisoned rfl rfl rfl rfl rfl rfl rfl rfl rfl rfl hpa hmode halive hclean⟩,
      exec_reconstruction_marked, rfl, rfl⟩

/-! #### Refresh and self-refresh (R168, R172, R173, R175 to R178) -/

section Refresh
variable {b : BankId} {s : State}

theorem exec_refreshDue (hawake : (s.half (bankHalf b)).refresh ≠ .asleep) (hdue : (s.bankSt b).due ≤ s.cnt.clock / 17 + 100 * s.rnd.micros) :
    exec (.refreshDue b) s = .next (s.onBank b (fun x => { x with
      postponed := min 8 (x.postponed + 1), fast := (s.stack b.stack.val).hot
      due := x.due + (if (s.stack b.stack.val).hot then 195 else 390) })) :=
  if_neg (by simp [hawake, hdue])

theorem exec_refreshDue_not (hno : (s.half (bankHalf b)).refresh = .asleep ∨ s.cnt.clock / 17 + 100 * s.rnd.micros < (s.bankSt b).due) :
    exec (.refreshDue b) s = .next s :=
  if_pos (by simpa using hno)

theorem exec_bankRefresh_idle (hsome : 0 < (s.bankSt b).postponed) (hfew : (s.bankSt b).postponed < 8) (hrow : (s.bankSt b).row = none)
    (hqueue : s.bankQueued b = false) :
    exec (.bankRefresh b) s = .next (s.onBank b (fun x => { x with postponed := x.postponed - 1, row := none })) := by
  refine (if_neg (by simp [hrow, hqueue, hsome.ne'])).trans ?_
  unfold State.refreshBank
  rw [if_neg (Nat.not_le.mpr hfew)]

theorem exec_bankRefresh_forced (hfull : 8 ≤ (s.bankSt b).postponed) : exec (.bankRefresh b) s =
    .next ((s.opEvent 0x104 {}).onBank b (fun x => { x with postponed := x.postponed - 1, row := none })) := by
  refine (if_neg (by simp [show (s.bankSt b).postponed ≠ 0 by omega, hfull])).trans ?_
  unfold State.refreshBank
  rw [if_pos hfull]

theorem exec_bankRefresh_not (hno : (s.bankSt b).postponed = 0 ∨ ((s.bankSt b).postponed < 8 ∧
    ((s.bankSt b).row ≠ none ∨ s.bankQueued b = true))) : exec (.bankRefresh b) s = .next s := by
  refine if_pos ?_
  rcases hno with h | ⟨h, hq⟩
  · simp [h]
  · simp [h, Option.isSome_iff_ne_none, hq]

theorem exec_refreshRateSwitch (st : StackId) (temp : Nat) : Goes (exec (.refreshRateSwitch st temp) s) (fun t =>
    (85 < temp → (t.stack st.val).hot = true) ∧ (temp ≤ 83 → (t.stack st.val).hot = false) ∧
    (83 < temp → temp ≤ 85 → (t.stack st.val).hot = (s.stack st.val).hot) ∧
    (∀ k, k ≠ st.val → t.stack k = s.stack k) ∧ t = { s with stackTab := t.stackTab }) := by
  refine ⟨_, rfl, fun h => ?_, fun h => ?_, fun h h' => ?_, fun k hk => stack_onStack_ne _ _ hk, rfl⟩
  · simp [h]
  · simp [h, show ¬ 85 < temp by omega]
  · simp [show ¬ 85 < temp by omega, show ¬ temp ≤ 83 by omega]

end Refresh

section SelfRefresh
variable {h : HalfId} {s : State}

theorem exec_selfRefreshEntry (hidle : 1000 ≤ (s.half h.val).idle) (htouched : (s.half h.val).touched = false)
    (hawake : (s.half h.val).refresh = .active ∨ (s.half h.val).refresh = .flushing)
    (hstill : (s.pool h.val).anyDirty = false ∧ (s.half h.val).rebuilding = false ∧ (s.half h.val).moving = none ∧ (s.half h.val).copies = [] ∧
      s.stacksBusy h.val = false ∧ s.dir.any (fun e => homeHalf (e.1 * 64) = h.val && e.2.st == .busy) = false) :
    exec (.selfRefreshEntry h) s = .next (s.onHalf h.val (fun x => { x with refresh := .asleep })) := by
  obtain ⟨hdirty, hrebuild, hmoving, hcopies, hstacks, hdir⟩ := hstill
  refine congrArg _ (if_pos ?_)
  rcases hawake with hawake | hawake <;>
    simp only [hidle, htouched, hawake, hdirty, hrebuild, hmoving, hcopies, hstacks, hdir] <;> rfl

theorem exec_selfRefreshEntry_not (hno : (s.half h.val).idle < 1000 ∨ (s.half h.val).touched = true ∨ (s.half h.val).rebuilding = true ∨
    (s.half h.val).copies ≠ [] ∨ s.stacksBusy h.val = true) : exec (.selfRefreshEntry h) s = .next s := by
  refine congrArg _ (if_neg ?_)
  rcases hno with hno | hno | hno | hno | hno <;> simp [hno]

theorem exec_selfRefreshExit (hwaking : (s.half h.val).refresh = .waking)
    (hlate : 50 < (s.now - (s.half h.val).wakeFrom + 1) * s.rnd.micros) : exec (.selfRefreshExit h) s =
      .next (s.onHalf h.val (fun y => { y with refresh := .active, touched := true })).retryHosts :=
  if_neg (by simpa [hwaking] using hlate)

theorem exec_selfRefreshExit_not (hno : (s.half h.val).refresh ≠ .waking ∨
    (s.now - (s.half h.val).wakeFrom + 1) * s.rnd.micros ≤ 50) : exec (.selfRefreshExit h) s = .next s :=
  if_pos (by simpa using hno)

theorem exec_metadataFlush (hasleep : (s.half h.val).refresh = .asleep) (hdue : 3145728 ≤ (s.half h.val).metaBuf ∨ s.now % 4096 = 0) :
    exec (.metadataFlush h) s = .next (s.onHalf h.val (fun x => { x with refresh := .flushing, metaBuf := 0 })) :=
  if_pos (by simpa [hasleep] using hdue)

theorem exec_metadataFlush_not (hawake : (s.half h.val).refresh ≠ .asleep) : exec (.metadataFlush h) s = .next s :=
  if_neg (by simp [hawake])

end SelfRefresh

/-- Settles O29: banks refresh when due, halves sleep when idle and wake 50 µs after a touch. -/
theorem rowsRefreshAndSelfRefresh : Obligations.rows_refresh_and_self_refresh := by
  refine ⟨fun b st temp s => ?_, fun h s => ?_⟩
  · intro x
    exact ⟨exec_refreshDue, exec_refreshDue_not, exec_bankRefresh_idle, exec_bankRefresh_forced, exec_bankRefresh_not, rfl,
      exec_refreshRateSwitch st temp⟩
  · intro x still
    exact ⟨exec_selfRefreshEntry, exec_selfRefreshEntry_not, exec_selfRefreshExit, exec_selfRefreshExit_not, exec_metadataFlush,
      exec_metadataFlush_not⟩

end Sys2Proof.Machine

/-! ### Failed weavers, dies, paths and stacks (R158 to R161, R195 to R217, R341 to R359) -/

namespace Sys2Proof.Machine

/-! #### Weavers (R341, R345, R348, R356, R357) -/

section Weaver
variable {w : WeaverId} {s : State}

theorem fenceWeaver_inactive {cause : Nat} (hst : (s.weaver w.val).st ≠ .active) : s.fenceWeaver w.val cause = s :=
  if_pos (by simp [hst])

/-- The stream engine of a weaver without requests in it discards nothing (R356). -/
theorem dropEngine_of_none (hreqs : ∀ q ∈ s.poolReqs, q.weaver = w.val → q.stage ≠ .engine) : s.dropEngine w.val = s := by
  have hnone : ∀ q ∈ s.poolReqs, (q.weaver = w.val && q.stage == .engine) = false := fun q hq => by
    simpa using hreqs q hq
  unfold State.dropEngine
  rw [List.filter_eq_nil_iff.mpr (fun q hq => by simp [hnone q hq]),
    List.filter_eq_self.mpr (fun q hq => by simp only [hnone q hq, Bool.not_false])]
  rfl

theorem exec_weaverFence_idle {cause : Nat} (hst : (s.weaver w.val).st = .active) (hrun : (s.weaver w.val).run = none)
    (hdeque : (s.weaver w.val).deque = []) (hreqs : ∀ q ∈ s.poolReqs, q.weaver = w.val → q.stage ≠ .engine) :
    Goes (exec (.weaverFence w cause) s) (fun t =>
      t.weaver w.val = { s.weaver w.val with st := .fenced, cause := cause, stateRound := s.rnd.counter } ∧
      (∀ v, v ≠ w.val → t.weaver v = s.weaver v) ∧ t = { s with weavers := t.weavers }) := by
  let u := s.onWeaver w.val (fun x => { x with st := .fenced, cause := cause, stateRound := s.now })
  have hu : u.weaver w.val = { s.weaver w.val with st := .fenced, cause := cause, stateRound := s.now } := weaver_onWeaver_self _ _ _
  have hfence : s.fenceWeaver w.val cause = u.onWeaver w.val (fun x => { x with deque := [] }) := by
    unfold State.fenceWeaver
    rw [if_neg (by simp [hst]), dropEngine_of_none (s := u) hreqs]
    simp only [u, weaver_onWeaver_self, hrun, State.moveDeque, hdeque, each_nil]
  refine ⟨_, congrArg Host.Outcome.next hfence, ?_, fun v hv => ?_, rfl⟩
  · rw [weaver_onWeaver_self, hu, ← hdeque, State.now]
  · rw [weaver_onWeaver_ne _ _ hv, weaver_onWeaver_ne _ _ hv]

/-- The lines of a weaver's scratch with an uncorrectable error within 4,096 rounds, after one more (R348). -/
def State.ueLinesAfter (s : State) (w line : Nat) : List (Nat × Nat) :=
  ((s.weaver w).ueLines.filter (fun u => u.1 ≠ line && decide (s.now < u.2 + 4096))) ++ [(line, s.now)]

/-- The state in which the line of an uncorrectable scratch error is poisoned (R348). -/
def State.scratchHit (s : State) (w line : Nat) : State :=
  s.onWeaver w (fun x => { x with run := x.run.map (fun y => { y with poison := setAdd y.poison line }), ueLines := s.ueLinesAfter w line })

theorem exec_scratchError {addr : Nat} : exec (.scratchError w addr true) s =
    .next (if 4 ≤ (s.ueLinesAfter w.val (addr / 64)).length then (s.scratchHit w.val (addr / 64)).fenceWeaver w.val 3
      else s.scratchHit w.val (addr / 64)) := by
  have hhit : s.onWeaver w.val (fun x => { x with
      run := x.run.map (fun y => { y with poison := setAdd y.poison (addr / 64) })
      ueLines := (x.ueLines.filter (fun u => u.1 ≠ addr / 64 && decide (s.now < u.2 + 4096))) ++ [(addr / 64, s.now)] }) =
      s.scratchHit w.val (addr / 64) := rfl
  have hlines : ((s.scratchHit w.val (addr / 64)).weaver w.val).ueLines = s.ueLinesAfter w.val (addr / 64) :=
    congrArg Weaver.ueLines (weaver_onWeaver_self _ _ _)
  show execScratchError w addr true s = _
  unfold execScratchError
  simp only [Bool.not_true, Bool.false_eq_true, if_false, hhit, hlines]

theorem exec_registerParityError (hst : (s.weaver w.val).st = .active) (hrun : (s.weaver w.val).run ≠ none) :
    let u := (s.faultRun w.val .poison).onWeaver w.val (fun x => { x with
      regErrs := (x.regErrs.filter (fun r => decide ((s.faultRun w.val .poison).now < r + 4096))) ++ [(s.faultRun w.val .poison).now] })
    exec (.registerParityError w) s = .next (if 4 ≤ (u.weaver w.val).regErrs.length then u.fenceWeaver w.val 4 else u) :=
  if_neg (by simp [hst, hrun])

theorem exec_registerParityError_not (hno : (s.weaver w.val).st ≠ .active ∨ (s.weaver w.val).run = none) :
    exec (.registerParityError w) s = .next s :=
  if_pos (by simpa using hno)

end Weaver

/-! #### Weave dies (R158 to R161, R217, R359) -/

section Die
variable {d : DieId} {s : State}

theorem exec_weaveDieFailed (hok : (s.die d.val).ok = true) (hfailed : (s.die d.val).failed = none) :
    exec (.weaveDieFailed d) s = .next (((s.persistChange.onDie d.val (fun x => { x with failed := some s.rnd.counter })).each
      (dieWeavers d.val) (fun s w => s.onWeaver w (fun x =>
        if x.st = .active then { x with st := .fenced, cause := 7, stateRound := s.now } else x))).dropBridge (d.val % 2)) := by
  show Host.Outcome.next (s.declareDie d.val) = _
  unfold State.declareDie
  rw [if_neg (by simp [hok, hfailed])]
  simp only [State.now]

theorem exec_weaveDieFailed_not (hno : (s.die d.val).ok = false ∨ (s.die d.val).failed ≠ none) :
    exec (.weaveDieFailed d) s = .next s :=
  congrArg _ (if_pos (by simpa [Option.isSome_iff_ne_none] using hno))

theorem exec_failoverTakeover {f : Nat} (hok : (s.die d.val).ok = true) (hfailed : (s.die d.val).failed = some f) (hlate : f < s.now) :
    let u := (s.onDie d.val (fun x => { x with ok := false, resync := (s.die (partner d.val)).ok })).each (dieStacks d.val)
      (fun s n => s.onStack n (fun y => { y with secondary := true }))
    exec (.failoverTakeover d) s = .next ((((((u.dieStrokes d.val).dieBulk d.val).onHalf (d.val / 2)
      (fun y => { y with holdsCh6 := false })).backToPorts (dieStacks d.val)).dieBuffer d.val).resnoop d.val) :=
  if_neg (by simp [hok, hfailed, hlate])

theorem exec_failoverTakeover_not (hno : (s.die d.val).ok = false ∨ (s.die d.val).failed = none) :
    exec (.failoverTakeover d) s = .next s :=
  if_pos (by rcases hno with h | h <;> simp [h])

theorem exec_failoverResyncDone {mine : List Nat}
    (hmine : mine = if (s.die d.val).resync then dieStacks d.val else (dieStacks d.val).filter (fun n => (s.stack n).resync))
    (hdue : (s.die d.val).resync = true ∨ (dieStacks d.val).any (fun n => (s.stack n).resync) = true) :
    exec (.failoverResyncDone d) s = .next ((((s.each (s.mem.intents.filter (fun x => decide (x.1 ∈ mine)))
      (fun s x => s.rewriteParity (x.1 / 10) x.2)).each mine (fun s n => s.onStack n (fun y => { y with resync := false }))).onDie d.val
        (fun x => { x with resync := false })).releaseHeld) := by
  subst hmine
  exact if_neg (by rcases hdue with h | h <;> simp only [h] <;> simp)

theorem exec_failoverResyncDone_not (hdie : (s.die d.val).resync = false)
    (hstacks : (dieStacks d.val).any (fun n => (s.stack n).resync) = false) : exec (.failoverResyncDone d) s = .next s :=
  if_pos (by simp only [hdie, hstacks]; rfl)

end Die

/-! #### Paths (R195 to R197) -/

theorem exec_parityMismatch (path : Nat) (kind : PathKind) (x : Transfer) (tries : List (List (U32 × Bool))) (s : State) :
    exec (.parityMismatch path kind x tries) s =
      if failedTries tries = 0 then .next (s.keepTransfer path x)
      else if failedTries tries < 4 then .next ((s.keepTransfer path x).onCnt (fun c => { c with replay := c.replay.bump path }))
      else .next ((s.keepTransfer path x).exhaust path kind x) := rfl

/-! #### Stacks, the rebuild and the retirement of pages and banks (R203 to R214) -/

section Stack
variable {st : StackId} {s : State}

theorem exec_stackFailed_fatal (hok : (s.stack st.val).failed = false) :
    exec (.stackFailed st .fatal) s = .next (s.onHalf (st.val / 10) (fun z => { z with failing := setAdd z.failing st.val })) :=
  if_neg (by simp [hok])

theorem exec_stackFailed_missed (hok : (s.stack st.val).failed = false) (hp : 2 ≤ (s.stack st.val).missP) (hs : 2 ≤ (s.stack st.val).missS) :
    exec (.stackFailed st .missedExchanges) s = .next (s.onHalf (st.val / 10) (fun z => { z with failing := setAdd z.failing st.val })) :=
  if_neg (by simp [hok, hp, hs])

theorem exec_stackFailed_heard (hp : (s.stack st.val).missP < 2) : exec (.stackFailed st .missedExchanges) s = .next s :=
  if_pos (by simp [hp])

theorem exec_stackFailed_again (hfailed : (s.stack st.val).failed = true) (cause : StackCause) :
    exec (.stackFailed st cause) s = .next s :=
  if_pos (by simp [hfailed])

end Stack

section Half
variable {h : HalfId} {s : State}

theorem exec_rebuildRand {bad : List (Fin 4 × Fin 9)} (hrebuild : (s.half h.val).rebuilding = true) (hcredit : 100 ≤ (s.half h.val).credit)
    (hch6 : (s.half h.val).holdsCh6 = true) (hmoving : (s.half h.val).moving = none) (hcursor : (s.half h.val).cursor < randCount)
    {c r u : Nat} (hc : c = s.skipRands h.val 64 (s.half h.val).cursor) (hr : r = rebuildRandAt c)
    (hlt : c < randCount) (hu : s.toRebuild h.val r = some u) :
    let v := ((s.serveUrgent h.val).releaseRand h.val r).onMem (fun m => m.applyDeltas h.val r)
    let v := v.each (List.range 9) (fun s k => s.useSlot (slotBank (10 * h.val + s.unitAt h.val r k) r) (randPa h.val r) 6 false)
    exec (.rebuildRand h bad) s = .next ((v.each (List.range 4) (fun s l =>
      s.rebuildLine h.val r u ((bad.filter (fun b => b.1.val = l)).map (·.2.val)) l)).onHalf h.val
        (fun y => { y with cursor := c + 1, credit := y.credit - 100 })) := by
  subst hr hc
  show execRebuildRand h bad s = _
  unfold execRebuildRand
  simp only [hlt, hu, if_true]
  exact if_neg (by simp [hrebuild, hcredit, hch6, hmoving, hcursor])

theorem rebuildLine_of_good (z : State) {k r u l : Nat} (hu : u < 8) (hmark : parityLine k r l ∉ z.mem.parityPoison) :
    z.rebuildLine k r u [] l = z.onMem (fun m => m.store (randPa k r + u * 256 + l * 64) (m.reconstruct k r u l)) :=
  (if_pos (by simp [hmark])).trans (if_pos hu)

theorem exec_rebuildRand_not {bad : List (Fin 4 × Fin 9)} (hno : (s.half h.val).rebuilding = false ∨ (s.half h.val).credit < 100) :
    exec (.rebuildRand h bad) s = .next s :=
  if_pos (by rcases hno with h | h <;> simp [h])

theorem exec_pageRetireCopy {c : PageCopy} {rest : List PageCopy} (hcopies : (s.half h.val).copies = c :: rest) :
    let dest := h.val * halfBase + metaOff + c.repl * 4096
    let v := s.each [0, 1] (fun s k => s.releaseRand h.val (randOf (c.page + k * 2048)))
    let v := v.each (List.range 64) (fun s k =>
      if (s.newLine (c.page + k * 64)).2 then s.writePoisoned (dest + k * 64) (s.newLine (c.page + k * 64)).1
      else s.writePool (dest + k * 64) (s.newLine (c.page + k * 64)).1)
    exec (.pageRetireCopy h) s = .next ((v.each [0, 1] (fun s k => s.releaseRand h.val (randOf (dest + k * 2048)))).onHalf h.val
      (fun y => { y with copies := rest, pages := y.pages ++ [(c.page, c.repl)] })).releaseHeld := by
  show execPageRetireCopy h s = _
  unfold execPageRetireCopy
  simp only [hcopies]

theorem exec_pageRetireCopy_none (hcopies : (s.half h.val).copies = []) : exec (.pageRetireCopy h) s = .next s := by
  show execPageRetireCopy h s = _
  unfold execPageRetireCopy
  simp only [hcopies]

section Moving
variable {b : BankId} {n : Nat} (hmoving : (s.half h.val).moving = some (b, n))
include hmoving

theorem exec_bankUnitMove_last (hlast : 131072 ≤ skipSlots b 16 n) : exec (.bankUnitMove h) s =
    .next (s.onHalf h.val (fun y => { y with moving := none, banks := y.banks ++ [b] })) := by
  show execBankUnitMove h s = _
  unfold execBankUnitMove
  simp only [hmoving]
  exact if_pos hlast

theorem exec_bankUnitMove_next (hmore : skipSlots b 16 n + 1 < 131072) (hcredit : 100 ≤ (s.half h.val).credit)
    (hch6 : (s.half h.val).holdsCh6 = true) : exec (.bankUnitMove h) s =
      .next ((s.onHalf h.val (fun y => { y with credit := y.credit - 100 })).onHalf h.val
        (fun y => { y with moving := some (b, skipSlots b 16 n + 1) })) := by
  show execBankUnitMove h s = _
  unfold execBankUnitMove
  simp only [hmoving]
  rw [if_neg (by omega), if_neg (by simp [hcredit, hch6])]
  simp only [Nat.not_le.mpr hmore, if_false]

end Moving

theorem exec_bankUnitMove_none (hmoving : (s.half h.val).moving = none) : exec (.bankUnitMove h) s = .next s := by
  show execBankUnitMove h s = _
  unfold execBankUnitMove
  simp only [hmoving]

end Half

/-- Settles O30: fences, failovers, replays, stack failures, the rebuild and retirements. -/
theorem failedWeaversDiesPathsAndStacks : Obligations.failed_weavers_dies_paths_and_stacks := by
  refine ⟨fun w cause addr s => ?weaver, fun d s => ?die, fun h st path kind x tries bad s => ?stack⟩
  case weaver =>
    intro x line lines hit
    refine ⟨rfl, fenceWeaver_inactive, exec_weaverFence_idle, rfl, fun hfew => ?_, fun hmany => ?_, fun hst hrun => ?_,
      exec_registerParityError_not⟩
    · exact exec_scratchError.trans (congrArg _ (if_neg (Nat.not_le.mpr hfew)))
    · exact exec_scratchError.trans (congrArg _ (if_pos hmany))
    · intro u
      have hexec := exec_registerParityError hst hrun
      exact ⟨fun hfew => hexec.trans (congrArg _ (if_neg (Nat.not_le.mpr hfew))), fun hmany => hexec.trans (congrArg _ (if_pos hmany))⟩
  case die =>
    exact ⟨exec_weaveDieFailed, exec_weaveDieFailed_not, fun f => exec_failoverTakeover, exec_failoverTakeover_not,
      fun mine => exec_failoverResyncDone, exec_failoverResyncDone_not⟩
  case stack =>
    intro y fails kept
    have hparity : exec (.parityMismatch path kind x tries) s = if fails = 0 then .next kept
        else if fails < 4 then .next (kept.onCnt (fun c => { c with replay := c.replay.bump path })) else .next (kept.exhaust path kind x) :=
      exec_parityMismatch path kind x tries s
    refine ⟨fun hnone => hparity.trans (if_pos hnone), fun hsome hfew => hparity.trans ((if_neg (by omega)).trans (if_pos hfew)),
      fun hall => hparity.trans ((if_neg (by omega)).trans (if_neg (by omega))),
      fun hok => ⟨exec_stackFailed_fatal hok, exec_stackFailed_missed hok, exec_stackFailed_heard⟩, exec_stackFailed_again, ?_,
      exec_rebuildRand_not, ?_, exec_pageRetireCopy_none, ?_, ?_, exec_bankUnitMove_none⟩
    · intro hrebuild hcredit hch6 hmoving hcursor c r u hlt hu
      exact ⟨exec_rebuildRand hrebuild hcredit hch6 hmoving hcursor rfl rfl hlt hu, fun z l hu hmark => rebuildLine_of_good z hu hmark⟩
    · intro c rest hcopies
      exact exec_pageRetireCopy hcopies
    · exact fun b n hmoving => exec_bankUnitMove_last hmoving
    · exact fun b n hmoving => exec_bankUnitMove_next hmoving

end Sys2Proof.Machine

/-! ### Coherent requests at the home and the directory (R122, R220 to R225, R388) -/

namespace Sys2Proof.Machine

/-! #### Requests of agents (R122, R220, R388) -/

section AgentRequest
variable {r : FabReq} {o : AgentOp} {p : PartId} {rank : Nat} {s u : State} {pva l : Nat} {ls : List Nat}

/-- The request is a far atomic that its rank may not send (R229). -/
def State.barredFar (s : State) (p : PartId) (rank : Nat) : AgentOp → Bool
  | .atom _ _ _ _ => !(s.rank p.val rank).farAtomic && !(s.rank p.val rank).dead
  | _ => false

/-- The reply to a request for no line (R388). -/
def AgentOp.emptyReply : AgentOp → Nat
  | .rdNc => opDataNc
  | _ => opCmp

theorem agentOp_eq (hwho : r.who = .agent p rank) : s.agentOp r o =
    if s.barredFar p rank o = true then s.refuse r .perm
    else if o.formOk r = false then s.refuse r .range
    else if o.bytes r = 0 then s.answer r o.emptyReply .ok 0 [] false none
    else (s.fabCheck r p.val rank o).2.agentOut r o ((s.window r.window).pvaBase + r.offset) (s.fabCheck r p.val rank o).1 := by
  unfold State.agentOp
  simp only [hwho, Bool.not_eq_true']
  cases o <;> rfl

theorem agentOp_barred (hwho : r.who = .agent p rank) (hfar : s.barredFar p rank o = true) : s.agentOp r o = s.refuse r .perm :=
  (agentOp_eq hwho).trans (if_pos hfar)

section Checked
variable (hwho : r.who = .agent p rank) (hfar : s.barredFar p rank o = false)
include hwho hfar

theorem agentOp_malformed (hform : o.formOk r = false) : s.agentOp r o = s.refuse r .range :=
  (agentOp_eq hwho).trans ((if_neg (Bool.eq_false_iff.mp hfar)).trans (if_pos hform))

theorem agentOp_empty (hform : o.formOk r = true) (hbytes : o.bytes r = 0) :
    s.agentOp r o = s.answer r o.emptyReply .ok 0 [] false none :=
  (agentOp_eq hwho).trans ((if_neg (Bool.eq_false_iff.mp hfar)).trans ((if_neg (by simp [hform])).trans (if_pos hbytes)))

theorem agentOp_checked (hform : o.formOk r = true) (hbytes : o.bytes r ≠ 0) {c : FabOut} (hcheck : s.fabCheck r p.val rank o = (c, u)) :
    s.agentOp r o = u.agentOut r o ((s.window r.window).pvaBase + r.offset) c := by
  rw [agentOp_eq hwho, if_neg (Bool.eq_false_iff.mp hfar), if_neg (by simp [hform]), if_neg hbytes, hcheck]

end Checked

/-- The state in which the reader of published frames has its translation pins (R239, R246). -/
def State.pinned (u : State) (r : FabReq) (ls : List Nat) : State := u.onNet (fun n => { n with verPins := n.verPins ++ u.verPinsOf r ls })

section Lines
variable {v : State} (hv : v = u.pinned r (l :: ls))
  (hawake : ∀ k ∈ l :: ls, v.halfDead (homeHalf (k * 64)) = false ∧ v.asleepHalf (homeHalf (k * 64)) = false)
include hv hawake

omit hv in
theorem awake_find : (l :: ls).find? (fun l => v.halfDead (homeHalf (l * 64)) || v.asleepHalf (homeHalf (l * 64))) = none := by
  rw [List.find?_eq_none]
  intro k hk
  simp [hawake k hk]

theorem agentLines_held (hheld : (l :: ls).any (fun k => v.portHeld (k * 64)) = true) :
    u.agentLines r o pva (l :: ls) = v.park { req := r, op := o, pva := pva, lines := some (l :: ls) } := by
  have hfind := awake_find hawake
  subst hv
  unfold State.pinned at hfind hheld
  unfold State.agentLines
  simp only [hfind]
  exact if_pos hheld

variable (hfree : (l :: ls).any (fun k => v.portHeld (k * 64)) ≠ true)
include hfree

theorem agentLines_creditless (hcredit : v.creditless r o l = true) :
    u.agentLines r o pva (l :: ls) = v.park { req := r, op := o, pva := pva, lines := some (l :: ls), credit := true } := by
  have hfind := awake_find hawake
  subst hv
  unfold State.pinned at hfind hfree hcredit
  unfold State.agentLines
  simp only [hfind]
  exact (if_neg hfree).trans (if_pos hcredit)

theorem agentLines_served (hcredit : v.creditless r o l = false) :
    u.agentLines r o pva (l :: ls) = (v.agentServe r o (l :: ls)).dropVerPins := by
  have hfind := awake_find hawake
  subst hv
  unfold State.pinned at hfind hfree hcredit
  unfold State.agentLines
  simp only [hfind]
  exact (if_neg hfree).trans (if_neg (Bool.eq_false_iff.mp hcredit))

end Lines

theorem agentOut_bad {st : Status} {retry : Nat} (hst : st ≠ .revoked) : u.agentOut r o pva (.bad st retry) = u.refuse r st retry :=
  congrArg (fun t => State.refuse t r st retry) (if_neg hst)

/-- The state in which a request has taken its turn at each of its lines (R166). -/
def State.turns (v : State) (r : FabReq) (o : AgentOp) (ls : List Nat) : State :=
  v.each ls (fun s l => s.takeTurn (l * 64) 0 r.link.val o.writes r.hint)

/-- What an operation that asks for ownership does at its first line, by what the frames allow (R223, R239). -/
theorem agentServe_owns (v : State) (k : PendKind) (hk : o = .rdX ∧ k = .rdX ∨ o = .upg ∧ k = .upg) : v.agentServe r o (l :: ls) =
    if (v.turns r o (l :: ls)).linesRefuse r (l :: ls) then (v.turns r o (l :: ls)).refuse r .perm
    else (v.turns r o (l :: ls)).cohRequest l r k := by
  rcases hk with ⟨rfl, rfl⟩ | ⟨rfl, rfl⟩ <;> rfl

theorem agentServe_atom (v : State) (op : AtomOp) (w8 : Bool) (a b : U64) : v.agentServe r (.atom op w8 a b) (l :: ls) =
    if (v.turns r (.atom op w8 a b) (l :: ls)).linesRefuse r (l :: ls) then
      (v.turns r (.atom op w8 a b) (l :: ls)).answer r opAtomRsp .perm 0 [] false none
    else (v.turns r (.atom op w8 a b) (l :: ls)).atomRequest l r op w8 a b := rfl

/-- What an operation that caches nothing does at its first line (R219, R223). -/
theorem agentServe_nc (v : State) (hwho : r.who = .agent p rank) (k : PendKind)
    (hk : o = .rdNc ∧ k = .rdNc ls [] false ∨ ∃ data masks, o = .wrNc data masks ∧ k = .wrNc ls data masks .ok) :
    v.agentServe r o (l :: ls) = (((v.turns r o (l :: ls)).each (l :: ls) (fun s k => s.hitLine p.val k)).run l r k).settleLine l := by
  have hpart : askPart r = p.val := by simp only [askPart, hwho]
  rcases hk with ⟨rfl, rfl⟩ | ⟨data, masks, rfl, rfl⟩ <;>
    (unfold State.agentServe; rw [hpart]; rfl)

end AgentRequest

/-! #### The snoop that a request needs (R223, R224) -/

section Conflict
variable {s : State} {line : Nat} {r : FabReq} {k : PendKind} {o : Requester}

theorem conflict_u (hst : (s.dirEnt line).st = .u) : s.conflict line r k = none := by
  unfold State.conflict
  simp only [hst]

section Shared
variable (hst : (s.dirEnt line).st = .s)
include hst

theorem conflict_s_owns (hown : k = .rdX ∨ k = .upg) : s.conflict line r k =
    if (s.dirEnt line).ovf then some (opSnpInv, s.membersOf (line * 64), none, true)
    else if ((s.dirEnt line).ptrs.filter (· ≠ r.who)).isEmpty then none
    else some (opSnpInv, (s.dirEnt line).ptrs.filter (· ≠ r.who), none, false) := by
  unfold State.conflict
  simp only [hst]
  rcases hown with rfl | rfl <;> exact if_pos rfl

theorem conflict_s_other (hown : ¬ (k = .rdX ∨ k = .upg)) : s.conflict line r k =
    if s.kindWrites k then
      if (s.dirEnt line).ovf then some (opSnpInv, s.membersOf (line * 64), none, true) else some (opSnpInv, (s.dirEnt line).ptrs, none, false)
    else none := by
  unfold State.conflict
  simp only [hst]
  cases k with
  | rdX => exact absurd (.inl rfl) hown
  | upg => exact absurd (.inr rfl) hown
  | _ => exact if_neg Bool.false_ne_true

end Shared

section Owned
variable (hst : (s.dirEnt line).st = .x) (hhead : (s.dirEnt line).ptrs.head? = some o)
include hst hhead

theorem conflict_x_read : s.conflict line r .rdS = if o = r.who then none else some (opSnpFwdS, [o], some o, false) := by
  unfold State.conflict
  simp only [hst, hhead]

theorem conflict_x_owns (hown : k = .rdX ∨ k = .upg) : s.conflict line r k = if o = r.who then none else
    some (match r.who with | .buffer _ => opSnpRecall | .agent _ _ => opSnpFwdX, [o], some o, false) := by
  unfold State.conflict
  rcases hown with rfl | rfl <;> simp only [hst, hhead] <;> cases r.who <;> rfl

theorem conflict_x_other (hread : k ≠ .rdS) (hown : ¬ (k = .rdX ∨ k = .upg)) : s.conflict line r k =
    if s.kindWrites k then some (opSnpRecall, [o], some o, false) else some (opSnpClean, [o], some o, false) := by
  unfold State.conflict
  simp only [hst, hhead]
  cases k with
  | rdS => exact absurd rfl hread
  | rdX => exact absurd (.inl rfl) hown
  | upg => exact absurd (.inr rfl) hown
  | _ => rfl

end Owned

/-- A fifth sharer sets OVF (R224). -/
theorem addSharer_full (e : DirEnt) (w : Requester) (hnew : w ∉ e.ptrs) (hfull : e.ptrs.length = 4) :
    (e.addSharer w).ovf = true ∧ (e.addSharer w).ptrs = e.ptrs := by
  unfold DirEnt.addSharer
  simp [hnew, hfull]

theorem addSharer_free (e : DirEnt) (w : Requester) (hnew : w ∉ e.ptrs) (hfree : e.ptrs.length < 4) :
    (e.addSharer w).ovf = e.ovf ∧ (e.addSharer w).ptrs = e.ptrs ++ [w] := by
  unfold DirEnt.addSharer
  simp [hnew, Nat.not_le.mpr hfree]

end Conflict

/-- Settles O31: a coherent request waits, is refused or is served at its first line; a line's state decides the snoop. -/
theorem coherentRequestsAndDirectory : Obligations.coherent_requests_and_directory := by
  refine ⟨fun r p rank s u l ls hwho => ?request, fun s line r k o => ?directory⟩
  case request =>
    intro pva v turns hits awake held gate copy
    have hgate : ∀ c o served, exec c s = .next (s.agentOp r o) → s.barredFar p rank o = false → v.agentServe r o (l :: ls) = served →
        gate c o served := by
      intro c o served hc hfar hserve hform hbytes
      have hcheck := fun {c : FabOut} => agentOp_checked (u := u) (c := c) hwho hfar hform hbytes
      refine ⟨fun hok hawake => ⟨fun hfree hcredit => ?_, fun hheld => ?_, fun hfree hcredit => ?_⟩, fun hwait => ?_,
        fun st retry hst hbad => ?_, fun retry hbad => ?_⟩
      · rw [hc, hcheck hok, ← hserve]
        exact congrArg _ (agentLines_served rfl hawake hfree hcredit)
      · rw [hc, hcheck hok]
        exact congrArg _ (agentLines_held rfl hawake hheld)
      · rw [hc, hcheck hok]
        exact congrArg _ (agentLines_creditless rfl hawake hfree hcredit)
      · rw [hc, hcheck hwait]; rfl
      · rw [hc, hcheck hbad, agentOut_bad hst]
      · rw [hc, hcheck hbad]; rfl
    have hform : ∀ c o, exec c s = .next (s.agentOp r o) → s.barredFar p rank o = false → o.formOk r = false →
        exec c s = .next (s.refuse r .range) :=
      fun c o hc hfar hbad => hc.trans (congrArg _ (agentOp_malformed hwho hfar hbad))
    refine ⟨hgate _ _ _ rfl rfl rfl, hform _ .rdS rfl rfl, ?_, ?_, hgate _ _ _ rfl rfl (agentServe_nc v hwho _ (.inl ⟨rfl, rfl⟩)),
      hform _ .rdNc rfl rfl, fun hok hunits => ?_,
      fun hok hunits hzeros => ?_, fun data masks => ⟨hgate _ _ _ rfl rfl (agentServe_nc v hwho _ (.inr ⟨data, masks, rfl, rfl⟩)),
        hform _ (.wrNc data masks) rfl rfl, fun hok hdata => ?_⟩,
      fun op w8 a b hfar => ?_, fun op w8 a b hfar halive => ?_⟩
    · exact ⟨fun hgood => hgate _ _ _ rfl rfl ((agentServe_owns v .rdX (.inl ⟨rfl, rfl⟩)).trans (if_neg (Bool.eq_false_iff.mp hgood))),
        fun hbad => hgate _ _ _ rfl rfl ((agentServe_owns v .rdX (.inl ⟨rfl, rfl⟩)).trans (if_pos hbad)), hform _ .rdX rfl rfl⟩
    · exact ⟨fun hgood => hgate _ _ _ rfl rfl ((agentServe_owns v .upg (.inr ⟨rfl, rfl⟩)).trans (if_neg (Bool.eq_false_iff.mp hgood))),
        fun hbad => hgate _ _ _ rfl rfl ((agentServe_owns v .upg (.inr ⟨rfl, rfl⟩)).trans (if_pos hbad)), hform _ .upg rfl rfl⟩
    · exact congrArg _ (agentOp_empty hwho rfl hok (by simp [AgentOp.bytes, hunits]))
    · exact congrArg _ (agentOp_checked hwho rfl hok (by simp [AgentOp.bytes, hunits]) hzeros)
    · exact congrArg _ (agentOp_empty hwho rfl hok (by simp [AgentOp.bytes, hdata]))
    · have hnear : s.barredFar p rank (.atom op w8 a b) = false := by simp [State.barredFar, hfar]
      exact ⟨fun hgood => hgate _ _ _ rfl hnear ((agentServe_atom v op w8 a b).trans (if_neg (Bool.eq_false_iff.mp hgood))),
        fun hbad => hgate _ _ _ rfl hnear ((agentServe_atom v op w8 a b).trans (if_pos hbad)), hform _ (.atom op w8 a b) rfl hnear⟩
    · exact congrArg _ (agentOp_barred hwho (by simp [State.barredFar, hfar, halive]))
  case directory =>
    intro e own nc
    refine ⟨conflict_u, fun hst hown hread => ?_, fun hst hown hovf => ?_, fun hst hnc hwrite hovf => ?_, fun hst hkind hovf => ?_,
      fun hst hhead => ⟨fun hk => ?_, fun hown => conflict_x_owns hst hhead hown, fun hnc hwrite => ?_, fun hnc hread => ?_⟩,
      addSharer_full e, addSharer_free e⟩
    · exact (conflict_s_other hst hown).trans (if_neg (Bool.eq_false_iff.mp hread))
    · refine (conflict_s_owns hst hown).trans ((if_neg (Bool.eq_false_iff.mp hovf)).trans ?_)
      simp only [List.isEmpty_iff]
      rfl
    · exact (conflict_s_other hst hnc.2).trans ((if_pos hwrite).trans (if_neg (Bool.eq_false_iff.mp hovf)))
    · by_cases hown : k = .rdX ∨ k = .upg
      · exact (conflict_s_owns hst hown).trans (if_pos hovf)
      · exact (conflict_s_other hst hown).trans ((if_pos (hkind.resolve_left hown)).trans (if_pos hovf))
    · subst hk
      exact conflict_x_read hst hhead
    · exact (conflict_x_other hst hhead hnc.1 hnc.2).trans (if_pos hwrite)
    · exact (conflict_x_other hst hhead hnc.1 hnc.2).trans (if_neg (Bool.eq_false_iff.mp hread))

end Sys2Proof.Machine

/-! ### Atomics, snoop answers, write-backs; probes, dead agents and region versions (R141, R142, R160, R221 to R247, R402) -/

namespace Sys2Proof.Machine

/-! #### Atomics at the home (R160, R228, R231, R284) -/

section Atom
variable {s : State} {p pa tag port : Nat} {who : Requester} {op : AtomOp} {w8 : Bool} {a b : U64} {mk : List Byte → List Ack}

theorem atomNew_of_lt {x y : Nat} (hx : x < 2 ^ (if w8 then 64 else 32)) (hy : y < 2 ^ (if w8 then 64 else 32)) (z : Nat) :
    let n := if w8 then 64 else 32
    atomNew .add w8 x y z = (x + y) % 2 ^ n ∧ atomNew .swap w8 x y z = y ∧
    atomNew .cas w8 x y z = (if x = z % 2 ^ n then y else x) ∧
    atomNew .max w8 x y z = if (BitVec.ofNat n x).toInt < (BitVec.ofNat n y).toInt then y else x := by
  intro n
  unfold atomNew
  simp only [Nat.mod_eq_of_lt hx, Nat.mod_eq_of_lt hy, BitVec.slt_iff_toInt_lt]
  exact ⟨rfl, trivial, rfl, rfl⟩

theorem doAtom_refused (href : s.frameRefuses p pa = true) : s.doAtom p pa who tag port op w8 a b mk = (.perm, [], s) := if_pos href

section Allowed
variable (hallow : s.frameRefuses p pa = false)
include hallow

theorem doAtom_known {k : AtomLog} (hknown : s.mem.atoms.find? (fun x => x.who = who && x.tag = tag && x.stack = (s.slotOf pa).1 &&
    x.rand = randOf (s.mapPa pa)) = some k) : s.doAtom p pa who tag port op w8 a b mk = (.ok, k.old, s.each (mk k.old) State.ack) := by
  unfold State.doAtom
  simp only [hallow, Bool.false_eq_true, if_false, hknown]

variable (hnew : s.mem.atoms.find? (fun x => x.who = who && x.tag = tag && x.stack = (s.slotOf pa).1 && x.rand = randOf (s.mapPa pa)) = none)
include hnew

theorem doAtom_poison (hpoison : (s.fetchLine pa).1.2 = true) :
    s.doAtom p pa who tag port op w8 a b mk = (.poison, [], (s.fetchLine pa).2) := by
  unfold State.doAtom
  simp only [hallow, Bool.false_eq_true, if_false, hnew]
  exact if_pos hpoison

theorem doAtom_applies (hclean : (s.fetchLine pa).1.2 = false) :
    let f := s.fetchLine pa
    let old := (f.1.1.drop (pa % 64)).take (atomWidth w8)
    s.doAtom p pa who tag port op w8 a b mk = (.ok, old,
      (f.2.onMem (fun g => { g with atoms :=
        { who := who, tag := tag, stack := (f.2.slotOf pa).1, rand := randOf (s.mapPa pa), old := old } :: g.atoms })).writeLine
          pa (toBytes (atomWidth w8) (atomNew op w8 (ofBytes old) a.toNat b.toNat)) (List.replicate (atomWidth w8) true) (mk old) port) := by
  unfold State.doAtom
  simp only [hallow, Bool.false_eq_true, if_false, hnew]
  exact if_neg (Bool.eq_false_iff.mp hclean)

end Allowed

end Atom

/-! #### Answers to snoops (R221, R223, R227) -/

section SnoopAnswer
variable {p : PartId} {rank line : Nat} {s : State} {bs : List Byte} {poison : Bool}

section Awaited
variable (hwait : s.awaits line (.agent p rank) = true)
include hwait

theorem exec_ackInv (hop : s.pendOp line = opSnpInv) :
    exec (.ackInv p rank line) s = .next (s.answered1 line (.agent p rank)).retryParked :=
  congrArg _ (if_pos (by simp [hwait, hop]))

theorem exec_fwdDone_dirty (hop : s.pendOp line = opSnpFwdS) : exec (.fwdDone p rank line (some bs) poison) s =
    .next (((s.putLine line bs poison).onPend line (fun q => { q with forwarded := true })).answered1 line (.agent p rank)).retryParked := by
  show execFwdDone p rank line (some bs) poison s = _
  unfold execFwdDone
  rw [if_neg (by simp [hwait, hop])]
  simp only [hop, if_true]

theorem exec_fwdDone_clean (hop : s.pendOp line = opSnpFwdS ∨ s.pendOp line = opSnpFwdX) : exec (.fwdDone p rank line none poison) s =
    .next ((s.onPend line (fun q => { q with forwarded := true })).answered1 line (.agent p rank)).retryParked :=
  if_neg (by rcases hop with h | h <;> simp [hwait, h])

theorem exec_fwdMiss (hop : s.pendOp line ≠ opSnpInv) (b : Bool) : exec (.fwdMiss p rank line b) s =
    .next (if b && !(s.dirEnt line).pend.all (fun q => q.owner.isNone) then s.onPend line (fun q => { q with wbWait := true })
      else ((s.onPend line (fun q => { q with owner := none })).answered1 line (.agent p rank)).retryParked) :=
  if_neg (by simp [hwait, hop])

theorem exec_recallData (hop : s.pendOp line = opSnpRecall ∨ s.pendOp line = opSnpClean) :
    exec (.recallData p rank line (some bs) poison) s = .next ((s.putLine line bs poison).answered1 line (.agent p rank)).retryParked ∧
    exec (.recallData p rank line none poison) s = .next (s.answered1 line (.agent p rank)).retryParked :=
  ⟨if_neg (by rcases hop with h | h <;> simp [hwait, h]), if_neg (by rcases hop with h | h <;> simp [hwait, h])⟩

end Awaited

theorem exec_fwdMiss_inv (hop : s.pendOp line = opSnpInv) (b : Bool) : exec (.fwdMiss p rank line b) s = .next s :=
  if_pos (by simp [hop])

theorem exec_unawaited (hwait : s.awaits line (.agent p rank) = false) :
    exec (.ackInv p rank line) s = .next s ∧ exec (.fwdDone p rank line (some bs) poison) s = .next s ∧
    (∀ b, exec (.fwdMiss p rank line b) s = .next s) ∧ exec (.recallData p rank line (some bs) poison) s = .next s :=
  ⟨congrArg _ (if_neg (by simp [hwait])), if_pos (by simp [hwait]), fun _ => if_pos (by simp [hwait]), if_pos (by simp [hwait])⟩

end SnoopAnswer

/-! #### Write-backs and evictions (R141, R142, R223, R236) -/

section WriteBack
variable {p : PartId} {rank line : Nat} {s : State} {dirty keep poison : Bool} {bs : List Byte}

theorem exec_wb_owner (halive : (s.rank p.val rank).dead = false) (hst : (s.dirEnt line).st = .x)
    (howner : (s.dirEnt line).ptrs.head? = some (.agent p rank)) :
    let put := if dirty then s.putLine line bs poison else s
    exec (.wb (.agent p rank) line dirty keep bs poison) s =
      .next (((if keep then put else put.setLine line .u []).cmpWb (.agent p rank) line .ok).settleLine line).retryParked :=
  (if_neg (by simp [halive])).trans (if_pos (by simp [hst, howner]))

theorem exec_wb_dead (hdead : (s.rank p.val rank).dead = true) :
    exec (.wb (.agent p rank) line dirty keep bs poison) s = .next (s.cmpWb (.agent p rank) line .deadAgent) := if_pos hdead

theorem exec_wb_stray (halive : (s.rank p.val rank).dead = false) (hst : (s.dirEnt line).st = .u) :
    exec (.wb (.agent p rank) line dirty keep bs poison) s =
      .next ((s.onNet (fun n => { n with lateData := n.lateData.filter (· ≠ (.agent p rank, line)) })).cmpWb (.agent p rank) line
        (if s.sweptLine (.agent p rank) line then .revoked else .ok)) :=
  (if_neg (by simp [halive])).trans ((if_neg (by simp [hst])).trans (if_neg (by simp [hst])))

theorem exec_evict (hst : (s.dirEnt line).st = .s) (hmem : Requester.agent p rank ∈ (s.dirEnt line).ptrs) :
    Goes (exec (.evict p rank line) s) (fun t =>
      t.dirEnt line = { s.dirEnt line with
        ptrs := (s.dirEnt line).ptrs.filter (· ≠ .agent p rank)
        st := if ((s.dirEnt line).ptrs.filter (· ≠ .agent p rank)).isEmpty && !(s.dirEnt line).ovf then .u else .s } ∧
      (∀ k, k ≠ line → t.dirEnt k = s.dirEnt k) ∧ t = { s with dir := t.dir }) :=
  ⟨_, if_neg (by simp [hst, hmem]), dirEnt_onDir_self _ _ _, fun _ hk => dirEnt_onDir_ne _ _ hk, rfl⟩

theorem exec_evict_not (hno : (s.dirEnt line).st ≠ .s ∨ Requester.agent p rank ∉ (s.dirEnt line).ptrs) :
    exec (.evict p rank line) s = .next s :=
  if_pos (by rcases hno with h | h <;> simp [h])

end WriteBack

/-- Settles O32: atomics at the home, answers to snoops, write-backs and evictions. -/
theorem atomicsSnoopsAndWriteBacks : Obligations.atomics_snoops_and_write_backs := by
  refine ⟨fun s p pa tag port who op w8 a b mk x y => ?atom, fun p rank line s bs poison => ?snoop, fun p rank line s keep poison bs => ?wb⟩
  case atom =>
    intro n m f old r known
    exact ⟨atomNew_of_lt, doAtom_refused, fun hallow k => doAtom_known hallow, doAtom_poison, doAtom_applies⟩
  case snoop =>
    intro me op came
    refine ⟨fun hwait => ⟨fun hop => ⟨exec_ackInv hwait hop, exec_fwdMiss_inv hop⟩, exec_fwdDone_dirty hwait, exec_fwdDone_clean hwait,
      fun hop => exec_fwdMiss hwait hop false, fun hop hcame => ?_, fun hop hcame => ?_, exec_recallData hwait⟩, exec_unawaited, rfl⟩
    · simp only [came] at hcame
      exact (exec_fwdMiss hwait hop true).trans (congrArg _ (if_neg (by simp only [hcame]; decide)))
    · simp only [came] at hcame
      exact (exec_fwdMiss hwait hop true).trans (congrArg _ (if_pos (by simp only [hcame]; decide)))
  case wb =>
    intro me e
    exact ⟨fun halive hst howner => ⟨exec_wb_owner halive hst howner, exec_wb_owner halive hst howner, exec_wb_owner halive hst howner⟩,
      fun hdead d => exec_wb_dead hdead, fun halive hst d => exec_wb_stray halive hst, exec_evict, exec_evict_not⟩

/-! #### Probes, dead agents and retry tokens (R226, R234, R235) -/

section Probe
variable {line : Nat} {s : State}

theorem exec_snoopProbe {q : Pend} (hpend : (s.dirEnt line).pend = some q)
    (hdue : s.now - q.round = 4 ∨ s.now - q.round = 9 ∨ s.now - q.round = 14) :
    exec (.snoopProbe line) s = .next (s.each q.await (fun s a => match a.1 with
      | .buffer _ => s
      | .agent p k =>
        let n := s.takeSnoopSeq p.val (s.rank p.val k).ep
        (n.2.originate p.val (homeHalf (line * 64)) {
          cls := 2, opcode := opSnpProbe, part := p.val, srcEp := s.rnd.endpoint, dstEp := (s.rank p.val k).ep, seq := n.1
          word2 := s.handleWord p.val line }).snoop line q p.val k a.2)) := by
  show execSnoopProbe line s = _
  unfold execSnoopProbe
  simp only [hpend]
  rw [if_neg (by rcases hdue with h | h | h <;> simp [h])] <;> rfl

theorem exec_snoopProbe_early {q : Pend} (hpend : (s.dirEnt line).pend = some q) (hearly : s.now - q.round < 4) :
    exec (.snoopProbe line) s = .next s := by
  show execSnoopProbe line s = _
  unfold execSnoopProbe
  simp only [hpend]
  exact if_pos (by simp [show s.now - q.round ≠ 4 by omega, show s.now - q.round ≠ 9 by omega, show s.now - q.round ≠ 14 by omega])

theorem exec_snoopProbe_none (hpend : (s.dirEnt line).pend = none) : exec (.snoopProbe line) s = .next s := by
  show execSnoopProbe line s = _
  unfold execSnoopProbe
  simp only [hpend]

end Probe

section Dead
variable {p : PartId} {rank : Nat} {s : State}

theorem exec_agentDeadDeclare (hvalid : (s.rank p.val rank).valid = true) (halive : (s.rank p.val rank).dead = false)
    (hdue : s.snoopOverdue p.val rank = true ∨ 16 ≤ s.net.noPath.look 0 (s.rank p.val rank).ep) :
    exec (.agentDeadDeclare p rank) s = .next (s.declareDead p.val rank) :=
  (if_neg (by simp [hvalid, halive])).trans (if_pos (by simpa using hdue))

theorem exec_agentDeadDeclare_not (hno : (s.rank p.val rank).dead = true ∨ (s.rank p.val rank).valid = false ∨
    (s.snoopOverdue p.val rank = false ∧ s.net.noPath.look 0 (s.rank p.val rank).ep < 16)) :
    exec (.agentDeadDeclare p rank) s = .next s := by
  by_cases hgone : (s.rank p.val rank).dead = true ∨ (s.rank p.val rank).valid = false
  · exact if_pos (by simpa using hgone)
  · rcases hno with h | h | ⟨hanswer, hpath⟩
    · exact absurd (.inl h) hgone
    · exact absurd (.inr h) hgone
    · exact (if_neg (by simpa using hgone)).trans (if_neg (by simp [hanswer, hpath]))

end Dead

section TokenLapse
variable {line : Nat} {s : State} {t : Token} {ts : List Token} {f : Nat}
  (htokens : (s.dirEnt line).tokens = t :: ts) (hheld : (s.dirEnt line).heldFrom = some f)
include htokens hheld

theorem exec_tokenLapse_eq : exec (.tokenLapse line) s =
    .next (if (s.dirEnt line).st != .busy && decide (f + 4 ≤ s.now) then ((s.dropToken line t).settleLine line).retryParked else s) := by
  show execTokenLapse line s = _
  unfold execTokenLapse
  simp only [htokens, hheld]

theorem exec_tokenLapse (hlate : f + 4 ≤ s.now) (hst : (s.dirEnt line).st ≠ .busy) :
    exec (.tokenLapse line) s = .next ((s.dropToken line t).settleLine line).retryParked :=
  (exec_tokenLapse_eq htokens hheld).trans (congrArg _ (if_pos (by simp [hst, hlate])))

theorem exec_tokenLapse_busy (hst : (s.dirEnt line).st = .busy) : exec (.tokenLapse line) s = .next s :=
  (exec_tokenLapse_eq htokens hheld).trans (congrArg _ (if_neg (by simp [hst])))

theorem exec_tokenLapse_early (hearly : s.now < f + 4) : exec (.tokenLapse line) s = .next s :=
  (exec_tokenLapse_eq htokens hheld).trans (congrArg _ (if_neg (by simp [hearly])))

end TokenLapse

/-! #### Versions of a region (R243, R245, R247) -/

section Region
variable {r : Fin 1024} {s : State}

/-- Some recall of a region's publish is open. -/
def State.recallOpen (s : State) (r : Nat) : Bool :=
  s.dir.any (fun e => e.2.pend.any (fun q => q.kind == .publish r) || e.2.waiting.any (fun w => w.2 == .publish r))

theorem region_publishResult (s : State) (home tag v k : Nat) : (s.publishResult home tag v).region k = s.region k := rfl

theorem exec_regionPublishComplete {v index from_ tag : Nat} {rest : List (Nat × Nat × Nat × Nat)}
    (hpub : (s.region r.val).publishing = (v, index, from_, tag) :: rest) (hmoved : from_ ≠ 0) (hlate : from_ < s.now)
    (hopen : s.recallOpen r.val = false) : Goes (exec (.regionPublishComplete r) s) (fun t =>
      t.region r.val = { s.region r.val with pinVersion := v, index := index, publishRound := s.rnd.counter, publishing := rest } ∧
      (∀ k, k ≠ r.val → t.region k = s.region k) ∧ t = { s with regions := t.regions, ctl := t.ctl }) := by
  unfold State.recallOpen at hopen
  have hexec : exec (.regionPublishComplete r) s = .next ((s.onRegion r.val (fun x => { x with
      pinVersion := v, index := index, publishRound := s.now, publishing := rest })).publishResult (s.region r.val).home tag v) := by
    show execRegionPublishComplete r s = _
    unfold execRegionPublishComplete
    simp only [hpub, hopen]
    exact if_neg (by simp [hmoved, hlate])
  exact ⟨_, hexec, (region_publishResult _ _ _ _ _).trans (region_onRegion_self _ _ _),
    fun _ hk => (region_publishResult _ _ _ _ _).trans (region_onRegion_ne _ _ hk), rfl⟩

theorem exec_regionPublishComplete_not (hno : (s.region r.val).publishing = [] ∨ s.recallOpen r.val = true) :
    exec (.regionPublishComplete r) s = .next s := by
  show execRegionPublishComplete r s = _
  unfold execRegionPublishComplete
  cases hpub : (s.region r.val).publishing with
  | nil => simp only [hpub]
  | cons x rest =>
    have hopen := hno.resolve_left (by simp [hpub])
    unfold State.recallOpen at hopen
    simp only [hpub, hopen]
    exact if_pos (by simp)

/-- A request under way has translated in a version of a region (R246). -/
def State.asked (s : State) (r v : Nat) : Bool := s.net.verPins.any (fun q => q.2 = (r, v) && s.outstanding q.1)

theorem exec_versionRetire {v : Nat} {y : Version} (hfind : (s.region r.val).versions.find? (fun y => y.num = v) = some y)
    (hold : v < (s.region r.val).pinVersion) (hpins : y.pins = 0) (htpins : y.tpins = 0) (hasked : s.asked r.val v = false) :
    let x := s.region r.val
    let left := (x.versions.filter (fun z => z.num ≠ v)).map (·.num)
    let gone := (x.table.filter (fun e => e.2.born.isSome && !left.any e.2.live)).map (·.1)
    let u := s.onRegion r.val (fun x => { x with
      versions := x.versions.filter (fun z => z.num ≠ v), table := gone.foldl (fun t k => t.put {} k {}) x.table })
    exec (.versionRetire r v) s = .next (u.each (u.regionLines r.val (fun f => decide (f ∈ gone))) (fun s l => s.trimLine x.home l)) := by
  unfold State.asked at hasked
  show execVersionRetire r v s = _
  unfold execVersionRetire
  simp only [hfind, hasked]
  exact if_neg (by simp [hold, hpins, htpins])

theorem exec_versionRetire_not {v : Nat} (hno : (s.region r.val).pinVersion ≤ v ∨ s.asked r.val v = true) :
    exec (.versionRetire r v) s = .next s := by
  show execVersionRetire r v s = _
  unfold execVersionRetire
  cases hfind : (s.region r.val).versions.find? (fun y => y.num = v) with
  | none => simp only [hfind]
  | some y =>
    simp only [hfind]
    refine if_pos ?_
    unfold State.asked at hno
    rcases hno with h | h
    · simp [h]
    · rw [h]; simp

theorem exec_regionInvalidate {d : Nat} (hdest : (s.region r.val).destroying = some d) (hvalid : (s.region r.val).valid = true)
    (hlate : d + 8 ≤ s.now) : let home := (s.region r.val).home
    exec (.regionInvalidate r) s = .next (s.each (s.regionLines r.val (fun _ => true)) (fun s l => s.trimLine home l)) := by
  show execRegionInvalidate r s = _
  unfold execRegionInvalidate
  simp only [hdest]
  exact if_neg (by simp [hvalid, hlate])

theorem exec_regionDrainLimit {d : Nat} (hdest : (s.region r.val).destroying = some d) (hvalid : (s.region r.val).valid = true)
    (hlate : d + 8 ≤ s.now) : Goes (exec (.regionDrainLimit r) s) (fun t => ∀ y ∈ (t.region r.val).versions, y.tpins = 0) := by
  have hexec : ∃ u : State, exec (.regionDrainLimit r) s =
      .next (u.onRegion r.val (fun x => { x with versions := x.versions.map (fun v => { v with tpins := 0 }) })) := by
    show ∃ u, execRegionDrainLimit r s = _
    unfold execRegionDrainLimit
    simp only [hdest]
    rw [if_neg (by simp [hvalid, hlate])]
    exact ⟨_, rfl⟩
  obtain ⟨u, hu⟩ := hexec
  refine ⟨_, hu, fun y hy => ?_⟩
  rw [region_onRegion_self] at hy
  obtain ⟨x, -, rfl⟩ := List.mem_map.mp hy
  rfl

theorem exec_region_kept (hno : (s.region r.val).destroying = none ∨ (s.region r.val).valid = false) :
    exec (.regionInvalidate r) s = .next s ∧ exec (.regionDrainLimit r) s = .next s := by
  show execRegionInvalidate r s = _ ∧ execRegionDrainLimit r s = _
  unfold execRegionInvalidate execRegionDrainLimit
  cases hdest : (s.region r.val).destroying with
  | none => exact ⟨by simp only [hdest], by simp only [hdest]⟩
  | some d =>
    have hvalid := hno.resolve_left (by simp [hdest])
    simp only [hdest]
    exact ⟨if_pos (by simp [hvalid]), if_pos (by simp [hvalid])⟩

end Region

/-- Settles O33: probes and their limit, retry tokens, publishes, retired versions and destroyed regions. -/
theorem probesDeadAgentsAndVersions : Obligations.probes_dead_agents_and_versions := by
  refine ⟨fun p rank line s q t ts f => ?agent, fun r s v index from_ tag rest => ?region⟩
  case agent =>
    intro x
    exact ⟨exec_snoopProbe, exec_snoopProbe_early, exec_snoopProbe_none, exec_agentDeadDeclare, exec_agentDeadDeclare_not,
      exec_tokenLapse, exec_tokenLapse_busy, exec_tokenLapse_early⟩
  case region =>
    intro x open_
    refine ⟨exec_regionPublishComplete, exec_regionPublishComplete_not, fun y hfind hold hpins htpins hasked => ?_, exec_versionRetire_not,
      fun d hdest hvalid hlate => ⟨exec_regionInvalidate hdest hvalid hlate, exec_regionDrainLimit hdest hvalid hlate⟩, exec_region_kept⟩
    intro left gone u
    exact exec_versionRetire hfind hold hpins htpins hasked

end Sys2Proof.Machine

/-! ### Porward links: packets, control blocks, training, loss and width (R365 to R396) -/

namespace Sys2Proof.Machine

/-! #### Packets and the inputs of a link (R373, R391, R394 to R396) -/

section LinkPacket
variable {l : LinkId} {seq : Nat} {pkt : Packet} {s : State}

theorem exec_linkPacketRx_down (hdown : (s.link l.val).trainedUp = false) (ack : Option Nat) (a b : Bool) :
    exec (.linkPacketRx l seq ack a b pkt) s = .next s :=
  if_pos (by simp [hdown])

section Trained
variable (hup : (s.link l.val).trainedUp = true)
include hup

theorem exec_linkPacketRx_expected (hseq : seq = (s.link l.val).expect) :
    let u := ((s.onLink l.val (fun x => { x with expect := (x.expect + 1) % 65536, naking := false })).emit (.control l.val 2 seq)).opEvent 0x10A
      { cls := some pkt.cls, part := some pkt.part }
    exec (.linkPacketRx l seq none true true pkt) s = .next (if (s.link l.val).st = .probation then
      u.returnCredit l.val (2 * pkt.cls + b2n pkt.esc) pkt.units else (u.route l.val pkt).retryEgress) :=
  (if_neg (by simp [hup])).trans (if_neg (by simp [hseq]))

theorem exec_linkPacketRx_outOfOrder (hseq : seq ≠ (s.link l.val).expect) (ack : Option Nat) (hnak : (s.link l.val).naking = false) :
    exec (.linkPacketRx l seq ack true true pkt) s =
      .next ((s.onLink l.val (fun x => { x with dirty := x.dirty || false || false })).sendNak l.val) :=
  (if_neg (by simp [hup])).trans ((if_pos (by simp [hseq])).trans (congrArg _ (if_neg (by simp [hnak]))))

theorem exec_linkPacketRx_damaged (hnak : (s.link l.val).naking = true) (ack : Option Nat) :
    exec (.linkPacketRx l seq ack false true pkt) s =
      .next ((s.countLink l.val lcCrcFail).onLink l.val (fun x => { x with dirty := x.dirty || false || true })) :=
  (if_neg (by simp [hup])).trans ((if_pos (by simp)).trans (congrArg _ (if_pos hnak)))

end Trained

end LinkPacket

section Input
variable {l : LinkId} {vc : Fin 8} {s : State} {e : Input}

theorem exec_packetForward (hold : s.oldest l.val vc.val = some e) : exec (.packetForward l vc) s = .next (s.forward l.val e) := by
  show execPacketForward l vc s = _
  unfold execPacketForward
  simp only [hold]

theorem exec_hopAgeDrop (hold : s.oldest l.val vc.val = some e) (hlate : e.round + 8 ≤ s.now) : exec (.hopAgeDrop l vc) s =
    .next (((s.onLink l.val (fun x => { x with inputs := x.inputs.erase e })).countNet 5).returnCredit l.val e.vc e.pkt.units) := by
  show execHopAgeDrop l vc s = _
  unfold execHopAgeDrop
  simp only [hold]
  exact if_neg (Nat.not_lt.mpr hlate)

theorem exec_hopAgeDrop_early (hold : s.oldest l.val vc.val = some e) (hearly : s.now < e.round + 8) : exec (.hopAgeDrop l vc) s = .next s := by
  show execHopAgeDrop l vc s = _
  unfold execHopAgeDrop
  simp only [hold]
  exact if_pos hearly

theorem exec_input_empty (hnone : s.oldest l.val vc.val = none) :
    exec (.packetForward l vc) s = .next s ∧ exec (.hopAgeDrop l vc) s = .next s := by
  show execPacketForward l vc s = _ ∧ execHopAgeDrop l vc s = _
  unfold execPacketForward execHopAgeDrop
  simp only [hnone, and_self]

end Input

/-! #### Control blocks (R365, R374, R392) -/

section Control
variable {l : LinkId} {vc : Fin 8} {seq units : Nat} {block : List Byte} {s : State}

theorem exec_idle_good (hok : blockOk block = true) : exec (.idle ⟨l, block⟩) s = .next s :=
  congrArg _ (if_pos (by simp [hok]))

theorem exec_idle_bad (hbad : blockOk block = false) (hup : (s.link l.val).trainedUp = true ∨ (s.link l.val).st = .training) :
    exec (.idle ⟨l, block⟩) s = .next (s.countLink l.val lcCtrlBad) :=
  congrArg _ (if_neg (by rcases hup with h | h <;> simp [hbad, h]))

theorem exec_idle_dark (hdown : (s.link l.val).trainedUp = false) (hst : (s.link l.val).st ≠ .training) :
    exec (.idle ⟨l, block⟩) s = .next s :=
  congrArg _ (if_pos (by simp [hdown, hst]))

theorem exec_nak (hup : (s.link l.val).trainedUp = true) (hst : (s.link l.val).st ≠ .paused) :
    exec (.nak l seq) s = .next (((s.countLink l.val lcNakRcvd).onLink l.val (fun x => { x with dirty := true })).resend l.val
      (fun k => seqLe seq k)) := by
  refine (if_neg (by simp [hup])).trans (congrArg _ (if_neg ?_))
  rw [State.countLink, link_onLink_self, link_onLink_self]
  exact hst

theorem exec_control_up (hup : (s.link l.val).trainedUp = true) :
    exec (.ack l seq) s = .next (s.onLink l.val (fun x => { x with replay := x.replay.filter (fun e => !seqLe e.1 seq) })).retryEgress ∧
    exec (.credit l vc units) s = .next (s.onLink l.val (fun x => { x with
      credits := x.credits.put 0 vc.val (min x.vcUnits (x.credit vc.val + units)) })).retryEgress :=
  ⟨congrArg _ (if_pos hup), if_neg (by simp [hup])⟩

theorem exec_control_down (hdown : (s.link l.val).trainedUp = false) :
    exec (.ack l seq) s = .next s ∧ exec (.nak l seq) s = .next s ∧ exec (.credit l vc units) s = .next s :=
  ⟨congrArg _ (if_neg (by simp [hdown])), if_pos (by simp [hdown]), if_pos (by simp [hdown])⟩

end Control

/-- Settles O34: a link takes the packet it expects, forwards or drops the oldest, and obeys its control blocks. -/
theorem linkPacketsAndControlBlocks : Obligations.link_packets_and_control_blocks := by
  refine ⟨fun l seq pkt s => ?packet, fun l vc seq units block s e => ?control⟩
  case packet =>
    intro n x
    refine ⟨fun hup hseq => ?_, exec_linkPacketRx_outOfOrder, exec_linkPacketRx_damaged, exec_linkPacketRx_down⟩
    have hexec := exec_linkPacketRx_expected (pkt := pkt) hup hseq
    exact ⟨fun hst => hexec.trans (congrArg _ (if_neg hst)), fun hst => hexec.trans (congrArg _ (if_pos hst))⟩
  case control =>
    intro n x
    exact ⟨fun hold => ⟨exec_packetForward hold, exec_hopAgeDrop hold, exec_hopAgeDrop_early hold⟩, exec_input_empty,
      exec_idle_good, exec_idle_bad, exec_idle_dark,
      fun hup => ⟨(exec_control_up (vc := vc) (units := units) hup).1, exec_nak hup, (exec_control_up (seq := seq) hup).2⟩, exec_control_down⟩

/-! #### Training (R47, R370 to R372) -/

section Training
variable {l : LinkId} {lanes : BitVec 8} {s : State}

theorem exec_lightDetect (hst : (s.link l.val).st = .dark) (hslow : (s.link l.val).slow = false) (hlit : 4 ≤ litCount lanes) :
    let u := (s.onLink l.val (fun x => { x with lit := lanes })).startTraining l.val
    exec (.lightDetect l lanes) s = .next (u.emit (.training l.val (u.myBlock l.val false))) :=
  if_pos (by simp [hst, hslow, hlit])

theorem exec_lightDetect_few (hlit : litCount lanes < 4) : Goes (exec (.lightDetect l lanes) s) (fun t =>
    t.link l.val = { s.link l.val with lit := lanes } ∧ (∀ k, k ≠ l.val → t.link k = s.link k) ∧ t = { s with links := t.links }) :=
  ⟨_, if_neg (by simp [hlit]), link_onLink_self _ _ _, fun _ hk => link_onLink_ne _ _ hk, rfl⟩

section Block
variable {b : TrainBlock} (hst : (s.link l.val).st = .training) (htrained : (s.link l.val).trained = false) (hstage : (s.link l.val).stage ≠ 5)
include hst htrained hstage

theorem exec_trainingBlock_bad (hcrc : b.crcOk = false) :
    exec (.trainingBlock l b) s = .next ((s.countLink l.val lcCtrlBad).trainFailed l.val) :=
  (if_neg (by simp [hst, htrained, hstage])).trans (if_pos (by simp [hcrc]))

/-- The link after an offer in agreement (R371). -/
def Link.agreed (x : Link) (b : TrainBlock) : Link :=
  { x with
    stage := 4, offered := true, confirmed := x.confirmed || b.confirm, peerOffer := some b, major := 1
    minor := if b.majorMax = 1 then min 0 b.minor else 0
    lanes := x.lit &&& b.laneMask, peerEp := b.endpoint, peerClass := b.deviceClass, peerLink := b.link
    vcUnits := b.vcUnits }

theorem exec_trainingBlock_offer (hcrc : b.crcOk = true) (hmin : b.majorMin ≤ 1) (hmax : 1 ≤ b.majorMax) (hrsvd : b.rsvd = false)
    (hunits : 17 ≤ b.vcUnits) (hlit : 4 ≤ litCount ((s.link l.val).lit &&& b.laneMask)) (hoffer : b.confirm = false)
    (hunconf : (s.link l.val).confirmed = false) :
    let u := s.onLink l.val (fun x => x.agreed b)
    exec (.trainingBlock l b) s = .next (u.emit (.training l.val (u.myBlock l.val true))) := by
  refine (if_neg (by simp [hst, htrained, hstage])).trans ((if_neg (by simp [hcrc])).trans
    ((if_neg (by simp only [Bool.or_eq_true, decide_eq_true_eq]; omega)).trans ((if_neg (by simp [hrsvd, hunits, hlit])).trans ?_)))
  simp only [hst, Bool.false_and, show (LState.training == LState.versionMismatch) = false from rfl,
    Bool.false_eq_true, if_false]
  refine congrArg _ (if_neg ?_)
  rw [link_emit', link_onLink_self]
  simp [hunconf, hoffer]

end Block

theorem exec_delayReq (hst : (s.link l.val).st = .training ∨ (s.link l.val).st = .paused) (stamp : U64) :
    exec (.delayReq l stamp) s = .next (s.emit (.control l.val 6 stamp.toNat)) := by
  show execDelayReq l stamp s = _
  unfold execDelayReq
  rcases hst with h | h <;> simp only [h]

theorem exec_delayReq_up (hst : (s.link l.val).st = .up) (stamp : U64) : exec (.delayReq l stamp) s = .next s := by
  show execDelayReq l stamp s = _
  unfold execDelayReq
  simp only [hst]

theorem exec_delayRsp {rt ta : Nat} (hst : (s.link l.val).st = .paused) (hmore : (s.link l.val).samples.length < 64) :
    Goes (exec (.delayRsp l rt ta) s) (fun t =>
      (t.link l.val).samples = (s.link l.val).samples ++ [(rt - ta) / 2] ∧ t = { s with links := t.links, out := t.out }) := by
  let u := s.onLink l.val (fun x => { x with samples := x.samples ++ [(rt - ta) / 2] })
  have hu : (u.link l.val).samples = (s.link l.val).samples ++ [(rt - ta) / 2] := congrArg Link.samples (link_onLink_self _ _ _)
  refine ⟨if (u.link l.val).samples.length < 64 then u.emit (.control l.val 5 0) else u,
    if_neg (by simp [hst, hmore]), ?_⟩
  split
  · exact ⟨hu, rfl⟩
  · exact ⟨hu, rfl⟩

theorem exec_delayRsp_up {rt ta : Nat} (hst : (s.link l.val).st = .up) : exec (.delayRsp l rt ta) s = .next s :=
  if_pos (by simp [hst])

theorem exec_trainingComplete (hst : (s.link l.val).st = .training) (hstage : (s.link l.val).stage = 5)
    (hall : (s.link l.val).samples.length = 64) : Goes (exec (.trainingComplete l) s) (fun t =>
      t.link l.val = { s.link l.val with
        trained := true, fails := 0, slow := false, stage := 0, delay := min 511 (median (s.link l.val).samples / 1000), samples := [] } ∧
      t = { s with links := t.links }) :=
  ⟨_, if_pos (by simp [hst, hstage, hall]), link_onLink_self _ _ _, rfl⟩

theorem exec_trainingComplete_not (hmore : (s.link l.val).samples.length < 64) : exec (.trainingComplete l) s = .next s :=
  if_neg (by simp [hmore.ne])

theorem exec_linkUp (hst : (s.link l.val).st = .probation) (hclean : 4 ≤ (s.link l.val).clean) : exec (.linkUp l) s =
    .next (s.onLink l.val (fun x => { x with st := .up, stateRound := s.now })).touchFlood :=
  if_pos (by simp [hst, hclean])

theorem exec_linkUp_not (hno : (s.link l.val).st ≠ .probation ∨ (s.link l.val).clean < 4) : exec (.linkUp l) s = .next s :=
  if_neg (by rcases hno with h | h <;> simp [h])

theorem exec_trainingStageTimeout (hst : (s.link l.val).st = .training) (htrained : (s.link l.val).trained = false) :
    exec (.trainingStageTimeout l) s = .next (s.trainFailed l.val) :=
  congrArg _ (if_pos (by simp [hst, htrained]))

theorem exec_trainingStageTimeout_not (hst : (s.link l.val).st ≠ .training) : exec (.trainingStageTimeout l) s = .next s :=
  congrArg _ (if_neg (by simp [hst]))

theorem exec_trainingRetry (hst : (s.link l.val).st = .dark) (hslow : (s.link l.val).slow = true)
    (hlate : (s.link l.val).holdFrom + 65536 ≤ s.now) (hlit : 4 ≤ litCount (s.link l.val).lit) : exec (.trainingRetry l) s =
      .next ((s.startTraining l.val).emit (.training l.val ((s.startTraining l.val).myBlock l.val false))) :=
  if_pos (by simp [hst, hslow, hlate, hlit])

theorem exec_trainingRetry_not (hno : (s.link l.val).slow = false ∨ s.now < (s.link l.val).holdFrom + 65536) :
    exec (.trainingRetry l) s = .next s :=
  if_neg (by rcases hno with h | h <;> simp [h])

end Training

/-! #### Loss and hold (R374, R376, R377) -/

section Loss
variable {l : LinkId} {s : State}

theorem linkDown_untrained {n : Nat} (hdown : (s.link n).trainedUp = false) (cause : Nat) : s.linkDown n cause = s :=
  if_pos (by simp [hdown])

/-- The rounds of a link's DOWN declarations within 4,096 rounds, after one more (R377). -/
def State.downsAfter (s : State) (n : Nat) : List Nat := (s.link n).downs.filter (fun r => decide (s.now < r + 4096)) ++ [s.now]

theorem link_event (code d0 d1 n : Nat) : (s.event code d0 d1).link n = s.link n := rfl

/-- A trained link that is declared DOWN: its record, and pool memory as it was (R376, R377). -/
theorem linkDown_trained {n : Nat} (hup : (s.link n).trainedUp = true) (cause : Nat) :
    let t := s.linkDown n cause
    let x := s.link n
    t.link n = { st := if decide (8 ≤ (s.downsAfter n).length) then .hold else .dark, downCause := cause, stateRound := s.now + 1
                 downs := s.downsAfter n, holdFrom := s.now, delay := x.delay, peerEp := x.peerEp, peerClass := x.peerClass
                 peerLink := x.peerLink, counters := x.counters.bump lcDown, widened := x.widened, lit := x.lit } ∧
      t.mem = s.mem := by
  intro t x
  simp only [t, x, State.linkDown, hup, Bool.not_true, Bool.false_eq_true, if_false, State.countLink, State.dropLinkRoutes, State.touchFlood]
  generalize hu : (if (cause = 1 || cause = 2 || cause = 7) = true then s else s.emit (.control n 8 cause)) = u
  have hlink : u.link n = s.link n := by rw [← hu]; split <;> rfl
  have hmem : u.mem = s.mem := by rw [← hu]; split <;> rfl
  have hnow : ∀ f, (u.onLink n f).now = s.now := fun f => by rw [← hu]; split <;> rfl
  simp only [hnow, State.downsAfter]
  by_cases hmany : 8 ≤ (List.filter (fun r => decide (s.now < r + 4096)) (s.link n).downs ++ [s.now]).length
  · simp only [hmany, decide_true, if_true, link_event, link_onNet', link_onRnd', link_onLink_self, hlink]
    exact ⟨trivial, hmem⟩
  · simp only [hmany, decide_false, Bool.false_eq_true, if_false, link_onNet', link_onRnd', link_onLink_self, hlink]
    exact ⟨trivial, hmem⟩

theorem exec_retrainTimeout (hst : (s.link l.val).st = .paused) : exec (.retrainTimeout l) s = .next (s.linkDown l.val 4) :=
  congrArg _ (if_pos hst)

theorem exec_retrainTimeout_not (hst : (s.link l.val).st ≠ .paused) : exec (.retrainTimeout l) s = .next s :=
  congrArg _ (if_neg hst)

theorem exec_holdExpiry (hst : (s.link l.val).st = .hold) (hlate : (s.link l.val).holdFrom + 65536 ≤ s.now) :
    Goes (exec (.holdExpiry l) s) (fun t => (t.link l.val).st = .dark ∧ (t.link l.val).downs = [] ∧ t = { s with links := t.links }) := by
  refine ⟨_, congrArg Host.Outcome.next (if_pos (by simp [hst, hlate])), ?_, ?_, rfl⟩
  · rw [State.setLink, link_onLink_self]
  · rw [State.setLink, link_onLink_self, link_onLink_self]

theorem exec_holdExpiry_not (hst : (s.link l.val).st ≠ .hold) : exec (.holdExpiry l) s = .next s :=
  congrArg _ (if_neg (by simp [hst]))

theorem exec_lossOfLight_down {lanes : BitVec 8} (hlit : litCount lanes < 4) (hup : (s.link l.val).trainedUp = true) :
    exec (.lossOfLight l lanes) s = .next ((s.onLink l.val (fun x => { x with lit := lanes })).linkDown l.val 1) :=
  (if_neg (Nat.not_le.mpr hlit)).trans (if_pos (by rw [link_onLink_self]; exact hup))

theorem exec_lossOfLight_kept {lanes : BitVec 8} (hlit : 4 ≤ litCount lanes) :
    exec (.lossOfLight l lanes) s = .next (s.onLink l.val (fun x => { x with lit := lanes })) := if_pos hlit

end Loss

/-- Settles O35: a link trains in stages, and goes down, into hold and dark again. -/
theorem linkTrainingLossAndHold : Obligations.link_training_loss_and_hold := by
  refine ⟨fun l lanes b stamp rt ta s => ?training, fun l lanes cause s => ?loss⟩
  case training =>
    intro n x
    refine ⟨exec_lightDetect, exec_lightDetect_few, fun hst htrained hstage hcrc hmin hmax hrsvd hunits hlit hoffer hunconf => ?_,
      exec_trainingBlock_bad, fun hst => exec_delayReq hst stamp, fun hst => exec_delayReq_up hst stamp, exec_delayRsp, exec_delayRsp_up,
      exec_trainingComplete, exec_trainingComplete_not, exec_linkUp, exec_linkUp_not⟩
    have hlink : (s.onLink l.val (fun x => x.agreed b)).link l.val = x.agreed b := link_onLink_self _ _ _
    refine ⟨_, exec_trainingBlock_offer hst htrained hstage hcrc hmin hmax hrsvd hunits hlit hoffer hunconf, ?_⟩
    simp only [n, link_emit', hlink]
    exact ⟨rfl, rfl, rfl, rfl, rfl, hst, rfl⟩
  case loss =>
    intro n x u
    refine ⟨exec_trainingStageTimeout, exec_trainingStageTimeout_not, exec_trainingRetry, exec_trainingRetry_not, rfl, rfl,
      exec_retrainTimeout, exec_retrainTimeout_not, linkDown_untrained, fun hup k => ?_, exec_holdExpiry, exec_holdExpiry_not,
      exec_lossOfLight_down, exec_lossOfLight_kept⟩
    obtain ⟨hlink, hmem⟩ := linkDown_trained hup k
    intro t
    have hlen : (s.downsAfter n).length = (x.downs.filter (fun r => decide (s.rnd.counter < r + 4096))).length + 1 := List.length_append
    simp only [t, hlink, hmem, hlen]
    by_cases hmany : 8 ≤ (x.downs.filter (fun r => decide (s.rnd.counter < r + 4096))).length + 1 <;> simp [hmany]

/-! #### Lanes and retraining (R373, R374, R378 to R381) -/

section Lanes
variable {l : LinkId} {lane : Fin 8} {mask : BitVec 8} {s : State}

/-- Two changes of a link that agree on it are the same (R382). -/
theorem onLink_congr {n : Nat} {f g : Link → Link} (h : f (s.link n) = g (s.link n)) : s.onLink n f = s.onLink n g := by
  unfold State.onLink SMap.mod
  rw [show SMap.look {} s.links n = s.link n from rfl, h]

theorem exec_replayTimeout (hst : (s.link l.val).st = .up) (hreplay : (s.link l.val).replay ≠ []) :
    exec (.replayTimeout l) s = .next (s.resend l.val (fun _ => true)) :=
  congrArg _ (if_pos (by simp [hst, hreplay]))

theorem exec_replayTimeout_not (hreplay : (s.link l.val).replay = []) : exec (.replayTimeout l) s = .next s :=
  congrArg _ (if_neg (by simp [hreplay]))

theorem exec_nakResend (hup : (s.link l.val).trainedUp = true) (hnak : (s.link l.val).naking = true) :
    exec (.nakResend l) s = .next (s.sendNak l.val) :=
  congrArg _ (if_pos (by simp [hup, hnak]))

theorem exec_nakResend_not (hnak : (s.link l.val).naking = false) : exec (.nakResend l) s = .next s :=
  congrArg _ (if_neg (by simp [hnak]))

section Up
variable (hst : (s.link l.val).st = .up)
include hst

theorem trainedUp_of_up : (s.link l.val).trainedUp = true := by simp [Link.trainedUp, hst]

theorem exec_laneFault (hlane : (s.link l.val).lanes.getLsbD lane.val = true) : exec (.laneFault l lane) s =
    let m := (s.link l.val).lanes &&& ~~~((1 : BitVec 8) <<< lane.val)
    if litCount m < 4 then .next (s.linkDown l.val 5)
    else .next ((s.onLink l.val (fun x => { x with
      removed := x.removed ||| (1 <<< lane.val), laneClean := x.laneClean.put 0 lane.val 0, dirty := true })).askRetrain l.val m) := by
  show execLaneFault l lane s = _
  unfold execLaneFault
  simp only [hst, reduceCtorEq, if_false]
  exact (if_neg (by simp [trainedUp_of_up hst])).trans (if_neg (by simp [hlane]))

theorem exec_retrainReq (hlit : 4 ≤ litCount mask) : exec (.retrainReq l mask) s =
    .next (((s.countLink l.val lcRetrain).onLink l.val (fun x => { x with
      newMask := mask, samples := [], dirty := true, prob := x.prob || false })).setLink l.val .paused) := by
  show execRetrainReq l mask s = _
  unfold execRetrainReq
  rw [if_neg (by simp [trainedUp_of_up hst])]
  simp only [hst, reduceCtorEq, if_false, Nat.not_lt.mpr hlit]
  refine congrArg (fun u => Host.Outcome.next (State.setLink u l.val .paused)) (onLink_congr ?_)
  rw [State.countLink, link_onLink_self]
  simp only [hst]
  rfl

theorem exec_retrainReq_few (hlit : litCount mask < 4) : exec (.retrainReq l mask) s = .next (s.linkDown l.val 5) := by
  show execRetrainReq l mask s = _
  unfold execRetrainReq
  rw [if_neg (by simp [trainedUp_of_up hst])]
  simp only [hst, reduceCtorEq, if_false, hlit, if_true]

theorem exec_laneRestore (hgone : (s.link l.val).removed.getLsbD lane.val = true) (hclean : 4096 ≤ (s.link l.val).laneClean.look 0 lane.val)
    (hfirst : (s.link l.val).widened = 0) : exec (.laneRestore l lane) s =
      .next ((s.onLink l.val (fun x => { x with widened := s.now + 1 })).askRetrain l.val ((s.link l.val).lanes ||| (1 <<< lane.val))) :=
  if_pos (by simp [hst, hgone, hclean, hfirst])

end Up

theorem exec_laneFault_down (hdown : (s.link l.val).trainedUp = false) : exec (.laneFault l lane) s = .next s :=
  if_pos (by simp [hdown])

theorem exec_fastRetrainDone {delay : Nat} (hst : (s.link l.val).st = .paused) (hprob : (s.link l.val).prob = false)
    (hsame : (s.link l.val).lanes = (s.link l.val).newMask) :
    let u := (s.onLink l.val (fun x => { x with
      lanes := x.newMask, removed := x.removed &&& ~~~x.newMask, delay := min 511 delay, samples := [], prob := false
      newMask := 0 })).setLink l.val .up
    exec (.fastRetrainDone l delay) s =
      .next ((u.sendNak l.val).onLink l.val (fun y => { y with naking := (s.link l.val).naking })).retryEgress := by
  show execFastRetrainDone l delay s = _
  unfold execFastRetrainDone
  rw [if_neg (not_not.mpr hst)]
  simp only [hprob, Bool.false_eq_true, if_false, hsame, if_true]

theorem exec_fastRetrainDone_not {delay : Nat} (hst : (s.link l.val).st ≠ .paused) : exec (.fastRetrainDone l delay) s = .next s :=
  if_pos hst

theorem exec_laneRestore_not (hclean : (s.link l.val).laneClean.look 0 lane.val < 4096) : exec (.laneRestore l lane) s = .next s :=
  if_neg (by simp [hclean])

end Lanes

/-- Settles O36: replays, lane faults, fast retrains and failed engines. -/
theorem lanesAndRetraining : Obligations.lanes_and_retraining := by
  intro l lane mask delay oe s n x m
  exact ⟨exec_replayTimeout, exec_replayTimeout_not, exec_nakResend, exec_nakResend_not,
    fun hst hlane hlit => (exec_laneFault hst hlane).trans (if_neg (Nat.not_lt.mpr hlit)),
    fun hst hlane hlit => (exec_laneFault hst hlane).trans (if_pos hlit), exec_laneFault_down, exec_retrainReq, exec_retrainReq_few,
    exec_fastRetrainDone, exec_fastRetrainDone_not, exec_laneRestore, exec_laneRestore_not, rfl⟩

end Sys2Proof.Machine

/-! ### Sessions, flows, routes and link dies (R22, R41, R129, R234, R397 to R413, R456 to R475) -/

namespace Sys2Proof.Machine

/-! #### Sessions (R469 to R472) -/

section Session
variable {p : PartId} {ep rank sid frag frags : Nat} {nonce ss : List U64} {s : State} {y : Session}

theorem exec_sessionHello_unserved (hno : (s.part p.val).live = false ∨ s.leaseHeld = false) :
    exec (.sessionHello p ep rank sid frag frags nonce) s = .next s :=
  if_pos (by rcases hno with h | h <;> simp [h])

section Served
variable (hlive : (s.part p.val).live = true) (hlease : s.leaseHeld = true)
include hlive hlease

theorem exec_sessionHello_first (hnone : (s.part p.val).session = none) : exec (.sessionHello p ep rank sid 0 frags nonce) s =
    if 4 ≤ (s.recentStarts p.val).length then .next (s.sendDone p.val ep sid .busyRetry)
    else .next (s.onPart p.val (fun x => { x with
      starts := s.recentStarts p.val ++ [s.now]
      session := some { sid := sid, ep := ep, rank := rank, frags := 1, total := frags, helloRound := s.now, nonce := nonce } })) := by
  show execSessionHello p ep rank sid 0 frags nonce s = _
  unfold execSessionHello
  simp only [hnone]
  exact (if_neg (by simp [hlive, hlease])).trans (if_neg (not_not.mpr rfl))

variable (hsession : (s.part p.val).session = some y)
include hsession

theorem exec_sessionHello_next (hsid : y.sid = sid) (hep : y.ep = ep) (hrank : y.rank = rank) (hoffer : y.offer = none) (hfirst : frag ≠ 0)
    (hfrag : frag = y.frags) (hmore : frag < y.total) : exec (.sessionHello p ep rank sid frag frags nonce) s =
      .next (s.onPart p.val (fun x => { x with
        session := some { y with frags := y.frags + 1, helloRound := s.now, nonce := y.nonce ++ nonce } })) := by
  show execSessionHello p ep rank sid frag frags nonce s = _
  unfold execSessionHello
  simp only [hsession]
  exact (if_neg (by simp [hlive, hlease])).trans ((if_pos (by simp [hsid, hep, hrank, hoffer, hfirst])).trans
    (if_pos (by simp only [Bool.and_eq_true, decide_eq_true_eq]; exact ⟨hfrag, hmore⟩)))

theorem exec_sessionHello_second (hsid : y.sid ≠ sid) :
    exec (.sessionHello p ep rank sid frag frags nonce) s = .next (s.sendDone p.val ep sid .busyRetry) := by
  show execSessionHello p ep rank sid frag frags nonce s = _
  unfold execSessionHello
  simp only [hsession]
  exact (if_neg (by simp [hlive, hlease])).trans ((if_neg (by simp [hsid])).trans (if_neg (by simp [hsid])))

end Served

@[simp] theorem opEvent_parts (s : State) (e : Nat) (x : OpEvt) (n : Nat) : (s.opEvent e x n).parts = s.parts := by rw [opEvent_eq]

@[simp] theorem linkSend_parts (s : State) (l : Nat) (k : Packet) : (s.linkSend l k).parts = s.parts := by
  simp only [State.linkSend, emit_parts, opEvent_parts, onLink_parts]

@[simp] theorem mcSend_parts (s : State) (k : Packet) (outs : List Nat) : (s.mcSend k outs).2.parts = s.parts := by
  unfold State.mcSend
  suffices h : ∀ r : List Nat × State, (outs.foldl (fun (r : List Nat × State) l =>
      if (r.2.link l).takes (2 * k.cls + 1) (k.units + 1) then
        (r.1, r.2.linkSend l { k with esc := true, escDown := k.escDown || r.2.isDown l }) else (r.1 ++ [l], r.2)) r).2.parts = r.2.parts from
    h ([], s)
  induction outs with
  | nil => exact fun _ => rfl
  | cons l ls ih =>
    intro r
    rw [List.foldl_cons, ih]
    split
    · exact linkSend_parts _ _ _
    · rfl

@[simp] theorem launch_parts (s : State) (k : Packet) : (s.launch k).parts = s.parts := by
  unfold State.launch
  split
  · dsimp only
    split
    · rfl
    · split <;> simp
  · split
    · rfl
    · split <;> simp

/-- A session packet leaves each partition's session, pool memory and the queue as they are. -/
theorem sendSession_keeps (s : State) (p ep msg frag frags sid : Nat) (body : List Byte) :
    let t := s.sendSession p ep msg frag frags sid body
    (t.part p).session = (s.part p).session ∧ t.mem = s.mem ∧ t.pending = s.pending := by
  refine ⟨?_, ?_, pending_of_gauge (sendSession_gauge _ _ _ _ _ _ _ _)⟩
  · simp only [State.sendSession, State.part, State.launchFab, launch_parts, onNet_parts]
    show ((s.onPart p (fun x => { x with
      snoopSeq := x.snoopSeq.put 0 (2 ^ 25 + ep) (((s.part p).snoopSeq.look 0 (2 ^ 25 + ep) + 1) % 65536) })).part p).session = _
    rw [part_onPart_self]
    rfl
  · simp only [State.sendSession, launchFab_mem, takeSnoopSeq_mem]

section Outstanding
variable (hsession : (s.part p.val).session = some y) (hlease : s.leaseHeld = true)
include hsession hlease

theorem exec_sessionOffer (hoffer : y.offer = none) (hall : y.total ≤ y.frags) : Goes (exec (.sessionOffer p) s) (fun t =>
    (t.part p.val).session.map (·.offer) = some (some s.rnd.counter) ∧ t.mem = s.mem ∧ t.pending = s.pending) := by
  show Goes (execSessionOffer p s) _
  unfold execSessionOffer
  simp only [hsession]
  rw [if_neg (by simp [hlease, hoffer, hall])]
  refine ⟨_, rfl, ?_, ?_, ?_⟩
  · rw [each_keeps (fun t => (t.part p.val).session) (fun s i => (sendSession_keeps s _ _ _ _ _ _ _).1), part_onPart_self]
    rfl
  · rw [each_keeps State.mem (fun s i => (sendSession_keeps s _ _ _ _ _ _ _).2.1)]
    rfl
  · rw [each_keeps State.pending (fun s i => (sendSession_keeps s _ _ _ _ _ _ _).2.2)]
    rfl

theorem exec_sessionConfirm (hsid : y.sid = sid) (hoffer : y.offer ≠ none) (hss : y.ss = none) :
    exec (.sessionConfirm p sid true ss) s = .next ((s.onPart p.val (fun x => { x with session := some { y with ss := some ss } })).stage 0
      [.epochOpen p.val]) ∧
    exec (.sessionConfirm p sid false ss) s = .next ((s.onPart p.val (fun x => { x with session := none })).sendDone p.val y.ep sid .integrity) := by
  show execSessionConfirm p sid true ss s = _ ∧ execSessionConfirm p sid false ss s = _
  unfold execSessionConfirm
  simp only [hsession]
  rw [if_neg (by simp [hlease, hsid, hoffer, hss])]
  exact ⟨rfl, if_neg (by simp [hlease, hsid, hoffer, hss])⟩

end Outstanding

section Attempt
variable (hsession : (s.part p.val).session = some y)
include hsession

theorem exec_sessionOffer_early (hmore : y.frags < y.total) : exec (.sessionOffer p) s = .next s := by
  show execSessionOffer p s = _
  unfold execSessionOffer
  simp only [hsession]
  exact if_pos (by simp [hmore])

theorem exec_sessionConfirm_other (hsid : y.sid ≠ sid) (ok : Bool) : exec (.sessionConfirm p sid ok ss) s = .next s := by
  show execSessionConfirm p sid ok ss s = _
  unfold execSessionConfirm
  simp only [hsession]
  exact if_pos (by simp [hsid])

theorem exec_sessionConfirmLapse {r : Nat} (hoffer : y.offer = some r) (hss : y.ss = none) (hlate : r + 256 ≤ s.now) :
    exec (.sessionConfirmLapse p) s = .next (s.onPart p.val (fun x => { x with session := none })) := by
  show execSessionConfirmLapse p s = _
  unfold execSessionConfirmLapse
  simp only [hsession, hoffer]
  exact if_pos (by simp [hss, hlate])

theorem exec_sessionConfirmLapse_early {r : Nat} (hoffer : y.offer = some r) (hearly : s.now < r + 256) :
    exec (.sessionConfirmLapse p) s = .next s := by
  show execSessionConfirmLapse p s = _
  unfold execSessionConfirmLapse
  simp only [hsession, hoffer]
  exact if_neg (by simp [hearly])

end Attempt

end Session

/-! #### Key generations (R475) -/

section Generation
variable {p : PartId} {s : State}

theorem exec_keyGenerationAdvance {g : Nat} (hgen : (s.part p.val).gen = some g) (hhigh : (s.part p.val).ctrHigh = true) :
    exec (.keyGenerationAdvance p) s = .next (s.onPart p.val (fun x => { x with
      gen := some ((g + 1) % 2 ^ 32), prevGen := true, ctrHigh := false, dropAt := none })) := by
  show execKeyGenerationAdvance p s = _
  unfold execKeyGenerationAdvance
  simp only [hgen]
  exact if_neg (by simp [hhigh])

theorem exec_keyGenerationAdvance_not (hlow : (s.part p.val).ctrHigh = false) : exec (.keyGenerationAdvance p) s = .next s := by
  show execKeyGenerationAdvance p s = _
  unfold execKeyGenerationAdvance
  cases hgen : (s.part p.val).gen with
  | none => simp only [hgen]
  | some g =>
    simp only [hgen]
    exact if_pos (by simp [hlow])

theorem exec_keyGenerationDrop {d : Nat} (hdrop : (s.part p.val).dropAt = some d) (hlate : d ≤ s.now) :
    exec (.keyGenerationDrop p) s = .next (s.onPart p.val (fun x => { x with prevGen := false, dropAt := none })) := by
  show execKeyGenerationDrop p s = _
  unfold execKeyGenerationDrop
  simp only [hdrop]
  exact if_neg (Nat.not_lt.mpr hlate)

theorem exec_keyGenerationDrop_early {d : Nat} (hdrop : (s.part p.val).dropAt = some d) (hearly : s.now < d) :
    exec (.keyGenerationDrop p) s = .next s := by
  show execKeyGenerationDrop p s = _
  unfold execKeyGenerationDrop
  simp only [hdrop]
  exact if_pos hearly

end Generation

/-- Settles O37: a session from HELLO to CONFIRM, its refusals and its lapse; key generations. -/
theorem sessionsAndKeyGenerations : Obligations.sessions_and_key_generations := by
  intro p ep rank sid frag frags nonce ss s y x
  refine ⟨fun hlive hlease hnone hfew => ?_, fun hlive hlease hnone hmany => ?_, exec_sessionHello_unserved, fun hsession hlive hlease =>
    ⟨exec_sessionHello_next hlive hlease hsession, exec_sessionHello_second hlive hlease hsession, exec_sessionOffer hsession hlease,
      exec_sessionOffer_early hsession, exec_sessionConfirm hsession hlease, fun ok hsid => exec_sessionConfirm_other hsession hsid ok,
      fun r => exec_sessionConfirmLapse hsession, fun r => exec_sessionConfirmLapse_early hsession⟩,
    fun g => exec_keyGenerationAdvance, exec_keyGenerationAdvance_not, fun d => exec_keyGenerationDrop, fun d => exec_keyGenerationDrop_early⟩
  · exact (exec_sessionHello_first hlive hlease hnone).trans (if_neg (Nat.not_le.mpr hfew))
  · exact (exec_sessionHello_first hlive hlease hnone).trans (if_pos hmany)

/-! #### Puts, flows and flags (R409 to R413, R456, R457) -/

section Flow
variable {f : FlowId} {s : State} {q : Packet} {r r0 : Nat}

theorem exec_flaggedRequestDeliver (hpark : (s.flow f).park = some (q, r)) : exec (.flaggedRequestDeliver f) s =
    .next (if q.aux ≤ (s.flow f).cur then s.deliverFlagged q else s) := by
  show execFlaggedRequestDeliver f s = _
  unfold execFlaggedRequestDeliver
  simp only [hpark]

theorem exec_flagWaitExpiry (hpark : (s.flow f).park = some (q, r)) (hwait : (s.flow f).waitFrom = some r0)
    (hlate : r0 + s.rst.flagWait ≤ s.now) (hcount : (s.flow f).cur < q.aux) : exec (.flagWaitExpiry f) s = .next (s.flagExpire f) := by
  show execFlagWaitExpiry f s = _
  unfold execFlagWaitExpiry
  simp only [hwait, hpark]
  exact (if_neg (Nat.not_lt.mpr hlate)).trans (congrArg _ (if_neg (Nat.not_le.mpr hcount)))

theorem exec_flagWaitExpiry_early (hwait : (s.flow f).waitFrom = some r0) (hearly : s.now < r0 + s.rst.flagWait) :
    exec (.flagWaitExpiry f) s = .next s := by
  show execFlagWaitExpiry f s = _
  unfold execFlagWaitExpiry
  simp only [hwait]
  exact if_pos hearly

end Flow

/-- Settles O38: puts of agents, flow resets, count notices, flags and forgotten flows. -/
theorem agentPutsAndFlows : Obligations.agent_puts_and_flows := by
  intro p rank tag ch len pktCtr n words f epoch s x
  refine ⟨fun hlive => if_neg (by simp [hlive]), fun hdead => if_pos (by simp [hdead]), fun hlive => if_neg (by simp [hlive]),
    fun hdead => if_pos (by simp [hdead]), rfl, fun q r hpark => ⟨fun hcount => ?_, fun hcount => ?_,
      fun r0 hwait hlate => exec_flagWaitExpiry hpark hwait hlate, fun r0 => exec_flagWaitExpiry_early⟩,
    fun hlate => ⟨_, if_pos hlate, rfl, rfl⟩, fun hearly => if_neg (Nat.not_le.mpr hearly)⟩
  · exact (exec_flaggedRequestDeliver hpark).trans (congrArg _ (if_pos hcount))
  · exact (exec_flaggedRequestDeliver hpark).trans (congrArg _ (if_neg (Nat.not_le.mpr hcount)))

/-! #### Routes and trees (R397 to R401, R405, R406) -/

section Route
variable {s : State}

theorem exec_linkState {l : LinkId} {m : LinkStateMsg} (horigin : m.origin ≠ s.rnd.endpoint) (hnew : s.net.db.look {} m.origin ≠ m) :
    exec (.linkState l m) s = .next ((s.onNet (fun n => { n with db := n.db.put {} m.origin m })).touchFlood.sendFlood m (some l.val)) :=
  if_neg (by simp [horigin, hnew])

theorem exec_linkState_known {l : LinkId} {m : LinkStateMsg} (hold : m.origin = s.rnd.endpoint ∨ s.net.db.look {} m.origin = m) :
    exec (.linkState l m) s = .next s :=
  if_pos (by simpa using hold)

theorem exec_linkStateFlood (hdue : s.net.db.look {} s.rnd.endpoint ≠ s.myLinkState ∨ s.net.flooded + 4096 ≤ s.now) :
    exec .linkStateFlood s = .next ((s.onNet (fun n => { n with
      db := n.db.put {} s.rnd.endpoint s.myLinkState, flooded := s.now })).sendFlood s.myLinkState none) :=
  if_neg (by rcases hdue with h | h <;> simp [h])

theorem exec_linkStateFlood_not (hsame : s.net.db.look {} s.rnd.endpoint = s.myLinkState) (hearly : s.now < s.net.flooded + 4096) :
    exec .linkStateFlood s = .next s :=
  if_pos (by simp [hsame, hearly])

theorem exec_routeTableInstall (hstale : s.net.stale = true) (hlease : s.leaseHeld = true) : exec .routeTableInstall s =
    .next ((if s.lowestEp ≠ s.net.root && s.net.orient.isNone then
      s.onNet (fun n => { n with orient := some (s.lowestEp, s.now + 16) }) else s).installRoutes s.net.root) := by
  refine (if_neg (by simp [hstale, hlease])).trans ?_
  split <;> rfl

theorem exec_routeTableInstall_not (hno : s.net.stale = false ∨ s.leaseHeld = false) : exec .routeTableInstall s = .next s :=
  if_pos (by rcases hno with h | h <;> simp [h])

theorem exec_orientationBoundary {root b : Nat} (horient : s.net.orient = some (root, b)) : exec .orientationBoundary s =
    if s.now < b then .next s else .next ((s.flushEscape.onNet (fun n => { n with orient := none })).installRoutes root) := by
  show execOrientationBoundary s = _
  unfold execOrientationBoundary
  simp only [horient]

theorem exec_mcAckTimeout {origin group line : Nat} {w : McWait}
    (hwait : s.net.mcWait.find? (fun w => w.origin = origin && w.group = group && w.line = line) = some w) :
    exec (.mcAckTimeout origin group line) s = .next (if w.round + 4 ≤ s.now then s.sendMcAck w else s) := by
  show execMcAckTimeout origin group line s = _
  unfold execMcAckTimeout
  simp only [hwait]

end Route

/-! #### Combined answers, the power group, rank entries and link dies (R22, R41, R129, R234, R381, R403, R406, R529) -/

section Combined
variable {p : PartId} {group line tag rank : Nat} {mask : BitVec 256} {d : HalfId} {s : State}

theorem exec_mcAck_all (hop : s.pendOp line = opSnpInv) :
    let mine := (s.groupRanks p.val (s.group group)).filter (fun r => s.awaits line (agentOf p.val r))
    mine.all (fun r => mask.getLsbD (r - (s.group group).base)) = true → exec (.mcAck p group line mask) s =
      .next (s.each mine (fun s r => if s.awaits line (agentOf p.val r) then s.answered1 line (agentOf p.val r) else s)) := by
  intro mine hall
  rw [List.all_eq_true] at hall
  refine (if_neg (not_not.mpr hop)).trans ?_
  dsimp only
  rw [List.filter_eq_self.mpr hall, List.filter_eq_nil_iff.mpr (fun r hr => by simp only [hall r hr]; decide)]
  rfl

theorem exec_mcAck_not (hop : s.pendOp line ≠ opSnpInv) : exec (.mcAck p group line mask) s = .next s := if_pos hop

theorem exec_lengthChange {code : Fin 4} (hmaster : s.isMaster = true) (hpend : s.rnd.pendLength = none) (hcode : code.val ≠ s.rnd.length) :
    Goes (exec (.roundCtrl (.lengthChange code)) s) (fun t =>
      t.rnd = { s.rnd with pendLength := some (code.val, s.rnd.counter + 256), lengthBusy := true } ∧
      t = { s with rnd := t.rnd, ctl := t.ctl }) := by
  have hexec : exec (.roundCtrl (.lengthChange code)) s = .next ((s.announceLength code.val).lengthResult) :=
    congrArg _ (if_neg (by simp [hmaster, hpend, hcode]))
  rw [lengthResult_eq] at hexec
  exact ⟨_, hexec, rfl, rfl⟩

theorem exec_lengthChange_not {code : Fin 4} (hno : s.isMaster = false ∨ s.rnd.pendLength ≠ none) :
    exec (.roundCtrl (.lengthChange code)) s = .next s :=
  congrArg _ (if_pos (by rcases hno with h | h <;> simp [h, Option.isSome_iff_ne_none]))

theorem exec_transportTimeout {q : OutReq} (hout : s.net.out.find? (fun q => q.tag = tag) = some q) :
    exec (.transportTimeout tag) s = .next (if q.sent + s.rst.timeout ≤ s.now then s.readFailed q none else s) := by
  show execTransportTimeout tag s = _
  unfold execTransportTimeout
  simp only [hout]

end Combined

/-- Settles O39: flooded states, tables and orientations, trees, combined answers, rank entries, timeouts and lost link dies. -/
theorem routesCombinedAnswersAndLinkDies : Obligations.routes_combined_answers_and_link_dies := by
  refine ⟨fun l m ep origin group line outs here s => ?route, fun p group line ep limit demand watts tag rank mask code d s => ?combined⟩
  case route =>
    refine ⟨exec_linkState, exec_linkState_known, exec_linkStateFlood, exec_linkStateFlood_not, fun hstale hlease hroot => ?_,
      fun hstale hlease hroot horient => ?_, exec_routeTableInstall_not, fun root b horient => ⟨fun hlate => ?_, fun hearly => ?_⟩,
      fun hlong => if_neg (Nat.not_lt.mpr hlong), fun hshort => if_pos hshort,
      ⟨fun hroom => if_neg (Nat.not_le.mpr hroom), fun hfull => if_pos hfull⟩, fun w hwait => ⟨fun hlate => ?_, fun hearly => ?_⟩⟩
    · exact (exec_routeTableInstall hstale hlease).trans (congrArg (fun u => Host.Outcome.next (State.installRoutes u _)) (if_neg (by simp [hroot])))
    · exact (exec_routeTableInstall hstale hlease).trans
        (congrArg (fun u => Host.Outcome.next (State.installRoutes u _)) (if_pos (by simp [hroot, horient])))
    · exact (exec_orientationBoundary horient).trans (if_neg (Nat.not_lt.mpr hlate))
    · exact (exec_orientationBoundary horient).trans (if_pos hearly)
    · exact (exec_mcAckTimeout hwait).trans (congrArg _ (if_pos hlate))
    · exact (exec_mcAckTimeout hwait).trans (congrArg _ (if_neg (Nat.not_le.mpr hearly)))
  case combined =>
    refine ⟨exec_mcAck_all, exec_mcAck_not, rfl, rfl, exec_lengthChange, exec_lengthChange_not, ?_,
      fun q hout => ⟨fun hlate => ?_, fun hearly => ?_⟩, fun hok => if_neg (by simp [hok]), fun hgone => if_pos (by simp [hgone])⟩
    · intro t mine
      exact ⟨fun hsome => if_neg (fun h => hsome (List.isEmpty_iff.mp h)), fun hnone => if_pos (List.isEmpty_iff.mpr hnone)⟩
    · exact (exec_transportTimeout hout).trans (congrArg _ (if_pos hlate))
    · exact (exec_transportTimeout hout).trans (congrArg _ (if_neg (Nat.not_le.mpr hearly)))

end Sys2Proof.Machine

/-! ### Host memory requests over the rim and its lane groups (R28, R435 to R448, R453, R487) -/

namespace Sys2Proof.Machine

/-! #### Memory requests (R435, R438, R441, R446 to R448) -/

section HostMem
variable {tag dpa : Nat} {data : List Byte} {mask : Option U64} {s : State}

theorem rimOpen_iff (hup : s.host.up = true) : s.rimOpen = decide (2 ≤ s.rimPhase) := by simp [State.rimOpen, hup]

theorem exec_rimMem_dark (hup : s.host.up = true) (hphase : s.rimPhase < 2) (r : Bool) :
    exec (.rimMemRd tag dpa r) s = .next (s.emit (.hostData tag Status.poison.code (List.replicate 64 0) true)) ∧
    exec (.rimMemWr tag dpa data mask r) s = .next (s.emit (.hostData tag 0 [] false)) := by
  have hclosed : s.rimOpen = false := by simp [rimOpen_iff hup, hphase]
  exact ⟨(if_neg (by simp [hup])).trans (if_pos (by simp [hclosed])), (if_neg (by simp [hup])).trans (if_pos (by simp [hclosed]))⟩

theorem exec_rimMem_open (hup : s.host.up = true) (hphase : 2 ≤ s.rimPhase) (r : Bool) :
    exec (.rimMemRd tag dpa r) s = .next (s.hostMem rtMemRd r { tag := tag, dpa := dpa, since := s.now }) ∧
    exec (.rimMemWr tag dpa data mask r) s = .next (s.hostMem rtMemWr r
      { tag := tag, dpa := dpa, write := true, data := line64 data, mask := mask, since := s.now }) := by
  have hopen : s.rimOpen = true := by simp [rimOpen_iff hup, hphase]
  exact ⟨(if_neg (by simp [hup])).trans (if_neg (by simp [hopen])), (if_neg (by simp [hup])).trans (if_neg (by simp [hopen]))⟩

theorem hostMem_early {type : Nat} {q : HostReq} (hphase : s.rimPhase < 4) : s.hostMem type false q = s.nak type q.tag .notReady :=
  (if_neg Bool.false_ne_true).trans (if_pos hphase)

section Service
variable {type : Nat} {q : HostReq} (hphase : 4 ≤ s.rimPhase)
include hphase

theorem hostMem_range (hbad : q.dpa % 64 ≠ 0 ∨ s.hostExtAt q.dpa (· == 2) = none) : s.hostMem type false q = s.nak type q.tag .range :=
  (if_neg Bool.false_ne_true).trans ((if_neg (Nat.not_lt.mpr hphase)).trans (if_pos (by simpa using hbad)))

theorem hostMem_taken (hline : q.dpa % 64 = 0) (hext : s.hostExtAt q.dpa (· == 2) ≠ none) :
    let u := s.onHost (fun h => { h with reqs := h.reqs ++ [q] })
    s.hostMem type false q = if s.rst.limited then u.answerHost q.tag .busyRetry [] false else u.tryHost q.tag :=
  (if_neg Bool.false_ne_true).trans ((if_neg (Nat.not_lt.mpr hphase)).trans (if_neg (by
    simpa [hline, ← Option.isNone_iff_eq_none] using hext)))

end Service

/-- What leaves as the answer to a host request is released (R435, R441). -/
def State.released (u : State) (q : HostReq) (tag st : Nat) (bs : List Byte) (p : Bool) : State :=
  if q.write then (if st = 0 then u else (u.countHost 3).setInt flagRefused).writeAnswer tag
  else (if st = 0 then u else u.countHost 2).readAnswer tag st bs p

theorem exec_hostReleaseTimer {q : HostReq} (hup : s.host.up = true)
    (hfind : s.host.reqs.find? (fun q => q.tag = tag && q.answer.isSome) = some q)
    (hlate : (s.now - q.since - 1) * s.rnd.micros * 1000 ≤ s.hostRelease) {st : Nat} {bs : List Byte} {p : Bool}
    (hanswer : q.answer = some (st, bs, p)) :
    exec (.hostReleaseTimer tag) s = .next ((s.onHost (fun h => { h with reqs := h.reqs.erase q })).released q tag st bs p) := by
  have hearly : ∀ u : State, u.hostRelease = s.hostRelease → u.rnd = s.rnd →
      ¬ u.hostRelease < (u.now - q.since - 1) * u.rnd.micros * 1000 := fun u hrelease hrnd => by
    rw [hrelease, State.now, hrnd]
    exact Nat.not_lt.mpr hlate
  show execHostReleaseTimer tag s = _
  unfold execHostReleaseTimer State.released
  simp only [hfind, hanswer]
  rw [if_neg (hearly (s.onHost (fun h => { h with reqs := h.reqs.erase q })) rfl rfl), if_neg (by simp [hup])]
  split <;> rfl

theorem exec_hostRequestHoldTimeout {q : HostReq} (hfind : s.host.reqs.find? (fun q => q.tag = tag && q.answer.isNone) = some q) :
    exec (.hostRequestHoldTimeout tag) s = .next (if q.since + 256 ≤ s.now then s.answerHost tag .notReady [] false else s) := by
  show execHostRequestHoldTimeout tag s = _
  unfold execHostRequestHoldTimeout
  simp only [hfind]

end HostMem

/-! #### Lane masks (R444) -/

theorem lanes10_eq_card (m : BitVec 10) : lanes10 m = ((List.range 10).filter (fun i => m.getLsbD i)).toFinset.card :=
  (List.toFinset_card_of_nodup (List.nodup_range.filter _)).symm

/-- A mask without one of its lanes has one lane less. -/
theorem lanes10_without {x m : BitVec 10} {k : Fin 10} (hx : x.getLsbD k.val = true) (hm : m.getLsbD k.val = false)
    (hsame : ∀ i, i ≠ k.val → m.getLsbD i = x.getLsbD i) : lanes10 m + 1 = lanes10 x := by
  have hmem : k.val ∈ ((List.range 10).filter (fun i => x.getLsbD i)).toFinset := by
    rw [List.mem_toFinset, List.mem_filter, List.mem_range]
    exact ⟨k.isLt, hx⟩
  have herase : ((List.range 10).filter (fun i => m.getLsbD i)).toFinset = ((List.range 10).filter (fun i => x.getLsbD i)).toFinset.erase k.val := by
    ext i
    rw [Finset.mem_erase, List.mem_toFinset, List.mem_filter, List.mem_toFinset, List.mem_filter]
    by_cases hi : i = k.val
    · rw [hi, hm]
      exact ⟨fun h => absurd h.2 Bool.false_ne_true, fun h => absurd rfl h.1⟩
    · rw [hsame i hi]
      exact ⟨fun h => ⟨hi, h⟩, fun h => h.2⟩
  rw [lanes10_eq_card, lanes10_eq_card, herase, Finset.card_erase_of_mem hmem]
  have := Finset.card_pos.mpr ⟨_, hmem⟩
  omega

theorem getLsbD_oneLane (k : Fin 10) (i : Nat) : ((1 : BitVec 10) <<< k.val).getLsbD i = decide (i = k.val) := by
  have hk := k.isLt
  simp only [BitVec.getLsbD_shiftLeft, BitVec.ofNat_eq_ofNat, BitVec.getLsbD_one]
  by_cases hi : i = k.val
  · simp [hi, hk]
  · simp only [hi, decide_false]
    by_cases hlt : i < k.val
    · simp [hlt]
    · simp [show i - k.val ≠ 0 by omega]

theorem getLsbD_laneOff (x : BitVec 10) (k : Fin 10) :
    (x &&& ~~~((1 : BitVec 10) <<< k.val)).getLsbD k.val = false ∧
    ∀ i, i ≠ k.val → (x &&& ~~~((1 : BitVec 10) <<< k.val)).getLsbD i = x.getLsbD i := by
  refine ⟨by simp only [BitVec.getLsbD_and, BitVec.getLsbD_not, getLsbD_oneLane]; simp, fun i hi => ?_⟩
  simp only [BitVec.getLsbD_and, BitVec.getLsbD_not, getLsbD_oneLane, hi, decide_false, Bool.not_false, Bool.and_true]
  by_cases hlt : i < 10
  · simp [hlt]
  · simp [hlt, BitVec.getLsbD_of_ge x i (by omega)]

theorem getLsbD_laneOn (x : BitVec 10) (k : Fin 10) :
    (x ||| ((1 : BitVec 10) <<< k.val)).getLsbD k.val = true ∧
    ∀ i, i ≠ k.val → (x ||| ((1 : BitVec 10) <<< k.val)).getLsbD i = x.getLsbD i := by
  refine ⟨by simp only [BitVec.getLsbD_or, getLsbD_oneLane]; simp, fun i hi => ?_⟩
  simp only [BitVec.getLsbD_or, getLsbD_oneLane, hi, decide_false, Bool.or_false]

/-! #### Lane groups (R28, R443, R444, R453) -/

section LaneGroup
variable {g : HalfId} {lanes : BitVec 10} {lane : Fin 10} {b : Bool} {s : State}

@[simp] theorem rimGroup_onRimGroup_self (s : State) (g : Nat) (f : RimGroup → RimGroup) : (s.onRimGroup g f).rimGroup g = f (s.rimGroup g) := by
  by_cases hg : g = 0
  · subst hg; rfl
  · simp only [State.rimGroup, State.onRimGroup, State.onHost, hg, if_false]

theorem onRimGroup_onRimGroup (s : State) (g : Nat) (f k : RimGroup → RimGroup) :
    (s.onRimGroup g f).onRimGroup g k = s.onRimGroup g (fun x => k (f x)) := by
  by_cases hg : g = 0
  · subst hg; rfl
  · simp only [State.onRimGroup, State.onHost, hg, if_false]

@[simp] theorem rimGroup_setInt (s : State) (i g : Nat) : (s.setInt i).rimGroup g = s.rimGroup g := by
  unfold State.setInt
  split
  · rfl
  · dsimp only
    split <;> rfl

theorem setLanes_few (hfew : lanes10 lanes < 5) : s.setLanes g.val lanes = s.groupDown g.val := if_pos hfew

theorem setLanes_same (hmany : 5 ≤ lanes10 lanes) (hsame : lanes = (s.rimGroup g.val).lanes) : s.setLanes g.val lanes = s :=
  (if_neg (Nat.not_lt.mpr hmany)).trans (if_pos hsame)

theorem setLanes_new (hmany : 5 ≤ lanes10 lanes) (hnew : lanes ≠ (s.rimGroup g.val).lanes) :
    s.setLanes g.val lanes = (s.onRimGroup g.val (fun x => { x with lanes := lanes })).setInt flagRimWidth :=
  (if_neg (Nat.not_lt.mpr hmany)).trans (if_neg hnew)

theorem exec_rimHealth_failed (hgone : s.ldWorks g.val = false) : exec (.rimHealth g b lanes) s = .next s :=
  if_pos (by simp [hgone])

section Working
variable (hup : s.host.up = true) (hoff : s.rst.mode ≠ .off) (hreset : s.rst.mode ≠ .reset) (hworks : s.ldWorks g.val = true)
include hup hoff hreset hworks

theorem exec_rimHealth_few (hfew : lanes10 lanes < 5) : exec (.rimHealth g b lanes) s = .next (s.groupDown g.val) :=
  (if_neg (by simp [hup, hoff, hreset, hworks])).trans (if_pos hfew)

/-- An exchange with enough lanes: their mask is in force, and a group that is down counts it towards the four (R443, R444). -/
theorem exec_rimHealth {u : State} (hmany : 5 ≤ lanes10 lanes)
    (hu : u = (s.setLanes g.val lanes).onRimGroup g.val (fun x => { x with sends := 0 })) : exec (.rimHealth g b lanes) s =
      if !b || (u.rimGroup g.val).up then .next u
      else if (u.rimGroup g.val).health + 1 < 4 then .next (u.onRimGroup g.val (fun x => { x with health := x.health + 1 }))
      else .next ((u.onRimGroup g.val (fun x => { x with health := x.health + 1, up := true, training := false })).setInt flagRimUp) := by
  subst hu
  refine (if_neg (by simp [hup, hoff, hreset, hworks])).trans ((if_neg (Nat.not_lt.mpr hmany)).trans ?_)
  simp only [rimGroup_onRimGroup_self, onRimGroup_onRimGroup]

end Working

theorem rimGroupDown_eq : s.groupDown g.val =
    let u := (s.onRimGroup g.val (fun x => { x with up := false, health := 0, training := false, sends := 0 })).moveTraffic
    if (s.rimGroup g.val).up then (u.setInt flagRimDown).rimLost else u := rfl

theorem exec_rimMessageCrcFail (hsends : (s.rimGroup g.val).sends < 7) : exec (.rimMessageCrcFail g b) s =
    .next (s.onRimGroup g.val (fun y => { y with sends := max 1 (s.rimGroup g.val).sends + 1, replays := y.replays + 1 })) :=
  if_neg (by omega)

theorem exec_rimMessageCrcFail_last (hsends : 7 ≤ (s.rimGroup g.val).sends) : exec (.rimMessageCrcFail g b) s = .next (s.groupDown g.val) :=
  if_pos (by omega)

theorem exec_rimLaneFault (hlane : (s.rimGroup g.val).lanes.getLsbD lane.val = true) (hmany : 6 ≤ lanes10 (s.rimGroup g.val).lanes) :
    ∃ m : BitVec 10, m.getLsbD lane.val = false ∧ (∀ i, i ≠ lane.val → m.getLsbD i = (s.rimGroup g.val).lanes.getLsbD i) ∧
      exec (.rimLaneFault g lane) s = .next ((s.onRimGroup g.val (fun x => { x with lanes := m })).setInt flagRimWidth) := by
  obtain ⟨hclear, hsame⟩ := getLsbD_laneOff (s.rimGroup g.val).lanes lane
  have hcount := lanes10_without hlane hclear hsame
  refine ⟨_, hclear, hsame, congrArg _ (setLanes_new (by omega) (fun heq => ?_))⟩
  rw [heq, hlane] at hclear
  exact Bool.noConfusion hclear

theorem exec_rimLaneFault_last (hlane : (s.rimGroup g.val).lanes.getLsbD lane.val = true) (hfive : lanes10 (s.rimGroup g.val).lanes = 5) :
    exec (.rimLaneFault g lane) s = .next (s.groupDown g.val) := by
  obtain ⟨hclear, hsame⟩ := getLsbD_laneOff (s.rimGroup g.val).lanes lane
  have hcount := lanes10_without hlane hclear hsame
  exact congrArg _ (setLanes_few (by omega))

theorem exec_rimLaneRestore (hlane : (s.rimGroup g.val).lanes.getLsbD lane.val = false)
    (hdue : (s.rimGroup g.val).widened = 0 ∨ (s.rimGroup g.val).widened + 65536 ≤ s.now + 1) (hfour : 4 ≤ lanes10 (s.rimGroup g.val).lanes) :
    ∃ m : BitVec 10, m.getLsbD lane.val = true ∧ (∀ i, i ≠ lane.val → m.getLsbD i = (s.rimGroup g.val).lanes.getLsbD i) ∧
      exec (.rimLaneRestore g lane) s = .next (((s.onRimGroup g.val (fun x => { x with lanes := m })).setInt flagRimWidth).onRimGroup g.val
        (fun y => { y with widened := s.now + 1 })) := by
  obtain ⟨hset, hsame⟩ := getLsbD_laneOn (s.rimGroup g.val).lanes lane
  have hcount := lanes10_without hset hlane (fun i hi => (hsame i hi).symm)
  refine ⟨_, hset, hsame, (if_neg ?_).trans (congrArg (fun u => Host.Outcome.next (State.onRimGroup u _ _))
    (setLanes_new (by omega) (fun heq => ?_)))⟩
  · simp only [hlane, Bool.false_or, Bool.and_eq_true, decide_eq_true_eq]
    omega
  · rw [heq, hlane] at hset
    exact Bool.noConfusion hset

theorem exec_rimLaneRestore_early (hwidened : (s.rimGroup g.val).widened ≠ 0) (hearly : s.now + 1 < (s.rimGroup g.val).widened + 65536) :
    exec (.rimLaneRestore g lane) s = .next s :=
  if_pos (by simp [hwidened, hearly])

end LaneGroup

/-- Settles O40: host requests are answered in their order of checks; lane groups come up, go down and change their width. -/
theorem rimRequestsAndLaneGroups : Obligations.rim_requests_and_lane_groups := by
  refine ⟨fun tag dpa data mask s => ?mem, fun g lanes lane b s => ?group⟩
  case mem =>
    intro rd wr zero
    refine ⟨exec_rimMem_dark, fun hup hphase => ?_, fun q hup hfind hlate st bs p hanswer => ?_, fun q hfind => ⟨fun hlate => ?_, fun hearly => ?_⟩⟩
    · have hopen := exec_rimMem_open (tag := tag) (dpa := dpa) (data := data) (mask := mask) hup hphase
      refine ⟨(hopen true).1, (hopen true).2, fun hearly => ?_, fun hservice hbad => ?_, fun hservice hline hext => ?_⟩
      · exact ⟨(hopen false).1.trans (congrArg _ (hostMem_early hearly)), (hopen false).2.trans (congrArg _ (hostMem_early hearly))⟩
      · exact ⟨(hopen false).1.trans (congrArg _ (hostMem_range hservice hbad)), (hopen false).2.trans (congrArg _ (hostMem_range hservice hbad))⟩
      · intro put
        have hrd := (hopen false).1.trans (congrArg _ (hostMem_taken hservice hline hext))
        have hwr := (hopen false).2.trans (congrArg _ (hostMem_taken hservice hline hext))
        exact ⟨fun hfree => ⟨hrd.trans (congrArg _ (if_neg (Bool.eq_false_iff.mp hfree))), hwr.trans (congrArg _ (if_neg (Bool.eq_false_iff.mp hfree)))⟩,
          fun hfull => ⟨hrd.trans (congrArg _ (if_pos hfull)), hwr.trans (congrArg _ (if_pos hfull))⟩⟩
    · intro u
      have hexec := exec_hostReleaseTimer hup hfind hlate hanswer
      unfold State.released at hexec
      refine ⟨fun hw hst => hexec.trans ?_, fun hw hst => hexec.trans ?_, fun hw hst => hexec.trans ?_, fun hw hst => hexec.trans ?_⟩
      · simp only [hw, hst, Bool.false_eq_true, if_false, if_true, State.readAnswer]
        rfl
      · simp only [hw, hst, Bool.false_eq_true, if_false, State.readAnswer]
        rfl
      · simp only [hw, hst, if_true]
        rfl
      · simp only [hw, hst, if_true, if_false]
        rfl
    · exact (exec_hostRequestHoldTimeout hfind).trans (congrArg _ (if_pos hlate))
    · exact (exec_hostRequestHoldTimeout hfind).trans (congrArg _ (if_neg (Nat.not_le.mpr hearly)))
  case group =>
    intro x
    simp only [x]
    refine ⟨fun hup hoff hreset hworks => ⟨exec_rimHealth_few hup hoff hreset hworks, fun hmany hsame hdown => ?_,
      fun hmany hnew hgroup => ?_⟩, exec_rimHealth_failed, ⟨fun hgroup => congrArg _ (if_pos hgroup), fun hgroup => congrArg _ (if_neg (Bool.eq_false_iff.mp hgroup))⟩,
      exec_rimMessageCrcFail, exec_rimMessageCrcFail_last, exec_rimLaneFault, exec_rimLaneFault_last, exec_rimLaneRestore,
      exec_rimLaneRestore_early⟩
    · have hexec := fun b => exec_rimHealth (b := b) hup hoff hreset hworks hmany rfl
      simp only [setLanes_same hmany hsame, rimGroup_onRimGroup_self, onRimGroup_onRimGroup] at hexec
      refine ⟨(hexec false).trans (if_pos rfl), fun hfew => (hexec true).trans ((if_neg ?_).trans (if_pos ?_)),
        fun hthree => (hexec true).trans ((if_neg ?_).trans (if_neg ?_))⟩
      · rw [hdown]; decide
      · exact Nat.add_lt_add_right hfew 1
      · rw [hdown]; decide
      · exact Nat.not_lt.mpr (Nat.add_le_add_right hthree 1)
    · refine (exec_rimHealth hup hoff hreset hworks hmany rfl).trans ?_
      rw [setLanes_new hmany hnew, if_pos]
      rw [rimGroup_onRimGroup_self, rimGroup_setInt, rimGroup_onRimGroup_self]
      simp [hgroup]

end Sys2Proof.Machine

/-! ### Host mailboxes, doorbells and what crosses the rim (R69, R302, R437, R446 to R459, R511, R563, R576) -/

namespace Sys2Proof.Machine

/-! #### Register commands and the open rim (R448, R452) -/

section HostReg
variable {s : State} {ok : Bool} {f : State → State}

theorem hostReg_ok (hup : s.host.up = true) (hok : ok = true) : s.hostReg ok f = .next (f s) :=
  congrArg _ (if_pos (by simp [hup, hok]))

theorem hostReg_refused (hok : ok = false) : s.hostReg ok f = .next s := congrArg _ (if_neg (by simp [hok]))

theorem hostReg_down (hup : s.host.up = false) : s.hostReg ok f = .next s := congrArg _ (if_neg (by simp [hup]))

theorem rimOpen_of_phase (hup : s.host.up = true) (hphase : 2 ≤ s.rimPhase) : s.rimOpen = true := by simp [rimOpen_iff hup, hphase]

theorem rimOpen_dark (hphase : s.rimPhase < 2) : s.rimOpen = false := by simp [State.rimOpen, hphase]

end HostReg

/-! #### Mailboxes of the host (R457, R458) -/

section Mailbox
variable {k : Fin 16} {j : Fin 32} {p : PartId} {ch tag : Nat} {m : RimMsg} {st : Status} {s : State}

theorem exec_mbxPutRead (hup : s.host.up = true) (hphase : 2 ≤ s.rimPhase) (hwait : s.host.mbxWait.look false k.val = false) :
    exec (.mbxPutRead k) s = .next ((s.onHost (fun h => { h with mbxWait := h.mbxWait.put false k.val true })).toFabric
      { type := rtMbxPut, channel := 64 + k.val, tag := k.val, len := s.host.mbxTxLen.look 0 k.val
        payload := bufWords s.host.mbxTx (64 * k.val) (min (s.host.mbxTxLen.look 0 k.val) 64) }) := by
  show execMbxPutRead k s = _
  unfold execMbxPutRead
  rw [hostReg_ok hup rfl]
  simp only [rimOpen_of_phase hup hphase, hwait, Bool.not_true, Bool.false_eq_true, if_false]
  rfl

theorem exec_mbxPutRead_dark (hup : s.host.up = true) (hphase : s.rimPhase < 2) :
    exec (.mbxPutRead k) s = .next (s.emit (.abort (0x3000 + 8 * k.val))) := by
  show execMbxPutRead k s = _
  unfold execMbxPutRead
  rw [hostReg_ok hup rfl]
  simp only [rimOpen_dark hphase, Bool.not_false, if_true]

theorem exec_mbxAckTimeout (hup : s.host.up = true) (hwait : s.host.mbxWait.look false k.val = true) : exec (.mbxAckTimeout k) s =
    .next (((s.onHost (fun h => { h with mbxWait := h.mbxWait.put false k.val false })).onHost (fun h => { h with
      mbxTxStatus := h.mbxTxStatus.put 0 k.val Status.timeout.code })).emit (.abort (0x3000 + 8 * k.val))) := by
  show execMbxAckTimeout k s = _
  unfold execMbxAckTimeout
  rw [hostReg_ok hup hwait]
  rfl

theorem exec_mbxPop (hup : s.host.up = true)
    (hsent : (s.host.toFabric.filter (fun m => m.type = rtMbxAck && m.channel = rxChannel j.val)).length < (s.channel (rxChannel j.val)).length) :
    exec (.mbxPop j) s = .next (s.toFabric { type := rtMbxAck, channel := rxChannel j.val, addr := 1 }) := by
  show execMbxPop j s = _
  unfold execMbxPop
  exact (hostReg_ok (f := fun s => s.toFabric { type := rtMbxAck, channel := rxChannel j.val, addr := 1 }) hup (decide_eq_true hsent))

theorem exec_mbxPop_empty (hempty : s.channel (rxChannel j.val) = []) : exec (.mbxPop j) s = .next s := by
  show execMbxPop j s = _
  unfold execMbxPop
  exact hostReg_refused (by simp [hempty])

theorem exec_rimMbxPut_host (hup : s.host.up = true) (hdir : m.dir = true) : exec (.rimMbxPut m) s =
    .next ((s.pullToHost (fun x => x.type = rtMbxPut && x.channel = m.channel)).setInt flagMbxRx) :=
  (if_neg (by simp [hup])).trans (if_pos hdir)

/-- A message from the host at an open rim is placed or refused, in the order of its checks (R447, R457). -/
theorem exec_rimMbxPut_fabric (hup : s.host.up = true) (hdir : m.dir = false) (hphase : 2 ≤ s.rimPhase) (hlen : m.len ≤ 255) :
    let put := s.pullToFabric (fun x => x.type = rtMbxPut && x.channel = m.channel)
    let r := put.mbxPut idHost m.channel 0 m.len (m.payload ++ List.replicate m.len 0)
    exec (.rimMbxPut m) s = if m.rsvd then .next (put.nak rtMbxPut m.tag .rsvdNonzero)
      else if put.rimPhase < 4 then .next (put.nak rtMbxPut m.tag .notReady)
      else if 64 < m.len then .next (put.nak rtMbxPut m.tag .mbxLen)
      else .next (r.2.toHost { type := rtMbxAck, dir := true, channel := m.channel, tag := m.tag, status := r.1.code }) := by
  refine (if_neg (by simp [hup])).trans ((if_neg (by simp [hdir])).trans ((if_neg ?_).trans (if_neg (Nat.not_lt.mpr hlen))))
  simp [rimOpen_of_phase hup hphase]

theorem exec_rimMbxAck_popped (hup : s.host.up = true) :
    let u := s.pullToHost (fun x => x.type = rtMbxAck && x.channel = ch && x.addr = 1)
    exec (.rimMbxAck true ch tag true st) s = .next (if (u.channel ch).isEmpty then u.setInt flagMbxEmpty else u) := by
  intro u
  show execRimMbxAck true ch tag true st s = _
  unfold execRimMbxAck
  simp only [if_true, hup, Bool.not_true, Bool.false_eq_true, if_false]
  rfl

theorem exec_rimMbxAck_consumed {u : State} (hu : u = s.pullToFabric (fun x => x.type = rtMbxAck && x.channel = ch && x.addr = 1))
    {b : Nat × Nat} {h : MbxMsg} {t : List MbxMsg} (hbind : u.binding ch = some b) (hhost : b.2 = idHost) (hmsgs : u.channel ch = h :: t)
    (hch : ch < 112) : exec (.rimMbxAck false ch tag true st) s =
      .next (u.onHost (fun x => { x with channels := x.channels.put [] ch t })) := by
  subst hu
  show execRimMbxAck false ch tag true st s = _
  unfold execRimMbxAck State.mbxTake
  simp only [b2n, Bool.false_eq_true, if_false, hbind, hmsgs, Option.any_some, hhost, beq_self_eq_true, Bool.not_true, Bool.or_false,
    if_true, Nat.not_le.mpr hch]

theorem exec_rimMbxAck_result (hup : s.host.up = true) {u : State}
    (hu : u = s.pullToHost (fun x => x.type = rtMbxAck && x.channel = ch && x.addr = 0))
    (htag : tag % 16 = k.val) (hwait : u.host.mbxWait.look false k.val = true) : exec (.rimMbxAck true ch tag false st) s =
      .next ((u.onHost (fun h => { h with
          mbxWait := h.mbxWait.put false k.val false
          mbxTxStatus := h.mbxTxStatus.put 0 k.val st.code })).emit
        (if st = .ok then .readData (0x3000 + 8 * k.val) 0 else .abort (0x3000 + 8 * k.val))) := by
  subst hu
  show execRimMbxAck true ch tag false st s = _
  unfold execRimMbxAck
  simp only [b2n, if_true, hup, Bool.not_true, Bool.false_eq_true, if_false, htag, hwait]

theorem exec_mailboxDelivery {h : MbxMsg} {t : List MbxMsg} {bs : List Byte} {s1 s2 : State}
    (hmsgs : s.channel p.val = h :: t) (hlive : (s.part p.val).live = true)
    (hread : s.readPva p.val ((s.part p.val).qtable + 0x808) 8 = .ok bs)
    (hroom : ((s.part p.val).rxProd + 2 ^ 64 - ofBytes bs) % 2 ^ 64 < 3)
    (hbody : (s.cleanPva p.val ((s.part p.val).qtable + 0x808) 8).writePva p.val
        ((s.part p.val).qtable + 0x840 + 0x240 * ((s.part p.val).rxProd % 3))
      (toBytes 8 (h.len + p.val * 2 ^ 8) ++ toBytes 8 (s.cleanPva p.val ((s.part p.val).qtable + 0x808) 8).now ++ wordBytes h.words) = some s1)
    (hprod : s1.writePva p.val ((s.part p.val).qtable + 0x800) (toBytes 8 ((s.part p.val).rxProd + 1)) = some s2)
    (hkept : s2.channel p.val = h :: t) : exec (.mailboxDelivery p) s =
      .next ((s2.onHost (fun y => { y with channels := y.channels.put [] p.val t })).onPart p.val (fun y => { y with rxProd := y.rxProd + 1 })) := by
  show execMailboxDelivery p s = _
  unfold execMailboxDelivery State.mbxTake
  simp only [hmsgs, hlive, Bool.not_true, Bool.false_eq_true, if_false, hread, Nat.not_le.mpr hroom, hbody, Option.bind_some, hprod, hkept]

theorem exec_mailboxDelivery_empty (hempty : s.channel p.val = []) : exec (.mailboxDelivery p) s = .next s := by
  show execMailboxDelivery p s = _
  unfold execMailboxDelivery
  simp only [hempty]

end Mailbox

/-! #### Doorbells of the host (R69, R446 to R448) -/

section Doorbell
variable {tag addr : Nat} {v : U64} {s : State}

theorem exec_rimDoorbell_host (hup : s.host.up = true) (r : Bool) : exec (.rimDoorbell true ⟨tag, r⟩ addr v) s =
    .next ((s.pullToHost (fun x => x.type = rtDoorbell)).emit (.vector (addr % 16))) := by
  show execRimDoorbell true ⟨tag, r⟩ addr v s = _
  unfold execRimDoorbell
  simp only [if_true, hup, Bool.not_true, Bool.false_eq_true, if_false]

section Fabric
variable (hup : s.host.up = true) (hphase : 2 ≤ s.rimPhase) {u : State} (hu : u = s.pullToFabric (fun x => x.type = rtDoorbell && x.tag = tag))
include hup hphase hu

theorem exec_rimDoorbell_rsvd {r : Bool} (hbad : r = true ∨ 4096 ≤ addr) :
    exec (.rimDoorbell false ⟨tag, r⟩ addr v) s = .next (u.nak rtDoorbell tag .rsvdNonzero) := by
  subst hu
  show execRimDoorbell false ⟨tag, r⟩ addr v s = _
  unfold execRimDoorbell
  simp only [Bool.false_eq_true, if_false, rimOpen_of_phase hup hphase, Bool.not_true]
  exact if_pos (by simpa using hbad)

theorem exec_rimDoorbell_fabric (haddr : addr < 4096) : exec (.rimDoorbell false ⟨tag, false⟩ addr v) s =
    if u.rimPhase < 4 then .next (u.nak rtDoorbell tag .notReady)
    else match u.hostPart with
      | none => .next (u.nak rtDoorbell tag .perm)
      | some q => .next (if (u.doorbell q addr v).1 = .ok then (u.doorbell q addr v).2
        else (u.doorbell q addr v).2.nak rtDoorbell tag (u.doorbell q addr v).1) := by
  subst hu
  show execRimDoorbell false ⟨tag, false⟩ addr v s = _
  unfold execRimDoorbell
  simp only [Bool.false_eq_true, if_false, rimOpen_of_phase hup hphase, Bool.not_true, Bool.false_or, decide_eq_true_eq,
    Nat.not_le.mpr haddr] <;> cases State.hostPart _ <;> rfl

end Fabric

theorem exec_hostDb (hup : s.host.up = true) (hphase : 2 ≤ s.rimPhase) (hv : v.toNat < 2 ^ 32) (hbits : bits v 15 12 = 0) :
    exec (.hostDb v) s = .next (s.toFabric
      { type := rtDoorbell, len := 1, addr := bits v 11 0, payload := [BitVec.ofNat 64 (bits v 31 16)] }) := by
  show execHostDb v s = _
  unfold execHostDb
  rw [hostReg_ok hup (by simp only [hv, hbits, rimOpen_of_phase hup hphase]; rfl)]

end Doorbell

/-- Settles O41: messages and doorbells of the host cross the rim and are answered. -/
theorem mailboxesAndDoorbells : Obligations.mailboxes_and_doorbells := by
  intro k j p ch tag addr v m st s hup put settled
  refine ⟨exec_mbxPutRead hup, exec_mbxPutRead_dark hup, exec_mbxAckTimeout hup, ⟨exec_mbxPop hup, exec_mbxPop_empty⟩,
    exec_rimMbxPut_host hup, fun hdir hphase hlen => ?_, exec_rimMbxAck_popped hup, ?_, ?_, ?_, exec_mailboxDelivery_empty,
    fun r => exec_rimDoorbell_host hup r, ?_, fun hphase hv hbits => ?_⟩
  · have hexec := exec_rimMbxPut_fabric hup hdir hphase hlen
    refine ⟨fun hr => hexec.trans (if_pos hr), fun hr hearly => hexec.trans ((if_neg (Bool.eq_false_iff.mp hr)).trans (if_pos hearly)),
      fun hr hopen hlong => hexec.trans ((if_neg (Bool.eq_false_iff.mp hr)).trans ((if_neg (Nat.not_lt.mpr hopen)).trans (if_pos hlong))),
      fun hr hopen hshort => ?_⟩
    exact hexec.trans ((if_neg (Bool.eq_false_iff.mp hr)).trans ((if_neg (Nat.not_lt.mpr hopen)).trans (if_neg (Nat.not_lt.mpr hshort))))
  · intro u b h t hbind hhost hmsgs hch
    exact exec_rimMbxAck_consumed rfl hbind hhost hmsgs hch
  · intro u htag hwait
    exact exec_rimMbxAck_result hup rfl htag hwait
  · intro x c h t bs s1 s2 hmsgs hlive hread hroom hbody hprod hkept
    exact exec_mailboxDelivery hmsgs hlive hread hroom hbody hprod hkept
  · intro u hphase
    have hexec := fun ha => exec_rimDoorbell_fabric (v := v) hup hphase (u := u) rfl (addr := addr) ha
    refine ⟨exec_rimDoorbell_rsvd hup hphase rfl (.inl rfl), fun haddr => exec_rimDoorbell_rsvd hup hphase rfl (.inr haddr),
      fun hearly haddr => (hexec haddr).trans (if_pos hearly), fun hopen haddr hnone => (hexec haddr).trans ((if_neg (Nat.not_lt.mpr hopen)).trans ?_),
      fun q hopen haddr hpart => ⟨fun hok => (hexec haddr).trans ((if_neg (Nat.not_lt.mpr hopen)).trans ?_),
        fun hbad => (hexec haddr).trans ((if_neg (Nat.not_lt.mpr hopen)).trans ?_)⟩⟩
    · simp only [hnone]
    · simp only [hpart, hok, if_true]
    · simp only [hpart, hbad, if_false]
  · exact exec_hostDb hup hphase hv hbits

end Sys2Proof.Machine

/-! ### What arrives at the host, and the host's requests (R302, R437, R446 to R454, R511, R563, R576) -/

namespace Sys2Proof.Machine

/-! #### Arrivals at the host (R441, R447, R450 to R454) -/

theorem code_eq_zero_iff (st : Status) : st.code = 0 ↔ st = .ok := by cases st <;> decide

theorem takeToHost_of_takeMsg {s : State} {t : RimMsg → Bool} {m : RimMsg} {rest : List RimMsg}
    (h : takeMsg t s.host.toHost = some (m, rest)) : s.takeToHost t = some (m, s.onHost (fun h => { h with toHost := rest })) := by
  unfold State.takeToHost
  rw [h]
  rfl

/-- Taking a message off its way to the fabric side changes that way alone. -/
theorem pullToFabric_eq (s : State) (t : RimMsg → Bool) : ∃ l, s.pullToFabric t = s.onHost (fun h => { h with toFabric := l }) := by
  unfold State.pullToFabric State.takeToFabric
  cases takeMsg t s.host.toFabric with
  | none => exact ⟨s.host.toFabric, rfl⟩
  | some x => exact ⟨x.2, rfl⟩

/-- A flag that sets: its bit, its count, and the vector that may leave (R9, R453). -/
theorem setInt_eq {s : State} (hup : s.host.up = true) (i : Nat) : s.setInt i = { s with
    host := { s.host with intStatus := s.host.intStatus ||| (1 <<< i), intCount := s.host.intCount.mod 0 i sat8 }
    out := (s.setInt i).out } := by
  unfold State.setInt
  rw [if_neg (by simp [hup])]
  dsimp only
  split <;> rfl

section Arrival
variable {m : RimMsg} {rest : List RimMsg} {tag : Nat} {st : Status} {s : State} (hup : s.host.up = true)
include hup

theorem exec_ctrlResult (hmsg : takeMsg (fun m => m.type = rtCtrlResult) s.host.toHost = some (m, rest)) : exec .ctrlResult s =
    .next ((s.onHost (fun h => { h with toHost := rest, outstanding := h.outstanding - 1 })).takeResult m.payload) := by
  show execCtrlResult s = _
  unfold execCtrlResult
  simp only [takeToHost_of_takeMsg hmsg]
  exact if_neg (by simp [hup])

theorem exec_attestResp (hmsg : takeMsg (fun m => m.type = rtAttestResp) s.host.toHost = some (m, rest)) : exec (.attestResp st) s =
    .next ((s.onHost (fun h => { h with
      toHost := rest, attestBuf := m.payload, attestBusy := false, attestStatus := st.code })).setInt flagAttestDone) := by
  show execAttestResp st s = _
  unfold execAttestResp
  simp only [takeToHost_of_takeMsg hmsg]
  exact if_neg (by simp [hup])

theorem exec_telemetryData (hmsg : takeMsg (fun m => m.type = rtTelemetry) s.host.toHost = some (m, rest)) : exec .telemetryData s =
    .next ((s.onHost (fun h => { h with
      toHost := rest
      telemBuf := m.payload
      telemBusy := false
      summary := if m.addr = 0 then m.payload else h.summary })).setInt flagTelemDone) := by
  show execTelemetryData s = _
  unfold execTelemetryData
  simp only [takeToHost_of_takeMsg hmsg]
  exact if_neg (by simp [hup])

/-- The host side with an EVENT record in its queue, or counted dropped, and in its CXL event log (R450, R452). -/
def HostSt.takeEvent (h : HostSt) (e : EventRec) : HostSt :=
  let h := if h.events.length < 256 then { h with events := h.events ++ [e] } else { h with eventsDropped := sat8 h.eventsDropped }
  if e.code = evDc then { h with dcLog := h.dcLog ++ [e] } else { h with cxlLog := h.cxlLog ++ [e] }

theorem exec_event (hmsg : takeMsg (fun m => m.type = rtEvent) s.host.toHost = some (m, rest)) :
    exec .event s = .next ((s.onHost (fun h => ({ h with toHost := rest } : HostSt).takeEvent (eventOf m))).setInt flagEvent) := by
  show execEvent s = _
  unfold execEvent
  rw [if_neg (by simp [hup])]
  simp only [takeToHost_of_takeMsg hmsg]
  rfl

omit hup in
theorem takeEvent_facts (h : HostSt) (e : EventRec) :
    let t := h.takeEvent e
    t.up = h.up ∧ t.toHost = h.toHost ∧ t.intStatus = h.intStatus ∧
    (h.events.length < 256 → t.events = h.events ++ [e] ∧ t.eventsDropped = h.eventsDropped) ∧
    (256 ≤ h.events.length → t.events = h.events ∧ t.eventsDropped = sat8 h.eventsDropped) ∧
    (e.code = evDc → t.dcLog = h.dcLog ++ [e] ∧ t.cxlLog = h.cxlLog) ∧
    (e.code ≠ evDc → t.cxlLog = h.cxlLog ++ [e] ∧ t.dcLog = h.dcLog) := by
  simp only [HostSt.takeEvent]
  by_cases hroom : h.events.length < 256 <;> by_cases hdc : e.code = evDc <;> simp [hroom, hdc, Nat.not_le.mpr, Nat.le_of_not_lt]

theorem exec_rimNak_read (hmsg : takeMsg (fun m => m.type = rtRimNak && m.tag = tag && m.addr = rtMemRd && m.status = st.code)
    s.host.toHost = some (m, rest)) (hst : st ≠ .ok) :
    let u := s.onHost (fun h => { h with toHost := rest })
    exec (.rimNak true tag rtMemRd st) s =
      .next ((if st = .range then u.countHost 0 else u).emit (.hostData tag Status.poison.code (List.replicate 64 0) true)) := by
  show execRimNak true tag rtMemRd st s = _
  unfold execRimNak State.hostNak State.readAnswer
  rw [if_neg (by simp [hup])]
  simp only [takeToHost_of_takeMsg hmsg, if_true, (code_eq_zero_iff st).not.mpr hst, if_false]

theorem exec_rimNak_write (hmsg : takeMsg (fun m => m.type = rtRimNak && m.tag = tag && m.addr = rtMemWr && m.status = st.code)
    s.host.toHost = some (m, rest)) :
    let u := s.onHost (fun h => { h with toHost := rest })
    exec (.rimNak true tag rtMemWr st) s =
      .next ((if st = .range then (u.countHost 1).setInt flagRefused else u).emit (.hostData tag 0 [] false)) := by
  show execRimNak true tag rtMemWr st s = _
  unfold execRimNak State.hostNak State.writeAnswer
  rw [if_neg (by simp [hup])]
  simp only [takeToHost_of_takeMsg hmsg, if_true, show rtMemWr ≠ rtMemRd by decide, if_false]

end Arrival

section Drop
variable {m : RimMsg} {s : State}

theorem exec_rimMessageDrop {c : Nat} (hcause : dropCause m = some c) (b : Bool) : exec (.rimMessageDrop b m) s = .next (s.rimDrop b c) := by
  show execRimMessageDrop b m s = _
  unfold execRimMessageDrop
  simp only [hcause]

theorem exec_rimMessageDrop_good (hgood : dropCause m = none) (b : Bool) : exec (.rimMessageDrop b m) s = .next s := by
  show execRimMessageDrop b m s = _
  unfold execRimMessageDrop
  simp only [hgood]

theorem dropCause_type (htype : m.type = 0 ∨ 16 < m.type) : dropCause m = some 0 := if_pos (by simpa using htype)

end Drop

section Time
variable {s : State} (hopen : s.rimOpen = true)
include hopen

theorem exec_timeSync_rsvd (tag : Nat) : exec (.timeSync ⟨tag, true⟩) s =
    .next ((s.pullToFabric (fun x => x.type = rtTimeSync && x.tag = tag)).nak rtTimeSync tag .rsvdNonzero) :=
  if_neg (by simp [hopen])

theorem exec_timeSync (tag : Nat) : Goes (exec (.timeSync ⟨tag, false⟩) s) (fun t =>
    t.host.roundSync = s.now ∧ ∃ ts, t.out = .time s.now ts :: s.out) := by
  obtain ⟨l, hl⟩ := pullToFabric_eq s (fun x => x.type = rtTimeSync && x.tag = tag)
  have hexec : exec (.timeSync ⟨tag, false⟩) s = .next (s.pullToFabric (fun x => x.type = rtTimeSync && x.tag = tag)).timeSync :=
    if_neg (by simp [hopen])
  rw [hl] at hexec
  exact ⟨_, hexec, rfl, _, rfl⟩

theorem exec_timeSyncPeriodic (hdue : s.now % 1024 = 0) : Goes (exec .timeSyncPeriodic s) (fun t =>
    t.host.roundSync = s.now ∧ ∃ ts, t.out = .time s.now ts :: s.out) :=
  ⟨s.timeSync, if_pos (by simp [hopen, hdue]), rfl, _, rfl⟩

omit hopen in
theorem exec_timeSyncPeriodic_not (hno : s.now % 1024 ≠ 0) : exec .timeSyncPeriodic s = .next s := if_neg (by simp [hno])

end Time

/-! #### Requests of the host (R302, R437, R448, R451, R454, R511, R563) -/

section Request
variable {v : U64} {s : State} (hup : s.host.up = true)
include hup

theorem exec_ctrlGo : exec .ctrlGo s = .next s.ctrlGo := by
  show execCtrlGo s = _
  unfold execCtrlGo
  rw [hostReg_ok hup rfl]

theorem exec_ctrlGo_service (hfew : s.host.outstanding < 64) (hphase : s.rimPhase = 4) : exec .ctrlGo s =
    .next ((s.onHost (fun h => { h with outstanding := h.outstanding + 1 })).enqueue .operator { words := bufWords s.host.ctrlReq 0 32 }) := by
  have hkept : (s.onHost (fun h => { h with outstanding := h.outstanding + 1 })).rimPhase = 4 := hphase
  rw [exec_ctrlGo hup]
  unfold State.ctrlGo
  simp only [Nat.not_le.mpr hfew, if_false, rimOpen_of_phase hup (hphase ▸ (by decide : 2 ≤ 4)), Bool.not_true, Bool.false_eq_true, hkept,
    Nat.lt_irrefl, show ¬ (4 = 5) by decide]

variable (hphase : 2 ≤ s.rimPhase)
include hphase

theorem exec_telemReq (hv : v.toNat < 65536) : exec (.telemReq v) s =
    .next ((s.onHost (fun h => { h with telemBusy := true })).toFabric { type := rtTelemetry, addr := v.toNat }) := by
  show execTelemReq v s = _
  unfold execTelemReq
  rw [hostReg_ok hup (by simp [hv, rimOpen_of_phase hup hphase])]

theorem exec_attestGo : exec .attestGo s = .next ((s.onHost (fun h => { h with attestBusy := true })).toFabric
    { type := rtAttestReq, len := 4, payload := bufWords s.host.nonce 0 4 }) := by
  show execAttestGo s = _
  unfold execAttestGo
  rw [hostReg_ok hup (rimOpen_of_phase hup hphase)]

theorem exec_fwGo (hv : v.toNat < 2 ^ 40) : exec (.fwGo v) s =
    .next (if bits v 39 32 = 0 || 128 < bits v 39 32 then s.rimDrop false 2
      else s.toFabric { type := rtFwChunk, len := bits v 39 32, addr := bits v 31 0, payload := bufWords s.host.fwBuf 0 (bits v 39 32) }) := by
  show execFwGo v s = _
  unfold execFwGo
  rw [hostReg_ok hup (by simp only [hv, rimOpen_of_phase hup hphase]; rfl)]

theorem exec_resetCmd : exec (.resetCmd v) s =
    .next (if bits v 31 4 ≠ 0 then s.nak rtResetReq 0 .rsvdNonzero
      else if bits v 3 0 = 0 || 3 < bits v 3 0 then s.nak rtResetReq 0 .unsupported
      else s.toFabric { type := rtResetReq, len := 1, payload := [v] }) := by
  show execResetCmd v s = _
  unfold execResetCmd
  rw [hostReg_ok hup (rimOpen_of_phase hup hphase)]
  rfl

end Request

section Service
variable {tag sel index : Nat} {nonce ws : List U64} {facts : ImageFacts} {s u : State} (hopen : s.rimOpen = true)
include hopen

theorem exec_telemetry (hu : u = s.pullToFabric (fun x => x.type = rtTelemetry && x.tag = tag)) (r : Bool) :
    exec (.telemetry ⟨tag, r⟩ sel) s = if r || 65536 ≤ sel then .next (u.nak rtTelemetry tag .rsvdNonzero)
      else match u.telemetryData sel with
        | none => .next (u.nak rtTelemetry tag .unsupported)
        | some d => .next (u.toHost { type := rtTelemetry, dir := true, tag := tag, len := d.length, addr := sel, payload := d }) := by
  subst hu
  show execTelemetry ⟨tag, r⟩ sel s = _
  unfold execTelemetry
  simp only [hopen, Bool.not_true, Bool.false_eq_true, if_false] <;> cases State.telemetryData _ sel <;> rfl

theorem exec_attestReq (hu : u = s.pullToFabric (fun x => x.type = rtAttestReq && x.tag = tag)) (hlease : s.leaseHeld = true) :
    let d := (bytesWords ((u.report none nonce).length / 8) (u.report none nonce) ++ Config.ideKey u.free).take 2048
    exec (.attestReq ⟨tag, false⟩ nonce) s = .next (({ u with free := u.free + 1 } : State).toHost
      { type := rtAttestResp, dir := true, tag := tag, len := d.length, payload := d }) := by
  subst hu
  exact (if_neg (by simp [hopen, hlease])).trans (if_neg Bool.false_ne_true)

theorem exec_attestReq_rsvd (hu : u = s.pullToFabric (fun x => x.type = rtAttestReq && x.tag = tag)) :
    exec (.attestReq ⟨tag, true⟩ nonce) s = .next (u.nak rtAttestReq tag .rsvdNonzero) := by
  subst hu
  exact if_neg (by simp [hopen])

/-- A chunk of an image at an open rim: dropped, refused, or taken, in the order of its checks (R447, R511). -/
theorem exec_fwChunk (hu : u = s.pullToFabric (fun x => x.type = rtFwChunk && x.tag = tag)) (r : Bool) :
    exec (.fwChunk ⟨tag, r⟩ index ws facts) s = if ws.isEmpty || 128 < ws.length then .next (u.countHost 14)
      else if r || 2 ^ 32 ≤ index then .next (u.nak rtFwChunk tag .rsvdNonzero)
      else if u.rimPhase = 2 then .next (u.nak rtFwChunk tag .notReady)
      else if u.rimPhase = 5 then .next (u.nak rtFwChunk tag .busyRetry)
      else .next ((u.beginRecovery index ws).takeChunk tag index ws facts) := by
  subst hu
  exact if_neg (by simp [hopen])

omit hopen in
/-- In SERVICE a chunk outside the staging area gets RANGE, any other joins it (R511). -/
theorem takeChunk_service (hmode : u.rst.mode = .service) :
    (u.auth.staging = none → (u.beginRecovery index ws).takeChunk tag index ws facts = u.nak rtFwChunk tag .range) ∧
    ∀ len count got, u.auth.staging = some (len, count, got) → index < count → 1024 * index + 8 * ws.length ≤ len + 7 →
      (u.beginRecovery index ws).takeChunk tag index ws facts =
        (u.onAuth (fun a => { a with staging := some (len, count, got.put [] index ws) })).stageChunks facts := by
  have hbegin : u.beginRecovery index ws = u := if_neg (by simp [hmode])
  rw [hbegin]
  unfold State.takeChunk
  refine ⟨fun hnone => ?_, fun len count got hstaging hindex hlen => ?_⟩
  · simp only [hnone]
  · simp only [hstaging]
    rw [if_neg (by simp [hindex, hlen])]
    exact if_neg (by simp [hmode])

end Service

/-- A refusal that arrives at the fabric side concerns nothing that the model keeps (R447). -/
theorem exec_rimNak_fabric (tag ty : Nat) (st : Status) (s : State) : exec (.rimNak false tag ty st) s = .next s := by
  show execRimNak false tag ty st s = _
  unfold execRimNak
  exact if_pos (by simp)

/-- Settles O42: what arrives at the host is kept or counted; the host's requests cross the rim and are answered or refused. -/
theorem rimAnswersAndHostRequests : Obligations.rim_answers_and_host_requests := by
  refine ⟨fun m rest tag st s hup => ?arrival, fun v tag sel index nonce ws facts s hup => ?request⟩
  case arrival =>
    refine ⟨fun hmsg => ?result, exec_attestResp hup, exec_telemetryData hup, fun hmsg => ?event, exec_rimNak_read hup, exec_rimNak_write hup,
      fun ty => exec_rimNak_fabric tag ty st s, fun c hcause => ⟨exec_rimMessageDrop hcause true, exec_rimMessageDrop hcause false⟩, dropCause_type,
      exec_rimMessageDrop_good, fun hphase => ?time⟩
    case result =>
      intro u
      have hexec : exec .ctrlResult s = .next (u.takeResult m.payload) := exec_ctrlResult hup hmsg
      exact ⟨fun hroom => hexec.trans (congrArg _ (if_neg (Nat.not_le.mpr hroom))), fun hfull => hexec.trans (congrArg _ (if_pos hfull))⟩
    case event =>
      intro e
      obtain ⟨hkeptUp, hkeptHost, hkeptStatus, hroom, hfull, hdc, hcxl⟩ := takeEvent_facts { s.host with toHost := rest } e
      have hexec := exec_event hup hmsg
      rw [setInt_eq (hkeptUp.trans hup)] at hexec
      exact ⟨_, hexec, hkeptHost, hroom, hfull, hdc, hcxl, by
        show (HostSt.takeEvent _ e).intStatus ||| _ = _
        rw [hkeptStatus], rfl⟩
    case time =>
      have hopen := rimOpen_of_phase hup hphase
      exact ⟨exec_timeSync_rsvd hopen tag, exec_timeSync hopen tag, exec_timeSyncPeriodic hopen, exec_timeSyncPeriodic_not⟩
  case request =>
    refine ⟨?ctrl, fun hphase => ?reg, fun hphase => ?telemetry, fun hphase => ?attest, fun hphase => ?chunk⟩
    case ctrl =>
      intro req
      refine ⟨fun hmany => ?_, fun hfew hdark => ?_, exec_ctrlGo_service hup⟩
      · exact (exec_ctrlGo hup).trans (congrArg _ (if_pos hmany))
      · exact (exec_ctrlGo hup).trans (congrArg _ ((if_neg (Nat.not_le.mpr hfew)).trans (if_pos (by simp [rimOpen_dark hdark]))))
    case reg =>
      refine ⟨exec_telemReq hup hphase, exec_attestGo hup hphase, fun hv hlo hhi => ?_, fun hv hbad => ?_, fun hrsvd => ?_,
        fun hrsvd hkind => ?_, fun hrsvd hlo hhi => ?_⟩
      · exact (exec_fwGo hup hphase hv).trans (congrArg _ (if_neg (by simp only [Bool.or_eq_true, decide_eq_true_eq]; omega)))
      · exact (exec_fwGo hup hphase hv).trans (congrArg _ (if_pos (by simpa using hbad)))
      · exact (exec_resetCmd hup hphase).trans (congrArg _ (if_pos hrsvd))
      · exact (exec_resetCmd hup hphase).trans (congrArg _ ((if_neg (not_not.mpr hrsvd)).trans (if_pos (by simpa using hkind))))
      · exact (exec_resetCmd hup hphase).trans (congrArg _ ((if_neg (not_not.mpr hrsvd)).trans
          (if_neg (by simp only [Bool.or_eq_true, decide_eq_true_eq]; omega))))
    case telemetry =>
      intro u
      have hexec := fun r => exec_telemetry (sel := sel) (u := u) (rimOpen_of_phase hup hphase) rfl r
      refine ⟨(hexec true).trans (if_pos rfl), fun hbad => (hexec false).trans (if_pos (by simpa using hbad)), fun d hsel hd => ?_,
        fun hsel hnone => ?_⟩
      · refine (hexec false).trans ((if_neg (by simp [hsel])).trans ?_)
        simp only [hd]
      · refine (hexec false).trans ((if_neg (by simp [hsel])).trans ?_)
        simp only [hnone]
    case attest =>
      intro u d
      exact ⟨exec_attestReq (rimOpen_of_phase hup hphase) rfl, exec_attestReq_rsvd (rimOpen_of_phase hup hphase) rfl⟩
    case chunk =>
      intro u
      have hexec := fun r => exec_fwChunk (index := index) (ws := ws) (facts := facts) (u := u) (rimOpen_of_phase hup hphase) rfl r
      have hlen : 1 ≤ ws.length → ws.length ≤ 128 → ¬ (ws.isEmpty || 128 < ws.length) = true := fun hlo hhi => by
        simp [List.length_pos_iff.mp hlo, hhi]
      refine ⟨fun hbad r => (hexec r).trans (if_pos (by simpa using hbad)), fun hlo hhi => ?_, fun hlo hhi hindex => ?_⟩
      · exact (hexec true).trans ((if_neg (hlen hlo hhi)).trans (if_pos rfl))
      · have hgood := (hexec false).trans ((if_neg (hlen hlo hhi)).trans (if_neg (by simpa using hindex)))
        refine ⟨fun hp => hgood.trans (if_pos hp), fun hp => hgood.trans ((if_neg (by omega)).trans (if_pos hp)),
          fun hp hmode hnone => hgood.trans ((if_neg (by omega)).trans ((if_neg (by omega)).trans ?_)),
          fun len count got hp hmode hstaging hcount hfits => hgood.trans ((if_neg (by omega)).trans ((if_neg (by omega)).trans ?_))⟩
        · exact congrArg _ ((takeChunk_service hmode).1 hnone)
        · exact congrArg _ ((takeChunk_service hmode).2 len count got hstaging hcount hfits)

end Sys2Proof.Machine

/-! ### The host register block (R9, R10, R452, R453) -/

namespace Sys2Proof.Machine

section Flags
variable {s : State} {l : List Nat} {i : Nat} (v w : U64)

theorem getLsbD_one_shiftLeft {i j : Nat} (hi : i < 64) : ((1 <<< j : Nat) : U64).getLsbD i = decide (i = j) := by
  rw [BitVec.natCast_eq_ofNat, BitVec.getLsbD_ofNat, Nat.one_shiftLeft, Nat.testBit_two_pow]
  simp [hi, eq_comm]

/-- Flags set one after the other: each of them stands and has counted once, and the others are as they were (R9). -/
theorem each_setInt (hup : s.host.up = true) (hl : l.Nodup) : (s.each l State.setInt).host.up = true ∧
    (∀ i, i < 64 → (s.each l State.setInt).host.intStatus.getLsbD i = (s.host.intStatus.getLsbD i || decide (i ∈ l))) ∧
    ∀ i, (s.each l State.setInt).host.intCount.look 0 i =
      if i ∈ l then sat8 (s.host.intCount.look 0 i) else s.host.intCount.look 0 i := by
  induction l generalizing s with
  | nil => exact ⟨hup, fun i _ => by simp [State.each], fun i => by simp [State.each]⟩
  | cons a l ih =>
    obtain ⟨hnot, hrest⟩ := List.nodup_cons.mp hl
    have hset := setInt_eq hup a
    have hup' : (s.setInt a).host.up = true := by rw [hset]; exact hup
    have hstatus : (s.setInt a).host.intStatus = s.host.intStatus ||| (1 <<< a) := by rw [hset]
    have hcount : (s.setInt a).host.intCount = s.host.intCount.mod 0 a sat8 := by rw [hset]
    obtain ⟨hupL, hstatusL, hcountL⟩ := ih hup' hrest
    refine ⟨hupL, fun i hi => ?_, fun i => ?_⟩
    · refine (hstatusL i hi).trans ?_
      rw [hstatus, BitVec.getLsbD_or, getLsbD_one_shiftLeft hi]
      simp [Bool.or_assoc]
    · refine (hcountL i).trans ?_
      rw [hcount]
      by_cases hia : i = a
      · subst hia
        simp [hnot]
      · simp [hia]

theorem each_setInt_down (hup : s.host.up = false) (l : List Nat) : s.each l State.setInt = s :=
  each_inv (· = s) (fun u a hu => by subst hu; exact if_pos (by simp [hup])) rfl l

theorem exec_intStatusWrite : exec (.intStatusWrite v w) s =
    (s.each ((List.range 12).filter (fun i => w.getLsbD i)) State.setInt).hostReg (decide (v.toNat < 4096))
      (fun s => s.onHost (fun h => { h with intStatus := clearFlags h.intStatus v (w &&& 0xFFF) })) := rfl

theorem each_setInt_zero : s.each ((List.range 12).filter (fun i => (0 : U64).getLsbD i)) State.setInt = s := by
  simp [State.each]

theorem exec_intStatusWrite_clear (hup : s.host.up = true) (hv : v.toNat < 4096) : exec (.intStatusWrite v 0) s =
    .next (s.onHost (fun h => { h with intStatus := h.intStatus &&& ~~~v })) := by
  rw [exec_intStatusWrite, each_setInt_zero, hostReg_ok hup (decide_eq_true hv)]
  simp [clearFlags]

theorem getLsbD_lowFlags (hi : i < 12) : ((w &&& 0xFFF : U64)).getLsbD i = w.getLsbD i := by
  have hmask : (0xFFF : U64).getLsbD i = true := by interval_cases i <;> rfl
  rw [BitVec.getLsbD_and, hmask, Bool.and_true]

/-- A flag set in the same cycle stays set and counts, one written as 1 is cleared, and the others stay (R9). -/
theorem exec_intStatusWrite_goes (hup : s.host.up = true) (hv : v.toNat < 4096) : Goes (exec (.intStatusWrite v w) s) (fun t =>
    (∀ i, i < 12 → t.host.intStatus.getLsbD i = (w.getLsbD i || (s.host.intStatus.getLsbD i && !v.getLsbD i))) ∧
    ∀ i, i < 12 → t.host.intCount.look 0 i = if w.getLsbD i then sat8 (s.host.intCount.look 0 i) else s.host.intCount.look 0 i) := by
  have hnodup : ((List.range 12).filter (fun i => w.getLsbD i)).Nodup := List.nodup_range.filter _
  obtain ⟨hup', hstatus, hcount⟩ := each_setInt hup hnodup
  rw [exec_intStatusWrite, hostReg_ok hup' (decide_eq_true hv)]
  refine ⟨_, rfl, fun i hi => ?_, fun i hi => ?_⟩
  · have h64 : i < 64 := by omega
    show (clearFlags (State.each s _ State.setInt).host.intStatus v (w &&& 0xFFF)).getLsbD i = _
    unfold clearFlags
    rw [BitVec.getLsbD_or, BitVec.getLsbD_and, BitVec.getLsbD_not, getLsbD_lowFlags w hi, hstatus i h64]
    simp only [List.mem_filter, List.mem_range, hi, h64, true_and, decide_true, Bool.true_and, Bool.decide_eq_true]
    cases w.getLsbD i <;> simp
  · refine (hcount i).trans ?_
    simp only [List.mem_filter, List.mem_range, hi, true_and]

theorem exec_intStatusWrite_reserved (hv : 4096 ≤ v.toNat) : exec (.intStatusWrite v w) s =
    .next (s.each ((List.range 12).filter (fun i => w.getLsbD i)) State.setInt) := by
  rw [exec_intStatusWrite, hostReg_refused (by simp [hv])]

theorem exec_intStatusWrite_down (hup : s.host.up = false) : exec (.intStatusWrite v w) s = .next s := by
  rw [exec_intStatusWrite, each_setInt_down hup, hostReg_down hup]

end Flags

section Pops
variable {s : State}

theorem exec_ctrlResPop : exec .ctrlResPop s =
    s.hostReg true (fun s => s.onHost (fun h => { h with results := h.results.drop 1 })) := rfl

theorem exec_eventPop : exec .eventPop s = s.hostReg true (fun s => s.onHost (fun h => { h with events := h.events.drop 1 })) := rfl

theorem exec_ctrlGo_down (hup : s.host.up = false) : exec .ctrlGo s = .next s := by
  show execCtrlGo s = _
  exact hostReg_down hup

theorem exec_hostRegisterWrite_down {offset n : Nat} {v : U64} (hup : s.host.up = false) :
    exec (.hostRegisterWrite offset n v) s = .next s := by
  show execHostRegisterWrite offset n v s = _
  exact hostReg_down hup

end Pops

section Writes
variable {s : State} {offset n k : Nat} {v : U64} (hup : s.host.up = true)
include hup

/-- Only an aligned 4 or 8 byte write within BAR0 reaches a register (R452). -/
theorem exec_hostRegisterWrite_abort (hbad : (n ≠ 4 ∧ n ≠ 8) ∨ offset % n ≠ 0 ∨ 0x10000 ≤ offset) :
    exec (.hostRegisterWrite offset n v) s = .next (s.emit (.abort offset)) := by
  show execHostRegisterWrite offset n v s = _
  unfold execHostRegisterWrite
  rw [hostReg_ok hup rfl]
  refine congrArg _ (if_pos ?_)
  simp only [Bool.or_eq_true, Bool.not_eq_true', Bool.or_eq_false_iff, decide_eq_false_iff_not, decide_eq_true_eq]
  exact or_assoc.mpr hbad

theorem exec_hostRegisterWrite (hrange : offset < 0x10000) (halign : offset % 8 = 0) :
    exec (.hostRegisterWrite offset 8 v) s = .next (s.onHost (fun h => h.plainWrite offset 8 v)) := by
  show execHostRegisterWrite offset 8 v s = _
  unfold execHostRegisterWrite
  rw [hostReg_ok hup rfl]
  refine congrArg _ (if_neg ?_)
  simp [halign, hrange]

end Writes

section Registers
variable (h : HostSt) {k : Nat} {v : U64}

theorem plainWrite_intEnable : h.plainWrite 0x18 8 v = if 4096 ≤ v.toNat then h else { h with intEnable := v } := by
  unfold HostSt.plainWrite
  exact if_pos rfl

theorem plainWrite_ctrlReq (hk : k < 32) : h.plainWrite (0x100 + 8 * k) 8 v = { h with ctrlReq := h.ctrlReq.put 0 k v } := by
  unfold HostSt.plainWrite
  simp only [Bool.and_eq_true, decide_eq_true_eq]
  rw [if_neg (by omega), if_pos (by omega), show (0x100 + 8 * k - 0x100) / 8 = k by omega]
  rfl

theorem plainWrite_mbxTx (hk : k < 1024) : h.plainWrite (0x1000 + 8 * k) 8 v = { h with mbxTx := h.mbxTx.put 0 k v } := by
  unfold HostSt.plainWrite
  simp only [Bool.and_eq_true, decide_eq_true_eq]
  rw [if_neg (by omega), if_neg (by omega), if_pos (by omega), show (0x1000 + 8 * k - 0x1000) / 8 = k by omega]
  rfl

theorem plainWrite_mbxTxLen (hk : k < 16) (hv : v.toNat < 256) :
    h.plainWrite (0x3080 + 8 * k) 8 v = { h with mbxTxLen := h.mbxTxLen.put 0 k v.toNat } := by
  unfold HostSt.plainWrite
  simp only [Bool.and_eq_true, decide_eq_true_eq]
  rw [if_neg (by omega), if_neg (by omega), if_neg (by omega), if_pos (by omega), show (0x3080 + 8 * k - 0x3080) / 8 = k by omega]
  exact if_neg (Nat.not_le.mpr hv)

theorem plainWrite_nonce (hk : k < 4) : h.plainWrite (0x9400 + 8 * k) 8 v = { h with nonce := h.nonce.put 0 k v } := by
  unfold HostSt.plainWrite
  simp only [Bool.and_eq_true, decide_eq_true_eq]
  rw [if_neg (by omega), if_neg (by omega), if_neg (by omega), if_neg (by omega), if_pos (by omega),
    show (0x9400 + 8 * k - 0x9400) / 8 = k by omega]
  rfl

theorem plainWrite_fwBuf (hk : k < 128) : h.plainWrite (0x9800 + 8 * k) 8 v = { h with fwBuf := h.fwBuf.put 0 k v } := by
  unfold HostSt.plainWrite
  simp only [Bool.and_eq_true, decide_eq_true_eq]
  rw [if_neg (by omega), if_neg (by omega), if_neg (by omega), if_neg (by omega), if_neg (by omega), if_pos (by omega),
    show (0x9800 + 8 * k - 0x9800) / 8 = k by omega]
  rfl

theorem plainWrite_above (hk : 0x9C00 ≤ k) : h.plainWrite k 8 v = h := by
  unfold HostSt.plainWrite
  simp only [Bool.and_eq_true, decide_eq_true_eq]
  rw [if_neg (by omega), if_neg (by omega), if_neg (by omega), if_neg (by omega), if_neg (by omega), if_neg (by omega)]

end Registers

/-- Settles O43: pops, the interrupt status register, plain registers, aborted accesses and a die that is down. -/
theorem hostRegisters : Obligations.host_registers := by
  refine fun v k s => ⟨fun hup => ?up, fun hdown => ?down⟩
  case up =>
    have hwrite : ∀ {offset} {f : HostSt → HostSt}, offset < 0x10000 → offset % 8 = 0 → s.host.plainWrite offset 8 v = f s.host →
        exec (.hostRegisterWrite offset 8 v) s = .next (s.onHost f) := fun hrange halign hplain =>
      (exec_hostRegisterWrite hup hrange halign).trans (congrArg (fun h => Host.Outcome.next { s with host := h }) hplain)
    refine ⟨exec_ctrlResPop.trans (hostReg_ok hup rfl), exec_eventPop.trans (hostReg_ok hup rfl), exec_intStatusWrite_clear v hup, fun hv w => exec_intStatusWrite_goes v w hup hv,
      fun hv => ⟨?_, fun w => exec_intStatusWrite_reserved v w hv⟩, fun hv => ?_, fun hv => ?_,
      fun hk => hwrite (by omega) (by omega) (plainWrite_ctrlReq _ hk), fun hk => hwrite (by omega) (by omega) (plainWrite_mbxTx _ hk),
      fun hk hv => hwrite (by omega) (by omega) (plainWrite_mbxTxLen _ hk hv),
      fun hk => hwrite (by omega) (by omega) (plainWrite_nonce _ hk), fun hk => hwrite (by omega) (by omega) (plainWrite_fwBuf _ hk),
      fun hlo hhi halign => hwrite (f := id) hhi halign (plainWrite_above _ hlo), fun hbad => ?_, fun n h4 h8 => ?_⟩
    · exact (exec_intStatusWrite_reserved v 0 hv).trans (congrArg _ each_setInt_zero)
    · exact hwrite (by omega) (by omega) ((plainWrite_intEnable _).trans (if_neg (Nat.not_le.mpr hv)))
    · exact hwrite (f := id) (by omega) (by omega) ((plainWrite_intEnable _).trans (if_pos hv))
    · exact exec_hostRegisterWrite_abort hup (.inr hbad.symm)
    · exact exec_hostRegisterWrite_abort hup (.inl ⟨h4, h8⟩)
  case down =>
    exact ⟨exec_ctrlResPop.trans (hostReg_down hdown), exec_eventPop.trans (hostReg_down hdown), exec_ctrlGo_down hdown,
      fun n w => ⟨exec_intStatusWrite_down v w hdown, exec_hostRegisterWrite_down hdown⟩⟩

end Sys2Proof.Machine

/-! ### The CXL primary mailbox and the host services (R435 to R440, R460, R553, R554) -/

namespace Sys2Proof.Machine

/-! #### The primary mailbox (R436, R554) -/

section Mailbox
variable {s : State} {f : State → State} (hup : s.host.up = true)
include hup

theorem cxl_service (hmode : s.rst.mode = .service) : s.cxl f = .next (f s) :=
  (hostReg_ok hup rfl).trans (congrArg _ (if_pos (by simp [hmode])))

theorem cxl_busy (hmode : s.rst.mode ≠ .service) : s.cxl f = .next (s.cxlAnswer cxlBusy []) :=
  (hostReg_ok hup rfl).trans (congrArg _ (if_neg (by simpa using hmode)))

/-- Until SERVICE a Dynamic Capacity command, too, is answered Busy. -/
theorem relay_busy (hmode : s.rst.mode ≠ .service) (op entry : Nat) : s.relay op entry = .next (s.cxlAnswer cxlBusy []) :=
  cxl_busy hup hmode

variable (hmode : s.rst.mode = .service)
include hmode

/-- With the lease held and room on channel 64, a relayed command is answered by the stake (R436, R449). -/
theorem relay_served (hlease : s.leaseHeld = true) (hroom : s.putStatus idHost 64 0 3 = .ok) (op entry : Nat) : s.relay op entry =
    .next ((s.stage 0 (dcCommand s.future op entry).stage).cxlAnswer
      (if (dcCommand s.future op entry).st = .ok then cxlSuccess else cxlInvalid) (dcCommand s.future op entry).words) :=
  (cxl_service hup hmode).trans (congrArg _ (if_neg (by simp [hlease, hroom])))

theorem relay_noLease (hlease : s.leaseHeld = false) (op entry : Nat) : s.relay op entry = .next (s.cxlAnswer cxlRetry []) :=
  (cxl_service hup hmode).trans (congrArg _ (if_pos (by simp [hlease])))

end Mailbox

section Commands
variable (s : State) (log n op req : Nat) (policy : U64) (entry : Fin 64)

theorem exec_identifyMemoryDevice : exec .identifyMemoryDevice s =
    s.cxl (fun s => s.cxlAnswer cxlSuccess (Config.cxlAnswer 0x4000 s.host.summary)) := rfl

theorem exec_getSupportedLogs : exec .getSupportedLogs s =
    s.cxl (fun s => s.cxlAnswer cxlSuccess (Config.cxlAnswer 0x0400 s.host.summary)) := rfl

theorem exec_getLog : exec .getLog s = s.cxl (fun s => s.cxlAnswer cxlSuccess (Config.cxlAnswer 0x0401 s.host.summary)) := rfl

theorem exec_getHealthInfo : exec .getHealthInfo s =
    s.cxl (fun s => s.cxlAnswer cxlSuccess (Config.cxlAnswer 0x4200 s.host.summary)) := rfl

theorem exec_getEventRecords : exec (.getEventRecords log) s = s.cxl (fun s =>
    if 4 < log then s.cxlAnswer cxlInvalid [] else s.cxlAnswer cxlSuccess ((s.host.eventLog log).flatMap EventRec.words)) := rfl

/-- The oldest n records of a log go (R436). -/
def HostSt.clearEvents (h : HostSt) (log n : Nat) : HostSt :=
  if log = 4 then { h with dcLog := h.dcLog.drop n }
  else { h with cxlLog := dropFirst (fun (e : EventRec) => (Config.cxlSeverity e.code).val = log) n h.cxlLog }

theorem exec_clearEventRecords : exec (.clearEventRecords log n) s = s.cxl (fun s =>
    if 4 < log then s.cxlAnswer cxlInvalid [] else (s.onHost (fun h => h.clearEvents log n)).cxlAnswer cxlSuccess []) := rfl

theorem exec_getEventInterruptPolicy : exec .getEventInterruptPolicy s = s.cxl (fun s => s.cxlAnswer cxlSuccess [s.host.policy]) := rfl

theorem exec_setEventInterruptPolicy : exec (.setEventInterruptPolicy policy) s =
    s.cxl (fun s => (s.onHost (fun h => { h with policy := policy })).cxlAnswer cxlSuccess []) := rfl

theorem exec_unsupportedMailboxCommand : exec (.unsupportedMailboxCommand op) s = s.cxl (fun s => s.cxlAnswer cxlUnsupported []) := rfl

theorem exec_getDynamicCapacityConfiguration : exec (.getDynamicCapacityConfiguration req) s = s.relay dcGetConfig 0 := rfl

theorem exec_getDynamicCapacityExtentList : exec (.getDynamicCapacityExtentList req) s = s.relay dcGetList 0 := rfl

theorem exec_addDynamicCapacityResponse : exec (.addDynamicCapacityResponse req entry) s = s.relay dcAdd entry.val := rfl

theorem exec_releaseDynamicCapacity : exec (.releaseDynamicCapacity req entry) s = s.relay dcRelease entry.val := rfl

/-- The Dynamic Capacity commands are relayed. -/
theorem exec_dynamicCapacity {c : Instr} (hc : c = .getDynamicCapacityConfiguration req ∨ c = .getDynamicCapacityExtentList req ∨
    c = .addDynamicCapacityResponse req entry ∨ c = .releaseDynamicCapacity req entry) : ∃ op k, exec c s = s.relay op k := by
  obtain rfl | rfl | rfl | rfl := hc
  · exact ⟨_, _, exec_getDynamicCapacityConfiguration s req⟩
  · exact ⟨_, _, exec_getDynamicCapacityExtentList s req⟩
  · exact ⟨_, _, exec_addDynamicCapacityResponse s req entry⟩
  · exact ⟨_, _, exec_releaseDynamicCapacity s req entry⟩

/-- Every mailbox command answers as one command of the mailbox. -/
theorem exec_mailbox {c : Instr} (hc : c = .identifyMemoryDevice ∨ c = .getSupportedLogs ∨ c = .getLog ∨ c = .getHealthInfo ∨
    c = .getEventRecords log ∨ c = .clearEventRecords log n ∨ c = .getEventInterruptPolicy ∨ c = .setEventInterruptPolicy policy ∨
    c = .getDynamicCapacityConfiguration req ∨ c = .getDynamicCapacityExtentList req ∨ c = .addDynamicCapacityResponse req entry ∨
    c = .releaseDynamicCapacity req entry ∨ c = .unsupportedMailboxCommand op) : ∃ f, exec c s = s.cxl f := by
  have hrelay : ∀ {c op k}, exec c s = s.relay op k → ∃ f, exec c s = s.cxl f := fun h => ⟨_, h.trans rfl⟩
  obtain rfl | rfl | rfl | rfl | rfl | rfl | rfl | rfl | rfl | rfl | rfl | rfl | rfl := hc
  · exact ⟨_, exec_identifyMemoryDevice s⟩
  · exact ⟨_, exec_getSupportedLogs s⟩
  · exact ⟨_, exec_getLog s⟩
  · exact ⟨_, exec_getHealthInfo s⟩
  · exact ⟨_, exec_getEventRecords s log⟩
  · exact ⟨_, exec_clearEventRecords s log n⟩
  · exact ⟨_, exec_getEventInterruptPolicy s⟩
  · exact ⟨_, exec_setEventInterruptPolicy s policy⟩
  · exact hrelay (exec_getDynamicCapacityConfiguration s req)
  · exact hrelay (exec_getDynamicCapacityExtentList s req)
  · exact hrelay (exec_addDynamicCapacityResponse s req entry)
  · exact hrelay (exec_releaseDynamicCapacity s req entry)
  · exact ⟨_, exec_unsupportedMailboxCommand s op⟩

end Commands

section EventLogs
variable {α : Type} (t : α → Bool)

/-- Of what the test picks, the oldest n are gone. -/
theorem filter_dropFirst (n : Nat) (l : List α) : (dropFirst t n l).filter t = (l.filter t).drop n := by
  induction l generalizing n with
  | nil => simp [dropFirst]
  | cons a l ih =>
    cases n with
    | zero => simp [dropFirst]
    | succ n =>
      cases ha : t a
      · simp [dropFirst, ha, ih]
      · simp [dropFirst, ha, ih]

/-- What the test does not pick stays. -/
theorem filter_not_dropFirst (n : Nat) (l : List α) : (dropFirst t n l).filter (fun a => !t a) = l.filter (fun a => !t a) := by
  induction l generalizing n with
  | nil => simp [dropFirst]
  | cons a l ih =>
    cases n with
    | zero => simp [dropFirst]
    | succ n =>
      cases ha : t a
      · simp [dropFirst, ha, ih]
      · simp [dropFirst, ha, ih]

variable {s : State} {log : Nat} (hup : s.host.up = true) (hmode : s.rst.mode = .service)
include hup hmode

theorem exec_getEventRecords_valid (hlog : log ≤ 4) : exec (.getEventRecords log) s =
    .next (s.cxlAnswer cxlSuccess ((s.host.eventLog log).flatMap EventRec.words)) := by
  rw [exec_getEventRecords, cxl_service hup hmode, if_neg (Nat.not_lt.mpr hlog)]

theorem exec_getEventRecords_invalid (hlog : 4 < log) : exec (.getEventRecords log) s = .next (s.cxlAnswer cxlInvalid []) := by
  rw [exec_getEventRecords, cxl_service hup hmode, if_pos hlog]

theorem exec_clearEventRecords_invalid (hlog : 4 < log) (n : Nat) :
    exec (.clearEventRecords log n) s = .next (s.cxlAnswer cxlInvalid []) := by
  rw [exec_clearEventRecords, cxl_service hup hmode, if_pos hlog]

theorem exec_clearEventRecords_valid (hlog : log ≤ 4) (n : Nat) : exec (.clearEventRecords log n) s =
    .next ((s.onHost (fun h => h.clearEvents log n)).cxlAnswer cxlSuccess []) := by
  rw [exec_clearEventRecords, cxl_service hup hmode, if_neg (Nat.not_lt.mpr hlog)]

theorem exec_clearEventRecords_goes (hlog : log < 4) (n : Nat) : Goes (exec (.clearEventRecords log n) s) (fun t =>
    t.host.cxlLog.filter (fun e => (Config.cxlSeverity e.code).val = log) =
      (s.host.cxlLog.filter (fun e => (Config.cxlSeverity e.code).val = log)).drop n ∧
    t.host.cxlLog.filter (fun e => (Config.cxlSeverity e.code).val ≠ log) =
      s.host.cxlLog.filter (fun e => (Config.cxlSeverity e.code).val ≠ log) ∧
    t.host.cxlReturn = 0 ∧ t.host.cxlPayload = [] ∧ t.host.dcLog = s.host.dcLog) := by
  have hclear : s.host.clearEvents log n = { s.host with
      cxlLog := dropFirst (fun (e : EventRec) => (Config.cxlSeverity e.code).val = log) n s.host.cxlLog } := if_neg (Nat.ne_of_lt hlog)
  have hexec := exec_clearEventRecords_valid hup hmode (Nat.le_of_lt hlog) n
  simp only [State.onHost, hclear] at hexec
  refine ⟨_, hexec, filter_dropFirst _ n _, ?_, rfl, rfl, rfl⟩
  have hrest := filter_not_dropFirst (fun (e : EventRec) => decide ((Config.cxlSeverity e.code).val = log)) n s.host.cxlLog
  simp only [← decide_not] at hrest
  exact hrest

end EventLogs

section DynamicCapacity
variable (f : State) (entry : Nat)

theorem dcCommand_config : dcCommand f dcGetConfig entry = { words := [1, 0, 0x1000000000, 0x200000] } := rfl

theorem dcCommand_list : dcCommand f dcGetList entry =
    Served.mk .ok ((f.hostEntries.filter (fun e => e.2.st = 2)).flatMap
      (fun e => [BitVec.ofNat 64 e.2.dpa, BitVec.ofNat 64 (e.2.blocks * 0x200000)])) [] := rfl

theorem dcCommand_add : dcCommand f dcAdd entry =
    if (f.host.exts.look {} entry).st = 1 then { stage := [.hostExtent entry 2] } else { st := .range } := rfl

theorem dcCommand_release : dcCommand f dcRelease entry =
    if (f.host.exts.look {} entry).st = 1 || (f.host.exts.look {} entry).st = 2 then { stage := [.hostExtent entry 3] }
    else { st := .range } := rfl

variable {s : State}

theorem stage_none (s : State) (op : Nat) : s.stage op [] = s := by
  simp [State.stage, State.onCtl]

end DynamicCapacity

/-- Settles O44: before SERVICE every mailbox command is answered Busy; in SERVICE each has its answer, and the Dynamic Capacity
commands have the stake's. -/
theorem cxlMailboxCommands : Obligations.cxl_mailbox_commands := by
  intro log n req op entry policy s hup ans
  refine ⟨fun hmode => ?service, fun hmode c hc => ?busy⟩
  case busy =>
    obtain ⟨f, hf⟩ := exec_mailbox s _ _ _ _ _ _ hc
    exact hf.trans (cxl_busy hup hmode)
  case service =>
    have hanswer : ∀ {c f}, exec c s = s.cxl f → exec c s = .next (f s) := fun h => h.trans (cxl_service hup hmode)
    refine ⟨hanswer (exec_identifyMemoryDevice s), hanswer (exec_getSupportedLogs s), hanswer (exec_getLog s),
      hanswer (exec_getHealthInfo s), ?dc, fun hlog => ?log,
      fun hlog => ⟨exec_getEventRecords_invalid hup hmode hlog, exec_clearEventRecords_invalid hup hmode hlog n⟩,
      hanswer (exec_getEventInterruptPolicy s), hanswer (exec_setEventInterruptPolicy s policy),
      hanswer (exec_unsupportedMailboxCommand s op), fun hlease hroom => ?lease, fun hlease c hc => ?noLease⟩
    case dc =>
      rintro rfl
      exact ⟨exec_getEventRecords_valid hup hmode (by omega), exec_clearEventRecords_valid hup hmode (by omega) n⟩
    case log =>
      refine ⟨(exec_getEventRecords_valid hup hmode (by omega)).trans ?_, exec_clearEventRecords_goes hup hmode hlog n⟩
      unfold HostSt.eventLog
      rw [if_neg (Nat.ne_of_lt hlog)]
      rfl
    case lease =>
      have hserved := relay_served hup hmode hlease hroom
      refine ⟨(exec_getDynamicCapacityConfiguration s req).trans ((hserved dcGetConfig 0).trans ?_),
        (exec_getDynamicCapacityExtentList s req).trans ((hserved dcGetList 0).trans ?_),
        fun hst => (exec_addDynamicCapacityResponse s req entry).trans ((hserved dcAdd entry.val).trans ?_),
        fun hst => (exec_addDynamicCapacityResponse s req entry).trans ((hserved dcAdd entry.val).trans ?_),
        fun hst => (exec_releaseDynamicCapacity s req entry).trans ((hserved dcRelease entry.val).trans ?_)⟩
      · rw [dcCommand_config, stage_none]
        rfl
      · rw [dcCommand_list, stage_none]
        rfl
      · rw [dcCommand_add, if_pos hst]
        rfl
      · rw [dcCommand_add, if_neg hst, stage_none]
        rfl
      · rw [dcCommand_release, if_pos (by simpa using hst)]
        rfl
    case noLease =>
      obtain ⟨op, k, hrelay⟩ := exec_dynamicCapacity s _ _ hc
      exact hrelay.trans (relay_noLease hup hmode hlease op k)

/-! #### Host services (R439, R440, R460, R553) -/

section Offer
variable {f : State} {e pva : Nat} (he : e < 16384) (hpva : pva < 2 ^ 48)
include he hpva

theorem dcOffer_perm (hnot : (f.extent e).st ≠ .active ∨ f.hostPart ≠ some (f.extent e).holder) : dcOffer f e pva = { st := .perm } := by
  unfold dcOffer
  rw [if_neg (by simp only [Bool.or_eq_true, decide_eq_true_eq]; omega)]
  exact if_pos (by simpa [Decidable.imp_iff_not_or] using hnot)

variable (hst : (f.extent e).st = .active) (hpart : f.hostPart = some (f.extent e).holder)
include hst hpart

theorem dcOffer_conflict (htaken : (f.extent e).root = true ∨ (f.extent e).hosted = true ∨ (f.extent e).region ≠ none) :
    dcOffer f e pva = { st := .conflict } := by
  unfold dcOffer
  rw [if_neg (by simp only [Bool.or_eq_true, decide_eq_true_eq]; omega), if_neg (by simp [hst, hpart])]
  refine if_pos ?_
  simpa [or_assoc, Option.isSome_iff_ne_none] using htaken

variable (hroot : (f.extent e).root = false) (hhosted : (f.extent e).hosted = false) (hregion : (f.extent e).region = none)
include hroot hhosted hregion

theorem dcOffer_notReady (hcert : (f.extent e).certified < (f.extent e).blocks.length) : dcOffer f e pva = { st := .notReady } := by
  unfold dcOffer
  rw [if_neg (by simp only [Bool.or_eq_true, decide_eq_true_eq]; omega), if_neg (by simp [hst, hpart]),
    if_neg (by simp [hroot, hhosted, hregion])]
  exact if_pos hcert

/-- A certified extent that is free takes the lowest free entry and DPA range, at an aligned address within 64 GiB (R438, R439). -/
theorem dcOffer_free {i a : Nat} (hcert : (f.extent e).blocks.length ≤ (f.extent e).certified)
    (hslot : (List.range 64).find? (fun i => (f.host.exts.look {} i).st = 0) = some i)
    (hdpa : freeDpa (f.hostEntries.map (fun y => (y.2.dpa / 0x200000, y.2.blocks))) (f.extent e).blocks.length = some a) :
    dcOffer f e pva =
      if pva % 0x200000 ≠ 0 || 32768 < f.hostEntries.foldl (fun n y => n + y.2.blocks) 0 + (f.extent e).blocks.length then { st := .range }
      else { words := [BitVec.ofNat 64 (a * 0x200000)], stage := [.hostOffer i e (a * 0x200000) pva (f.extent e).blocks.length] } := by
  unfold dcOffer
  rw [if_neg (by simp only [Bool.or_eq_true, decide_eq_true_eq]; omega), if_neg (by simp [hst, hpart]),
    if_neg (by simp [hroot, hhosted, hregion]), if_neg (Nat.not_lt.mpr hcert)]
  simp only [hslot, hdpa]

end Offer

section Services
variable {id e pva i : Nat} {w0 w1 : U64} {key : List U64} {s : State}

theorem exec_dcOffer (hlease : s.leaseHeld = true) :
    exec (.dcOffer id e pva) s = .next ((s.takeService 64 0x01 id).serve 80 0x01 id (dcOffer s.future e pva)) := if_neg (by simp [hlease])

theorem exec_dcWithdraw (hlease : s.leaseHeld = true) (force : Bool) :
    exec (.dcWithdraw id e force) s = .next ((s.takeService 64 0x02 id).withdraw id e force) := if_neg (by simp [hlease])

theorem exec_cfgStage (hlease : s.leaseHeld = true) :
    exec (.cfgStage id w0 w1 key) s = .next ((s.takeService 65 0x20 id).cfgStage id w0 w1 key) := if_neg (by simp [hlease])

/-- With FORCE the entry goes into release at the effect boundary (R440). -/
theorem withdraw_force {y : HostExt} (he : e < 16384)
    (hfind : s.future.hostEntries.find? (fun x => x.2.ext = e && (x.2.st = 1 || x.2.st = 2)) = some (i, y)) :
    s.withdraw id e true = s.stage 0 [.hostExtent i 3, .notice 80 [answerWord 0x02 id .ok]] := by
  unfold State.withdraw dcWithdraw
  rw [if_neg (Nat.not_le.mpr he)]
  simp only [hfind]
  rfl

/-- Without FORCE the host is asked (R440). -/
theorem withdraw_ask {y : HostExt} (he : e < 16384)
    (hfind : s.future.hostEntries.find? (fun x => x.2.ext = e && (x.2.st = 1 || x.2.st = 2)) = some (i, y)) :
    s.withdraw id e false = (s.event evDc i y.st).serve 80 0x02 id {} := by
  unfold State.withdraw dcWithdraw
  rw [if_neg (Nat.not_le.mpr he)]
  simp only [hfind]
  rfl

theorem cfgStatus_ok (hrsvd : bits w1 63 16 = 0) (hmagic : bits w0 31 0 = 0x47464353) (hwaitLo : 1 ≤ bits w0 49 43) (hwaitHi : bits w0 49 43 ≤ 64)
    (htimeLo : 4 ≤ bits w0 63 50) (htimeHi : bits w0 63 50 ≤ 8191) : cfgStatus w0 w1 = .ok := by
  unfold cfgStatus
  rw [if_neg (not_not.mpr hrsvd)]
  exact if_neg (by simp only [hmagic, Bool.or_eq_true, decide_eq_true_eq]; omega)

theorem cfgStage_ok (hok : cfgStatus w0 w1 = .ok) : s.cfgStage id w0 w1 key =
    (s.persistChange.onHost (fun h => { h with cfgStaged := some (w0, w1, key) })).serve 81 0x20 id {} := by
  unfold State.cfgStage
  simp only [hok, if_true]

theorem cfgStage_rsvd (hrsvd : bits w1 63 16 ≠ 0) : s.cfgStage id w0 w1 key = s.serve 81 0x20 id { st := .rsvdNonzero } := by
  have hst : cfgStatus w0 w1 = .rsvdNonzero := if_pos hrsvd
  unfold State.cfgStage
  simp only [hst, reduceCtorEq, if_false]

end Services

/-- Settles O45: offers, withdrawals and the configuration record under the lease, and the end of a release. -/
theorem hostServices : Obligations.host_services := by
  intro id e pva i a entry w0 w1 key s f x u w
  refine ⟨fun hlease => ⟨fun he hpva => ?offer, fun he y hfind => ?withdraw, ?cfg⟩, fun hlease => ?noLease, ?free⟩
  case offer =>
    have hexec : exec (.dcOffer id e pva) s = .next (u.serve 80 0x01 id (dcOffer f e pva)) := exec_dcOffer hlease
    have hgives : ∀ {o : Served}, dcOffer f e pva = o → exec (.dcOffer id e pva) s = .next (u.serve 80 0x01 id o) := fun h => h ▸ hexec
    refine ⟨fun hnot => hgives (dcOffer_perm he hpva hnot), fun hst hpart =>
      ⟨fun htaken => hgives (dcOffer_conflict he hpva hst hpart htaken), fun hroot hhosted hregion =>
        ⟨fun hcert => hgives (dcOffer_notReady he hpva hst hpart hroot hhosted hregion hcert), fun hcert hslot hdpa => ?_⟩⟩⟩
    have hfree := dcOffer_free he hpva hst hpart hroot hhosted hregion hcert hslot hdpa
    refine ⟨fun hodd => hgives (hfree.trans (if_pos (by simp [hodd]))), fun heven htotal => hgives (hfree.trans (if_neg ?_))⟩
    simpa [heven] using htotal
  case withdraw =>
    exact ⟨(exec_dcWithdraw hlease true).trans (congrArg _ (withdraw_force he hfind)),
      (exec_dcWithdraw hlease false).trans (congrArg _ (withdraw_ask he hfind))⟩
  case cfg =>
    intro c
    exact ⟨fun hrsvd hmagic hwaitLo hwaitHi htimeLo htimeHi => (exec_cfgStage hlease).trans
        (congrArg _ (cfgStage_ok (cfgStatus_ok hrsvd hmagic hwaitLo hwaitHi htimeLo htimeHi))),
      fun hrsvd => (exec_cfgStage hlease).trans (congrArg _ (cfgStage_rsvd hrsvd))⟩
  case noLease =>
    have hnot : (!s.leaseHeld) = true := by simp [hlease]
    exact ⟨if_pos hnot, fun b => if_pos hnot, if_pos hnot⟩
  case free =>
    intro y
    refine ⟨fun hst hround => if_neg ?_, fun hnot => if_pos ?_⟩
    · simpa [y] using ⟨hst, hround⟩
    · simpa [y] using hnot

end Sys2Proof.Machine

/-! ### Leases, takeovers and handovers (R57, R490, R497, R499 to R506) -/

namespace Sys2Proof.Machine

/-! #### Stakes and leases after a change (R488, R491) -/

section Seats
variable (s : State) (k h : Nat) (f g : Stake → Stake) (m : Lease → Lease)

theorem onStake_onStake : (s.onStake k f).onStake k g = s.onStake k (fun x => g (f x)) := by
  unfold State.onStake
  split <;> rfl

/-- The other stake is left alone. -/
theorem stake_onStake_other : (s.onStake k f).stake (1 - k) = s.stake (1 - k) := by
  by_cases hk : k = 0
  · subst hk
    rfl
  · have hother : 1 - k = 0 := by omega
    simp [State.onStake, State.stake, hk, hother]

theorem stake_onOther : (s.onStake (1 - k) f).stake k = s.stake k := by
  by_cases hk : k = 0
  · subst hk
    rfl
  · have hother : 1 - k = 0 := by omega
    simp [State.onStake, State.stake, hk, hother]

/-- A change that leaves one field of every stake leaves it in all. -/
theorem stake_onStake_keeps {β : Type} (π : Stake → β) (hπ : ∀ x, π (f x) = π x) : π ((s.onStake k f).stake h) = π (s.stake h) := by
  unfold State.onStake State.stake
  split
  · split
    · exact hπ _
    · rfl
  · split
    · rfl
    · exact hπ _

/-- A change that does nothing to its stake leaves every stake. -/
theorem stake_onStake_id (hid : f (s.stake k) = s.stake k) : (s.onStake k f).stake h = s.stake h := by
  by_cases hk : k = 0
  · subst hk
    have hid0 : f s.auth.stake0 = s.auth.stake0 := hid
    simp [State.onStake, State.stake, hid0]
  · have hid1 : f s.auth.stake1 = s.auth.stake1 := by simpa [State.stake, hk] using hid
    simp [State.onStake, State.stake, hk, hid1]

@[simp] theorem lease_onStake : (s.onStake k f).lease h = s.lease h := by
  unfold State.onStake
  split <;> rfl

@[simp] theorem activeHalf_onStake : (s.onStake k f).activeHalf = s.activeHalf := by
  unfold State.onStake
  split <;> rfl

@[simp] theorem spineGone_onStake : (s.onStake k f).spineGone = s.spineGone := by
  unfold State.onStake
  split <;> rfl

@[simp] theorem now_onStake : (s.onStake k f).now = s.now := by
  unfold State.onStake
  split <;> rfl

theorem lease_onLeases : (s.onLeases m).lease h = m (s.lease h) := by
  show (if h = 0 then m s.auth.lease0 else m s.auth.lease1) = m (if h = 0 then s.auth.lease0 else s.auth.lease1)
  split <;> rfl

theorem stake_onLeases : (s.onLeases m).stake h = s.stake h := rfl

/-- No lease record that stands as NONE is held. -/
theorem leaseHeld_of_none {s : State} (hnone : ∀ h, (s.lease h).st = .none) : s.leaseHeld = false := by
  simp [State.leaseHeld, hnone]

theorem leaseHeld_of_valid {s : State} (hvalid : (s.lease s.activeHalf).st = .valid) : s.leaseHeld = true := by
  simp [State.leaseHeld, hvalid]

theorem toReset_failed {x : Stake} (hst : x.st = .failed) : x.toReset = x := if_pos (by simp [hst])

theorem toReset_standby {x : Stake} (hst : x.st ≠ .failed) : x.toReset.st = .standby ∧ x.toReset.passDone = false := by
  have hreset : x.toReset = { x with st := .standby, passDone := false, retest := false, passed := 0 } :=
    if_neg (by simpa using hst)
  rw [hreset]
  exact ⟨rfl, rfl⟩

end Seats

/-! #### What an end of a lease discards (R57, R303) -/

section Discard
variable (s : State)

/-- Undoing a publish leaves the rest of the state. -/
theorem discardStaged_keeps {β : Type} (π : State → β) (hregion : ∀ (u : State) r f, π (u.onRegion r f) = π u)
    (hctl : ∀ (u : State) f, π (u.onCtl f) = π u) : π s.discardStaged = π s := by
  unfold State.discardStaged
  rw [hctl]
  exact each_keeps π (fun u c => by
    cases c
    case regionPublish => exact hregion u _ _
    all_goals rfl) s _

theorem discardStaged_ctl : s.discardStaged.ctl = { s.ctl with
    staged := [], deltas := [], results := s.ctl.results.filter (fun r => r.ready || decide (r.effect ≠ s.now + 1)) } := by
  unfold State.discardStaged
  extract_lets undo
  have hkeep : (s.each s.ctl.staged undo).ctl = s.ctl := each_keeps (fun u => u.ctl) (fun u c => by cases c <;> rfl) s _
  exact congrArg (fun c : CtlSt => { c with
    staged := [], deltas := [], results := c.results.filter (fun r => r.ready || decide (r.effect ≠ s.now + 1)) }) hkeep

/-- Losing the lease leaves stakes, leases, the hoop, memory and the tables. -/
theorem loseControl_auth : s.loseControl.auth =
    { s.auth with handover := none, staging := none, stagedImage := none, writing := none, renewal := none } := by
  show ({ s.discardStaged.auth with handover := none, staging := none, stagedImage := none, writing := none, renewal := none } : AuthSt) = _
  rw [discardStaged_keeps s (fun u => u.auth) (fun _ _ _ => rfl) (fun _ _ => rfl)]

theorem loseControl_keeps {β : Type} (π : State → β) (hregion : ∀ (u : State) r f, π (u.onRegion r f) = π u)
    (hctl : ∀ (u : State) f, π (u.onCtl f) = π u) (hauth : ∀ (u : State) f, π (u.onAuth f) = π u)
    (hnet : ∀ (u : State) f, π (u.onNet f) = π u) : π s.loseControl = π s := by
  unfold State.loseControl State.dropRequests
  exact (hnet _ _).trans ((hauth _ _).trans ((hctl _ _).trans (discardStaged_keeps s π hregion hctl)))

theorem loseControl_mem : s.loseControl.mem = s.mem :=
  loseControl_keeps s (fun u => u.mem) (fun _ _ _ => rfl) (fun _ _ => rfl) (fun _ _ => rfl) (fun _ _ => rfl)

theorem loseControl_parts : s.loseControl.parts = s.parts :=
  loseControl_keeps s (fun u => u.parts) (fun _ _ _ => rfl) (fun _ _ => rfl) (fun _ _ => rfl) (fun _ _ => rfl)

theorem loseControl_extents : s.loseControl.extents = s.extents :=
  loseControl_keeps s (fun u => u.extents) (fun _ _ _ => rfl) (fun _ _ => rfl) (fun _ _ => rfl) (fun _ _ => rfl)

theorem loseControl_now : s.loseControl.now = s.now :=
  loseControl_keeps s (fun u => u.now) (fun _ _ _ => rfl) (fun _ _ => rfl) (fun _ _ => rfl) (fun _ _ => rfl)

/-- The queues, the background work and the staged changes are gone; the journal copies stay. -/
theorem loseControl_ctl : let c := s.loseControl.ctl
    c.stakeQ = [] ∧ c.operQ = [] ∧ c.ownerQ = [] ∧ c.background = [] ∧ c.staged = [] ∧ c.copy0 = s.ctl.copy0 ∧ c.copy1 = s.ctl.copy1 := by
  intro c
  have hctl := discardStaged_ctl s
  refine ⟨rfl, rfl, rfl, rfl, ?_, ?_, ?_⟩
  · show s.discardStaged.ctl.staged = []
    rw [hctl]
  · show s.discardStaged.ctl.copy0 = _
    rw [hctl]
  · show s.discardStaged.ctl.copy1 = _
    rw [hctl]

theorem loseControl_stake (h : Nat) : s.loseControl.stake h = s.stake h := by
  unfold State.stake
  rw [loseControl_auth]

theorem loseControl_lease (h : Nat) : s.loseControl.lease h = s.lease h := by
  unfold State.lease
  rw [loseControl_auth]

theorem loseControl_spineGone : s.loseControl.spineGone = s.spineGone := by
  unfold State.spineGone
  rw [loseControl_auth]

end Discard

/-! #### The hoop moves a lease (R500, R503, R508) -/

section Grant
variable (s : State) (old : Nat)

/-- The old holder without its lease, in reset unless it has FAILED. -/
def State.retired (s : State) (old : Nat) : State := s.loseControl.onStake old Stake.toReset

theorem retired_lease (h : Nat) : (s.retired old).lease h = s.lease h := by
  rw [State.retired, lease_onStake, loseControl_lease]

theorem retired_old : (s.retired old).stake old = (s.stake old).toReset := by
  rw [State.retired, stake_onStake_self, loseControl_stake]

theorem retired_other : (s.retired old).stake (1 - old) = s.stake (1 - old) := by
  rw [State.retired, stake_onStake_other, loseControl_stake]

theorem retired_spineGone : (s.retired old).spineGone = s.spineGone := by
  rw [State.retired, spineGone_onStake, loseControl_spineGone]

theorem retired_now : (s.retired old).now = s.now := by rw [State.retired, now_onStake, loseControl_now]

theorem retired_ctl : (s.retired old).ctl = s.loseControl.ctl := onStake_ctl _ _ _

theorem retired_mem : (s.retired old).mem = s.mem := (onStake_mem _ _ _).trans (loseControl_mem s)

theorem retired_parts : (s.retired old).parts = s.parts := (onStake_parts _ _ _).trans (loseControl_parts s)

theorem retired_extents : (s.retired old).extents = s.extents := (onStake_extents _ _ _).trans (loseControl_extents s)

/-- The next epoch goes to the other stake, which leaves reset. -/
def State.promoted (s : State) (old : Nat) : State :=
  (((s.retired old).onLeases (fun l => { l with
    epoch := (l.epoch + 1) % 2 ^ 32, holder := 1 - old, st := .pending, handover := 0 })).releaseStake (1 - old)).authority

theorem promoted_lease (h : Nat) : (s.promoted old).lease h =
    { s.lease h with epoch := ((s.lease h).epoch + 1) % 2 ^ 32, holder := 1 - old, st := .pending, handover := 0 } := by
  refine (lease_onStake _ _ _ _).trans ((lease_onLeases _ _ _).trans ?_)
  rw [retired_lease]

theorem promoted_other : (s.promoted old).stake (1 - old) = { s.stake (1 - old) with st := .booting, releasedAt := s.now } := by
  refine (stake_onStake_self _ _ _).trans ?_
  rw [stake_onLeases, retired_other, show ((s.retired old).onLeases _).now = s.now from retired_now s old]

theorem promoted_old : (s.promoted old).stake old = (s.stake old).toReset :=
  (stake_onOther _ _ _).trans (retired_old s old)

theorem promoted_ctl : (s.promoted old).ctl = s.loseControl.ctl := (onStake_ctl _ _ _).trans (retired_ctl s old)

theorem promoted_mem : (s.promoted old).mem = s.mem := (onStake_mem _ _ _).trans (retired_mem s old)

theorem promoted_parts : (s.promoted old).parts = s.parts := (onStake_parts _ _ _).trans (retired_parts s old)

theorem promoted_extents : (s.promoted old).extents = s.extents := (onStake_extents _ _ _).trans (retired_extents s old)

/-- Nobody has the lease. -/
def State.vacated (s : State) (old : Nat) : State := (s.retired old).onLeases (fun l => { l with st := .none, handover := 0 })

theorem vacated_lease (h : Nat) : (s.vacated old).lease h = { s.lease h with st := .none, handover := 0 } := by
  refine (lease_onLeases _ _ _).trans ?_
  rw [retired_lease]

theorem vacated_leaseHeld : (s.vacated old).leaseHeld = false := leaseHeld_of_none (fun h => by rw [vacated_lease])

theorem vacated_old : (s.vacated old).stake old = (s.stake old).toReset := (stake_onLeases _ _ _).trans (retired_old s old)

theorem vacated_stake (hfailed : (s.stake old).st = .failed) (h : Nat) : (s.vacated old).stake h = s.stake h := by
  refine (stake_onLeases _ _ _).trans ((stake_onStake_id _ _ _ _ ?_).trans (loseControl_stake s h))
  rw [loseControl_stake, toReset_failed hfailed]

variable {s old} (hold : (s.lease s.activeHalf).holder = old)
include hold

theorem grantOther_eq : s.grantOther =
    if (s.stake (1 - old)).st == .failed || s.spineGone then s.vacated old else s.promoted old := by
  subst hold
  generalize hk : (s.lease s.activeHalf).holder = k
  have hunfold : s.grantOther =
      if ((s.retired k).stake (1 - k)).st == .failed || (s.retired k).spineGone then s.vacated k else s.promoted k := by
    subst hk
    rfl
  rw [hunfold, retired_other, retired_spineGone]

theorem grantOther_promotes (hfit : (s.stake (1 - old)).st ≠ .failed) (hspine : s.spineGone = false) : s.grantOther = s.promoted old :=
  (grantOther_eq hold).trans (if_neg (by simp [hfit, hspine]))

theorem grantOther_vacates (hnone : (s.stake (1 - old)).st = .failed ∨ s.spineGone = true) : s.grantOther = s.vacated old :=
  (grantOther_eq hold).trans (if_pos (by simpa using hnone))

end Grant

/-! #### The end of a lease and a takeover (R490, R499 to R503) -/

section Takeover
variable {s : State} {k : HalfId} {n : Nat} {a b : Bool}

theorem exec_stakeHealthFail (hactive : (s.stake k.val).st = .active) (hcause : 2 ≤ n ∨ a = true ∨ b = true) :
    exec (.stakeHealthFail k n a b) s = .next (s.stakeStops k.val) :=
  if_pos (by simpa [hactive, or_assoc] using hcause)

theorem exec_stakeHealthFail_not (hnot : (s.stake k.val).st ≠ .active ∨ (n < 2 ∧ a = false ∧ b = false)) :
    exec (.stakeHealthFail k n a b) s = .next s := by
  refine if_neg ?_
  rcases hnot with hst | ⟨hn, rfl, rfl⟩
  · simp [hst]
  · simp [hn]

theorem stakeStops_holder {k : Nat} (hlease : s.leaseHeld = true) (hholder : (s.lease s.activeHalf).holder = k) :
    s.stakeStops k = s.discardStaged.onStake k (fun x => { x with st := .failed, passDone := false }) := by
  exact congrArg (fun u : State => u.onStake k (fun x => { x with st := .failed, passDone := false }))
    (if_pos (by simp [hlease, hholder]))

theorem stakeStops_other {k : Nat} (hnot : s.leaseHeld = false ∨ (s.lease s.activeHalf).holder ≠ k) :
    s.stakeStops k = s.onStake k (fun x => { x with st := .failed, passDone := false }) := by
  refine congrArg (fun u : State => u.onStake k (fun x => { x with st := .failed, passDone := false })) (if_neg ?_)
  rcases hnot with h | h <;> simp [h]

theorem exec_leaseEnd (hmode : s.rst.mode = .service) (hepoch : (s.lease s.activeHalf).epoch ≠ 0)
    (hvalid : (s.lease s.activeHalf).st = .valid) (hfailed : (s.stake (s.lease s.activeHalf).holder).st = .failed) :
    exec .leaseEnd s = .next s.grantOther :=
  if_pos (by simp [hmode, hepoch, leaseHeld_of_valid hvalid, State.holderStake, hfailed])

theorem exec_leaseEnd_not (hnot : s.rst.mode ≠ .service ∨ (s.lease s.activeHalf).epoch = 0) : exec .leaseEnd s = .next s := by
  refine if_neg ?_
  rcases hnot with h | h <;> simp [h]

variable {facts : ImageFacts} {old : Nat}

theorem exec_takeoverFailed (hpending : (s.lease s.activeHalf).st = .pending) : exec .takeoverFailed s = .next s.takeoverFails :=
  if_pos (by simp [hpending])

theorem exec_takeoverFailed_not (hnot : (s.lease s.activeHalf).st ≠ .pending) : exec .takeoverFailed s = .next s :=
  if_neg (by simpa using hnot)

theorem exec_takeoverComplete_not (hnot : (s.lease s.activeHalf).st ≠ .pending) (rok : Bool) :
    exec (.takeoverComplete facts rok) s = .next s :=
  if_pos (by simpa using hnot)

theorem exec_takeoverComplete_fails {rok : Bool} (hpending : (s.lease s.activeHalf).st = .pending)
    (hbad : imageStatus (s.stake (s.lease s.activeHalf).holder) facts ≠ .ok ∨ rok = false) :
    exec (.takeoverComplete facts rok) s = .next s.takeoverFails :=
  (if_neg (by simp [hpending])).trans (if_pos (by simpa using hbad))

/-- The new holder runs its image and is ACTIVE. -/
def State.seated (s : State) (old : Nat) (facts : ImageFacts) : State :=
  s.onStake old (fun x => { x with runDigest := facts.digest, runSvn := facts.svn, st := .active })

theorem exec_takeoverComplete (hpending : (s.lease s.activeHalf).st = .pending)
    (hgood : imageStatus (s.stake (s.lease s.activeHalf).holder) facts = .ok) :
    exec (.takeoverComplete facts true) s = .next (((s.seated (s.lease s.activeHalf).holder facts).completeRecord).onAuth
      (fun x => { x with renewal := some (s.lease s.activeHalf).epoch })) := by
  refine (if_neg (by simp [hpending])).trans ((if_neg (by simp [hgood])).trans ?_)
  show Host.Outcome.next (State.onAuth (State.completeRecord ((s.onStake _ _).onStake _ _)) _) = _
  rw [onStake_onStake]
  rfl

theorem journalCopy_seated (h : Nat) : (s.seated old facts).journalCopy h = s.journalCopy h := by
  unfold State.journalCopy State.seated
  rw [onStake_ctl]

theorem lastJournalled_seated : (s.seated old facts).lastJournalled = s.lastJournalled := by
  unfold State.lastJournalled
  rw [journalCopy_seated, show (s.seated old facts).activeHalf = s.activeHalf from activeHalf_onStake _ _ _]

theorem applied_seated : (s.seated old facts).ctl.applied = s.ctl.applied := by
  unfold State.seated
  rw [onStake_ctl]

theorem completeRecord_complete (happlied : s.ctl.applied ≤ s.lastJournalled) : (s.seated old facts).completeRecord = s.seated old facts := by
  refine if_neg ?_
  rw [lastJournalled_seated, applied_seated]
  exact Nat.not_lt.mpr happlied

theorem completeRecord_missing (happlied : s.lastJournalled < s.ctl.applied) : (s.seated old facts).completeRecord =
    (s.seated old facts).writeRecord ((s.seated old facts).newRecord s.ctl.applied true
      (s.ctl.appliedEntries.map (s.seated old facts).fillEntry)) := by
  have hctl : (s.seated old facts).ctl = s.ctl := onStake_ctl _ _ _
  refine (if_pos ?_).trans ?_
  · rw [lastJournalled_seated, applied_seated]
    exact happlied
  · rw [hctl]

/-- With the spine there, a record goes to both copies (R494). -/
theorem writeRecord_copies (hspine : s.spineGone = false) (j : Journal) :
    (s.writeRecord j).ctl.copy0 = s.ctl.copy0.put j ∧ (s.writeRecord j).ctl.copy1 = s.ctl.copy1.put j := by
  have hmeta : ∀ (u : State) (h n : Nat), (u.metaWrite h n).ctl = u.ctl := fun u h n => onHalf_ctl _ _ _
  unfold State.writeRecord State.journalHalves
  rw [hspine]
  simp only [Bool.false_eq_true, if_false, State.each, List.foldl_cons, List.foldl_nil, hmeta]
  exact ⟨rfl, rfl⟩

variable (hold : (s.lease s.activeHalf).holder = old)
include hold

/-- A takeover that fails moves the lease to the other stake, if that is fit (R503). -/
theorem takeoverFails_promotes (hfit : (s.stake (1 - old)).st ≠ .failed) (hspine : s.spineGone = false) :
    (s.takeoverFails.stake old).st = .failed ∧ (s.takeoverFails.stake (1 - old)).st = .booting ∧
    ∀ h, s.takeoverFails.lease h =
      { s.lease h with epoch := ((s.lease h).epoch + 1) % 2 ^ 32, holder := 1 - old, st := .pending, handover := 0 } := by
  subst hold
  unfold State.takeoverFails
  generalize hk : (s.lease s.activeHalf).holder = k at *
  rw [grantOther_promotes (old := k) (by simpa using hk) (by rw [stake_onStake_other]; exact hfit) (by rw [spineGone_onStake]; exact hspine)]
  refine ⟨?_, ?_, fun h => ?_⟩
  · rw [promoted_old, stake_onStake_self, toReset_failed rfl]
  · rw [promoted_other]
  · rw [promoted_lease, lease_onStake]

/-- With the other stake FAILED, nobody has the lease (R503). -/
theorem takeoverFails_vacates (hnone : (s.stake (1 - old)).st = .failed) :
    (s.takeoverFails.stake old).st = .failed ∧ (∀ h, (s.takeoverFails.lease h).st = .none) ∧ s.takeoverFails.leaseHeld = false := by
  subst hold
  unfold State.takeoverFails
  generalize hk : (s.lease s.activeHalf).holder = k at *
  rw [grantOther_vacates (old := k) (by simpa using hk) (.inl (by rw [stake_onStake_other]; exact hnone))]
  refine ⟨?_, fun h => ?_, vacated_leaseHeld _ _⟩
  · rw [vacated_old, stake_onStake_self, toReset_failed rfl]
  · rw [vacated_lease]

end Takeover

/-! #### Handovers (R504 to R506) -/

section Swap
variable (s : State) (tag : Option Nat) (st : Status) (rs : List Nat)

/-- Only the waiting result of ROLE.SWAP changes. -/
theorem swapResult_keeps {β : Type} (π : State → β) (hctl : ∀ (u : State) f, π (u.onCtl f) = π u) : π (s.swapResult tag st rs) = π s := by
  cases tag with
  | none => rfl
  | some t =>
    simp only [State.swapResult]
    exact hctl _ _

theorem swapResult_auth : (s.swapResult tag st rs).auth = s.auth := swapResult_keeps s tag st rs (fun u => u.auth) (fun _ _ => rfl)

theorem swapResult_stake (h : Nat) : (s.swapResult tag st rs).stake h = s.stake h :=
  swapResult_keeps s tag st rs (fun u => u.stake h) (fun _ _ => rfl)

theorem swapResult_lease (h : Nat) : (s.swapResult tag st rs).lease h = s.lease h :=
  swapResult_keeps s tag st rs (fun u => u.lease h) (fun _ _ => rfl)

theorem swapResult_background : (s.swapResult tag st rs).ctl.background = s.ctl.background := by
  cases tag <;> rfl

theorem swapResult_mem {g : Nat} {r : Result} (hr : r ∈ s.ctl.results) (hop : r.opcode = 0xD8) (htag : r.tag = g) (hnot : r.ready = false) :
    { r with status := st.code, results := rs, ready := true } ∈ (s.swapResult (some g) st rs).ctl.results :=
  List.mem_map.mpr ⟨r, hr, if_pos (by simp [hop, htag, hnot])⟩

end Swap

section Handover
variable {s : State} {k : Nat} {tag : Option Nat} {facts : ImageFacts}

theorem exec_handoverReady_none (hnone : s.auth.handover = none) : exec .handoverReady s = .next s := by
  show execHandoverReady s = _
  simp only [execHandoverReady, hnone]

theorem exec_handoverBoundary_none (hnone : s.auth.handover = none) : exec .handoverBoundary s = .next s := by
  show execHandoverBoundary s = _
  simp only [execHandoverBoundary, hnone]

theorem exec_handoverFailed_none (hnone : s.auth.handover = none) (b : Bool) : exec (.handoverFailed facts b) s = .next s := by
  show execHandoverFailed facts b s = _
  simp only [execHandoverFailed, hnone]

variable (hhand : s.auth.handover = some (k, tag))
include hhand

/-- The incoming stake runs the image that it reads, is SHADOW, and the handover is set two rounds on (R504, R510). -/
theorem exec_handoverReady (hst : (s.stake k).st = .booting ∨ (s.stake k).st = .shadow) (hvalid : (s.lease s.activeHalf).st = .valid) :
    let img := if (s.stake k).keep = .valid then s.stake k else s.stake (1 - k)
    exec .handoverReady s =
      .next ((s.onStake k (fun x => { x with runDigest := img.keepDigest, runSvn := img.keepSvn, st := .shadow })).onLeases
        (fun l => { l with st := .handover, handover := s.now + 2 })) := by
  intro img
  show execHandoverReady s = _
  have himage : s.bootImage k = (img.keepDigest, img.keepSvn) := by
    unfold State.bootImage
    simp only [beq_iff_eq]
    rfl
  simp only [execHandoverReady, hhand, himage, State.runImage, onStake_onStake, now_onStake]
  exact if_neg (by rcases hst with h | h <;> simp [h, hvalid])

theorem exec_handoverReady_not (hboot : (s.stake k).st ≠ .booting) (hshadow : (s.stake k).st ≠ .shadow) : exec .handoverReady s = .next s := by
  show execHandoverReady s = _
  simp only [execHandoverReady, hhand]
  exact if_pos (by simp [hboot, hshadow])

theorem exec_handoverFailed_not (hboot : (s.stake k).st ≠ .booting) (hshadow : (s.stake k).st ≠ .shadow) (b : Bool) :
    exec (.handoverFailed facts b) s = .next s := by
  show execHandoverFailed facts b s = _
  simp only [execHandoverFailed, hhand]
  exact if_pos (by simp [hboot, hshadow])

theorem exec_handoverFailed (hboot : (s.stake k).st = .booting) (hlease : (s.lease s.activeHalf).st ≠ .handover) (b : Bool) :
    exec (.handoverFailed facts b) s =
      if b then .next (s.dropHandover .timeout) else if imageStatus (s.stake k) facts != .ok then .next (s.dropHandover .integrity) else .next s := by
  show execHandoverFailed facts b s = _
  simp only [execHandoverFailed, hhand]
  exact if_neg (by simp [hboot, hlease])

omit hhand in
theorem onAuth_handover_lease (h : Nat) (x : Option (Nat × Option Nat)) :
    (s.onAuth (fun a => { a with handover := x })).lease h = s.lease h := rfl

omit hhand in
theorem onAuth_handover_stake (h : Nat) (x : Option (Nat × Option Nat)) :
    (s.onAuth (fun a => { a with handover := x })).stake h = s.stake h := rfl

/-- The incoming stake is in reset again, and leases that stood as HANDOVER are VALID. -/
def State.undoneSwap (s : State) (k : Nat) : State :=
  ((s.onStake k Stake.toReset).onAuth (fun a => { a with handover := none })).onLeases
    (fun l => if l.st == .handover then { l with st := .valid, handover := 0 } else l)

omit hhand in
theorem undoneSwap_stake (h : Nat) : (s.undoneSwap k).stake h = (s.onStake k Stake.toReset).stake h := by
  unfold State.undoneSwap
  rw [stake_onLeases, onAuth_handover_stake]

omit hhand in
theorem undoneSwap_ctl : (s.undoneSwap k).ctl = s.ctl := by
  unfold State.undoneSwap
  rw [onLeases_ctl, onAuth_ctl, onStake_ctl]

omit hhand in
theorem undoneSwap_lease {h : Nat} (hlease : (s.lease h).st ≠ .handover) : (s.undoneSwap k).lease h = s.lease h := by
  unfold State.undoneSwap
  rw [lease_onLeases, onAuth_handover_lease, lease_onStake]
  exact if_neg (by simpa using hlease)

/-- A handover that ends without its boundary (R505, R506). -/
theorem dropHandover_eq (st : Status) : s.dropHandover st = (s.undoneSwap k).swapResult tag st [] := by
  simp only [State.dropHandover, hhand]
  rfl

theorem dropHandover_facts (hboot : (s.stake k).st = .booting) (hlease : (s.lease s.activeHalf).st ≠ .handover) (st : Status) :
    let t := s.dropHandover st
    t.auth.handover = none ∧ (t.stake k).st = .standby ∧ (t.stake k).passDone = false ∧ t.stake (1 - k) = s.stake (1 - k) ∧
    t.lease s.activeHalf = s.lease s.activeHalf ∧
    ∀ g, tag = some g → ∀ r ∈ s.ctl.results, r.opcode = 0xD8 → r.tag = g → r.ready = false →
      { r with status := st.code, results := [], ready := true } ∈ t.ctl.results := by
  have hreset := toReset_standby (x := s.stake k) (by simp [hboot])
  rw [dropHandover_eq hhand]
  refine ⟨?_, ?_, ?_, ?_, ?_, ?_⟩
  · rw [swapResult_auth]
    rfl
  · rw [swapResult_stake, undoneSwap_stake, stake_onStake_self]
    exact hreset.1
  · rw [swapResult_stake, undoneSwap_stake, stake_onStake_self]
    exact hreset.2
  · rw [swapResult_stake, undoneSwap_stake, stake_onStake_other]
  · rw [swapResult_lease, undoneSwap_lease hlease]
  · rintro g rfl r hr hop htag hnot
    exact swapResult_mem _ _ _ (by rw [undoneSwap_ctl]; exact hr) hop htag hnot

end Handover

section Boundary
variable (s t u : State) (k : Nat) (tag : Option Nat)

/-- Two states with the same leases, stakes' states and passes, results and memory: what a keep-store copy leaves. -/
def State.SameSeats (s t : State) : Prop :=
  (∀ h, t.lease h = s.lease h) ∧ (∀ h, (t.stake h).st = (s.stake h).st) ∧ (∀ h, (t.stake h).passDone = (s.stake h).passDone) ∧
  t.auth.handover = s.auth.handover ∧ t.ctl = s.ctl ∧ t.mem = s.mem ∧ t.parts = s.parts ∧ t.extents = s.extents

variable {s t u} in
theorem State.SameSeats.trans (hst : s.SameSeats t) (htu : t.SameSeats u) : s.SameSeats u := by
  obtain ⟨hlease, hstate, hpass, hhand, hctl, hmem, hparts, hextents⟩ := hst
  obtain ⟨hlease', hstate', hpass', hhand', hctl', hmem', hparts', hextents'⟩ := htu
  exact ⟨fun h => (hlease' h).trans (hlease h), fun h => (hstate' h).trans (hstate h), fun h => (hpass' h).trans (hpass h),
    hhand'.trans hhand, hctl'.trans hctl, hmem'.trans hmem, hparts'.trans hparts, hextents'.trans hextents⟩

theorem State.SameSeats.refl : s.SameSeats s := ⟨fun _ => rfl, fun _ => rfl, fun _ => rfl, rfl, rfl, rfl, rfl, rfl⟩

theorem startKeep_sameSeats (digest : List U64) (svn : Nat) (forStage : Bool) : s.SameSeats (s.startKeep k digest svn forStage) := by
  unfold State.startKeep
  extract_lets n
  refine ⟨fun h => lease_onStake _ _ _ _, fun h => ?_, fun h => ?_, ?_, onStake_ctl _ _ _, onStake_mem _ _ _, onStake_parts _ _ _,
    onStake_extents _ _ _⟩
  · exact stake_onStake_keeps s k h _ (fun x => x.st) (fun _ => rfl)
  · exact stake_onStake_keeps s k h _ (fun x => x.passDone) (fun _ => rfl)
  · show (s.onStake k _).auth.handover = _
    unfold State.onStake
    split <;> rfl

theorem checkUpdate_sameSeats : s.SameSeats s.checkUpdate := by
  unfold State.checkUpdate
  extract_lets h o
  split
  · exact ⟨fun _ => rfl, fun _ => rfl, fun _ => rfl, rfl, rfl, rfl, rfl, rfl⟩
  · exact State.SameSeats.refl s

/-- Background instructions that have staged nothing stand at the front of their issuers' queues again. -/
def State.requeued (s : State) : State :=
  (s.onCtl (fun c => { c with background := c.background.filter (·.done), turn := 65 })).each (s.ctl.background.filter (fun b => !b.done))
    (fun s b => s.setQueue b.issuer (b.req :: s.ctlQueue b.issuer))

theorem requeued_keeps {β : Type} (π : State → β) (hqueue : ∀ (u : State) i l, π (u.setQueue i l) = π u) :
    π s.requeued = π (s.onCtl (fun c => { c with background := c.background.filter (·.done), turn := 65 })) :=
  each_keeps π (fun u _ => hqueue u _ _) _ _

theorem requeued_auth : s.requeued.auth = s.auth := requeued_keeps s (fun u => u.auth) (fun _ _ _ => rfl)

theorem requeued_now : s.requeued.now = s.now := requeued_keeps s (fun u => u.now) (fun _ _ _ => rfl)

theorem requeued_mem : s.requeued.mem = s.mem := requeued_keeps s (fun u => u.mem) (fun _ _ _ => rfl)

theorem requeued_parts : s.requeued.parts = s.parts := requeued_keeps s (fun u => u.parts) (fun _ _ _ => rfl)

theorem requeued_extents : s.requeued.extents = s.extents := requeued_keeps s (fun u => u.extents) (fun _ _ _ => rfl)

theorem requeued_results : s.requeued.ctl.results = s.ctl.results :=
  requeued_keeps s (fun u => u.ctl.results) (fun u i l => by cases i <;> rfl)

theorem requeued_background : s.requeued.ctl.background = s.ctl.background.filter (·.done) :=
  requeued_keeps s (fun u => u.ctl.background) (fun u i l => by cases i <;> rfl)

theorem requeued_lease (h : Nat) : s.requeued.lease h = s.lease h := by
  unfold State.lease
  rw [requeued_auth]

theorem requeued_stake (h : Nat) : s.requeued.stake h = s.stake h := by
  unfold State.stake
  rw [requeued_auth]

/-- The lease of the next epoch at the incoming stake (R504). -/
def Lease.passed (x : Lease) (epoch k now : Nat) : Lease :=
  { x with epoch := epoch, holder := k, st := .valid, handover := 0, expiry := now + 4 }

/-- The next epoch is the incoming stake's, which is ACTIVE; the outgoing one is in reset (R504). -/
def State.swappedSeats (s : State) (k epoch : Nat) : State :=
  ((s.requeued.onLeases (fun x => x.passed epoch k s.requeued.now)).onStake (1 - k) Stake.toReset).onStake k (fun x => { x with st := .active })

variable (epoch h : Nat)

theorem swappedSeats_lease : (s.swappedSeats k epoch).lease h = (s.lease h).passed epoch k s.now := by
  rw [State.swappedSeats, lease_onStake, lease_onStake, lease_onLeases, requeued_lease, requeued_now]

theorem swappedSeats_new : ((s.swappedSeats k epoch).stake k).st = .active := by
  rw [State.swappedSeats, stake_onStake_self]

theorem swappedSeats_old : (s.swappedSeats k epoch).stake (1 - k) = (s.stake (1 - k)).toReset := by
  rw [State.swappedSeats, stake_onStake_other, stake_onStake_self, stake_onLeases, requeued_stake]

theorem swappedSeats_ctl : (s.swappedSeats k epoch).ctl = s.requeued.ctl := by
  rw [State.swappedSeats, onStake_ctl, onStake_ctl, onLeases_ctl]

theorem swappedSeats_mem : (s.swappedSeats k epoch).mem = s.mem := by
  rw [State.swappedSeats, onStake_mem, onStake_mem, onLeases_mem, requeued_mem]

theorem swappedSeats_parts : (s.swappedSeats k epoch).parts = s.parts := by
  rw [State.swappedSeats, onStake_parts, onStake_parts, onLeases_parts, requeued_parts]

theorem swappedSeats_extents : (s.swappedSeats k epoch).extents = s.extents := by
  rw [State.swappedSeats, onStake_extents, onStake_extents, onLeases_extents, requeued_extents]

/-- The state that the boundary of a handover leaves, but for keep stores: the seats have changed, ROLE.SWAP has its result. -/
def State.swapped (s : State) (k : Nat) (tag : Option Nat) (epoch : Nat) : State :=
  (((s.swappedSeats k epoch).onAuth (fun a => { a with
    handover := none, renewal := none, updating := a.updating || (s.stake k).runDigest != (s.stake (1 - k)).runDigest })).swapResult
      tag .ok [epoch]).authority

theorem swapped_lease : (s.swapped k tag epoch).lease h = (s.lease h).passed epoch k s.now :=
  (swapResult_lease _ _ _ _ _).trans (swappedSeats_lease s k epoch h)

theorem swapped_new : ((s.swapped k tag epoch).stake k).st = .active :=
  (congrArg Stake.st (swapResult_stake _ _ _ _ _)).trans (swappedSeats_new s k epoch)

theorem swapped_old : (s.swapped k tag epoch).stake (1 - k) = (s.stake (1 - k)).toReset :=
  (swapResult_stake _ _ _ _ _).trans (swappedSeats_old s k epoch)

theorem swapped_handover : (s.swapped k tag epoch).auth.handover = none := congrArg AuthSt.handover (swapResult_auth _ _ _ _)

theorem swapped_background : (s.swapped k tag epoch).ctl.background = s.ctl.background.filter (·.done) :=
  (swapResult_background _ _ _ _).trans ((congrArg CtlSt.background (swappedSeats_ctl s k epoch)).trans (requeued_background s))

theorem swapped_mem : (s.swapped k tag epoch).mem = s.mem :=
  (swapResult_keeps _ _ _ _ (fun u => u.mem) (fun _ _ => rfl)).trans (swappedSeats_mem s k epoch)

theorem swapped_parts : (s.swapped k tag epoch).parts = s.parts :=
  (swapResult_keeps _ _ _ _ (fun u => u.parts) (fun _ _ => rfl)).trans (swappedSeats_parts s k epoch)

theorem swapped_extents : (s.swapped k tag epoch).extents = s.extents :=
  (swapResult_keeps _ _ _ _ (fun u => u.extents) (fun _ _ => rfl)).trans (swappedSeats_extents s k epoch)

theorem swapped_result {g : Nat} {r : Result} (hr : r ∈ s.ctl.results) (hop : r.opcode = 0xD8) (htag : r.tag = g) (hnot : r.ready = false) :
    { r with status := 0, results := [epoch], ready := true } ∈ (s.swapped k (some g) epoch).ctl.results := by
  refine swapResult_mem _ Status.ok _ ?_ hop htag hnot
  rw [onAuth_ctl, swappedSeats_ctl, requeued_results]
  exact hr

variable {s k tag} in
/-- At its boundary the seats change; a keep store with another image is written, and a live update may complete (R504, R512). -/
theorem exec_handoverBoundary (hhand : s.auth.handover = some (k, tag)) (hst : (s.lease s.activeHalf).st = .handover)
    (hround : (s.lease s.activeHalf).handover ≤ s.now) : ∃ t, exec .handoverBoundary s = .next t ∧
      (s.swapped k tag (((s.lease s.activeHalf).epoch + 1) % 2 ^ 32)).SameSeats t := by
  generalize hu : s.swapped k tag (((s.lease s.activeHalf).epoch + 1) % 2 ^ 32) = u
  have hexec : exec .handoverBoundary s = .next (if ((s.stake k).runDigest != (s.stake (1 - k)).runDigest) && !u.keepWriting then
      u.startKeep (1 - k) (u.stake k).runDigest (u.stake k).runSvn false else u).checkUpdate := by
    subst hu
    show execHandoverBoundary s = _
    unfold execHandoverBoundary
    rw [hhand]
    have hopen : ¬ ((s.lease s.activeHalf).st != .handover || s.now < (s.lease s.activeHalf).handover) = true := by simpa [hst] using hround
    refine (if_neg hopen).trans ?_
    rfl
  refine ⟨_, hexec, State.SameSeats.trans ?_ (checkUpdate_sameSeats _)⟩
  split
  · exact startKeep_sameSeats _ _ _ _ _
  · exact State.SameSeats.refl _

theorem exec_handoverBoundary_not (hnot : (s.lease s.activeHalf).st ≠ .handover ∨ s.now < (s.lease s.activeHalf).handover) :
    exec .handoverBoundary s = .next s := by
  show execHandoverBoundary s = _
  unfold execHandoverBoundary
  split
  · rfl
  · exact if_pos (by simpa using hnot)

end Boundary

section HomeStake
variable {s : State}

theorem exec_homeStakeReturn (hvalid : (s.lease s.activeHalf).st = .valid) (haway : (s.lease s.activeHalf).holder ≠ s.rst.homeHalf)
    (hstandby : (s.stake s.rst.homeHalf).st = .standby) (hpass : (s.stake s.rst.homeHalf).passDone = true)
    (hkeep : (s.stake s.rst.homeHalf).keep = .valid) (hdigest : (s.stake s.rst.homeHalf).keepDigest = s.holderStake.runDigest)
    (hspine : s.spineGone = false) (hbusy : s.updateBusy = false) :
    exec .homeStakeReturn s = .next (s.onAuth (fun a => { a with handover := some (s.rst.homeHalf, none) })) :=
  if_pos (by simp [hvalid, haway, hstandby, hpass, hkeep, hdigest, hspine, hbusy])

theorem exec_homeStakeReturn_not (hnot : (s.lease s.activeHalf).holder = s.rst.homeHalf ∨ (s.stake s.rst.homeHalf).passDone = false ∨
    s.spineGone = true ∨ s.auth.handover ≠ none) : exec .homeStakeReturn s = .next s := by
  refine if_neg ?_
  rcases hnot with hhome | hpass | hspine | hbusy
  · simp [hhome]
  · simp [hpass]
  · simp [hspine]
  · simp [State.updateBusy, Option.isSome_iff_ne_none.mpr hbusy]

end HomeStake

/-- Settles O47: stakes that fail, the end of a lease, takeovers, and handovers with their boundary and their failure. -/
theorem leasesAndHandovers : Obligations.leases_and_handovers := by
  refine ⟨fun k n a b rok facts s => ?lease, fun k tag facts s => ?handover⟩
  case lease =>
    intro l old other
    refine ⟨fun hactive hcause => ⟨fun hlease hold => ⟨?_, discardStaged_ctl s⟩, fun hnot => ?_⟩, exec_stakeHealthFail_not,
      fun hmode hepoch hvalid hfailed => ⟨fun hfit hspine => ?promoted, fun hnone => ?vacated⟩, exec_leaseEnd_not, fun hpending => ?takeover,
      fun hnot => ⟨exec_takeoverComplete_not hnot rok, exec_takeoverFailed_not hnot⟩⟩
    · exact (exec_stakeHealthFail hactive hcause).trans (congrArg Host.Outcome.next (stakeStops_holder hlease hold))
    · exact (exec_stakeHealthFail hactive hcause).trans (congrArg Host.Outcome.next (stakeStops_other hnot))
    case promoted =>
      have hexec : exec .leaseEnd s = .next (s.promoted old) :=
        (exec_leaseEnd hmode hepoch hvalid hfailed).trans (congrArg Host.Outcome.next (grantOther_promotes rfl hfit hspine))
      obtain ⟨hstakeQ, hoperQ, hownerQ, hback, hstaged, hcopy0, hcopy1⟩ := loseControl_ctl s
      have hctl := promoted_ctl s old
      refine ⟨_, hexec, promoted_lease s old, promoted_other s old, ?_, ?_, ?_, ?_, ?_, ?_, ?_, ?_, promoted_mem s old, promoted_parts s old,
        promoted_extents s old⟩
      · rw [promoted_old, toReset_failed hfailed]
      all_goals rw [hctl]
      · exact hstakeQ
      · exact hoperQ
      · exact hownerQ
      · exact hback
      · exact hstaged
      · exact hcopy0
      · exact hcopy1
    case vacated =>
      have hexec : exec .leaseEnd s = .next (s.vacated old) :=
        (exec_leaseEnd hmode hepoch hvalid hfailed).trans (congrArg Host.Outcome.next (grantOther_vacates rfl hnone))
      exact ⟨_, hexec, vacated_lease s old, vacated_leaseHeld s old, vacated_stake s old hfailed,
        (onLeases_mem _ _).trans (retired_mem s old), (onLeases_parts _ _).trans (retired_parts s old),
        (onLeases_extents _ _).trans (retired_extents s old)⟩
    case takeover =>
      refine ⟨fun hgood happlied => ?_, fun hgood happlied => ?record, fun hbad => ?_, fun hfit hspine => ?_, fun hfailed => ?_⟩
      · refine (exec_takeoverComplete hpending hgood).trans ?_
        rw [completeRecord_complete happlied]
        rfl
      case record =>
        intro u j kept
        refine ⟨?_, rfl, rfl, fun hspine => ?_⟩
        · refine (exec_takeoverComplete hpending hgood).trans ?_
          rw [completeRecord_missing happlied]
          rfl
        · have hspine' : u.spineGone = false := (spineGone_onStake _ _ _).trans hspine
          have hctl : u.ctl = s.ctl := onStake_ctl _ _ _
          obtain ⟨hcopy0, hcopy1⟩ := writeRecord_copies hspine' j
          rw [hcopy0, hcopy1, hctl]
          exact ⟨rfl, rfl⟩
      · rw [exec_takeoverComplete_fails hpending hbad, exec_takeoverFailed hpending]
      · obtain ⟨hold', hother, hlease⟩ := takeoverFails_promotes (s := s) (old := old) rfl hfit hspine
        exact ⟨_, exec_takeoverFailed hpending, hold', hother, by rw [hlease], by rw [hlease], by rw [hlease]⟩
      · obtain ⟨hold', hlease, hheld⟩ := takeoverFails_vacates (s := s) (old := old) rfl hfailed
        exact ⟨_, exec_takeoverFailed hpending, hold', hlease _, hheld⟩
  case handover =>
    intro l img
    refine ⟨fun hhand => ⟨exec_handoverReady hhand, fun hboot hshadow => ⟨exec_handoverReady_not hhand hboot hshadow,
        exec_handoverFailed_not hhand hboot hshadow⟩, fun hst hround => ?boundary, exec_handoverBoundary_not s, fun hboot hlease => ?failed⟩,
      fun hnone => ⟨exec_handoverReady_none hnone, exec_handoverBoundary_none hnone, exec_handoverFailed_none hnone⟩, ?home⟩
    case boundary =>
      obtain ⟨t, hexec, hlease, hstate, hpass, hhandover, hctl, hmem, hparts, hextents⟩ := exec_handoverBoundary hhand hst hround
      refine ⟨t, hexec, fun h => (hlease h).trans (swapped_lease s k tag _ h), (hstate k).trans (swapped_new s k tag _), fun hfit => ⟨?_, ?_⟩,
        hhandover.trans (swapped_handover s k tag _), ?_, hmem.trans (swapped_mem s k tag _), hparts.trans (swapped_parts s k tag _),
        hextents.trans (swapped_extents s k tag _), ?_⟩
      · rw [hstate, swapped_old]
        exact (toReset_standby hfit).1
      · rw [hpass, swapped_old]
        exact (toReset_standby hfit).2
      · rw [hctl, swapped_background]
        exact fun b hb => (List.mem_filter.mp hb).2
      · rintro g rfl r hr hop htag hnot
        rw [hctl]
        exact swapped_result s k _ hr hop htag hnot
    case failed =>
      have hexec := exec_handoverFailed (facts := facts) hhand hboot hlease
      refine ⟨fun b hb => ⟨_, ?_, dropHandover_facts hhand hboot hlease (if b then .timeout else .integrity)⟩, fun hgood => ?_⟩
      · refine (hexec b).trans ?_
        cases b
        · exact (if_neg Bool.false_ne_true).trans (if_pos (by simpa using hb))
        · rfl
      · exact (hexec false).trans ((if_neg Bool.false_ne_true).trans (if_neg (by simp [hgood])))
    case home =>
      intro h x
      refine ⟨fun hvalid haway hstandby hpass hkeep hdigest hspine hhand hstaging hwriting => ?_, exec_homeStakeReturn_not⟩
      exact exec_homeStakeReturn hvalid haway hstandby hpass hkeep hdigest hspine (by simp [State.updateBusy, hhand, hstaging, hwriting])

end Sys2Proof.Machine

/-! ### Starts and warm resets (R20, R463, R467, R551 to R562) -/

namespace Sys2Proof.Machine

/-! #### A new routing table leaves the round, the stakes and the reset registers (R399, R405) -/

/-- What counts rounds, the stakes with their leases, and the reset registers. -/
def State.standing (s : State) : RoundSt × AuthSt × ResetSt := (s.rnd, s.auth, s.rst)

section Routes
variable (s : State)

@[simp] theorem ite_standing (c : Prop) [Decidable c] (a b : State) :
    (if c then a else b).standing = if c then a.standing else b.standing := by
  split <;> rfl

@[simp] theorem onNet_standing (f : NetSt → NetSt) : (s.onNet f).standing = s.standing := rfl

theorem countNet_standing (k : Nat) : (s.countNet k).standing = s.standing := rfl

theorem opEvent_standing (e : Nat) (x : OpEvt) (n : Nat) : (s.opEvent e x n).standing = s.standing := by
  rw [opEvent_eq]
  rfl

theorem linkSend_standing (l : Nat) (p : Packet) : (s.linkSend l p).standing = s.standing := opEvent_standing _ _ _ _

theorem mcSend_standing (p : Packet) (outs : List Nat) : (s.mcSend p outs).2.standing = s.standing := by
  unfold State.mcSend
  suffices hfold : ∀ r : List Nat × State, (outs.foldl (fun r l =>
      if (r.2.link l).takes (2 * p.cls + 1) (p.units + 1) then
        (r.1, r.2.linkSend l { p with esc := true, escDown := p.escDown || r.2.isDown l })
      else (r.1 ++ [l], r.2)) r).2.standing = r.2.standing from hfold ([], s)
  induction outs with
  | nil => exact fun _ => rfl
  | cons l outs ih =>
    intro r
    rw [List.foldl_cons, ih]
    split
    · exact linkSend_standing _ _ _
    · rfl

theorem launch_standing (p : Packet) : (s.launch p).standing = s.standing := by
  unfold State.launch
  split
  · extract_lets outs r
    split
    · rfl
    · split
      · exact mcSend_standing _ _ _
      · exact mcSend_standing _ _ _
  · split
    · rfl
    · split
      · exact linkSend_standing _ _ _
      · rfl

theorem launchFab_standing (p : Packet) : (s.launchFab p).standing = s.standing := launch_standing _ _

theorem retryEgress_standing : s.retryEgress.standing = s.standing := by
  refine each_keeps State.standing (fun u x => ?_) _ _
  split
  · extract_lets r
    split
    · exact mcSend_standing _ _ _
    · exact mcSend_standing _ _ _
  · exact launch_standing _ _

theorem buildTree_standing (g : Nat) : (s.buildTree g).standing = s.standing := by
  unfold State.buildTree
  extract_lets x drop u
  split
  · rfl
  · split
    · rfl
    · extract_lets
      split
      · rfl
      · exact each_keeps State.standing (fun u n => launchFab_standing _ _) _ _

theorem installRoutes_standing (root : Nat) : (s.installRoutes root).standing = s.standing :=
  (retryEgress_standing _).trans (each_keeps State.standing (fun u g => buildTree_standing u g) _ _)

end Routes

/-! #### Phases 1 to 4 (R463, R489, R556, R559) -/

section Boots
variable (s : State) (f : StartFacts) (k j : Nat)

theorem imageStatus_congr {x y : Stake} (i : ImageFacts) (hrevoked : y.revoked = x.revoked) (hrollback : y.rollback = x.rollback) :
    imageStatus y i = imageStatus x i := by
  unfold imageStatus
  rw [hrevoked, hrollback]

/-- A change that keeps every stake's fuses keeps which stakes boot. -/
theorem stakeBoots_onStake {g : Stake → Stake}
    (hg : ∀ x, ((g x).lifecycle, (g x).revoked, (g x).rollback) = (x.lifecycle, x.revoked, x.rollback)) :
    (s.onStake j g).stakeBoots f k = s.stakeBoots f k := by
  have hfuses := stake_onStake_keeps s j k g (fun x => (x.lifecycle, x.revoked, x.rollback)) hg
  obtain ⟨hlife, hfuses⟩ := Prod.mk.inj hfuses
  obtain ⟨hrevoked, hrollback⟩ := Prod.mk.inj hfuses
  unfold State.stakeBoots State.ldWorks
  rw [hlife, imageStatus_congr _ hrevoked hrollback, onStake_net]

/-- Each stake after its self-test and its slath (R556). -/
def State.slathed (s : State) (f : StartFacts) : State := s.each (List.range 2) (fun s k =>
  if s.stakeBoots f k then s.onStake k (fun x => { x with
    st := .standby, passed := 0, passDone := false, runDigest := (imageFound f k).digest, runSvn := (imageFound f k).svn })
  else (s.onStake k (fun x => { x with st := .failed, passDone := false })).authority)

theorem slathed_keeps {β : Type} (π : State → β) (hstake : ∀ (u : State) k g, π (u.onStake k g) = π u)
    (hevent : ∀ (u : State) c a b, π (u.event c a b) = π u) : π (s.slathed f) = π s := by
  refine each_keeps π (fun u k => ?_) s _
  split
  · exact hstake _ _ _
  · exact (hevent _ _ _ _).trans (hstake _ _ _)

theorem slathed_stakeBoots : (s.slathed f).stakeBoots f k = s.stakeBoots f k := by
  refine each_keeps (fun u => u.stakeBoots f k) (fun u j => ?_) s _
  split
  · exact stakeBoots_onStake _ _ _ _ (fun _ => rfl)
  · exact stakeBoots_onStake _ _ _ _ (fun _ => rfl)

/-- The stake that gets the lease: the home stake if it boots (R556). -/
def State.firstHolder (s : State) (f : StartFacts) : Nat := if s.stakeBoots f s.rst.homeHalf then s.rst.homeHalf else 1 - s.rst.homeHalf

theorem slathed_firstHolder : (s.slathed f).firstHolder f = s.firstHolder f := by
  unfold State.firstHolder
  rw [slathed_keeps s f (fun u => u.rst) onStake_rst (fun _ _ _ _ => rfl), slathed_stakeBoots]

theorem bootStakes_eq : s.bootStakes f = if !s.stakeBoots f (s.firstHolder f) then s.slathed f
    else ((s.slathed f).onStake (s.firstHolder f) (fun x => { x with st := .active })).onLeases
      (fun _ => { epoch := 1, holder := s.firstHolder f, st := .valid, expiry := 4 }) := by
  rw [← slathed_stakeBoots s f (s.firstHolder f), ← slathed_firstHolder]
  rfl

theorem bootStakes_keeps {β : Type} (π : State → β) (hstake : ∀ (u : State) k g, π (u.onStake k g) = π u)
    (hevent : ∀ (u : State) c a b, π (u.event c a b) = π u) (hleases : ∀ (u : State) m, π (u.onLeases m) = π u) :
    π (s.bootStakes f) = π s := by
  rw [bootStakes_eq]
  split
  · exact slathed_keeps s f π hstake hevent
  · exact (hleases _ _).trans ((hstake _ _ _).trans (slathed_keeps s f π hstake hevent))

variable {s f}

theorem firstHolder_home (hboots : s.stakeBoots f s.rst.homeHalf = true) : s.firstHolder f = s.rst.homeHalf := if_pos hboots

/-- The home stake, when it boots, holds lease epoch 1 (R556). -/
theorem bootStakes_lease (hboots : s.stakeBoots f s.rst.homeHalf = true) (h : Nat) :
    (s.bootStakes f).lease h = { epoch := 1, holder := s.rst.homeHalf, st := .valid, expiry := 4 } := by
  rw [bootStakes_eq, firstHolder_home hboots, if_neg (by simp [hboots]), lease_onLeases]

/-- With no stake that boots, no lease is granted (R559). -/
theorem bootStakes_leaseHeld (hhome : s.rst.homeHalf < 2) (h0 : s.stakeBoots f 0 = false) (h1 : s.stakeBoots f 1 = false) :
    (s.bootStakes f).leaseHeld = s.leaseHeld := by
  have hnone : ∀ k, k < 2 → s.stakeBoots f k = false := fun k hk => by
    obtain rfl | rfl : k = 0 ∨ k = 1 := by omega
    · exact h0
    · exact h1
  have hholder : s.stakeBoots f (s.firstHolder f) = false := by
    unfold State.firstHolder
    split
    · exact hnone _ hhome
    · exact hnone _ (by omega)
  rw [bootStakes_eq, if_pos (by simp [hholder])]
  refine slathed_keeps s f (fun u => u.leaseHeld) (fun u k g => ?_) (fun _ _ _ _ => rfl)
  unfold State.leaseHeld
  simp only [lease_onStake, activeHalf_onStake]

end Boots

theorem homeHalf_lt (w : U64) : bits w 32 32 < 2 := Nat.mod_lt _ (by decide)

section Control
variable (s : State) (f : StartFacts)

/-- The record of configuration that a start takes. -/
def State.startCfg (s : State) : U64 := match s.host.cfgStaged with
  | some x => x.1
  | none => s.rst.cfg.1

/-- What a configuration record leaves of the reset registers. -/
def KeepsMode (g : ResetSt → ResetSt) : Prop := ∀ r, ((g r).mode, (g r).retained) = (r.mode, r.retained)

theorem takeStaged_keeps {β : Type} (π : State → β) (hhost : ∀ (u : State) g, π (u.onHost g) = π u)
    (hrst : ∀ (u : State) g, KeepsMode g → π (u.onRst g) = π u) : π s.takeStaged = π s := by
  unfold State.takeStaged
  split
  · rfl
  · refine (hrst _ _ ?_).trans (hhost _ _)
    exact fun _ => rfl

theorem takeStaged_cfg : s.takeStaged.rst.cfg.1 = s.startCfg := by
  unfold State.takeStaged State.startCfg
  split
  · next hnone => rw [hnone]
  · next hsome => rw [hsome]; rfl

theorem takeCfg_keeps {β : Type} (π : State → β) (hhost : ∀ (u : State) g, π (u.onHost g) = π u)
    (hrnd : ∀ (u : State) g, π (u.onRnd g) = π u) (hpower : ∀ (u : State) g, π (u.onPower g) = π u)
    (hrst : ∀ (u : State) g, KeepsMode g → π (u.onRst g) = π u) : π s.takeCfg = π s := by
  unfold State.takeCfg
  refine (hpower _ _).trans ((hrnd _ _).trans ((hrst _ _ ?_).trans (takeStaged_keeps s π hhost hrst)))
  exact fun _ => rfl

theorem takeCfg_homeHalf : s.takeCfg.rst.homeHalf = bits s.startCfg 32 32 := congrArg (bits · 32 32) (takeStaged_cfg s)

theorem event_keeps {β : Type} (c a b : Nat) (π : State → β) (hhost : ∀ (u : State) g, π (u.onHost g) = π u) : π (s.event c a b) = π s := by
  unfold State.event State.toHost
  exact hhost _ _

/-- Phase 1, with the EVENT of the reset's cause (R555). -/
def State.poweredUp (s : State) : State :=
  let s := s.onRst (fun r => { r with pwrgd := true, phase := 1 })
  match s.rst.firstEvent with
  | some e => (s.onRst (fun r => { r with firstEvent := none })).event e.code e.d0 e.d1
  | none => s

theorem poweredUp_keeps {β : Type} (π : State → β) (hevent : ∀ (u : State) c a b, π (u.event c a b) = π u)
    (hrst : ∀ (u : State) g, KeepsMode g → π (u.onRst g) = π u) : π s.poweredUp = π s := by
  unfold State.poweredUp
  extract_lets u
  have hu : π u = π s := hrst _ _ (fun _ => rfl)
  cases u.rst.firstEvent with
  | none => exact hu
  | some e =>
    refine (hevent _ _ _ _).trans ((hrst _ _ ?_).trans hu)
    exact fun _ => rfl

theorem poweredUp_startCfg : s.poweredUp.startCfg = s.startCfg := by
  unfold State.poweredUp
  extract_lets u
  cases u.rst.firstEvent <;> rfl

/-- Phase 1, and the configuration record where the persistent area is good (R553, R555). -/
def State.firstPhase (s : State) (f : StartFacts) : State := if f.persistentOk then s.poweredUp.takeCfg else s.poweredUp

theorem firstPhase_keeps {β : Type} (π : State → β) (hhost : ∀ (u : State) g, π (u.onHost g) = π u)
    (hrnd : ∀ (u : State) g, π (u.onRnd g) = π u) (hpower : ∀ (u : State) g, π (u.onPower g) = π u)
    (hrst : ∀ (u : State) g, KeepsMode g → π (u.onRst g) = π u) : π (s.firstPhase f) = π s := by
  have hpowered : π s.poweredUp = π s := poweredUp_keeps s π (fun u c a b => event_keeps u c a b π hhost) hrst
  unfold State.firstPhase
  split
  · exact (takeCfg_keeps _ π hhost hrnd hpower hrst).trans hpowered
  · exact hpowered

theorem firstPhase_homeHalf (hgood : f.persistentOk = true) : (s.firstPhase f).rst.homeHalf = bits s.startCfg 32 32 := by
  unfold State.firstPhase
  rw [if_pos hgood, takeCfg_homeHalf, poweredUp_startCfg]

theorem firstPhase_stakeBoots (k : Nat) : (s.firstPhase f).stakeBoots f k = s.stakeBoots f k :=
  firstPhase_keeps s f (fun u => u.stakeBoots f k) (fun _ _ => rfl) (fun _ _ => rfl) (fun _ _ => rfl) (fun _ _ _ => rfl)

theorem firstPhase_leaseHeld : (s.firstPhase f).leaseHeld = s.leaseHeld :=
  firstPhase_keeps s f (fun u => u.leaseHeld) (fun _ _ => rfl) (fun _ _ => rfl) (fun _ _ => rfl) (fun _ _ _ => rfl)

/-- Phases 1 and 2 of a start. -/
def State.booted (s : State) (f : StartFacts) : State := (s.firstPhase f).bootStakes f

theorem booted_mode : ((s.booted f).rst.mode, (s.booted f).rst.retained) = (s.rst.mode, s.rst.retained) :=
  (bootStakes_keeps _ f (fun u => (u.rst.mode, u.rst.retained)) (fun u k g => by rw [onStake_rst]) (fun _ _ _ _ => rfl)
    (fun u m => by rw [onLeases_rst])).trans
  (firstPhase_keeps s f (fun u => (u.rst.mode, u.rst.retained)) (fun _ _ => rfl) (fun _ _ => rfl) (fun _ _ => rfl) (fun _ _ h => h _))

theorem booted_ctl : (s.booted f).ctl = s.ctl :=
  (bootStakes_keeps _ f (fun u => u.ctl) onStake_ctl (fun _ _ _ _ => rfl) onLeases_ctl).trans
  (firstPhase_keeps s f (fun u => u.ctl) (fun _ _ => rfl) (fun _ _ => rfl) (fun _ _ => rfl) (fun _ _ _ => rfl))

theorem booted_dies : (s.booted f).dies = s.dies :=
  (bootStakes_keeps _ f (fun u => u.dies) onStake_dies (fun _ _ _ _ => rfl) onLeases_dies).trans
  (firstPhase_keeps s f (fun u => u.dies) (fun _ _ => rfl) (fun _ _ => rfl) (fun _ _ => rfl) (fun _ _ _ => rfl))

variable {s f}

theorem booted_homeHalf (hgood : f.persistentOk = true) : (s.booted f).rst.homeHalf = bits s.startCfg 32 32 :=
  (bootStakes_keeps _ f (fun u => u.rst.homeHalf) (fun u k g => by rw [onStake_rst]) (fun _ _ _ _ => rfl)
    (fun u m => by rw [onLeases_rst])).trans (firstPhase_homeHalf s f hgood)

theorem booted_lease (hgood : f.persistentOk = true) (h0 : s.stakeBoots f 0 = true) (h1 : s.stakeBoots f 1 = true) (h : Nat) :
    (s.booted f).lease h = { epoch := 1, holder := bits s.startCfg 32 32, st := .valid, expiry := 4 } := by
  have hhome := firstPhase_homeHalf s f hgood
  have hboots : (s.firstPhase f).stakeBoots f (s.firstPhase f).rst.homeHalf = true := by
    rw [firstPhase_stakeBoots, hhome]
    obtain hk | hk : bits s.startCfg 32 32 = 0 ∨ bits s.startCfg 32 32 = 1 := by
      have := homeHalf_lt s.startCfg
      omega
    · rw [hk, h0]
    · rw [hk, h1]
  exact (bootStakes_lease hboots h).trans (by rw [hhome])

theorem booted_leaseHeld (hgood : f.persistentOk = true) (h0 : s.stakeBoots f 0 = false) (h1 : s.stakeBoots f 1 = false)
    (hlease : s.leaseHeld = false) : (s.booted f).leaseHeld = false := by
  have hhome : (s.firstPhase f).rst.homeHalf < 2 := by
    rw [firstPhase_homeHalf s f hgood]
    exact homeHalf_lt s.startCfg
  exact (bootStakes_leaseHeld hhome (by rw [firstPhase_stakeBoots, h0]) (by rw [firstPhase_stakeBoots, h1])).trans
    ((firstPhase_leaseHeld s f).trans hlease)

/-- Phases 3 and 4: the counter starts and the bridges train (R20, R559). -/
def State.bridged (s : State) (ok : List Bool) : State :=
  ((s.onRst (fun r => { r with phase := 3 })).onRnd (fun r => { r with counter := 0 })).trainBridges ok

theorem startControl_eq (s : State) (f : StartFacts) : s.startControl f =
    if !testOk f 0 && !testOk f 1 then (s.booted f).onRst (fun r => { r with mode := .reset, phase := 0 })
    else if !(s.booted f).leaseHeld then (s.booted f).onRst (fun r => { r with mode := .recovery, phase := 2 })
    else if !f.persistentOk then (s.booted f).onRst (fun r => { r with mode := .recovery, phase := 2 })
    else if ((s.booted f).bridged f.bridgesOk).auth.bridge0 || ((s.booted f).bridged f.bridgesOk).auth.bridge1 then
      ((s.booted f).bridged f.bridgesOk).onRst (fun r => { r with phase := 4 })
    else (((s.booted f).bridged f.bridgesOk).onRst (fun r => { r with noSpine := true })).authority := rfl

end Control

/-! #### Phases 5 to 9 (R50, R555, R557, R558, R561) -/

section Data
variable (s : State) (f : StartFacts)

/-- The lease records, what counts rounds, the reset registers and the journal. -/
def State.ledger (s : State) : Lease × Lease × RoundSt × ResetSt × CtlSt := (s.auth.lease0, s.auth.lease1, s.rnd, s.rst, s.ctl)

theorem lease_of_ledger {s t : State} (h : t.ledger = s.ledger) (k : Nat) : t.lease k = s.lease k := by
  have h0 : t.auth.lease0 = s.auth.lease0 := congrArg (fun x => x.1) h
  have h1 : t.auth.lease1 = s.auth.lease1 := congrArg (fun x => x.2.1) h
  unfold State.lease
  rw [h0, h1]

theorem rnd_of_ledger {s t : State} (h : t.ledger = s.ledger) : t.rnd = s.rnd := congrArg (fun x => x.2.2.1) h

theorem rst_of_ledger {s t : State} (h : t.ledger = s.ledger) : t.rst = s.rst := congrArg (fun x => x.2.2.2.1) h

theorem lastJournalled_of_ledger {s t : State} (h : t.ledger = s.ledger) : t.lastJournalled = s.lastJournalled := by
  have h0 : t.auth.lease0 = s.auth.lease0 := congrArg (fun x => x.1) h
  have h1 : t.auth.lease1 = s.auth.lease1 := congrArg (fun x => x.2.1) h
  have hctl : t.ctl = s.ctl := congrArg (fun x => x.2.2.2.2) h
  unfold State.lastJournalled State.journalCopy State.activeHalf
  rw [h0, h1, hctl]

theorem onRst_ledger_congr {s t : State} (h : t.ledger = s.ledger) (g : ResetSt → ResetSt) : (t.onRst g).ledger = (s.onRst g).ledger :=
  congrArg (fun x : Lease × Lease × RoundSt × ResetSt × CtlSt => (x.1, x.2.1, x.2.2.1, g x.2.2.2.1, x.2.2.2.2)) h

theorem onRst_standing_congr {s t : State} (h : t.standing = s.standing) (g : ResetSt → ResetSt) :
    (t.onRst g).standing = (s.onRst g).standing :=
  congrArg (fun x : RoundSt × AuthSt × ResetSt => (x.1, x.2.1, g x.2.2)) h

theorem onHost_standing (g : HostSt → HostSt) : (s.onHost g).standing = s.standing := rfl

theorem trainBridges_ledger (ok : List Bool) : (s.trainBridges ok).ledger = s.ledger := rfl

theorem testDie_ledger (d : Nat) (ok : Bool) : (s.testDie d ok).ledger = s.ledger := by
  unfold State.testDie
  extract_lets u
  refine (each_keeps State.ledger ?_ u _).trans rfl
  exact fun _ _ => rfl

/-- The dies are tested, and the bridges and the secondary paths of the stacks follow them (R159, R558). -/
def State.retested (s : State) (f : StartFacts) : State :=
  let s := s.onRst (fun r => { r with mode := .test, phase := 5 })
  let s := s.each (List.range 4) (fun s d => s.testDie d (f.diesOk.getD d true))
  let s := s.trainBridges [s.auth.bridge0, s.auth.bridge1]
  s.each (List.range 4) (fun s d => s.each (dieStacks d) (fun s n => s.onStack n (fun y => { y with secondary := !(s.die d).ok })))

theorem retested_ledger : (s.retested f).ledger = (s.onRst (fun r => { r with mode := .test, phase := 5 })).ledger := by
  unfold State.retested
  extract_lets u v w
  have hv : v.ledger = u.ledger := each_keeps State.ledger (fun u d => testDie_ledger u d _) _ _
  refine (each_keeps State.ledger (fun x d => ?_) w _).trans ((trainBridges_ledger v _).trans hv)
  refine each_keeps State.ledger ?_ x _
  exact fun _ _ => rfl

variable {s f}

/-- A self-test that finds no bad weaver, stack or link. -/
theorem selfTest_clean (hweavers : f.badWeavers = []) (hstacks : f.badStacks = []) (hgood : f.goodLinks = []) (hbad : f.badLinks = []) :
    s.selfTest f = (s.retested f).onRst (fun r => { r with mode := .start }) := by
  unfold State.selfTest
  simp only [hweavers, hstacks, hgood, hbad, List.map_nil, List.filter_nil, each_nil]
  rfl

theorem selfTest_ledger (hweavers : f.badWeavers = []) (hstacks : f.badStacks = []) (hgood : f.goodLinks = []) (hbad : f.badLinks = []) :
    (s.selfTest f).ledger = (s.onRst (fun r => { r with mode := .start, phase := 5 })).ledger := by
  rw [selfTest_clean hweavers hstacks hgood hbad]
  exact onRst_ledger_congr (retested_ledger s f) _

/-- The counter and the leases as the device joins its round domain (R43, R50, R555). -/
theorem startFabric_facts (hlit : f.litLinks = []) (round : Nat) (jump : Bool) : let t := s.startFabric f round jump
    t.rst = { s.rst with phase := 9 } ∧ t.now = max s.now round ∧ t.rnd.resync = (s.rnd.resync || jump) ∧
    ∀ h, t.lease h = { s.lease h with expiry := t.now + 4 } := by
  intro t
  generalize hu : (s.onRnd (fun r => { r with
      counter := max r.counter round
      resync := r.resync || jump
      resyncCount := if jump then sat8 r.resyncCount else r.resyncCount
      master := if f.domainRound.isSome then none else some r.endpoint })).onLeases
        (fun l => { l with expiry := max s.now round + 4 }) = u
  have ht : t.standing = (u.onRst (fun r => { r with phase := 9 })).standing := by
    subst hu
    simp only [t, State.startFabric, hlit, List.map_nil, each_nil]
    refine onRst_standing_congr ?_ _
    rw [onHost_standing, installRoutes_standing]
    rfl
  have hrnd : t.rnd = u.rnd := congrArg (fun x => x.1) ht
  have hauth : t.auth = u.auth := congrArg (fun x => x.2.1) ht
  have hrst : t.rst = { u.rst with phase := 9 } := congrArg (fun x => x.2.2) ht
  have hnow : t.now = max s.now round := by
    refine (congrArg RoundSt.counter hrnd).trans ?_
    rw [← hu, onLeases_rnd]
    rfl
  refine ⟨?_, hnow, ?_, fun h => ?_⟩
  · rw [hrst, ← hu, onLeases_rst]
    rfl
  · rw [hrnd, ← hu, onLeases_rnd]
    rfl
  · rw [hnow, show t.lease h = u.lease h by unfold State.lease; rw [hauth], ← hu, lease_onLeases]
    rfl

end Data

/-! #### The commands of a start (R554, R555, R559, R561, R562) -/

section Start
variable {s : State} {f : StartFacts}

theorem exec_warmStart (hretained : s.rst.retained = true) : exec (.warmStart f) s = .next (s.start f) := if_pos hretained

theorem exec_warmStart_cold (hretained : s.rst.retained = false) : exec (.warmStart f) s = .next s := if_neg (by simp [hretained])

theorem exec_coldStart (hretained : s.rst.retained = false) : exec (.coldStart f) s = .next (s.start f) := if_neg (by simp [hretained])

theorem exec_coldStart_warm (hretained : s.rst.retained = true) : exec (.coldStart f) s = .next s := if_pos hretained

/-- The start that fits whether memory was retained runs the phases. -/
theorem exec_start : (if s.rst.retained then exec (.warmStart f) s else exec (.coldStart f) s) = .next (s.start f) := by
  cases hretained : s.rst.retained
  · exact exec_coldStart hretained
  · exact exec_warmStart hretained

theorem start_of_mode (hmode : s.rst.mode ≠ .start) : s.start f = s := if_pos (by simp [hmode])

theorem start_control (hmode : s.rst.mode = .start) (hheld : s.rst.held = false) (hspine : s.rst.noSpine = false) (hphase : s.rst.phase < 4) :
    s.start f = if (s.startControl f).rst.mode == .start && (s.startControl f).rst.phase == 4 then (s.startControl f).startData f
      else s.startControl f := by
  refine (if_neg ?_).trans ?_
  · simp [hmode, hheld, hspine, Nat.lt_succ_of_lt hphase]
  · rw [if_pos hphase]

/-- Both stakes fail their self-test: the device stays in reset (R559). -/
theorem startControl_reset (h0 : testOk f 0 = false) (h1 : testOk f 1 = false) :
    s.startControl f = (s.booted f).onRst (fun r => { r with mode := .reset, phase := 0 }) :=
  (startControl_eq s f).trans (if_pos (by simp [h0, h1]))

/-- Without a lease or a good copy of the persistent area: RECOVERY (R559). -/
theorem startControl_recovery (htest : testOk f 0 = true) (hbad : (s.booted f).leaseHeld = false ∨ f.persistentOk = false) :
    s.startControl f = (s.booted f).onRst (fun r => { r with mode := .recovery, phase := 2 }) := by
  refine (startControl_eq s f).trans ((if_neg (by simp [htest])).trans ?_)
  cases hlease : (s.booted f).leaseHeld
  · rfl
  · exact (if_neg Bool.false_ne_true).trans (if_pos (by simpa [hlease] using hbad))

section Leased
variable (htest : testOk f 0 = true) (hgood : f.persistentOk = true) (hlease : (s.booted f).leaseHeld = true)
include htest hgood hlease

theorem startControl_leased : s.startControl f =
    if ((s.booted f).bridged f.bridgesOk).auth.bridge0 || ((s.booted f).bridged f.bridgesOk).auth.bridge1 then
      ((s.booted f).bridged f.bridgesOk).onRst (fun r => { r with phase := 4 })
    else (((s.booted f).bridged f.bridgesOk).onRst (fun r => { r with noSpine := true })).authority :=
  (startControl_eq s f).trans ((if_neg (by simp [htest])).trans ((if_neg (by simp [hlease])).trans (if_neg (by simp [hgood]))))

theorem startControl_noSpine (hbridges : f.bridgesOk = [false, false]) :
    s.startControl f = (((s.booted f).bridged f.bridgesOk).onRst (fun r => { r with noSpine := true })).authority := by
  rw [startControl_leased htest hgood hlease, if_neg]
  rw [hbridges]
  exact Bool.false_ne_true

theorem startControl_spine (hbridges : f.bridgesOk = [true, true]) (h0 : (s.die 0).ok = true) (h2 : (s.die 2).ok = true) :
    s.startControl f = ((s.booted f).bridged f.bridgesOk).onRst (fun r => { r with phase := 4 }) := by
  have hdie : ∀ d, (s.booted f).die d = s.die d := fun d => by
    unfold State.die
    rw [booted_dies]
  rw [startControl_leased htest hgood hlease, if_pos]
  show (f.bridgesOk.getD 0 true && ((s.booted f).die 0).ok && ((s.booted f).die 2).ok || _) = true
  rw [hdie, hdie, h0, h2, hbridges]
  rfl

end Leased

theorem activeHalf_of_leases {k e : Nat} {st : LeaseState} {x : Nat}
    (hlease : ∀ h, s.lease h = { epoch := e, holder := k, st := st, expiry := x }) : s.activeHalf = k := by
  have h0 : s.auth.lease0 = { epoch := e, holder := k, st := st, expiry := x } := hlease 0
  unfold State.activeHalf
  rw [h0]
  rfl

theorem leaseHeld_of_leases {k e x : Nat} (hlease : ∀ h, s.lease h = { epoch := e, holder := k, st := .valid, expiry := x }) :
    s.leaseHeld = true := leaseHeld_of_valid (by rw [hlease])

/-- The rounds that a start joins at: its domain's, or in a warm start one past the journal's last (R561, R562). -/
theorem startData_facts (hweavers : f.badWeavers = []) (hstacks : f.badStacks = []) (hgood : f.goodLinks = []) (hbad : f.badLinks = [])
    (hlit : f.litLinks = []) (hreplay : s.rst.retained = true → f.replayOk = true) : let t := s.startData f
    t.rst.mode = .start ∧ t.rst.phase = 9 ∧ t.rst.homeHalf = s.rst.homeHalf ∧ (∀ h, t.lease h = { s.lease h with expiry := t.now + 4 }) ∧
    (s.rst.retained = false → t.now = max s.now (f.domainRound.getD 0)) ∧
    (s.rst.retained = true → t.now = max s.now (max (f.domainRound.getD 0) (s.lastJournalled + 1)) ∧ t.rnd.resync = true) := by
  intro t
  generalize hu : s.selfTest f = u
  have hledger : u.ledger = (s.onRst (fun r => { r with mode := .start, phase := 5 })).ledger := by
    rw [← hu]
    exact selfTest_ledger hweavers hstacks hgood hbad
  have hrst : u.rst = { s.rst with mode := .start, phase := 5 } := rst_of_ledger hledger
  have hrnd : u.rnd = s.rnd := (rnd_of_ledger hledger :)
  have hlease : ∀ h, u.lease h = s.lease h := fun h => (lease_of_ledger hledger h :)
  have hnow : u.now = s.now := congrArg RoundSt.counter hrnd
  have hlast : u.lastJournalled = s.lastJournalled := (lastJournalled_of_ledger hledger :)
  cases hretained : s.rst.retained with
  | false =>
    have ht : t = u.initMetadata.startFabric f (f.domainRound.getD 0) f.domainRound.isSome := by
      simp only [t, State.startData, hu]
      exact if_pos (by simp [hrst, hretained])
    obtain ⟨hrst', hnow', -, hlease'⟩ := startFabric_facts (s := u.initMetadata) hlit (f.domainRound.getD 0) f.domainRound.isSome
    rw [← ht] at hrst' hnow' hlease'
    have hinit : u.initMetadata.rst = { u.rst with fullTest := true, phase := 6, persistDue := false } := rfl
    rw [hinit, hrst] at hrst'
    refine ⟨by rw [hrst'], by rw [hrst'], by rw [hrst'], fun h => ?_, fun _ => ?_, fun h => absurd h Bool.false_ne_true⟩
    · rw [hlease', show u.initMetadata.lease h = u.lease h from rfl, hlease]
    · rw [hnow', show u.initMetadata.now = u.now from rfl, hnow]
  | true =>
    generalize hv : ({ u with half0 := { u.half0 with refresh := .active }, half1 := { u.half1 with refresh := .active } } : State) = v
    have hledger' : v.ledger = u.ledger := by
      rw [← hv]
      rfl
    have ht : t = v.startFabric f (max (f.domainRound.getD 0) (v.lastJournalled + 1)) true := by
      simp only [t, State.startData, hu]
      refine (if_neg (by simp [hrst, hretained])).trans ((if_neg (by simp [hreplay hretained])).trans ?_)
      rw [← hv]
    obtain ⟨hrst', hnow', hresync, hlease'⟩ := startFabric_facts (s := v) hlit (max (f.domainRound.getD 0) (v.lastJournalled + 1)) true
    rw [← ht] at hrst' hnow' hresync hlease'
    rw [rst_of_ledger hledger', hrst] at hrst'
    refine ⟨by rw [hrst'], by rw [hrst'], by rw [hrst'], fun h => ?_, fun h => absurd h.symm Bool.false_ne_true, fun _ => ⟨?_, ?_⟩⟩
    · rw [hlease', lease_of_ledger hledger', hlease]
    · rw [hnow', lastJournalled_of_ledger hledger', hlast, show v.now = u.now from congrArg RoundSt.counter (rnd_of_ledger hledger'), hnow]
    · rw [hresync, Bool.or_true]

/-- A start with all it needs reaches phase 9 (R555 to R562). -/
theorem start_complete (hmode : s.rst.mode = .start) (hheld : s.rst.held = false) (hspine : s.rst.noSpine = false) (hphase : s.rst.phase < 4)
    (h0 : s.stakeBoots f 0 = true) (h1 : s.stakeBoots f 1 = true) (hpersist : f.persistentOk = true) (hbridges : f.bridgesOk = [true, true])
    (hdies : ∀ d, (s.die d).ok = true) (hweavers : f.badWeavers = []) (hstacks : f.badStacks = []) (hgood : f.goodLinks = [])
    (hbad : f.badLinks = []) (hlit : f.litLinks = []) (hreplay : s.rst.retained = true → f.replayOk = true) : let t := s.start f
    let home := bits s.startCfg 32 32
    let last := (s.journalCopy home).ring.head?.elim 0 (·.round)
    t.rst.mode = .start ∧ t.rst.phase = 9 ∧ t.rst.homeHalf = home ∧
    (∀ h, t.lease h = { epoch := 1, holder := home, st := .valid, expiry := t.now + 4 }) ∧
    (s.rst.retained = false → t.now = f.domainRound.getD 0) ∧
    (s.rst.retained = true → t.now = max (f.domainRound.getD 0) (last + 1) ∧ t.rnd.resync = true) := by
  intro t home last
  have htest : testOk f 0 = true := by
    unfold State.stakeBoots at h0
    simp only [Bool.and_eq_true] at h0
    exact h0.1.1.1
  have hlease := booted_lease (s := s) hpersist h0 h1
  have hcontrol := startControl_spine (s := s) htest hpersist (leaseHeld_of_leases hlease) hbridges (hdies 0) (hdies 2)
  generalize hc : s.startControl f = c at hcontrol
  have hrst : c.rst = { (s.booted f).rst with phase := 4 } := by
    rw [hcontrol]
    rfl
  have hcmode : c.rst.mode = .start ∧ c.rst.retained = s.rst.retained := by
    rw [hrst]
    exact ⟨(congrArg Prod.fst (booted_mode s f)).trans hmode, congrArg Prod.snd (booted_mode s f)⟩
  have hclease : ∀ h, c.lease h = { epoch := 1, holder := home, st := .valid, expiry := 4 } := fun h => by
    rw [hcontrol]
    exact hlease h
  have hcnow : c.now = 0 := by
    rw [hcontrol]
    rfl
  have hclast : c.lastJournalled = last := by
    have hctl : c.ctl = s.ctl := by
      rw [hcontrol]
      exact booted_ctl s f
    unfold State.lastJournalled State.journalCopy
    rw [activeHalf_of_leases hclease, hctl]
    show _ = ((s.journalCopy home).ring.head?.elim 0 (·.round))
    unfold State.journalCopy
    split <;> simp [*]
  have ht : t = c.startData f := by
    refine (start_control hmode hheld hspine hphase).trans ?_
    rw [hc]
    exact if_pos (by rw [hcmode.1, hrst]; rfl)
  obtain ⟨hmode', hphase', hhome', hlease', hcold, hwarm⟩ := startData_facts (s := c) hweavers hstacks hgood hbad hlit
    (fun h => hreplay (hcmode.2 ▸ h))
  rw [← ht] at hmode' hphase' hhome' hlease' hcold hwarm
  refine ⟨hmode', hphase', ?_, fun h => ?_, fun h => ?_, fun h => ?_⟩
  · rw [hhome', hrst]
    exact booted_homeHalf hpersist
  · rw [hlease', hclease]
  · rw [hcold (hcmode.2.trans h), hcnow, Nat.zero_max]
  · obtain ⟨hnow', hresync⟩ := hwarm (hcmode.2.trans h)
    exact ⟨by rw [hnow', hcnow, hclast, Nat.zero_max], hresync⟩

end Start

section Service
variable {s : State}

theorem exec_spineTrainingRetry {ok : List Bool} (hspine : s.rst.noSpine = true) (h0 : (s.die 0).ok = true) (h2 : (s.die 2).ok = true) :
    exec (.spineTrainingRetry (true :: ok)) s =
      .next ((s.trainBridges ((true :: ok ++ [false, false]).take 2)).onRst (fun r => { r with noSpine := false, phase := 4 })) := by
  refine (if_neg (by simp [hspine])).trans (if_pos ?_)
  show (true && (s.die 0).ok && (s.die 2).ok || _) = true
  rw [h0, h2]
  rfl

theorem exec_spineTrainingRetry_not {ok : List Bool} (hspine : s.rst.noSpine = false) : exec (.spineTrainingRetry ok) s = .next s :=
  if_pos (by simp [hspine])

theorem exec_enterService (hmode : s.rst.mode = .start) (hphase : s.rst.phase = 9) : exec .enterService s =
    .next (((if s.rst.retained then s.resumeTimelines else s).onCtl (fun c => { c with locked := true })).onRst
      (fun r => { r with mode := .service, retained := false })) :=
  if_neg (by simp [hmode, hphase])

theorem exec_enterService_not (hnot : s.rst.mode ≠ .start ∨ s.rst.phase ≠ 9) : exec .enterService s = .next s :=
  if_pos (by simpa using hnot)

/-- Entering SERVICE locks the bindings; only timelines that a warm reset interrupted move (R456, R561). -/
theorem exec_enterService_goes (hmode : s.rst.mode = .start) (hphase : s.rst.phase = 9) : Goes (exec .enterService s) (fun t =>
    t.rst = { s.rst with mode := .service, retained := false } ∧ t.ctl = { s.ctl with locked := true } ∧ t.host = s.host ∧ t.mem = s.mem ∧
    t.parts = s.parts ∧ (s.rst.retained = false → t.extents = s.extents ∧ t.regions = s.regions)) := by
  refine ⟨_, exec_enterService hmode hphase, ?_⟩
  cases hretained : s.rst.retained
  · exact ⟨rfl, rfl, rfl, rfl, rfl, fun _ => ⟨rfl, rfl⟩⟩
  · exact ⟨rfl, rfl, rfl, rfl, rfl, fun h => absurd h.symm Bool.false_ne_true⟩

end Service

/-! #### The quiesce of a warm reset (R560) -/

section Quiesce
variable {s : State} {w : Nat}

/-- The suspended strokes of a partition complete with TIMEOUT (R560). -/
def State.quiescePart (s : State) (p : Nat) : State :=
  let ks := (s.part p).suspended ++ (s.part p).moved
  let s := s.onPart p (fun x => { x with suspended := [], moved := [] })
  s.each ks (fun s k => s.complete k.s .timeout k.s.used (admitDetail none 0) 0)

/-- No partition of a list has a suspended stroke. -/
def State.Unsuspended (s : State) (l : List Nat) : Prop := ∀ p ∈ l, (s.part p).suspended = [] ∧ (s.part p).moved = []

/-- A partition without suspended strokes has none to complete. -/
theorem quiescePart_unsuspended {p : Nat} (hnone : (s.part p).suspended = [] ∧ (s.part p).moved = []) :
    s.quiescePart p = s.onPart p (fun x => { x with suspended := [], moved := [] }) := by
  obtain ⟨hsuspended, hmoved⟩ := hnone
  simp only [State.quiescePart, hsuspended, hmoved, List.append_nil, each_nil]

theorem Unsuspended.onPart {l : List Nat} (hnone : s.Unsuspended l) (p : Nat) :
    (s.onPart p (fun x => { x with suspended := [], moved := [] })).Unsuspended l := by
  intro q hq
  by_cases hqp : q = p
  · subst hqp
    rw [part_onPart_self]
    exact ⟨rfl, rfl⟩
  · rw [part_onPart_ne _ _ hqp]
    exact hnone q hq

theorem each_quiescePart (l : List Nat) (hnone : s.Unsuspended l) :
    s.each l State.quiescePart = s.each l (fun s p => s.onPart p (fun x => { x with suspended := [], moved := [] })) := by
  induction l generalizing s with
  | nil => rfl
  | cons p l ih =>
    rw [each_cons, each_cons, quiescePart_unsuspended (hnone p (List.mem_cons_self ..))]
    exact ih (Unsuspended.onPart (fun q hq => hnone q (List.mem_cons_of_mem _ hq)) p)

theorem exec_warmQuiesceStart (hdue : s.rst.due = some (2, w)) : exec .warmQuiesceStart s = if s.now < w then .next s else
    .next ((s.onRst (fun r => { r with due := none, warm := some w, limited := false })).each s.liveParts State.quiescePart) := by
  show execWarmQuiesceStart s = _
  simp only [execWarmQuiesceStart, hdue]
  rfl

theorem exec_warmQuiesceStart_none (hdue : s.rst.due = none) : exec .warmQuiesceStart s = .next s := by
  show execWarmQuiesceStart s = _
  simp only [execWarmQuiesceStart, hdue]

/-- At the limit of the quiesce what is open ends (R560). -/
theorem exec_warmQuiesceLimit (hwarm : s.rst.warm = some w) : exec .warmQuiesceLimit s = if s.rst.limited || s.now < w + 8 then .next s else
    let u := ((s.onRst (fun r => { r with limited := true })).cancelBulk (fun _ => true) .busyRetry)
    let v := u.each ((u.net.flows.filter (fun x => x.park.isSome)).map (·.id)) State.flagExpire
    .next (v.each ((v.host.reqs.filter (fun q => q.answer.isNone)).map (·.tag)) (fun s t => s.answerHost t .busyRetry [] false)) := by
  show execWarmQuiesceLimit s = _
  unfold execWarmQuiesceLimit
  rw [hwarm]

theorem exec_warmQuiesceLimit_none (hwarm : s.rst.warm = none) : exec .warmQuiesceLimit s = .next s := by
  show execWarmQuiesceLimit s = _
  simp only [execWarmQuiesceLimit, hwarm]

theorem exec_warmResetEntry (hwarm : s.rst.warm = some w) : exec .warmResetEntry s =
    if s.rst.limited && decide (w + 10 ≤ s.now + 1) then .next s.retainFabric.release else .next s := by
  show execWarmResetEntry s = _
  simp only [execWarmResetEntry, hwarm]

theorem exec_warmResetEntry_none (hwarm : s.rst.warm = none) : exec .warmResetEntry s = .next s := by
  show execWarmResetEntry s = _
  simp only [execWarmResetEntry, hwarm]

theorem setInt_keeps {β : Type} (i : Nat) (π : State → β) (hint : ∀ (u : State) x y, π (u.onHost (fun h => { h with intStatus := x, intCount := y })) = π u)
    (hemit : ∀ (u : State) o, π (u.emit o) = π u) : π (s.setInt i) = π s := by
  unfold State.setInt
  extract_lets u
  have hu : π u = π s := hint s (s.host.intStatus ||| (1 <<< i)) (s.host.intCount.mod 0 i sat8)
  split
  · rfl
  · split
    · exact (hemit _ _).trans hu
    · exact hu

theorem metaWrite_keeps {β : Type} (h n : Nat) (π : State → β) (hhalf : ∀ (u : State) h f, π (u.onHalf h f) = π u) : π (s.metaWrite h n) = π s :=
  hhalf _ _ _

theorem logErr_keeps {β : Type} (h : Nat) (r : LogRec) (π : State → β) (hhalf : ∀ (u : State) h f, π (u.onHalf h f) = π u)
    (hevent : ∀ (u : State) c a b, π (u.event c a b) = π u) : π (s.logErr h r) = π s := by
  unfold State.logErr
  extract_lets x ce same again r' u v
  split
  · exact hhalf _ _ _
  · have hv : π v = π s := (metaWrite_keeps _ _ π hhalf).trans (hhalf _ _ _)
    split
    · exact hhalf _ _ _
    · split
      · exact hv
      · exact (hevent _ _ _ _).trans hv

/-- A stack's failure leaves all but its half, itself, the persistent area's mark and what goes to the host. -/
theorem stackDown_keeps {β : Type} (n : Nat) (π : State → β) (hhalf : ∀ (u : State) h f, π (u.onHalf h f) = π u)
    (hstack : ∀ (u : State) n f, π (u.onStack n f) = π u) (hrst : ∀ (u : State) f, π (u.onRst f) = π u)
    (hevent : ∀ (u : State) c a b, π (u.event c a b) = π u) : π (s.stackDown n) = π s := by
  unfold State.stackDown
  extract_lets h u x next v w
  split
  · rfl
  · have hu : π u = π s := (hstack _ _ _).trans (hrst _ _)
    have hv : π v = π u := hhalf _ _ _
    exact (hevent _ _ _ _).trans ((logErr_keeps _ _ π hhalf hevent).trans (hv.trans hu))

theorem localAnswers_keeps {β : Type} (π : State → β) (hemit : ∀ (u : State) o, π (u.emit o) = π u) : π s.localAnswers = π s :=
  each_keeps π (fun _ _ => hemit _ _) s _

theorem rimDark_keeps {β : Type} (π : State → β) (hint : ∀ (u : State) x y, π (u.onHost (fun h => { h with intStatus := x, intCount := y })) = π u)
    (hemit : ∀ (u : State) o, π (u.emit o) = π u) : π s.rimDark = π s :=
  each_keeps π (fun _ _ => setInt_keeps _ π hint hemit) s _

theorem applyFailing_keeps {β : Type} (π : State → β) (hhalf : ∀ (u : State) h f, π (u.onHalf h f) = π u)
    (hstack : ∀ (u : State) n f, π (u.onStack n f) = π u) (hrst : ∀ (u : State) f, π (u.onRst f) = π u)
    (hevent : ∀ (u : State) c a b, π (u.event c a b) = π u) : π s.applyFailing = π s := by
  unfold State.applyFailing
  refine (hhalf _ _ _).trans ((hhalf _ _ _).trans ?_)
  exact each_keeps π (fun _ _ => stackDown_keeps _ π hhalf hstack hrst hevent) s _

/-- As the fabric side loses its power or resets: host requests are answered, the rim is dark, and failing stacks have failed. -/
def State.darkening (s : State) : State := s.localAnswers.rimDark.applyFailing

theorem darkening_keeps {β : Type} (π : State → β) (hint : ∀ (u : State) x y, π (u.onHost (fun h => { h with intStatus := x, intCount := y })) = π u)
    (hemit : ∀ (u : State) o, π (u.emit o) = π u) (hhalf : ∀ (u : State) h f, π (u.onHalf h f) = π u)
    (hstack : ∀ (u : State) n f, π (u.onStack n f) = π u) (hrst : ∀ (u : State) f, π (u.onRst f) = π u)
    (hevent : ∀ (u : State) c a b, π (u.event c a b) = π u) : π s.darkening = π s :=
  (applyFailing_keeps π hhalf hstack hrst hevent).trans ((rimDark_keeps π hint hemit).trans (localAnswers_keeps π hemit))

theorem darkening_rnd : s.darkening.rnd = s.rnd :=
  darkening_keeps State.rnd (fun _ _ _ => rfl) (fun _ _ => rfl) onHalf_rnd (fun _ _ _ => rfl) (fun _ _ => rfl) (fun _ _ _ _ => rfl)

theorem dieBuffer_rnd (d : Nat) : (s.dieBuffer d).rnd = s.rnd := by
  refine (each_keeps State.rnd (fun u x => ?_) _ _).trans rfl
  exact (rnd_of_aside (settleLine_aside _ _)).trans (rnd_of_aside (dropToken_aside _ _ _))

/-- What is buffered as a warm reset begins is written before the fabric side resets (R169, R560). -/
def State.settledForReset (s : State) : State :=
  s.localAnswers.rimDark.applyFailing.flushBuffers.each (List.range 4) State.dieBuffer

theorem flushBuffers_rnd : s.flushBuffers.rnd = s.rnd := by
  refine (each_keeps State.rnd ?_ s.releaseAll _).trans (rnd_of_aside (releaseAll_aside s))
  exact fun _ _ => rfl

theorem settledForReset_rnd : s.settledForReset.rnd = s.rnd := by
  unfold State.settledForReset
  rw [each_keeps State.rnd (fun _ _ => dieBuffer_rnd _), flushBuffers_rnd]
  exact darkening_rnd

theorem retainFabric_rnd : s.retainFabric.rnd = { endpoint := s.rnd.endpoint } := by
  rw [← settledForReset_rnd (s := s)]
  rfl

theorem retainFabric_rst : s.retainFabric.rst = s.settledForReset.rst.after true := rfl

theorem retainFabric_asleep : s.retainFabric.half0.refresh = .asleep ∧ s.retainFabric.half1.refresh = .asleep := ⟨rfl, rfl⟩

end Quiesce

/-- Settles O53: where a start ends, what SERVICE changes, and the quiesce and entry of a warm reset. -/
theorem startsAndWarmResets : Obligations.starts_and_warm_resets := by
  intro f w ok s go cfg last
  have hgo : go = .next (s.start f) := exec_start
  refine ⟨fun hmode hheld hspine hphase => ?start, exec_coldStart_warm, exec_warmStart_cold, fun hmode => ?_, fun hspine h0 h2 => ?_,
    exec_spineTrainingRetry_not, exec_enterService_goes, exec_enterService_not, fun hdue => ⟨fun hround hnone => ?quiesce, fun hround => ?_⟩,
    exec_warmQuiesceStart_none, fun hwarm => ⟨fun hlimited hround => ?_, fun hnot => ?_, fun hlimited hround => ?entry, fun hnot => ?_⟩,
    fun hwarm => ⟨exec_warmQuiesceLimit_none hwarm, exec_warmResetEntry_none hwarm⟩⟩
  case start =>
    have hstay : ∀ {c : State}, s.startControl f = c → c.rst.mode ≠ .start ∨ c.rst.phase ≠ 4 → go = .next c := fun hc hnot => by
      rw [hgo, start_control hmode hheld hspine hphase, hc]
      exact congrArg _ (if_neg (by simpa [Decidable.imp_iff_not_or] using hnot))
    have htest : s.stakeBoots f 0 = true → testOk f 0 = true := fun h0 => by
      unfold State.stakeBoots at h0
      simp only [Bool.and_eq_true] at h0
      exact h0.1.1.1
    refine ⟨fun h0 h1 => ?_, fun h0 hlease hb0 hb1 => ?_, fun hb0 hb1 => ⟨fun hbad => ?_, fun hgood hbridges => ?_, ?_⟩⟩
    · exact ⟨_, hstay (startControl_reset h0 h1) (.inl (by simp [State.onRst])), rfl, rfl⟩
    · have hnone : (s.booted f).leaseHeld = false ∨ f.persistentOk = false := by
        cases hgood : f.persistentOk
        · exact .inr rfl
        · exact .inl (booted_leaseHeld hgood hb0 hb1 hlease)
      exact ⟨_, hstay (startControl_recovery h0 hnone) (.inl (by simp [State.onRst])), rfl, rfl⟩
    · exact ⟨_, hstay (startControl_recovery (htest hb0) (.inr hbad)) (.inl (by simp [State.onRst])), rfl, rfl⟩
    · have hheld' := leaseHeld_of_leases (booted_lease hgood hb0 hb1)
      refine ⟨_, hstay (startControl_noSpine (htest hb0) hgood hheld' hbridges) (.inr ?_), ?_, rfl, rfl, rfl⟩
      · show ¬ (3 = 4)
        decide
      · exact (congrArg Prod.fst (booted_mode s f)).trans hmode
    · intro hgood hbridges hdies hweavers hstacks hgoodLinks hbadLinks hlit hreplay
      obtain ⟨hmode', hphase', hhome, hlease, hcold, hwarm⟩ := start_complete hmode hheld hspine hphase hb0 hb1 hgood hbridges hdies hweavers
        hstacks hgoodLinks hbadLinks hlit hreplay
      have hlast : last = (s.journalCopy (bits s.startCfg 32 32)).ring.head?.elim 0 (·.round) := by
        show (match (s.journalCopy (bits s.startCfg 32 32)).ring with | j :: _ => j.round | [] => 0) = _
        cases (s.journalCopy (bits s.startCfg 32 32)).ring <;> rfl
      exact ⟨_, hgo, hmode', hphase', hhome, hlease, hcold, fun h => by rw [hlast]; exact hwarm h⟩
  · have hstart := start_of_mode (f := f) hmode
    cases hretained : s.rst.retained
    · exact ⟨(exec_coldStart hretained).trans (congrArg _ hstart), exec_warmStart_cold hretained⟩
    · exact ⟨exec_coldStart_warm hretained, (exec_warmStart hretained).trans (congrArg _ hstart)⟩
  · refine ⟨_, exec_spineTrainingRetry hspine h0 h2, ?_, rfl⟩
    show (true && (s.die 0).ok && (s.die 2).ok) = true
    rw [h0, h2]
    rfl
  case quiesce =>
    refine (exec_warmQuiesceStart hdue).trans ((if_neg (Nat.not_lt.mpr hround)).trans (congrArg _ ?_))
    exact each_quiescePart _ hnone
  · exact (exec_warmQuiesceStart hdue).trans (if_pos hround)
  · exact (exec_warmQuiesceLimit hwarm).trans (if_neg (by simp [hlimited, hround]))
  · exact (exec_warmQuiesceLimit hwarm).trans (if_pos (by simpa using hnot))
  case entry =>
    refine ⟨(exec_warmResetEntry hwarm).trans (if_pos (by simp [hlimited, hround])), ?_, ?_, ?_, retainFabric_asleep.1, retainFabric_asleep.2,
      retainFabric_rnd⟩
    all_goals rw [retainFabric_rst]; rfl
  · refine (exec_warmResetEntry hwarm).trans (if_neg ?_)
    simpa [Decidable.imp_iff_not_or] using hnot

end Sys2Proof.Machine

/-! ### Resets (R446 to R449, R551 to R554, R563, R577, R578) -/

namespace Sys2Proof.Machine

/-! #### Power and DEV_RESET_N (R551, R577, R578) -/

section Causes
variable {s : State}

theorem exec_powerOn (hmode : s.rst.mode = .off) (hstage : s.rst.stageOff = false) : exec .powerOn s = .next s.powerBack :=
  if_pos (by simp [hmode, hstage])

theorem exec_powerOn_not (hnot : s.rst.mode ≠ .off ∨ s.rst.stageOff = true) : exec .powerOn s = .next s :=
  if_neg (by simpa [Decidable.imp_iff_not_or] using hnot)

theorem release_held (hheld : s.rst.held = true) : s.release = s := if_neg (by simp [hheld])

theorem release_other (hmode : s.rst.mode ≠ .reset) : s.release = s := if_neg (by simp [hmode])

theorem release_start (hmode : s.rst.mode = .reset) (hheld : s.rst.held = false) (hstage : s.rst.stageOff = false) :
    s.release = s.onRst (fun r => { r with mode := .start, phase := 0 }) := if_pos (by simp [hmode, hheld, hstage])

theorem powerBack_held (hheld : s.rst.held = true) : s.powerBack = s.onRst (fun r => { r with mode := .reset }) :=
  release_held (s := s.onRst (fun r => { r with mode := .reset })) hheld

theorem powerBack_start (hheld : s.rst.held = false) (hstage : s.rst.stageOff = false) :
    s.powerBack = s.onRst (fun r => { r with mode := .start, phase := 0 }) :=
  release_start (s := s.onRst (fun r => { r with mode := .reset })) rfl hheld hstage

theorem exec_devResetN_low : exec (.devResetN true) s =
    .next ((if s.rst.mode == .off then s else s.loseFabric).onRst (fun r => { r with held := true })) := rfl

theorem exec_devResetN_high : exec (.devResetN false) s = .next (s.onRst (fun r => { r with held := false })).release := rfl

/-- What a reset that keeps no memory leaves of the stakes, the link dies and the host's results (R463, R510, R551, R552). -/
theorem loseFabric_facts : let t := s.loseFabric
    t.rst = s.darkening.rst.after false ∧ t.parts = [] ∧ t.extents = [] ∧ t.regions = [] ∧ t.mem = {} ∧ t.ctl = {} ∧ t.net.flows = [] ∧
    t.rnd = { endpoint := s.rnd.endpoint } ∧ t.auth.stake0.keep = s.auth.stake0.keep ∧ t.auth.stake1.keep = s.auth.stake1.keep ∧
    t.auth.stake0.rollback = s.auth.stake0.rollback ∧ t.net.ld0 = s.net.ld0 ∧ t.net.ld1 = s.net.ld1 ∧
    t.host.bindings = [] ∧ t.host.channels = [] ∧ t.host.exts = [] ∧ t.host.reqs = [] ∧ t.host.results = s.host.results := by
  have hkeeps := darkening_keeps (s := s) (fun u => (u.rnd, u.auth, u.net, u.host.results)) (fun _ _ _ => rfl) (fun _ _ => rfl)
    (fun u h f => by rw [onHalf_rnd, onHalf_auth, onHalf_net, onHalf_host]) (fun _ _ _ => rfl) (fun _ _ => rfl) (fun _ _ _ _ => rfl)
  generalize hd : s.darkening = d at hkeeps
  obtain ⟨hrnd, hkeeps⟩ := Prod.mk.inj hkeeps
  obtain ⟨hauth, hkeeps⟩ := Prod.mk.inj hkeeps
  obtain ⟨hnet, hresults⟩ := Prod.mk.inj hkeeps
  rw [← hrnd, ← hauth, ← hnet, ← hresults, ← hd]
  exact ⟨rfl, rfl, rfl, rfl, rfl, rfl, rfl, rfl, rfl, rfl, rfl, rfl, rfl, rfl, rfl, rfl, rfl, rfl⟩

end Causes

/-! #### The host island (R449, R551, R578) -/

section Island
variable {s : State} {ch : Nat} {m : MbxMsg} {l : List MbxMsg}

/-- The message that a channel's head is sent to the host as (R449). -/
def MbxMsg.toRim (m : MbxMsg) (ch : Nat) : RimMsg :=
  { type := rtMbxPut, dir := true, channel := ch, len := m.len, tag := m.part, payload := m.words }

/-- The head message of a channel is sent again, if the host is bound to it (R449). -/
def State.resendHead (s : State) (ch : Nat) : State := match s.channel ch with
  | [] => s
  | m :: _ => if (s.binding ch).any (fun b => b.2 == idHost) then s.toHost (m.toRim ch) else s

theorem resendHeads_eq : s.resendHeads = s.each (List.range 128) State.resendHead := rfl

/-- What waits for the host only grows; all else is as it was. -/
def State.GrownToHost (s t : State) : Prop := ∃ l, t = s.onHost (fun h => { h with toHost := h.toHost ++ l })

theorem GrownToHost.trans {t u : State} (hst : s.GrownToHost t) (htu : t.GrownToHost u) : s.GrownToHost u := by
  obtain ⟨l, rfl⟩ := hst
  obtain ⟨l', rfl⟩ := htu
  refine ⟨l ++ l', ?_⟩
  simp only [State.onHost, List.append_assoc]

theorem GrownToHost.refl : s.GrownToHost s := ⟨[], by simp [State.onHost]⟩

theorem resendHead_grown (ch : Nat) : s.GrownToHost (s.resendHead ch) := by
  unfold State.resendHead
  split
  · exact GrownToHost.refl
  · split
    · exact ⟨_, rfl⟩
    · exact GrownToHost.refl

theorem each_resendHead_grown (l : List Nat) : s.GrownToHost (s.each l State.resendHead) := by
  induction l generalizing s with
  | nil => exact GrownToHost.refl
  | cons a l ih => exact GrownToHost.trans (resendHead_grown a) ih

theorem mem_of_grown {t : State} {x : RimMsg} (hgrown : s.GrownToHost t) (hx : x ∈ s.host.toHost) : x ∈ t.host.toHost := by
  obtain ⟨l, rfl⟩ := hgrown
  exact List.mem_append_left l hx

theorem channel_of_grown {t : State} (hgrown : s.GrownToHost t) (k : Nat) : t.channel k = s.channel k ∧ t.binding k = s.binding k := by
  obtain ⟨l, rfl⟩ := hgrown
  exact ⟨rfl, rfl⟩

theorem resendHead_mem (hch : s.channel ch = m :: l) (hbound : ∃ b, s.binding ch = some b ∧ b.2 = idHost) :
    ∃ x ∈ (s.resendHead ch).host.toHost, x.type = rtMbxPut ∧ x.channel = ch ∧ x.len = m.len ∧ x.payload = m.words := by
  obtain ⟨b, hb, hhost⟩ := hbound
  have hresend : s.resendHead ch = s.toHost (m.toRim ch) := by
    unfold State.resendHead
    simp only [hch]
    exact if_pos (by simp [hb, hhost])
  rw [hresend]
  exact ⟨_, List.mem_append_right _ (List.mem_singleton_self _), rfl, rfl, rfl, rfl⟩

/-- Each channel bound to the host has its head message on the way again. -/
theorem each_resendHead_mem {chs : List Nat} (hmem : ch ∈ chs) (hch : s.channel ch = m :: l)
    (hbound : ∃ b, s.binding ch = some b ∧ b.2 = idHost) :
    ∃ x ∈ (s.each chs State.resendHead).host.toHost, x.type = rtMbxPut ∧ x.channel = ch ∧ x.len = m.len ∧ x.payload = m.words := by
  induction chs generalizing s with
  | nil => exact absurd hmem (List.not_mem_nil)
  | cons a chs ih =>
    rw [each_cons]
    by_cases hach : ch = a
    · subst hach
      obtain ⟨x, hx, hfacts⟩ := resendHead_mem hch hbound
      exact ⟨x, mem_of_grown (each_resendHead_grown chs) hx, hfacts⟩
    · obtain ⟨hch', hbound'⟩ := channel_of_grown (resendHead_grown (s := s) a) ch
      exact ih ((List.mem_cons.mp hmem).resolve_left hach) (hch'.trans hch) (by rw [hbound']; exact hbound)

theorem exec_hostIslandResetRelease (hup : s.host.up = false) : exec .hostIslandResetRelease s =
    .next ((s.onHost (fun h => { h with up := true })).each (List.range 128) State.resendHead) := if_neg (by simp [hup])

theorem exec_hostIslandResetRelease_not (hup : s.host.up = true) : exec .hostIslandResetRelease s = .next s := if_pos hup

end Island

/-! #### RESET_REQ (R446, R448, R563) -/

section Requests
variable {s : State} {tag n : Nat}

theorem exec_rimRetrain (hphase : 2 ≤ s.rimPhase) : exec (.rimRetrain tag) s =
    .next ((s.takeResetReq.resetAccepted 1 0).rimDark.onHost (fun h => { h with group0 := h.group0.retrain, group1 := h.group1.retrain })) :=
  if_neg (by simp [State.takesReset, hphase])

theorem exec_rimRetrain_dark (hphase : s.rimPhase < 2) : exec (.rimRetrain tag) s = .next s :=
  if_pos (by simp [State.takesReset, hphase])

theorem exec_deviceWarm_dark (hphase : s.rimPhase < 2) : exec (.deviceWarm tag n) s = .next s :=
  if_pos (by simp [State.takesReset, hphase])

theorem exec_deviceCold_dark (hphase : s.rimPhase < 2) : exec (.deviceCold tag n) s = .next s :=
  if_pos (by simp [State.takesReset, hphase])

theorem exec_deviceWarm_confirm (hphase : 2 ≤ s.rimPhase) (hn : n ≠ 0x52535431) :
    exec (.deviceWarm tag n) s = .next (s.takeResetReq.nak rtResetReq tag .perm) :=
  (if_neg (by simp [State.takesReset, hphase])).trans (if_pos hn)

theorem exec_deviceCold_confirm (hphase : 2 ≤ s.rimPhase) (hn : n ≠ 0x52535431) :
    exec (.deviceCold tag n) s = .next (s.takeResetReq.nak rtResetReq tag .perm) :=
  (if_neg (by simp [State.takesReset, hphase])).trans (if_pos hn)

/-- Taking the request off the rim leaves everything but what is under way. -/
theorem takeResetReq_keeps {β : Type} (π : State → β) (hhost : ∀ (u : State) l, π (u.onHost (fun h => { h with toFabric := l })) = π u) :
    π s.takeResetReq = π s := by
  obtain ⟨l, hl⟩ := pullToFabric_eq s (fun m => m.type = rtResetReq)
  unfold State.takeResetReq
  rw [hl]
  exact hhost s l

theorem takeResetReq_rst : s.takeResetReq.rst = s.rst := takeResetReq_keeps (fun u => u.rst) (fun _ _ => rfl)

theorem takeResetReq_now : s.takeResetReq.now = s.now := takeResetReq_keeps (fun u => u.now) (fun _ _ => rfl)

theorem takeResetReq_leaseHeld : s.takeResetReq.leaseHeld = s.leaseHeld := takeResetReq_keeps (fun u => u.leaseHeld) (fun _ _ => rfl)

theorem takeResetReq_updateBusy : s.takeResetReq.updateBusy = s.updateBusy := takeResetReq_keeps (fun u => u.updateBusy) (fun _ _ => rfl)

theorem takeResetReq_keepWriting : s.takeResetReq.keepWriting = s.keepWriting := takeResetReq_keeps (fun u => u.keepWriting) (fun _ _ => rfl)

/-- A confirmed warm reset in SERVICE is accepted for the next boundary, or refused while something is open (R560, R563). -/
theorem exec_deviceWarm (hphase : 2 ≤ s.rimPhase) (hmode : s.rst.mode = .service) : exec (.deviceWarm tag 0x52535431) s =
    if !s.leaseHeld || s.updateBusy || s.rst.warm.isSome || s.rst.due.isSome then .next (s.takeResetReq.nak rtResetReq tag .busyRetry)
    else .next ((s.takeResetReq.event evResetAccepted 2 (s.now + 1)).onRst (fun r => { r with due := some (2, s.now + 1) })) := by
  rw [← takeResetReq_leaseHeld, ← takeResetReq_updateBusy, ← takeResetReq_rst, ← takeResetReq_now]
  refine (if_neg (by simp [State.takesReset, hphase])).trans ((if_neg (by simp [resetConfirm])).trans (if_neg ?_))
  simp [takeResetReq_rst, hmode]

/-- A confirmed cold reset with the counter running is due at the next boundary (R563). -/
theorem exec_deviceCold (hphase : 2 ≤ s.rimPhase) (hkeep : s.keepWriting = false) (hrun : 3 ≤ s.rst.phase) :
    exec (.deviceCold tag 0x52535431) s =
      .next ((s.takeResetReq.event evResetAccepted 3 (s.now + 1)).onRst (fun r => { r with due := some (3, s.now + 1) })) := by
  rw [← takeResetReq_now]
  refine (if_neg (by simp [State.takesReset, hphase])).trans ((if_neg (by simp [resetConfirm])).trans ((if_neg ?_).trans ?_))
  · simp [takeResetReq_keepWriting, hkeep]
  · exact congrArg _ (if_neg (by rw [takeResetReq_rst]; exact Nat.not_lt.mpr hrun))

theorem exec_deviceCold_busy (hphase : 2 ≤ s.rimPhase) (hkeep : s.keepWriting = true) :
    exec (.deviceCold tag 0x52535431) s = .next (s.takeResetReq.nak rtResetReq tag .busyRetry) :=
  (if_neg (by simp [State.takesReset, hphase])).trans ((if_neg (by simp [resetConfirm])).trans
    (if_pos (by rw [takeResetReq_keepWriting, hkeep])))

end Requests

/-- Settles O52: power, DEV_RESET_N, the reset of the host-side die, and the three kinds of RESET_REQ. -/
theorem resets : Obligations.resets := by
  intro tag n s q
  refine ⟨fun hoff hstage => ⟨fun hheld => ?_, fun hheld => ?_⟩, exec_powerOn_not, fun hoff => ?_, fun hon => ?lose, fun hmode hstage => ?_,
    fun hmode => ?_, ⟨_, rfl, rfl, rfl, rfl, rfl, rfl, rfl, rfl, rfl, rfl, rfl, rfl, rfl, rfl⟩, fun hup => ?island,
    exec_hostIslandResetRelease_not, fun hphase => ⟨exec_rimRetrain hphase, fun hn => ⟨exec_deviceWarm_confirm hphase hn,
      exec_deviceCold_confirm hphase hn⟩, fun hmode => ⟨fun hlease hbusy hwarm hdue => ?_, fun hopen => ?_⟩, exec_deviceCold hphase,
      exec_deviceCold_busy hphase⟩, fun hphase => ⟨exec_rimRetrain_dark hphase, exec_deviceWarm_dark hphase, exec_deviceCold_dark hphase⟩⟩
  · exact (exec_powerOn hoff hstage).trans (congrArg _ (powerBack_start hheld hstage))
  · exact (exec_powerOn hoff hstage).trans (congrArg _ (powerBack_held hheld))
  · rw [exec_devResetN_low, if_pos (by simp [hoff])]
  case lose =>
    obtain ⟨hrst, hfacts⟩ := loseFabric_facts (s := s)
    rw [exec_devResetN_low, if_neg (by simpa using hon)]
    have hmode : s.loseFabric.rst.mode = .reset := by
      rw [hrst]
      rfl
    have hphase : s.loseFabric.rst.phase = 0 := by
      rw [hrst]
      rfl
    have hretained : s.loseFabric.rst.retained = false := by
      rw [hrst]
      rfl
    exact ⟨_, rfl, hmode, hphase, rfl, hretained, hfacts⟩
  · exact exec_devResetN_high.trans (congrArg _ (release_start (s := s.onRst (fun r => { r with held := false })) hmode rfl hstage))
  · exact exec_devResetN_high.trans (congrArg _ (release_other (s := s.onRst (fun r => { r with held := false })) hmode))
  case island =>
    obtain ⟨l, hl⟩ := each_resendHead_grown (s := s.onHost (fun h => { h with up := true })) (List.range 128)
    refine ⟨_, exec_hostIslandResetRelease hup, by rw [hl]; rfl, by rw [hl]; rfl, by rw [hl]; rfl, fun ch h l hch hq hb => ?_⟩
    exact each_resendHead_mem (s := s.onHost (fun h => { h with up := true })) (List.mem_range.mpr hch) hq hb
  · exact (exec_deviceWarm hphase hmode).trans (if_neg (by simp [hlease, hbusy, hwarm, hdue]))
  · exact (exec_deviceWarm hphase hmode).trans (if_pos (by simpa [or_assoc, Option.isSome_iff_ne_none] using hopen))

end Sys2Proof.Machine

/-! ### The spine, keep stores, verification boots and checkpoints (R21, R341, R468, R498, R508 to R512, R515, R552) -/

namespace Sys2Proof.Machine

/-! #### The spine (R21, R508, R509) -/

section Spine
variable {s : State}

/-- A half's weave-to-weave link is lost between working dies (R21). -/
def State.halfCut (s : State) (h : Nat) : Bool := (s.die (2 * h)).ok && (s.die (2 * h + 1)).ok && decide (h ∈ s.auth.weaveLost)

theorem spinePath_eq : s.spinePath = ((s.auth.bridge0 && s.auth.bridge1) ||
    ((s.auth.bridge0 || s.auth.bridge1) && !s.halfCut 0 && !s.halfCut 1)) := rfl

theorem exec_spineLoss (hpath : s.spinePath = false) (hspine : s.spineGone = false) (hhand : s.auth.handover = none) :
    exec .spineLoss s = .next (s.onLease (1 - s.activeHalf) (fun l => { l with spineLost := true })) := by
  have hdrop : s.dropHandover .fenced = s := by simp only [State.dropHandover, hhand]
  refine (if_neg (by simp [hpath, hspine])).trans ?_
  rw [hdrop]

theorem exec_spineLoss_not (hnot : s.spinePath = true ∨ s.spineGone = true) : exec .spineLoss s = .next s :=
  if_pos (by simpa using hnot)

theorem spinePath_noBridge (h0 : s.auth.bridge0 = false) (h1 : s.auth.bridge1 = false) : s.spinePath = false := by
  simp [State.spinePath, h0, h1]

theorem spinePath_bridges (h0 : s.auth.bridge0 = true) (h1 : s.auth.bridge1 = true) : s.spinePath = true := by
  simp [State.spinePath, h0, h1]

/-- One bridge is a path as long as both halves' weave-to-weave links hold (R21). -/
theorem spinePath_oneBridge (hone : s.auth.bridge0 = true ∨ s.auth.bridge1 = true) (hlost : s.auth.weaveLost = []) : s.spinePath = true := by
  rcases hone with h | h <;> simp [State.spinePath, h, hlost]

/-- A bridge is no path for a half that has lost its weave-to-weave link (R21). -/
theorem spinePath_cut {h : HalfId} (hone : s.auth.bridge0 = false ∨ s.auth.bridge1 = false) (hlost : h.val ∈ s.auth.weaveLost)
    (heven : (s.die (2 * h.val)).ok = true) (hodd : (s.die (2 * h.val + 1)).ok = true) : s.spinePath = false := by
  have hboth : (s.auth.bridge0 && s.auth.bridge1) = false := by
    rcases hone with h | h <;> simp [h]
  have hcut : s.halfCut h.val = true := by simp [State.halfCut, heven, hodd, hlost]
  rw [spinePath_eq, hboth, Bool.false_or]
  obtain hk | hk : h.val = 0 ∨ h.val = 1 := by omega
  · simp [hk ▸ hcut]
  · simp [hk ▸ hcut]

theorem exec_spineReturn_not (hspine : s.spineGone = false) : exec .spineReturn s = .next s := if_pos (by simp [hspine])

theorem exec_spineReturn (hspine : s.spineGone = true) :
    let up := fun (d : Nat) => (s.die d).ok && (s.die d).failed.isNone
    let u := s.onAuth (fun a => { a with bridge0 := up 0 && up 2, bridge1 := up 1 && up 3 })
    exec .spineReturn s = .next (if u.spinePath then (u.recopy (1 - u.activeHalf)).onAuth (fun a => { a with copied := true }) else u) :=
  if_neg (by simp [hspine])

theorem journalCopy_recopy (h : Nat) : (s.recopy h).journalCopy h = s.journalCopy (1 - h) := by
  by_cases hh : h = 0
  · subst hh
    rfl
  · simp [State.recopy, State.onCopy, State.journalCopy, State.onCtl, hh]

/-- The copy is written again, which the stake notes (R509). -/
theorem recopied_facts (s : State) (h : Nat) : let t := (s.recopy h).onAuth (fun a => { a with copied := true })
    t.journalCopy h = s.journalCopy (1 - h) ∧ t.auth = { s.auth with copied := true } ∧ t = { s with auth := t.auth, ctl := t.ctl } :=
  ⟨journalCopy_recopy h, rfl, rfl⟩

theorem exec_spineRejoin (hspine : s.spineGone = true) (hcopied : s.auth.copied = true) : exec .spineRejoin s =
    .next ((s.onLeases (fun _ => { s.lease s.activeHalf with spineLost := false, fenced := false })).onAuth
      (fun a => { a with copied := false })).authority :=
  if_neg (by simp [hspine, hcopied])

theorem copied_lease (s : State) (b : Bool) (h : Nat) : ((s.onAuth (fun a => { a with copied := b })).authority).lease h = s.lease h := rfl

/-- The leases agree again, and the spine is there (R509). -/
theorem rejoined_facts (s : State) {l : Lease} (hl : l.spineLost = false) :
    let t := ((s.onLeases (fun _ => l)).onAuth (fun a => { a with copied := false })).authority
    (∀ h, t.lease h = l) ∧ t.spineGone = false ∧ t.auth.copied = false := by
  intro t
  have hlease : ∀ h, t.lease h = l := fun h => (copied_lease _ _ h).trans (lease_onLeases s h (fun _ => l))
  have h0 : t.auth.lease0 = l := hlease 0
  have h1 : t.auth.lease1 = l := hlease 1
  refine ⟨hlease, ?_, rfl⟩
  unfold State.spineGone
  rw [h0, h1, hl]
  rfl

theorem exec_spineRejoin_not (hnot : s.spineGone = false ∨ s.auth.copied = false) : exec .spineRejoin s = .next s :=
  if_pos (by simpa using hnot)

end Spine

/-! #### Keep stores and images (R467, R510 to R512) -/

section KeepStores
variable {s : State} {k : HalfId} {digest : List U64} {svn : Nat} {fs : Bool} {facts : ImageFacts}

theorem checkUpdate_idle (hidle : s.auth.updating = false) : s.checkUpdate = s := if_neg (by simp [hidle])

theorem onStake_congr {j : Nat} {f g : Stake → Stake} (h : f (s.stake j) = g (s.stake j)) : s.onStake j f = s.onStake j g := by
  unfold State.stake at h
  unfold State.onStake
  by_cases hj : j = 0
  · rw [if_pos hj] at h
    rw [if_pos hj, if_pos hj, h]
  · rw [if_neg hj] at h
    rw [if_neg hj, if_neg hj, h]

theorem onStake_updating (j : Nat) (f : Stake → Stake) : (s.onStake j f).auth.updating = s.auth.updating := by
  unfold State.onStake
  split <;> rfl

theorem onStake_stagedImage (j : Nat) (f : Stake → Stake) : (s.onStake j f).auth.stagedImage = s.auth.stagedImage := by
  unfold State.onStake
  split <;> rfl

/-- A keep store that has been read back is VALID (R510). -/
theorem exec_keepStoreWriteDone (hwriting : s.auth.writing = some (k.val, digest, svn, fs)) (hpaused : s.auth.keepPaused = false)
    (hstaged : s.auth.stagedImage = none) (hidle : s.auth.updating = false) : exec (.keepStoreWriteDone k true) s =
      .next ((s.onStake k.val (fun x => { x with keep := .valid, keepDigest := digest, keepSvn := svn })).onAuth
        (fun a => { a with writing := none })) := by
  generalize hu : (s.onStake k.val (fun x => { x with keep := .valid, keepDigest := digest, keepSvn := svn })).onAuth
    (fun a => { a with writing := none }) = u
  have hstaged' : u.auth.stagedImage = none := by
    rw [← hu]
    exact (onStake_stagedImage _ _).trans hstaged
  have hidle' : u.auth.updating = false := by
    rw [← hu]
    exact (onStake_updating _ _).trans hidle
  show execKeepStoreWriteDone k true s = _
  simp only [execKeepStoreWriteDone, hwriting]
  refine (if_neg (by simp [hpaused])).trans ?_
  rw [hu]
  simp only [hstaged', checkUpdate_idle hidle']

theorem exec_keepStoreWriteDone_not {b : Bool} (hwriting : s.auth.writing = some (k.val, digest, svn, fs))
    (hnot : s.auth.keepPaused = true ∨ b = false) : exec (.keepStoreWriteDone k b) s = .next s := by
  show execKeepStoreWriteDone k b s = _
  simp only [execKeepStoreWriteDone, hwriting]
  exact if_pos (by rcases hnot with h | h <;> simp [h])

theorem exec_keepStoreWriteDone_none {b : Bool} (hwriting : s.auth.writing = none) : exec (.keepStoreWriteDone k b) s = .next s := by
  show execKeepStoreWriteDone k b s = _
  simp only [execKeepStoreWriteDone, hwriting]

variable {b : Background}

theorem exec_fwStageTimeout (hfind : s.ctl.background.find? (fun b => b.op = 0xD9 && !b.done) = some b) : exec .fwStageTimeout s =
    if s.staged || s.now < b.started + 65536 then .next s else
    .next (((s.onAuth (fun a => { a with staging := none, stagedImage := none })).onCtl (fun c => { c with
      background := c.background.map (fun y => if y = b then { y with done := true } else y) })).settleCtl b.issuer b.req (.fail .timeout [])) := by
  show execFwStageTimeout s = _
  simp only [execFwStageTimeout, hfind]

theorem exec_verificationBootEnd_not (hst : (s.stake k.val).st ≠ .verifying) : exec (.verificationBootEnd k facts) s = .next s :=
  if_pos (by simpa using hst)

theorem exec_verificationBootEnd_bad (hst : (s.stake k.val).st = .verifying) (hbad : imageStatus (s.stake k.val) facts ≠ .ok) :
    exec (.verificationBootEnd k facts) s = .next (s.onStake k.val (fun x => { x with st := .failed, passDone := false })).authority :=
  (if_neg (by simp [hst])).trans (if_pos (by simpa using hbad))

/-- A stake that has verified an image is in reset again (R512). -/
theorem exec_verificationBootEnd (hst : (s.stake k.val).st = .verifying) (hgood : imageStatus (s.stake k.val) facts = .ok)
    (hidle : s.auth.updating = false) : exec (.verificationBootEnd k facts) s =
      .next (s.onStake k.val (fun x => { x with
        runDigest := facts.digest, runSvn := facts.svn, st := .standby, passDone := false, retest := false, passed := 0 })) := by
  refine (if_neg (by simp [hst])).trans ((if_neg (by simp [hgood])).trans ?_)
  show Host.Outcome.next (State.checkUpdate ((s.onStake _ _).onStake _ _)) = _
  rw [onStake_onStake, checkUpdate_idle ((onStake_updating _ _).trans hidle)]
  refine congrArg _ (onStake_congr ?_)
  exact if_neg (by simp [hst])

end KeepStores

/-! #### Checkpoints and the persistent area (R341, R468, R498, R552) -/

section Checkpoints
variable {s : State} {w : WeaverId} {n : Nat}

/-- The margins measured at a checkpoint, at the weavers that are active (R341). -/
def State.measured (s : State) (l : List (WeaverId × Nat)) : State :=
  s.each l (fun s m => if (s.weaver m.1.val).st == .active then s.onWeaver m.1.val (fun x => x.measure m.2) else s)

theorem exec_checkpoint (hlease : s.leaseHeld = true) (hround : s.now % 4096 = 0) (hfirst : s.checkpointed = false) (l : List (WeaverId × Nat)) :
    exec (.checkpoint l) s = .next (if l.isEmpty then (s.writeCheckpoint s.newCheckpoint).measured l
      else ((s.writeCheckpoint s.newCheckpoint).measured l).persistChange).raiseRollback :=
  if_neg (by simp [hlease, hround, hfirst])

theorem exec_checkpoint_not (hnot : s.now % 4096 ≠ 0 ∨ s.checkpointed = true ∨ s.leaseHeld = false) (l : List (WeaverId × Nat)) :
    exec (.checkpoint l) s = .next s := by
  refine if_pos ?_
  rcases hnot with h | h | h <;> simp [h]

theorem writeCheckpoint_keeps {β : Type} (π : State → β) (c : Checkpoint) (hctl : ∀ (u : State) f, π (u.onCtl f) = π u)
    (hhalf : ∀ (u : State) h f, π (u.onHalf h f) = π u) : π (s.writeCheckpoint c) = π s :=
  each_keeps π (fun _ _ => (hhalf _ _ _).trans (hctl _ _)) s _

theorem writeCheckpoint_auth (c : Checkpoint) : (s.writeCheckpoint c).auth = s.auth :=
  writeCheckpoint_keeps (fun u => u.auth) c (fun _ _ => rfl) onHalf_auth

theorem writeCheckpoint_weaver (c : Checkpoint) (k : Nat) : (s.writeCheckpoint c).weaver k = s.weaver k :=
  writeCheckpoint_keeps (fun u => u.weaver k) c (fun _ _ => rfl) (fun u h f => by
    unfold State.weaver
    rw [onHalf_weavers])

/-- With the spine there, a checkpoint goes to both copies (R498). -/
theorem writeCheckpoint_ctl (c : Checkpoint) (hspine : s.spineGone = false) : (s.writeCheckpoint c).ctl =
    { s.ctl with copy0 := s.ctl.copy0.putCheckpoint c, copy1 := s.ctl.copy1.putCheckpoint c } := by
  have hmeta : ∀ (u : State) (h n : Nat), (u.metaWrite h n).ctl = u.ctl := fun u h n => onHalf_ctl _ _ _
  unfold State.writeCheckpoint State.journalHalves
  rw [hspine]
  simp only [Bool.false_eq_true, if_false, State.each, List.foldl_cons, List.foldl_nil, hmeta]
  rfl

theorem putCheckpoint_even (x : JournalCopy) (c : Checkpoint) (hslot : c.round / 4096 % 2 = 0) :
    x.putCheckpoint c = { x with slot0 := some c } := if_pos hslot

theorem putCheckpoint_odd (x : JournalCopy) (c : Checkpoint) (hslot : c.round / 4096 % 2 ≠ 0) :
    x.putCheckpoint c = { x with slot1 := some c } := if_neg hslot

theorem raiseRollback_idle (hidle : s.auth.updateDone = false) : s.raiseRollback = s := if_pos (by simp [hidle])

/-- After an update that both stakes run, ROLLBACK rises to its SVN (R468). -/
theorem raiseRollback_rises (hdone : s.auth.updateDone = true) (hsame : s.auth.stake0.runSvn = s.auth.stake1.runSvn) :
    (∀ h, s.raiseRollback.stake h = { s.stake h with rollback := max (s.stake h).rollback s.auth.stake0.runSvn }) ∧
    s.raiseRollback.auth.updateDone = false ∧ s.raiseRollback.ctl = s.ctl := by
  have hrises : s.raiseRollback = ((s.onStake 0 (fun x => { x with rollback := max x.rollback s.auth.stake0.runSvn })).onStake 1
      (fun x => { x with rollback := max x.rollback s.auth.stake0.runSvn })).onAuth (fun a => { a with updateDone := false }) :=
    if_neg (by simp [hdone, hsame])
  rw [hrises]
  refine ⟨fun h => ?_, rfl, rfl⟩
  by_cases hh : h = 0
  · subst hh
    rfl
  · unfold State.stake
    rw [if_neg hh, if_neg hh]
    rfl

theorem measure_good (x : Weaver) (hn : 16 ≤ n) : x.measure n = { x with margin := n, low := false } := if_pos hn

theorem measure_low (x : Weaver) (hn : n < 16) (hlow : x.low = false) : x.measure n = { x with margin := n, low := true } :=
  (if_neg (Nat.not_le.mpr hn)).trans (if_pos (by simp [hlow]))

theorem measure_age (x : Weaver) (hn : n < 16) (hlow : x.low = true) (hage : x.age < x.fmax) :
    x.measure n = { x with margin := n, age := x.age + 1, low := false } :=
  (if_neg (Nat.not_le.mpr hn)).trans ((if_neg (by simp [hlow])).trans (if_neg (Nat.not_lt.mpr hage)))

theorem measure_out (x : Weaver) (hn : n < 16) (hlow : x.low = true) (hage : x.fmax ≤ x.age) :
    x.measure n = { x with margin := n, ageOut := true } :=
  (if_neg (Nat.not_le.mpr hn)).trans ((if_neg (by simp [hlow])).trans (if_pos (Nat.lt_succ_of_le hage)))

/-- A checkpoint without margins (R498). -/
theorem exec_checkpoint_plain (hlease : s.leaseHeld = true) (hround : s.now % 4096 = 0) (hfirst : s.checkpointed = false) :
    exec (.checkpoint []) s = .next (s.writeCheckpoint s.newCheckpoint).raiseRollback := exec_checkpoint hlease hround hfirst []

/-- A checkpoint with the margin of one active weaver (R341, R498). -/
theorem exec_checkpoint_margin (hlease : s.leaseHeld = true) (hround : s.now % 4096 = 0) (hfirst : s.checkpointed = false)
    (hidle : s.auth.updateDone = false) (hactive : (s.weaver w.val).st = .active) : exec (.checkpoint [(w, n)]) s =
      .next ((s.writeCheckpoint s.newCheckpoint).onWeaver w.val (fun x => x.measure n)).persistChange := by
  rw [exec_checkpoint hlease hround hfirst]
  have heach : (s.writeCheckpoint s.newCheckpoint).measured [(w, n)] = (s.writeCheckpoint s.newCheckpoint).onWeaver w.val (fun x => x.measure n) :=
    if_pos (by rw [writeCheckpoint_weaver, hactive]; rfl)
  rw [heach]
  exact congrArg _ (raiseRollback_idle (s := State.persistChange _)
    ((congrArg AuthSt.updateDone (writeCheckpoint_auth s.newCheckpoint)).trans hidle))

theorem exec_persistentAreaWrite (hlease : s.leaseHeld = true) (hpaused : s.auth.keepPaused = false) :
    exec .persistentAreaWrite s = .next (s.onRst (fun r => { r with persistDue := false })) := if_pos (by simp [hlease, hpaused])

theorem exec_persistentAreaWrite_not (hpaused : s.auth.keepPaused = true) : exec .persistentAreaWrite s = .next s :=
  if_neg (by simp [hpaused])

end Checkpoints

/-- Settles O48: the spine's loss, return and rejoin, keep stores, FW.STAGE's limit, verification boots and checkpoints. -/
theorem spineKeepStoresAndCheckpoints : Obligations.spine_keep_stores_and_checkpoints := by
  intro k facts w n s x
  refine ⟨fun h0 h1 => exec_spineLoss (spinePath_noBridge h0 h1),
    fun h hone hlost heven hodd => exec_spineLoss (spinePath_cut hone hlost heven hodd), fun hnot => ?_,
    fun hone hlost => exec_spineLoss_not (.inl (spinePath_oneBridge hone hlost)), fun hspine => ?back,
    fun hspine => ⟨exec_spineReturn_not hspine, exec_spineRejoin_not (.inl hspine)⟩,
    fun digest svn fs hwriting => ⟨exec_keepStoreWriteDone hwriting, fun hpaused b => exec_keepStoreWriteDone_not hwriting (.inl hpaused),
      exec_keepStoreWriteDone_not hwriting (.inr rfl)⟩, fun hwriting b => exec_keepStoreWriteDone_none hwriting,
    fun b hfind => ⟨fun hstaged hround => ?_, fun hnot => ?_⟩,
    fun hst => ⟨exec_verificationBootEnd hst, exec_verificationBootEnd_bad hst⟩, exec_verificationBootEnd_not,
    fun hlease hround hfirst => ?checkpoint, exec_checkpoint_not, exec_persistentAreaWrite, exec_persistentAreaWrite_not⟩
  · refine exec_spineLoss_not (hnot.imp_left ?_)
    rintro ⟨h0, h1⟩
    exact spinePath_bridges h0 h1
  case back =>
    intro up u
    have hexec := exec_spineReturn hspine
    refine ⟨fun hpath => ?_, fun hpath => hexec.trans (congrArg _ (if_neg ?_)), fun hcopied => ?_,
      fun hcopied => exec_spineRejoin_not (.inr hcopied)⟩
    · obtain ⟨hcopy, hauth, hrest⟩ := recopied_facts u (1 - s.activeHalf)
      exact ⟨_, hexec.trans (congrArg _ (if_pos hpath)), hcopy, hauth, hrest⟩
    · rw [hpath]
      exact Bool.false_ne_true
    · obtain ⟨hlease, hthere, hdone⟩ := rejoined_facts s (l := { s.lease s.activeHalf with spineLost := false, fenced := false }) rfl
      exact ⟨_, exec_spineRejoin hspine hcopied, hlease, hthere, hdone⟩
  · exact (exec_fwStageTimeout hfind).trans (if_neg (by simp [hstaged, hround]))
  · exact (exec_fwStageTimeout hfind).trans (if_pos (by simpa using hnot))
  case checkpoint =>
    intro u
    have hauth : u.auth = s.auth := writeCheckpoint_auth _
    refine ⟨fun hspine hslot => ?_, fun hspine hslot => ?_, fun hidle => ?_, fun hdone hsame => ?_, fun hidle hactive => ?_⟩
    · have hslot' : s.now / 4096 % 2 = 0 := by omega
      rw [writeCheckpoint_ctl _ hspine, putCheckpoint_even _ _ hslot', putCheckpoint_even _ _ hslot']
    · have hslot' : s.now / 4096 % 2 ≠ 0 := by omega
      rw [writeCheckpoint_ctl _ hspine, putCheckpoint_odd _ _ hslot', putCheckpoint_odd _ _ hslot']
    · refine (exec_checkpoint_plain hlease hround hfirst).trans (congrArg _ (raiseRollback_idle ?_))
      exact (congrArg AuthSt.updateDone hauth).trans hidle
    · obtain ⟨hstake, hundone, hctl⟩ := raiseRollback_rises (s := u) (by rw [hauth]; exact hdone) (by rw [hauth]; exact hsame)
      refine ⟨_, exec_checkpoint_plain hlease hround hfirst, fun h => ?_, hundone, hctl⟩
      have hsame' : u.stake h = s.stake h := by
        unfold State.stake
        rw [hauth]
      rw [hstake, hsame', hauth]
    · have hweaver : ((u.onWeaver w.val (fun x => x.measure n)).persistChange).weaver w.val = x.measure n := by
        show (u.onWeaver w.val (fun x => x.measure n)).weaver w.val = _
        rw [weaver_onWeaver_self, writeCheckpoint_weaver]
      refine ⟨_, exec_checkpoint_margin hlease hround hfirst hidle hactive, rfl, fun hn => hweaver.trans (measure_good x hn),
        fun hn hlow => hweaver.trans (measure_low x hn hlow), fun hn hlow hage => hweaver.trans (measure_age x hn hlow hage),
        fun hn hlow hage => hweaver.trans (measure_out x hn hlow hage)⟩

end Sys2Proof.Machine

/-! ### Supply, temperatures and operating points (R308, R339, R340, R513 to R517, R520 to R532, R577) -/

namespace Sys2Proof.Machine

/-! #### The fabric side loses its power (R516, R531) -/

section PowerLost
variable (s : State) (code d0 d1 : Nat)

theorem loseFabric_bus : s.loseFabric.power.bus = s.darkening.power.bus := rfl

/-- Off, with its first EVENT kept; fuses, keep stores and the bus's reading stay (R516). -/
theorem powerLost_facts : let t := s.powerLost code d0 d1
    t.rst.mode = .off ∧ t.rst.firstEvent = some { code := code, round := 0, d0 := d0, d1 := d1 } ∧ t.parts = [] ∧ t.extents = [] ∧
    t.mem = {} ∧ t.ctl = {} ∧ t.auth.stake0.keep = s.auth.stake0.keep ∧ t.auth.stake1.keep = s.auth.stake1.keep ∧ t.power.bus = s.power.bus := by
  obtain ⟨-, hparts, hextents, -, hmem, hctl, -, -, hkeep0, hkeep1, -⟩ := loseFabric_facts (s := s)
  have hpower := darkening_keeps (s := s) (fun u => u.power) (fun _ _ _ => rfl) (fun _ _ => rfl) onHalf_power (fun _ _ _ => rfl)
    (fun _ _ => rfl) (fun _ _ _ _ => rfl)
  exact ⟨rfl, rfl, hparts, hextents, hmem, hctl, hkeep0, hkeep1, (loseFabric_bus s).trans (congrArg PowerSt.bus hpower)⟩

end PowerLost

/-! #### The supply (R513 to R517, R525, R529, R532) -/

section Supply
variable {s : State} {v : Nat}

theorem exec_feedLost_A (hfeed : s.power.feedA = true) : exec (.feedLost false) s =
    .next ((s.onPower (fun x => ({ x with feedA := false } : PowerSt).begin condSingle)).event evSupply 3 0) := if_neg (by simp [hfeed])

theorem exec_feedLost_B (hfeed : s.power.feedB = true) : exec (.feedLost true) s =
    .next ((s.onPower (fun x => ({ x with feedB := false } : PowerSt).begin condSingle)).event evSupply 3 1) := if_neg (by simp [hfeed])

theorem exec_feedLost_not (hfeed : s.power.feedA = false) : exec (.feedLost false) s = .next s := if_pos (by simp [hfeed])

theorem onPower_congr {f g : PowerSt → PowerSt} (h : f s.power = g s.power) : s.onPower f = s.onPower g := by
  unfold State.onPower
  rw [h]

theorem exec_feedRestored_A (hfeed : s.power.feedA = false) : exec (.feedRestored false) s =
    .next ((s.onPower (fun x => if x.feedB then ({ x with feedA := true } : PowerSt).clearCond condSingle else { x with feedA := true })).event
      evSupply 4 0) := if_neg (by simp [hfeed])

theorem exec_feedRestored_B (hfeed : s.power.feedB = false) (hother : s.power.feedA = true) : exec (.feedRestored true) s =
    .next ((s.onPower (fun x => ({ x with feedB := true } : PowerSt).clearCond condSingle)).event evSupply 4 1) := by
  refine (if_neg (by simp [hfeed])).trans (congrArg (fun u : State => Host.Outcome.next (u.event evSupply 4 1)) (onPower_congr ?_))
  exact if_pos (by simp [hother])

theorem exec_feedRestored_not (hfeed : s.power.feedB = true) : exec (.feedRestored true) s = .next s := if_pos hfeed

/-- A sag pauses the keep stores and flushes metadata (R515). -/
theorem exec_sagWarn (hlow : v < 5 * s.power.sagWarn) (hnew : s.power.holds condSag = false) : exec (.sagWarn v) s =
    .next ((((((s.onPower (fun x => { x with bus := v })).onPower (fun x => x.setCond condSag)).onAuth (fun a => { a with keepPaused := true })).flushMeta
      0).flushMeta 1).event evSupply 1 v) := by
  refine if_neg ?_
  show ¬ (decide (5 * s.power.sagWarn ≤ v) || s.power.holds condSag) = true
  simp [hlow, hnew]

theorem exec_sagWarn_not (hnot : 5 * s.power.sagWarn ≤ v ∨ s.power.holds condSag = true) :
    exec (.sagWarn v) s = .next (s.onPower (fun x => { x with bus := v })) := by
  refine if_pos ?_
  show (decide (5 * s.power.sagWarn ≤ v) || s.power.holds condSag) = true
  simpa using hnot

theorem exec_sagClear (hhigh : 5 * s.power.sagWarn + 10 ≤ v) (hheld : s.power.holds condSag = true) : exec (.sagClear v) s =
    .next ((((s.onPower (fun x => { x with bus := v })).onPower (fun x => x.clearCond condSag)).onAuth
      (fun a => { a with keepPaused := false })).event evSupply 2 v) := by
  refine if_neg ?_
  show ¬ (decide (v < 5 * s.power.sagWarn + 10) || !s.power.holds condSag) = true
  simp [hhigh, hheld]

theorem exec_sagClear_not (hnot : v < 5 * s.power.sagWarn + 10 ∨ s.power.holds condSag = false) :
    exec (.sagClear v) s = .next (s.onPower (fun x => { x with bus := v })) := by
  refine if_pos ?_
  show (decide (v < 5 * s.power.sagWarn + 10) || !s.power.holds condSag) = true
  simpa using hnot

theorem flushMeta_eq (h : Nat) : s.flushMeta h =
    s.onHalf h (fun x => if x.refresh = .asleep ∧ x.metaBuf ≠ 0 then { x with refresh := .flushing, metaBuf := 0 } else x) := by
  unfold State.flushMeta
  simp only [Bool.and_eq_true, beq_iff_eq, decide_eq_true_eq]

theorem exec_undervoltReset (hlow : v < 380) :
    exec (.undervoltReset v) s = .next ((s.onPower (fun x => { x with bus := v })).powerLost evSupply 5 v) := if_neg (Nat.not_le.mpr hlow)

theorem exec_undervoltReset_not (hhigh : 380 ≤ v) : exec (.undervoltReset v) s = .next (s.onPower (fun x => { x with bus := v })) := if_pos hhigh

theorem exec_overvolt (hhigh : 610 < v) (hnew : s.power.holds condOvervolt = false) : exec (.overvolt v) s =
    .next (((s.onPower (fun x => { x with bus := v })).onPower (fun x => x.setCond condOvervolt)).event evSupply 7 v) := by
  refine if_neg ?_
  show ¬ (decide (v ≤ 610) || s.power.holds condOvervolt) = true
  simp [hhigh, hnew]

theorem exec_overvolt_not (hlow : v ≤ 610) : exec (.overvolt v) s = .next (s.onPower (fun x => { x with bus := v })) :=
  if_pos (by simp [hlow])

theorem exec_overvoltClear (hlow : v ≤ 610) : exec (.overvoltClear v) s =
    .next ((s.onPower (fun x => { x with bus := v })).onPower (fun x => x.clearCond condOvervolt)) := if_neg (Nat.not_lt.mpr hlow)

theorem exec_overvoltClear_not (hhigh : 610 < v) : exec (.overvoltClear v) s = .next (s.onPower (fun x => { x with bus := v })) := if_pos hhigh

theorem exec_capHeldOver (hlong : 64 ≤ s.power.overRounds) (hnew : s.power.holds condHeldOver = false) : exec .capHeldOver s =
    .next ((s.onPower (fun x => x.setCond condHeldOver)).event evSupply 6 s.power.eff) := if_neg (by simp [hlong, hnew])

theorem exec_capHeldOver_not (hnot : s.power.overRounds < 64 ∨ s.power.holds condHeldOver = true) : exec .capHeldOver s = .next s :=
  if_pos (by simpa using hnot)

theorem exec_groupFallback (hlearned : s.power.learned = true) (hgroup : s.power.group ≠ 0) (hlong : 16 ≤ s.power.allotAge)
    (hnew : s.power.holds condFallback = false) : exec .groupFallback s =
      .next ((s.onPower (fun x => x.setCond condFallback)).event evSupply 8 s.power.group) :=
  if_neg (by simp [hlearned, hgroup, hlong, hnew])

theorem exec_groupFallback_not (hnot : s.power.learned = false ∨ s.power.group = 0 ∨ s.power.allotAge < 16) :
    exec .groupFallback s = .next s := by
  refine if_pos ?_
  rcases hnot with h | h | h <;> simp [h]

end Supply

/-- Settles O49: feeds, sags, undervoltage, overvoltage, and the conditions of the cap and the power group. -/
theorem supplyConditions : Obligations.supply_conditions := by
  intro b v s u x flush
  refine ⟨exec_feedLost_A, exec_feedLost_B, exec_feedLost_not, fun hA hB => ?_, fun hA hB => ?_, exec_feedRestored_B, exec_feedRestored_not,
    fun hlow hnew => ?_, exec_sagWarn_not, exec_sagClear, exec_sagClear_not, fun hlow => ?_, exec_undervoltReset_not, exec_overvolt,
    fun hlow => ⟨exec_overvolt_not hlow, exec_overvoltClear hlow⟩, exec_overvoltClear_not, exec_capHeldOver, exec_capHeldOver_not,
    exec_groupFallback, exec_groupFallback_not⟩
  · refine (exec_feedRestored_A hA).trans (congrArg (fun u : State => Host.Outcome.next (u.event evSupply 4 0)) (onPower_congr (if_pos hB)))
  · refine (exec_feedRestored_A hA).trans (congrArg (fun u : State => Host.Outcome.next (u.event evSupply 4 0)) (onPower_congr (if_neg ?_)))
    exact Bool.eq_false_iff.mp hB
  · rw [exec_sagWarn hlow hnew, flushMeta_eq, flushMeta_eq]
  · obtain ⟨hmode, hevent, hparts, hextents, hmem, hctl, hkeep0, hkeep1, hbus⟩ := powerLost_facts u evSupply 5 v
    exact ⟨_, exec_undervoltReset hlow, hmode, hparts, hextents, hmem, hctl, hevent, hkeep0, hkeep1, hbus⟩

/-! #### Temperatures (R530 to R532, R577) -/

section Thermal
variable {s : State} {n v : Nat}

theorem throttleAt_eq (n : Nat) : throttleAt n = if 8 ≤ n % 32 then 95 else 105 := by
  simp only [throttleAt, sensorInStack, decide_eq_true_eq]

theorem tripAt_eq (n : Nat) : tripAt n = throttleAt n + 10 := by
  unfold tripAt throttleAt
  split <;> rfl

theorem exec_throttle_below (hcold : v < throttleAt n) : exec (.throttle n v) s = .next (s.onPower (fun x => x.read n v)) := if_pos hcold

theorem exec_throttle (hhot : throttleAt n ≤ v) : exec (.throttle n v) s =
    .next (if decide (throttleAt n ≤ s.power.sensors.look 0 n) then (s.onPower (fun x => x.read n v)).onPower (fun x => x.begin condThrottle)
      else ((s.onPower (fun x => x.read n v)).onPower (fun x => x.begin condThrottle)).event evThermal 1 n) := if_neg (Nat.not_lt.mpr hhot)

theorem exec_throttleClear (hcool : (s.power.read n v).hot = false) (hheld : s.power.holds condThrottle = true) : exec (.throttleClear n v) s =
    .next (((s.onPower (fun x => x.read n v)).onPower (fun x => x.clearCond condThrottle)).event evThermal 2 n) := by
  refine if_neg ?_
  show ¬ ((s.power.read n v).hot || !s.power.holds condThrottle) = true
  simp [hcool, hheld]

theorem exec_throttleClear_not (hnot : (s.power.read n v).hot = true ∨ s.power.holds condThrottle = false) :
    exec (.throttleClear n v) s = .next (s.onPower (fun x => x.read n v)) := by
  refine if_pos ?_
  show ((s.power.read n v).hot || !s.power.holds condThrottle) = true
  simpa using hnot

theorem exec_trip (hhot : throttleAt n + 10 ≤ v) : exec (.trip n v) s =
    .next ((s.powerLost evThermal 4 n).onRst (fun r => { r with stageOff := true, thermtrip := true })) :=
  if_neg (by rw [tripAt_eq]; exact Nat.not_lt.mpr hhot)

theorem exec_trip_below (hcold : v < throttleAt n + 10) : exec (.trip n v) s = .next (s.onPower (fun x => x.read n v)) :=
  if_pos (by rw [tripAt_eq]; exact hcold)

theorem exec_tripCooldownEnd (hoff : s.rst.stageOff = true) : exec .tripCooldownEnd s =
    .next ((s.onRst (fun r => { r with stageOff := false, thermtrip := false })).onPower (fun x => { x with sensors := [] })).powerBack :=
  if_neg (by simp [hoff])

theorem exec_tripCooldownEnd_not (hoff : s.rst.stageOff = false) : exec .tripCooldownEnd s = .next s := if_pos (by simp [hoff])

end Thermal

/-! #### Operating points (R339, R340, R520 to R523) -/

section Points
variable {s : State} {x : PowerSt} {w : Weaver} {g : Nat}

/-- The power controller at the end of an interval of 64 rounds: its ceiling has moved, and the interval's figures start again (R521). -/
def PowerSt.nextInterval (x : PowerSt) : PowerSt := { x.nextCeiling with dutySum := 0, dutyRounds := 0, allFull := true, peak := 0 }

/-- Every weaver has its clock for the next interval, and the power record is written (R517, R523). -/
def State.retuned (s : State) : State :=
  ((s.onWeavers (fun w x => x.retune s.power (s.clockTarget w))).onPower (fun x => { x with record := x.words })).dropUnfit

theorem retuned_onPower (y : PowerSt) : (s.onPower (fun _ => y)).retuned =
    (((s.onPower (fun _ => y)).onWeavers (fun w z => z.retune y (s.clockTarget w))).onPower (fun z => { z with record := y.words })).dropUnfit :=
  congrArg State.dropUnfit (onPower_congr rfl)

theorem exec_operatingPointChange_eq (hround : s.now % 64 = 0) (hrounds : s.power.dutyRounds ≠ 0) : exec .operatingPointChange s =
    .next ((s.onPower (fun _ => s.power.nextInterval)).each
      ((List.filter (fun (e : Nat × Weaver) => e.2.ageOut) s.weavers).map (·.1)) (fun s w => s.fenceWeaver w 6)).retuned :=
  if_neg (by simp [hround, hrounds])

/-- With no weaver that ages out, an interval's end moves the ceiling and every clock (R521, R523). -/
theorem exec_operatingPointChange (hround : s.now % 64 = 0) (hrounds : s.power.dutyRounds ≠ 0)
    (hyoung : List.all s.weavers (fun (e : Nat × Weaver) => !e.2.ageOut) = true) : exec .operatingPointChange s =
      .next (((s.onPower (fun _ => s.power.nextInterval)).onWeavers (fun w z => z.retune s.power.nextInterval (s.clockTarget w))).onPower
        (fun z => { z with record := s.power.nextInterval.words })).dropUnfit := by
  have hnone : List.filter (fun (e : Nat × Weaver) => e.2.ageOut) s.weavers = [] := by
    rw [List.filter_eq_nil_iff]
    intro e he
    simpa using List.all_eq_true.mp hyoung e he
  rw [exec_operatingPointChange_eq hround hrounds, hnone, List.map_nil, each_nil, retuned_onPower]

theorem exec_operatingPointChange_not (hnot : s.now % 64 ≠ 0 ∨ s.power.dutyRounds = 0) : exec .operatingPointChange s = .next s :=
  if_pos (by simpa using hnot)

theorem nextCeiling_fixed (hfixed : x.fixed = true) : x.nextCeiling = { x with ceiling := 7, boost := 0 } := if_pos hfixed

theorem nextCeiling_free (hfixed : x.fixed = false) (hboost : x.boostEn = true) : x.nextCeiling =
    if x.dutySum < 12 * x.dutyRounds then
      (if 0 < x.boost then { x with boost := x.boost - 1 } else { x with ceiling := x.ceiling - 1 })
    else if x.allFull && decide (x.peak * 100 ≤ x.eff * 95) then
      if x.ceiling < 7 then { x with ceiling := x.ceiling + 1 }
      else if x.boost < 14 then { x with boost := x.boost + 1 }
      else x
    else x := by
  unfold PowerSt.nextCeiling
  rw [if_neg (by simp [hfixed])]
  simp only [hboost, if_true, Bool.true_and, decide_eq_true_eq]

theorem retune_mhz : (w.retune x g).mhz = if x.fixed then 1700 else if g < 15 then opClock (min g x.ceiling)
    else if x.ceiling < 7 then opClock x.ceiling else min (1700 + 25 * x.boost) (1700 + 25 * (w.fmax - w.age)) := rfl

end Points

/-- Settles O50: throttling and trips, and the ceiling and the weavers' clocks at the end of an interval. -/
theorem temperaturesAndOperatingPoints : Obligations.temperatures_and_operating_points := by
  intro n v s x u th
  have hth : throttleAt n = th := throttleAt_eq n
  refine ⟨fun hcold => exec_throttle_below (hth ▸ hcold), fun hhot hwas => ?_, fun hhot hwas => ?_, exec_throttleClear, exec_throttleClear_not,
    fun hhot => ?trip, fun hcold => exec_trip_below (by rw [hth]; exact hcold), fun hoff => ?cooldown, exec_tripCooldownEnd_not,
    exec_operatingPointChange, exec_operatingPointChange_not, nextCeiling_fixed, fun hfixed hboost hlow => ?_,
    fun hfixed hboost hhigh hfull hpeak => ?_, fun w g => ⟨rfl, fun hfixed => ?_, fun hfixed hg => ?_, fun hfixed hg hc => ?_,
      fun hfixed hg hc => ?_⟩⟩
  · exact (exec_throttle (by rw [hth]; exact hhot)).trans (congrArg _ (if_neg (by rw [hth]; simpa using hwas)))
  · exact (exec_throttle (by rw [hth]; exact hhot)).trans (congrArg _ (if_pos (by rw [hth]; simpa using hwas)))
  case trip =>
    obtain ⟨hmode, hevent, hparts, hextents, hmem, -⟩ := powerLost_facts s evThermal 4 n
    have hexec : exec (.trip n v) s = _ := exec_trip (by rw [hth]; exact hhot)
    generalize s.powerLost evThermal 4 n = t at hexec hmode hevent hparts hextents hmem
    exact ⟨_, hexec, hmode, rfl, rfl, hparts, hextents, hmem, hevent⟩
  case cooldown =>
    have hexec := exec_tripCooldownEnd hoff
    generalize hc : (s.onRst (fun r => { r with stageOff := false, thermtrip := false })).onPower (fun x => { x with sensors := [] }) = c at hexec
    have hstage : c.rst.stageOff = false := by
      rw [← hc]
      rfl
    have hheldEq : c.rst.held = s.rst.held := by
      rw [← hc]
      rfl
    cases hheld : s.rst.held
    · rw [powerBack_start (hheldEq.trans hheld) hstage] at hexec
      exact ⟨_, hexec, hstage, by rw [← hc]; rfl, by rw [← hc]; rfl, fun _ => ⟨rfl, rfl⟩, fun h => absurd h Bool.false_ne_true⟩
    · rw [powerBack_held (hheldEq.trans hheld)] at hexec
      exact ⟨_, hexec, hstage, by rw [← hc]; rfl, by rw [← hc]; rfl, fun h => absurd h.symm Bool.false_ne_true, fun _ => rfl⟩
  · rw [nextCeiling_free hfixed hboost, if_pos hlow]
  · rw [nextCeiling_free hfixed hboost, if_neg (Nat.not_lt.mpr hhigh), if_pos (by simp [hfull, hpeak])]
  · rw [retune_mhz, if_pos hfixed]
  · rw [retune_mhz, if_neg (by simp [hfixed]), if_pos hg]
  · rw [retune_mhz, if_neg (by simp [hfixed]), if_neg (Nat.not_lt.mpr hg), if_pos hc]
  · rw [retune_mhz, if_neg (by simp [hfixed]), if_neg (Nat.not_lt.mpr hg), if_neg (Nat.not_lt.mpr hc)]

end Sys2Proof.Machine

/-! ### Sample records, snapshot records and the debug path -/

namespace Sys2Proof.Machine

/-! #### The records of tagged instructions -/

section Sample

variable {s : State} {w : WeaverId} {m : SampleTimes} {k : Tagged}

/-- The state in which the weaver has no tagged instruction left. -/
def State.untag (s : State) (w : Nat) : State := s.onWeaver w fun x => { x with tagged := none }

theorem exec_sampleRecordWrite (h : (s.weaver w.val).tagged = some k) :
    exec (.sampleRecordWrite w m) s = .next (
      let t := if k.owner then (s.untag w.val).ownerSample w.val k m else s.untag w.val
      if k.oper then t.operSample w.val k m else t) := by
  show execSampleRecordWrite w m s = _
  unfold execSampleRecordWrite
  rw [h]
  rfl

theorem exec_sampleRecordWrite_none (h : (s.weaver w.val).tagged = none) : exec (.sampleRecordWrite w m) s = .next s := by
  show execSampleRecordWrite w m s = _
  unfold execSampleRecordWrite
  rw [h]

variable {n : Nat}

theorem ownerSample_unsampled (h : (s.part k.part).sampler = none) : s.ownerSample n k m = s.countOf k.part 26 1 := by
  unfold State.ownerSample
  dsimp only
  rw [h]

variable {r : Nat × Nat × Nat}

theorem ownerSample_lost (h : (s.part k.part).sampler = some r)
    (hwrite : s.writePva k.part (r.2.1 + 64 * ((s.part k.part).sampleSeq % 2 ^ r.2.2))
      (wordBytes (sampleWord0 (s.part k.part).sampleSeq k.part n :: sampleWords k k.round m ++ [0, 0, 0])) = none) :
    s.ownerSample n k m = s.countOf k.part 26 1 := by
  unfold State.ownerSample
  dsimp only
  rw [h]
  dsimp only [List.singleton_append]
  rw [hwrite]

theorem ownerSample_written {t : State} (h : (s.part k.part).sampler = some r)
    (hwrite : s.writePva k.part (r.2.1 + 64 * ((s.part k.part).sampleSeq % 2 ^ r.2.2))
      (wordBytes (sampleWord0 (s.part k.part).sampleSeq k.part n :: sampleWords k k.round m ++ [0, 0, 0])) = some t) :
    s.ownerSample n k m = (t.onPart k.part fun x => { x with sampleSeq := (x.sampleSeq + 1) % 2 ^ 32 }).countOf k.part 25 1 := by
  unfold State.ownerSample
  dsimp only
  rw [h]
  dsimp only [List.singleton_append]
  rw [hwrite]

end Sample

/-! #### The records of a snapshot boundary -/

section Snapshot

variable {s : State} {b p : Nat}

/-- Every record of the boundary that an owner named is written. -/
def State.writeSnaps (s : State) (b : Nat) : State :=
  s.each ((s.parts.filter fun e => decide (b ∈ e.2.snaps)).map (·.1)) fun t p => t.writeSnap p b s.spineGone

theorem putSnap_aside {at_ : Nat} {ws : List U64} {t : State} (h : s.putSnap p at_ ws = some t) : t.aside = s.aside := by
  unfold State.putSnap at h
  split at h
  · cases h
  · next u hfirst => exact (writePva_aside _ _ _ _ h).trans (writePva_aside _ _ _ _ hfirst)

/-- Writing a partition's record leaves the operator's snapshots. -/
theorem writeSnap_aside : (s.writeSnap p b false).aside = s.aside := by
  unfold State.writeSnap
  dsimp only
  rw [if_neg Bool.false_ne_true, if_neg Bool.false_ne_true]
  split
  · exact countOf_aside _ _ _ _
  · split
    · exact countOf_aside _ _ _ _
    · next t h => exact (putSnap_aside h :)

theorem exec_snapshotRecordWrite_early (h : s.now < b + 2) : exec (.snapshotRecordWrite b) s = .next s := if_pos h

theorem exec_snapshotRecordWrite (h : b + 2 ≤ s.now) :
    exec (.snapshotRecordWrite b) s =
      .next (if b ∈ (s.writeSnaps b).cnt.snaps then (s.writeSnaps b).keepSnap b s.spineGone else s.writeSnaps b) :=
  if_neg (Nat.not_lt.mpr h)

/-- No owner named the boundary, the operator did. -/
theorem exec_snapshotRecordWrite_oper (hround : b + 2 ≤ s.now) (hspine : s.spineGone = false) (hoper : b ∈ s.cnt.snaps)
    (hnone : s.parts.filter (fun e => decide (b ∈ e.2.snaps)) = []) :
    exec (.snapshotRecordWrite b) s = .next (s.keepSnap b false) := by
  rw [exec_snapshotRecordWrite hround, State.writeSnaps, hnone, hspine]
  exact congrArg _ (if_pos hoper)

/-- One owner alone named the boundary. -/
theorem exec_snapshotRecordWrite_owner {y : Partition} (hround : b + 2 ≤ s.now) (hspine : s.spineGone = false) (hoper : b ∉ s.cnt.snaps)
    (hone : s.parts.filter (fun e => decide (b ∈ e.2.snaps)) = [(p, y)]) :
    exec (.snapshotRecordWrite b) s = .next (s.writeSnap p b false) := by
  rw [exec_snapshotRecordWrite hround, State.writeSnaps, hone, hspine]
  refine congrArg _ (if_neg (c := b ∈ (s.writeSnap p b false).cnt.snaps) ?_)
  rw [snaps_of_aside writeSnap_aside]
  exact hoper

/-- The state in which the partition's owner no longer names the boundary. -/
def State.unname (s : State) (p b : Nat) : State := s.onPart p fun x => { x with snaps := x.snaps.filter (· ≠ b) }

theorem writeSnap_unringed (h : (s.part p).snapRing = none) : s.writeSnap p b false = (s.unname p b).countOf p 27 1 := by
  unfold State.writeSnap
  dsimp only
  rw [h]
  rfl

theorem writeSnap_written {r : Nat × Nat} {t : State} (h : (s.part p).snapRing = some r)
    (hput : (s.unname p b).putSnap p (r.1 + 576 * ((s.part p).snapSeq % 2 ^ r.2)) (s.snapRecord p b false) = some t) :
    s.writeSnap p b false = t.onPart p fun x => { x with snapSeq := (x.snapSeq + 1) % 2 ^ 32 } := by
  unfold State.unname at hput
  unfold State.writeSnap
  dsimp only
  rw [h]
  dsimp only
  rw [if_neg Bool.false_ne_true, if_neg Bool.false_ne_true, hput]

end Snapshot

/-! #### Sorted sets, and a change to each of several partitions -/

theorem mem_setAdd {l : List Nat} {k x : Nat} : x ∈ setAdd l k ↔ x = k ∨ x ∈ l := by
  induction l with
  | nil => simp [setAdd]
  | cons a l ih =>
    unfold setAdd
    split
    · exact List.mem_cons
    · split
      · next h => subst h; simp
      · rw [List.mem_cons, ih, List.mem_cons]; tauto

theorem pairwise_setAdd {l : List Nat} {k : Nat} (h : l.Pairwise (· < ·)) : (setAdd l k).Pairwise (· < ·) := by
  induction l with
  | nil => exact List.pairwise_singleton _ _
  | cons a l ih =>
    obtain ⟨hfirst, hrest⟩ := List.pairwise_cons.mp h
    unfold setAdd
    split
    · next hlt => exact List.pairwise_cons.mpr ⟨fun x hx => (List.mem_cons.mp hx).elim (fun e => e ▸ hlt) fun hx => hlt.trans (hfirst x hx), h⟩
    · split
      · exact h
      · next hge hne =>
        refine List.pairwise_cons.mpr ⟨fun x hx => (mem_setAdd.mp hx).elim (fun e => ?_) (hfirst x), ih hrest⟩
        omega

/-- The numbers of a list that meet a condition, as a sorted set. -/
def setOf (c : Nat → Bool) (l : List Nat) : List Nat := l.foldl (fun l p => if c p then setAdd l p else l) []

theorem mem_foldl_setAdd {c : Nat → Bool} {l : List Nat} (acc : List Nat) {x : Nat} :
    x ∈ l.foldl (fun l p => if c p then setAdd l p else l) acc ↔ x ∈ acc ∨ (x ∈ l ∧ c x = true) := by
  induction l generalizing acc with
  | nil => simp
  | cons a l ih =>
    rw [List.foldl_cons, ih, List.mem_cons]
    split
    · next h => rw [mem_setAdd]; by_cases e : x = a <;> simp_all
    · next h => by_cases e : x = a <;> simp_all

theorem mem_setOf {c : Nat → Bool} {l : List Nat} {x : Nat} : x ∈ setOf c l ↔ x ∈ l ∧ c x = true := by
  simp [setOf, mem_foldl_setAdd]

theorem nodup_setOf (c : Nat → Bool) (l : List Nat) : (setOf c l).Nodup := by
  have hsorted : ∀ acc : List Nat, acc.Pairwise (· < ·) →
      (l.foldl (fun l p => if c p then setAdd l p else l) acc).Pairwise (· < ·) := by
    induction l with
    | nil => exact fun _ h => h
    | cons a l ih =>
      intro acc h
      refine ih _ ?_
      dsimp only
      split
      · exact pairwise_setAdd h
      · exact h
  exact (hsorted [] List.Pairwise.nil).imp Nat.ne_of_lt

/-- A change to each partition of a list without repetition changes those alone, once each. -/
theorem part_each_onPart {l : List Nat} (h : l.Nodup) (s : State) (f : Partition → Partition) (q : Nat) :
    (s.each l fun s p => s.onPart p f).part q = if q ∈ l then f (s.part q) else s.part q := by
  induction l generalizing s with
  | nil => rfl
  | cons a l ih =>
    obtain ⟨ha, hl⟩ := List.nodup_cons.mp h
    rw [each_cons, ih hl]
    by_cases e : q = a
    · subst e
      rw [if_neg ha, if_pos List.mem_cons_self, part_onPart_self]
    · rw [part_onPart_ne s f e]
      simp [e]

/-! #### The debug path -/

section Debug

variable {s : State}

/-- The partitions with DBG_CONSENT that a challenge reaches. -/
def State.debugReach (s : State) (reach : List PartId) : List Nat :=
  setOf (fun p => (s.part p).live && (s.part p).dbg) (reach.map (·.val))

theorem mem_debugReach {reach : List PartId} {q : PartId} :
    q.val ∈ s.debugReach reach ↔ q ∈ reach ∧ (s.part q.val).live = true ∧ (s.part q.val).dbg = true := by
  simp [State.debugReach, mem_setOf, Fin.val_inj]

/-- One more debug session of the partition. -/
def countSession (x : Partition) : Partition := { x with debugSessions := (x.debugSessions + 1) % 2 ^ 32 }

/-- The debug path is open to the partitions reached, and each has counted its session. -/
def State.unlocked (s : State) (reach : List PartId) : State :=
  (s.onAuth fun a => { a with unlocked := true, debugReach := s.debugReach reach }).each (s.debugReach reach) fun s p => s.onPart p countSession

theorem exec_debugUnlock (reach : List PartId) (h : s.leaseHeld = true) : exec (.debugUnlock true reach) s = .next (s.unlocked reach) :=
  if_neg (by simp [h])

theorem exec_debugUnlock_unsigned (reach : List PartId) : exec (.debugUnlock false reach) s = .next s := rfl

theorem unlocked_open (reach : List PartId) : (s.unlocked reach).auth.unlocked = true :=
  by
  refine congrArg AuthSt.unlocked (each_keeps State.auth ?_ _ _)
  exact fun _ _ => rfl

theorem unlocked_part (reach : List PartId) (q : Nat) :
    (s.unlocked reach).part q = if q ∈ s.debugReach reach then countSession (s.part q) else s.part q :=
  part_each_onPart (nodup_setOf _ _) _ countSession q

variable {w : WeaverId}

theorem exec_debugHalt (h : s.auth.unlocked = true) :
    exec (.debugHalt w) s = .next (s.onAuth fun a =>
      if (s.weaver w.val).run.any (fun r => !(s.part r.s.part).dbg) then { a with haltWait := setAdd a.haltWait w.val }
      else { a with halted := setAdd a.halted w.val }) :=
  if_neg (by simp [h])

theorem exec_debugHalt_locked (h : s.auth.unlocked = false) : exec (.debugHalt w) s = .next s := if_pos (by simp [h])

/-- An idle weaver halts at once, and so does one whose stroke consents. -/
theorem exec_debugHalt_now (h : s.auth.unlocked = true) (hrun : (s.weaver w.val).run.any (fun r => !(s.part r.s.part).dbg) = false) :
    exec (.debugHalt w) s = .next (s.onAuth fun a => { a with halted := setAdd a.halted w.val }) := by
  rw [exec_debugHalt h, hrun]
  rfl

theorem exec_debugHalt_later (h : s.auth.unlocked = true) (hrun : (s.weaver w.val).run.any (fun r => !(s.part r.s.part).dbg) = true) :
    exec (.debugHalt w) s = .next (s.onAuth fun a => { a with haltWait := setAdd a.haltWait w.val }) := by
  rw [exec_debugHalt h, hrun]
  rfl

end Debug

/-- Settles O46: the record of a tagged instruction (`ownerSample_written`), the records of a snapshot boundary, whose writing
leaves the operator's snapshots (`writeSnap_aside`), and the debug path, which counts one session for each partition that it
reaches (`unlocked_part`). -/
theorem samplesSnapshotsAndDebug : Obligations.samples_snapshots_and_debug := by
  intro w m b p reach s g u
  refine ⟨exec_sampleRecordWrite_none, fun k htag => ⟨fun howner hoper => ?_, fun howner hoper => ?_, fun howner hoper hring => ?_,
      fun x pva lg howner hoper hring => ⟨fun hwrite => ?_, fun t hwrite => ?_⟩⟩,
    exec_snapshotRecordWrite_early, fun hround hspine => ⟨exec_snapshotRecordWrite_oper hround hspine, fun y hoper hone => ⟨fun hring => ?_, fun r t hring hput => ?_⟩⟩,
    fun hlease => ⟨_, exec_debugUnlock reach hlease, unlocked_open reach, fun q hreach hlive hdbg => ?_, fun q hnot => ?_⟩,
    exec_debugUnlock_unsigned reach,
    fun hopen => ⟨fun hrun => ?_, fun r hrun hdbg => ?_, fun r hrun hdbg => ?_⟩, exec_debugHalt_locked⟩
  · rw [exec_sampleRecordWrite htag, howner, hoper]; rfl
  · rw [exec_sampleRecordWrite htag, howner, hoper]; rfl
  · rw [exec_sampleRecordWrite htag, howner, hoper]
    exact congrArg Host.Outcome.next (ownerSample_unsampled (s := s.untag w.val) hring)
  · rw [exec_sampleRecordWrite htag, howner, hoper]
    exact congrArg Host.Outcome.next (ownerSample_lost (s := s.untag w.val) hring hwrite)
  · rw [exec_sampleRecordWrite htag, howner, hoper]
    exact congrArg Host.Outcome.next (ownerSample_written (s := s.untag w.val) hring hwrite)
  · rw [exec_snapshotRecordWrite_owner hround hspine hoper hone]
    exact congrArg _ (writeSnap_unringed hring)
  · rw [exec_snapshotRecordWrite_owner hround hspine hoper hone]
    exact congrArg _ (writeSnap_written hring hput)
  · exact (unlocked_part reach q.val).trans (if_pos (mem_debugReach.mpr ⟨hreach, hlive, hdbg⟩))
  · refine (unlocked_part reach q.val).trans (if_neg fun hmem => ?_)
    obtain ⟨hreach, hlive, hdbg⟩ := mem_debugReach.mp hmem
    rcases hnot with h | h | h
    · exact h hreach
    · simp [hlive] at h
    · simp [hdbg] at h
  · exact exec_debugHalt_now hopen (by simp [show (s.weaver w.val).run = none from hrun])
  · exact exec_debugHalt_now hopen (by simp [show (s.weaver w.val).run = some r from hrun, hdbg])
  · exact exec_debugHalt_later hopen (by simp [show (s.weaver w.val).run = some r from hrun, hdbg])

end Sys2Proof.Machine
